-- ==== Sys2Proof/Word.lean ====
section
/-!
DEFINITION. Sys2Proof/Word.lean: the byte, the byte string and the two word types of the manual.
-/

namespace Sys2Proof

/-- One byte of device memory, of an image or of a message. -/
abbrev Byte := BitVec 8

/-- A byte string, first byte first. Multi-byte numbers in it are little-endian (R4). -/
abbrev Bytes := List Byte

/-- A 32-bit word. -/
abbrev W32 := BitVec 32

/-- A 64-bit word. -/
abbrev W64 := BitVec 64

end Sys2Proof
end

