-- ==== Sys2Proof/Machine/Regs.lean ====
section
/-!
DEFINITION. Sys2Proof/Machine/Regs.lean: every register of the manual, written from its register tables: name, width, clock and reset
domains (R9), instances, and each named field with its bits, its type (R7) and its reset value. Reserved bits have no field (R6).
A field whose Reset column says "live" or "image" has here the value it shows before the hardware or the image sets it
(notes/assumptions/3.md).
-/

namespace Sys2Proof

/-- Every register the manual introduces, under the manual's name without its instance suffix. -/
inductive Reg where
  | MGT_GUARANTEE
  | AG_CONFIG
  | AG_MAP_LO
  | AG_MAP_HI
  | AG_SPARE
  | SPR_STATUS
  | SPR_CREDIT
  | SPR_SLOTS
  | SPR_PASS_CNT
  | SPR_CHK_CNT
  | SPR_CHK_FIRST
  | AG_FMT
  | AG_SR_SEED
  | AG_RED_PERMIT
  | SPR_CENSUS_A
  | SPR_CENSUS_B
  | SPR_CENSUS_C
  | SPR_CENSUS_D
  | SPR_ACC_ECC
  | MEM_REDTAB
  | MEM_ATU_STATUS
  | CUP_ATU_STATUS
  | MEM_ATU_REJECT
  | CUP_ATU_REJECT
  | MEM_ATU_FIRST
  | CUP_ATU_FIRST
  | STW_CMD
  | STW_PROG
  | STW_BYTES
  | STW_CONV
  | STW_FIRST
  | AG_CTX
  | AG_SEQ_EVENTS
  | BEL_RING
  | BEL_SET
  | BEL_TIMEOUT
  | BEL_EVENTS
  | BEL_STATE
  | TUR_STATUS
  | TUR_FAULT
  | TUR_LANE_CYCLES
  | AG_NUMTAB
  | AG_NUM_ADVANCE
  | AG_NUM_ALERT
  | SPR_AMAX
  | CUP_SPLIT
  | CUP_ECC
  | MEM_STACK
  | MEM_CHAN_ABSENT
  | MEM_ECC
  | MEM_ECC_FIRST
  | MEM_SCRUB
  | PGM_INVAL
  | PGM_FAULT
  | PGM_CUT
  | PGM_RESERVE
  | PGM_WINDOW
  | BWG_CFG
  | BWG_STATE
  | BWG_ISSUED
  | BWG_SPENT
  | BWG_CLIPPED
  | MGT_BFY_CORE
  | MGT_ETH
  | MGT_IMAGE_ID
  | MGT_IMAGE_STATUS
  | MGT_PATCH_SEQ
  | LDIR_GEN
  | LDIR_LAST_NS
  | LDIR_CAUSE
  | LDIR_INDEX
  | LDIR_DATA
  | AON_STAGE
  | AON_STAGE_MS
  | AON_READY
  | PWR_STATUS
  | PWR_CAP
  | PWR_MEAS
  | PWR_OVERRIDE
  | CLK_AG
  | PCI_LINK
  | PCI_WIN
  | PCI_DB
  | PCI_RING
  | MBX_CTRL
  | MBX_STATUS
  | MBX_HEARTBEAT
  | MGT_WDOG
  | MGT_HOST
  | FAB_ADDR
  | FAB_PORT
  | FAB_LINK
  | FAB_OPT
  | FAB_DROP
  | FAB_TIME
  | FAB_ISOLATE
  | FAB_VGRP
  | FAB_VCFG
  | FAB_VCAST
  | FAB_VRES
  | FAB_VEXCL
  | FAB_ROUTE
  | FC_STATUS
  | FC_CFG
  | FC_BROKEN_LO
  | FC_BROKEN_HI
  | FC_FIRST_ADDR
  | FC_FIRST_TIME
  | FC_FIRST_INFO
  | FC_PEND
  | FC_ACK
  | FC_CNT_LO
  | FC_CNT_HI
  | FC_REC
  | GAL_GOAL
  | GAL_CNT
  | GAL_STEP
  | GAL_FIRST
  | GAL_QUAR
  | GAL_WARN
  | GAL_CAMP
  | LDG_AREA
  | LDG_SQ
  | LDG_DB
  | LDG_HEAD
  | LDG_TAIL
  | LDG_APPENDED
  | LDG_RELEASED
  | LDG_FLOOR
  | LDG_REPLAY
  | LDG_INBOX
  | LDG_INBOX_CNT
  | LDG_VOTE
  | LDG_STATUS
  | LDG_FIRST
  | SNP_CFG
  | SNP_TABLE
  | SNP_TRIGGER
  | SNP_STATUS
  | SNP_SEQ
  | SNP_DRAIN
  | SNP_MIRROR
  | SNP_STEPS
  | SNP_RESTORE
  | SNP_AGE
  | HNG_CFG
  | HNG_STATUS
  | HNG_STALE
  | HNG_REQ
  | HNG_DUMP
  | HNG_SLOT
  | SEC_STATUS
  | SEC_SIGIDX
  | SEC_SV_LO
  | SEC_SV_HI
  | SEC_CTR
  /-- not a register: the Layout Directory itself at offset 0 of PF0 BAR0 (R266), by aligned 8-byte unit, as a whole or by its low or high half -/
  | LDIR_TABLE
  | FC_LOG
  deriving DecidableEq, Repr

/-- Field types of R7. -/
inductive FTy where
  | RO | RW | RW1C | WO | RWS | RC
  deriving DecidableEq, Repr

/-- Reset domains of R9. -/
inductive ResetDomain where
  | AON | DEV | MGT | PART
  deriving DecidableEq, Repr

/-- What the first instance number of a register counts. -/
inductive InstUnit where
  | dev | group | array | stack | slice | part | idx
  deriving DecidableEq, Repr

/-- One named field of a register: bits [lsb + width - 1 : lsb] (R3), its type and its value at reset. -/
structure Fld where
  reg : Reg
  lsb : Nat
  width : Nat
  ty : FTy
  rst : Nat
  deriving DecidableEq, Repr

namespace F

/-- MGT_GUARANTEE [12:12], RW1C, reset 0. 1: Test vectors has lapsed since this bit was last cleared -/
abbrev MGT_GUARANTEE_LAPSED_VECTORS : Fld := ⟨.MGT_GUARANTEE, 12, 1, .RW1C, 0⟩
/-- MGT_GUARANTEE [11:11], RW1C, reset 0. 1: Silent errors has lapsed -/
abbrev MGT_GUARANTEE_LAPSED_SILENT : Fld := ⟨.MGT_GUARANTEE, 11, 1, .RW1C, 0⟩
/-- MGT_GUARANTEE [10:10], RW1C, reset 0. 1: Recovery has lapsed -/
abbrev MGT_GUARANTEE_LAPSED_RECOVERY : Fld := ⟨.MGT_GUARANTEE, 10, 1, .RW1C, 0⟩
/-- MGT_GUARANTEE [9:9], RW1C, reset 0. 1: Replay has lapsed -/
abbrev MGT_GUARANTEE_LAPSED_REPLAY : Fld := ⟨.MGT_GUARANTEE, 9, 1, .RW1C, 0⟩
/-- MGT_GUARANTEE [8:8], RW1C, reset 0. 1: Conservation has lapsed -/
abbrev MGT_GUARANTEE_LAPSED_CONSERVE : Fld := ⟨.MGT_GUARANTEE, 8, 1, .RW1C, 0⟩
/-- MGT_GUARANTEE [4:4], RO, reset live. 1: Test vectors holds now -/
abbrev MGT_GUARANTEE_HOLD_VECTORS : Fld := ⟨.MGT_GUARANTEE, 4, 1, .RO, 0⟩
/-- MGT_GUARANTEE [3:3], RO, reset live. 1: Silent errors holds now -/
abbrev MGT_GUARANTEE_HOLD_SILENT : Fld := ⟨.MGT_GUARANTEE, 3, 1, .RO, 0⟩
/-- MGT_GUARANTEE [2:2], RO, reset live. 1: Recovery holds now, as far as this device can judge -/
abbrev MGT_GUARANTEE_HOLD_RECOVERY : Fld := ⟨.MGT_GUARANTEE, 2, 1, .RO, 0⟩
/-- MGT_GUARANTEE [1:1], RO, reset live. 1: Replay holds now; reads 0 whenever the active image has the replay guarantee off -/
abbrev MGT_GUARANTEE_HOLD_REPLAY : Fld := ⟨.MGT_GUARANTEE, 1, 1, .RO, 0⟩
/-- MGT_GUARANTEE [0:0], RO, reset live. 1: Conservation holds now -/
abbrev MGT_GUARANTEE_HOLD_CONSERVE : Fld := ⟨.MGT_GUARANTEE, 0, 1, .RO, 0⟩
/-- AG_CONFIG [19:16], RO, reset image. Owning partition, 0-15 -/
abbrev AG_CONFIG_PARTITION : Fld := ⟨.AG_CONFIG, 16, 4, .RO, 0⟩
/-- AG_CONFIG [8:8], RO, reset image. 1: strict mode permitted -/
abbrev AG_CONFIG_STRICT_PERMIT : Fld := ⟨.AG_CONFIG, 8, 1, .RO, 0⟩
/-- AG_CONFIG [3:3], RO, reset image. 1: Wide permitted -/
abbrev AG_CONFIG_WIDE_PERMIT : Fld := ⟨.AG_CONFIG, 3, 1, .RO, 0⟩
/-- AG_CONFIG [2:2], RO, reset image. 1: Taller permitted -/
abbrev AG_CONFIG_TALLER_PERMIT : Fld := ⟨.AG_CONFIG, 2, 1, .RO, 0⟩
/-- AG_CONFIG [1:1], RO, reset image. 1: Tall permitted -/
abbrev AG_CONFIG_TALL_PERMIT : Fld := ⟨.AG_CONFIG, 1, 1, .RO, 0⟩
/-- AG_CONFIG [0:0], RO, reset image. 1: Square permitted -/
abbrev AG_CONFIG_SQUARE_PERMIT : Fld := ⟨.AG_CONFIG, 0, 1, .RO, 0⟩
/-- AG_MAP_LO [63:56], RO, reset image. Logical array i = 7: bit 7 valid, bits 6:5 reserved, bits 4:0 physical index j (0-16) -/
abbrev AG_MAP_LO_MAP7 : Fld := ⟨.AG_MAP_LO, 56, 8, .RO, 0⟩
/-- AG_MAP_LO [55:48], RO, reset image. As MAP7, for i = 6 -/
abbrev AG_MAP_LO_MAP6 : Fld := ⟨.AG_MAP_LO, 48, 8, .RO, 0⟩
/-- AG_MAP_LO [47:40], RO, reset image. As MAP7, for i = 5 -/
abbrev AG_MAP_LO_MAP5 : Fld := ⟨.AG_MAP_LO, 40, 8, .RO, 0⟩
/-- AG_MAP_LO [39:32], RO, reset image. As MAP7, for i = 4 -/
abbrev AG_MAP_LO_MAP4 : Fld := ⟨.AG_MAP_LO, 32, 8, .RO, 0⟩
/-- AG_MAP_LO [31:24], RO, reset image. As MAP7, for i = 3 -/
abbrev AG_MAP_LO_MAP3 : Fld := ⟨.AG_MAP_LO, 24, 8, .RO, 0⟩
/-- AG_MAP_LO [23:16], RO, reset image. As MAP7, for i = 2 -/
abbrev AG_MAP_LO_MAP2 : Fld := ⟨.AG_MAP_LO, 16, 8, .RO, 0⟩
/-- AG_MAP_LO [15:8], RO, reset image. As MAP7, for i = 1 -/
abbrev AG_MAP_LO_MAP1 : Fld := ⟨.AG_MAP_LO, 8, 8, .RO, 0⟩
/-- AG_MAP_LO [7:0], RO, reset image. As MAP7, for i = 0 -/
abbrev AG_MAP_LO_MAP0 : Fld := ⟨.AG_MAP_LO, 0, 8, .RO, 0⟩
/-- AG_MAP_HI [63:56], RO, reset image. Logical array i = 7: bit 7 valid, bits 6:5 reserved, bits 4:0 physical index j (0-16) -/
abbrev AG_MAP_HI_MAP7 : Fld := ⟨.AG_MAP_HI, 56, 8, .RO, 0⟩
/-- AG_MAP_HI [55:48], RO, reset image. As MAP7, for i = 6 -/
abbrev AG_MAP_HI_MAP6 : Fld := ⟨.AG_MAP_HI, 48, 8, .RO, 0⟩
/-- AG_MAP_HI [47:40], RO, reset image. As MAP7, for i = 5 -/
abbrev AG_MAP_HI_MAP5 : Fld := ⟨.AG_MAP_HI, 40, 8, .RO, 0⟩
/-- AG_MAP_HI [39:32], RO, reset image. As MAP7, for i = 4 -/
abbrev AG_MAP_HI_MAP4 : Fld := ⟨.AG_MAP_HI, 32, 8, .RO, 0⟩
/-- AG_MAP_HI [31:24], RO, reset image. As MAP7, for i = 3 -/
abbrev AG_MAP_HI_MAP3 : Fld := ⟨.AG_MAP_HI, 24, 8, .RO, 0⟩
/-- AG_MAP_HI [23:16], RO, reset image. As MAP7, for i = 2 -/
abbrev AG_MAP_HI_MAP2 : Fld := ⟨.AG_MAP_HI, 16, 8, .RO, 0⟩
/-- AG_MAP_HI [15:8], RO, reset image. As MAP7, for i = 1 -/
abbrev AG_MAP_HI_MAP1 : Fld := ⟨.AG_MAP_HI, 8, 8, .RO, 0⟩
/-- AG_MAP_HI [7:0], RO, reset image. As MAP7, for i = 0 -/
abbrev AG_MAP_HI_MAP0 : Fld := ⟨.AG_MAP_HI, 0, 8, .RO, 0⟩
/-- AG_SPARE [16:16], RO, reset live. 1: the spare has replaced an array -/
abbrev AG_SPARE_SPARE_USED : Fld := ⟨.AG_SPARE, 16, 1, .RO, 0⟩
/-- AG_SPARE [4:0], RO, reset image. Physical index j of the group's spare -/
abbrev AG_SPARE_SPARE_J : Fld := ⟨.AG_SPARE, 0, 5, .RO, 0⟩
/-- SPR_STATUS [31:28], RO, reset live. Current w, 2-12; 0 when idle -/
abbrev SPR_STATUS_W : Fld := ⟨.SPR_STATUS, 28, 4, .RO, 0⟩
/-- SPR_STATUS [27:26], RO, reset live. 00b Square, 01b Tall, 10b Taller, 11b Wide -/
abbrev SPR_STATUS_SHAPE : Fld := ⟨.SPR_STATUS, 26, 2, .RO, 0⟩
/-- SPR_STATUS [25:25], RO, reset live. 1: current pass in strict mode -/
abbrev SPR_STATUS_STRICT : Fld := ⟨.SPR_STATUS, 25, 1, .RO, 0⟩
/-- SPR_STATUS [24:24], RO, reset live. 1: a pass is in the array -/
abbrev SPR_STATUS_PASS_ACTIVE : Fld := ⟨.SPR_STATUS, 24, 1, .RO, 0⟩
/-- SPR_STATUS [23:23], RO, reset live. 1: all 256 shadow rows loaded -/
abbrev SPR_STATUS_SHADOW_READY : Fld := ⟨.SPR_STATUS, 23, 1, .RO, 0⟩
/-- SPR_STATUS [22:22], RW1C, reset 0. 1: a shadow load carried an uncorrected error -/
abbrev SPR_STATUS_SHADOW_POISON : Fld := ⟨.SPR_STATUS, 22, 1, .RW1C, 0⟩
/-- SPR_STATUS [15:8], RO, reset image. Logical array number 0-255 when LOGICAL_VALID is 1 -/
abbrev SPR_STATUS_LOGICAL : Fld := ⟨.SPR_STATUS, 8, 8, .RO, 0⟩
/-- SPR_STATUS [7:7], RO, reset image. 1: role is ACTIVE -/
abbrev SPR_STATUS_LOGICAL_VALID : Fld := ⟨.SPR_STATUS, 7, 1, .RO, 0⟩
/-- SPR_STATUS [2:0], RO, reset image. Role code from Roles of a physical array -/
abbrev SPR_STATUS_ROLE : Fld := ⟨.SPR_STATUS, 0, 3, .RO, 0⟩
/-- SPR_CREDIT [24:16], RO, reset live. Credits held by slots in flight -/
abbrev SPR_CREDIT_IN_FLIGHT : Fld := ⟨.SPR_CREDIT, 16, 9, .RO, 0⟩
/-- SPR_CREDIT [8:0], RO, reset live. Free credits; 288 when idle -/
abbrev SPR_CREDIT_FREE : Fld := ⟨.SPR_CREDIT, 0, 9, .RO, 288⟩
/-- SPR_SLOTS [63:32], RC, reset 0. Array cycles, counted once per cycle and not per lane, in which the lane of physical row 0 carried VALID at 0 at the injection column of segment 0 whi -/
abbrev SPR_SLOTS_BUBBLE_CYCLES : Fld := ⟨.SPR_SLOTS, 32, 32, .RC, 0⟩
/-- SPR_SLOTS [31:0], RC, reset 0. Elements started -/
abbrev SPR_SLOTS_VALID_SLOTS : Fld := ⟨.SPR_SLOTS, 0, 32, .RC, 0⟩
/-- SPR_PASS_CNT [63:0], RO, reset 0. Passes reported complete -/
abbrev SPR_PASS_CNT_PASSES : Fld := ⟨.SPR_PASS_CNT, 0, 64, .RO, 0⟩
/-- SPR_CHK_CNT [31:16], RC, reset 0. Checksum row mismatches -/
abbrev SPR_CHK_CNT_COL_MISMATCH : Fld := ⟨.SPR_CHK_CNT, 16, 16, .RC, 0⟩
/-- SPR_CHK_CNT [15:0], RC, reset 0. Checksum column mismatches -/
abbrev SPR_CHK_CNT_ROW_MISMATCH : Fld := ⟨.SPR_CHK_CNT, 0, 16, .RC, 0⟩
/-- SPR_CHK_FIRST [63:63], RW1C, reset 0. 1: capture holds; no new capture until cleared -/
abbrev SPR_CHK_FIRST_VALID : Fld := ⟨.SPR_CHK_FIRST, 63, 1, .RW1C, 0⟩
/-- SPR_CHK_FIRST [62:62], RO, reset 0. 0: checksum column (slot); 1: checksum row (column) -/
abbrev SPR_CHK_FIRST_KIND : Fld := ⟨.SPR_CHK_FIRST, 62, 1, .RO, 0⟩
/-- SPR_CHK_FIRST [55:40], RO, reset 0. Slot index within the pass, saturating at FFFFh; 0 for KIND 1 -/
abbrev SPR_CHK_FIRST_SLOT : Fld := ⟨.SPR_CHK_FIRST, 40, 16, .RO, 0⟩
/-- SPR_CHK_FIRST [39:32], RO, reset 0. Physical column for KIND 1; 0 for KIND 0 -/
abbrev SPR_CHK_FIRST_COLUMN : Fld := ⟨.SPR_CHK_FIRST, 32, 8, .RO, 0⟩
/-- SPR_CHK_FIRST [31:0], RO, reset 0. Low 32 bits of SPR_PASS_CNT.PASSES for the pass concerned -/
abbrev SPR_CHK_FIRST_PASS : Fld := ⟨.SPR_CHK_FIRST, 0, 32, .RO, 0⟩
/-- AG_FMT [63:63], RO, reset 0. 1: the value passed validation and the slot may be named; ignored on a write -/
abbrev AG_FMT_VALID : Fld := ⟨.AG_FMT, 63, 1, .RO, 0⟩
/-- AG_FMT [55:48], RO, reset 0. Validation result, from Descriptor validation results -/
abbrev AG_FMT_ERROR : Fld := ⟨.AG_FMT, 48, 8, .RO, 0⟩
/-- AG_FMT [21:20], RW, reset 0. Allowed scale kinds: 00b none; 01b none or per-tensor; 10b block; 11b none, per-tensor or block -/
abbrev AG_FMT_SCALE : Fld := ⟨.AG_FMT, 20, 2, .RW, 0⟩
/-- AG_FMT [18:18], RW, reset 0. 1: subnormals supported; 0: subnormals flushed under R59 -/
abbrev AG_FMT_SUBN : Fld := ⟨.AG_FMT, 18, 1, .RW, 0⟩
/-- AG_FMT [17:16], RW, reset 0. Special-value policy, from Special-value policies -/
abbrev AG_FMT_SPECIAL : Fld := ⟨.AG_FMT, 16, 2, .RW, 0⟩
/-- AG_FMT [15:8], RW, reset 0. Exponent bias, 0-255 -/
abbrev AG_FMT_BIAS : Fld := ⟨.AG_FMT, 8, 8, .RW, 0⟩
/-- AG_FMT [7:4], RW, reset 0. Precision p, including the hidden bit, 1-12 -/
abbrev AG_FMT_PW : Fld := ⟨.AG_FMT, 4, 4, .RW, 0⟩
/-- AG_FMT [3:0], RW, reset 0. Exponent width e, 1-8 -/
abbrev AG_FMT_EW : Fld := ⟨.AG_FMT, 0, 4, .RW, 0⟩
/-- AG_SR_SEED [63:0], RW, reset 0. Job seed for the carillon generator in this array group -/
abbrev AG_SR_SEED_SEED : Fld := ⟨.AG_SR_SEED, 0, 64, .RW, 0⟩
/-- AG_RED_PERMIT [3:3], RO, reset image. 1: the active image has the replay guarantee on -/
abbrev AG_RED_PERMIT_REPLAY : Fld := ⟨.AG_RED_PERMIT, 3, 1, .RO, 0⟩
/-- AG_RED_PERMIT [2:2], RO, reset image. 1: exact class permitted -/
abbrev AG_RED_PERMIT_EXACT_PERMIT : Fld := ⟨.AG_RED_PERMIT, 2, 1, .RO, 0⟩
/-- AG_RED_PERMIT [1:1], RO, reset image. 1: ordered class permitted -/
abbrev AG_RED_PERMIT_ORDERED_PERMIT : Fld := ⟨.AG_RED_PERMIT, 1, 1, .RO, 0⟩
/-- AG_RED_PERMIT [0:0], RO, reset image. 1: arrival class permitted; always 0 when REPLAY is 1 -/
abbrev AG_RED_PERMIT_ARRIVAL_PERMIT : Fld := ⟨.AG_RED_PERMIT, 0, 1, .RO, 0⟩
/-- SPR_CENSUS_A [63:32], RO, reset 0. SUBNORMAL outcomes of the current or last descriptor -/
abbrev SPR_CENSUS_A_SUBNORMAL : Fld := ⟨.SPR_CENSUS_A, 32, 32, .RO, 0⟩
/-- SPR_CENSUS_A [31:0], RO, reset 0. NORMAL outcomes -/
abbrev SPR_CENSUS_A_NORMAL : Fld := ⟨.SPR_CENSUS_A, 0, 32, .RO, 0⟩
/-- SPR_CENSUS_B [63:32], RO, reset 0. VANISHED outcomes -/
abbrev SPR_CENSUS_B_VANISHED : Fld := ⟨.SPR_CENSUS_B, 32, 32, .RO, 0⟩
/-- SPR_CENSUS_B [31:0], RO, reset 0. ZERO outcomes -/
abbrev SPR_CENSUS_B_ZERO : Fld := ⟨.SPR_CENSUS_B, 0, 32, .RO, 0⟩
/-- SPR_CENSUS_C [63:32], RO, reset 0. NAN outcomes -/
abbrev SPR_CENSUS_C_NAN : Fld := ⟨.SPR_CENSUS_C, 32, 32, .RO, 0⟩
/-- SPR_CENSUS_C [31:0], RO, reset 0. INF outcomes -/
abbrev SPR_CENSUS_C_INF : Fld := ⟨.SPR_CENSUS_C, 0, 32, .RO, 0⟩
/-- SPR_CENSUS_D [63:32], RO, reset 0. Elements set to NaN under R104 -/
abbrev SPR_CENSUS_D_EXACT_RANGE : Fld := ⟨.SPR_CENSUS_D, 32, 32, .RO, 0⟩
/-- SPR_CENSUS_D [31:0], RO, reset 0. OVERFLOW outcomes -/
abbrev SPR_CENSUS_D_OVERFLOW : Fld := ⟨.SPR_CENSUS_D, 0, 32, .RO, 0⟩
/-- SPR_ACC_ECC [31:16], RC, reset 0. Accumulator words read with an uncorrected error -/
abbrev SPR_ACC_ECC_UNCORRECTED : Fld := ⟨.SPR_ACC_ECC, 16, 16, .RC, 0⟩
/-- SPR_ACC_ECC [15:0], RC, reset 0. Accumulator words corrected -/
abbrev SPR_ACC_ECC_CORRECTED : Fld := ⟨.SPR_ACC_ECC, 0, 16, .RC, 0⟩
/-- MEM_REDTAB [63:12], RW, reset 0. Bits 63:12 of the reduction table's device address -/
abbrev MEM_REDTAB_BASE : Fld := ⟨.MEM_REDTAB, 12, 52, .RW, 0⟩
/-- MEM_REDTAB [11:0], RW, reset 0. Entries in the table, 0-4,095; 0: partition p has no reductions -/
abbrev MEM_REDTAB_COUNT : Fld := ⟨.MEM_REDTAB, 0, 12, .RW, 0⟩
/-- MEM_ATU_STATUS [31:24], RO, reset live. Entries open in this unit -/
abbrev MEM_ATU_STATUS_ACTIVE : Fld := ⟨.MEM_ATU_STATUS, 24, 8, .RO, 0⟩
/-- MEM_ATU_STATUS [23:16], RC, reset 0. Entries failed under R117 -/
abbrev MEM_ATU_STATUS_FAILED : Fld := ⟨.MEM_ATU_STATUS, 16, 8, .RC, 0⟩
/-- MEM_ATU_STATUS [15:0], RO, reset live. Contributions partly received -/
abbrev MEM_ATU_STATUS_INFLIGHT : Fld := ⟨.MEM_ATU_STATUS, 0, 16, .RO, 0⟩
/-- CUP_ATU_STATUS [31:24], RO, reset live. Entries open in this unit -/
abbrev CUP_ATU_STATUS_ACTIVE : Fld := ⟨.CUP_ATU_STATUS, 24, 8, .RO, 0⟩
/-- CUP_ATU_STATUS [23:16], RC, reset 0. Entries failed under R117 -/
abbrev CUP_ATU_STATUS_FAILED : Fld := ⟨.CUP_ATU_STATUS, 16, 8, .RC, 0⟩
/-- CUP_ATU_STATUS [15:0], RO, reset live. Contributions partly received -/
abbrev CUP_ATU_STATUS_INFLIGHT : Fld := ⟨.CUP_ATU_STATUS, 0, 16, .RO, 0⟩
/-- MEM_ATU_REJECT [59:50], RC, reset 0. Rejections with code 06h -/
abbrev MEM_ATU_REJECT_DUPLICATE : Fld := ⟨.MEM_ATU_REJECT, 50, 10, .RC, 0⟩
/-- MEM_ATU_REJECT [49:40], RC, reset 0. Rejections with code 05h -/
abbrev MEM_ATU_REJECT_INDEX : Fld := ⟨.MEM_ATU_REJECT, 40, 10, .RC, 0⟩
/-- MEM_ATU_REJECT [39:30], RC, reset 0. Rejections with code 04h -/
abbrev MEM_ATU_REJECT_MISMATCH : Fld := ⟨.MEM_ATU_REJECT, 30, 10, .RC, 0⟩
/-- MEM_ATU_REJECT [29:20], RC, reset 0. Rejections with code 03h -/
abbrev MEM_ATU_REJECT_FORBIDDEN : Fld := ⟨.MEM_ATU_REJECT, 20, 10, .RC, 0⟩
/-- MEM_ATU_REJECT [19:10], RC, reset 0. Rejections with code 02h -/
abbrev MEM_ATU_REJECT_OWNER : Fld := ⟨.MEM_ATU_REJECT, 10, 10, .RC, 0⟩
/-- MEM_ATU_REJECT [9:0], RC, reset 0. Rejections with code 01h -/
abbrev MEM_ATU_REJECT_NOT_OPEN : Fld := ⟨.MEM_ATU_REJECT, 0, 10, .RC, 0⟩
/-- CUP_ATU_REJECT [59:50], RC, reset 0. Rejections with code 06h -/
abbrev CUP_ATU_REJECT_DUPLICATE : Fld := ⟨.CUP_ATU_REJECT, 50, 10, .RC, 0⟩
/-- CUP_ATU_REJECT [49:40], RC, reset 0. Rejections with code 05h -/
abbrev CUP_ATU_REJECT_INDEX : Fld := ⟨.CUP_ATU_REJECT, 40, 10, .RC, 0⟩
/-- CUP_ATU_REJECT [39:30], RC, reset 0. Rejections with code 04h -/
abbrev CUP_ATU_REJECT_MISMATCH : Fld := ⟨.CUP_ATU_REJECT, 30, 10, .RC, 0⟩
/-- CUP_ATU_REJECT [29:20], RC, reset 0. Rejections with code 03h -/
abbrev CUP_ATU_REJECT_FORBIDDEN : Fld := ⟨.CUP_ATU_REJECT, 20, 10, .RC, 0⟩
/-- CUP_ATU_REJECT [19:10], RC, reset 0. Rejections with code 02h -/
abbrev CUP_ATU_REJECT_OWNER : Fld := ⟨.CUP_ATU_REJECT, 10, 10, .RC, 0⟩
/-- CUP_ATU_REJECT [9:0], RC, reset 0. Rejections with code 01h -/
abbrev CUP_ATU_REJECT_NOT_OPEN : Fld := ⟨.CUP_ATU_REJECT, 0, 10, .RC, 0⟩
/-- MEM_ATU_FIRST [63:63], RW1C, reset 0. 1: capture holds; no new capture until cleared -/
abbrev MEM_ATU_FIRST_VALID : Fld := ⟨.MEM_ATU_FIRST, 63, 1, .RW1C, 0⟩
/-- MEM_ATU_FIRST [55:48], RO, reset 0. Rejection code -/
abbrev MEM_ATU_FIRST_CODE : Fld := ⟨.MEM_ATU_FIRST, 48, 8, .RO, 0⟩
/-- MEM_ATU_FIRST [47:36], RO, reset 0. Reduction handle -/
abbrev MEM_ATU_FIRST_HANDLE : Fld := ⟨.MEM_ATU_FIRST, 36, 12, .RO, 0⟩
/-- MEM_ATU_FIRST [35:32], RO, reset 0. Destination partition -/
abbrev MEM_ATU_FIRST_PARTITION : Fld := ⟨.MEM_ATU_FIRST, 32, 4, .RO, 0⟩
/-- MEM_ATU_FIRST [31:20], RO, reset 0. Contributor index i -/
abbrev MEM_ATU_FIRST_CONTRIB : Fld := ⟨.MEM_ATU_FIRST, 20, 12, .RO, 0⟩
/-- MEM_ATU_FIRST [15:0], RO, reset 0. Fabric address of the contributing device; this device's own address for local contributions -/
abbrev MEM_ATU_FIRST_SOURCE : Fld := ⟨.MEM_ATU_FIRST, 0, 16, .RO, 0⟩
/-- CUP_ATU_FIRST [63:63], RW1C, reset 0. 1: capture holds; no new capture until cleared -/
abbrev CUP_ATU_FIRST_VALID : Fld := ⟨.CUP_ATU_FIRST, 63, 1, .RW1C, 0⟩
/-- CUP_ATU_FIRST [55:48], RO, reset 0. Rejection code -/
abbrev CUP_ATU_FIRST_CODE : Fld := ⟨.CUP_ATU_FIRST, 48, 8, .RO, 0⟩
/-- CUP_ATU_FIRST [47:36], RO, reset 0. Reduction handle -/
abbrev CUP_ATU_FIRST_HANDLE : Fld := ⟨.CUP_ATU_FIRST, 36, 12, .RO, 0⟩
/-- CUP_ATU_FIRST [35:32], RO, reset 0. Destination partition -/
abbrev CUP_ATU_FIRST_PARTITION : Fld := ⟨.CUP_ATU_FIRST, 32, 4, .RO, 0⟩
/-- CUP_ATU_FIRST [31:20], RO, reset 0. Contributor index i -/
abbrev CUP_ATU_FIRST_CONTRIB : Fld := ⟨.CUP_ATU_FIRST, 20, 12, .RO, 0⟩
/-- CUP_ATU_FIRST [15:0], RO, reset 0. Fabric address of the contributing device; this device's own address for local contributions -/
abbrev CUP_ATU_FIRST_SOURCE : Fld := ⟨.CUP_ATU_FIRST, 0, 16, .RO, 0⟩
/-- STW_CMD [63:6], RO, reset live. Bits 63:6 of the address of the current or last command -/
abbrev STW_CMD_CMD_ADDR : Fld := ⟨.STW_CMD, 6, 58, .RO, 0⟩
/-- STW_CMD [0:0], RO, reset live. 1: a command is running -/
abbrev STW_CMD_ACTIVE : Fld := ⟨.STW_CMD, 0, 1, .RO, 0⟩
/-- STW_PROG [31:24], RO, reset 0. Completion code of the last command -/
abbrev STW_PROG_LAST_CODE : Fld := ⟨.STW_PROG, 24, 8, .RO, 0⟩
/-- STW_PROG [10:0], RO, reset live. Progress of the current or last command: for STREAM and SHADOW, the tile header's READY; for LINEAR, the rows written, modulo 2,048 -/
abbrev STW_PROG_READY : Fld := ⟨.STW_PROG, 0, 11, .RO, 0⟩
/-- STW_BYTES [63:0], RC, reset 0. Destination bytes written -/
abbrev STW_BYTES_BYTES : Fld := ⟨.STW_BYTES, 0, 64, .RC, 0⟩
/-- STW_CONV [63:32], RC, reset 0. OVERFLOW outcomes of copy conversions -/
abbrev STW_CONV_OVERFLOW : Fld := ⟨.STW_CONV, 32, 32, .RC, 0⟩
/-- STW_CONV [31:0], RC, reset 0. VANISHED outcomes of copy conversions -/
abbrev STW_CONV_VANISHED : Fld := ⟨.STW_CONV, 0, 32, .RC, 0⟩
/-- STW_FIRST [63:63], RW1C, reset 0. 1: capture holds; no new capture until cleared -/
abbrev STW_FIRST_VALID : Fld := ⟨.STW_FIRST, 63, 1, .RW1C, 0⟩
/-- STW_FIRST [57:56], RO, reset 0. Engine that failed first -/
abbrev STW_FIRST_ENGINE : Fld := ⟨.STW_FIRST, 56, 2, .RO, 0⟩
/-- STW_FIRST [55:48], RO, reset 0. Its completion code, 01h-07h -/
abbrev STW_FIRST_CODE : Fld := ⟨.STW_FIRST, 48, 8, .RO, 0⟩
/-- STW_FIRST [47:6], RO, reset 0. Bits 47:6 of its command address -/
abbrev STW_FIRST_CMD_ADDR : Fld := ⟨.STW_FIRST, 6, 42, .RO, 0⟩
/-- AG_CTX [63:48], RO, reset 0. INDEX of the descriptor that halted the context -/
abbrev AG_CTX_HALT_INDEX : Fld := ⟨.AG_CTX, 48, 16, .RO, 0⟩
/-- AG_CTX [47:40], RO, reset 0. Its status -/
abbrev AG_CTX_HALT_STATUS : Fld := ⟨.AG_CTX, 40, 8, .RO, 0⟩
/-- AG_CTX [33:33], WO, reset 0. 1: leave HALTED under R164 and R179, starting again at the halted descriptor -/
abbrev AG_CTX_RETRY : Fld := ⟨.AG_CTX, 33, 1, .WO, 0⟩
/-- AG_CTX [32:32], WO, reset 0. 1: leave HALTED, continuing after the halted descriptor or region -/
abbrev AG_CTX_RESUME : Fld := ⟨.AG_CTX, 32, 1, .WO, 0⟩
/-- AG_CTX [18:16], RO, reset live. Current region level -/
abbrev AG_CTX_LEVEL : Fld := ⟨.AG_CTX, 16, 3, .RO, 0⟩
/-- AG_CTX [15:15], RO, reset live. 1: the head lies inside a region -/
abbrev AG_CTX_IN_REGION : Fld := ⟨.AG_CTX, 15, 1, .RO, 0⟩
/-- AG_CTX [1:0], RO, reset live. 00b idle, 01b running, 10b halted, 11b head waiting on a bell -/
abbrev AG_CTX_STATE : Fld := ⟨.AG_CTX, 0, 2, .RO, 0⟩
/-- AG_SEQ_EVENTS [63:48], RC, reset 0. PROMOTED records written -/
abbrev AG_SEQ_EVENTS_PROMOTIONS : Fld := ⟨.AG_SEQ_EVENTS, 48, 16, .RC, 0⟩
/-- AG_SEQ_EVENTS [47:32], RC, reset 0. OVERFLOW_FINAL records written -/
abbrev AG_SEQ_EVENTS_FINAL : Fld := ⟨.AG_SEQ_EVENTS, 32, 16, .RC, 0⟩
/-- AG_SEQ_EVENTS [31:16], RC, reset 0. REJECTED records written -/
abbrev AG_SEQ_EVENTS_REJECTED : Fld := ⟨.AG_SEQ_EVENTS, 16, 16, .RC, 0⟩
/-- AG_SEQ_EVENTS [15:0], RC, reset 0. Contexts halted -/
abbrev AG_SEQ_EVENTS_HALTS : Fld := ⟨.AG_SEQ_EVENTS, 0, 16, .RC, 0⟩
/-- BEL_RING [43:32], WO, reset 0. Bell to ring -/
abbrev BEL_RING_BELL : Fld := ⟨.BEL_RING, 32, 12, .WO, 0⟩
/-- BEL_RING [31:0], WO, reset 0. Count to add; 0 has no effect -/
abbrev BEL_RING_COUNT : Fld := ⟨.BEL_RING, 0, 32, .WO, 0⟩
/-- BEL_SET [43:32], WO, reset 0. Bell to set -/
abbrev BEL_SET_BELL : Fld := ⟨.BEL_SET, 32, 12, .WO, 0⟩
/-- BEL_SET [31:0], WO, reset 0. New count, applied under R169 -/
abbrev BEL_SET_VALUE : Fld := ⟨.BEL_SET, 0, 32, .WO, 0⟩
/-- BEL_TIMEOUT [25:0], RW, reset F_4240h. Default wait timeout in µs; 0 acts as 1, values above 60,000,000 act as 60,000,000 -/
abbrev BEL_TIMEOUT_DEFAULT_US : Fld := ⟨.BEL_TIMEOUT, 0, 26, .RW, 1000000⟩
/-- BEL_EVENTS [63:48], RC, reset 0. Waits expired -/
abbrev BEL_EVENTS_TIMEOUTS : Fld := ⟨.BEL_EVENTS, 48, 16, .RC, 0⟩
/-- BEL_EVENTS [47:32], RC, reset 0. Rings refused under R165 or R168, from every source -/
abbrev BEL_EVENTS_RING_REFUSED : Fld := ⟨.BEL_EVENTS, 32, 16, .RC, 0⟩
/-- BEL_EVENTS [31:16], RC, reset 0. BEL_SET writes refused -/
abbrev BEL_EVENTS_SET_REFUSED : Fld := ⟨.BEL_EVENTS, 16, 16, .RC, 0⟩
/-- BEL_STATE [39:32], RO, reset live. Registered waits, 0-128 -/
abbrev BEL_STATE_WAITERS : Fld := ⟨.BEL_STATE, 32, 8, .RO, 0⟩
/-- BEL_STATE [31:0], RO, reset live. Current count -/
abbrev BEL_STATE_COUNT : Fld := ⟨.BEL_STATE, 0, 32, .RO, 0⟩
/-- TUR_STATUS [63:6], RO, reset live. Bits 63:6 of the running or last program entry -/
abbrev TUR_STATUS_PROG_ADDR : Fld := ⟨.TUR_STATUS, 6, 58, .RO, 0⟩
/-- TUR_STATUS [1:1], RO, reset live. 1: a descriptor holds the staged place -/
abbrev TUR_STATUS_STAGED : Fld := ⟨.TUR_STATUS, 1, 1, .RO, 0⟩
/-- TUR_STATUS [0:0], RO, reset live. 1: a program is running -/
abbrev TUR_STATUS_RUNNING : Fld := ⟨.TUR_STATUS, 0, 1, .RO, 0⟩
/-- TUR_FAULT [63:63], RW1C, reset 0. 1: capture holds; no new capture until cleared -/
abbrev TUR_FAULT_VALID : Fld := ⟨.TUR_FAULT, 63, 1, .RW1C, 0⟩
/-- TUR_FAULT [39:32], RO, reset 0. Turret fault code -/
abbrev TUR_FAULT_CODE : Fld := ⟨.TUR_FAULT, 32, 8, .RO, 0⟩
/-- TUR_FAULT [31:0], RO, reset 0. Bits 31:0 of the faulting program counter -/
abbrev TUR_FAULT_PC : Fld := ⟨.TUR_FAULT, 0, 32, .RO, 0⟩
/-- TUR_LANE_CYCLES [63:0], RC, reset 0. Array cycles with a program running -/
abbrev TUR_LANE_CYCLES_BUSY : Fld := ⟨.TUR_LANE_CYCLES, 0, 64, .RC, 0⟩
/-- AG_NUMTAB [63:12], RW, reset 0. Bits 63:12 of the numerics table's device address -/
abbrev AG_NUMTAB_BASE : Fld := ⟨.AG_NUMTAB, 12, 52, .RW, 0⟩
/-- AG_NUMTAB [0:0], RW, reset 0. 1: the partition updates the table; 0: no update, no advance, and every per-tensor output scale is 7Fh -/
abbrev AG_NUMTAB_ENABLE : Fld := ⟨.AG_NUMTAB, 0, 1, .RW, 0⟩
/-- AG_NUM_ADVANCE [63:63], RO, reset live. 1: an advance is in progress; always 0 outside the home array group -/
abbrev AG_NUM_ADVANCE_BUSY : Fld := ⟨.AG_NUM_ADVANCE, 63, 1, .RO, 0⟩
/-- AG_NUM_ADVANCE [31:0], RW, reset 0. Write: start an advance to this step (R186), home array group only; read: last step written -/
abbrev AG_NUM_ADVANCE_STEP : Fld := ⟨.AG_NUM_ADVANCE, 0, 32, .RW, 0⟩
/-- AG_NUM_ALERT [25:16], RO, reset 0. Watch entry of the first watch alert since WATCH_HIGH and WATCH_LOW were last both 0 -/
abbrev AG_NUM_ALERT_FIRST_LAYER : Fld := ⟨.AG_NUM_ALERT, 16, 10, .RO, 0⟩
/-- AG_NUM_ALERT [3:3], RW1C, reset 0. 1: an update was refused under R185 -/
abbrev AG_NUM_ALERT_OFFSTEP : Fld := ⟨.AG_NUM_ALERT, 3, 1, .RW1C, 0⟩
/-- AG_NUM_ALERT [2:2], RW1C, reset 0. 1: a GRAD tensor was converted under a mode other than SR -/
abbrev AG_NUM_ALERT_NONSR : Fld := ⟨.AG_NUM_ALERT, 2, 1, .RW1C, 0⟩
/-- AG_NUM_ALERT [1:1], RW1C, reset 0. 1: a RATIO fell below LOW -/
abbrev AG_NUM_ALERT_WATCH_LOW : Fld := ⟨.AG_NUM_ALERT, 1, 1, .RW1C, 0⟩
/-- AG_NUM_ALERT [0:0], RW1C, reset 0. 1: a RATIO exceeded HIGH or was NaN -/
abbrev AG_NUM_ALERT_WATCH_HIGH : Fld := ⟨.AG_NUM_ALERT, 0, 1, .RW1C, 0⟩
/-- SPR_AMAX [31:0], RO, reset 0. binary32 amax of the current or last descriptor (R184) -/
abbrev SPR_AMAX_AMAX : Fld := ⟨.SPR_AMAX, 0, 32, .RO, 0⟩
/-- CUP_SPLIT [7:4], RO, reset image. Owning partition -/
abbrev CUP_SPLIT_PARTITION : Fld := ⟨.CUP_SPLIT, 4, 4, .RO, 0⟩
/-- CUP_SPLIT [2:0], RO, reset image. Cache share C, 0-6 -/
abbrev CUP_SPLIT_CACHE_UNITS : Fld := ⟨.CUP_SPLIT, 0, 3, .RO, 0⟩
/-- CUP_ECC [63:32], RC, reset 0. Words read with an uncorrected error -/
abbrev CUP_ECC_UNCORRECTED : Fld := ⟨.CUP_ECC, 32, 32, .RC, 0⟩
/-- CUP_ECC [31:0], RC, reset 0. Words corrected -/
abbrev CUP_ECC_CORRECTED : Fld := ⟨.CUP_ECC, 0, 32, .RC, 0⟩
/-- MEM_STACK [31:24], RO, reset live. Stack temperature in °C, two's complement -/
abbrev MEM_STACK_TEMP : Fld := ⟨.MEM_STACK, 24, 8, .RO, 0⟩
/-- MEM_STACK [23:22], RO, reset live. Refresh rate: 00b 1×, 01b 2×, 10b 4×, 11b 8× -/
abbrev MEM_STACK_RATE : Fld := ⟨.MEM_STACK, 22, 2, .RO, 0⟩
/-- MEM_STACK [21:21], RO, reset live. 1: the channel limit of Refresh against stack temperature applies -/
abbrev MEM_STACK_LIMITED : Fld := ⟨.MEM_STACK, 21, 1, .RO, 0⟩
/-- MEM_STACK [15:0], RC, reset 0. Refresh rate rises -/
abbrev MEM_STACK_RISES : Fld := ⟨.MEM_STACK, 0, 16, .RC, 0⟩
/-- MEM_CHAN_ABSENT [63:0], RO, reset live. Bit c = 1: channel c failed training at the last Dome -/
abbrev MEM_CHAN_ABSENT_ABSENT : Fld := ⟨.MEM_CHAN_ABSENT, 0, 64, .RO, 0⟩
/-- MEM_ECC [63:57], RO, reset live. Channels with an erased lane, 0-64 -/
abbrev MEM_ECC_ERASED_LANES : Fld := ⟨.MEM_ECC, 57, 7, .RO, 0⟩
/-- MEM_ECC [47:32], RC, reset 0. Reads that delivered poisoned data -/
abbrev MEM_ECC_POISON_READS : Fld := ⟨.MEM_ECC, 32, 16, .RC, 0⟩
/-- MEM_ECC [31:16], RC, reset 0. Bursts found uncorrected -/
abbrev MEM_ECC_UNCORRECTED : Fld := ⟨.MEM_ECC, 16, 16, .RC, 0⟩
/-- MEM_ECC [15:0], RC, reset 0. Bursts corrected -/
abbrev MEM_ECC_CORRECTED : Fld := ⟨.MEM_ECC, 0, 16, .RC, 0⟩
/-- MEM_ECC_FIRST [63:63], RW1C, reset 0. 1: capture holds; no new capture until cleared -/
abbrev MEM_ECC_FIRST_VALID : Fld := ⟨.MEM_ECC_FIRST, 63, 1, .RW1C, 0⟩
/-- MEM_ECC_FIRST [62:61], RO, reset 0. 00b uncorrected read; 01b uncorrected scrub; 10b narrow write to a poisoned burst; 11b lane erased -/
abbrev MEM_ECC_FIRST_KIND : Fld := ⟨.MEM_ECC_FIRST, 61, 2, .RO, 0⟩
/-- MEM_ECC_FIRST [60:55], RO, reset 0. Channel 0-63 -/
abbrev MEM_ECC_FIRST_CHANNEL : Fld := ⟨.MEM_ECC_FIRST, 55, 6, .RO, 0⟩
/-- MEM_ECC_FIRST [54:50], RO, reset 0. Lane 0-17 for KIND 11b; otherwise 0 -/
abbrev MEM_ECC_FIRST_LANE : Fld := ⟨.MEM_ECC_FIRST, 50, 5, .RO, 0⟩
/-- MEM_ECC_FIRST [49:27], RO, reset 0. Bits 29:7 of the channel address -/
abbrev MEM_ECC_FIRST_BURST : Fld := ⟨.MEM_ECC_FIRST, 27, 23, .RO, 0⟩
/-- MEM_SCRUB [31:16], RO, reset 0. Completed scrub passes over the stack -/
abbrev MEM_SCRUB_PASSES : Fld := ⟨.MEM_SCRUB, 16, 16, .RO, 0⟩
/-- MEM_SCRUB [7:0], RW, reset 18h. Scrub period in hours; 0 acts as 1; values above 168 act as 168 -/
abbrev MEM_SCRUB_PERIOD_H : Fld := ⟨.MEM_SCRUB, 0, 8, .RW, 24⟩
/-- PGM_INVAL [63:63], RO, reset live. 1: the last invalidation has completed (R210); a write while 0 has no effect -/
abbrev PGM_INVAL_DONE : Fld := ⟨.PGM_INVAL, 63, 1, .RO, 1⟩
/-- PGM_INVAL [62:62], WO, reset 0. 1: every entry owned by PARTITION -/
abbrev PGM_INVAL_ALL : Fld := ⟨.PGM_INVAL, 62, 1, .WO, 0⟩
/-- PGM_INVAL [61:58], WO, reset 0. Partition for ALL -/
abbrev PGM_INVAL_PARTITION : Fld := ⟨.PGM_INVAL, 58, 4, .WO, 0⟩
/-- PGM_INVAL [47:24], WO, reset 0. First VPN of the range -/
abbrev PGM_INVAL_VPN : Fld := ⟨.PGM_INVAL, 24, 24, .WO, 0⟩
/-- PGM_INVAL [23:0], WO, reset 0. Entries in the range, minus 1 -/
abbrev PGM_INVAL_COUNT_M1 : Fld := ⟨.PGM_INVAL, 0, 24, .WO, 0⟩
/-- PGM_FAULT [63:63], RW1C, reset 0. 1: capture holds; no new capture until cleared -/
abbrev PGM_FAULT_VALID : Fld := ⟨.PGM_FAULT, 63, 1, .RW1C, 0⟩
/-- PGM_FAULT [62:60], RO, reset 0. 1 TRANSLATION, 2 OWNERSHIP, 3 PROTECTION, 4 POISONED -/
abbrev PGM_FAULT_CODE : Fld := ⟨.PGM_FAULT, 60, 3, .RO, 0⟩
/-- PGM_FAULT [59:56], RO, reset 0. Requester's partition -/
abbrev PGM_FAULT_PARTITION : Fld := ⟨.PGM_FAULT, 56, 4, .RO, 0⟩
/-- PGM_FAULT [55:49], RO, reset 0. Requesting unit, as the fault collector's master code -/
abbrev PGM_FAULT_UNIT : Fld := ⟨.PGM_FAULT, 49, 7, .RO, 0⟩
/-- PGM_FAULT [48:48], RO, reset 0. 1: write -/
abbrev PGM_FAULT_WRITE : Fld := ⟨.PGM_FAULT, 48, 1, .RO, 0⟩
/-- PGM_FAULT [47:0], RO, reset 0. Device address -/
abbrev PGM_FAULT_ADDRESS : Fld := ⟨.PGM_FAULT, 0, 48, .RO, 0⟩
/-- PGM_CUT [63:63], RO, reset live. 1: a cut is in force -/
abbrev PGM_CUT_ACTIVE : Fld := ⟨.PGM_CUT, 63, 1, .RO, 0⟩
/-- PGM_CUT [62:62], RW1C, reset 0. 1: a cut was aborted under R214 -/
abbrev PGM_CUT_ABORTED : Fld := ⟨.PGM_CUT, 62, 1, .RW1C, 0⟩
/-- PGM_CUT [61:60], RO, reset live. Current cut number -/
abbrev PGM_CUT_CUT : Fld := ⟨.PGM_CUT, 60, 2, .RO, 0⟩
/-- PGM_CUT [23:0], RO, reset live. Pages copied in the current or last cut -/
abbrev PGM_CUT_COPIES : Fld := ⟨.PGM_CUT, 0, 24, .RO, 0⟩
/-- PGM_RESERVE [47:24], RO, reset image. Frames in the snapshot reserve -/
abbrev PGM_RESERVE_FRAMES : Fld := ⟨.PGM_RESERVE, 24, 24, .RO, 0⟩
/-- PGM_RESERVE [23:0], RO, reset image. First frame of the reserve -/
abbrev PGM_RESERVE_BASE_FRAME : Fld := ⟨.PGM_RESERVE, 0, 24, .RO, 0⟩
/-- PGM_WINDOW [31:30], RO, reset image. 00b 256 bytes, 01b 2 KiB, 10b 64 KiB -/
abbrev PGM_WINDOW_GRANULE : Fld := ⟨.PGM_WINDOW, 30, 2, .RO, 0⟩
/-- PGM_WINDOW [19:10], RO, reset image. Window base in GiB -/
abbrev PGM_WINDOW_BASE_GIB : Fld := ⟨.PGM_WINDOW, 10, 10, .RO, 0⟩
/-- PGM_WINDOW [9:0], RO, reset image. Channels n_p; 0: no window -/
abbrev PGM_WINDOW_CHANNELS : Fld := ⟨.PGM_WINDOW, 0, 10, .RO, 0⟩
/-- BWG_CFG [53:32], RO, reset image. Bucket depth in tokens -/
abbrev BWG_CFG_DEPTH : Fld := ⟨.BWG_CFG, 32, 22, .RO, 0⟩
/-- BWG_CFG [17:0], RO, reset image. Tokens added per µs -/
abbrev BWG_CFG_RATE : Fld := ⟨.BWG_CFG, 0, 18, .RO, 0⟩
/-- BWG_STATE [53:32], RO, reset live. Tokens held by admitted requests -/
abbrev BWG_STATE_HELD : Fld := ⟨.BWG_STATE, 32, 22, .RO, 0⟩
/-- BWG_STATE [22:0], RO, reset live. Tokens in the bucket -/
abbrev BWG_STATE_LEVEL : Fld := ⟨.BWG_STATE, 0, 23, .RO, 0⟩
/-- BWG_ISSUED [63:0], RO, reset 0. Tokens issued under R231 -/
abbrev BWG_ISSUED_ISSUED : Fld := ⟨.BWG_ISSUED, 0, 64, .RO, 0⟩
/-- BWG_SPENT [63:0], RO, reset 0. Tokens spent -/
abbrev BWG_SPENT_SPENT : Fld := ⟨.BWG_SPENT, 0, 64, .RO, 0⟩
/-- BWG_CLIPPED [63:0], RO, reset 0. Tokens refused at refill because the bucket was full -/
abbrev BWG_CLIPPED_CLIPPED : Fld := ⟨.BWG_CLIPPED, 0, 64, .RO, 0⟩
/-- MGT_BFY_CORE [63:63], WO, reset 0. 1: reset core n under R247 -/
abbrev MGT_BFY_CORE_RESET : Fld := ⟨.MGT_BFY_CORE, 63, 1, .WO, 0⟩
/-- MGT_BFY_CORE [55:48], RC, reset 0. Modified lines discarded by resets of this core -/
abbrev MGT_BFY_CORE_LOST_LINES : Fld := ⟨.MGT_BFY_CORE, 48, 8, .RC, 0⟩
/-- MGT_BFY_CORE [47:40], RC, reset 0. Private cache lines read with an uncorrected error -/
abbrev MGT_BFY_CORE_CACHE_UNCORR : Fld := ⟨.MGT_BFY_CORE, 40, 8, .RC, 0⟩
/-- MGT_BFY_CORE [39:32], RC, reset 0. Private cache lines corrected -/
abbrev MGT_BFY_CORE_CACHE_CORR : Fld := ⟨.MGT_BFY_CORE, 32, 8, .RC, 0⟩
/-- MGT_BFY_CORE [31:20], RO, reset live. Current clock in MHz; 0 when power-gated -/
abbrev MGT_BFY_CORE_FREQ_MHZ : Fld := ⟨.MGT_BFY_CORE, 20, 12, .RO, 0⟩
/-- MGT_BFY_CORE [17:16], RO, reset live. 00b power-gated, 01b running, 10b sleeping, 11b held in reset -/
abbrev MGT_BFY_CORE_STATE : Fld := ⟨.MGT_BFY_CORE, 16, 2, .RO, 0⟩
/-- MGT_BFY_CORE [4:4], RO, reset image. 1: the core belongs to PARTITION -/
abbrev MGT_BFY_CORE_ASSIGNED : Fld := ⟨.MGT_BFY_CORE, 4, 1, .RO, 0⟩
/-- MGT_BFY_CORE [3:0], RO, reset image. Owning partition when ASSIGNED is 1 -/
abbrev MGT_BFY_CORE_PARTITION : Fld := ⟨.MGT_BFY_CORE, 0, 4, .RO, 0⟩
/-- MGT_ETH [63:63], RO, reset live. 1: the link is up at 400 Gb/s -/
abbrev MGT_ETH_LINK : Fld := ⟨.MGT_ETH, 63, 1, .RO, 0⟩
/-- MGT_ETH [59:48], RC, reset 0. Frames dropped under R249 -/
abbrev MGT_ETH_RX_UNMATCHED : Fld := ⟨.MGT_ETH, 48, 12, .RC, 0⟩
/-- MGT_ETH [47:32], RC, reset 0. Codewords uncorrected by FEC -/
abbrev MGT_ETH_FEC_UNCORR : Fld := ⟨.MGT_ETH, 32, 16, .RC, 0⟩
/-- MGT_ETH [31:0], RC, reset 0. Codewords corrected by FEC -/
abbrev MGT_ETH_FEC_CORR : Fld := ⟨.MGT_ETH, 0, 32, .RC, 0⟩
/-- MGT_IMAGE_ID [63:0], RO, reset 0. IMAGE_ID of the applied structure image; 0 before Dome completes -/
abbrev MGT_IMAGE_ID_IMAGE_ID : Fld := ⟨.MGT_IMAGE_ID, 0, 64, .RO, 0⟩
/-- MGT_IMAGE_STATUS [55:52], RO, reset 0. PATCH_PARTITION for KIND 02h -/
abbrev MGT_IMAGE_STATUS_PARTITION : Fld := ⟨.MGT_IMAGE_STATUS, 52, 4, .RO, 0⟩
/-- MGT_IMAGE_STATUS [51:48], RO, reset 0. KIND of the last image or patch checked -/
abbrev MGT_IMAGE_STATUS_KIND : Fld := ⟨.MGT_IMAGE_STATUS, 48, 4, .RO, 0⟩
/-- MGT_IMAGE_STATUS [47:32], RO, reset 0. Index of the failing record in its section -/
abbrev MGT_IMAGE_STATUS_RECORD : Fld := ⟨.MGT_IMAGE_STATUS, 32, 16, .RO, 0⟩
/-- MGT_IMAGE_STATUS [23:16], RO, reset 0. TYPE of the failing section; 0 when the failure concerns no section -/
abbrev MGT_IMAGE_STATUS_SECTION : Fld := ⟨.MGT_IMAGE_STATUS, 16, 8, .RO, 0⟩
/-- MGT_IMAGE_STATUS [15:8], RO, reset 0. Flash slot for KIND 01h; FFh otherwise -/
abbrev MGT_IMAGE_STATUS_SLOT : Fld := ⟨.MGT_IMAGE_STATUS, 8, 8, .RO, 0⟩
/-- MGT_IMAGE_STATUS [7:0], RO, reset 0. Code from Image validation results -/
abbrev MGT_IMAGE_STATUS_RESULT : Fld := ⟨.MGT_IMAGE_STATUS, 0, 8, .RO, 0⟩
/-- MGT_PATCH_SEQ [63:32], RO, reset 0. Patches applied to partition p since the last Dome -/
abbrev MGT_PATCH_SEQ_APPLIED : Fld := ⟨.MGT_PATCH_SEQ, 32, 32, .RO, 0⟩
/-- MGT_PATCH_SEQ [31:0], RO, reset 0. PATCH_SEQ of the last patch applied -/
abbrev MGT_PATCH_SEQ_SEQ : Fld := ⟨.MGT_PATCH_SEQ, 0, 32, .RO, 0⟩
/-- LDIR_GEN [63:32], RO, reset 0. Updates completed since AUX_3V3 became valid -/
abbrev LDIR_GEN_UPDATES : Fld := ⟨.LDIR_GEN, 32, 32, .RO, 0⟩
/-- LDIR_GEN [31:0], RO, reset live. Same value as header bytes 8-11 -/
abbrev LDIR_GEN_GENERATION : Fld := ⟨.LDIR_GEN, 0, 32, .RO, 0⟩
/-- LDIR_LAST_NS [63:0], RO, reset 0. Device time at which the last update ended -/
abbrev LDIR_LAST_NS_TIME : Fld := ⟨.LDIR_LAST_NS, 0, 64, .RO, 0⟩
/-- LDIR_CAUSE [31:16], RO, reset 0. Entries changed by the last update -/
abbrev LDIR_CAUSE_CHANGED : Fld := ⟨.LDIR_CAUSE, 16, 16, .RO, 0⟩
/-- LDIR_CAUSE [11:8], RO, reset 0. Patched partition, for cause 06h -/
abbrev LDIR_CAUSE_PARTITION : Fld := ⟨.LDIR_CAUSE, 8, 4, .RO, 0⟩
/-- LDIR_CAUSE [7:0], RO, reset 0. 01h Footing, 02h Drum, 03h Dome discovery, 04h Dome image, 05h fabric address, 06h patch -/
abbrev LDIR_CAUSE_CAUSE : Fld := ⟨.LDIR_CAUSE, 0, 8, .RO, 0⟩
/-- LDIR_INDEX [15:2], RW, reset 0. Directory offset in 4-byte units -/
abbrev LDIR_INDEX_DWORD : Fld := ⟨.LDIR_INDEX, 2, 14, .RW, 0⟩
/-- LDIR_DATA [31:0], RO, reset live. The 4 directory bytes at LDIR_INDEX, or 0 beyond TABLE_BYTES. Each read adds 1 to DWORD, wrapping from 3FFFh to 0 -/
abbrev LDIR_DATA_DATA : Fld := ⟨.LDIR_DATA, 0, 32, .RO, 0⟩
/-- AON_STAGE [31:24], RO, reset 0. Code from Hold reasons -/
abbrev AON_STAGE_HOLD_REASON : Fld := ⟨.AON_STAGE, 24, 8, .RO, 0⟩
/-- AON_STAGE [20:20], RO, reset live. 1: management core restarting under R298 -/
abbrev AON_STAGE_MGT_RESTART : Fld := ⟨.AON_STAGE, 20, 1, .RO, 0⟩
/-- AON_STAGE [19:19], RO, reset live. 1: the current start is warm -/
abbrev AON_STAGE_WARM : Fld := ⟨.AON_STAGE, 19, 1, .RO, 0⟩
/-- AON_STAGE [18:16], RO, reset live. 001b Footing, 010b Drum, 011b Dome, 100b Finial, 111b safe state -/
abbrev AON_STAGE_STAGE : Fld := ⟨.AON_STAGE, 16, 3, .RO, 0⟩
/-- AON_STAGE [11:11], RO, reset live. 1: at least one partition job-ready -/
abbrev AON_STAGE_JOB_READY : Fld := ⟨.AON_STAGE, 11, 1, .RO, 0⟩
/-- AON_STAGE [10:10], RO, reset live. 1: short field test done -/
abbrev AON_STAGE_FIELD_TEST : Fld := ⟨.AON_STAGE, 10, 1, .RO, 0⟩
/-- AON_STAGE [9:9], RO, reset live. 1: admitted to the fabric, or no FABRIC port in the image -/
abbrev AON_STAGE_FABRIC : Fld := ⟨.AON_STAGE, 9, 1, .RO, 0⟩
/-- AON_STAGE [8:8], RO, reset live. 1: partitions configured -/
abbrev AON_STAGE_PARTITIONS : Fld := ⟨.AON_STAGE, 8, 1, .RO, 0⟩
/-- AON_STAGE [7:7], RO, reset live. 1: DRAM trained -/
abbrev AON_STAGE_DRAM : Fld := ⟨.AON_STAGE, 7, 1, .RO, 0⟩
/-- AON_STAGE [6:6], RO, reset live. 1: image applied -/
abbrev AON_STAGE_IMAGE : Fld := ⟨.AON_STAGE, 6, 1, .RO, 0⟩
/-- AON_STAGE [5:5], RO, reset live. 1: telemetry on -/
abbrev AON_STAGE_TELEMETRY : Fld := ⟨.AON_STAGE, 5, 1, .RO, 0⟩
/-- AON_STAGE [4:4], RO, reset live. 1: mailboxes open -/
abbrev AON_STAGE_MAILBOX : Fld := ⟨.AON_STAGE, 4, 1, .RO, 0⟩
/-- AON_STAGE [3:3], RO, reset live. 1: authenticated firmware running -/
abbrev AON_STAGE_FIRMWARE : Fld := ⟨.AON_STAGE, 3, 1, .RO, 0⟩
/-- AON_STAGE [2:2], RO, reset live. 1: configuration requests completed -/
abbrev AON_STAGE_CONFIG : Fld := ⟨.AON_STAGE, 2, 1, .RO, 0⟩
/-- AON_STAGE [1:1], RO, reset live. 1: sideband answering -/
abbrev AON_STAGE_SIDEBAND : Fld := ⟨.AON_STAGE, 1, 1, .RO, 0⟩
/-- AON_STAGE [0:0], RO, reset live. 1: supply and thermal supervision and the trip active -/
abbrev AON_STAGE_SUPERVISION : Fld := ⟨.AON_STAGE, 0, 1, .RO, 0⟩
/-- AON_STAGE_MS [63:48], RO, reset 0. Milliseconds from t0 to Finial, saturating at FFFFh; 0 until reached -/
abbrev AON_STAGE_MS_FINIAL : Fld := ⟨.AON_STAGE_MS, 48, 16, .RO, 0⟩
/-- AON_STAGE_MS [47:32], RO, reset 0. The same for Dome -/
abbrev AON_STAGE_MS_DOME : Fld := ⟨.AON_STAGE_MS, 32, 16, .RO, 0⟩
/-- AON_STAGE_MS [31:16], RO, reset 0. The same for Drum -/
abbrev AON_STAGE_MS_DRUM : Fld := ⟨.AON_STAGE_MS, 16, 16, .RO, 0⟩
/-- AON_STAGE_MS [15:0], RO, reset 0. Milliseconds from AUX_3V3 valid, or from warm reset assertion, to Footing -/
abbrev AON_STAGE_MS_FOOTING : Fld := ⟨.AON_STAGE_MS, 0, 16, .RO, 0⟩
/-- AON_READY [31:16], RO, reset 0. Bit p: partition p passed the short field test -/
abbrev AON_READY_TESTED : Fld := ⟨.AON_READY, 16, 16, .RO, 0⟩
/-- AON_READY [15:0], RO, reset 0. Bit p: partition p is job-ready -/
abbrev AON_READY_READY : Fld := ⟨.AON_READY, 0, 16, .RO, 0⟩
/-- PWR_STATUS [31:24], RO, reset live. Hottest junction sensor in °C, two's complement -/
abbrev PWR_STATUS_HOTTEST_C : Fld := ⟨.PWR_STATUS, 24, 8, .RO, 0⟩
/-- PWR_STATUS [9:9], RO, reset live. 1: thermal throttle acting -/
abbrev PWR_STATUS_THERM_THROTTLE : Fld := ⟨.PWR_STATUS, 9, 1, .RO, 0⟩
/-- PWR_STATUS [8:8], RO, reset live. 1: fast limiter acting -/
abbrev PWR_STATUS_FAST_LIMIT : Fld := ⟨.PWR_STATUS, 8, 1, .RO, 0⟩
/-- PWR_STATUS [7:7], RO, reset live. 1: the cap loop holds clocks below AG_MHZ -/
abbrev PWR_STATUS_CAP_ACTIVE : Fld := ⟨.PWR_STATUS, 7, 1, .RO, 0⟩
/-- PWR_STATUS [6:6], RW1C, reset 0. 1: thermal trip latched; clears only under R291 -/
abbrev PWR_STATUS_TRIP : Fld := ⟨.PWR_STATUS, 6, 1, .RW1C, 0⟩
/-- PWR_STATUS [5:5], RW1C, reset 0. 1: sequencing violation latched; clears only under R280 -/
abbrev PWR_STATUS_SEQ_VIOL : Fld := ⟨.PWR_STATUS, 5, 1, .RW1C, 0⟩
/-- PWR_STATUS [4:4], RW1C, reset 0. 1: a rail other than VAG0-VAG15 left its window under R282; converters held off; clears only under R282 -/
abbrev PWR_STATUS_RAIL_FAULT : Fld := ⟨.PWR_STATUS, 4, 1, .RW1C, 0⟩
/-- PWR_STATUS [3:3], RO, reset live. 1: converters running -/
abbrev PWR_STATUS_CONV_ON : Fld := ⟨.PWR_STATUS, 3, 1, .RO, 0⟩
/-- PWR_STATUS [2:2], RO, reset live. 1: MAIN_IN valid -/
abbrev PWR_STATUS_MAIN_VALID : Fld := ⟨.PWR_STATUS, 2, 1, .RO, 0⟩
/-- PWR_STATUS [1:1], RO, reset live. 1: ANA_1V8 valid -/
abbrev PWR_STATUS_ANA_VALID : Fld := ⟨.PWR_STATUS, 1, 1, .RO, 0⟩
/-- PWR_STATUS [0:0], RO, reset live. 1: AUX_3V3 valid -/
abbrev PWR_STATUS_AUX_VALID : Fld := ⟨.PWR_STATUS, 0, 1, .RO, 0⟩
/-- PWR_CAP [23:16], RW, reset 69h. Thermal throttle threshold in °C; values below 85 act as 85 and values above 115 act as 115 -/
abbrev PWR_CAP_THROTTLE_C : Fld := ⟨.PWR_CAP, 16, 8, .RW, 105⟩
/-- PWR_CAP [11:0], RW, reset image. Power cap on MAIN_IN in W, under R288 -/
abbrev PWR_CAP_CAP_W : Fld := ⟨.PWR_CAP, 0, 12, .RW, 0⟩
/-- PWR_MEAS [63:48], RO, reset live. MAIN_IN voltage in units of 10 mV -/
abbrev PWR_MEAS_MAIN_CV : Fld := ⟨.PWR_MEAS, 48, 16, .RO, 0⟩
/-- PWR_MEAS [47:32], RC, reset 0. Highest 1 µs sample since the last read, in W -/
abbrev PWR_MEAS_PEAK_W : Fld := ⟨.PWR_MEAS, 32, 16, .RC, 0⟩
/-- PWR_MEAS [31:16], RO, reset live. Last 1 µs sample, in W -/
abbrev PWR_MEAS_INST_W : Fld := ⟨.PWR_MEAS, 16, 16, .RO, 0⟩
/-- PWR_MEAS [15:0], RO, reset live. Rolling 1 ms average, in W -/
abbrev PWR_MEAS_AVG_W : Fld := ⟨.PWR_MEAS, 0, 16, .RO, 0⟩
/-- PWR_OVERRIDE [63:48], RC, reset 0. Promotions of FORCE tensors -/
abbrev PWR_OVERRIDE_PROMOTION : Fld := ⟨.PWR_OVERRIDE, 48, 16, .RC, 0⟩
/-- PWR_OVERRIDE [47:32], RC, reset 0. Refresh rate rises, all stacks -/
abbrev PWR_OVERRIDE_REFRESH : Fld := ⟨.PWR_OVERRIDE, 32, 16, .RC, 0⟩
/-- PWR_OVERRIDE [31:16], RC, reset 0. Voltage margin overrides -/
abbrev PWR_OVERRIDE_MARGIN : Fld := ⟨.PWR_OVERRIDE, 16, 16, .RC, 0⟩
/-- PWR_OVERRIDE [15:0], RC, reset 0. Thermal throttle episodes and trips -/
abbrev PWR_OVERRIDE_THERMAL : Fld := ⟨.PWR_OVERRIDE, 0, 16, .RC, 0⟩
/-- CLK_AG [63:48], RC, reset 0. Wakes from POWER_GATED -/
abbrev CLK_AG_PG_WAKES : Fld := ⟨.CLK_AG, 48, 16, .RC, 0⟩
/-- CLK_AG [47:32], RC, reset 0. Clock stretches by the droop monitor -/
abbrev CLK_AG_STRETCHES : Fld := ⟨.CLK_AG, 32, 16, .RC, 0⟩
/-- CLK_AG [31:20], RO, reset live. Current array-group clock in MHz; 0 while gated -/
abbrev CLK_AG_MHZ : Fld := ⟨.CLK_AG, 20, 12, .RO, 0⟩
/-- CLK_AG [19:8], RO, reset live. Current VAGg voltage in mV; 0 while power gated -/
abbrev CLK_AG_MV : Fld := ⟨.CLK_AG, 8, 12, .RO, 0⟩
/-- CLK_AG [2:0], RO, reset live. 000b RUN, 001b CLOCK_GATED, 010b POWER_GATED, 011b waking, 100b absent -/
abbrev CLK_AG_STATE : Fld := ⟨.CLK_AG, 0, 3, .RO, 2⟩
/-- PCI_LINK [31:16], RC, reset 0. Link retrains -/
abbrev PCI_LINK_RETRAINS : Fld := ⟨.PCI_LINK, 16, 16, .RC, 0⟩
/-- PCI_LINK [7:7], RO, reset live. 1: FLIT mode -/
abbrev PCI_LINK_FLIT : Fld := ⟨.PCI_LINK, 7, 1, .RO, 0⟩
/-- PCI_LINK [6:4], RO, reset live. 001b x1, 010b x2, 100b x4 -/
abbrev PCI_LINK_WIDTH : Fld := ⟨.PCI_LINK, 4, 3, .RO, 0⟩
/-- PCI_LINK [2:0], RO, reset live. 000b 2.5, 001b 5, 010b 8, 011b 16, 100b 32, 101b 64 GT/s -/
abbrev PCI_LINK_RATE : Fld := ⟨.PCI_LINK, 0, 3, .RO, 0⟩
/-- PCI_WIN [31:28], RW, reset 0. Requester for PF0 BAR4 accesses -/
abbrev PCI_WIN_PARTITION : Fld := ⟨.PCI_WIN, 28, 4, .RW, 0⟩
/-- PCI_WIN [15:0], RW, reset 0. Bits 47:32 of the device address at BAR4 offset 0 -/
abbrev PCI_WIN_BASE : Fld := ⟨.PCI_WIN, 0, 16, .RW, 0⟩
/-- PCI_DB [32:32], WO, reset 0. 1: arm the completion interrupt (R311) -/
abbrev PCI_DB_ARM : Fld := ⟨.PCI_DB, 32, 1, .WO, 0⟩
/-- PCI_DB [31:16], WO, reset 0. Records consumed -/
abbrev PCI_DB_CQ_HEAD : Fld := ⟨.PCI_DB, 16, 16, .WO, 0⟩
/-- PCI_DB [15:0], WO, reset 0. Descriptors posted -/
abbrev PCI_DB_SQ_TAIL : Fld := ⟨.PCI_DB, 0, 16, .WO, 0⟩
/-- PCI_RING [63:56], RC, reset 0. Doorbell writes refused under R309 -/
abbrev PCI_RING_BAD_DB : Fld := ⟨.PCI_RING, 56, 8, .RC, 0⟩
/-- PCI_RING [55:48], RO, reset live. Context generation -/
abbrev PCI_RING_GEN : Fld := ⟨.PCI_RING, 48, 8, .RO, 0⟩
/-- PCI_RING [45:45], RO, reset live. 1: ARM is set -/
abbrev PCI_RING_ARMED : Fld := ⟨.PCI_RING, 45, 1, .RO, 0⟩
/-- PCI_RING [44:44], RO, reset live. 1: the context is open -/
abbrev PCI_RING_OPEN : Fld := ⟨.PCI_RING, 44, 1, .RO, 0⟩
/-- PCI_RING [43:32], RO, reset live. Completion slots reserved (R310) -/
abbrev PCI_RING_RESERVED_SLOTS : Fld := ⟨.PCI_RING, 32, 12, .RO, 0⟩
/-- PCI_RING [31:16], RO, reset live. Records written -/
abbrev PCI_RING_CQ_TAIL : Fld := ⟨.PCI_RING, 16, 16, .RO, 0⟩
/-- PCI_RING [15:0], RO, reset live. Descriptors taken by the sequencer -/
abbrev PCI_RING_SQ_HEAD : Fld := ⟨.PCI_RING, 0, 16, .RO, 0⟩
/-- MBX_CTRL [0:0], WO, reset 0. 1: submit the request (R314) -/
abbrev MBX_CTRL_GO : Fld := ⟨.MBX_CTRL, 0, 1, .WO, 0⟩
/-- MBX_STATUS [31:24], RC, reset 0. GO writes ignored under R314 -/
abbrev MBX_STATUS_IGNORED : Fld := ⟨.MBX_STATUS, 24, 8, .RC, 0⟩
/-- MBX_STATUS [7:4], RO, reset live. 0000b unowned, 0001b PF0, 0010b VF, 0011b Belfry cores -/
abbrev MBX_STATUS_OWNER : Fld := ⟨.MBX_STATUS, 4, 4, .RO, 0⟩
/-- MBX_STATUS [3:3], RO, reset live. 1: the owning session is host-absent -/
abbrev MBX_STATUS_ABSENT : Fld := ⟨.MBX_STATUS, 3, 1, .RO, 0⟩
/-- MBX_STATUS [2:2], RO, reset live. 1: the management core is restarting -/
abbrev MBX_STATUS_FW_DOWN : Fld := ⟨.MBX_STATUS, 2, 1, .RO, 0⟩
/-- MBX_STATUS [1:1], RW1C, reset 0. 1: a response is in the buffer -/
abbrev MBX_STATUS_DONE : Fld := ⟨.MBX_STATUS, 1, 1, .RW1C, 0⟩
/-- MBX_STATUS [0:0], RO, reset live. 1: a request is in progress -/
abbrev MBX_STATUS_BUSY : Fld := ⟨.MBX_STATUS, 0, 1, .RO, 0⟩
/-- MBX_HEARTBEAT [31:0], RW, reset 0. Any write counts as a heartbeat; reads the last value written -/
abbrev MBX_HEARTBEAT_COUNT : Fld := ⟨.MBX_HEARTBEAT, 0, 32, .RW, 0⟩
/-- MGT_WDOG [31:24], RO, reset 0. Restarts since AUX_3V3 became valid, saturating -/
abbrev MGT_WDOG_RESTARTS : Fld := ⟨.MGT_WDOG, 24, 8, .RO, 0⟩
/-- MGT_WDOG [23:16], RO, reset live. Restarts in the last 60 s -/
abbrev MGT_WDOG_RECENT : Fld := ⟨.MGT_WDOG, 16, 8, .RO, 0⟩
/-- MGT_WDOG [0:0], WO, reset 0. 1: restart the 100 ms timer; management core writes only -/
abbrev MGT_WDOG_KICK : Fld := ⟨.MGT_WDOG, 0, 1, .WO, 0⟩
/-- MGT_HOST [63:48], RO, reset live. Bit p: partition p held under STOP -/
abbrev MGT_HOST_STOPPED : Fld := ⟨.MGT_HOST, 48, 16, .RO, 0⟩
/-- MGT_HOST [47:32], RO, reset live. Bit p: partition p held under HOLD_AT_STEP -/
abbrev MGT_HOST_HELD : Fld := ⟨.MGT_HOST, 32, 16, .RO, 0⟩
/-- MGT_HOST [15:0], RO, reset live. Bit m: the session of mailbox m is host-absent -/
abbrev MGT_HOST_ABSENT : Fld := ⟨.MGT_HOST, 0, 16, .RO, 0⟩
/-- FAB_ADDR [63:48], RO, reset live. Address of the root -/
abbrev FAB_ADDR_ROOT : Fld := ⟨.FAB_ADDR, 48, 16, .RO, 0⟩
/-- FAB_ADDR [47:40], RO, reset live. Hops to the root -/
abbrev FAB_ADDR_LEVEL : Fld := ⟨.FAB_ADDR, 40, 8, .RO, 0⟩
/-- FAB_ADDR [19:19], RW1C, reset 0. 1: an address conflict was seen (R345) -/
abbrev FAB_ADDR_CONFLICT : Fld := ⟨.FAB_ADDR, 19, 1, .RW1C, 0⟩
/-- FAB_ADDR [18:18], RO, reset live. 1: admitted to the fabric -/
abbrev FAB_ADDR_ADMITTED : Fld := ⟨.FAB_ADDR, 18, 1, .RO, 0⟩
/-- FAB_ADDR [17:17], RO, reset live. 1: address settled -/
abbrev FAB_ADDR_VALID : Fld := ⟨.FAB_ADDR, 17, 1, .RO, 0⟩
/-- FAB_ADDR [16:16], RO, reset image. ADDR_MODE -/
abbrev FAB_ADDR_MODE : Fld := ⟨.FAB_ADDR, 16, 1, .RO, 0⟩
/-- FAB_ADDR [15:0], RO, reset live. Device address; FFFFh before settling -/
abbrev FAB_ADDR_ADDRESS : Fld := ⟨.FAB_ADDR, 0, 16, .RO, 65535⟩
/-- FAB_PORT [63:48], RO, reset live. Partner's address -/
abbrev FAB_PORT_NBR_ADDR : Fld := ⟨.FAB_PORT, 48, 16, .RO, 0⟩
/-- FAB_PORT [47:43], RO, reset live. Partner's port -/
abbrev FAB_PORT_NBR_PORT : Fld := ⟨.FAB_PORT, 43, 5, .RO, 0⟩
/-- FAB_PORT [42:42], RO, reset live. 1: partner is in ISOLATE -/
abbrev FAB_PORT_NBR_ISOLATE : Fld := ⟨.FAB_PORT, 42, 1, .RO, 0⟩
/-- FAB_PORT [41:41], RW1C, reset 0. 1: set under R364 -/
abbrev FAB_PORT_NBR_FW_STALE : Fld := ⟨.FAB_PORT, 41, 1, .RW1C, 0⟩
/-- FAB_PORT [35:32], RO, reset 0. Last cause of leaving UP: 0 none, 1 silence, 2 retrain failed, 3 training failed, 4 LANES, 5 LIGHT, 6 partner digest changed -/
abbrev FAB_PORT_REASON : Fld := ⟨.FAB_PORT, 32, 4, .RO, 0⟩
/-- FAB_PORT [31:16], RO, reset live. Bit w: wavelength w active -/
abbrev FAB_PORT_LANE_MASK : Fld := ⟨.FAB_PORT, 16, 16, .RO, 0⟩
/-- FAB_PORT [9:8], RO, reset image. 00b OFF, 01b FABRIC -/
abbrev FAB_PORT_ROLE : Fld := ⟨.FAB_PORT, 8, 2, .RO, 0⟩
/-- FAB_PORT [2:0], RO, reset live. Code from Port states -/
abbrev FAB_PORT_STATE : Fld := ⟨.FAB_PORT, 0, 3, .RO, 0⟩
/-- FAB_LINK [63:48], RC, reset 0. Frames discarded for CRC -/
abbrev FAB_LINK_CRC_ERR : Fld := ⟨.FAB_LINK, 48, 16, .RC, 0⟩
/-- FAB_LINK [47:32], RC, reset 0. Replays started -/
abbrev FAB_LINK_REPLAYS : Fld := ⟨.FAB_LINK, 32, 16, .RC, 0⟩
/-- FAB_LINK [31:24], RC, reset 0. Retrains -/
abbrev FAB_LINK_RETRAINS : Fld := ⟨.FAB_LINK, 24, 8, .RC, 0⟩
/-- FAB_LINK [23:16], RC, reset 0. Census failures (R339) -/
abbrev FAB_LINK_CENSUS_FAIL : Fld := ⟨.FAB_LINK, 16, 8, .RC, 0⟩
/-- FAB_LINK [15:0], RC, reset 0. Packets dropped under R335 -/
abbrev FAB_LINK_DROPPED : Fld := ⟨.FAB_LINK, 0, 16, .RC, 0⟩
/-- FAB_OPT [63:48], RO, reset live. Lowest received power of any wavelength, in 0.1 dBm, two's complement -/
abbrev FAB_OPT_RX_MIN : Fld := ⟨.FAB_OPT, 48, 16, .RO, 0⟩
/-- FAB_OPT [47:44], RO, reset live. Its wavelength -/
abbrev FAB_OPT_RX_MIN_LANE : Fld := ⟨.FAB_OPT, 44, 4, .RO, 0⟩
/-- FAB_OPT [31:16], RO, reset live. Power of light-input fibre i // 4, in 0.1 dBm, two's complement -/
abbrev FAB_OPT_LIGHT_IN : Fld := ⟨.FAB_OPT, 16, 16, .RO, 0⟩
/-- FAB_OPT [15:0], RO, reset live. Mean received power, in 0.1 dBm, two's complement -/
abbrev FAB_OPT_RX_AVG : Fld := ⟨.FAB_OPT, 0, 16, .RO, 0⟩
/-- FAB_DROP [63:52], RC, reset 0. Packets with no live candidate or too many detours -/
abbrev FAB_DROP_UNREACHABLE : Fld := ⟨.FAB_DROP, 52, 12, .RC, 0⟩
/-- FAB_DROP [51:40], RC, reset 0. Packets whose HOPS reached 0 -/
abbrev FAB_DROP_LIMIT : Fld := ⟨.FAB_DROP, 40, 12, .RC, 0⟩
/-- FAB_DROP [39:28], RC, reset 0. WRITE packets refused (R351) -/
abbrev FAB_DROP_NOT_PERMITTED : Fld := ⟨.FAB_DROP, 28, 12, .RC, 0⟩
/-- FAB_DROP [27:16], RC, reset 0. Packets dropped under R354 -/
abbrev FAB_DROP_ISOLATED : Fld := ⟨.FAB_DROP, 16, 12, .RC, 0⟩
/-- FAB_DROP [15:0], RC, reset 0. Reserved OP or endpoint, or bad vote frames -/
abbrev FAB_DROP_BAD_OP : Fld := ⟨.FAB_DROP, 0, 16, .RC, 0⟩
/-- FAB_TIME [63:63], RO, reset live. 1: within ±20 ns of the master at the last exchange -/
abbrev FAB_TIME_SYNCED : Fld := ⟨.FAB_TIME, 63, 1, .RO, 0⟩
/-- FAB_TIME [62:62], RW, reset 0. 1: this device offers itself as time master -/
abbrev FAB_TIME_MASTER : Fld := ⟨.FAB_TIME, 62, 1, .RW, 0⟩
/-- FAB_TIME [61:61], RO, reset live. 1: no master can be reached -/
abbrev FAB_TIME_MASTER_LOST : Fld := ⟨.FAB_TIME, 61, 1, .RO, 0⟩
/-- FAB_TIME [47:32], RO, reset live. Address of the serving master -/
abbrev FAB_TIME_MASTER_ADDR : Fld := ⟨.FAB_TIME, 32, 16, .RO, 0⟩
/-- FAB_TIME [31:0], RO, reset live. Last measured offset from the master, in ps, two's complement -/
abbrev FAB_TIME_OFFSET_PS : Fld := ⟨.FAB_TIME, 0, 32, .RO, 0⟩
/-- FAB_ISOLATE [63:63], RW, reset 0. 1: every FABRIC port in ISOLATE; reads 1 in the safe state, and writes then have no effect -/
abbrev FAB_ISOLATE_DEVICE : Fld := ⟨.FAB_ISOLATE, 63, 1, .RW, 0⟩
/-- FAB_ISOLATE [31:0], RW, reset 0. Bit i: Li in ISOLATE -/
abbrev FAB_ISOLATE_PORTS : Fld := ⟨.FAB_ISOLATE, 0, 32, .RW, 0⟩
/-- FAB_VGRP [63:32], RW, reset 0. Bit i: a child lies on Li -/
abbrev FAB_VGRP_CHILD_MASK : Fld := ⟨.FAB_VGRP, 32, 32, .RW, 0⟩
/-- FAB_VGRP [31:16], RW, reset 0. Bit p: partition p is a member -/
abbrev FAB_VGRP_LOCAL_MASK : Fld := ⟨.FAB_VGRP, 16, 16, .RW, 0⟩
/-- FAB_VGRP [15:4], RW, reset 0. Group identity carried in vote frames -/
abbrev FAB_VGRP_GROUP : Fld := ⟨.FAB_VGRP, 4, 12, .RW, 0⟩
/-- FAB_VGRP [1:1], RW, reset 0. 0: this device is the root -/
abbrev FAB_VGRP_HAS_PARENT : Fld := ⟨.FAB_VGRP, 1, 1, .RW, 0⟩
/-- FAB_VGRP [0:0], RW, reset 0. 1: slot active -/
abbrev FAB_VGRP_ENABLE : Fld := ⟨.FAB_VGRP, 0, 1, .RW, 0⟩
/-- FAB_VCFG [31:16], RW, reset 0032h. Report deadline under R357, in µs; 0 acts as 1 -/
abbrev FAB_VCFG_WAIT_US : Fld := ⟨.FAB_VCFG, 16, 16, .RW, 50⟩
/-- FAB_VCFG [12:8], RW, reset 0. Port toward the parent -/
abbrev FAB_VCFG_PARENT_PORT : Fld := ⟨.FAB_VCFG, 8, 5, .RW, 0⟩
/-- FAB_VCAST [63:63], WO, reset 0. 1: step checked -/
abbrev FAB_VCAST_VERDICT : Fld := ⟨.FAB_VCAST, 63, 1, .WO, 0⟩
/-- FAB_VCAST [35:32], WO, reset 0. Group slot n -/
abbrev FAB_VCAST_SLOT : Fld := ⟨.FAB_VCAST, 32, 4, .WO, 0⟩
/-- FAB_VCAST [31:0], WO, reset 0. Step voted on -/
abbrev FAB_VCAST_STEP : Fld := ⟨.FAB_VCAST, 0, 32, .WO, 0⟩
/-- FAB_VRES [63:62], RO, reset 0. 00b none, 01b COMMIT, 10b ABORT, 11b EXCLUDED -/
abbrev FAB_VRES_RESULT : Fld := ⟨.FAB_VRES, 62, 2, .RO, 0⟩
/-- FAB_VRES [61:48], RO, reset 0. Excluded count, saturating at 3FFFh -/
abbrev FAB_VRES_EXCL_COUNT : Fld := ⟨.FAB_VRES, 48, 14, .RO, 0⟩
/-- FAB_VRES [47:32], RO, reset 0. Lowest excluded device address -/
abbrev FAB_VRES_FIRST_EXCL : Fld := ⟨.FAB_VRES, 32, 16, .RO, 0⟩
/-- FAB_VRES [31:0], RO, reset 0. Step of the result -/
abbrev FAB_VRES_STEP : Fld := ⟨.FAB_VRES, 0, 32, .RO, 0⟩
/-- FAB_VEXCL [63:56], RC, reset 0. Casts refused under R356 -/
abbrev FAB_VEXCL_REFUSED : Fld := ⟨.FAB_VEXCL, 56, 8, .RC, 0⟩
/-- FAB_VEXCL [47:32], RW1C, reset 0. Bit p: member partition p excluded -/
abbrev FAB_VEXCL_LOCAL : Fld := ⟨.FAB_VEXCL, 32, 16, .RW1C, 0⟩
/-- FAB_VEXCL [31:0], RW1C, reset 0. Bit i: child on Li excluded -/
abbrev FAB_VEXCL_CHILD : Fld := ⟨.FAB_VEXCL, 0, 32, .RW1C, 0⟩
/-- FAB_ROUTE [63:63], RW, reset live. 1: the destination is known -/
abbrev FAB_ROUTE_VALID : Fld := ⟨.FAB_ROUTE, 63, 1, .RW, 0⟩
/-- FAB_ROUTE [62:62], RW, reset live. adaptive choice off -/
abbrev FAB_ROUTE_PIN : Fld := ⟨.FAB_ROUTE, 62, 1, .RW, 0⟩
/-- FAB_ROUTE [61:58], RO, reset 0. withdrawn -/
abbrev FAB_ROUTE_WD : Fld := ⟨.FAB_ROUTE, 58, 4, .RO, 0⟩
/-- FAB_ROUTE [57:55], RW, reset live. alternate lies on a shortest path -/
abbrev FAB_ROUTE_MIN : Fld := ⟨.FAB_ROUTE, 55, 3, .RW, 0⟩
/-- FAB_ROUTE [23:18], RW, reset live.  -/
abbrev FAB_ROUTE_ALT3 : Fld := ⟨.FAB_ROUTE, 18, 6, .RW, 0⟩
/-- FAB_ROUTE [17:12], RW, reset live.  -/
abbrev FAB_ROUTE_ALT2 : Fld := ⟨.FAB_ROUTE, 12, 6, .RW, 0⟩
/-- FAB_ROUTE [11:6], RW, reset live.  -/
abbrev FAB_ROUTE_ALT1 : Fld := ⟨.FAB_ROUTE, 6, 6, .RW, 0⟩
/-- FAB_ROUTE [5:0], RW, reset live.  -/
abbrev FAB_ROUTE_PRIMARY : Fld := ⟨.FAB_ROUTE, 0, 6, .RW, 0⟩
/-- FC_STATUS [63:32], RO, reset live. SEQ of the newest ring entry -/
abbrev FC_STATUS_NEWEST_SEQ : Fld := ⟨.FC_STATUS, 32, 32, .RO, 0⟩
/-- FC_STATUS [31:16], RO, reset 0. Ring entries overwritten under R378 -/
abbrev FC_STATUS_OVERWRITTEN : Fld := ⟨.FC_STATUS, 16, 16, .RO, 0⟩
/-- FC_STATUS [8:8], RO, reset live. 1: the device is in the safe state -/
abbrev FC_STATUS_SAFE : Fld := ⟨.FC_STATUS, 8, 1, .RO, 0⟩
/-- FC_STATUS [7:0], RO, reset live. Code from Collector modes -/
abbrev FC_STATUS_MODE : Fld := ⟨.FC_STATUS, 0, 8, .RO, 0⟩
/-- FC_CFG [15:0], RW, reset 0. Automatic clearing of pending bits under R372; 0: off -/
abbrev FC_CFG_AUTO_ACK_MS : Fld := ⟨.FC_CFG, 0, 16, .RW, 0⟩
/-- FC_BROKEN_LO [63:0], RO, reset live. Bit m (LO) or bit m − 64 (HI): the path of source code m is broken (R366) -/
abbrev FC_BROKEN_LO_BROKEN : Fld := ⟨.FC_BROKEN_LO, 0, 64, .RO, 0⟩
/-- FC_BROKEN_HI [63:0], RO, reset live. Bit m (LO) or bit m − 64 (HI): the path of source code m is broken (R366) -/
abbrev FC_BROKEN_HI_BROKEN : Fld := ⟨.FC_BROKEN_HI, 0, 64, .RO, 0⟩
/-- FC_FIRST_ADDR [63:0], RO, reset 0. ADDRESS of the first fault of any class -/
abbrev FC_FIRST_ADDR_ADDRESS : Fld := ⟨.FC_FIRST_ADDR, 0, 64, .RO, 0⟩
/-- FC_FIRST_TIME [63:0], RO, reset 0. TIME of that fault -/
abbrev FC_FIRST_TIME_TIME : Fld := ⟨.FC_FIRST_TIME, 0, 64, .RO, 0⟩
/-- FC_FIRST_INFO [63:63], RW1C, reset 0. 1: capture holds; no new capture until cleared -/
abbrev FC_FIRST_INFO_VALID : Fld := ⟨.FC_FIRST_INFO, 63, 1, .RW1C, 0⟩
/-- FC_FIRST_INFO [62:56], RO, reset 0. FLAGS [6:0] of that fault -/
abbrev FC_FIRST_INFO_FLAGS : Fld := ⟨.FC_FIRST_INFO, 56, 7, .RO, 0⟩
/-- FC_FIRST_INFO [55:48], RO, reset 0. SOURCE -/
abbrev FC_FIRST_INFO_SOURCE : Fld := ⟨.FC_FIRST_INFO, 48, 8, .RO, 0⟩
/-- FC_FIRST_INFO [47:40], RO, reset 0. PARTITION -/
abbrev FC_FIRST_INFO_PARTITION : Fld := ⟨.FC_FIRST_INFO, 40, 8, .RO, 0⟩
/-- FC_FIRST_INFO [39:32], RO, reset 0. ACCESS -/
abbrev FC_FIRST_INFO_ACCESS : Fld := ⟨.FC_FIRST_INFO, 32, 8, .RO, 0⟩
/-- FC_FIRST_INFO [31:24], RO, reset 0. MASTER -/
abbrev FC_FIRST_INFO_MASTER : Fld := ⟨.FC_FIRST_INFO, 24, 8, .RO, 0⟩
/-- FC_FIRST_INFO [23:16], RO, reset 0. Final level -/
abbrev FC_FIRST_INFO_FINAL : Fld := ⟨.FC_FIRST_INFO, 16, 8, .RO, 0⟩
/-- FC_FIRST_INFO [15:8], RO, reset 0. Reported level -/
abbrev FC_FIRST_INFO_LEVEL : Fld := ⟨.FC_FIRST_INFO, 8, 8, .RO, 0⟩
/-- FC_FIRST_INFO [7:0], RO, reset 0. Class -/
abbrev FC_FIRST_INFO_CLASS : Fld := ⟨.FC_FIRST_INFO, 0, 8, .RO, 0⟩
/-- FC_PEND [16:16], RO, reset live. 1: device-scope pending bit of class c set -/
abbrev FC_PEND_DEVICE : Fld := ⟨.FC_PEND, 16, 1, .RO, 0⟩
/-- FC_PEND [15:0], RO, reset live. Bit p: pending bit of class c for partition p set -/
abbrev FC_PEND_PARTITIONS : Fld := ⟨.FC_PEND, 0, 16, .RO, 0⟩
/-- FC_ACK [23:23], WO, reset 0. 1: every class -/
abbrev FC_ACK_ALL : Fld := ⟨.FC_ACK, 23, 1, .WO, 0⟩
/-- FC_ACK [22:20], WO, reset 0. Class acknowledged when ALL is 0 -/
abbrev FC_ACK_CLASS : Fld := ⟨.FC_ACK, 20, 3, .WO, 0⟩
/-- FC_ACK [16:0], WO, reset 0. Bits 15:0 partitions, bit 16 device: pending bits cleared -/
abbrev FC_ACK_SCOPE : Fld := ⟨.FC_ACK, 0, 17, .WO, 0⟩
/-- FC_CNT_LO [63:32], RO, reset 0. Faults of class c with that final level -/
abbrev FC_CNT_LO_LEVEL1 : Fld := ⟨.FC_CNT_LO, 32, 32, .RO, 0⟩
/-- FC_CNT_LO [31:0], RO, reset 0. Faults of class c with that final level -/
abbrev FC_CNT_LO_LEVEL0 : Fld := ⟨.FC_CNT_LO, 0, 32, .RO, 0⟩
/-- FC_CNT_HI [63:32], RO, reset 0. Faults of class c with that final level -/
abbrev FC_CNT_HI_LEVEL3 : Fld := ⟨.FC_CNT_HI, 32, 32, .RO, 0⟩
/-- FC_CNT_HI [31:0], RO, reset 0. Faults of class c with that final level -/
abbrev FC_CNT_HI_LEVEL2 : Fld := ⟨.FC_CNT_HI, 0, 32, .RO, 0⟩
/-- FC_REC [63:63], RO, reset 0. Bit 63 of the word: VALID of word 2 (RW1C), the top bit of every other word -/
abbrev FC_REC_HI : Fld := ⟨.FC_REC, 63, 1, .RO, 0⟩
/-- FC_REC [62:0], RO, reset 0. Bits 62:0 of the word -/
abbrev FC_REC_LOW : Fld := ⟨.FC_REC, 0, 63, .RO, 0⟩
/-- GAL_GOAL [63:63], RO, reset live. 1: the goal is met (R395, R396) -/
abbrev GAL_GOAL_MET : Fld := ⟨.GAL_GOAL, 63, 1, .RO, 0⟩
/-- GAL_GOAL [62:62], RO, reset live. 1: a group has no MATMUL echo unit -/
abbrev GAL_GOAL_UNCOVERED : Fld := ⟨.GAL_GOAL, 62, 1, .RO, 0⟩
/-- GAL_GOAL [61:61], RO, reset live. 1: turret echoes run on their own unit -/
abbrev GAL_GOAL_TURRET_SAME : Fld := ⟨.GAL_GOAL, 61, 1, .RO, 0⟩
/-- GAL_GOAL [60:60], RO, reset live. 1: ECHO_CEIL limits sampling -/
abbrev GAL_GOAL_CLAMPED : Fld := ⟨.GAL_GOAL, 60, 1, .RO, 0⟩
/-- GAL_GOAL [59:40], RO, reset live. Sampling rate in parts per million -/
abbrev GAL_GOAL_RATE_PPM : Fld := ⟨.GAL_GOAL, 40, 20, .RO, 0⟩
/-- GAL_GOAL [39:32], RO, reset image. Ceiling in % -/
abbrev GAL_GOAL_ECHO_CEIL : Fld := ⟨.GAL_GOAL, 32, 8, .RO, 0⟩
/-- GAL_GOAL [31:28], RO, reset image. E -/
abbrev GAL_GOAL_TARGET_EXP : Fld := ⟨.GAL_GOAL, 28, 4, .RO, 0⟩
/-- GAL_GOAL [27:19], RO, reset live. H_eff -/
abbrev GAL_GOAL_H_EFF : Fld := ⟨.GAL_GOAL, 19, 9, .RO, 0⟩
/-- GAL_GOAL [18:10], RO, reset image. H -/
abbrev GAL_GOAL_HORIZON : Fld := ⟨.GAL_GOAL, 10, 9, .RO, 0⟩
/-- GAL_GOAL [9:9], RW1C, reset 0. 1: verdicts forced under R389 -/
abbrev GAL_GOAL_BAD : Fld := ⟨.GAL_GOAL, 9, 1, .RW1C, 0⟩
/-- GAL_GOAL [1:1], RO, reset image. 1: Gallery enabled -/
abbrev GAL_GOAL_GALLERY : Fld := ⟨.GAL_GOAL, 1, 1, .RO, 0⟩
/-- GAL_GOAL [0:0], RO, reset image. 0: steps-bound; 1: rate-bound -/
abbrev GAL_GOAL_GOAL : Fld := ⟨.GAL_GOAL, 0, 1, .RO, 0⟩
/-- GAL_CNT [63:32], RC, reset 0. Echoes completed -/
abbrev GAL_CNT_ECHOES : Fld := ⟨.GAL_CNT, 32, 32, .RC, 0⟩
/-- GAL_CNT [31:20], RC, reset 0. Gallery mismatches -/
abbrev GAL_CNT_MISMATCHES : Fld := ⟨.GAL_CNT, 20, 12, .RC, 0⟩
/-- GAL_CNT [19:12], RC, reset 0. Verdicts forced to 0 -/
abbrev GAL_CNT_FORCED : Fld := ⟨.GAL_CNT, 12, 8, .RC, 0⟩
/-- GAL_CNT [11:6], RC, reset 0. Echoes abandoned under R391 -/
abbrev GAL_CNT_SKIPPED_SIZE : Fld := ⟨.GAL_CNT, 6, 6, .RC, 0⟩
/-- GAL_CNT [5:0], RC, reset 0. Checks not made under R387 -/
abbrev GAL_CNT_SKIPPED_SPECIAL : Fld := ⟨.GAL_CNT, 0, 6, .RC, 0⟩
/-- GAL_STEP [63:32], RO, reset 0. R398; meaningful while BAD reads 1 -/
abbrev GAL_STEP_SUSPECT_FIRST : Fld := ⟨.GAL_STEP, 32, 32, .RO, 0⟩
/-- GAL_STEP [31:0], RO, reset 0. R389; meaningful while BAD reads 1 -/
abbrev GAL_STEP_BAD_STEP : Fld := ⟨.GAL_STEP, 0, 32, .RO, 0⟩
/-- GAL_FIRST [63:63], RW1C, reset 0. 1: capture holds; no new capture until cleared -/
abbrev GAL_FIRST_VALID : Fld := ⟨.GAL_FIRST, 63, 1, .RW1C, 0⟩
/-- GAL_FIRST [62:60], RO, reset 0. 000b checksum column, 001b checksum row, 010b Gallery -/
abbrev GAL_FIRST_KIND : Fld := ⟨.GAL_FIRST, 60, 3, .RO, 0⟩
/-- GAL_FIRST [59:56], RO, reset 0. Partition -/
abbrev GAL_FIRST_PARTITION : Fld := ⟨.GAL_FIRST, 56, 4, .RO, 0⟩
/-- GAL_FIRST [55:47], RO, reset 0. Physical array charged; 1FFh for other units -/
abbrev GAL_FIRST_PHYS : Fld := ⟨.GAL_FIRST, 47, 9, .RO, 0⟩
/-- GAL_FIRST [46:40], RO, reset 0. Unit charged, from Master codes -/
abbrev GAL_FIRST_MASTER : Fld := ⟨.GAL_FIRST, 40, 7, .RO, 0⟩
/-- GAL_FIRST [31:0], RO, reset 0. Step of the descriptor -/
abbrev GAL_FIRST_STEP : Fld := ⟨.GAL_FIRST, 0, 32, .RO, 0⟩
/-- GAL_QUAR [63:63], RO, reset live. 1: a quarantine request is pending (R401) -/
abbrev GAL_QUAR_VALID : Fld := ⟨.GAL_QUAR, 63, 1, .RO, 0⟩
/-- GAL_QUAR [55:47], RO, reset 0. Physical array -/
abbrev GAL_QUAR_PHYS : Fld := ⟨.GAL_QUAR, 47, 9, .RO, 0⟩
/-- GAL_QUAR [46:37], RO, reset 0. Bucket index, 0-799 -/
abbrev GAL_QUAR_BUCKET : Fld := ⟨.GAL_QUAR, 37, 10, .RO, 0⟩
/-- GAL_QUAR [36:32], RO, reset 0. Further requests waiting -/
abbrev GAL_QUAR_QUEUED : Fld := ⟨.GAL_QUAR, 32, 5, .RO, 0⟩
/-- GAL_QUAR [31:0], RO, reset 0. Step of the third charge -/
abbrev GAL_QUAR_STEP : Fld := ⟨.GAL_QUAR, 0, 32, .RO, 0⟩
/-- GAL_WARN [39:32], RO, reset 0. Cause bit of the last warning -/
abbrev GAL_WARN_LAST_CAUSE : Fld := ⟨.GAL_WARN, 32, 8, .RO, 0⟩
/-- GAL_WARN [31:16], RO, reset 0. Its group, port, fibre, stack or slice -/
abbrev GAL_WARN_INSTANCE : Fld := ⟨.GAL_WARN, 16, 16, .RO, 0⟩
/-- GAL_WARN [6:0], RW1C, reset 0. Bit c: cause c has warned -/
abbrev GAL_WARN_CAUSE : Fld := ⟨.GAL_WARN, 0, 7, .RW1C, 0⟩
/-- GAL_CAMP [63:63], RO, reset live. 1: a test is running -/
abbrev GAL_CAMP_RUNNING : Fld := ⟨.GAL_CAMP, 63, 1, .RO, 0⟩
/-- GAL_CAMP [62:60], RO, reset live. Part running, in the order of Campanile parts -/
abbrev GAL_CAMP_PART : Fld := ⟨.GAL_CAMP, 60, 3, .RO, 0⟩
/-- GAL_CAMP [59:56], RO, reset 0. Target partition -/
abbrev GAL_CAMP_PARTITION : Fld := ⟨.GAL_CAMP, 56, 4, .RO, 0⟩
/-- GAL_CAMP [55:47], RO, reset 0. Target array; 1FFh for a whole partition -/
abbrev GAL_CAMP_PHYS : Fld := ⟨.GAL_CAMP, 47, 9, .RO, 0⟩
/-- GAL_CAMP [39:32], RO, reset 0. 00h pass, 01h fail, 02h aborted, 03h refused -/
abbrev GAL_CAMP_RESULT : Fld := ⟨.GAL_CAMP, 32, 8, .RO, 0⟩
/-- GAL_CAMP [20:16], RO, reset 0. Bit i: part i failed -/
abbrev GAL_CAMP_FAILED : Fld := ⟨.GAL_CAMP, 16, 5, .RO, 0⟩
/-- GAL_CAMP [15:0], RO, reset 0. Duration in ms, saturating -/
abbrev GAL_CAMP_ELAPSED_MS : Fld := ⟨.GAL_CAMP, 0, 16, .RO, 0⟩
/-- LDG_AREA [47:24], RO, reset image. Frames in the ledger area; 0: no ledger -/
abbrev LDG_AREA_FRAMES : Fld := ⟨.LDG_AREA, 24, 24, .RO, 0⟩
/-- LDG_AREA [23:0], RO, reset image. First frame of the area -/
abbrev LDG_AREA_BASE_FRAME : Fld := ⟨.LDG_AREA, 0, 24, .RO, 0⟩
/-- LDG_SQ [63:12], RW, reset 0. Bits 63:12 of the command ring's device address -/
abbrev LDG_SQ_BASE : Fld := ⟨.LDG_SQ, 12, 52, .RW, 0⟩
/-- LDG_SQ [8:8], RW, reset 0. 1: the engine takes commands -/
abbrev LDG_SQ_ENABLE : Fld := ⟨.LDG_SQ, 8, 1, .RW, 0⟩
/-- LDG_SQ [3:0], RW, reset 0. Ring size 2^LOG2 commands; values below 4 act as 4 -/
abbrev LDG_SQ_LOG2 : Fld := ⟨.LDG_SQ, 0, 4, .RW, 0⟩
/-- LDG_DB [31:31], WO, reset 0. 1: clear HALTED and skip the failed command (R417) -/
abbrev LDG_DB_RESUME : Fld := ⟨.LDG_DB, 31, 1, .WO, 0⟩
/-- LDG_DB [15:0], WO, reset 0. Commands posted; refused and counted as R309 states for SQ_TAIL -/
abbrev LDG_DB_TAIL : Fld := ⟨.LDG_DB, 0, 16, .WO, 0⟩
/-- LDG_HEAD [35:0], RO, reset 0. Unit of the next append, from the start of the area -/
abbrev LDG_HEAD_HEAD : Fld := ⟨.LDG_HEAD, 0, 36, .RO, 0⟩
/-- LDG_TAIL [35:0], RO, reset 0. Unit of the oldest live record -/
abbrev LDG_TAIL_TAIL : Fld := ⟨.LDG_TAIL, 0, 36, .RO, 0⟩
/-- LDG_APPENDED [63:0], RO, reset 0. Records made live (R414) -/
abbrev LDG_APPENDED_APPENDED : Fld := ⟨.LDG_APPENDED, 0, 64, .RO, 0⟩
/-- LDG_RELEASED [63:0], RO, reset 0. Records released (R420, R421) -/
abbrev LDG_RELEASED_RELEASED : Fld := ⟨.LDG_RELEASED, 0, 64, .RO, 0⟩
/-- LDG_FLOOR [63:32], RO, reset 0. Highest committed step (R409) -/
abbrev LDG_FLOOR_LAST_COMMIT : Fld := ⟨.LDG_FLOOR, 32, 32, .RO, 0⟩
/-- LDG_FLOOR [31:0], RW, reset 0. Records of lower steps are released; writes act under R421 -/
abbrev LDG_FLOOR_FLOOR : Fld := ⟨.LDG_FLOOR, 0, 32, .RW, 0⟩
/-- LDG_REPLAY [63:63], RW, reset 0. 1: replay mode (R425) -/
abbrev LDG_REPLAY_ACTIVE : Fld := ⟨.LDG_REPLAY, 63, 1, .RW, 0⟩
/-- LDG_REPLAY [31:0], RW, reset 0. Highest step handled in replay mode -/
abbrev LDG_REPLAY_UNTIL : Fld := ⟨.LDG_REPLAY, 0, 32, .RW, 0⟩
/-- LDG_INBOX [39:16], RW, reset 0. Inbox page -/
abbrev LDG_INBOX_VPN : Fld := ⟨.LDG_INBOX, 16, 24, .RW, 0⟩
/-- LDG_INBOX [12:1], RW, reset 0. Bell rung once for each verified record -/
abbrev LDG_INBOX_BELL : Fld := ⟨.LDG_INBOX, 1, 12, .RW, 0⟩
/-- LDG_INBOX [0:0], RW, reset 0. 1: inbox active (R418) -/
abbrev LDG_INBOX_ENABLE : Fld := ⟨.LDG_INBOX, 0, 1, .RW, 0⟩
/-- LDG_INBOX_CNT [63:48], RC, reset 0. Records left unverified under R419 -/
abbrev LDG_INBOX_CNT_MISSING : Fld := ⟨.LDG_INBOX_CNT, 48, 16, .RC, 0⟩
/-- LDG_INBOX_CNT [47:40], RC, reset 0. Resent records with a different digest -/
abbrev LDG_INBOX_CNT_DUP_BAD : Fld := ⟨.LDG_INBOX_CNT, 40, 8, .RC, 0⟩
/-- LDG_INBOX_CNT [39:32], RC, reset 0. Resent records below FLOOR -/
abbrev LDG_INBOX_CNT_STALE : Fld := ⟨.LDG_INBOX_CNT, 32, 8, .RC, 0⟩
/-- LDG_INBOX_CNT [31:0], RC, reset 0. Records verified, or resent and matched -/
abbrev LDG_INBOX_CNT_VERIFIED : Fld := ⟨.LDG_INBOX_CNT, 0, 32, .RC, 0⟩
/-- LDG_VOTE [20:20], RO, reset live. 1: p is a local member of an enabled slot -/
abbrev LDG_VOTE_SLOT_VALID : Fld := ⟨.LDG_VOTE, 20, 1, .RO, 0⟩
/-- LDG_VOTE [19:16], RO, reset live. Slot whose results p follows (R409) -/
abbrev LDG_VOTE_SLOT : Fld := ⟨.LDG_VOTE, 16, 4, .RO, 0⟩
/-- LDG_VOTE [15:15], RW, reset 0. 1: ring RESULT_BELL on each result -/
abbrev LDG_VOTE_RING : Fld := ⟨.LDG_VOTE, 15, 1, .RW, 0⟩
/-- LDG_VOTE [11:0], RW, reset 0. Bell rung once for each result -/
abbrev LDG_VOTE_RESULT_BELL : Fld := ⟨.LDG_VOTE, 0, 12, .RW, 0⟩
/-- LDG_STATUS [63:56], RO, reset 0. Code of the last command ended -/
abbrev LDG_STATUS_LAST_CODE : Fld := ⟨.LDG_STATUS, 56, 8, .RO, 0⟩
/-- LDG_STATUS [55:55], RO, reset 0. 1: a command failed (R417) -/
abbrev LDG_STATUS_HALTED : Fld := ⟨.LDG_STATUS, 55, 1, .RO, 0⟩
/-- LDG_STATUS [54:54], RO, reset live. 1: an append is waiting (R423) -/
abbrev LDG_STATUS_FULL : Fld := ⟨.LDG_STATUS, 54, 1, .RO, 0⟩
/-- LDG_STATUS [15:0], RO, reset live. Commands taken -/
abbrev LDG_STATUS_SQ_HEAD : Fld := ⟨.LDG_STATUS, 0, 16, .RO, 0⟩
/-- LDG_FIRST [63:63], RW1C, reset 0. 1: capture holds; no new capture until cleared -/
abbrev LDG_FIRST_VALID : Fld := ⟨.LDG_FIRST, 63, 1, .RW1C, 0⟩
/-- LDG_FIRST [55:48], RO, reset 0. Code of the first failed command -/
abbrev LDG_FIRST_CODE : Fld := ⟨.LDG_FIRST, 48, 8, .RO, 0⟩
/-- LDG_FIRST [47:32], RO, reset 0. Its ring index -/
abbrev LDG_FIRST_SQ_INDEX : Fld := ⟨.LDG_FIRST, 32, 16, .RO, 0⟩
/-- LDG_FIRST [31:0], RO, reset 0. Its STEP -/
abbrev LDG_FIRST_STEP : Fld := ⟨.LDG_FIRST, 0, 32, .RO, 0⟩
/-- SNP_CFG [63:44], RO, reset image. From SNAPSHOT -/
abbrev SNP_CFG_MAX_CUT_STEPS : Fld := ⟨.SNP_CFG, 44, 20, .RO, 0⟩
/-- SNP_CFG [43:28], RO, reset image. From SNAPSHOT -/
abbrev SNP_CFG_MIN_CUT_STEPS : Fld := ⟨.SNP_CFG, 28, 16, .RO, 0⟩
/-- SNP_CFG [21:0], RO, reset image. From SNAPSHOT -/
abbrev SNP_CFG_INTERVAL_MS : Fld := ⟨.SNP_CFG, 0, 22, .RO, 0⟩
/-- SNP_TABLE [63:16], RW, reset 0. Bits 63:16 of the shard table's device address -/
abbrev SNP_TABLE_BASE : Fld := ⟨.SNP_TABLE, 16, 48, .RW, 0⟩
/-- SNP_TABLE [14:0], RW, reset 0. Headers in the table, 0-16,384; 0: no cuts -/
abbrev SNP_TABLE_SHARDS : Fld := ⟨.SNP_TABLE, 0, 15, .RW, 0⟩
/-- SNP_TRIGGER [0:0], WO, reset 0. 1: raise COMMAND -/
abbrev SNP_TRIGGER_NOW : Fld := ⟨.SNP_TRIGGER, 0, 1, .WO, 0⟩
/-- SNP_STATUS [63:32], RO, reset 0. Step of the current or last cut -/
abbrev SNP_STATUS_CUT_STEP : Fld := ⟨.SNP_STATUS, 32, 32, .RO, 0⟩
/-- SNP_STATUS [31:24], RO, reset 0. Code from Cut end codes -/
abbrev SNP_STATUS_LAST_CODE : Fld := ⟨.SNP_STATUS, 24, 8, .RO, 0⟩
/-- SNP_STATUS [23:20], RO, reset live. Bits of Cut triggers -/
abbrev SNP_STATUS_PENDING : Fld := ⟨.SNP_STATUS, 20, 4, .RO, 0⟩
/-- SNP_STATUS [19:19], RO, reset live. 1: under R430 -/
abbrev SNP_STATUS_OVERDUE : Fld := ⟨.SNP_STATUS, 19, 1, .RO, 0⟩
/-- SNP_STATUS [18:18], RO, reset live. 1: the condition of R434 and R446 holds -/
abbrev SNP_STATUS_RECOVERY : Fld := ⟨.SNP_STATUS, 18, 1, .RO, 0⟩
/-- SNP_STATUS [17:16], RO, reset live. 00b idle, 01b arming, 10b draining, 11b sealing -/
abbrev SNP_STATUS_STATE : Fld := ⟨.SNP_STATUS, 16, 2, .RO, 0⟩
/-- SNP_SEQ [43:0], RO, reset 0. Cuts armed since AUX_3V3 became valid -/
abbrev SNP_SEQ_CUT_SEQ : Fld := ⟨.SNP_SEQ, 0, 44, .RO, 0⟩
/-- SNP_DRAIN [47:24], RO, reset live. Pages in the current or last cut -/
abbrev SNP_DRAIN_TOTAL : Fld := ⟨.SNP_DRAIN, 24, 24, .RO, 0⟩
/-- SNP_DRAIN [23:0], RO, reset live. Pages sent to every mirror -/
abbrev SNP_DRAIN_SENT : Fld := ⟨.SNP_DRAIN, 0, 24, .RO, 0⟩
/-- SNP_MIRROR [63:40], RO, reset image. First frame of the run -/
abbrev SNP_MIRROR_BASE_FRAME : Fld := ⟨.SNP_MIRROR, 40, 24, .RO, 0⟩
/-- SNP_MIRROR [39:39], RW, reset 0. 1: slot A pinned (R447) -/
abbrev SNP_MIRROR_PIN_A : Fld := ⟨.SNP_MIRROR, 39, 1, .RW, 0⟩
/-- SNP_MIRROR [38:38], RW, reset 0. 1: slot B pinned -/
abbrev SNP_MIRROR_PIN_B : Fld := ⟨.SNP_MIRROR, 38, 1, .RW, 0⟩
/-- SNP_MIRROR [37:36], RO, reset live. 00b EMPTY, 01b OPEN, 10b COMPLETE, 11b FAILED -/
abbrev SNP_MIRROR_STATE_A : Fld := ⟨.SNP_MIRROR, 36, 2, .RO, 0⟩
/-- SNP_MIRROR [35:34], RO, reset live. As STATE_A -/
abbrev SNP_MIRROR_STATE_B : Fld := ⟨.SNP_MIRROR, 34, 2, .RO, 0⟩
/-- SNP_MIRROR [33:33], RO, reset image. 1: the run holds 2L frames -/
abbrev SNP_MIRROR_TWO_SLOTS : Fld := ⟨.SNP_MIRROR, 33, 1, .RO, 0⟩
/-- SNP_MIRROR [32:32], RO, reset live. 1: a slot is being served -/
abbrev SNP_MIRROR_SERVING : Fld := ⟨.SNP_MIRROR, 32, 1, .RO, 0⟩
/-- SNP_MIRROR [31:0], RO, reset image. Frames per slot -/
abbrev SNP_MIRROR_L : Fld := ⟨.SNP_MIRROR, 0, 32, .RO, 0⟩
/-- SNP_STEPS [63:32], RO, reset 0. Cut step of slot B -/
abbrev SNP_STEPS_STEP_B : Fld := ⟨.SNP_STEPS, 32, 32, .RO, 0⟩
/-- SNP_STEPS [31:0], RO, reset 0. Cut step of slot A -/
abbrev SNP_STEPS_STEP_A : Fld := ⟨.SNP_STEPS, 0, 32, .RO, 0⟩
/-- SNP_RESTORE [63:32], RO, reset 0. Step restored or chosen -/
abbrev SNP_RESTORE_STEP : Fld := ⟨.SNP_RESTORE, 32, 32, .RO, 0⟩
/-- SNP_RESTORE [31:24], RO, reset 0. Code from Restore codes -/
abbrev SNP_RESTORE_CODE : Fld := ⟨.SNP_RESTORE, 24, 8, .RO, 0⟩
/-- SNP_RESTORE [23:22], RO, reset 0. 00b idle, 01b running, 10b done, 11b failed -/
abbrev SNP_RESTORE_STATE : Fld := ⟨.SNP_RESTORE, 22, 2, .RO, 0⟩
/-- SNP_RESTORE [21:0], RO, reset 0. Shards verified -/
abbrev SNP_RESTORE_SHARDS_DONE : Fld := ⟨.SNP_RESTORE, 0, 22, .RO, 0⟩
/-- SNP_AGE [63:56], RW, reset 1Eh. Replay ratio × 10 for R446; 0 acts as 1 -/
abbrev SNP_AGE_REPLAY_X10 : Fld := ⟨.SNP_AGE, 56, 8, .RW, 30⟩
/-- SNP_AGE [55:48], RO, reset live. Left side of R446 in whole seconds, saturating -/
abbrev SNP_AGE_BUDGET_S : Fld := ⟨.SNP_AGE, 48, 8, .RO, 0⟩
/-- SNP_AGE [31:0], RO, reset live. A of R446 in ms; FFFF_FFFFh when no COMPLETE slot exists -/
abbrev SNP_AGE_AGE_MS : Fld := ⟨.SNP_AGE, 0, 32, .RO, 4294967295⟩
/-- HNG_CFG [31:16], RW, reset 07D0h. Watchdog period; below 10 acts as 10, above 60,000 acts as 60,000 -/
abbrev HNG_CFG_PERIOD_MS : Fld := ⟨.HNG_CFG, 16, 16, .RW, 2000⟩
/-- HNG_CFG [7:7], RW, reset 1. 1: dump before a FAULT reset -/
abbrev HNG_CFG_DUMP_FAULT : Fld := ⟨.HNG_CFG, 7, 1, .RW, 1⟩
/-- HNG_CFG [6:6], RW, reset 1. 1: dump before a HANG reset -/
abbrev HNG_CFG_DUMP_HANG : Fld := ⟨.HNG_CFG, 6, 1, .RW, 1⟩
/-- HNG_CFG [1:0], RW, reset 00b. From Watchdog actions; 11b acts as 10b -/
abbrev HNG_CFG_ACTION : Fld := ⟨.HNG_CFG, 0, 2, .RW, 0⟩
/-- HNG_STATUS [63:48], RO, reset 0. Resets of p completed, saturating -/
abbrev HNG_STATUS_RESETS : Fld := ⟨.HNG_STATUS, 48, 16, .RO, 0⟩
/-- HNG_STATUS [47:40], RC, reset 0. Requests merged under R450 -/
abbrev HNG_STATUS_MERGED : Fld := ⟨.HNG_STATUS, 40, 8, .RC, 0⟩
/-- HNG_STATUS [39:32], RO, reset 0. Current generation tag -/
abbrev HNG_STATUS_GEN : Fld := ⟨.HNG_STATUS, 32, 8, .RO, 0⟩
/-- HNG_STATUS [31:24], RO, reset 0. Cause of the last reset -/
abbrev HNG_STATUS_LAST_CAUSE : Fld := ⟨.HNG_STATUS, 24, 8, .RO, 0⟩
/-- HNG_STATUS [23:21], RO, reset live. 000b running, 001b frozen, 010b collecting, 011b resetting -/
abbrev HNG_STATUS_STATE : Fld := ⟨.HNG_STATUS, 21, 3, .RO, 0⟩
/-- HNG_STATUS [20:20], RO, reset live. 1: the watchdog timer stands still under R449 -/
abbrev HNG_STATUS_SUSPENDED : Fld := ⟨.HNG_STATUS, 20, 1, .RO, 0⟩
/-- HNG_STATUS [19:0], RO, reset live. ms since the last progress event, saturating -/
abbrev HNG_STATUS_SINCE_MS : Fld := ⟨.HNG_STATUS, 0, 20, .RO, 0⟩
/-- HNG_STALE [63:32], RC, reset 0. Replies dropped under R456 and R458 -/
abbrev HNG_STALE_REPLIES : Fld := ⟨.HNG_STALE, 32, 32, .RC, 0⟩
/-- HNG_REQ [1:1], WO, reset 0. 1: dump before the reset -/
abbrev HNG_REQ_DUMP : Fld := ⟨.HNG_REQ, 1, 1, .WO, 0⟩
/-- HNG_REQ [0:0], WO, reset 0. 1: request a reset with cause MAILBOX -/
abbrev HNG_REQ_RESET : Fld := ⟨.HNG_REQ, 0, 1, .WO, 0⟩
/-- HNG_DUMP [63:56], RC, reset 0. HELD dumps overwritten under R454 -/
abbrev HNG_DUMP_LOST : Fld := ⟨.HNG_DUMP, 56, 8, .RC, 0⟩
/-- HNG_DUMP [55:52], RO, reset live. Bit s: slot s HELD -/
abbrev HNG_DUMP_HELD : Fld := ⟨.HNG_DUMP, 52, 4, .RO, 0⟩
/-- HNG_DUMP [31:0], RO, reset live. DUMP_SEQ of the newest dump -/
abbrev HNG_DUMP_LAST_SEQ : Fld := ⟨.HNG_DUMP, 0, 32, .RO, 0⟩
/-- HNG_SLOT [63:63], RO, reset live. 1: header and DIGEST check -/
abbrev HNG_SLOT_VALID : Fld := ⟨.HNG_SLOT, 63, 1, .RO, 0⟩
/-- HNG_SLOT [62:62], RO, reset live. FLAGS [0] of the header -/
abbrev HNG_SLOT_LIMIT : Fld := ⟨.HNG_SLOT, 62, 1, .RO, 0⟩
/-- HNG_SLOT [55:52], RO, reset live. Partition dumped -/
abbrev HNG_SLOT_PARTITION : Fld := ⟨.HNG_SLOT, 52, 4, .RO, 0⟩
/-- HNG_SLOT [47:40], RO, reset live. Cause -/
abbrev HNG_SLOT_CAUSE : Fld := ⟨.HNG_SLOT, 40, 8, .RO, 0⟩
/-- HNG_SLOT [39:32], RO, reset live. UNREADABLE count, saturating at FFh -/
abbrev HNG_SLOT_UNREADABLE : Fld := ⟨.HNG_SLOT, 32, 8, .RO, 0⟩
/-- HNG_SLOT [31:0], RO, reset live. DUMP_SEQ -/
abbrev HNG_SLOT_DUMP_SEQ : Fld := ⟨.HNG_SLOT, 0, 32, .RO, 0⟩
/-- SEC_STATUS [15:12], RO, reset live. REVOKED mask -/
abbrev SEC_STATUS_REVOKED : Fld := ⟨.SEC_STATUS, 12, 4, .RO, 0⟩
/-- SEC_STATUS [11:8], RO, reset live. Unlocked scopes, as SCOPE -/
abbrev SEC_STATUS_DEBUG_SCOPE : Fld := ⟨.SEC_STATUS, 8, 4, .RO, 0⟩
/-- SEC_STATUS [6:6], RO, reset live. 1: the running firmware carried a verified owner co-signature -/
abbrev SEC_STATUS_FW_COSIGNED : Fld := ⟨.SEC_STATUS, 6, 1, .RO, 0⟩
/-- SEC_STATUS [5:5], RO, reset live. 1: the owner key signed its first block -/
abbrev SEC_STATUS_FW_OWNER : Fld := ⟨.SEC_STATUS, 5, 1, .RO, 0⟩
/-- SEC_STATUS [4:3], RO, reset live. Vendor root that signed it, when FW_OWNER is 0 -/
abbrev SEC_STATUS_FW_ROOT : Fld := ⟨.SEC_STATUS, 3, 2, .RO, 0⟩
/-- SEC_STATUS [2:2], RO, reset live. 1: no identity-key index remains (R473) -/
abbrev SEC_STATUS_EXHAUSTED : Fld := ⟨.SEC_STATUS, 2, 1, .RO, 0⟩
/-- SEC_STATUS [1:1], RO, reset live. 1: an owner key is enrolled -/
abbrev SEC_STATUS_OWNER_ENROLLED : Fld := ⟨.SEC_STATUS, 1, 1, .RO, 0⟩
/-- SEC_STATUS [0:0], RO, reset live. 1: the identity seal opened (R471) -/
abbrev SEC_STATUS_ID_VALID : Fld := ⟨.SEC_STATUS, 0, 1, .RO, 0⟩
/-- SEC_SIGIDX [63:56], RO, reset live. Rate tokens, 0-32 (R472) -/
abbrev SEC_SIGIDX_TOKENS : Fld := ⟨.SEC_SIGIDX, 56, 8, .RO, 0⟩
/-- SEC_SIGIDX [46:32], RO, reset live. SIG_BLOCK counter -/
abbrev SEC_SIGIDX_SIG_BLOCK : Fld := ⟨.SEC_SIGIDX, 32, 15, .RO, 0⟩
/-- SEC_SIGIDX [31:0], RO, reset live. Next index of the held block; FFFF_FFFFh when no block is held -/
abbrev SEC_SIGIDX_NEXT_INDEX : Fld := ⟨.SEC_SIGIDX, 0, 32, .RO, 0⟩
/-- SEC_SV_LO [63:32], RO, reset live. IMG_SV counter -/
abbrev SEC_SV_LO_IMG_SV : Fld := ⟨.SEC_SV_LO, 32, 32, .RO, 0⟩
/-- SEC_SV_LO [31:0], RO, reset live. FW_SV counter -/
abbrev SEC_SV_LO_FW_SV : Fld := ⟨.SEC_SV_LO, 0, 32, .RO, 0⟩
/-- SEC_SV_HI [63:32], RO, reset live. TRIM_SV counter -/
abbrev SEC_SV_HI_TRIM_SV : Fld := ⟨.SEC_SV_HI, 32, 32, .RO, 0⟩
/-- SEC_SV_HI [31:0], RO, reset live. PATCH_SV counter -/
abbrev SEC_SV_HI_PATCH_SV : Fld := ⟨.SEC_SV_HI, 0, 32, .RO, 0⟩
/-- SEC_CTR [63:32], RO, reset live. DEBUG_CTR counter -/
abbrev SEC_CTR_DEBUG_CTR : Fld := ⟨.SEC_CTR, 32, 32, .RO, 0⟩
/-- SEC_CTR [31:0], RO, reset live. OWNER_EPOCH counter -/
abbrev SEC_CTR_OWNER_EPOCH : Fld := ⟨.SEC_CTR, 0, 32, .RO, 0⟩

end F

/-- The named fields of each register, highest bits first. -/
def Reg.fields : Reg → List Fld
  | .MGT_GUARANTEE => [F.MGT_GUARANTEE_LAPSED_VECTORS, F.MGT_GUARANTEE_LAPSED_SILENT, F.MGT_GUARANTEE_LAPSED_RECOVERY, F.MGT_GUARANTEE_LAPSED_REPLAY, F.MGT_GUARANTEE_LAPSED_CONSERVE, F.MGT_GUARANTEE_HOLD_VECTORS, F.MGT_GUARANTEE_HOLD_SILENT, F.MGT_GUARANTEE_HOLD_RECOVERY, F.MGT_GUARANTEE_HOLD_REPLAY, F.MGT_GUARANTEE_HOLD_CONSERVE]
  | .AG_CONFIG => [F.AG_CONFIG_PARTITION, F.AG_CONFIG_STRICT_PERMIT, F.AG_CONFIG_WIDE_PERMIT, F.AG_CONFIG_TALLER_PERMIT, F.AG_CONFIG_TALL_PERMIT, F.AG_CONFIG_SQUARE_PERMIT]
  | .AG_MAP_LO => [F.AG_MAP_LO_MAP7, F.AG_MAP_LO_MAP6, F.AG_MAP_LO_MAP5, F.AG_MAP_LO_MAP4, F.AG_MAP_LO_MAP3, F.AG_MAP_LO_MAP2, F.AG_MAP_LO_MAP1, F.AG_MAP_LO_MAP0]
  | .AG_MAP_HI => [F.AG_MAP_HI_MAP7, F.AG_MAP_HI_MAP6, F.AG_MAP_HI_MAP5, F.AG_MAP_HI_MAP4, F.AG_MAP_HI_MAP3, F.AG_MAP_HI_MAP2, F.AG_MAP_HI_MAP1, F.AG_MAP_HI_MAP0]
  | .AG_SPARE => [F.AG_SPARE_SPARE_USED, F.AG_SPARE_SPARE_J]
  | .SPR_STATUS => [F.SPR_STATUS_W, F.SPR_STATUS_SHAPE, F.SPR_STATUS_STRICT, F.SPR_STATUS_PASS_ACTIVE, F.SPR_STATUS_SHADOW_READY, F.SPR_STATUS_SHADOW_POISON, F.SPR_STATUS_LOGICAL, F.SPR_STATUS_LOGICAL_VALID, F.SPR_STATUS_ROLE]
  | .SPR_CREDIT => [F.SPR_CREDIT_IN_FLIGHT, F.SPR_CREDIT_FREE]
  | .SPR_SLOTS => [F.SPR_SLOTS_BUBBLE_CYCLES, F.SPR_SLOTS_VALID_SLOTS]
  | .SPR_PASS_CNT => [F.SPR_PASS_CNT_PASSES]
  | .SPR_CHK_CNT => [F.SPR_CHK_CNT_COL_MISMATCH, F.SPR_CHK_CNT_ROW_MISMATCH]
  | .SPR_CHK_FIRST => [F.SPR_CHK_FIRST_VALID, F.SPR_CHK_FIRST_KIND, F.SPR_CHK_FIRST_SLOT, F.SPR_CHK_FIRST_COLUMN, F.SPR_CHK_FIRST_PASS]
  | .AG_FMT => [F.AG_FMT_VALID, F.AG_FMT_ERROR, F.AG_FMT_SCALE, F.AG_FMT_SUBN, F.AG_FMT_SPECIAL, F.AG_FMT_BIAS, F.AG_FMT_PW, F.AG_FMT_EW]
  | .AG_SR_SEED => [F.AG_SR_SEED_SEED]
  | .AG_RED_PERMIT => [F.AG_RED_PERMIT_REPLAY, F.AG_RED_PERMIT_EXACT_PERMIT, F.AG_RED_PERMIT_ORDERED_PERMIT, F.AG_RED_PERMIT_ARRIVAL_PERMIT]
  | .SPR_CENSUS_A => [F.SPR_CENSUS_A_SUBNORMAL, F.SPR_CENSUS_A_NORMAL]
  | .SPR_CENSUS_B => [F.SPR_CENSUS_B_VANISHED, F.SPR_CENSUS_B_ZERO]
  | .SPR_CENSUS_C => [F.SPR_CENSUS_C_NAN, F.SPR_CENSUS_C_INF]
  | .SPR_CENSUS_D => [F.SPR_CENSUS_D_EXACT_RANGE, F.SPR_CENSUS_D_OVERFLOW]
  | .SPR_ACC_ECC => [F.SPR_ACC_ECC_UNCORRECTED, F.SPR_ACC_ECC_CORRECTED]
  | .MEM_REDTAB => [F.MEM_REDTAB_BASE, F.MEM_REDTAB_COUNT]
  | .MEM_ATU_STATUS => [F.MEM_ATU_STATUS_ACTIVE, F.MEM_ATU_STATUS_FAILED, F.MEM_ATU_STATUS_INFLIGHT]
  | .CUP_ATU_STATUS => [F.CUP_ATU_STATUS_ACTIVE, F.CUP_ATU_STATUS_FAILED, F.CUP_ATU_STATUS_INFLIGHT]
  | .MEM_ATU_REJECT => [F.MEM_ATU_REJECT_DUPLICATE, F.MEM_ATU_REJECT_INDEX, F.MEM_ATU_REJECT_MISMATCH, F.MEM_ATU_REJECT_FORBIDDEN, F.MEM_ATU_REJECT_OWNER, F.MEM_ATU_REJECT_NOT_OPEN]
  | .CUP_ATU_REJECT => [F.CUP_ATU_REJECT_DUPLICATE, F.CUP_ATU_REJECT_INDEX, F.CUP_ATU_REJECT_MISMATCH, F.CUP_ATU_REJECT_FORBIDDEN, F.CUP_ATU_REJECT_OWNER, F.CUP_ATU_REJECT_NOT_OPEN]
  | .MEM_ATU_FIRST => [F.MEM_ATU_FIRST_VALID, F.MEM_ATU_FIRST_CODE, F.MEM_ATU_FIRST_HANDLE, F.MEM_ATU_FIRST_PARTITION, F.MEM_ATU_FIRST_CONTRIB, F.MEM_ATU_FIRST_SOURCE]
  | .CUP_ATU_FIRST => [F.CUP_ATU_FIRST_VALID, F.CUP_ATU_FIRST_CODE, F.CUP_ATU_FIRST_HANDLE, F.CUP_ATU_FIRST_PARTITION, F.CUP_ATU_FIRST_CONTRIB, F.CUP_ATU_FIRST_SOURCE]
  | .STW_CMD => [F.STW_CMD_CMD_ADDR, F.STW_CMD_ACTIVE]
  | .STW_PROG => [F.STW_PROG_LAST_CODE, F.STW_PROG_READY]
  | .STW_BYTES => [F.STW_BYTES_BYTES]
  | .STW_CONV => [F.STW_CONV_OVERFLOW, F.STW_CONV_VANISHED]
  | .STW_FIRST => [F.STW_FIRST_VALID, F.STW_FIRST_ENGINE, F.STW_FIRST_CODE, F.STW_FIRST_CMD_ADDR]
  | .AG_CTX => [F.AG_CTX_HALT_INDEX, F.AG_CTX_HALT_STATUS, F.AG_CTX_RETRY, F.AG_CTX_RESUME, F.AG_CTX_LEVEL, F.AG_CTX_IN_REGION, F.AG_CTX_STATE]
  | .AG_SEQ_EVENTS => [F.AG_SEQ_EVENTS_PROMOTIONS, F.AG_SEQ_EVENTS_FINAL, F.AG_SEQ_EVENTS_REJECTED, F.AG_SEQ_EVENTS_HALTS]
  | .BEL_RING => [F.BEL_RING_BELL, F.BEL_RING_COUNT]
  | .BEL_SET => [F.BEL_SET_BELL, F.BEL_SET_VALUE]
  | .BEL_TIMEOUT => [F.BEL_TIMEOUT_DEFAULT_US]
  | .BEL_EVENTS => [F.BEL_EVENTS_TIMEOUTS, F.BEL_EVENTS_RING_REFUSED, F.BEL_EVENTS_SET_REFUSED]
  | .BEL_STATE => [F.BEL_STATE_WAITERS, F.BEL_STATE_COUNT]
  | .TUR_STATUS => [F.TUR_STATUS_PROG_ADDR, F.TUR_STATUS_STAGED, F.TUR_STATUS_RUNNING]
  | .TUR_FAULT => [F.TUR_FAULT_VALID, F.TUR_FAULT_CODE, F.TUR_FAULT_PC]
  | .TUR_LANE_CYCLES => [F.TUR_LANE_CYCLES_BUSY]
  | .AG_NUMTAB => [F.AG_NUMTAB_BASE, F.AG_NUMTAB_ENABLE]
  | .AG_NUM_ADVANCE => [F.AG_NUM_ADVANCE_BUSY, F.AG_NUM_ADVANCE_STEP]
  | .AG_NUM_ALERT => [F.AG_NUM_ALERT_FIRST_LAYER, F.AG_NUM_ALERT_OFFSTEP, F.AG_NUM_ALERT_NONSR, F.AG_NUM_ALERT_WATCH_LOW, F.AG_NUM_ALERT_WATCH_HIGH]
  | .SPR_AMAX => [F.SPR_AMAX_AMAX]
  | .CUP_SPLIT => [F.CUP_SPLIT_PARTITION, F.CUP_SPLIT_CACHE_UNITS]
  | .CUP_ECC => [F.CUP_ECC_UNCORRECTED, F.CUP_ECC_CORRECTED]
  | .MEM_STACK => [F.MEM_STACK_TEMP, F.MEM_STACK_RATE, F.MEM_STACK_LIMITED, F.MEM_STACK_RISES]
  | .MEM_CHAN_ABSENT => [F.MEM_CHAN_ABSENT_ABSENT]
  | .MEM_ECC => [F.MEM_ECC_ERASED_LANES, F.MEM_ECC_POISON_READS, F.MEM_ECC_UNCORRECTED, F.MEM_ECC_CORRECTED]
  | .MEM_ECC_FIRST => [F.MEM_ECC_FIRST_VALID, F.MEM_ECC_FIRST_KIND, F.MEM_ECC_FIRST_CHANNEL, F.MEM_ECC_FIRST_LANE, F.MEM_ECC_FIRST_BURST]
  | .MEM_SCRUB => [F.MEM_SCRUB_PASSES, F.MEM_SCRUB_PERIOD_H]
  | .PGM_INVAL => [F.PGM_INVAL_DONE, F.PGM_INVAL_ALL, F.PGM_INVAL_PARTITION, F.PGM_INVAL_VPN, F.PGM_INVAL_COUNT_M1]
  | .PGM_FAULT => [F.PGM_FAULT_VALID, F.PGM_FAULT_CODE, F.PGM_FAULT_PARTITION, F.PGM_FAULT_UNIT, F.PGM_FAULT_WRITE, F.PGM_FAULT_ADDRESS]
  | .PGM_CUT => [F.PGM_CUT_ACTIVE, F.PGM_CUT_ABORTED, F.PGM_CUT_CUT, F.PGM_CUT_COPIES]
  | .PGM_RESERVE => [F.PGM_RESERVE_FRAMES, F.PGM_RESERVE_BASE_FRAME]
  | .PGM_WINDOW => [F.PGM_WINDOW_GRANULE, F.PGM_WINDOW_BASE_GIB, F.PGM_WINDOW_CHANNELS]
  | .BWG_CFG => [F.BWG_CFG_DEPTH, F.BWG_CFG_RATE]
  | .BWG_STATE => [F.BWG_STATE_HELD, F.BWG_STATE_LEVEL]
  | .BWG_ISSUED => [F.BWG_ISSUED_ISSUED]
  | .BWG_SPENT => [F.BWG_SPENT_SPENT]
  | .BWG_CLIPPED => [F.BWG_CLIPPED_CLIPPED]
  | .MGT_BFY_CORE => [F.MGT_BFY_CORE_RESET, F.MGT_BFY_CORE_LOST_LINES, F.MGT_BFY_CORE_CACHE_UNCORR, F.MGT_BFY_CORE_CACHE_CORR, F.MGT_BFY_CORE_FREQ_MHZ, F.MGT_BFY_CORE_STATE, F.MGT_BFY_CORE_ASSIGNED, F.MGT_BFY_CORE_PARTITION]
  | .MGT_ETH => [F.MGT_ETH_LINK, F.MGT_ETH_RX_UNMATCHED, F.MGT_ETH_FEC_UNCORR, F.MGT_ETH_FEC_CORR]
  | .MGT_IMAGE_ID => [F.MGT_IMAGE_ID_IMAGE_ID]
  | .MGT_IMAGE_STATUS => [F.MGT_IMAGE_STATUS_PARTITION, F.MGT_IMAGE_STATUS_KIND, F.MGT_IMAGE_STATUS_RECORD, F.MGT_IMAGE_STATUS_SECTION, F.MGT_IMAGE_STATUS_SLOT, F.MGT_IMAGE_STATUS_RESULT]
  | .MGT_PATCH_SEQ => [F.MGT_PATCH_SEQ_APPLIED, F.MGT_PATCH_SEQ_SEQ]
  | .LDIR_GEN => [F.LDIR_GEN_UPDATES, F.LDIR_GEN_GENERATION]
  | .LDIR_LAST_NS => [F.LDIR_LAST_NS_TIME]
  | .LDIR_CAUSE => [F.LDIR_CAUSE_CHANGED, F.LDIR_CAUSE_PARTITION, F.LDIR_CAUSE_CAUSE]
  | .LDIR_INDEX => [F.LDIR_INDEX_DWORD]
  | .LDIR_DATA => [F.LDIR_DATA_DATA]
  | .AON_STAGE => [F.AON_STAGE_HOLD_REASON, F.AON_STAGE_MGT_RESTART, F.AON_STAGE_WARM, F.AON_STAGE_STAGE, F.AON_STAGE_JOB_READY, F.AON_STAGE_FIELD_TEST, F.AON_STAGE_FABRIC, F.AON_STAGE_PARTITIONS, F.AON_STAGE_DRAM, F.AON_STAGE_IMAGE, F.AON_STAGE_TELEMETRY, F.AON_STAGE_MAILBOX, F.AON_STAGE_FIRMWARE, F.AON_STAGE_CONFIG, F.AON_STAGE_SIDEBAND, F.AON_STAGE_SUPERVISION]
  | .AON_STAGE_MS => [F.AON_STAGE_MS_FINIAL, F.AON_STAGE_MS_DOME, F.AON_STAGE_MS_DRUM, F.AON_STAGE_MS_FOOTING]
  | .AON_READY => [F.AON_READY_TESTED, F.AON_READY_READY]
  | .PWR_STATUS => [F.PWR_STATUS_HOTTEST_C, F.PWR_STATUS_THERM_THROTTLE, F.PWR_STATUS_FAST_LIMIT, F.PWR_STATUS_CAP_ACTIVE, F.PWR_STATUS_TRIP, F.PWR_STATUS_SEQ_VIOL, F.PWR_STATUS_RAIL_FAULT, F.PWR_STATUS_CONV_ON, F.PWR_STATUS_MAIN_VALID, F.PWR_STATUS_ANA_VALID, F.PWR_STATUS_AUX_VALID]
  | .PWR_CAP => [F.PWR_CAP_THROTTLE_C, F.PWR_CAP_CAP_W]
  | .PWR_MEAS => [F.PWR_MEAS_MAIN_CV, F.PWR_MEAS_PEAK_W, F.PWR_MEAS_INST_W, F.PWR_MEAS_AVG_W]
  | .PWR_OVERRIDE => [F.PWR_OVERRIDE_PROMOTION, F.PWR_OVERRIDE_REFRESH, F.PWR_OVERRIDE_MARGIN, F.PWR_OVERRIDE_THERMAL]
  | .CLK_AG => [F.CLK_AG_PG_WAKES, F.CLK_AG_STRETCHES, F.CLK_AG_MHZ, F.CLK_AG_MV, F.CLK_AG_STATE]
  | .PCI_LINK => [F.PCI_LINK_RETRAINS, F.PCI_LINK_FLIT, F.PCI_LINK_WIDTH, F.PCI_LINK_RATE]
  | .PCI_WIN => [F.PCI_WIN_PARTITION, F.PCI_WIN_BASE]
  | .PCI_DB => [F.PCI_DB_ARM, F.PCI_DB_CQ_HEAD, F.PCI_DB_SQ_TAIL]
  | .PCI_RING => [F.PCI_RING_BAD_DB, F.PCI_RING_GEN, F.PCI_RING_ARMED, F.PCI_RING_OPEN, F.PCI_RING_RESERVED_SLOTS, F.PCI_RING_CQ_TAIL, F.PCI_RING_SQ_HEAD]
  | .MBX_CTRL => [F.MBX_CTRL_GO]
  | .MBX_STATUS => [F.MBX_STATUS_IGNORED, F.MBX_STATUS_OWNER, F.MBX_STATUS_ABSENT, F.MBX_STATUS_FW_DOWN, F.MBX_STATUS_DONE, F.MBX_STATUS_BUSY]
  | .MBX_HEARTBEAT => [F.MBX_HEARTBEAT_COUNT]
  | .MGT_WDOG => [F.MGT_WDOG_RESTARTS, F.MGT_WDOG_RECENT, F.MGT_WDOG_KICK]
  | .MGT_HOST => [F.MGT_HOST_STOPPED, F.MGT_HOST_HELD, F.MGT_HOST_ABSENT]
  | .FAB_ADDR => [F.FAB_ADDR_ROOT, F.FAB_ADDR_LEVEL, F.FAB_ADDR_CONFLICT, F.FAB_ADDR_ADMITTED, F.FAB_ADDR_VALID, F.FAB_ADDR_MODE, F.FAB_ADDR_ADDRESS]
  | .FAB_PORT => [F.FAB_PORT_NBR_ADDR, F.FAB_PORT_NBR_PORT, F.FAB_PORT_NBR_ISOLATE, F.FAB_PORT_NBR_FW_STALE, F.FAB_PORT_REASON, F.FAB_PORT_LANE_MASK, F.FAB_PORT_ROLE, F.FAB_PORT_STATE]
  | .FAB_LINK => [F.FAB_LINK_CRC_ERR, F.FAB_LINK_REPLAYS, F.FAB_LINK_RETRAINS, F.FAB_LINK_CENSUS_FAIL, F.FAB_LINK_DROPPED]
  | .FAB_OPT => [F.FAB_OPT_RX_MIN, F.FAB_OPT_RX_MIN_LANE, F.FAB_OPT_LIGHT_IN, F.FAB_OPT_RX_AVG]
  | .FAB_DROP => [F.FAB_DROP_UNREACHABLE, F.FAB_DROP_LIMIT, F.FAB_DROP_NOT_PERMITTED, F.FAB_DROP_ISOLATED, F.FAB_DROP_BAD_OP]
  | .FAB_TIME => [F.FAB_TIME_SYNCED, F.FAB_TIME_MASTER, F.FAB_TIME_MASTER_LOST, F.FAB_TIME_MASTER_ADDR, F.FAB_TIME_OFFSET_PS]
  | .FAB_ISOLATE => [F.FAB_ISOLATE_DEVICE, F.FAB_ISOLATE_PORTS]
  | .FAB_VGRP => [F.FAB_VGRP_CHILD_MASK, F.FAB_VGRP_LOCAL_MASK, F.FAB_VGRP_GROUP, F.FAB_VGRP_HAS_PARENT, F.FAB_VGRP_ENABLE]
  | .FAB_VCFG => [F.FAB_VCFG_WAIT_US, F.FAB_VCFG_PARENT_PORT]
  | .FAB_VCAST => [F.FAB_VCAST_VERDICT, F.FAB_VCAST_SLOT, F.FAB_VCAST_STEP]
  | .FAB_VRES => [F.FAB_VRES_RESULT, F.FAB_VRES_EXCL_COUNT, F.FAB_VRES_FIRST_EXCL, F.FAB_VRES_STEP]
  | .FAB_VEXCL => [F.FAB_VEXCL_REFUSED, F.FAB_VEXCL_LOCAL, F.FAB_VEXCL_CHILD]
  | .FAB_ROUTE => [F.FAB_ROUTE_VALID, F.FAB_ROUTE_PIN, F.FAB_ROUTE_WD, F.FAB_ROUTE_MIN, F.FAB_ROUTE_ALT3, F.FAB_ROUTE_ALT2, F.FAB_ROUTE_ALT1, F.FAB_ROUTE_PRIMARY]
  | .FC_STATUS => [F.FC_STATUS_NEWEST_SEQ, F.FC_STATUS_OVERWRITTEN, F.FC_STATUS_SAFE, F.FC_STATUS_MODE]
  | .FC_CFG => [F.FC_CFG_AUTO_ACK_MS]
  | .FC_BROKEN_LO => [F.FC_BROKEN_LO_BROKEN]
  | .FC_BROKEN_HI => [F.FC_BROKEN_HI_BROKEN]
  | .FC_FIRST_ADDR => [F.FC_FIRST_ADDR_ADDRESS]
  | .FC_FIRST_TIME => [F.FC_FIRST_TIME_TIME]
  | .FC_FIRST_INFO => [F.FC_FIRST_INFO_VALID, F.FC_FIRST_INFO_FLAGS, F.FC_FIRST_INFO_SOURCE, F.FC_FIRST_INFO_PARTITION, F.FC_FIRST_INFO_ACCESS, F.FC_FIRST_INFO_MASTER, F.FC_FIRST_INFO_FINAL, F.FC_FIRST_INFO_LEVEL, F.FC_FIRST_INFO_CLASS]
  | .FC_PEND => [F.FC_PEND_DEVICE, F.FC_PEND_PARTITIONS]
  | .FC_ACK => [F.FC_ACK_ALL, F.FC_ACK_CLASS, F.FC_ACK_SCOPE]
  | .FC_CNT_LO => [F.FC_CNT_LO_LEVEL1, F.FC_CNT_LO_LEVEL0]
  | .FC_CNT_HI => [F.FC_CNT_HI_LEVEL3, F.FC_CNT_HI_LEVEL2]
  | .FC_REC => [F.FC_REC_HI, F.FC_REC_LOW]
  | .GAL_GOAL => [F.GAL_GOAL_MET, F.GAL_GOAL_UNCOVERED, F.GAL_GOAL_TURRET_SAME, F.GAL_GOAL_CLAMPED, F.GAL_GOAL_RATE_PPM, F.GAL_GOAL_ECHO_CEIL, F.GAL_GOAL_TARGET_EXP, F.GAL_GOAL_H_EFF, F.GAL_GOAL_HORIZON, F.GAL_GOAL_BAD, F.GAL_GOAL_GALLERY, F.GAL_GOAL_GOAL]
  | .GAL_CNT => [F.GAL_CNT_ECHOES, F.GAL_CNT_MISMATCHES, F.GAL_CNT_FORCED, F.GAL_CNT_SKIPPED_SIZE, F.GAL_CNT_SKIPPED_SPECIAL]
  | .GAL_STEP => [F.GAL_STEP_SUSPECT_FIRST, F.GAL_STEP_BAD_STEP]
  | .GAL_FIRST => [F.GAL_FIRST_VALID, F.GAL_FIRST_KIND, F.GAL_FIRST_PARTITION, F.GAL_FIRST_PHYS, F.GAL_FIRST_MASTER, F.GAL_FIRST_STEP]
  | .GAL_QUAR => [F.GAL_QUAR_VALID, F.GAL_QUAR_PHYS, F.GAL_QUAR_BUCKET, F.GAL_QUAR_QUEUED, F.GAL_QUAR_STEP]
  | .GAL_WARN => [F.GAL_WARN_LAST_CAUSE, F.GAL_WARN_INSTANCE, F.GAL_WARN_CAUSE]
  | .GAL_CAMP => [F.GAL_CAMP_RUNNING, F.GAL_CAMP_PART, F.GAL_CAMP_PARTITION, F.GAL_CAMP_PHYS, F.GAL_CAMP_RESULT, F.GAL_CAMP_FAILED, F.GAL_CAMP_ELAPSED_MS]
  | .LDG_AREA => [F.LDG_AREA_FRAMES, F.LDG_AREA_BASE_FRAME]
  | .LDG_SQ => [F.LDG_SQ_BASE, F.LDG_SQ_ENABLE, F.LDG_SQ_LOG2]
  | .LDG_DB => [F.LDG_DB_RESUME, F.LDG_DB_TAIL]
  | .LDG_HEAD => [F.LDG_HEAD_HEAD]
  | .LDG_TAIL => [F.LDG_TAIL_TAIL]
  | .LDG_APPENDED => [F.LDG_APPENDED_APPENDED]
  | .LDG_RELEASED => [F.LDG_RELEASED_RELEASED]
  | .LDG_FLOOR => [F.LDG_FLOOR_LAST_COMMIT, F.LDG_FLOOR_FLOOR]
  | .LDG_REPLAY => [F.LDG_REPLAY_ACTIVE, F.LDG_REPLAY_UNTIL]
  | .LDG_INBOX => [F.LDG_INBOX_VPN, F.LDG_INBOX_BELL, F.LDG_INBOX_ENABLE]
  | .LDG_INBOX_CNT => [F.LDG_INBOX_CNT_MISSING, F.LDG_INBOX_CNT_DUP_BAD, F.LDG_INBOX_CNT_STALE, F.LDG_INBOX_CNT_VERIFIED]
  | .LDG_VOTE => [F.LDG_VOTE_SLOT_VALID, F.LDG_VOTE_SLOT, F.LDG_VOTE_RING, F.LDG_VOTE_RESULT_BELL]
  | .LDG_STATUS => [F.LDG_STATUS_LAST_CODE, F.LDG_STATUS_HALTED, F.LDG_STATUS_FULL, F.LDG_STATUS_SQ_HEAD]
  | .LDG_FIRST => [F.LDG_FIRST_VALID, F.LDG_FIRST_CODE, F.LDG_FIRST_SQ_INDEX, F.LDG_FIRST_STEP]
  | .SNP_CFG => [F.SNP_CFG_MAX_CUT_STEPS, F.SNP_CFG_MIN_CUT_STEPS, F.SNP_CFG_INTERVAL_MS]
  | .SNP_TABLE => [F.SNP_TABLE_BASE, F.SNP_TABLE_SHARDS]
  | .SNP_TRIGGER => [F.SNP_TRIGGER_NOW]
  | .SNP_STATUS => [F.SNP_STATUS_CUT_STEP, F.SNP_STATUS_LAST_CODE, F.SNP_STATUS_PENDING, F.SNP_STATUS_OVERDUE, F.SNP_STATUS_RECOVERY, F.SNP_STATUS_STATE]
  | .SNP_SEQ => [F.SNP_SEQ_CUT_SEQ]
  | .SNP_DRAIN => [F.SNP_DRAIN_TOTAL, F.SNP_DRAIN_SENT]
  | .SNP_MIRROR => [F.SNP_MIRROR_BASE_FRAME, F.SNP_MIRROR_PIN_A, F.SNP_MIRROR_PIN_B, F.SNP_MIRROR_STATE_A, F.SNP_MIRROR_STATE_B, F.SNP_MIRROR_TWO_SLOTS, F.SNP_MIRROR_SERVING, F.SNP_MIRROR_L]
  | .SNP_STEPS => [F.SNP_STEPS_STEP_B, F.SNP_STEPS_STEP_A]
  | .SNP_RESTORE => [F.SNP_RESTORE_STEP, F.SNP_RESTORE_CODE, F.SNP_RESTORE_STATE, F.SNP_RESTORE_SHARDS_DONE]
  | .SNP_AGE => [F.SNP_AGE_REPLAY_X10, F.SNP_AGE_BUDGET_S, F.SNP_AGE_AGE_MS]
  | .HNG_CFG => [F.HNG_CFG_PERIOD_MS, F.HNG_CFG_DUMP_FAULT, F.HNG_CFG_DUMP_HANG, F.HNG_CFG_ACTION]
  | .HNG_STATUS => [F.HNG_STATUS_RESETS, F.HNG_STATUS_MERGED, F.HNG_STATUS_GEN, F.HNG_STATUS_LAST_CAUSE, F.HNG_STATUS_STATE, F.HNG_STATUS_SUSPENDED, F.HNG_STATUS_SINCE_MS]
  | .HNG_STALE => [F.HNG_STALE_REPLIES]
  | .HNG_REQ => [F.HNG_REQ_DUMP, F.HNG_REQ_RESET]
  | .HNG_DUMP => [F.HNG_DUMP_LOST, F.HNG_DUMP_HELD, F.HNG_DUMP_LAST_SEQ]
  | .HNG_SLOT => [F.HNG_SLOT_VALID, F.HNG_SLOT_LIMIT, F.HNG_SLOT_PARTITION, F.HNG_SLOT_CAUSE, F.HNG_SLOT_UNREADABLE, F.HNG_SLOT_DUMP_SEQ]
  | .SEC_STATUS => [F.SEC_STATUS_REVOKED, F.SEC_STATUS_DEBUG_SCOPE, F.SEC_STATUS_FW_COSIGNED, F.SEC_STATUS_FW_OWNER, F.SEC_STATUS_FW_ROOT, F.SEC_STATUS_EXHAUSTED, F.SEC_STATUS_OWNER_ENROLLED, F.SEC_STATUS_ID_VALID]
  | .SEC_SIGIDX => [F.SEC_SIGIDX_TOKENS, F.SEC_SIGIDX_SIG_BLOCK, F.SEC_SIGIDX_NEXT_INDEX]
  | .SEC_SV_LO => [F.SEC_SV_LO_IMG_SV, F.SEC_SV_LO_FW_SV]
  | .SEC_SV_HI => [F.SEC_SV_HI_TRIM_SV, F.SEC_SV_HI_PATCH_SV]
  | .SEC_CTR => [F.SEC_CTR_DEBUG_CTR, F.SEC_CTR_OWNER_EPOCH]
  | .LDIR_TABLE => []
  | .FC_LOG => []

/-- Width in bits. -/
def Reg.width : Reg → Nat
  | .MGT_GUARANTEE => 32
  | .AG_CONFIG => 32
  | .AG_SPARE => 32
  | .SPR_STATUS => 32
  | .SPR_CREDIT => 32
  | .SPR_CHK_CNT => 32
  | .AG_RED_PERMIT => 32
  | .SPR_ACC_ECC => 32
  | .MEM_ATU_STATUS => 32
  | .CUP_ATU_STATUS => 32
  | .STW_PROG => 32
  | .BEL_TIMEOUT => 32
  | .AG_NUM_ALERT => 32
  | .SPR_AMAX => 32
  | .CUP_SPLIT => 32
  | .MEM_STACK => 32
  | .MEM_SCRUB => 32
  | .PGM_WINDOW => 32
  | .LDIR_CAUSE => 32
  | .LDIR_INDEX => 32
  | .LDIR_DATA => 32
  | .AON_STAGE => 32
  | .AON_READY => 32
  | .PWR_STATUS => 32
  | .PWR_CAP => 32
  | .PCI_LINK => 32
  | .MBX_CTRL => 32
  | .MBX_STATUS => 32
  | .MBX_HEARTBEAT => 32
  | .MGT_WDOG => 32
  | .FC_CFG => 32
  | .FC_PEND => 32
  | .FC_ACK => 32
  | .LDG_DB => 32
  | .LDG_VOTE => 32
  | .SNP_TRIGGER => 32
  | .HNG_CFG => 32
  | .HNG_REQ => 32
  | .SEC_STATUS => 32
  | .AG_MAP_LO => 64
  | .AG_MAP_HI => 64
  | .SPR_SLOTS => 64
  | .SPR_PASS_CNT => 64
  | .SPR_CHK_FIRST => 64
  | .AG_FMT => 64
  | .AG_SR_SEED => 64
  | .SPR_CENSUS_A => 64
  | .SPR_CENSUS_B => 64
  | .SPR_CENSUS_C => 64
  | .SPR_CENSUS_D => 64
  | .MEM_REDTAB => 64
  | .MEM_ATU_REJECT => 64
  | .CUP_ATU_REJECT => 64
  | .MEM_ATU_FIRST => 64
  | .CUP_ATU_FIRST => 64
  | .STW_CMD => 64
  | .STW_BYTES => 64
  | .STW_CONV => 64
  | .STW_FIRST => 64
  | .AG_CTX => 64
  | .AG_SEQ_EVENTS => 64
  | .BEL_RING => 64
  | .BEL_SET => 64
  | .BEL_EVENTS => 64
  | .BEL_STATE => 64
  | .TUR_STATUS => 64
  | .TUR_FAULT => 64
  | .TUR_LANE_CYCLES => 64
  | .AG_NUMTAB => 64
  | .AG_NUM_ADVANCE => 64
  | .CUP_ECC => 64
  | .MEM_CHAN_ABSENT => 64
  | .MEM_ECC => 64
  | .MEM_ECC_FIRST => 64
  | .PGM_INVAL => 64
  | .PGM_FAULT => 64
  | .PGM_CUT => 64
  | .PGM_RESERVE => 64
  | .BWG_CFG => 64
  | .BWG_STATE => 64
  | .BWG_ISSUED => 64
  | .BWG_SPENT => 64
  | .BWG_CLIPPED => 64
  | .MGT_BFY_CORE => 64
  | .MGT_ETH => 64
  | .MGT_IMAGE_ID => 64
  | .MGT_IMAGE_STATUS => 64
  | .MGT_PATCH_SEQ => 64
  | .LDIR_GEN => 64
  | .LDIR_LAST_NS => 64
  | .AON_STAGE_MS => 64
  | .PWR_MEAS => 64
  | .PWR_OVERRIDE => 64
  | .CLK_AG => 64
  | .PCI_WIN => 64
  | .PCI_DB => 64
  | .PCI_RING => 64
  | .MGT_HOST => 64
  | .FAB_ADDR => 64
  | .FAB_PORT => 64
  | .FAB_LINK => 64
  | .FAB_OPT => 64
  | .FAB_DROP => 64
  | .FAB_TIME => 64
  | .FAB_ISOLATE => 64
  | .FAB_VGRP => 64
  | .FAB_VCFG => 64
  | .FAB_VCAST => 64
  | .FAB_VRES => 64
  | .FAB_VEXCL => 64
  | .FAB_ROUTE => 64
  | .FC_STATUS => 64
  | .FC_BROKEN_LO => 64
  | .FC_BROKEN_HI => 64
  | .FC_FIRST_ADDR => 64
  | .FC_FIRST_TIME => 64
  | .FC_FIRST_INFO => 64
  | .FC_CNT_LO => 64
  | .FC_CNT_HI => 64
  | .FC_REC => 64
  | .GAL_GOAL => 64
  | .GAL_CNT => 64
  | .GAL_STEP => 64
  | .GAL_FIRST => 64
  | .GAL_QUAR => 64
  | .GAL_WARN => 64
  | .GAL_CAMP => 64
  | .LDG_AREA => 64
  | .LDG_SQ => 64
  | .LDG_HEAD => 64
  | .LDG_TAIL => 64
  | .LDG_APPENDED => 64
  | .LDG_RELEASED => 64
  | .LDG_FLOOR => 64
  | .LDG_REPLAY => 64
  | .LDG_INBOX => 64
  | .LDG_INBOX_CNT => 64
  | .LDG_STATUS => 64
  | .LDG_FIRST => 64
  | .SNP_CFG => 64
  | .SNP_TABLE => 64
  | .SNP_STATUS => 64
  | .SNP_SEQ => 64
  | .SNP_DRAIN => 64
  | .SNP_MIRROR => 64
  | .SNP_STEPS => 64
  | .SNP_RESTORE => 64
  | .SNP_AGE => 64
  | .HNG_STATUS => 64
  | .HNG_STALE => 64
  | .HNG_DUMP => 64
  | .HNG_SLOT => 64
  | .SEC_SIGIDX => 64
  | .SEC_SV_LO => 64
  | .SEC_SV_HI => 64
  | .SEC_CTR => 64
  | .LDIR_TABLE => 64
  | .FC_LOG => 64

/-- Reset domain (R9). -/
def Reg.domain : Reg → ResetDomain
  | .MGT_GUARANTEE => .DEV
  | .AG_CONFIG => .DEV
  | .AG_MAP_LO => .DEV
  | .AG_MAP_HI => .DEV
  | .AG_SPARE => .DEV
  | .SPR_STATUS => .DEV
  | .SPR_CREDIT => .PART
  | .SPR_SLOTS => .PART
  | .SPR_PASS_CNT => .DEV
  | .SPR_CHK_CNT => .DEV
  | .SPR_CHK_FIRST => .DEV
  | .AG_FMT => .PART
  | .AG_SR_SEED => .PART
  | .AG_RED_PERMIT => .DEV
  | .SPR_CENSUS_A => .PART
  | .SPR_CENSUS_B => .PART
  | .SPR_CENSUS_C => .PART
  | .SPR_CENSUS_D => .PART
  | .SPR_ACC_ECC => .DEV
  | .MEM_REDTAB => .PART
  | .MEM_ATU_STATUS => .DEV
  | .CUP_ATU_STATUS => .DEV
  | .MEM_ATU_REJECT => .DEV
  | .CUP_ATU_REJECT => .DEV
  | .MEM_ATU_FIRST => .DEV
  | .CUP_ATU_FIRST => .DEV
  | .STW_CMD => .PART
  | .STW_PROG => .PART
  | .STW_BYTES => .DEV
  | .STW_CONV => .DEV
  | .STW_FIRST => .DEV
  | .AG_CTX => .PART
  | .AG_SEQ_EVENTS => .DEV
  | .BEL_RING => .PART
  | .BEL_SET => .PART
  | .BEL_TIMEOUT => .PART
  | .BEL_EVENTS => .PART
  | .BEL_STATE => .PART
  | .TUR_STATUS => .PART
  | .TUR_FAULT => .DEV
  | .TUR_LANE_CYCLES => .DEV
  | .AG_NUMTAB => .PART
  | .AG_NUM_ADVANCE => .PART
  | .AG_NUM_ALERT => .PART
  | .SPR_AMAX => .PART
  | .CUP_SPLIT => .DEV
  | .CUP_ECC => .DEV
  | .MEM_STACK => .DEV
  | .MEM_CHAN_ABSENT => .DEV
  | .MEM_ECC => .DEV
  | .MEM_ECC_FIRST => .DEV
  | .MEM_SCRUB => .DEV
  | .PGM_INVAL => .DEV
  | .PGM_FAULT => .DEV
  | .PGM_CUT => .DEV
  | .PGM_RESERVE => .DEV
  | .PGM_WINDOW => .DEV
  | .BWG_CFG => .DEV
  | .BWG_STATE => .DEV
  | .BWG_ISSUED => .DEV
  | .BWG_SPENT => .DEV
  | .BWG_CLIPPED => .DEV
  | .MGT_BFY_CORE => .DEV
  | .MGT_ETH => .DEV
  | .MGT_IMAGE_ID => .DEV
  | .MGT_IMAGE_STATUS => .DEV
  | .MGT_PATCH_SEQ => .DEV
  | .LDIR_GEN => .AON
  | .LDIR_LAST_NS => .AON
  | .LDIR_CAUSE => .AON
  | .LDIR_INDEX => .DEV
  | .LDIR_DATA => .DEV
  | .AON_STAGE => .DEV
  | .AON_STAGE_MS => .DEV
  | .AON_READY => .DEV
  | .PWR_STATUS => .AON
  | .PWR_CAP => .DEV
  | .PWR_MEAS => .DEV
  | .PWR_OVERRIDE => .DEV
  | .CLK_AG => .DEV
  | .PCI_LINK => .DEV
  | .PCI_WIN => .DEV
  | .PCI_DB => .PART
  | .PCI_RING => .PART
  | .MBX_CTRL => .MGT
  | .MBX_STATUS => .DEV
  | .MBX_HEARTBEAT => .DEV
  | .MGT_WDOG => .AON
  | .MGT_HOST => .DEV
  | .FAB_ADDR => .DEV
  | .FAB_PORT => .DEV
  | .FAB_LINK => .DEV
  | .FAB_OPT => .DEV
  | .FAB_DROP => .DEV
  | .FAB_TIME => .DEV
  | .FAB_ISOLATE => .DEV
  | .FAB_VGRP => .DEV
  | .FAB_VCFG => .DEV
  | .FAB_VCAST => .PART
  | .FAB_VRES => .DEV
  | .FAB_VEXCL => .DEV
  | .FAB_ROUTE => .DEV
  | .FC_STATUS => .AON
  | .FC_CFG => .DEV
  | .FC_BROKEN_LO => .AON
  | .FC_BROKEN_HI => .AON
  | .FC_FIRST_ADDR => .AON
  | .FC_FIRST_TIME => .AON
  | .FC_FIRST_INFO => .AON
  | .FC_PEND => .DEV
  | .FC_ACK => .DEV
  | .FC_CNT_LO => .AON
  | .FC_CNT_HI => .AON
  | .FC_REC => .AON
  | .GAL_GOAL => .DEV
  | .GAL_CNT => .DEV
  | .GAL_STEP => .DEV
  | .GAL_FIRST => .DEV
  | .GAL_QUAR => .AON
  | .GAL_WARN => .DEV
  | .GAL_CAMP => .DEV
  | .LDG_AREA => .DEV
  | .LDG_SQ => .PART
  | .LDG_DB => .PART
  | .LDG_HEAD => .DEV
  | .LDG_TAIL => .DEV
  | .LDG_APPENDED => .DEV
  | .LDG_RELEASED => .DEV
  | .LDG_FLOOR => .DEV
  | .LDG_REPLAY => .DEV
  | .LDG_INBOX => .DEV
  | .LDG_INBOX_CNT => .DEV
  | .LDG_VOTE => .DEV
  | .LDG_STATUS => .DEV
  | .LDG_FIRST => .DEV
  | .SNP_CFG => .DEV
  | .SNP_TABLE => .DEV
  | .SNP_TRIGGER => .DEV
  | .SNP_STATUS => .DEV
  | .SNP_SEQ => .AON
  | .SNP_DRAIN => .DEV
  | .SNP_MIRROR => .DEV
  | .SNP_STEPS => .DEV
  | .SNP_RESTORE => .DEV
  | .SNP_AGE => .DEV
  | .HNG_CFG => .DEV
  | .HNG_STATUS => .AON
  | .HNG_STALE => .DEV
  | .HNG_REQ => .DEV
  | .HNG_DUMP => .DEV
  | .HNG_SLOT => .DEV
  | .SEC_STATUS => .AON
  | .SEC_SIGIDX => .AON
  | .SEC_SV_LO => .AON
  | .SEC_SV_HI => .AON
  | .SEC_CTR => .AON
  | .LDIR_TABLE => .AON
  | .FC_LOG => .AON

/-- How many instances the 9T has on each of the two instance axes, and what the first counts. The control page numbered 16 + p is that of
partition p's attach mailbox (R313). -/
def Reg.axes : Reg → Nat × Nat × InstUnit
  | .MGT_GUARANTEE => (1, 1, .dev)
  | .AG_CONFIG => (16, 1, .group)
  | .AG_MAP_LO => (16, 1, .group)
  | .AG_MAP_HI => (16, 1, .group)
  | .AG_SPARE => (16, 1, .group)
  | .SPR_STATUS => (272, 1, .array)
  | .SPR_CREDIT => (272, 1, .array)
  | .SPR_SLOTS => (272, 1, .array)
  | .SPR_PASS_CNT => (272, 1, .array)
  | .SPR_CHK_CNT => (272, 1, .array)
  | .SPR_CHK_FIRST => (272, 1, .array)
  | .AG_FMT => (16, 16, .group)
  | .AG_SR_SEED => (16, 1, .group)
  | .AG_RED_PERMIT => (16, 1, .group)
  | .SPR_CENSUS_A => (272, 1, .array)
  | .SPR_CENSUS_B => (272, 1, .array)
  | .SPR_CENSUS_C => (272, 1, .array)
  | .SPR_CENSUS_D => (272, 1, .array)
  | .SPR_ACC_ECC => (272, 1, .array)
  | .MEM_REDTAB => (16, 1, .part)
  | .MEM_ATU_STATUS => (16, 1, .stack)
  | .CUP_ATU_STATUS => (16, 1, .slice)
  | .MEM_ATU_REJECT => (16, 1, .stack)
  | .CUP_ATU_REJECT => (16, 1, .slice)
  | .MEM_ATU_FIRST => (16, 1, .stack)
  | .CUP_ATU_FIRST => (16, 1, .slice)
  | .STW_CMD => (16, 4, .group)
  | .STW_PROG => (16, 4, .group)
  | .STW_BYTES => (16, 4, .group)
  | .STW_CONV => (16, 4, .group)
  | .STW_FIRST => (16, 1, .group)
  | .AG_CTX => (16, 8, .group)
  | .AG_SEQ_EVENTS => (16, 1, .group)
  | .BEL_RING => (16, 1, .group)
  | .BEL_SET => (16, 1, .group)
  | .BEL_TIMEOUT => (16, 1, .group)
  | .BEL_EVENTS => (16, 1, .group)
  | .BEL_STATE => (16, 4096, .group)
  | .TUR_STATUS => (16, 1, .group)
  | .TUR_FAULT => (16, 1, .group)
  | .TUR_LANE_CYCLES => (16, 1, .group)
  | .AG_NUMTAB => (16, 1, .group)
  | .AG_NUM_ADVANCE => (16, 1, .group)
  | .AG_NUM_ALERT => (16, 1, .group)
  | .SPR_AMAX => (272, 1, .array)
  | .CUP_SPLIT => (16, 1, .slice)
  | .CUP_ECC => (16, 1, .slice)
  | .MEM_STACK => (16, 1, .stack)
  | .MEM_CHAN_ABSENT => (16, 1, .stack)
  | .MEM_ECC => (16, 1, .stack)
  | .MEM_ECC_FIRST => (16, 1, .stack)
  | .MEM_SCRUB => (16, 1, .stack)
  | .PGM_INVAL => (1, 1, .dev)
  | .PGM_FAULT => (1, 1, .dev)
  | .PGM_CUT => (16, 1, .part)
  | .PGM_RESERVE => (16, 1, .part)
  | .PGM_WINDOW => (16, 1, .part)
  | .BWG_CFG => (16, 3, .part)
  | .BWG_STATE => (16, 3, .part)
  | .BWG_ISSUED => (16, 3, .part)
  | .BWG_SPENT => (16, 3, .part)
  | .BWG_CLIPPED => (16, 3, .part)
  | .MGT_BFY_CORE => (48, 1, .idx)
  | .MGT_ETH => (2, 1, .idx)
  | .MGT_IMAGE_ID => (1, 1, .dev)
  | .MGT_IMAGE_STATUS => (1, 1, .dev)
  | .MGT_PATCH_SEQ => (16, 1, .part)
  | .LDIR_GEN => (1, 1, .dev)
  | .LDIR_LAST_NS => (1, 1, .dev)
  | .LDIR_CAUSE => (1, 1, .dev)
  | .LDIR_INDEX => (1, 1, .dev)
  | .LDIR_DATA => (1, 1, .dev)
  | .AON_STAGE => (1, 1, .dev)
  | .AON_STAGE_MS => (1, 1, .dev)
  | .AON_READY => (1, 1, .dev)
  | .PWR_STATUS => (1, 1, .dev)
  | .PWR_CAP => (1, 1, .dev)
  | .PWR_MEAS => (1, 1, .dev)
  | .PWR_OVERRIDE => (1, 1, .dev)
  | .CLK_AG => (16, 1, .group)
  | .PCI_LINK => (1, 1, .dev)
  | .PCI_WIN => (1, 1, .dev)
  | .PCI_DB => (16, 8, .group)
  | .PCI_RING => (16, 8, .group)
  | .MBX_CTRL => (32, 1, .idx)
  | .MBX_STATUS => (32, 1, .idx)
  | .MBX_HEARTBEAT => (32, 1, .idx)
  | .MGT_WDOG => (1, 1, .dev)
  | .MGT_HOST => (1, 1, .dev)
  | .FAB_ADDR => (1, 1, .dev)
  | .FAB_PORT => (32, 1, .idx)
  | .FAB_LINK => (32, 1, .idx)
  | .FAB_OPT => (32, 1, .idx)
  | .FAB_DROP => (1, 1, .dev)
  | .FAB_TIME => (1, 1, .dev)
  | .FAB_ISOLATE => (1, 1, .dev)
  | .FAB_VGRP => (16, 1, .idx)
  | .FAB_VCFG => (16, 1, .idx)
  | .FAB_VCAST => (16, 1, .part)
  | .FAB_VRES => (16, 1, .idx)
  | .FAB_VEXCL => (16, 1, .idx)
  | .FAB_ROUTE => (65536, 1, .idx)
  | .FC_STATUS => (1, 1, .dev)
  | .FC_CFG => (1, 1, .dev)
  | .FC_BROKEN_LO => (1, 1, .dev)
  | .FC_BROKEN_HI => (1, 1, .dev)
  | .FC_FIRST_ADDR => (1, 1, .dev)
  | .FC_FIRST_TIME => (1, 1, .dev)
  | .FC_FIRST_INFO => (1, 1, .dev)
  | .FC_PEND => (7, 1, .idx)
  | .FC_ACK => (1, 1, .dev)
  | .FC_CNT_LO => (7, 1, .idx)
  | .FC_CNT_HI => (7, 1, .idx)
  | .FC_REC => (7, 8, .idx)
  | .GAL_GOAL => (16, 1, .part)
  | .GAL_CNT => (16, 1, .part)
  | .GAL_STEP => (16, 1, .part)
  | .GAL_FIRST => (1, 1, .dev)
  | .GAL_QUAR => (16, 1, .part)
  | .GAL_WARN => (1, 1, .dev)
  | .GAL_CAMP => (1, 1, .dev)
  | .LDG_AREA => (16, 1, .part)
  | .LDG_SQ => (16, 1, .part)
  | .LDG_DB => (16, 1, .part)
  | .LDG_HEAD => (16, 1, .part)
  | .LDG_TAIL => (16, 1, .part)
  | .LDG_APPENDED => (16, 1, .part)
  | .LDG_RELEASED => (16, 1, .part)
  | .LDG_FLOOR => (16, 1, .part)
  | .LDG_REPLAY => (16, 1, .part)
  | .LDG_INBOX => (16, 1, .part)
  | .LDG_INBOX_CNT => (16, 1, .part)
  | .LDG_VOTE => (16, 1, .part)
  | .LDG_STATUS => (16, 1, .part)
  | .LDG_FIRST => (16, 1, .part)
  | .SNP_CFG => (16, 1, .part)
  | .SNP_TABLE => (16, 1, .part)
  | .SNP_TRIGGER => (16, 1, .part)
  | .SNP_STATUS => (16, 1, .part)
  | .SNP_SEQ => (16, 1, .part)
  | .SNP_DRAIN => (16, 1, .part)
  | .SNP_MIRROR => (16, 2, .part)
  | .SNP_STEPS => (16, 2, .part)
  | .SNP_RESTORE => (16, 1, .part)
  | .SNP_AGE => (16, 1, .part)
  | .HNG_CFG => (16, 1, .part)
  | .HNG_STATUS => (16, 1, .part)
  | .HNG_STALE => (16, 1, .part)
  | .HNG_REQ => (16, 1, .part)
  | .HNG_DUMP => (1, 1, .dev)
  | .HNG_SLOT => (4, 1, .idx)
  | .SEC_STATUS => (1, 1, .dev)
  | .SEC_SIGIDX => (1, 1, .dev)
  | .SEC_SV_LO => (1, 1, .dev)
  | .SEC_SV_HI => (1, 1, .dev)
  | .SEC_CTR => (1, 1, .dev)
  | .LDIR_TABLE => (8192, 3, .dev)
  | .FC_LOG => (32768, 1, .idx)

/-- The fault class of the block that owns the register, by its prefix (table of R368). -/
def Reg.faultClass : Reg → Nat
  | .MGT_GUARANTEE => 2
  | .AG_CONFIG => 2
  | .AG_MAP_LO => 2
  | .AG_MAP_HI => 2
  | .AG_SPARE => 2
  | .SPR_STATUS => 1
  | .SPR_CREDIT => 1
  | .SPR_SLOTS => 1
  | .SPR_PASS_CNT => 1
  | .SPR_CHK_CNT => 1
  | .SPR_CHK_FIRST => 1
  | .AG_FMT => 2
  | .AG_SR_SEED => 2
  | .AG_RED_PERMIT => 2
  | .SPR_CENSUS_A => 1
  | .SPR_CENSUS_B => 1
  | .SPR_CENSUS_C => 1
  | .SPR_CENSUS_D => 1
  | .SPR_ACC_ECC => 1
  | .MEM_REDTAB => 0
  | .MEM_ATU_STATUS => 0
  | .CUP_ATU_STATUS => 0
  | .MEM_ATU_REJECT => 0
  | .CUP_ATU_REJECT => 0
  | .MEM_ATU_FIRST => 0
  | .CUP_ATU_FIRST => 0
  | .STW_CMD => 0
  | .STW_PROG => 0
  | .STW_BYTES => 0
  | .STW_CONV => 0
  | .STW_FIRST => 0
  | .AG_CTX => 2
  | .AG_SEQ_EVENTS => 2
  | .BEL_RING => 2
  | .BEL_SET => 2
  | .BEL_TIMEOUT => 2
  | .BEL_EVENTS => 2
  | .BEL_STATE => 2
  | .TUR_STATUS => 2
  | .TUR_FAULT => 2
  | .TUR_LANE_CYCLES => 2
  | .AG_NUMTAB => 2
  | .AG_NUM_ADVANCE => 2
  | .AG_NUM_ALERT => 2
  | .SPR_AMAX => 1
  | .CUP_SPLIT => 0
  | .CUP_ECC => 0
  | .MEM_STACK => 0
  | .MEM_CHAN_ABSENT => 0
  | .MEM_ECC => 0
  | .MEM_ECC_FIRST => 0
  | .MEM_SCRUB => 0
  | .PGM_INVAL => 0
  | .PGM_FAULT => 0
  | .PGM_CUT => 0
  | .PGM_RESERVE => 0
  | .PGM_WINDOW => 0
  | .BWG_CFG => 0
  | .BWG_STATE => 0
  | .BWG_ISSUED => 0
  | .BWG_SPENT => 0
  | .BWG_CLIPPED => 0
  | .MGT_BFY_CORE => 2
  | .MGT_ETH => 2
  | .MGT_IMAGE_ID => 2
  | .MGT_IMAGE_STATUS => 2
  | .MGT_PATCH_SEQ => 2
  | .LDIR_GEN => 5
  | .LDIR_LAST_NS => 5
  | .LDIR_CAUSE => 5
  | .LDIR_INDEX => 5
  | .LDIR_DATA => 5
  | .AON_STAGE => 4
  | .AON_STAGE_MS => 4
  | .AON_READY => 4
  | .PWR_STATUS => 4
  | .PWR_CAP => 4
  | .PWR_MEAS => 4
  | .PWR_OVERRIDE => 4
  | .CLK_AG => 4
  | .PCI_LINK => 2
  | .PCI_WIN => 2
  | .PCI_DB => 2
  | .PCI_RING => 2
  | .MBX_CTRL => 2
  | .MBX_STATUS => 2
  | .MBX_HEARTBEAT => 2
  | .MGT_WDOG => 2
  | .MGT_HOST => 2
  | .FAB_ADDR => 3
  | .FAB_PORT => 3
  | .FAB_LINK => 3
  | .FAB_OPT => 3
  | .FAB_DROP => 3
  | .FAB_TIME => 3
  | .FAB_ISOLATE => 3
  | .FAB_VGRP => 3
  | .FAB_VCFG => 3
  | .FAB_VCAST => 3
  | .FAB_VRES => 3
  | .FAB_VEXCL => 3
  | .FAB_ROUTE => 3
  | .FC_STATUS => 6
  | .FC_CFG => 6
  | .FC_BROKEN_LO => 6
  | .FC_BROKEN_HI => 6
  | .FC_FIRST_ADDR => 6
  | .FC_FIRST_TIME => 6
  | .FC_FIRST_INFO => 6
  | .FC_PEND => 6
  | .FC_ACK => 6
  | .FC_CNT_LO => 6
  | .FC_CNT_HI => 6
  | .FC_REC => 6
  | .GAL_GOAL => 1
  | .GAL_CNT => 1
  | .GAL_STEP => 1
  | .GAL_FIRST => 1
  | .GAL_QUAR => 1
  | .GAL_WARN => 1
  | .GAL_CAMP => 1
  | .LDG_AREA => 0
  | .LDG_SQ => 0
  | .LDG_DB => 0
  | .LDG_HEAD => 0
  | .LDG_TAIL => 0
  | .LDG_APPENDED => 0
  | .LDG_RELEASED => 0
  | .LDG_FLOOR => 0
  | .LDG_REPLAY => 0
  | .LDG_INBOX => 0
  | .LDG_INBOX_CNT => 0
  | .LDG_VOTE => 0
  | .LDG_STATUS => 0
  | .LDG_FIRST => 0
  | .SNP_CFG => 0
  | .SNP_TABLE => 0
  | .SNP_TRIGGER => 0
  | .SNP_STATUS => 0
  | .SNP_SEQ => 0
  | .SNP_DRAIN => 0
  | .SNP_MIRROR => 0
  | .SNP_STEPS => 0
  | .SNP_RESTORE => 0
  | .SNP_AGE => 0
  | .HNG_CFG => 2
  | .HNG_STATUS => 2
  | .HNG_STALE => 2
  | .HNG_REQ => 2
  | .HNG_DUMP => 2
  | .HNG_SLOT => 2
  | .SEC_STATUS => 5
  | .SEC_SIGIDX => 5
  | .SEC_SV_LO => 5
  | .SEC_SV_HI => 5
  | .SEC_CTR => 5
  | .LDIR_TABLE => 5
  | .FC_LOG => 6

def Reg.part0 : List Reg :=
  [.MGT_GUARANTEE, .AG_CONFIG, .AG_MAP_LO, .AG_MAP_HI, .AG_SPARE, .SPR_STATUS, .SPR_CREDIT, .SPR_SLOTS, .SPR_PASS_CNT, .SPR_CHK_CNT, .SPR_CHK_FIRST, .AG_FMT]
def Reg.part1 : List Reg :=
  [.AG_SR_SEED, .AG_RED_PERMIT, .SPR_CENSUS_A, .SPR_CENSUS_B, .SPR_CENSUS_C, .SPR_CENSUS_D, .SPR_ACC_ECC, .MEM_REDTAB, .MEM_ATU_STATUS, .CUP_ATU_STATUS, .MEM_ATU_REJECT, .CUP_ATU_REJECT]
def Reg.part2 : List Reg :=
  [.MEM_ATU_FIRST, .CUP_ATU_FIRST, .STW_CMD, .STW_PROG, .STW_BYTES, .STW_CONV, .STW_FIRST, .AG_CTX, .AG_SEQ_EVENTS, .BEL_RING, .BEL_SET, .BEL_TIMEOUT]
def Reg.part3 : List Reg :=
  [.BEL_EVENTS, .BEL_STATE, .TUR_STATUS, .TUR_FAULT, .TUR_LANE_CYCLES, .AG_NUMTAB, .AG_NUM_ADVANCE, .AG_NUM_ALERT, .SPR_AMAX, .CUP_SPLIT, .CUP_ECC, .MEM_STACK]
def Reg.part4 : List Reg :=
  [.MEM_CHAN_ABSENT, .MEM_ECC, .MEM_ECC_FIRST, .MEM_SCRUB, .PGM_INVAL, .PGM_FAULT, .PGM_CUT, .PGM_RESERVE, .PGM_WINDOW, .BWG_CFG, .BWG_STATE, .BWG_ISSUED]
def Reg.part5 : List Reg :=
  [.BWG_SPENT, .BWG_CLIPPED, .MGT_BFY_CORE, .MGT_ETH, .MGT_IMAGE_ID, .MGT_IMAGE_STATUS, .MGT_PATCH_SEQ, .LDIR_GEN, .LDIR_LAST_NS, .LDIR_CAUSE, .LDIR_INDEX, .LDIR_DATA]
def Reg.part6 : List Reg :=
  [.AON_STAGE, .AON_STAGE_MS, .AON_READY, .PWR_STATUS, .PWR_CAP, .PWR_MEAS, .PWR_OVERRIDE, .CLK_AG, .PCI_LINK, .PCI_WIN, .PCI_DB, .PCI_RING]
def Reg.part7 : List Reg :=
  [.MBX_CTRL, .MBX_STATUS, .MBX_HEARTBEAT, .MGT_WDOG, .MGT_HOST, .FAB_ADDR, .FAB_PORT, .FAB_LINK, .FAB_OPT, .FAB_DROP, .FAB_TIME, .FAB_ISOLATE]
def Reg.part8 : List Reg :=
  [.FAB_VGRP, .FAB_VCFG, .FAB_VCAST, .FAB_VRES, .FAB_VEXCL, .FAB_ROUTE, .FC_STATUS, .FC_CFG, .FC_BROKEN_LO, .FC_BROKEN_HI, .FC_FIRST_ADDR, .FC_FIRST_TIME]
def Reg.part9 : List Reg :=
  [.FC_FIRST_INFO, .FC_PEND, .FC_ACK, .FC_CNT_LO, .FC_CNT_HI, .FC_REC, .GAL_GOAL, .GAL_CNT, .GAL_STEP, .GAL_FIRST, .GAL_QUAR, .GAL_WARN]
def Reg.part10 : List Reg :=
  [.GAL_CAMP, .LDG_AREA, .LDG_SQ, .LDG_DB, .LDG_HEAD, .LDG_TAIL, .LDG_APPENDED, .LDG_RELEASED, .LDG_FLOOR, .LDG_REPLAY, .LDG_INBOX, .LDG_INBOX_CNT]
def Reg.part11 : List Reg :=
  [.LDG_VOTE, .LDG_STATUS, .LDG_FIRST, .SNP_CFG, .SNP_TABLE, .SNP_TRIGGER, .SNP_STATUS, .SNP_SEQ, .SNP_DRAIN, .SNP_MIRROR, .SNP_STEPS, .SNP_RESTORE]
def Reg.part12 : List Reg :=
  [.SNP_AGE, .HNG_CFG, .HNG_STATUS, .HNG_STALE, .HNG_REQ, .HNG_DUMP, .HNG_SLOT, .SEC_STATUS, .SEC_SIGIDX, .SEC_SV_LO, .SEC_SV_HI, .SEC_CTR]
/-- Every register, in the manual's order. -/
def Reg.all : List Reg :=
  List.flatten [Reg.part0, Reg.part1, Reg.part2, Reg.part3, Reg.part4, Reg.part5, Reg.part6, Reg.part7, Reg.part8, Reg.part9, Reg.part10, Reg.part11, Reg.part12]

end Sys2Proof
end

