-- ==== Sys2Proof/Syntax.lean ====
section
/-!
DEFINITION. Sys2Proof/Syntax.lean: the commands of the block, one constructor of Instr for each row of spec/opcode_table.json, with the
operands the row's rule speaks of. A `t` is the device time in nanoseconds at which the event comes about.
-/

namespace Sys2Proof

/-- A PCIe function, or the Belfry cores of a partition, as the sender of a host access (R312). -/
inductive Fn where
  | pf0
  | vf (n : Nat)
  | bfy (p : Nat)
  deriving DecidableEq, Repr

/-- Header of a mailbox request (R315). `m` is the mailbox, `fn` the function that writes GO. `lenOk` says that LENGTH is the length the
opcode requires, `resOk` that every reserved byte of header and payload is 0; the operands of the command are the payload. -/
structure MbxHdr where
  m : Nat
  fn : Fn
  verMajor : Nat
  verMinor : Nat
  seq : Nat
  len : Nat
  session : Nat
  lenOk : Bool
  resOk : Bool
  deriving DecidableEq, Repr

/-- The ways a command of R307 and R353 reaches the device: a mailbox, an MCTP message, a DOE object, or a fabric management frame from
address `src`, endpoint `ep`, on port `port`. -/
inductive Path where
  | mbx (h : MbxHdr)
  | mctp
  | doe
  | fabric (src ep port : Nat)
  deriving DecidableEq, Repr

/-- Who writes a register: PF0, a VF, a Belfry core of a partition, the management core, or the sideband controller. -/
inductive Requester where
  | pf0
  | vf (n : Nat)
  | bfy (p : Nat)
  | mgt
  deriving DecidableEq, Repr

/-- An event the wake controller holds for a sleeping group (R286). -/
inductive HeldEvent where
  /-- a doorbell of context `c` of AGg, the 64-bit word written by `fn` -/
  | doorbell (fn : Fn) (g c word : Nat)
  /-- a ring of `count` on bell `bell` of the group's bell block from partition `p` -/
  | ring (p bell count : Nat)
  /-- a Gallery or Campanile request for physical array `pa` -/
  | test (pa : Nat)
  /-- a patch of partition `p`, in device memory at `addr`, `len` bytes -/
  | patch (h : MbxHdr) (p addr len : Nat)
  /-- an access to a register of the group's window: a read, or a write of a value with the bits the device sets in the same cycle -/
  | access (who : Requester) (reg : Reg) (i j : Nat) (wr : Option (Nat × Nat))
  /-- a write through PF0 BAR4 or VF BAR2 at offset `off` -/
  | window (fn : Fn) (off : Nat) (bytes : Bytes)
  deriving DecidableEq, Repr

/-- A register or structure of a function's configuration (R276, R299): the DVSEC headers and the directory pair behind them, MSI-X control and
the mask bit of a vector's table entry, the power state, the AER uncorrectable status, or any other. -/
inductive CfgReg where
  | dvsec1
  | dvsec2
  | ldirIndex
  | ldirData
  | msixControl
  | msixEntry (v : Nat)
  | power
  | aer
  | other
  deriving DecidableEq, Repr
/-- What a feed-port read returns (R137, R497): data, data with an uncorrected error, or the code of a failed check of R208. -/
inductive FeedOutcome where
  | data
  | uncorrected
  | failed (check : Nat)
  deriving DecidableEq, Repr

/-- Header of a contribution (R116): handle, contributor index, class, ACC_WIDE, λ and the number of elements. -/
structure ContribHdr where
  handle : Nat
  index : Nat
  cls : Nat
  wide : Bool
  lambda : Int
  count : Nat
  deriving DecidableEq, Repr

/-- A beat of a contribution: its partition, generation tag, header, the first element it carries and the values as bit patterns. `job` is
the exporting descriptor's number on the contributing device. -/
structure Beat where
  p : Nat
  gen : Nat
  hdr : ContribHdr
  first : Nat
  vals : List Nat
  job : Nat
  deriving DecidableEq, Repr

/-- Where a beat comes from: the k-th beat this device's drains have sent and no unit has taken, or the k-th packet the fabric has delivered
and no unit has taken. -/
inductive BeatSrc where
  | drain (k : Nat)
  | fabric (k : Nat)
  deriving DecidableEq, Repr


/-- What a scrub read of a cupola word finds (R219): no error, a corrected single-bit error, or an uncorrected one. -/
inductive ScrubFinding where
  | clean
  | corrected
  | uncorrected
  deriving DecidableEq, Repr

/-- Payload of OPEN (R318). Versions are 256 * major + minor; `bfyCore` is the core named for numerics interrupts, if one is. -/
structure OpenReq where
  lowest : Nat
  highest : Nat
  features : Nat
  policy : Nat
  reattach : Bool
  bfyCore : Option Nat
  previous : Nat
  deriving DecidableEq, Repr

/-- Payload of CONTEXT_OPEN (R308). `irqFn` interrupts the opening function, `irqCore` a Belfry core. `vfBase` is used by a VF session. -/
structure CtxOpenReq where
  g : Nat
  c : Nat
  sqBase : Nat
  sqLog2 : Nat
  cqBase : Nat
  cqLog2 : Nat
  irqFn : Bool
  irqCore : Option Nat
  vfBase : Nat
  deriving DecidableEq, Repr

/-- A PLDM command as far as R306 speaks of it. -/
inductive PldmCmd where
  /-- a command of the base type, with its argument where it has one -/
  | base (code arg : Nat)
  /-- read of a numeric sensor: a PWR_MEAS field, a die's hottest sensor or a stack's temperature -/
  | readSensor (sensor : Nat)
  /-- read of the state sensor for AON_STAGE.STAGE -/
  | readStage
  /-- firmware update: bytes for component 0 firmware, 1 to 4 structure-image slots, 5 the trim image -/
  | update (component off : Nat) (bytes : Bytes)
  deriving DecidableEq, Repr

/-- A packet of the fabric (R329, *Packet operations*): the fields of its head and its data. A CONTRIB packet carries a beat. -/
structure Pkt where
  src : Nat
  srcEp : Nat
  dst : Nat
  dstEp : Nat
  /-- 1 WRITE, 2 CONTRIB, 3 MGMT_REQ, 4 MGMT_RSP -/
  op : Nat
  arg : Nat
  gen : Nat
  hops : Nat
  detours : Nat
  ordered : Bool
  data : Bytes
  beat : Option Beat
  deriving DecidableEq, Repr

/-- What a HELLO frame carries (R343). -/
structure HelloMsg where
  version : Nat
  digest : Bytes
  addr : Nat
  admitted : Bool
  isolate : Bool
  root : Nat
  level : Nat
  port : Nat
  stage : Nat
  deriving DecidableEq, Repr

/-- What a CLAIM frame carries (R344): its legality flag says whether the path from the
sender to the claimant keeps up*/down* order, and `down` whether it has only down hops. -/
structure ClaimMsg where
  addr : Nat
  digest : Bytes
  seq : Nat
  admitted : Bool
  hops : Nat
  legal : Bool
  down : Bool
  deriving DecidableEq, Repr

/-- LINK frames. -/
inductive LinkMsg where
  | nak (fseq : Nat)
  | reconcile (free : List Nat)
  | census (credits : List Nat) (lastRx : Nat)
  | hello (h : HelloMsg)
  | claim (c : ClaimMsg)
  | withdraw (ds : List Nat)
  | announce (ds : List Nat)
  | voteUp (group step : Nat) (verdict : Bool) (count first : Nat)
  | voteDown (group step result count first : Nat)
  | time (t1 : Nat)
  | peerQuery
  | peerAnswer (stage guarantee recent fwAge : Nat)
  deriving DecidableEq, Repr

/-- Body of a frame: none, a flit of a packet on a virtual channel, or a LINK message. -/
inductive FrameBody where
  | idle
  | data (vc : Nat) (head tail : Bool) (pkt : Pkt)
  | link (m : LinkMsg)
  deriving DecidableEq, Repr

/-- A frame (R329): its sequence number, ACK, credit return and body. -/
structure Frame where
  fseq : Nat
  ack : Nat
  crVc : Nat
  crCount : Nat
  body : FrameBody
  deriving DecidableEq, Repr

/-- One slot of a mirror run as SLOT_STATUS reports it (R433): state 0 EMPTY, 1 OPEN, 2 COMPLETE, 3 FAILED. -/
structure SlotInfo where
  state : Nat
  step : Nat
  cutId : Nat
  pinned : Bool
  serving : Bool
  deriving DecidableEq, Repr

/-- An answer to SLOT_STATUS: both slots, the first frame of the run, L, and whether two slots fit. -/
structure SlotAns where
  a : SlotInfo
  b : SlotInfo
  base : Nat
  len : Nat
  two : Bool
  deriving DecidableEq, Repr

/-- Payload of CAMPANILE_RUN (R402): an array or a partition, the parts (bit i), the set point of self-heating. -/
structure CampReq where
  target : Option Nat
  p : Nat
  parts : Nat
  setPointC : Int
  deriving DecidableEq, Repr

/-- A source of a RESTORE (R441): a slot served by another device (`dev`), or an image in local staging; where its staging image begins,
the P of its slot, and for a durable copy the signer's key. -/
structure RestoreSrc where
  dev : Option Nat
  stage : Nat
  pages : Nat
  signer : Option Bytes
  deriving DecidableEq, Repr

/-- Payload of RESTORE (R441): partition, step rule, mode, dry run and sources. -/
structure RestoreReq where
  p : Nat
  exact : Bool
  step : Nat
  reslice : Bool
  dryRun : Bool
  sources : List RestoreSrc
  deriving DecidableEq, Repr

/-- Payload of SNAP_SERVE (R442): a slot of a local run, the target device and partition, its STAGE_ADDR and the mode. -/
structure ServeReq where
  p : Nat
  r : Nat
  slot : Nat
  dev : Nat
  part : Nat
  stage : Nat
  reslice : Bool
  deriving DecidableEq, Repr

/-- The commands of the block (spec/opcode_table.json), one constructor per row. -/
inductive Instr where
  -- supplies, clocks, sleep and the staged start (spec/13, 11, 21)
  /-- AUX_3V3_VALID: `sealOk` says whether the identity seal opens (R470, R471). -/
  | aux3v3Valid (t : Nat) (sealOk : Bool)
  | aux3v3Lost (t : Nat)
  | mainInValid (t : Nat)
  | mainInInvalid (t : Nat)
  | ana1v8Valid (t : Nat)
  | ana1v8Invalid (t : Nat)
  | perstAssert (t : Nat)
  /-- PERST_RELEASE: the link trains to `width` lanes at rate code `rate` of PCI_LINK. -/
  | perstRelease (t : Nat) (sealOk : Bool) (rate width : Nat)
  /-- CONFIGURATION_REQUEST to function `fn`: a read, or a write of a value. -/
  | configurationRequest (t : Nat) (fn : Fn) (reg : CfgReg) (wr : Option Nat)
  | firmwareAuthenticate (t : Nat)
  /-- DOME_APPLY: spire/cupola die pairs that fail to train (R11), arrays that fail R40, channels (64 * stack + channel) that fail (R221). -/
  | domeApply (t : Nat) (absentPairs failedArrays failedChannels : List Nat)
  /-- SHORT_FIELD_TEST of partition `p`: the physical arrays that fail (R404). -/
  | shortFieldTest (t p : Nat) (failedArrays : List Nat)
  | finialReached (t : Nat)
  /-- RAIL_SAMPLE: `dev` is the distance from the commanded voltage in tenths of a percent. -/
  | railSample (t rail dev : Nat)
  | thermalTrip (t sensor : Nat)
  /-- THERMAL_THROTTLE_SAMPLE: hottest junction of die `die` in degrees C. -/
  | thermalThrottleSample (t die : Nat) (celsius : Int)
  | capLoopSample (t watts : Nat)
  | clockAdjustStep (t : Nat)
  | pwrCapWrite (t : Nat) (who : Requester) (value : Nat)
  /-- ADAPTIVE_VOLTAGE_STEP of array-group rail `g`, or with 16 of VBFY: whether the canaries show margin at 5 mV below the present voltage, and
  at it. -/
  | adaptiveVoltageStep (t g : Nat) (marginBelow marginNow : Bool)
  | droopDetect (t g : Nat)
  /-- TRIP_CLEAR: a write of 1 to TRIP while the hottest sensor reads `hottest`. -/
  | tripClear (t : Nat) (hottest : Int)
  | seqViolClear (t : Nat)
  | railFaultClear (t : Nat)
  | clockGateEntry (t g : Nat)
  | powerGateEntry (t g : Nat)
  /-- WAKE_EVENT for group `g`; `ev` is the event held until the group runs (R286). -/
  | wakeEvent (t g : Nat) (ev : HeldEvent)
  | wakeStart (t g : Nat)
  | wakeComplete (t g : Nat)
  -- spire arrays, drain, atomic units and stairway engines (spec/02 to 06); `cyc` counts array cycles of the group's clock
  /-- ELEMENT_START on physical array `pa`: bit 0 of the next element enters physical row 0 in cycle `cyc`. -/
  | elementStart (t pa cyc : Nat)
  /-- FEED_READ_RETURN: the read of reduction index `k` of the n-th slot in flight, oldest first, returns. -/
  | feedReadReturn (t pa n k : Nat) (outcome : FeedOutcome)
  /-- SHADOW_ROW_LOAD: the next shadow row is written in cycle `cyc`. -/
  | shadowRowLoad (t pa cyc : Nat)
  /-- DRAIN_SLOT of the oldest slot in flight, its last result written in cycle `cyc`; accumulator words (0 to 262143) that show a
  corrected or an uncorrected error. -/
  | drainSlot (t pa cyc : Nat) (corrected uncorrected : List Nat)
  /-- CHECKSUM_COLUMN_VERDICT on the oldest slot not yet judged: an upset in the array has changed S by um * 2^ue. -/
  | checksumColumnVerdict (t pa cyc : Nat) (um ue : Int)
  /-- CHECKSUM_ROW_VERDICT on the pass: upsets by physical column. -/
  | checksumRowVerdict (t pa cyc : Nat) (upsets : List (Nat × Int × Int))
  | contributionArrive (t : Nat) (src : BeatSrc)
  /-- HELD_CONTRIBUTION_APPLY at the unit that serves entry `handle` of partition `p`. -/
  | heldContributionApply (t p handle : Nat)
  /-- CONTRIBUTION_STALL of contribution `index` of entry `handle`: no beat for 1 ms, its tag stale, or its contributor's partition reset. -/
  | contributionStall (t p handle index : Nat) (stale : Bool)
  | stairwaySlotWritten (t g e : Nat)
  /-- STAIRWAY_SOURCE_ERROR: engine `e` meets an uncorrected error (`check` 0), or a failed check of R208 by its outcome 1 to 4. -/
  | stairwaySourceError (t g e check : Nat)
  -- work descriptors, bells, turret units and the numerics table (spec/07, 08, 14)
  /-- DOORBELL_WRITE of the 64-bit word `word` to PCI_DB of context `c` of AGg. -/
  | doorbellWrite (t : Nat) (fn : Fn) (g c word : Nat)
  | descriptorHead (t g c : Nat)
  | descriptorStart (t g c : Nat)
  /-- DESCRIPTOR_RETIRE of the k-th started and unretired descriptor of the context. -/
  | descriptorRetire (t g c k : Nat)
  | levelStart (t g c : Nat)
  /-- COMPLETION_RECORD_WRITE of the k-th ended descriptor of the context that waits for its record. -/
  | completionRecordWrite (t g c k : Nat)
  /-- BELL_RING_ARRIVE of the rings numbered `ks` among those on their way to the home block of partition `p`: all that arrive in one cycle. -/
  | bellRingArrive (t p : Nat) (ks : List Nat)
  /-- WAIT_EXPIRE of the wait of context `c` of AGg; the rings `ks` arrive at the home block in the same cycle. -/
  | waitExpire (t g c : Nat) (ks : List Nat)
  | belRing (t : Nat) (who : Requester) (p word : Nat)
  | belSet (t : Nat) (who : Requester) (p word : Nat)
  | contextResume (t g c : Nat)
  | contextRetry (t g c : Nat)
  /-- TURRET_PROGRAM_END of the program that runs on AGg's turret unit, within `acts` of its acts. -/
  | turretProgramEnd (t g acts : Nat)
  /-- TURRET_FAULT of that program, within `acts` of its acts. -/
  | turretFault (t g acts : Nat)
  /-- WATCH_DEPOSIT into watch entry `l` by AGg's program: two binary64 patterns. -/
  | watchDeposit (t g l upd wgt : Nat)
  | agFmtWrite (t g n value : Nat)
  | agNumAdvanceWrite (t g step : Nat)
  | advanceRun (t p : Nat)
  -- memory (spec/09) and Belfry complex (spec/10)
  /-- PGM_INVAL: the 64-bit value written. -/
  | pgmInval (t word : Nat)
  | invalidationDone (t : Nat)
  /-- COW_WRITE_HOLD: a write of `bytes` at device address `addr` by `unit` (master code) of partition `p`. -/
  | cowWriteHold (t p unit addr : Nat) (bytes : Bytes)
  | cowCopyDone (t vpn : Nat)
  /-- DRAM_BURST_CORRECTED: `syms` are the symbols in error (0 to 71; lane ℓ carries 4ℓ to 4ℓ + 3). -/
  | dramBurstCorrected (t stack chan burst : Nat) (syms : List Nat)
  /-- DRAM_BURST_UNCORRECTED: found by a demand read (`scrub` false) or by patrol scrub. `master` is the requesting unit. -/
  | dramBurstUncorrected (t stack chan burst master : Nat) (scrub : Bool) (syms : List Nat)
  | patrolScrub (t stack chan burst : Nat) (syms : List Nat)
  /-- CUPOLA_SCRUB of the 64-bit word at byte offset `off` of the slice under AGg. -/
  | cupolaScrub (t g off : Nat) (finding : ScrubFinding)
  /-- CUPOLA_READ_ERROR: a read, or a write of part of a word (`partWrite`), of a word with a correctable (`corrected`) or uncorrected error. -/
  | cupolaReadError (t g off master : Nat) (corrected partWrite : Bool)
  | refreshSample (t stack : Nat) (celsius : Int)
  | regulatorRefill (t : Nat)
  /-- REGULATOR_ADMIT: `unit` (master code) of partition `p` brings a request of `bytes` to regulator `r`, and the regulator serves; `pool` says
  that its frame lies in the device pool. -/
  | regulatorAdmit (t p r unit bytes : Nat) (pool : Bool)
  /-- REQUEST_REACH_CHANNEL: the oldest admitted request of `unit` at regulator `r` of partition `p` reaches its channel or port. -/
  | requestReachChannel (t p r unit : Nat)
  /-- BFY_CORE_RESET of core `n`. -/
  | bfyCoreReset (t n : Nat) (who : Requester)
  /-- BELFRY_ACCESS_FAULT: core `n` reads `len` bytes at device address `addr`, or writes `wr`. -/
  | belfryAccessFault (t n addr len : Nat) (wr : Option Bytes)
  /-- BELFRY_REGISTER_DENIED: core `n` accesses instance `i`, `j` of a register it may not reach. -/
  | belfryRegisterDenied (t n : Nat) (reg : Reg) (i j : Nat) (write : Bool)
  /-- MACHINE_CHECK: an error in the private cache line of core `n` that holds DRAM physical address `line`, corrected or not. -/
  | machineCheck (t n line : Nat) (corrected : Bool)
  /-- ETHERNET_FRAME_RECEIVE: `vlan` none for an untagged frame; `hash` the hash of its flow fields; receive data goes to `dma`. FEC has
  corrected `corr` of its codewords and not corrected `unc`. -/
  | ethernetFrameReceive (t port mac : Nat) (vlan : Option Nat) (hash dma : Nat) (bytes : Bytes) (corr unc : Nat)
  -- the Layout Directory, the host link, mailboxes and firmware (spec/12, 14)
  | ldirDataRead (t : Nat)
  | flrVf (t n : Nat)
  | flrPf0 (t : Nat)
  /-- HOT_RESET: the link retrains to `width` lanes at rate code `rate`. -/
  | hotReset (t rate width : Nat)
  /-- BAR4_ACCESS: a read of `len` bytes at offset `off`, or a write of `wr`. -/
  | bar4Access (t off len : Nat) (wr : Option Bytes)
  | vfBar2Access (t n off len : Nat) (wr : Option Bytes)
  /-- PLDM_REQUEST of PLDM type `ty` with a command `cmd`: base, monitoring or firmware update (DSP0240, DSP0248, DSP0267). -/
  | pldmRequest (t ty : Nat) (cmd : PldmCmd)
  | dirRead (t : Nat) (path : Path) (off len : Nat)
  | stageAndGuaranteeStatus (t : Nat) (path : Path)
  | unknownVendorCommand (t : Nat) (path : Path) (code : Nat)
  | openSession (t : Nat) (h : MbxHdr) (req : OpenReq)
  | closeSession (t : Nat) (h : MbxHdr)
  | statusMsg (t : Nat) (h : MbxHdr)
  | contextOpen (t : Nat) (h : MbxHdr) (req : CtxOpenReq)
  | contextClose (t : Nat) (h : MbxHdr) (g c : Nat)
  | contextResync (t : Nat) (h : MbxHdr)
  /-- WINDOW_SET: VF_BASE of partition `p`'s VF, or with `pf0` PCI_WIN, with `p` as its requester. -/
  | windowSet (t : Nat) (h : MbxHdr) (pf0 : Bool) (p base : Nat)
  | holdRelease (t : Nat) (h : MbxHdr) (p : Nat)
  | partitionReset (t : Nat) (h : MbxHdr) (p : Nat) (dump : Bool)
  | imageWrite (t : Nat) (h : MbxHdr) (slot off : Nat) (bytes : Bytes)
  | imageSelect (t : Nat) (h : MbxHdr) (slot : Nat)
  /-- PATCH_APPLY: the patch image held in device memory at `addr`, `len` bytes of partition `p`. -/
  | patchApply (t : Nat) (h : MbxHdr) (p addr len : Nat)
  | fwWrite (t : Nat) (h : MbxHdr) (off : Nat) (bytes : Bytes)
  /-- WARM_RESET: `sealOk` says whether the identity seal opens at the Footing that follows. -/
  | warmReset (t : Nat) (h : MbxHdr) (sealOk : Bool)
  | policySet (t : Nat) (h : MbxHdr) (policy : Nat)
  | heartbeat (t m : Nat) (fn : Fn) (value : Nat)
  | heartbeatLapse (t m : Nat)
  | absentSessionClose (t m : Nat)
  | watchdogKick (t : Nat) (who : Requester)
  | watchdogExpire (t : Nat)
  | mgtRestartComplete (t : Nat)
  -- the Ndor fabric (spec/15), slot commands (spec/19) and the step vote (spec/15, 18)
  /-- FRAME_RECEIVE on lantern port `port`; `crcOk` says whether its CRC is good. -/
  | frameReceive (t port : Nat) (f : Frame) (crcOk : Bool)
  | nakReceive (t port fseq : Nat)
  | replayTimer (t port : Nat)
  /-- RETRAIN_COMPLETE: whether the retrain succeeds, the wavelengths that trained, and FREE_v of the partner's RECONCILE. -/
  | retrainComplete (t port : Nat) (ok : Bool) (lanes : Nat) (free : List Nat)
  | silenceTimeout (t port : Nat)
  | silentExpire (t port : Nat)
  | downTrainingAttempt (t port : Nat)
  /-- TRAINING_COMPLETE with the wavelengths that trained. -/
  | trainingComplete (t port lanes : Nat) (free : List Nat)
  | lightLoss (t fibre : Nat)
  /-- OPTICAL_POWER_SAMPLE: received power of each wavelength and power of the light-input fibre, in 0.1 dBm. -/
  | opticalPowerSample (t port : Nat) (powers : List Int) (light : Int)
  | censusSend (t port : Nat)
  | census (t port : Nat) (credits : List Nat) (lastRx : Nat)
  | reconcile (t port : Nat) (free : List Nat)
  | helloSend (t port : Nat)
  | hello (t port : Nat) (h : HelloMsg)
  | claim (t port : Nat) (c : ClaimMsg)
  /-- ADDRESS_SETTLE; `masterTime` is the time master's time, if one can be reached (R363). -/
  | addressSettle (t : Nat) (masterTime : Option Nat)
  /-- PACKET_HEAD_ROUTE of the k-th packet head that waits at the router. -/
  | packetHeadRoute (t k : Nat)
  | escapeTimeout (t k : Nat)
  | withdraw (t port : Nat) (ds : List Nat)
  | announce (t port : Nat) (ds : List Nat)
  /-- WRITE: the k-th delivered packet; `member` says whether its source belongs to a vote group of the partition (R351). -/
  | writePacket (t k : Nat) (member : Bool)
  | mgmtRsp (t k : Nat)
  | fabIsolateWrite (t : Nat) (who : Requester) (value : Nat)
  | routeEntryWrite (t : Nat) (who : Requester) (a value : Nat)
  | voteCast (t : Nat) (who : Requester) (p value : Nat)
  | voteCastRelease (t p : Nat)
  | voteUp (t port group step : Nat) (verdict : Bool) (count first : Nat)
  | voteReport (t n : Nat)
  | voteDown (t port group step result count first : Nat)
  /-- VGRP_ENABLE: a write to FAB_VGRP_n. -/
  | vgrpEnable (t : Nat) (who : Requester) (n value : Nat)
  /-- TIME_EXCHANGE with the neighbour on `port`: t1 sent, t2 received and t3 answered there, t4 received, in ps. -/
  | timeExchange (t port t1 t2 t3 t4 : Nat) (masters : List Nat)
  | masterLost (t : Nat)
  | peerQuerySend (t : Nat)
  /-- PEER_QUERY on `port`: a query, or an answer with FW_AGE in µs. -/
  | peerQuery (t port : Nat) (answer : Option Nat)
  /-- SLOT_STATUS from device `src`, endpoint `ep`, for mirror run `r` of partition `p`. -/
  | slotStatus (t src ep p r : Nat)
  | slotOpen (t src ep p r slot : Nat)
  | slotSeal (t src ep p r slot : Nat) (header : Bytes)
  | slotSealCheckDone (t p r slot : Nat)
  | serveDone (t src ep p : Nat)
  -- fault collection (spec/16)
  /-- ALERT_SAMPLE: the sources whose alert pair shows both wires at one value in this sample. -/
  | alertSample (t : Nat) (equalPairs : List Nat)
  | brokenPathClear (t source : Nat)
  | faultReport (t : Nat)
  | fcAck (t value : Nat)
  /-- PENDING_AUTO_CLEAR of class `c`, scope `sc` (0 to 15 a partition, 16 the device). -/
  | pendingAutoClear (t c sc : Nat)
  | lockstepMismatch (t : Nat)
  | logMirrorCopy (t : Nat)
  | flashHistoryWrite (t : Nat)
  | faultRead (t : Nat) (h : MbxHdr) (seqFrom count : Nat)
  | faultAck (t : Nat) (h : MbxHdr) (classes scopes : Nat)
  | faultHistory (t : Nat) (h : MbxHdr) (pos count : Nat)
  | faultFirst (t : Nat) (h : MbxHdr) (clear : Nat)
  -- silent errors (spec/17)
  /-- ECHO_COMPARE of the k-th started descriptor of the context with its echo; `upset` says that an error in a unit made the digests differ. -/
  | echoCompare (t g c k : Nat) (upset : Bool)
  | echoAbandon (t g c : Nat)
  /-- GALLERY_KNOWN_ANSWER for the oldest uncharged mismatch of partition `p`: whether the echo unit passes. -/
  | galleryKnownAnswer (t p : Nat) (passed : Bool)
  | samplingRateUpdate (t p : Nat)
  /-- MARGIN_SAMPLE: the trend of cause `cause` for instance `inst`, in the unit of its threshold. -/
  | marginSample (t cause inst : Nat) (value : Int)
  | galleryStatus (t : Nat) (h : MbxHdr)
  | campanileRun (t : Nat) (h : MbxHdr) (req : CampReq)
  /-- CAMPANILE_COMPLETE: parts that failed (bit i), arrays that failed at in-service conditions, and the passing range of each group. -/
  | campanileComplete (t failed : Nat) (charged : List (Nat × Int × Nat)) (ranges : List (Nat × Nat × Nat))
  | campanileResult (t : Nat) (h : MbxHdr)
  | bucketRead (t : Nat) (h : MbxHdr) (pa : Nat)
  | bucketClear (t : Nat) (h : MbxHdr) (pa : Nat)
  | warnSet (t : Nat) (h : MbxHdr) (cause : Nat) (value : Int)
  -- the step ledger (spec/18)
  | ldgDbWrite (t : Nat) (who : Requester) (p value : Nat)
  | ledgerResume (t : Nat) (who : Requester) (p : Nat)
  | ledgerSend (t p : Nat)
  | ledgerBatch (t p : Nat)
  | ledgerResend (t p : Nat)
  | ledgerAppendWaitEnd (t p : Nat)
  | ledgerCommand (t : Nat) (h : MbxHdr) (p : Nat) (cmd : Bytes)
  | ledgerStatus (t : Nat) (h : MbxHdr)
  | inboxReceive (t p : Nat)
  | inboxRecheck (t p : Nat)
  | ldgFloorWrite (t : Nat) (who : Requester) (p value : Nat)
  -- snapshots, twins and restore (spec/19)
  | cutArm (t p : Nat)
  | intervalTrigger (t p : Nat)
  | snpTriggerNow (t : Nat) (who : Requester) (p : Nat)
  | drainPageSend (t p : Nat)
  /-- SLOT_STATUS_POLL of mirror `r`: the answer, if one came. -/
  | slotStatusPoll (t p r : Nat) (answer : Option SlotAns)
  | snapNow (t : Nat) (h : MbxHdr) (p : Nat)
  | snapStatus (t : Nat) (h : MbxHdr)
  | snapServe (t : Nat) (h : MbxHdr) (req : ServeReq)
  | restore (t : Nat) (h : MbxHdr) (req : RestoreReq)
  | restoreComplete (t p : Nat)
  | manifestSign (t : Nat) (h : MbxHdr) (header entriesDigest : Bytes)
  -- hangs, dumps and partition reset (spec/20)
  | hangWatchdogExpire (t p : Nat)
  | hngReqReset (t : Nat) (who : Requester) (p value : Nat)
  /-- DUMP_UNIT_READ: the next unit of partition `p`'s collection is read with the bytes of its record. -/
  | dumpUnitRead (t p : Nat) (record : Bytes)
  /-- DUMP_PORT_TIMEOUT of the next unit; `scan` is the record the oculus scan path reads, if it reads one. -/
  | dumpPortTimeout (t p : Nat) (scan : Option Bytes)
  | collectionLimit (t p : Nat)
  | partitionResetBegin (t p : Nat)
  | partitionResetComplete (t p : Nat)
  | hangStatus (t : Nat) (h : MbxHdr)
  | dumpRead (t : Nat) (h : MbxHdr) (slot off len : Nat)
  | dumpRelease (t : Nat) (h : MbxHdr) (slot : Nat)
  | watchdogSet (t : Nat) (h : MbxHdr) (p periodMs action dumpBits : Nat)
  -- identity, signatures and ownership (spec/21)
  | getIdentity (t : Nat) (path : Path)
  | getEvidence (t : Nat) (path : Path) (nonce : Bytes)
  | getCounters (t : Nat) (path : Path)
  | counterCommit (t : Nat) (h : MbxHdr) (kind : Nat)
  /-- OWNER_TRANSFER: the token, 128 bytes and its signature block. -/
  | ownerTransfer (t : Nat) (h : MbxHdr) (token : Bytes)
  | debugUnlock (t : Nat) (h : MbxHdr) (token : Bytes)
  | debugLock (t : Nat) (h : MbxHdr)
  /-- ROOT_REVOKE: the record, the mask byte and its signature block. -/
  | rootRevoke (t : Nat) (h : MbxHdr) (record : Bytes)
  | signatureTokenRefill (t : Nat)
  -- register accesses and the remaining events (spec/00, 01, 09, 14, 15)
  /-- MISALIGNED_ACCESS to instance `i`, `j` of a register, not naturally aligned or not of its full width. -/
  | misalignedAccess (t : Nat) (who : Requester) (reg : Reg) (i j : Nat) (write : Bool)
  /-- RC_COUNTER_READ of the register; `event` is the lsb of a field that counts an event in the read cycle, if one does. -/
  | rcCounterRead (t : Nat) (who : Requester) (reg : Reg) (i j : Nat) (event : Option Nat)
  /-- REGISTER_WRITE; `setNow` holds the bits of the register the device sets in the same cycle (R7). -/
  | registerWrite (t : Nat) (who : Requester) (reg : Reg) (i j value setNow : Nat)
  | pageMapWrite (t vpn entry : Nat)
  /-- RATINGS_BREACH of measured quantity `q` with the value measured (R486, R487). -/
  | ratingsBreach (t q : Nat) (value : Int)
  | frameSend (t port : Nat)
  /-- MEMORY_REPLY_RETURN to a unit of partition `p`, tagged `gen`, for outstanding request `id`; or, with `reject`, the report that a remote
  contribution was rejected with that code (R116). -/
  | memoryReplyReturn (t p gen id : Nat) (reject : Option Nat)
  | portTrainingTimeout (t port : Nat)
  | mctpControlMessage (t : Nat) (code eid : Nat)
  /-- I3C_DYNAMIC_ADDRESS by ENTDAA (`static` none) or by SETDASA to the static address. -/
  | i3cDynamicAddress (t : Nat) (static : Option Nat) (addr : Nat)
  | doeDiscovery (t index : Nat)
  | mailboxUnknownOpcode (t : Nat) (h : MbxHdr) (opcode : Nat)
  | mbxGoIgnored (t m : Nat) (fn : Fn)
  deriving DecidableEq, Repr

end Sys2Proof
end

