-- ==== Sys2Proof/Decode.lean ====
section
/-!
DEFINITION. Sys2Proof/Decode.lean: commands spelled by words. The opcode table gives its rows no bits: the block is commanded by events,
register accesses and messages, not by encoded words, so no word spells a command.
-/

namespace Sys2Proof

/-- The command that a word of `nbits` bits spells by the opcode table: none, since no row of the table has bits. -/
def decodeTableWord (_nbits _w : Nat) : Option Instr := none

end Sys2Proof
end

