-- ==== Sys2Proof/Config.lean ====
section
/-!
DEFINITION. Sys2Proof/Config.lean: what the manual leaves to an implementation or does not state, as constants nothing can evaluate.
-/

namespace Sys2Proof.Config

/-- Arithmetic operations of a turret unit that R173 speaks of, on binary32. -/
inductive TurretOp where
  | add
  | sub
  | mul
  | fma
  | div
  | sqrt
  | maximum
  | minimum
  | exp2
  | log2
  | rsqrt
  deriving DecidableEq, Repr, Inhabited

/-- What a turret program does next (R171 to R176). `pc` is the program counter of the instruction. A load, an operation and a conversion each
give a value; operands are bit patterns. -/
inductive TurretAct where
  /-- the program ends -/
  | done
  /-- an illegal or reserved instruction (code 1), or a misaligned access (4) -/
  | fault (code pc : Nat)
  /-- a debug break, which faults only while debug is unlocked -/
  | debugBreak (pc : Nat)
  | load (pc addr n : Nat)
  | store (pc addr n value : Nat)
  | ring (bell count : Nat)
  | arith (op : TurretOp) (a b c : Nat)
  /-- a conversion of `x` between format codes, with the tensor it names, if one, and its row and column -/
  | convert (pc src dst mode policy x : Nat) (tensor : Option Nat) (row col : Nat)
  deriving DecidableEq, Repr, Inhabited

/-- The turret instruction set has its own reference, which the manual does not hold (R171): the act that follows for a program entered at
`prog` with arguments at `arg`, STEP and TENSOR of its descriptor, and the values its acts have given so far, the first 64 bytes of
program and arguments before them (notes/assumptions/87.md). It depends on nothing else, so every unit does the same (R174). -/
opaque turretNext (prog arg step tensor : Nat) (values : List Nat) : TurretAct

/-- Which of the results within the accuracy R173 states exp2 (0), log2 (1) and reciprocal square root (2) deliver for an operand
(notes/assumptions/88.md). -/
opaque turretUlp (op x : Nat) : Nat

/-- The n-th value the manual leaves open and the device produces (notes/assumptions/7.md). State.freeCtr counts those taken. -/
opaque freeValue : Nat → Nat

/-- The XMSS signature the device's identity key makes with an index over a message (R462): 2,820 bytes whose values depend on a secret key
(notes/assumptions/5.md). -/
opaque xmssSign : Nat → Bytes → Bytes

/-- The one mailbox protocol version firmware supports, 1.0: the directory's MAILBOX entry names major version 1 (R269, R316;
notes/assumptions/100.md). -/
def protoVersion : Nat := 256

/-- Features firmware supports: bits 0 to 4 of R319 (notes/assumptions/100.md). -/
def features : Nat := 31

/-- BAR0 offset and size of the register window of a directory block, by block type and instance: the manual gives them for LDIR_ alone
(R268, notes/assumptions/8.md). -/
opaque windowOffset : Nat → Nat → Nat
opaque windowBytes : Nat → Nat → Nat

/-- The hash of ROUTE_SEED, SRC and DST that breaks a tie between candidates (R349): the manual names its inputs and no function
(notes/assumptions/50.md). -/
opaque routeHash : Nat → Nat → Nat → Nat

/-- Vygoril's PCI vendor identifier, which the manual names and does not give (R276, R299, R307, notes/assumptions/51.md). -/
opaque vendorId : Nat

/-- What MCTP control and PLDM base answer beside what R306 says: the endpoint's UUID, versions by message type and by PLDM type, and the commands
of a PLDM type as a bit map (DSP0236, DSP0240; notes/assumptions/101.md). -/
opaque mctpUuid : Nat
opaque mctpVersion : Nat → Nat
opaque pldmVersion : Nat → Nat
opaque pldmCommands : Nat → Nat

/-- Version of the turret instruction set, from its own reference (R269). -/
opaque turretIsaVersion : Nat

end Sys2Proof.Config
end

