-- ==== Sys2Proof/Machine/State.lean ====
section
/-!
DEFINITION. Sys2Proof/Machine/State.lean: the state of the device as plain data, its faults and refusals, and the state after reset.
The default of each field is its value at reset: nothing powered, no command waiting (notes/assumptions/3.md for the values the manual
does not give).
-/

namespace Sys2Proof.Machine

/-- Why the machine stops. -/
inductive Fault where
  /-- Raised by a command that names a unit the manual says does not exist: an array group, partition, array, port, stack, channel, core,
  mailbox or bell number outside *Instance names*. Safe: the device has no such event. -/
  | noSuchInstance
  deriving DecidableEq, Repr

/-- Why a command has no meaning. -/
inductive Refusal where
  /-- Raised by Dispatch for a command this model gives no meaning yet. Safe. -/
  | notModelled (mnemonic : String)
  deriving DecidableEq, Repr

/-- Key of one register field: the register, its two instance numbers (0 where it has none) and the field's lowest bit. -/
structure FKey where
  reg : Reg
  i : Nat
  j : Nat
  lsb : Nat
  deriving DecidableEq, Repr
/-- Class of an operand or value (the cell's tag class). -/
inductive Cls where
  | zero
  | fin
  | inf
  | nan
  deriving DecidableEq, Repr

/-- An exact value: sign, class and, where finite and nonzero, magnitude mag * 2^ulp. -/
structure Val where
  cls : Cls
  neg : Bool
  mag : Nat
  ulp : Int
  deriving DecidableEq, Repr

/-- A number format: integer or float, exponent width, precision, bias, special-value policy (0 NONE, 1 NAN_ONLY, 2 IEEE), subnormals. -/
structure Fmt where
  int : Bool
  e : Nat
  p : Nat
  bias : Nat
  policy : Nat
  subn : Bool
  deriving DecidableEq, Repr

/-- A custom format slot (R55): whether it is VALID, its SCALE field, and the format its other fields define. -/
structure FmtSlot where
  valid : Bool
  scale : Nat
  fmt : Fmt
  deriving DecidableEq, Repr

/-- A physical column result as it stands in the column register (R80, R81): flags, whether a finite nonzero product entered, anchor, and
the register with bit 0 weighing 2^(anchor - 640). -/
structure ColRes where
  nan : Bool
  pinf : Bool
  ninf : Bool
  negZero : Bool
  some_ : Bool
  anchor : Int
  reg : Int
  deriving DecidableEq, Repr

/-- A stationary tile in shadow or active registers: the descriptor and pass it belongs to, the physical rows loaded, the eight rows of
block scales, and the cycle in which the row loaded last was written. -/
structure TileSt where
  job : Nat
  pass : Nat
  rows : List (List Val)
  scales : List (List Nat)
  wroteAt : Nat := 0
  deriving DecidableEq, Repr

/-- An element slot between injection and its last effect (R34, R38). -/
structure SlotFl where
  job : Nat
  pass : Nat
  slot : Nat
  start : Nat
  w : Nat
  /-- physical column results; in Wide those of rows 0 to 127 and then those of rows 128 to 255 -/
  phys : List ColRes
  /-- strict mode: the rounded products of each logical column in order of k -/
  chains : List (List Val)
  /-- E of the checksum column as mantissa and exponent, and whether E is NaN or infinite -/
  em : Int
  ee : Int
  special : Bool
  /-- what each result gives to A of R386 -/
  tops : List Int
  /-- smallest group scale exponent of each logical column's finite products, for R104 -/
  cmin : List (Option Int)
  /-- the checksum column has given its verdict -/
  judged : Bool
  /-- its results have gone through the drain -/
  drained : Bool := false
  deriving DecidableEq, Repr

/-- A pass in the checksum row (R38, R386): its stationary tile, its last element start, the slots judged, and per physical column the exact
sum of results as mantissa and exponent, whether one was NaN or infinite, and the largest anchor. -/
structure PassChk where
  job : Nat
  pass : Nat
  tile : TileSt
  lastStart : Nat
  judged : Nat
  sums : List (Int × Int × Bool × Int)
  deriving DecidableEq, Repr

/-- One physical array (02, 05): shadow and active tile, slots in flight oldest first, passes in the checksum row, and what each
quarter of accumulator memory was last written with (R99). -/
structure PaSt where
  shadow : Option TileSt := none
  active : Option TileSt := none
  slots : List SlotFl := []
  /-- cycle of the SWAP element of the active pass, and of the last element start -/
  swapAt : Nat := 0
  lastStart : Nat := 0
  /-- of the element started last: cycles to the next start, slot period, and bytes of its slot -/
  gap : Nat := 0
  period : Nat := 0
  bytes : Nat := 0
  /-- passes not yet reported complete, oldest first -/
  checks : List PassChk := []
  /-- mode (0 FP32, 1 Wide, 2 Exact) and λ of each quarter -/
  quarters : List (Nat × Int) := [(0, 0), (0, 0), (0, 0), (0, 0)]
  /-- accumulator words that hold an uncorrected error -/
  badWords : List Nat := []
  deriving DecidableEq, Repr

/-- A work descriptor at a head or started (07): what it says, what it latched, and how far it has come. -/
structure Job where
  id : Nat
  g : Nat
  c : Nat
  p : Nat
  /-- ring index, or position in an alternate segment -/
  idx : Nat
  alt : Bool
  level : Nat
  inReg : Bool
  desc : Bytes
  ext : Bytes
  /-- stairway command of a COPY (R498) -/
  cmd : Bytes := []
  /-- code with which the command fetch failed -/
  cmdBad : Option Nat := none
  /-- 0 to 15 logical array, 16 + e engine, 20 turret unit, 31 none -/
  unit : Nat
  /-- physical array of a MATMUL, array group of the turret unit of a TURRET -/
  pa : Nat := 0
  echo : Bool := false
  /-- formats latched at start (R56): streamed, stationary, output, fused; the scales the custom formats allow are checked at the head -/
  xf : Fmt := ⟨false, 0, 0, 0, 0, false⟩
  yf : Fmt := ⟨false, 0, 0, 0, 0, false⟩
  of_ : Fmt := ⟨false, 0, 0, 0, 0, false⟩
  ff : Fmt := ⟨false, 0, 0, 0, 0, false⟩
  /-- the custom slots it names, as latched at start, by slot number (R56) -/
  fslots : List (Nat × FmtSlot) := []
  seed : Nat := 0
  gen : Nat := 0
  /-- output scale latched under R189: none while the tensor is unseeded -/
  oscale : Option Nat := some 127
  /-- tile rows and logical columns -/
  m : Nat := 0
  n : Nat := 0
  /-- passes started, slots started of the current pass, passes reported complete, slots drained in all -/
  pass : Nat := 0
  slot : Nat := 0
  done : Nat := 0
  drained : Nat := 0
  chk : Bool := false
  /-- status, DETAIL and INFO of a descriptor that will not end OK -/
  bad : Option (Nat × Nat × Nat) := none
  /-- it ends without starting further elements -/
  stopped : Bool := false
  /-- writes to output addresses have stopped (R496) -/
  outStop : Bool := false
  /-- an echo that has been abandoned (R391): its elements in flight still drain (R33) -/
  dropped : Bool := false
  /-- rows held for blocks along m, for the real and the imaginary tile -/
  held : List (List (Option Val)) := []
  /-- rejection of its contribution -/
  rejected : Bool := false
  /-- binary32 amax and the outcome counts NORMAL, SUBNORMAL, ZERO, VANISHED, OVERFLOW, INF, NAN (R184, R185) -/
  amax : Nat := 0
  counts : List Nat := [0, 0, 0, 0, 0, 0, 0]
  exactRange : Nat := 0
  /-- slots or rows an engine has written -/
  rows : Nat := 0
  /-- running column sums of a STREAM copy, plane after plane, with bit 0 weighing 2^(anchor - 304), and FLOORED (R140) -/
  csums : List (ColRes × Bool) := []
  /-- time at which a turret program began to run -/
  startAt : Nat := 0
  /-- the copy or the program has ended -/
  ended : Bool := false
  rings : List (Nat × Nat) := []
  /-- sampled by the Gallery: bytes that enter its write digest, and an echo's divert buffer -/
  sampled : Bool := false
  wlog : Bytes := []
  divert : List Host.Cell := []
  deriving DecidableEq, Repr

/-- A descriptor at the head of its context (R161): its wait not yet satisfied, or its echo ended. -/
structure Head where
  job : Job
  waits : Bool
  echoed : Bool := false
  deriving DecidableEq, Repr

/-- An ended descriptor whose ring is judged and record written later (R153, R162). -/
structure EndRec where
  /-- free-running ring index, for RETRY -/
  ringIdx : Nat
  job : Nat
  index : Nat
  alt : Bool
  level : Nat
  op : Nat
  tag : Nat
  status : Nat
  detail : Nat
  info : Nat
  chk : Bool
  /-- its ring has not been judged -/
  ringDue : Bool
  /-- a record is written on success too -/
  write : Bool
  deriving DecidableEq, Repr

/-- An open layer retry region of a context (R175 to R179). -/
structure RegionSt where
  start : Nat
  span : Nat
  levelMax : Nat
  altAddr : Nat
  level : Nat := 0
  segAddr : Nat := 0
  segCount : Nat := 0
  pos : Nat := 0
  withheld : List (Nat × Nat) := []
  /-- a WATCH descriptor has overflowed: its record, held until the last retirement -/
  stop : Option EndRec := none
  /-- WATCH descriptors that overflowed at this level: group, tensor, output format code -/
  ovf : List (Nat × Nat × Nat) := []
  /-- the PROMOTED record is out and the next level may start -/
  due : Bool := false
  deriving DecidableEq, Repr

/-- A ring on its way to the home block of partition `p` (R165, R168). `from_` is the ringing partition, `src` its master code, `c` the context
of a descriptor's or program's ring, `job` the descriptor whose status it decides. -/
structure Ring where
  p : Nat
  bell : Nat
  count : Nat
  from_ : Nat
  src : Nat
  c : Nat := 0
  job : Option Nat := none
  deriving DecidableEq, Repr

/-- A registered wait (R166, R167), in order of registration. -/
structure Wait where
  p : Nat
  bell : Nat
  g : Nat
  c : Nat
  n : Nat
  due : Nat
  /-- time of registration -/
  since : Nat := 0
  deriving DecidableEq, Repr

/-- A contribution partly received at an atomic unit (R116, R117): contributing device, its descriptor there, elements received, the hold
slot it is copied into (none while it is applied), time of its last beat, the elements it announced, and whether it has been rejected. -/
structure PartIn where
  dev : Nat
  job : Nat
  index : Nat
  gen : Nat
  got : Nat
  hold : Option Nat
  lastAt : Nat
  total : Nat := 0
  dead : Bool := false
  deriving DecidableEq, Repr

/-- An open reduction entry at its serving unit (R113 to R121), keyed 4096 p + handle. -/
structure AtuEntry where
  /-- 0 to 127: channel group 8 stack + channel // 8; 128 + g: the slice under AGg -/
  unit : Nat
  /-- the entry is open: checked, its work area initialised -/
  opened : Bool := true
  next : Nat := 0
  /-- whole contributions that occupy a hold slot -/
  holds : List PartIn := []
  ins : List PartIn := []
  deriving DecidableEq, Repr


/-- An open context of a sequencer (R308): its rings and interrupt target. SQ_HEAD, CQ_TAIL, GEN, ARM and the reserved slots lie in
PCI_RING. -/
structure CtxSt where
  sqBase : Nat
  sqLog2 : Nat
  cqBase : Nat
  cqLog2 : Nat
  /-- completion interrupt targets (R245) -/
  irqFn : Option Fn
  irqCore : Option Nat
  /-- session that opened it, or took it over -/
  session : Nat
  sqTail : Nat := 0
  cqHead : Nat := 0
  head : Option Head := none
  region : Option RegionSt := none
  /-- the region whose REGION_END has been carried out, until the ring of that REGION_END is judged (R164) -/
  closed : Option RegionSt := none
  /-- the context halted because that ring was refused -/
  endRefused : Bool := false
  /-- ring index of the halted descriptor -/
  haltAt : Nat := 0
  /-- ended descriptors that wait for their ring's judgement and record, in order of retirement -/
  ends : List EndRec := []
  /-- eligible descriptors started, by STEP (R395) -/
  elig : List (Nat × Nat) := []
  deriving DecidableEq, Repr

/-- A write held by the translation unit for a page copy (R212). -/
structure CowHold where
  p : Nat
  unit : Nat
  addr : Nat
  bytes : Bytes
  /-- the function or the partition's cores that wrote, where one did (R244, R303) -/
  who : Option Fn := none
  deriving DecidableEq, Repr

/-- A line of a partition's cupola cache (R216): the group of its home slice, the key of its first byte, and whether it is newer than DRAM. -/
structure CLine where
  g : Nat
  line : Nat
  dirty : Bool
  deriving DecidableEq, Repr

/-- A line in the private cache of a Belfry core (R240): the core, the key of the line's first byte, and, while the line is held modified, the
bytes that lie below it. Memory itself always holds the newest bytes. -/
structure PLine where
  core : Nat
  line : Nat
  below : Option Bytes
  deriving DecidableEq, Repr


/-- A page copy in progress: the page, its partition and the copy frame taken. -/
structure CowCopy where
  vpn : Nat
  p : Nat
  frame : Nat
  deriving DecidableEq, Repr

/-- A request waiting at or held by a regulator (R230): its tokens, and whether its frame lies in the device pool (R222). -/
structure RegReq where
  p : Nat
  r : Nat
  unit : Nat
  need : Nat
  pool : Bool := false
  deriving DecidableEq, Repr

/-- Memory-side state (09) as far as no register holds it. -/
structure MemSt where
  /-- granules marked poisoned or uncorrected: a DRAM burst or a cupola or accumulator word, by the key of its first byte -/
  poison : List Nat := []
  /-- page-map entries held by translation caches: cache (0 to 3 cupola die, 4 keep die), VPN, entry as held (R210) -/
  tcache : List (Nat × Nat × Nat) := []
  /-- an invalidation in progress: the value written to PGM_INVAL -/
  inval : Option Nat := none
  /-- lines of the cupola caches, oldest first within a set, and of the Belfry cores' private caches (R216, R240) -/
  lines : List CLine := []
  priv : List PLine := []

  /-- writes held, oldest first, and page copies in progress (R212) -/
  cowHolds : List CowHold := []
  cowCopies : List CowCopy := []
  /-- requests waiting at each regulator in order of arrival, and those admitted and not yet at their channel or port (R231) -/
  regWait : List RegReq := []
  regHeld : List RegReq := []
  /-- unit last admitted at each regulator, keyed 4 p + r, for round-robin (R232) -/
  rr : List (Nat × Nat) := []
  /-- lanes marked erased: stack, channel, lane (R225) -/
  erased : List (Nat × Nat × Nat) := []
  /-- recent one-lane corrections: stack, channel, lane, time (R225) -/
  laneCorr : List (Nat × Nat × Nat × Nat) := []
  /-- patrol position: bursts scrubbed since the last completed pass, by stack -/
  scrubbed : List (Nat × Nat) := []
  /-- time of the last regulator refill in µs -/
  refillUs : Nat := 0
  /-- stacks in self-refresh (safe state) -/
  selfRefresh : Bool := false
  deriving DecidableEq, Repr

/-- Records of the sections of a Denvis image (R253). -/
structure PartRec where
  p : Nat
  agSet : Nat
  cores : Nat
  deriving DecidableEq, Repr
structure SpareRec where
  g : Nat
  spareJ : Nat
  map : List Nat
  deriving DecidableEq, Repr
structure CupRec where
  p : Nat
  c : Nat
  deriving DecidableEq, Repr
structure ChanRec where
  p : Nat
  granule : Nat
  /-- bit 64 s + c: channel Ss.Cc -/
  chans : Nat
  deriving DecidableEq, Repr
structure RegRec where
  p : Nat
  rate : List Nat
  depth : List Nat
  deriving DecidableEq, Repr
structure ClockRec where
  agMhz : List Nat
  bfyMhz : Nat
  capW : Nat
  cgIdleUs : Nat
  pgIdleUs : Nat
  deriving DecidableEq, Repr
structure FabRec where
  address : Nat
  addrMode : Nat
  routeSeed : Nat
  /-- bits [2i+1:2i]: role of port Li -/
  roles : Nat
  deriving DecidableEq, Repr
structure EthRec where
  port : Nat
  p : Nat
  qpFirst : Nat
  qpCount : Nat
  mac : Nat
  vlan : Nat
  deriving DecidableEq, Repr
structure NumRec where
  p : Nat
  shapes : Nat
  classes : Nat
  deriving DecidableEq, Repr
structure SnapRec where
  p : Nat
  minCut : Nat
  maxCut : Nat
  intervalMs : Nat
  drainRate : Nat
  shardPages : Nat
  resBase : Nat
  resFrames : Nat
  stepUsMin : Nat
  deriving DecidableEq, Repr
structure LedRec where
  p : Nat
  base : Nat
  frames : Nat
  bytesPerStep : Nat
  deriving DecidableEq, Repr
structure TwinRec where
  p : Nat
  mirrors : Nat
  twinDev : Nat
  twinPart : Nat
  secDev : Nat
  secPart : Nat
  srcDev : Nat
  srcPart : Nat
  partnerPages : Nat
  mirFrames : Nat
  mir1 : Nat
  mir2 : Nat
  deriving DecidableEq, Repr
structure DetRec where
  p : Nat
  goal : Nat
  horizon : Nat
  targetExp : Nat
  echoCeil : Nat
  deriving DecidableEq, Repr
structure TrimRec where
  target : Nat
  param : Nat
  value : Nat
  deriving DecidableEq, Repr

/-- Header fields of an image (R250). -/
structure ImgHdr where
  kind : Nat
  keySlot : Nat
  total : Nat
  patchPart : Nat
  secVersion : Nat
  minFw : Nat
  patchSeq : Nat
  imageId : Nat
  baseId : Nat
  devDigest : Bytes
  deriving DecidableEq, Repr

/-- A parsed image: its header, the section types present, and its records. -/
structure Image where
  hdr : ImgHdr
  types : List Nat
  parts : List PartRec
  spares : List SpareRec
  cups : List CupRec
  chans : List ChanRec
  regs : List RegRec
  clocks : List ClockRec
  fabs : List FabRec
  eths : List EthRec
  nums : List NumRec
  snaps : List SnapRec
  leds : List LedRec
  twins : List TwinRec
  dets : List DetRec
  trims : List TrimRec
  deriving DecidableEq, Repr

/-- The image applied at Dome and the patches since (11). -/
structure ImageSt where
  /-- the active image, patches included; none before Dome -/
  act : Option Image := none
  /-- flash slot applied -/
  slot : Nat := 255
  /-- digest of the applied structure image and of the trim image before their signature blocks (R474) -/
  digest : Bytes := []
  trimDigest : Bytes := []
  /-- chained digest of the patches applied (R474) -/
  patchChain : Bytes := []
  /-- highest SECURITY_VERSION of the patches since Dome, and that of the trim image (R466) -/
  patchSv : Nat := 0
  trimSv : Nat := 0
  /-- trim values in force (R258) -/
  trims : List TrimRec := []
  /-- spire and cupola pairs found absent at Dome (R11), as die numbers -/
  absentPairs : List Nat := []
  deriving DecidableEq, Repr

/-- A wake waiting to begin (R287): the group, and when it arrived. -/
structure WakeReq where
  g : Nat
  at_ : Nat
  deriving DecidableEq, Repr

/-- Supplies, converters, start stages, clocks and sleep (13) as far as no register holds them. -/
structure PowerSt where
  /-- MAIN_IN and ANA_1V8 valid -/
  main : Bool := false
  ana : Bool := false
  /-- PERST# asserted -/
  perst : Bool := false
  /-- a warm device reset stands since PERST# was asserted (R305) -/
  warmHeld : Bool := false
  /-- time PERST# was last released; none while it has not been -/
  perstRel : Option Nat := none
  /-- time of AUX_3V3 valid, or of the warm reset assertion, from which Footing is measured -/
  auxAt : Nat := 0
  /-- time of MAIN_IN valid -/
  mainAt : Nat := 0
  /-- t0 of the present start -/
  t0 : Nat := 0
  /-- a latch has been cleared and the cold start that leaves the safe state is due (R384) -/
  coldDue : Bool := false
  /-- partitions whose short field test has ended (R404) -/
  fieldDone : List Nat := []
  /-- samples of MAIN_IN power in W, newest first, at most 1,000 (R289) -/
  samples : List Nat := []
  /-- the adaptive clock level of each array group in MHz, kept while the group is gated (R284, R289) -/
  grpMhz : List (Nat × Nat) := []
  /-- commanded voltage of each array-group rail in mV, kept while gated -/
  grpMv : List (Nat × Nat) := []
  /-- clock level of the Belfry complex in MHz, and VBFY in mV -/
  bfyMhz : Nat := 0
  bfyMv : Nat := 950
  /-- time of each rail's last adaptive step: 0 to 15 an array group, 16 VBFY (R292) -/
  mvAt : List (Nat × Nat) := []
  /-- the cap loop has lowered clocks and not yet raised them back (R289) -/
  capLow : Bool := false
  /-- last step of the clock loop -/
  clkStep : Nat := 0
  /-- hottest junction of each die at its last sample: 0 base, 1 to 4 spire, 5 to 8 cupola, 9 keep, 16 + n stack -/
  dieTemp : List (Nat × Int) := []
  /-- rails outside their window, with the time since when (R282) -/
  railOut : List (Nat × Nat) := []
  /-- rails whose present excursion has been acted on -/
  railActed : List Nat := []
  /-- time since when each group is idle (R285) -/
  idleSince : List (Nat × Nat) := []
  /-- wakes waiting in order of arrival (R287) -/
  wakeQ : List WakeReq := []
  /-- begin times of recent wakes from POWER_GATED and from CLOCK_GATED -/
  pgStarts : List Nat := []
  cgStarts : List Nat := []
  /-- groups that are waking, with the time at which they reach RUN -/
  waking : List (Nat × Nat) := []
  /-- events held for sleeping groups, in order of arrival (R286); 16 for those behind a held write of their sender (R244, R303) -/
  held : List (Nat × HeldEvent) := []
  /-- measured quantities outside their operating rating (R486, R487) -/
  breaches : List Nat := []
  deriving DecidableEq, Repr

/-- An open session (R312, R318, R320). -/
structure Session where
  /-- its mailbox, identifier and opener -/
  m : Nat
  id : Nat
  fn : Fn
  verMajor : Nat
  verMinor : Nat
  /-- granted feature bits (R319) -/
  feats : Nat
  /-- host-absent policy: 0 CONTINUE, 1 HOLD_AT_STEP, 2 STOP -/
  policy : Nat
  lastBeat : Nat
  /-- time of the lapse while host-absent -/
  absentAt : Option Nat
  /-- Belfry core named for numerics interrupts (R245) -/
  bfyCore : Option Nat
  deriving DecidableEq, Repr

/-- A response as it stands in a mailbox's response buffer (R314, R315). -/
structure Resp where
  status : Nat
  seq : Nat
  session : Nat
  /-- payload: bytes 32 onward -/
  data : Bytes
  deriving DecidableEq, Repr

/-- A long-running request whose response is still due (R314). -/
structure MbxBusy where
  h : MbxHdr
  /-- the partition whose reset, or restore, it waits for -/
  p : Nat
  restore : Bool := false
  deriving DecidableEq, Repr

/-- A function's configuration (R299): MSI-X Enable and Function Mask, the vectors whose mask bit is 0 (all are 1 after a reset), D3hot, Completer
Abort logged. -/
structure FnCfg where
  msix : Bool := false
  mask : Bool := false
  unmasked : List Nat := []
  d3hot : Bool := false
  abort : Bool := false
  deriving DecidableEq, Repr

/-- What an access gives a Belfry core (R238): an outcome code of *Access checks*, 0 for none, the data read, and whether it is poisoned. -/
structure CoreAns where
  code : Nat
  data : Bytes
  poison : Bool := false
  deriving DecidableEq, Repr

/-- Host link, mailboxes and firmware health (14) as far as no register holds them. -/
structure HostSt where
  sessions : List Session := []
  /-- identifier the next OPEN gets -/
  nextSid : Nat := 1
  /-- responses by mailbox; 16 + p is partition p's attach mailbox (R313) -/
  resps : List (Nat × Resp) := []
  /-- answers sent on MCTP, DOE or the fabric, newest first: the answering path and its bytes -/
  answers : List (Path × Bytes) := []
  /-- window base of each VF (R302) -/
  vfBase : List (Nat × Nat) := []
  /-- MSI-X vectors raised and not cleared by a function reset (R304) -/
  vecs : List (Fn × Nat) := []
  /-- of these, the vectors pending while their function has masked or not enabled them, and the messages sent, oldest first (R245, R300) -/
  pba : List (Fn × Nat) := []
  msgs : List (Fn × Nat) := []
  /-- configuration of the functions where it is not as after a reset (R305), and whether the last configuration request was answered with Retry
  Status (R295) -/
  cfgs : List (Fn × FnCfg) := []
  cfgRetry : Bool := false
  /-- interrupts and exceptions of Belfry cores: core and number, 0 completion, 1 numerics, 2 partition-reset notice, 3 machine check (R245,
  R247) -/
  coreIrq : List (Nat × Nat) := []
  /-- what each Belfry core's last access gave it (R238) -/
  coreGot : List (Nat × CoreAns) := []
  /-- frames received by each Ethernet queue pair, keyed 64 * port + pair (R249) -/
  ethQ : List (Nat × Nat) := []
  /-- in-band interrupts raised on the sideband (R306) -/
  ibi : Nat := 0
  /-- requests held while the management core restarts (R324), and those in progress -/
  heldGo : List Instr := []
  busy : List MbxBusy := []
  /-- requests in progress when the management core restarted, owed RESTARTED (R324) -/
  owedRestarted : List MbxBusy := []
  /-- time of the last watchdog kick, of the last restart's beginning and end, and of the restarts in the last 60 s -/
  kickAt : Nat := 0
  restartAt : Nat := 0
  restartEnd : Nat := 0
  restarts : List Nat := []
  /-- firmware stays down after its restart limit (R325) -/
  fwDead : Bool := false
  /-- partitions whose HOLD_AT_STEP takes effect at their next advance (R321) -/
  holdArmed : List Nat := []
  /-- I3C dynamic address, MCTP endpoint ID, and PLDM terminus ID -/
  i3cAddr : Option Nat := none
  mctpEid : Option Nat := none
  pldmTid : Nat := 0
  /-- data returned by the last read through a window or the directory pair -/
  readBack : Bytes := []
  /-- AER Completer Aborts logged: reads failed on a window (R302) -/
  aerAborts : Nat := 0
  deriving DecidableEq, Repr

/-- One entry of the Layout Directory (R268). -/
structure LdEntry where
  type : Nat
  inst : Nat
  state : Nat
  part : Nat
  parent : Nat
  window : Nat
  windowBytes : Nat
  count0 : Nat
  count1 : Nat
  caps : Nat
  deriving DecidableEq, Repr

/-- A packet head that waits at the router (R349): where it came in (port and virtual channel), since when, whether it keeps to escape
channels, and the number of the local command that sent it (0 for others). -/
structure RouteWait where
  pkt : Pkt
  from_ : Option (Nat × Nat) := none
  since : Nat
  escape : Bool := false
  tag : Nat := 0
  deriving DecidableEq, Repr

/-- A packet queued at a port: its virtual channel, the flits sent, and where it occupies receive slots. -/
structure OutPkt where
  pkt : Pkt
  vc : Nat
  sent : Nat := 0
  from_ : Option (Nat × Nat) := none
  tag : Nat := 0
  deriving DecidableEq, Repr

/-- A lantern port (15) as far as no register holds it. -/
structure FPort where
  /-- FSEQ of the last sequenced frame sent, of the last frame received in order, and of the last frame acknowledged -/
  txSeq : Nat := 0
  rxSeq : Nat := 0
  acked : Nat := 0
  /-- sequenced frames not acknowledged, oldest first; those of them still to be sent again -/
  replay : List Frame := []
  resend : List Frame := []
  linkQ : List LinkMsg := []
  dataQ : List OutPkt := []
  /-- by virtual channel: credits held, slots occupied at this receiver, credits to be returned -/
  credits : List Nat := [960, 64, 960, 64, 960, 64, 960, 64]
  occ : List Nat := [0, 0, 0, 0, 0, 0, 0, 0]
  retDue : List Nat := [0, 0, 0, 0, 0, 0, 0, 0]
  /-- credits returned: FSEQ of the frame, virtual channel, count -/
  retLog : List (Nat × Nat × Nat) := []
  /-- packets partly received: virtual channel, flits -/
  partIn : List (Nat × Nat) := []
  /-- consecutive replays from one FSEQ -/
  replayFrom : Nat := 0
  replayRun : Nat := 0
  /-- times of retrains -/
  retrains : List Nat := []
  /-- time of the last frame received, of the last advance of ACK, of entering the present state, of the last training attempt, and of the
  last HELLO -/
  lastRx : Nat := 0
  ackAt : Nat := 0
  since : Nat := 0
  tryAt : Nat := 0
  heardAt : Nat := 0
  /-- what the last HELLO said -/
  nbr : Option HelloMsg := none
  /-- DATA frames stopped until RECONCILE; this end answers one and goes on once its own has left; time of the last census failure -/
  paused : Bool := false
  answering : Bool := false
  censusBad : Option Nat := none
  /-- a DOWN port has made its training attempt, which is not over (R332) -/
  trying : Bool := false
  /-- link delay measured last, in ps (R362) -/
  delayPs : Int := 0
  /-- wavelengths whose last sample allows their use -/
  lanesOk : Nat := 65535
  /-- RX_MIN and LIGHT_IN at the last training, in 0.1 dBm (R405) -/
  rxTrain : Int := 0
  lightTrain : Int := 0
  /-- successive answers with FW_AGE above 1 s -/
  fwOld : Nat := 0
  /-- the frame sent last -/
  last : Option Frame := none
  /-- bytes 0 to 27 of that frame's control block (R329) -/
  wire : Bytes := []
  deriving DecidableEq, Repr

/-- A claim heard (R344): the paths over which it came, as port, hops and legality. -/
structure ClaimRec where
  addr : Nat
  digest : Bytes
  admitted : Bool
  seq : Nat
  paths : List (Nat × Nat × Bool)
  deriving DecidableEq, Repr

/-- Progress of a group slot in its current step (R356 to R358): when it began, verdicts of local members, and children's reports as port,
verdict, EXCL_COUNT and FIRST_EXCL. -/
structure VoteSt where
  step : Nat
  begun : Nat
  locals : List (Nat × Bool) := []
  kids : List (Nat × Bool × Nat × Nat) := []
  reported : Bool := false
  deriving DecidableEq, Repr

/-- A cast that waits for the step's work (R408). -/
structure HeldCast where
  p : Nat
  slot : Nat
  step : Nat
  verdict : Bool
  deriving DecidableEq, Repr

/-- The Ndor fabric (15) as far as no register holds it. -/
structure FabSt where
  ports : List (Nat × FPort) := []
  heads : List RouteWait := []
  /-- packets delivered to local endpoints and not yet taken, oldest first -/
  delivered : List Pkt := []
  claims : List ClaimRec := []
  /-- the address proposed, number of the device's last claim, and time of the last change (R344) -/
  proposal : Option Nat := none
  claimSeq : Nat := 0
  changeAt : Nat := 0
  /-- destinations for which WITHDRAW is in force from this device -/
  gone : List Nat := []
  votes : List (Nat × VoteSt) := []
  casts : List HeldCast := []
  masterGone : Option Nat := none
  /-- addresses of the devices whose FAB_TIME.MASTER reads 1, as the last TIME exchange told (R362) -/
  masters : List Nat := []
  /-- rejection reports sent to contributing devices: device, partition, GEN, handle, contributor, code (R116) -/
  reports : List (Nat × Nat × Nat × Nat × Nat × Nat) := []
  /-- number of the last local command that sent packets -/
  tagCtr : Nat := 0
  deriving DecidableEq, Repr

/-- A report as a source holds it in its report port (R367). `part` is 255 for device scope. -/
structure Report where
  cls : Nat
  level : Nat
  master : Nat
  access : Nat := 0
  part : Nat := 255
  source : Nat
  code : Nat := 0
  aux : Nat := 0
  addr : Nat := 0
  time : Nat := 0
  /-- AON_STAGE.STAGE at detection -/
  stage : Nat := 0
  flags : Nat := 0
  deriving DecidableEq, Repr

/-- One fault record (table *Fault record* of R377). -/
structure FEntry where
  time : Nat
  addr : Nat
  cls : Nat
  level : Nat
  final : Nat
  master : Nat
  access : Nat
  part : Nat
  source : Nat
  flags : Nat
  code : Nat
  seq : Nat
  aux : Nat
  rep : Nat
  stage : Nat
  mode : Nat
  deriving DecidableEq, Repr

/-- What the collector has seen of one alert pair (R366). -/
structure PairSt where
  equalRun : Nat
  lastBad : Nat
  deriving DecidableEq, Repr

/-- The fault collector and the report ports of the sources (16). -/
structure FaultSt where
  /-- reports each source still holds, by source code, oldest first (R367) -/
  srcQ : List (Nat × List Report) := []
  /-- alert pairs that have shown equal wires -/
  pairs : List (Nat × PairSt) := []
  /-- reports read by the collector and not yet served, in serving order (R372) -/
  coll : List Report := []
  /-- collector-self faults to be served after the source reports of the sample -/
  self : List Report := []
  /-- the ring in always-on SRAM, newest first, at most 4,096 entries (R378) -/
  ring : List FEntry := []
  /-- sequence number of the newest entry; 0 before the first -/
  seq : Nat := 0
  /-- sequence number up to which the mirror in the keep region is complete (R380) -/
  mirrored : Nat := 0
  /-- flash history, newest first, at most 8,192 entries (R381) -/
  hist : List FEntry := []
  /-- entries waiting to be written to the flash history, oldest first -/
  histDue : List FEntry := []
  /-- pending bits that clear automatically: class, scope (16 the device), due time (R372) -/
  autoClr : List (Nat × Nat × Nat) := []
  deriving DecidableEq, Repr

/-- A quarantine request waiting or pending (R401). -/
structure QuarReq where
  pa : Nat
  bucket : Nat
  step : Nat
  deriving DecidableEq, Repr

/-- A running Campanile test (R402). -/
structure CampRun where
  target : Option Nat
  p : Nat
  parts : Nat
  setPointC : Nat
  beganAt : Nat
  /-- roles the arrays held before, by physical array -/
  roles : List (Nat × Nat)
  deriving DecidableEq, Repr

/-- A mismatch whose charge waits for the known-answer run (R393). -/
structure Mismatch where
  p : Nat
  /-- master codes of the descriptor's unit and of the echo unit, and their keys: the physical array, 1000 and 4 g + engine, or 2000 and the
  turret unit's group -/
  unit : Nat
  unitPa : Nat
  echo : Nat
  echoPa : Nat
  step : Nat
  /-- bucket index at the descriptor's unit and at the echo unit -/
  bucketU : Nat
  bucketE : Nat
  deriving DecidableEq, Repr

/-- The Gallery (17) as far as no register holds it. -/
structure GalSt where
  /-- quarantine requests by partition, the pending one first -/
  quar : List (Nat × List QuarReq) := []
  /-- physical arrays and units that serve no echoes until patched or cleared (R393, R401, R404) -/
  noEcho : List Nat := []
  camp : Option CampRun := none
  /-- passing range reported per group of the last test's sweeps: group, lowest and highest passing step -/
  ranges : List (Nat × Nat × Nat) := []
  mism : List Mismatch := []
  /-- charged mismatches: partition, path, time (R396) -/
  charges : List (Nat × Nat × Nat) := []
  /-- steps of echoes abandoned, by partition (R395) -/
  abandoned : List (Nat × Nat) := []
  /-- thresholds of Trended margins, by cause bit (R405) -/
  thresholds : List (Nat × Int) := []
  /-- last warning of a cause and instance (R406): cause, instance, time -/
  warned : List (Nat × Nat × Nat) := []
  /-- time of the last rate update by partition, and the service it covered: partition, begin, end, rate in ppm (R396) -/
  rateAt : List (Nat × Nat) := []
  rates : List (Nat × Nat × Nat × Nat) := []
  deriving DecidableEq, Repr

/-- A ledger command being run (R416): the command, whether it came from the ring, whether its data has been sent, and the number its packets
carry. -/
structure LedRun where
  cmd : Bytes
  ring : Bool
  sent : Bool := false
  tag : Nat := 0
  /-- the record a SEND has appended -/
  record : Bytes := []
  deriving DecidableEq, Repr

/-- Ledger engine of one partition (18) as far as no register holds it. -/
structure LedSt where
  sqTail : Nat := 0
  /-- commands of LEDGER_COMMAND, oldest first -/
  extra : List Bytes := []
  run : Option LedRun := none
  /-- records that arrived at the inbox and are not yet appended -/
  inQ : List Bytes := []
  /-- inbox records to be compared again: unit and time (R419) -/
  checks : List (Nat × Nat) := []
  /-- units of records released before the record at TAIL (R420) -/
  holes : List Nat := []
  /-- contributions of remote exports not yet appended: destination device and beats (R416, R423) -/
  exports : List (Nat × List Beat) := []
  deriving DecidableEq, Repr

/-- The drain of a cut to one mirror (R435, R438). -/
structure MirrorDrain where
  r : Nat
  /-- slot of the mirror run taken: 0 A, 1 B -/
  slot : Nat
  /-- the twin device, the first frame of the run and L -/
  dev : Nat
  base : Nat
  len : Nat
  opened : Bool := false
  /-- pages and manifest frames sent -/
  sent : Nat := 0
  sealed : Bool := false
  /-- successive SLOT_STATUS requests unanswered -/
  missed : Nat := 0
  /-- code with which this mirror ended -/
  ended : Option Nat := none
  deriving DecidableEq, Repr

/-- The last SLOT_STATUS answer of a mirror: when, and the slot that may be written, if one. -/
structure SlotAnswer where
  r : Nat
  at_ : Nat
  slot : Option Nat
  /-- the run has two slots and the newest is COMPLETE (R434) -/
  good : Bool
  base : Nat
  len : Nat
  deriving DecidableEq, Repr

/-- Snapshot engine of one partition (19). -/
structure SnapSt where
  /-- arming has begun and waits for an advance or an invalidation (R429) -/
  arming : Bool := false
  /-- values written to AG_NUM_ADVANCE.STEP while arming, held in order -/
  heldAdv : List Nat := []
  /-- a cut has been armed since the last Dome; time of the last arming, or of Finial -/
  armed : Bool := false
  armedAt : Nat := 0
  /-- VPNs of the cut in ascending order -/
  pages : List Nat := []
  drains : List MirrorDrain := []
  answers : List SlotAnswer := []
  /-- step at which MAX became pending (R430) -/
  maxSince : Option Nat := none
  /-- newest COMPLETE cut at the mirrors: pages, arming time (R446) -/
  newest : Option (Nat × Nat) := none
  /-- whether the mirrors hold a COMPLETE newest slot and two slots each (R434) -/
  mirrorsGood : Bool := false
  /-- time between the last two advances, and of the last one -/
  tStep : Nat := 0
  lastAdvance : Nat := 0
  deriving DecidableEq, Repr

/-- A slot of a local mirror run: its CUT_ID, the manifest header and source while the seal is checked, how often and when it was last
read, and the number of the packets that serve it (R433, R437). -/
structure SlotSt where
  cutId : Nat := 0
  sealing : Option Bytes := none
  tries : Nat := 0
  readAt : Nat := 0
  serving : Option Nat := none
  deriving DecidableEq, Repr

/-- A restore in progress on this device (R441): the request, its mailbox, when it began, when SERVE_DONE arrived from each serving device,
and the time of a failed first read. -/
structure RestoreRun where
  req : RestoreReq
  h : MbxHdr
  begun : Nat
  /-- when each source device was last heard -/
  heard : List (Nat × Nat) := []
  served : List (Nat × Nat) := []
  failedAt : Option Nat := none
  deriving DecidableEq, Repr

/-- A unit of a dump: its master code, instance, method, record and time of reading in µs from the request (R453). -/
structure DumpUnit where
  master : Nat
  inst : Nat
  method : Nat
  record : Bytes
  atUs : Nat
  deriving DecidableEq, Repr

/-- Freeze, collection and reset of one partition (20). -/
structure HangSt where
  /-- time of the last progress event (R448) -/
  progress : Nat := 0
  /-- ns the watchdog timer had run at the time `mark` (R449) -/
  ran : Nat := 0
  mark : Nat := 0
  /-- the request in progress: cause, time, whether a dump is taken, whether a reset follows, sequence number of the fault that caused it -/
  req : Option (Nat × Nat) := none
  dump : Bool := false
  resetAfter : Bool := true
  faultSeq : Nat := 0
  /-- dump slot taken -/
  slot : Nat := 0
  /-- units still to be read, and those read, newest first -/
  todo : List (Nat × Nat) := []
  done : List DumpUnit := []
  /-- time collection ended -/
  collEnd : Nat := 0
  /-- times at which each tag value was given: tag, time (R458) -/
  tagTimes : List (Nat × Nat) := []
  deriving DecidableEq, Repr

/-- One crash dump slot (R454). -/
structure DumpSlot where
  held : Bool := false
  valid : Bool := false
  deriving DecidableEq, Repr

/-- A verification key (R463). -/
inductive VKey where
  /-- vendor root of mask ROM -/
  | root (k : Nat)
  /-- an owner key, or a device's identity key, 64 bytes -/
  | owner (key : Bytes)
  deriving DecidableEq, Repr

/-- What authenticated firmware is running (R468). -/
structure FwRun where
  /-- 0 image A, 1 image B -/
  slot : Nat
  version : Nat
  secVersion : Nat
  digest : Bytes
  deriving DecidableEq, Repr

/-- The flash die (R257, R465, R468, R470): kept through every loss of power. -/
structure FlashSt where
  fwA : Bytes := []
  fwB : Bytes := []
  /-- structure-image slots 0 to 3 -/
  slots : List Bytes := [[], [], [], []]
  trim : Bytes := []
  /-- boot selection -/
  bootSlot : Nat := 0
  /-- identity public key and vendor endorsement -/
  idKey : Bytes := []
  endorsement : Bytes := []
  /-- owner record: key (none when no owner is enrolled) and policy -/
  ownerKey : Option Bytes := none
  ownerPolicy : Nat := 0
  /-- monotonic counters (R465) -/
  fwSv : Nat := 0
  imgSv : Nat := 0
  patchSv : Nat := 0
  trimSv : Nat := 0
  revoked : Nat := 0
  ownerEpoch : Nat := 0
  debugCtr : Nat := 0
  sigBlock : Nat := 0
  /-- bucket counts that differ from 0, keyed 800 * physical array + bucket index (R400) -/
  buckets : List (Nat × Nat) := []
  /-- ns of service since the last charged mismatch, by partition (R396) -/
  cleanNs : List (Nat × Nat) := []
  deriving DecidableEq, Repr

/-- The security block (21) as far as no register holds it. -/
structure SecSt where
  flash : FlashSt := {}
  /-- the triples (key, message, signature) that verify under R462: the model's own field, see notes/assumptions/5.md -/
  genuine : List (VKey × Bytes × Bytes) := []
  fw : Option FwRun := none
  /-- time of the last rate-token refill (R472) -/
  tokenAt : Nat := 0
  deriving DecidableEq, Repr

/-- The state of the device. -/
structure State where
  /-- commands waiting, first in first out -/
  pending : List Instr := []
  /-- device time in ns -/
  now : Nat := 0
  /-- register fields that differ from their reset value, in ascending key order -/
  regs : List (FKey × Nat) := []
  /-- memory cells that differ from 0, in ascending address order -/
  mem : List Host.Cell := []
  /-- how many free values the device has taken (Config.freeValue): the model's own field -/
  freeCtr : Nat := 0
  memx : MemSt := {}
  fc : FaultSt := {}
  pwr : PowerSt := {}
  gal : GalSt := {}
  /-- per partition: snapshot engine -/
  snp : List (Nat × SnapSt) := []
  /-- slots of the local mirror runs, keyed 4 p + 2 (r - 1) + slot -/
  slots : List (Nat × SlotSt) := []
  restores : List (Nat × RestoreRun) := []
  img : ImageSt := {}
  sec : SecSt := {}
  host : HostSt := {}
  /-- entries of the Layout Directory as of its last update -/
  ldir : List LdEntry := []
  /-- open contexts, keyed 8 g + c -/
  ctxs : List (Nat × CtxSt) := []
  /-- the round-robin place of each sequencer: context last started (R152) -/
  lastCtx : List (Nat × Nat) := []
  /-- started descriptors, in order of start; number of the newest -/
  jobs : List Job := []
  jobCtr : Nat := 0
  /-- echo jobs that have ended and wait for their descriptor (R392) -/
  echoes : List Job := []
  /-- physical arrays -/
  pas : List (Nat × PaSt) := []
  rings : List Ring := []
  waits : List Wait := []
  /-- contribution beats sent by this device's drains and not yet taken -/
  beats : List Beat := []
  /-- beats of remote exports that have not left a lantern port, with the destination device (R153) -/
  outBeats : List (Nat × Beat) := []
  atu : List (Nat × AtuEntry) := []
  fab : FabSt := {}
  /-- ledger engine of each partition -/
  led : List (Nat × LedSt) := []
  /-- step of each partition's last completed advance -/
  curSteps : List (Nat × Nat) := []
  /-- advances in progress: partition, step -/
  advances : List (Nat × Nat) := []
  /-- per partition: freeze, collection and reset -/
  hng : List (Nat × HangSt) := []
  dumps : List DumpSlot := [{}, {}, {}, {}]
  /-- dump sequence number of the newest dump, and that of each slot's dump -/
  dumpSeq : Nat := 0
  deriving DecidableEq, Repr

/-- The device right after reset: no supply valid, every field at its default. -/
def State.reset : State := {}

end Sys2Proof.Machine
end

