-- ==== Sys2Proof/Machine/Ops.lean ====
section
/-!
DEFINITION. Sys2Proof/Machine/Ops.lean: the named operations every command is written with: register fields, memory bytes, sparse maps,
device time, interrupt vectors and fault reports.
-/

namespace Sys2Proof.Machine

/-! ### Sparse maps keyed by a number, in ascending key order -/

/-- The value at key `k`. -/
def aget {α : Type} : List (Nat × α) → Nat → Option α
  | [], _ => none
  | (k', v) :: m, k => if k' = k then some v else aget m k

/-- The value at key `k`, or `d`. -/
def agetD {α : Type} (m : List (Nat × α)) (k : Nat) (d : α) : α := (aget m k).getD d

/-- Sets key `k` to `v`. -/
def aset {α : Type} : List (Nat × α) → Nat → α → List (Nat × α)
  | [], k, v => [(k, v)]
  | (k', v') :: m, k, v =>
    if k' = k then (k, v) :: m else if k < k' then (k, v) :: (k', v') :: m else (k', v') :: aset m k v

/-- Removes key `k`. -/
def adel {α : Type} (m : List (Nat × α)) (k : Nat) : List (Nat × α) := m.filter (fun e => e.1 ≠ k)

/-- Adds `x` at the end unless it is there. -/
def addOnce {α : Type} [DecidableEq α] (l : List α) (x : α) : List α := if x ∈ l then l else l ++ [x]

/-- `n` with bit `b` set, or cleared. -/
def setBitTo (n b : Nat) (v : Bool) : Nat :=
  if v then n ||| (2 ^ b) else if n.testBit b then n - 2 ^ b else n

/-- Bits [lsb + w - 1 : lsb] of `n` (R3). -/
def bits (n lsb w : Nat) : Nat := n / 2 ^ lsb % 2 ^ w

/-- Two's complement value of the low `w` bits of `n`. -/
def signed (n w : Nat) : Int :=
  let m := n % 2 ^ w
  if m < 2 ^ (w - 1) then (m : Int) else (m : Int) - 2 ^ w

/-- The `w`-bit two's complement pattern of `x`. -/
def unsigned (x : Int) (w : Nat) : Nat := (x % (2 ^ w : Int)).toNat

/-- The numbers below `n` that satisfy `p`, in ascending order. -/
def below (n : Nat) (p : Nat → Bool) : List Nat := (List.range n).filter p

/-- Least number at or above `a / b`. -/
def ceilDiv (a b : Nat) : Nat := (a + b - 1) / b

/-- How many bits of the low `n` bits of `m` are 1. -/
def popCount (m n : Nat) : Nat := (below n (fun k => m.testBit k)).length

/-- How far free-running 16-bit index `a` lies ahead of `b`. -/
def ahead (a b : Nat) : Nat := (a + 65536 - b % 65536) % 65536

/-! ### Byte strings -/

/-- The number a byte string spells, first byte least significant (R4). -/
def leNat : Bytes → Nat
  | [] => 0
  | b :: bs => b.toNat + 256 * leNat bs

/-- `n` bytes of `v`, least significant first (R4). -/
def natLe : Nat → Nat → Bytes
  | 0, _ => []
  | n + 1, v => BitVec.ofNat 8 v :: natLe n (v / 256)

/-- `n` bytes of `b` from offset `off`; bytes past the end read 0. -/
def slice (b : Bytes) (off n : Nat) : Bytes :=
  let x := (b.drop off).take n
  x ++ List.replicate (n - x.length) 0

/-- The number in `n` bytes of `b` from offset `off`. -/
def leAt (b : Bytes) (off n : Nat) : Nat := leNat (slice b off n)

/-- `b` with `x` written at offset `off`, lengthened with zeros as far as needed. -/
def patchBytes (b : Bytes) (off : Nat) (x : Bytes) : Bytes :=
  let a := b.take off
  a ++ List.replicate (off - a.length) 0 ++ x ++ b.drop (off + x.length)

/-- Whether every byte is 0. -/
def allZero (b : Bytes) : Bool := b.all (fun x => x == 0)

/-- The bytes of an ASCII string. -/
def ascii (s : String) : Bytes := s.toList.map (fun c => BitVec.ofNat 8 c.toNat)

/-! ### Register fields -/

/-- The order of field keys. -/
def FKey.lt (a b : FKey) : Bool :=
  if a.reg.ctorIdx ≠ b.reg.ctorIdx then decide (a.reg.ctorIdx < b.reg.ctorIdx)
  else if a.i ≠ b.i then decide (a.i < b.i)
  else if a.j ≠ b.j then decide (a.j < b.j)
  else decide (a.lsb < b.lsb)

/-- The value stored for a field key. -/
def fget : List (FKey × Nat) → FKey → Option Nat
  | [], _ => none
  | (k', v) :: m, k => if k' = k then some v else fget m k

/-- Stores a value for a field key. -/
def fset : List (FKey × Nat) → FKey → Nat → List (FKey × Nat)
  | [], k, v => [(k, v)]
  | (k', v') :: m, k, v =>
    if k' = k then (k, v) :: m
    else if k.lt k' then (k, v) :: (k', v') :: m else (k', v') :: fset m k v

/-- Removes a field key. -/
def fdel (m : List (FKey × Nat)) (k : FKey) : List (FKey × Nat) := m.filter (fun e => e.1 ≠ k)

/-- The value field `f` holds. -/
def State.rd (s : State) (f : Fld) (i : Nat := 0) (j : Nat := 0) : Nat :=
  (fget s.regs ⟨f.reg, i, j, f.lsb⟩).getD f.rst

/-- Field `f` set to `v`, cut to the field's width; a field at its reset value is not listed. -/
def State.wr (s : State) (f : Fld) (v : Nat) (i : Nat := 0) (j : Nat := 0) : State :=
  { s with regs :=
      if v % 2 ^ f.width = f.rst then fdel s.regs ⟨f.reg, i, j, f.lsb⟩
      else fset s.regs ⟨f.reg, i, j, f.lsb⟩ (v % 2 ^ f.width) }

/-- Whether a one-bit field reads 1. -/
def State.on (s : State) (f : Fld) (i : Nat := 0) (j : Nat := 0) : Bool := s.rd f i j ≠ 0

/-- A one-bit field set from a truth value. -/
def State.wrB (s : State) (f : Fld) (v : Bool) (i : Nat := 0) (j : Nat := 0) : State :=
  s.wr f (if v then 1 else 0) i j

/-- A counter field after `n` further events: it saturates at its all-ones value (R8). -/
def State.inc (s : State) (f : Fld) (i : Nat := 0) (j : Nat := 0) (n : Nat := 1) : State :=
  s.wr f (min (s.rd f i j + n) (2 ^ f.width - 1)) i j

/-- A bit-map field with bit `b` set or cleared. -/
def State.wrBit (s : State) (f : Fld) (b : Nat) (v : Bool) (i : Nat := 0) (j : Nat := 0) : State :=
  s.wr f (setBitTo (s.rd f i j) b v) i j

/-- Returns the fields that satisfy `p` to their reset values. -/
def State.dropFields (s : State) (p : FKey → Bool) : State :=
  { s with regs := s.regs.filter (fun e => !p e.1) }

/-! ### Memory -/

/-- Stores byte `v` at key `a`; a byte of 0 is not listed. -/
def memPut : List Host.Cell → Nat → Byte → List Host.Cell
  | [], a, v => if v = 0 then [] else [(a, v)]
  | (a', v') :: m, a, v =>
    if a' = a then (if v = 0 then m else (a, v) :: m)
    else if a < a' then (if v = 0 then (a', v') :: m else (a, v) :: (a', v') :: m)
    else (a', v') :: memPut m a v

/-- The byte at key `a`: 0 where nothing is listed (notes/assumptions/2.md). -/
def memGet : List Host.Cell → Nat → Byte
  | [], _ => 0
  | (a', v) :: m, a => if a' = a then v else memGet m a

/-- Addresses above `lo` rise strictly and no listed byte is 0. -/
def memSorted : Nat → List Host.Cell → Bool
  | _, [] => true
  | lo, (a, v) :: m => decide (lo ≤ a) && decide (v ≠ 0) && memSorted (a + 1) m

/-- The canonical form of memory: addresses strictly rising, no byte equal to what an unlisted address reads as. -/
def Memory.wf (m : List Host.Cell) : Bool := memSorted 0 m

/-- The byte at key `a`. -/
def State.rdByte (s : State) (a : Nat) : Byte := memGet s.mem a

/-- Byte `v` stored at key `a`. -/
def State.wrByte (s : State) (a : Nat) (v : Byte) : State := { s with mem := memPut s.mem a v }

/-- `n` bytes from key `a`. -/
def State.rdBytes (s : State) (a n : Nat) : Bytes := (List.range n).map (fun k => s.rdByte (a + k))

/-- Stores bytes from key `a` in a memory. -/
def memPutAll : List Host.Cell → Nat → Bytes → List Host.Cell
  | m, _, [] => m
  | m, a, b :: bs => memPutAll (memPut m a b) (a + 1) bs

/-- Bytes stored from key `a`. -/
def State.wrBytes (s : State) (a : Nat) (b : Bytes) : State := { s with mem := memPutAll s.mem a b }

/-- The little-endian number in `n` bytes from key `a` (R4). -/
def State.rdNat (s : State) (a n : Nat) : Nat := leNat (s.rdBytes a n)

/-- `n` bytes of `v` stored from key `a` (R4). -/
def State.wrNat (s : State) (a n v : Nat) : State := s.wrBytes a (natLe n v)

/-- Memory without the cells of keys from `lo` to `hi - 1`: a memory that lost its contents reads 0. -/
def State.forget (s : State) (lo hi : Nat) : State :=
  { s with mem := s.mem.filter (fun c => decide (c.1 < lo) || decide (hi ≤ c.1)) }

/-- Key of offset `off` of the cupola slice under AGg. -/
def cupKey (g off : Nat) : Nat := 2 ^ 44 + g * 2 ^ 29 + off

/-- Key of byte `off` of the accumulator memory of physical array `pa`. -/
def accKey (pa off : Nat) : Nat := 2 ^ 48 + pa * 2 ^ 20 + off

/-! ### Time, free values and interrupts -/

/-- The state at device time `t`; time never runs back. -/
def State.tick (s : State) (t : Nat) : State := { s with now := max s.now t }

/-- Array group `g` stops being idle, or has just been busy: its idle timer restarts (R285). -/
def State.stirred (s : State) (g : Nat) : State := { s with pwr := { s.pwr with idleSince := aset s.pwr.idleSince g s.now } }

/-- The next free value (Config.freeValue). -/
def State.free (s : State) : Nat := Config.freeValue s.freeCtr

/-- One more free value taken. -/
def State.freeTaken (s : State) : State := { s with freeCtr := s.freeCtr + 1 }

/-- The configuration of a function (R299). -/
def HostSt.cfgOf (h : HostSt) (fn : Fn) : FnCfg := ((h.cfgs.find? (fun e => e.1 = fn)).map (fun e => e.2)).getD {}

/-- Whether a function may send vector `v`: MSI-X enabled, neither the function nor the vector masked, in D0 (R245, R299). -/
def FnCfg.sends (c : FnCfg) (v : Nat) : Bool := c.msix && !c.mask && !c.d3hot && decide (v ∈ c.unmasked)

/-- A vector is raised: its message goes upstream, or it stays pending while the function has masked or not enabled it (R245, R300). -/
def HostSt.raised (h : HostSt) (fn : Fn) (v : Nat) : HostSt :=
  if (h.cfgOf fn).sends v then { h with vecs := addOnce h.vecs (fn, v), msgs := h.msgs ++ [(fn, v)] }
  else { h with vecs := addOnce h.vecs (fn, v), pba := addOnce h.pba (fn, v) }

/-- A function's configuration changes; the pending vectors it now lets through are sent (R245). -/
def HostSt.withCfg (h : HostSt) (fn : Fn) (c : FnCfg) : HostSt :=
  let go := h.pba.filter (fun e => decide (e.1 = fn) && c.sends e.2)
  { h with
    cfgs := h.cfgs.filter (fun e => e.1 ≠ fn) ++ (if c = {} then [] else [(fn, c)]),
    msgs := h.msgs ++ go, pba := h.pba.filter (fun e => e ∉ go) }

/-- Raises an MSI-X vector of a function (R304). -/
def State.vec (s : State) (fn : Fn) (v : Nat) : State := { s with host := s.host.raised fn v }

/-- Sets a function's configuration. -/
def State.setCfg (s : State) (fn : Fn) (c : FnCfg) : State := { s with host := s.host.withCfg fn c }

/-- Raises interrupt `v` at Belfry core `n` (R245). -/
def State.coreVec (s : State) (n v : Nat) : State :=
  { s with host := { s.host with coreIrq := addOnce s.host.coreIrq (n, v) } }

/-- Raises an in-band interrupt on the sideband (R306). -/
def State.inBand (s : State) : State := { s with host := { s.host with ibi := s.host.ibi + 1 } }

/-- PF0 vector `v` and vector `w` of partition p's VF (R304, R245). -/
def State.vecBoth (s : State) (v w p : Nat) : State := (s.vec .pf0 v).vec (.vf (p + 1)) w

/-! ### Stages and partitions -/

/-- Stage codes of AON_STAGE.STAGE (R294). -/
def stFooting : Nat := 1
def stDrum : Nat := 2
def stDome : Nat := 3
def stFinial : Nat := 4
def stSafe : Nat := 7

/-- AON_STAGE.STAGE. -/
def State.stage (s : State) : Nat := s.rd F.AON_STAGE_STAGE

/-- Whether the device is in the safe state (R382). -/
def State.safe (s : State) : Bool := s.stage = stSafe

/-- Sets the stage and raises PF0 vector 49 and the in-band interrupt when it changes (R304, R306). -/
def State.setStage (s : State) (v : Nat) : State :=
  if s.stage = v then s else ((s.wr F.AON_STAGE_STAGE v).vec .pf0 49).inBand

/-- Whether the stage reached is at least `v`, the safe state aside. -/
def State.atLeast (s : State) (v : Nat) : Bool := decide (v ≤ s.stage) && decide (s.stage ≠ stSafe)

/-- The records of the active image's PARTITION section. -/
def State.parts (s : State) : List PartRec :=
  match s.img.act with
  | some im => im.parts
  | none => []

/-- The partition an array group belongs to in the active image. -/
def State.partOf (s : State) (g : Nat) : Option Nat :=
  (s.parts.find? (fun r => r.agSet.testBit g)).map (fun r => r.p)

/-- The array groups of partition p in ascending order. -/
def State.groupsOf (s : State) (p : Nat) : List Nat :=
  match s.parts.find? (fun r => r.p = p) with
  | some r => below 16 (fun g => r.agSet.testBit g)
  | none => []

/-- The home group of partition p: the lowest of its groups (R165). -/
def State.homeOf (s : State) (p : Nat) : Option Nat := (s.groupsOf p).head?

/-- Whether the active image holds partition p. -/
def State.hasPart (s : State) (p : Nat) : Bool := s.parts.any (fun r => r.p = p)

/-- The Belfry cores of partition p (R237). -/
def State.coresOf (s : State) (p : Nat) : List Nat :=
  below 48 (fun n => s.on F.MGT_BFY_CORE_ASSIGNED n && decide (s.rd F.MGT_BFY_CORE_PARTITION n = p))

/-- Whether the management core runs authenticated firmware: it does so in the safe state too, where AON_STAGE.FIRMWARE reads 0 (R298,
R382). -/
def State.fwUp (s : State) : Bool := s.sec.fw.isSome && !s.host.fwDead && !s.on F.AON_STAGE_MGT_RESTART

/-! ### Fault reports -/

/-- Class of a source's block by its master code (R493). -/
def classOfMaster (m : Nat) : Nat :=
  if m < 0x20 then 2 else if m < 0x30 then 0 else if m < 0x40 then 1 else if m < 0x54 then 0
  else if m = 0x54 then 4 else if m = 0x55 then 0 else if m = 0x56 then 0 else if m = 0x58 then 2
  else if m = 0x59 then 0 else if m = 0x5A then 3 else if m = 0x5B then 2 else if m = 0x5C then 3
  else if m = 0x5D then 5 else if m = 0x5E then 4 else 6

/-- A report raised at its source (R367): each source holds up to 4; a fifth is discarded, and the collector records a level 1
collector-self fault with CODE 0002h that names the source. -/
def State.raise (s : State) (r : Report) : State :=
  let q := agetD s.fc.srcQ r.source []
  if q.length < 4 then
    { s with fc := { s.fc with srcQ := aset s.fc.srcQ r.source (q ++ [{ r with time := s.now, stage := s.stage }]) } }
  else
    { s with fc := { s.fc with self :=
        s.fc.self ++ [{ cls := 6, level := 1, master := 0x7F, source := r.source, code := 2, time := s.now, stage := s.stage }] } }

/-- A fault the collector raises itself. -/
def State.raiseSelf (s : State) (level code aux : Nat) : State :=
  { s with fc := { s.fc with self :=
      s.fc.self ++ [{ cls := 6, level := level, master := 0x5F, source := 0x5F, code := code, aux := aux, time := s.now, stage := s.stage }] } }

/-- A level `lv` fabric-class report. -/
def State.fabFault (s : State) (lv code aux : Nat) (part : Nat := 255) : State :=
  s.raise { cls := 3, level := lv, master := 0x5A, part := part, source := 0x5A, code := code, aux := aux }

/-- A port has left UP: each group slot whose parent it leads to and whose result is pending records the fault of R360. -/
def State.parentLost (s : State) (i : Nat) : State :=
  s.fab.votes.foldl (fun (s : State) v =>
    if s.on F.FAB_VGRP_HAS_PARENT v.1 ∧ s.rd F.FAB_VCFG_PARENT_PORT v.1 = i then s.fabFault 1 3 v.1 else s) s

/-- Clears the HOLD bits in `mask`, sets the matching LAPSED bits of those that held, and raises PF0 vector 50 when a LAPSED bit is set
(R15, R304). -/
def State.lapse (s : State) (mask : Nat) : State :=
  [(0, F.MGT_GUARANTEE_HOLD_CONSERVE, F.MGT_GUARANTEE_LAPSED_CONSERVE),
   (1, F.MGT_GUARANTEE_HOLD_REPLAY, F.MGT_GUARANTEE_LAPSED_REPLAY),
   (2, F.MGT_GUARANTEE_HOLD_RECOVERY, F.MGT_GUARANTEE_LAPSED_RECOVERY),
   (3, F.MGT_GUARANTEE_HOLD_SILENT, F.MGT_GUARANTEE_LAPSED_SILENT),
   (4, F.MGT_GUARANTEE_HOLD_VECTORS, F.MGT_GUARANTEE_LAPSED_VECTORS)].foldl
    (fun s e =>
      if mask.testBit e.1 && s.on e.2.1 then ((s.wr e.2.1 0).wr e.2.2 1).vec .pf0 50 else s) s

/-- Clears every HOLD bit without a lapse (R17). -/
def State.clearHolds (s : State) : State :=
  [F.MGT_GUARANTEE_HOLD_CONSERVE, F.MGT_GUARANTEE_HOLD_REPLAY, F.MGT_GUARANTEE_HOLD_RECOVERY, F.MGT_GUARANTEE_HOLD_SILENT,
   F.MGT_GUARANTEE_HOLD_VECTORS].foldl (fun s f => s.wr f 0) s

end Sys2Proof.Machine
end

