-- ==== Sys2Proof/Machine/Regulators.lean ====
section
/-!
DEFINITION. Sys2Proof/Machine/Regulators.lean: the bandwidth regulators' procedure and the tokens an access of DRAM draws (spec/09, R230 to
R233).
-/

namespace Sys2Proof.Machine

/-- One refill of regulator `r` of partition `p`. -/
def State.refill (s : State) (p r : Nat) : State :=
  let rate := s.rd F.BWG_CFG_RATE p r
  let level := s.rd F.BWG_STATE_LEVEL p r
  let add := min rate (s.rd F.BWG_CFG_DEPTH p r - level)
  ((s.wr F.BWG_STATE_LEVEL (level + add) p r).inc F.BWG_ISSUED_ISSUED p r rate).inc F.BWG_CLIPPED_CLIPPED p r (rate - add)

/-- The unit whose request heads the admission order of a regulator: round-robin after the unit last admitted (R232). -/
def State.nextUnit (s : State) (p r : Nat) : Option Nat :=
  let us := (s.memx.regWait.filter (fun q => decide (q.p = p) && decide (q.r = r))).map (fun q => q.unit)
  match aget s.memx.rr (4 * p + r) with
  | none => us.min?
  | some last =>
    match (us.filter (fun u => last < u)).min? with
    | some u => some u
    | none => us.min?

/-- Removes the first element that satisfies `f`. -/
def removeFirst {α : Type} (f : α → Bool) : List α → List α
  | [] => []
  | x :: l => if f x then l else x :: removeFirst f l

/-- Admits requests at a regulator as long as the one that heads the order finds its tokens, `fuel` of them at most. -/
def State.serve (s : State) (p r : Nat) : Nat → State
  | 0 => s
  | fuel + 1 =>
    match s.nextUnit p r with
    | none => s
    | some u =>
      match s.memx.regWait.find? (fun q => decide (q.p = p) && decide (q.r = r) && decide (q.unit = u)) with
      | none => s
      | some q =>
        let level := s.rd F.BWG_STATE_LEVEL p r
        if level < q.need then s
        else
          let s' := (s.wr F.BWG_STATE_LEVEL (level - q.need) p r).wr F.BWG_STATE_HELD (s.rd F.BWG_STATE_HELD p r + q.need) p r
          ({ s' with memx := { s'.memx with
              regWait := removeFirst (fun x => decide (x.p = p) && decide (x.r = r) && decide (x.unit = u)) s'.memx.regWait,
              regHeld := s'.memx.regHeld ++ [q],
              rr := aset s'.memx.rr (4 * p + r) u } } : State).serve p r fuel

/-- Serves a regulator for every request that waits at it. -/
def State.serveAll (s : State) (p r : Nat) : State := s.serve p r s.memx.regWait.length

/-- Units that draw no tokens (R230): the management core, the fault collector, and accesses through the PCIe windows. -/
def exemptUnit (unit : Nat) : Bool := decide (unit = 0x58) || decide (unit = 0x5F) || decide (unit = 0x5B)

/-- Whether a request of `need` tokens would be admitted at once: nobody waits, and the tokens are there (R231, R232). -/
def State.mayDraw (s : State) (p r need : Nat) : Bool := decide (need ≤ s.rd F.BWG_STATE_LEVEL p r) && (s.nextUnit p r).isNone

/-- One request of `need` tokens whose data moves now: it is admitted and spent at once where nobody waits and the tokens are there;
otherwise it joins the requests that wait (R231, R232; notes/assumptions/91.md). -/
def State.draw (s : State) (p r unit need : Nat) (pool : Bool := false) : State :=
  if s.mayDraw p r need then
    let s := (s.wr F.BWG_STATE_LEVEL (s.rd F.BWG_STATE_LEVEL p r - need) p r).inc F.BWG_SPENT_SPENT p r need
    { s with memx := { s.memx with rr := aset s.memx.rr (4 * p + r) unit } }
  else
    { s with memx := { s.memx with regWait := s.memx.regWait ++ [{ p := p, r := r, unit := unit, need := need, pool := pool }] } }

/-- The tokens of `bytes` of traffic by `unit`, in requests of at most 4,096 bytes, at regulator `r` of partition `p`; none by an exempt unit, nor
before an image has configured the regulator (R230, R231). -/
def State.regCharge (s : State) (p r unit bytes : Nat) (pool : Bool := false) : State :=
  if bytes = 0 ∨ exemptUnit unit ∨ s.rd F.BWG_CFG_DEPTH p r = 0 then s
  else
    let s := (List.range (bytes / 4096)).foldl (fun (s : State) _ => s.draw p r unit 64 pool) s
    if bytes % 4096 = 0 then s else s.draw p r unit (ceilDiv (bytes % 4096) 64) pool

end Sys2Proof.Machine
end

