-- ==== Sys2Proof/Machine/Common.lean ====
section
/-!
DEFINITION. Sys2Proof/Machine/Common.lean: operations that commands of several families share: reset domains, instance guards, address
translation and access checks, device memory access with copy-on-write and poison, DRAM channel mapping, reset requests.
-/

namespace Sys2Proof.Machine

/-- What a command answers. -/
abbrev Out := Host.Outcome State Fault Refusal

/-- A next state where the units named exist, Fault.noSuchInstance otherwise. -/
def inst (ok : Bool) (s : State) : Out := if ok then .next s else .fault .noSuchInstance

/-! ### Resets of registers (R9) -/

/-- Every register of one domain returns to its reset values. -/
def State.resetDomain (s : State) (d : ResetDomain) : State := s.dropFields (fun k => k.reg.domain = d)

/-- Whether instance `i` of a PART register belongs to partition `p`, whose groups are `gs`. -/
def ownsInst (gs : List Nat) (p : Nat) (r : Reg) (i : Nat) : Bool :=
  match r.axes.2.2 with
  | .group => decide (i ∈ gs)
  | .array => decide (i / 17 ∈ gs)
  | .slice => decide (i ∈ gs)
  | .part => decide (i = p)
  | .dev => false
  | .stack => false
  | .idx => false

/-- Every PART register of partition `p` returns to its reset values. -/
def State.resetPart (s : State) (p : Nat) : State :=
  let gs := s.groupsOf p
  s.dropFields (fun k => decide (k.reg.domain = .PART) && ownsInst gs p k.reg k.i)

/-! ### The page map (R204 to R208) -/

def pmValid (e : Nat) : Bool := e.testBit 63
def pmOwner (e : Nat) : Nat := bits e 59 4
def pmLoc (e : Nat) : Nat := bits e 57 2
def pmPlace (e : Nat) : Nat := bits e 55 2
def pmWrite (e : Nat) : Bool := e.testBit 54
def pmSnap (e : Nat) : Bool := e.testBit 52
def pmCow (e : Nat) : Bool := e.testBit 51
def pmCut (e : Nat) : Nat := bits e 49 2
def pmDirty (e : Nat) : Bool := e.testBit 48
def pmMirror (e : Nat) : Bool := e.testBit 47
def pmPoison (e : Nat) : Bool := e.testBit 46
def pmFrame (e : Nat) : Nat := bits e 0 24

/-- The page-map entry for VPN `v` in the keep region (R204). -/
def State.pmEntry (s : State) (v : Nat) : Nat := s.rdNat (8 * v) 8

/-- The entry for `v` as translation cache `cache` uses it: the one it holds, or else the keep region's, which it then holds (R210). -/
def State.pmLookup (s : State) (cache v : Nat) : Nat × State :=
  match s.memx.tcache.find? (fun e => decide (e.1 = cache) && decide (e.2.1 = v)) with
  | some e => (e.2.2, s)
  | none =>
    let e := s.pmEntry v
    (e, { s with memx := { s.memx with tcache := s.memx.tcache ++ [(cache, v, e)] } })

/-- The device's own update of an entry reaches the keep region and every cached copy (R210). -/
def State.pmUpdate (s : State) (v : Nat) (f : Nat → Nat) : State :=
  let s := s.wrNat (8 * v) 8 (f (s.pmEntry v))
  { s with memx := { s.memx with tcache := s.memx.tcache.map (fun e => if e.2.1 = v then (e.1, e.2.1, f e.2.2) else e) } }

/-- The DRAM windows of R222: partition (255 for the device window), base, length, granule, channels as 64 * stack + channel in order. -/
def State.windows (s : State) : List (Nat × Nat × Nat × Nat × List Nat) :=
  (255, 0, 2 ^ 32, 2048, [0, 1, 2, 3]) ::
    match s.img.act with
    | none => []
    | some im =>
      im.chans.filterMap (fun r =>
        let n := s.rd F.PGM_WINDOW_CHANNELS r.p
        if n = 0 then none
        else
          let g := match s.rd F.PGM_WINDOW_GRANULE r.p with | 0 => 256 | 1 => 2048 | _ => 65536
          some (r.p, s.rd F.PGM_WINDOW_BASE_GIB r.p * 2 ^ 30, n * 2 ^ 30, g, below 1024 (fun c => r.chans.testBit c)))

/-- The window a DRAM physical address lies in. -/
def State.windowAt (s : State) (a : Nat) : Option (Nat × Nat × Nat × Nat × List Nat) :=
  s.windows.find? (fun w => decide (w.2.1 ≤ a) && decide (a < w.2.1 + w.2.2.1))

/-- Stack, channel and channel address of a DRAM physical address (R222). -/
def State.chanOf (s : State) (a : Nat) : Option (Nat × Nat × Nat) :=
  match s.windowAt a with
  | none => none
  | some (_, base, _, g, l) =>
    let off := a - base
    let c := off / g
    let ch := l.getD (c % l.length) 0
    some (ch / 64, ch % 64, c / l.length * g + off % g)

/-- The DRAM physical address of a channel address, with the partition that owns the channel (255 for a device channel). -/
def State.chanKey (s : State) (stack chan ca : Nat) : Option (Nat × Nat) :=
  s.windows.findSome? (fun w =>
    let l := w.2.2.2.2
    let g := w.2.2.2.1
    match l.findIdx? (fun x => x = 64 * stack + chan) with
    | none => none
    | some c => some (w.2.1 + (ca / g * l.length + c) * g + ca % g, w.1))

/-- Memory key of byte `off` of the page an entry maps (R206). -/
def pageKey (e off : Nat) : Nat :=
  let f := pmFrame e
  match pmLoc e with
  | 0 => f * 65536 + off
  | 1 => cupKey (4 * pmPlace e + f / 6144) (f % 6144 * 65536 + off)
  | _ =>
    let b := off / 4096
    cupKey (4 * (b % 4) + pmPlace e) (f * 16384 + b / 4 * 4096 + off % 4096)

/-- Outcome of the access checks (R208): none when they pass, or 1 TRANSLATION, 2 OWNERSHIP, 3 PROTECTION, 4 POISONED. `mirror` marks the
twin mirror receive path of R209. -/
def State.accessCode (s : State) (e addr p : Nat) (write mirror : Bool) : Option Nat :=
  if decide (2 ^ 40 ≤ addr) || !pmValid e || decide (pmLoc e = 3)
      || (decide (pmLoc e = 0) && (s.windowAt (pmFrame e * 65536)).isNone) then some 1
  else if !mirror && decide (pmOwner e ≠ p) then some 2
  else if write && !pmWrite e then some 3
  else if write && pmMirror e && !mirror then some 3
  else if pmPoison e then some 4
  else none

/-- Records a failed access check: the report of R208 and the first capture in PGM_FAULT. `aux` names a part of the requesting unit. -/
def State.accessFault (s : State) (code cache unit p addr : Nat) (write : Bool) (aux : Nat := 0) : State :=
  let s := s.raise { cls := if code = 2 then 5 else 0, level := 1, master := unit, access := (if write then 2 else 1) + 0x10,
                     part := p, source := if cache < 4 then 0x50 + cache else 0x56, code := code, aux := aux, addr := addr }
  if s.on F.PGM_FAULT_VALID then s
  else
    ((((((s.wr F.PGM_FAULT_VALID 1).wr F.PGM_FAULT_CODE code).wr F.PGM_FAULT_PARTITION p).wr F.PGM_FAULT_UNIT unit).wrB
      F.PGM_FAULT_WRITE write).wr F.PGM_FAULT_ADDRESS addr)

/-- The pages that `n` bytes from `addr` touch. -/
def pagesOf (addr n : Nat) : List Nat :=
  if n = 0 then [] else (List.range ((addr + n - 1) / 65536 - addr / 65536 + 1)).map (fun k => addr / 65536 + k)

/-- Translates and checks an access of `n` bytes from `addr` by `unit` of partition `p` through cache `cache`: the failing code, if one,
with the state after the lookups and the recording of the failure. -/
def State.checkAccess (s : State) (cache unit p addr n : Nat) (write mirror : Bool) (aux : Nat := 0) : Option Nat × State :=
  (pagesOf addr n).foldl (fun (r : Option Nat × State) v =>
    match r.1 with
    | some c => (some c, r.2)
    | none =>
      let l := r.2.pmLookup cache v
      match l.2.accessCode l.1 (max addr (v * 65536)) p write mirror with
      | none => (none, l.2)
      | some c => (some c, l.2.accessFault c cache unit p (max addr (v * 65536)) write aux)) (none, s)

/-- The memory key of device address `a` through cache `cache`. -/
def State.keyOf (s : State) (cache a : Nat) : Nat :=
  pageKey (s.pmLookup cache (a / 65536)).1 (a % 65536)

/-- First key of the granule that carries check bits with key `k`: a 128-byte DRAM burst or a 64-bit word (R219, R224). -/
def granule (k : Nat) : Nat := if k < 2 ^ 40 then k - k % 128 else k - k % 8

/-- Bytes of the granule. -/
def granuleLen (k : Nat) : Nat := if k < 2 ^ 40 then 128 else 8

/-- The granules that a list of keys touches, each once. -/
def granulesOf (ks : List Nat) : List Nat := ks.foldl (fun l k => addOnce l (granule k)) []

/-- Captures the first uncorrected event of a stack in MEM_ECC_FIRST (KIND 0 read, 1 scrub, 2 narrow write, 3 lane erased). -/
def State.eccFirst (s : State) (stack kind chan lane ca : Nat) : State :=
  if s.on F.MEM_ECC_FIRST_VALID stack then s
  else
    ((((s.wr F.MEM_ECC_FIRST_VALID 1 stack).wr F.MEM_ECC_FIRST_KIND kind stack).wr F.MEM_ECC_FIRST_CHANNEL chan stack).wr
      F.MEM_ECC_FIRST_LANE lane stack).wr F.MEM_ECC_FIRST_BURST (ca / 128) stack

/-- A write leaves a granule poisoned where it covers only part of one: the report of R219 or R226. -/
def State.narrowWrite (s : State) (gk unit p : Nat) : State :=
  if gk < 2 ^ 40 then
    match s.chanOf gk with
    | none => s
    | some (st, ch, ca) =>
      (s.raise { cls := 0, level := 1, master := unit, access := 0x32, part := p, source := 0x40 + st, aux := ch, addr := ca }).eccFirst
        st 2 ch 0 ca
  else
    s.raise { cls := 0, level := 1, master := unit, access := 2, part := p,
              source := if gk < 2 ^ 48 then 0x50 + (gk - 2 ^ 44) / 2 ^ 29 / 4 else 0x30 + (gk - 2 ^ 48) / 2 ^ 20 / 17 }

/-! ### Caches (R216, R240 to R242) -/

/-- Before a write by another unit completes, every private copy of a line it touches is invalidated (R241). -/
def State.dropPriv (s : State) (ks : List Nat) : State :=
  if s.memx.priv.isEmpty then s
  else { s with memx := { s.memx with priv := s.memx.priv.filter (fun l => ks.all (fun k => k / 128 * 128 ≠ l.line)) } }

/-- Before a read by another unit completes, a modified private copy of a line it touches is fetched; its core then holds the line clean
(R241). -/
def State.fetchPriv (s : State) (ks : List Nat) : State :=
  if s.memx.priv.isEmpty then s
  else
    { s with memx := { s.memx with priv := s.memx.priv.map (fun l =>
        if ks.any (fun k => k / 128 * 128 = l.line) then { l with below := none } else l) } }

def pmUncached (e : Nat) : Bool := e.testBit 53

/-- The home slice of the line at key `line` among the slices of partition `p` (R216). -/
def State.homeSlice (s : State) (p line : Nat) : Option Nat :=
  let gs := s.groupsOf p
  gs[line / 128 % gs.length]?

/-- Whether accesses to the page of entry `e` use the cupola cache of its owner: a DRAM page, not UNCACHED, and C not 0 (R215, R216). -/
def State.cached (s : State) (e : Nat) : Bool :=
  decide (pmLoc e = 0) && !pmUncached e && (s.homeOf (pmOwner e)).any (fun g => decide (s.rd F.CUP_SPLIT_CACHE_UNITS g ≠ 0))

/-- Units that allocate lines: Belfry cores and turret units (R216). -/
def allocates (unit : Nat) : Bool := decide (unit = 0x59) || (decide (0x10 ≤ unit) && decide (unit < 0x20))

/-- The set of a line in its slice: 16 ways of 128 bytes in C units of 64 MiB (R216). -/
def State.cacheSet (s : State) (p g line : Nat) : Nat :=
  line / 128 / (s.groupsOf p).length % (s.rd F.CUP_SPLIT_CACHE_UNITS g * 32768)

/-- A line enters its set; where 16 lines are there, the oldest leaves and is written back if it is dirty (R216, R230; notes/assumptions/92.md). -/
def State.insertLine (s : State) (p g unit line : Nat) (dirty : Bool) : State :=
  let mine := s.memx.lines.filter (fun l => decide (l.g = g) && decide (s.cacheSet p g l.line = s.cacheSet p g line))
  let s := match mine.head?.filter (fun _ => decide (16 ≤ mine.length)) with
    | some old =>
      let s : State := { s with memx := { s.memx with lines := s.memx.lines.filter (fun l => l ≠ old) } }
      if old.dirty then s.regCharge p 1 unit 128 else s
    | none => s
  { s with memx := { s.memx with lines := s.memx.lines ++ [{ g := g, line := line, dirty := dirty }] } }

/-- `n` bytes of one line of partition `p`'s DRAM read or written by `unit`: a hit stays in the cache, an allocating unit fills and takes the
line, and everything else goes to the channel and draws its tokens (R216, R230). -/
def State.lineTraffic (s : State) (p unit line n : Nat) (write pool : Bool) : State :=
  match s.homeSlice p line with
  | none => s
  | some g =>
    if s.memx.lines.any (fun l => decide (l.line = line)) then
      (if write then { s with memx := { s.memx with lines := s.memx.lines.map (fun l =>
        if l.line = line then { l with dirty := true } else l) } } else s)
    else if allocates unit then ((if write ∧ n = 128 then s else s.regCharge p 0 unit 128 pool).insertLine p g unit line write)
    else s.regCharge p (if write then 1 else 0) unit n pool

/-- What an access of `n` bytes from `addr` by `unit` means for the caches and the regulators of the owner of each DRAM page it touches
(R216, R230). -/
def State.traffic (s : State) (cache unit addr n : Nat) (write : Bool) : State :=
  (pagesOf addr n).foldl (fun (s : State) v =>
    let e := (s.pmLookup cache v).1
    let lo := max addr (v * 65536)
    let hi := min (addr + n) ((v + 1) * 65536)
    let pool := decide (pmFrame e < 65536)
    if pmLoc e ≠ 0 then s
    else if s.cached e then
      (List.range ((hi - 1) / 128 - lo / 128 + 1)).foldl (fun (s : State) i =>
        let a := (lo / 128 + i) * 128
        s.lineTraffic (pmOwner e) unit (pageKey e (a % 65536)) (min hi (a + 128) - max lo a) write pool) s
    else s.regCharge (pmOwner e) (if write then 1 else 0) unit (hi - lo) pool) s

/-- Writes back every dirty line of partition `p`'s cupola cache and invalidates the cache (R218). -/
def State.flushCache (s : State) (p : Nat) : State :=
  let mine := s.memx.lines.filter (fun l => decide (s.partOf l.g = some p))
  let s := mine.foldl (fun (s : State) l => if l.dirty then s.regCharge p 1 0x50 128 else s) s
  { s with memx := { s.memx with lines := s.memx.lines.filter (fun l => decide (s.partOf l.g ≠ some p)) } }

/-! ### Bytes and poison -/

/-- Writes bytes at memory keys and settles the poison of each granule touched. -/
def State.putKeys (s : State) (unit p : Nat) (kb : List (Nat × Byte)) : State :=
  let s := s.dropPriv (kb.map (fun e => e.1))
  let s := { s with mem := kb.foldl (fun m e => memPut m e.1 e.2) s.mem }
  (granulesOf (kb.map (fun e => e.1))).foldl (fun s gk =>
    if gk ∈ s.memx.poison then
      if granuleLen gk ≤ (kb.filter (fun e => granule e.1 = gk)).length then
        { s with memx := { s.memx with poison := s.memx.poison.filter (fun x => x ≠ gk) } }
      else s.narrowWrite gk unit p
    else s) s

/-- A read of a bad granule: a poisoned DRAM burst is counted (R226), an uncorrected cupola word is counted and reported (R219). -/
def State.badRead (s : State) (gk unit p : Nat) : State :=
  if gk < 2 ^ 40 then
    match s.chanOf gk with
    | some (st, _, _) => s.inc F.MEM_ECC_POISON_READS st
    | none => s
  else if gk < 2 ^ 48 then
    let g := (gk - 2 ^ 44) / 2 ^ 29
    (s.inc F.CUP_ECC_UNCORRECTED g).raise { cls := 0, level := 1, master := unit, access := 1, part := p, source := 0x50 + g / 4, aux := g,
                                            addr := gk % 2 ^ 29 }
  else s

/-- A read of the bytes at memory keys by `unit` for partition `p`: whether any lies in a poisoned granule. -/
def State.readKeys (s : State) (unit p : Nat) (ks : List Nat) : Bytes × Bool × State :=
  let bad := (granulesOf ks).filter (fun gk => gk ∈ s.memx.poison)
  (ks.map (fun k => s.rdByte k), !bad.isEmpty, (bad.foldl (fun (s : State) gk => s.badRead gk unit p) s).fetchPriv ks)

/-! ### Copy-on-write (R212 to R214) -/

/-- Whether a write to the page of entry `e` must first copy it. -/
def State.cowInForce (s : State) (e : Nat) : Bool :=
  pmSnap e && pmCow e && decide (pmCut e = s.rd F.PGM_CUT_CUT (pmOwner e)) && s.on F.PGM_CUT_ACTIVE (pmOwner e)

/-- The cut-log frames and the copy frames of a partition's reserve (R213). -/
def State.logFrames (s : State) (p : Nat) : Nat := ceilDiv (s.rd F.PGM_RESERVE_FRAMES p) 4096

def State.copyFrames (s : State) (p : Nat) : Nat := s.rd F.PGM_RESERVE_FRAMES p - s.logFrames p

/-- The next free copy frame of partition `p`, if one is left. -/
def State.nextCopyFrame (s : State) (p : Nat) : Option Nat :=
  let used := s.rd F.PGM_CUT_COPIES p + (s.memx.cowCopies.filter (fun c => c.p = p)).length
  if used < s.copyFrames p then some (s.rd F.PGM_RESERVE_BASE_FRAME p + s.logFrames p + used) else none

/-- Copies the page of VPN `v` into `frame`, poison with it, appends the cut-log record, clears COW, sets DIRTY and counts the copy; the copy's
reads and writes are charged to the partition (R212, R213, R226, R241). -/
def State.cowCopy (s : State) (v p frame : Nat) : State :=
  let e := s.pmEntry v
  let data := (List.range 65536).map (fun k => (frame * 65536 + k, s.rdByte (pageKey e k)))
  let bad := (List.range 512).filter (fun b => s.memx.poison.contains (pageKey e (128 * b)))
  let log := s.rd F.PGM_RESERVE_BASE_FRAME p * 65536 + 16 * s.rd F.PGM_CUT_COPIES p
  let s := (s.fetchPriv ((List.range 512).map (fun b => pageKey e (128 * b)))).dropPriv ((List.range 512).map (fun b => frame * 65536 + 128 * b))
  let s := { s with
    mem := data.foldl (fun m (x : Nat × Byte) => memPut m x.1 x.2) s.mem,
    memx := { s.memx with
      poison := s.memx.poison.filter (fun k => !(decide (frame * 65536 ≤ k) && decide (k < (frame + 1) * 65536)))
        ++ bad.map (fun b => frame * 65536 + 128 * b) } }
  let s := (s.regCharge p 0 0x56 65536).regCharge p 1 0x56 65536
  let s := ((s.wrNat log 4 v).wrNat (log + 4) 4 frame).wrNat (log + 8) 8 s.now
  (s.pmUpdate v (fun e => setBitTo (setBitTo e 51 false) 48 true)).inc F.PGM_CUT_COPIES p

/-- Bytes stored at device address `addr` by an access that has passed its checks and finds no page copy in force. A written SNAP page is
DIRTY (R205). -/
def State.storeBytes (s : State) (cache unit p addr : Nat) (bytes : Bytes) : State :=
  let kb := (List.range bytes.length).map (fun k => (s.keyOf cache (addr + k), bytes.getD k 0))
  let s := s.putKeys unit p kb
  (pagesOf addr bytes.length).foldl (fun s v =>
    if pmSnap (s.pmEntry v) && !pmDirty (s.pmEntry v) then s.pmUpdate v (fun e => setBitTo e 48 true) else s) s

/-- The same with its traffic (R216, R230). -/
def State.storePlain (s : State) (cache unit p addr : Nat) (bytes : Bytes) : State :=
  (s.traffic cache unit addr bytes.length true).storeBytes cache unit p addr bytes

/-! ### Snapshot triggers and the end of a cut -/

/-- The snapshot engine of partition `p`. -/
def State.snap (s : State) (p : Nat) : SnapSt := agetD s.snp p {}

def State.setSnap (s : State) (p : Nat) (x : SnapSt) : State := { s with snp := aset s.snp p x }

/-- Raises trigger `b` of *Cut triggers* for partition `p` (0 INTERVAL, 1 MAX, 2 WARNING, 3 COMMAND). -/
def State.snapTrigger (s : State) (p b : Nat) : State := s.wrBit F.SNP_STATUS_PENDING b true p

/-- The end of a cut with a code of *Cut end codes* (R438). -/
def State.cutEnd (s : State) (p code : Nat) : State :=
  let s := ((s.wr F.PGM_CUT_ACTIVE 0 p).wr F.SNP_STATUS_LAST_CODE code p).wr F.SNP_STATUS_STATE 0 p
  s.setSnap p { s.snap p with drains := [] }

/-- The end code of a cut that stops part way: 06h where one of two mirrors is COMPLETE already (R438). -/
def State.stopCode (s : State) (p code : Nat) : Nat := if (s.snap p).drains.any (fun d => d.ended = some 0) then 6 else code

/-- The abort of a cut whose reserve is exhausted (R214, code 02h). -/
def State.cutAbort (s : State) (p : Nat) : State :=
  let s := s.wr F.PGM_CUT_ABORTED 1 p
  let s := s.raise { cls := 0, level := 1, master := 0x56, part := p, source := 0x56, code := 2 }
  s.cutEnd p (s.stopCode p 2)

/-- Whether the page of entry `e` lies in channels that retrain in a partition reset (R223). The device pool never does (R222). -/
def State.retrains (s : State) (e : Nat) : Bool :=
  decide (pmLoc e = 0) && (s.windowAt (pmFrame e * 65536)).any (fun w => decide (w.1 ≠ 255) && decide (s.rd F.HNG_STATUS_STATE w.1 = 3))

/-- Whether a write to VPN `v` waits: for the arming of its cut (R429), or for its channels (R223). -/
def State.pageWaits (s : State) (v : Nat) : Bool :=
  let e := s.pmEntry v
  (pmSnap e && (s.snap (pmOwner e)).arming) || s.retrains e

/-- Whether two accesses touch a common page. -/
def sharePage (a n b m : Nat) : Bool := (pagesOf a n).any (fun v => (pagesOf b m).contains v)

/-- Whether a write of `n` bytes at `addr` waits, for a page or behind a write held before it. -/
def State.writeWaits (s : State) (addr n : Nat) : Bool :=
  (pagesOf addr n).any s.pageWaits || s.memx.cowHolds.any (fun h => sharePage addr n h.addr h.bytes.length)

/-- Before a write to VPN `v` of a page that nobody is copying: the page is copied where a cut is in force on it (R212), or the cut aborts
where no copy frame is left (R214). -/
def State.cowNow (s : State) (v : Nat) : State :=
  let e := s.pmEntry v
  if s.cowInForce e then
    match s.nextCopyFrame (pmOwner e) with
    | some f => s.cowCopy v (pmOwner e) f
    | none => s.cutAbort (pmOwner e)
  else s

/-- The write `h` is performed. -/
def State.perform (s : State) (h : CowHold) : State :=
  ((pagesOf h.addr h.bytes.length).foldl State.cowNow s).storePlain 4 h.unit h.p h.addr h.bytes

/-- The write `h` joins the held writes. -/
def State.holdWrite (s : State) (h : CowHold) : State := { s with memx := { s.memx with cowHolds := s.memx.cowHolds ++ [h] } }

/-- Held writes whose pages wait no longer are performed, those of a page in their order. -/
def State.releaseHolds (s : State) : State :=
  s.memx.cowHolds.foldl (fun (s : State) h =>
    if (pagesOf h.addr h.bytes.length).any (fun v => s.memx.cowCopies.any (fun c => c.vpn = v)) || s.writeWaits h.addr h.bytes.length
    then s.holdWrite h else s.perform h) { s with memx := { s.memx with cowHolds := [] } }

/-- Ends the page copy of VPN `v`: the copy is made and the held writes are released (R212). -/
def State.finishCopy (s : State) (v : Nat) : State :=
  match s.memx.cowCopies.find? (fun c => c.vpn = v) with
  | none => s
  | some c =>
    (({ s with memx := { s.memx with cowCopies := s.memx.cowCopies.filter (fun x => x.vpn ≠ v) } } : State).cowCopy v c.p c.frame).releaseHolds

/-- A write of `bytes` at device address `addr` by `unit` of partition `p` through translation cache `cache`: the failing access check, if
one, or none with the bytes stored. `mirror` marks the twin mirror receive path. A copy of a page in progress ends first (R212). A write to a
page that waits is held (R223, R429); `who` is the function that posted it, where one did (R303). -/
def State.devWrite (s : State) (cache unit p addr : Nat) (bytes : Bytes) (mirror : Bool := false) (who : Option Fn := none) :
    Option Nat × State :=
  match s.checkAccess cache unit p addr bytes.length true mirror with
  | (some c, s) => (some c, s)
  | (none, s) =>
    let s := (pagesOf addr bytes.length).foldl State.finishCopy s
    if s.writeWaits addr bytes.length then (none, s.holdWrite { p := p, unit := unit, addr := addr, bytes := bytes, who := who })
    else (none, ((pagesOf addr bytes.length).foldl State.cowNow s).storePlain cache unit p addr bytes)

/-- A read of `n` bytes at device address `addr` that draws no tokens here: the failing access check, or the bytes with whether any is
poisoned. -/
def State.bareRead (s : State) (cache unit p addr n : Nat) : Option Nat × Bytes × Bool × State :=
  match s.checkAccess cache unit p addr n false false with
  | (some c, s) => (some c, [], false, s)
  | (none, s) =>
    let r := s.readKeys unit p ((List.range n).map (fun k => s.keyOf cache (addr + k)))
    (none, r.1, r.2.1, r.2.2)

/-- A read of `n` bytes at device address `addr`, with its traffic (R216, R230). -/
def State.devRead (s : State) (cache unit p addr n : Nat) : Option Nat × Bytes × Bool × State :=
  match s.bareRead cache unit p addr n with
  | (none, b, bad, s) => (none, b, bad, s.traffic cache unit addr n false)
  | r => r

/-- Bytes read from `addr` with the writes held for them laid over: what the unit that made those writes works on. -/
def State.withHeld (s : State) (addr : Nat) (b : Bytes) : Bytes :=
  s.memx.cowHolds.foldl (fun (b : Bytes) h =>
    b.zipIdx.map (fun x =>
      if h.addr ≤ addr + x.2 ∧ addr + x.2 < h.addr + h.bytes.length then h.bytes.getD (addr + x.2 - h.addr) 0 else x.1)) b

/-! ### Failure warnings (R406) -/

/-- Raises a failure warning of a cause bit for an instance, in a fault class and with a source, and requests a snapshot of each partition
in `ps`; at most one for a cause and instance in any 10 minutes. -/
def State.warn (s : State) (cause instance_ cls source : Nat) (ps : List Nat) : State :=
  if s.gal.warned.any (fun w => decide (w.1 = cause) && decide (w.2.1 = instance_) && decide (s.now < w.2.2 + 600000000000)) then s
  else
    let s := { s with gal := { s.gal with warned :=
      (cause, instance_, s.now) :: s.gal.warned.filter (fun w => !(decide (w.1 = cause) && decide (w.2.1 = instance_))) } }
    let s := ((s.wrBit F.GAL_WARN_CAUSE cause true).wr F.GAL_WARN_LAST_CAUSE cause).wr F.GAL_WARN_INSTANCE instance_
    let s := s.raise { cls := cls, level := 0, master := source, source := source, code := 0x130 + cause, aux := instance_ }
    ps.foldl (fun s p => s.snapTrigger p 2) s

/-- The partitions of the active image. -/
def State.partNums (s : State) : List Nat := s.parts.map (fun r => r.p)

/-! ### Reset requests and freezing (R450, R451) -/

/-- Freeze, collection and reset of partition `p`. -/
def State.hang (s : State) (p : Nat) : HangSt := agetD s.hng p {}

def State.setHang (s : State) (p : Nat) (x : HangSt) : State := { s with hng := aset s.hng p x }

/-- HNG_STATUS_p.STATE: 0 running, 1 frozen, 2 collecting, 3 resetting. -/
def State.hngState (s : State) (p : Nat) : Nat := s.rd F.HNG_STATUS_STATE p

/-- Partition `p` is resetting, from the request to step 5 (R373). -/
def State.resetting (s : State) (p : Nat) : Bool := decide (s.hngState p ≠ 0) && (s.hang p).resetAfter

/-- A progress event of partition `p` restarts its watchdog timer (R448). -/
def State.progress (s : State) (p : Nat) : State := s.setHang p { s.hang p with progress := s.now, ran := 0, mark := s.now }

/-- Whether the watchdog timer of partition `p` stands still (R449): an advance, the arming of a cut, a Campanile test of the
partition, or a full ledger. -/
def State.stillNow (s : State) (p : Nat) : Bool :=
  (s.homeOf p).any (fun g => s.on F.AG_NUM_ADVANCE_BUSY g) || (s.snap p).arming
    || s.gal.camp.any (fun c => c.p = p) || s.on F.LDG_STATUS_FULL p

/-- ns the watchdog timer of partition `p` has run by now. -/
def State.ranNow (s : State) (p : Nat) : Nat :=
  (s.hang p).ran + (if s.stillNow p then 0 else s.now - (s.hang p).mark)

/-- Brings the watchdog timer of partition `p` up to now; done before anything that makes it stand still begins or ends. -/
def State.settle (s : State) (p : Nat) : State := s.setHang p { s.hang p with ran := s.ranNow p, mark := s.now }

/-- The partition-reset notice reaches every target of partition `p`: PF0 vector 32 + p, the VF's vector 2, the Belfry cores (R245,
R246). -/
def State.notice (s : State) (p : Nat) : State :=
  (s.coresOf p).foldl (fun (s : State) n => s.coreVec n 2) (s.vecBoth (32 + p) 2 p)

/-- Ends a running Campanile test with RESULT 02h, aborted (R403); each array returns to its former role. -/
def State.campAbort (s : State) : State :=
  match s.gal.camp with
  | none => s
  | some c =>
    let s := s.settle c.p
    let s := c.roles.foldl (fun (s : State) e =>
      if s.rd F.SPR_STATUS_ROLE e.1 = 4 then (s.wr F.SPR_STATUS_ROLE e.2 e.1).stirred (e.1 / 17) else s) s
    let s := ((s.wr F.GAL_CAMP_RUNNING 0).wr F.GAL_CAMP_RESULT 2).wr F.GAL_CAMP_ELAPSED_MS
      (min ((s.now - c.beganAt) / 1000000) 65535)
    { s with gal := { s.gal with camp := none } }

/-- A request to reset partition `p` with a cause of *Reset causes*: it merges into one in progress, or freezes the partition (R450,
R451). `reset` is false for a collection alone (R449, DUMP_ONLY). -/
def State.requestReset (s : State) (p cause : Nat) (dump reset : Bool) (faultSeq : Nat := 0) : State :=
  if s.hngState p ≠ 0 then
    let s := s.inc F.HNG_STATUS_MERGED p
    s.setHang p { s.hang p with resetAfter := (s.hang p).resetAfter || reset }
  else
    let s := s.setHang p { s.hang p with
      req := some (cause, s.now), dump := dump, resetAfter := reset, faultSeq := faultSeq, todo := [], done := [] }
    let s := if s.gal.camp.any (fun c => c.p = p) then s.campAbort else s
    (s.wr F.HNG_STATUS_STATE 1 p).notice p

end Sys2Proof.Machine
end

