-- ==== Sys2Proof/Machine/Digest.lean ====
section
/-!
DEFINITION. Sys2Proof/Machine/Digest.lean: the digest of the manual, SHAKE256 with 32 bytes of output (R462, FIPS 202), and the CRC-32C of
fabric frames (R330).
-/

namespace Sys2Proof.Machine

/-! ### The permutation of FIPS 202 on five planes of five 64-bit lanes -/

/-- Lanes of a plane or columns turned `n` places: entry x of the result is entry x + n. -/
def turned (n : Nat) (l : List Nat) : List Nat := l.drop n ++ l.take n

/-- A lane multiplied by 2^n modulo 2^64 - 1: its bits move `n` places up and around. -/
def spun (n v : Nat) : Nat := v * 2 ^ n % 2 ^ 64 + v / 2 ^ (64 - n)

/-- Lane-wise sum of two planes over GF(2). -/
def plusRow (u v : List Nat) : List Nat := List.zipWith (fun m n => m ^^^ n) u v

/-- The walk of the rho step: the t-th lane it meets, column first, from (1, 0). -/
def rhoWalk : Nat → Nat → Nat → List (Nat × Nat)
  | 0, _, _ => []
  | t + 1, x, y => (x, y) :: rhoWalk t y ((2 * x + 3 * y) % 5)

/-- How far each lane spins, by plane: lane t of the walk by the t-th triangle number from 1, lane (0, 0) not at all. -/
def spins : List (List Nat) :=
  (List.range 5).map (fun y => (List.range 5).map (fun x =>
    match (rhoWalk 24 1 0).findIdx? (fun q => q = (x, y)) with
    | some t => (t + 1) * (t + 2) / 2 % 64
    | none => 0))

/-- The bits rc(t) of the iota step, from a shift register with feedback polynomial x^8 + x^6 + x^5 + x^4 + 1. -/
def feedbackBits : Nat → Nat → List Nat
  | 0, _ => []
  | t + 1, v => v % 2 :: feedbackBits t (if v < 128 then 2 * v else (2 * v) ^^^ 0x171)

/-- What the iota step adds in each round: bit 2^j - 1 is rc(j + 7 * round). -/
def iotas : List Nat :=
  let rc := feedbackBits 168 1
  (List.range 24).map (fun r => ((List.range 7).map (fun j => rc.getD (7 * r + j) 0 * 2 ^ (2 ^ j - 1))).sum)

/-- Theta: each lane takes in the parities of the columns beside its own. -/
def theta (a : List (List Nat)) : List (List Nat) :=
  let parity := a.foldl plusRow (List.replicate 5 0)
  a.map (plusRow (plusRow (turned 4 parity) ((turned 1 parity).map (spun 1))))

/-- Rho and pi: each lane spins, and column X of plane Y comes from plane X. -/
def rhoPi (a : List (List Nat)) : List (List Nat) :=
  let r := List.zipWith (fun (row ns : List Nat) => List.zipWith (fun v n => spun n v) row ns) a spins
  (List.range 5).map (fun y => (r.zipIdx.map (fun p => p.1.getD ((p.2 + 3 * y) % 5) 0)))

/-- Chi: within a plane each lane is changed by the next two. -/
def chi (row : List Nat) : List Nat :=
  plusRow row (List.zipWith (fun m n => n - (m &&& n)) (turned 1 row) (turned 2 row))

/-- One round, with the lane that iota adds to lane (0, 0). -/
def sponge (a : List (List Nat)) (iota : Nat) : List (List Nat) :=
  match (rhoPi (theta a)).map chi with
  | (v :: row) :: rest => ((v ^^^ iota) :: row) :: rest
  | other => other

/-- A block of 17 lanes as planes. -/
def blockPlanes (blk : Bytes) : List (List Nat) :=
  (List.range 5).map (fun y => (List.range 5).map (fun x => leAt blk (8 * (5 * y + x)) 8))

/-- `n` blocks of 136 bytes taken in by the sponge, one after the other. -/
def takeBlocks : Nat → Bytes → List (List Nat) → List (List Nat)
  | 0, _, a => a
  | n + 1, m, a => takeBlocks n (m.drop 136) (iotas.foldl sponge (List.zipWith plusRow a (blockPlanes (m.take 136))))

/-- SHAKE256 with 32 bytes of output: the message, the suffix 1111b and the padding 10*1 to whole blocks, the first four lanes. -/
def shake256 (m : Bytes) : Bytes :=
  let blocks := m.length / 136 + 1
  let gap := blocks * 136 - m.length
  let tail := (natLe gap 0x1F).zipIdx.map (fun x => if x.2 + 1 = gap then x.1 ||| 0x80 else x.1)
  let a := takeBlocks blocks (m ++ tail) (List.replicate 5 (List.replicate 5 0))
  ((a.head?.getD []).take 4).flatMap (natLe 8)

/-! ### CRC-32C (Castagnoli), reflected, initial value and final inversion all ones -/

/-- One bit of the reflected division. -/
def crcBit (c : Nat) : Nat := if c % 2 = 1 then (c / 2) ^^^ 0x82F63B78 else c / 2

/-- One byte. -/
def crcByte (c : Nat) (b : Byte) : Nat :=
  (List.range 8).foldl (fun c _ => crcBit c) (c ^^^ b.toNat)

/-- CRC-32C of a byte string. -/
def crc32c (m : Bytes) : Nat := m.foldl crcByte 0xFFFFFFFF ^^^ 0xFFFFFFFF

end Sys2Proof.Machine
end

