-- ==== Sys2Proof/Machine/Image.lean ====
section
/-!
DEFINITION. Sys2Proof/Machine/Image.lean: Denvis images (spec/11): parsing, the checks of R265 in their order, and the register fields an
image loads.
-/

namespace Sys2Proof.Machine

/-- A failing check: code, section, record (R265). -/
abbrev ImgErr := Nat × Nat × Nat

/-- Record size of a section type (R252). -/
def recSize (ty : Nat) : Nat :=
  [0, 16, 32, 4, 136, 32, 64, 64, 16, 8, 64, 32, 32, 16, 8].getD ty 0

/-- One section of an image: its type and its records' bytes. -/
abbrev Section := Nat × List Bytes

/-- The records of a section of `n` records of `sz` bytes. -/
def recordsOf (b : Bytes) (off sz n : Nat) : List Bytes := (List.range n).map (fun k => slice b (off + k * sz) sz)

/-- One section-directory entry: type, version, offset, length, records. -/
def dirEntry (b : Bytes) (k : Nat) : Nat × Nat × Nat × Nat × Nat :=
  let o := 128 + 16 * k
  (leAt b o 2, leAt b (o + 2) 1, leAt b (o + 4) 4, leAt b (o + 8) 4, leAt b (o + 12) 2)

/-- The header fields. -/
def hdrOf (b : Bytes) : ImgHdr :=
  { kind := leAt b 6 1, keySlot := leAt b 7 1, total := leAt b 8 4, patchPart := leAt b 14 1, secVersion := leAt b 28 4,
    minFw := leAt b 32 4, patchSeq := leAt b 36 4, imageId := leAt b 40 8, baseId := leAt b 48 8, devDigest := slice b 56 32 }

/-- Header and directory as R250 and R251 require (code 01h), for an image of kind `kind`. -/
def headerOk (b : Bytes) (kind : Nat) : Bool :=
  let h := hdrOf b
  let n := leAt b 12 2
  decide (slice b 0 4 = ascii "DNVS") && decide (leAt b 4 1 = 1) && decide (leAt b 5 1 = 0) && decide (h.kind = kind)
    && decide (h.total % 16 = 0) && decide (h.total ≤ 262144) && decide (1 ≤ n) && decide (n ≤ 32)
    && decide (128 + 16 * n + 2832 ≤ h.total) && decide (h.total ≤ b.length)
    && decide (leAt b 15 1 = 0) && decide (leAt b 26 2 = 0) && allZero (slice b 88 40)
    && (kind = 2 || (decide (h.patchSeq = 0) && decide (h.patchPart = 0) && decide (h.baseId = 0)))
    && (kind = 3 || allZero h.devDigest)
    && decide (leAt b (h.total - 2832) 4 = h.keySlot) && allZero (slice b (h.total - 2828) 8)

/-- Section types whose presence is well formed: 01h to 0Dh in a structure image, 0Eh alone in a trim image, any in a patch, where R261 judges
those it may not hold (R252). -/
def typeOk (kind ty : Nat) : Bool :=
  if kind = 3 then decide (ty = 14) else decide (1 ≤ ty) && decide (ty ≤ if kind = 2 then 14 else 13)

/-- The directory entries are well formed, aligned, inside the section area, one of each type and disjoint (R251). -/
def directoryOk (b : Bytes) (kind : Nat) : Bool :=
  let n := leAt b 12 2
  let es := (List.range n).map (dirEntry b)
  let last := leAt b 8 4 - 2832
  (List.range n).all (fun k => decide (leAt b (128 + 16 * k + 3) 1 = 0) && decide (leAt b (128 + 16 * k + 14) 2 = 0))
    && es.all (fun e => typeOk kind e.1 && decide (e.2.1 = 1) && decide (e.2.2.1 % 16 = 0)
        && decide (e.2.2.2.1 = e.2.2.2.2 * recSize e.1) && decide (128 + 16 * n ≤ e.2.2.1) && decide (e.2.2.1 + e.2.2.2.1 ≤ last))
    && decide ((es.map (fun e => e.1)).Nodup)
    && decide (es.Pairwise (fun a c => a.2.2.1 + a.2.2.2.1 ≤ c.2.2.1 ∨ c.2.2.1 + c.2.2.2.1 ≤ a.2.2.1))

/-- The sections. -/
def sectionsOf (b : Bytes) : List Section :=
  (List.range (leAt b 12 2)).map (fun k =>
    let e := dirEntry b k
    (e.1, recordsOf b e.2.2.1 (recSize e.1) e.2.2.2.2))

/-- The records of one type. -/
def recsOf (ss : List Section) (ty : Nat) : List Bytes :=
  match ss.find? (fun x => x.1 = ty) with
  | some x => x.2
  | none => []

/-- The reserved byte ranges of a record: offset and length. -/
def reservedOf (ty : Nat) : List (Nat × Nat) :=
  match ty with
  | 1 => [(1, 1), (10, 6)]
  | 2 => [(2, 2), (20, 12)]
  | 3 => [(2, 2)]
  | 4 => [(2, 6)]
  | 5 => [(1, 7)]
  | 6 => [(44, 20)]
  | 7 => [(3, 1), (20, 44)]
  | 8 => [(12, 4)]
  | 9 => [(3, 5)]
  | 10 => [(1, 1), (32, 32)]
  | 11 => [(1, 3), (20, 12)]
  | 12 => [(5, 1), (9, 1), (13, 3)]
  | 13 => [(6, 10)]
  | 14 => [(3, 1)]
  | _ => []

/-- First record of a section with a non-zero reserved byte. -/
def reservedBad (ss : List Section) : Option ImgErr :=
  ss.findSome? (fun x =>
    (x.2.findIdx? (fun r => (reservedOf x.1).any (fun z => !allZero (slice r z.1 z.2)))).map (fun k => (1, x.1, k)))

/-- The parsed image. -/
def parseImage (b : Bytes) : Image :=
  let ss := sectionsOf b
  { hdr := hdrOf b
    types := ss.map (fun x => x.1)
    parts := (recsOf ss 1).map (fun r => { p := leAt r 0 1, agSet := leAt r 2 2, cores := leAt r 4 6 })
    spares := (recsOf ss 2).map (fun r =>
      { g := leAt r 0 1, spareJ := leAt r 1 1, map := (List.range 16).map (fun k => leAt r (4 + k) 1) })
    cups := (recsOf ss 3).map (fun r => { p := leAt r 0 1, c := leAt r 1 1 })
    chans := (recsOf ss 4).map (fun r => { p := leAt r 0 1, granule := leAt r 1 1, chans := leAt r 8 128 })
    regs := (recsOf ss 5).map (fun r =>
      { p := leAt r 0 1, rate := [leAt r 8 4, leAt r 16 4, leAt r 24 4], depth := [leAt r 12 4, leAt r 20 4, leAt r 28 4] })
    clocks := (recsOf ss 6).map (fun r =>
      { agMhz := (List.range 16).map (fun k => leAt r (2 * k) 2), bfyMhz := leAt r 32 2, capW := leAt r 34 2,
        cgIdleUs := leAt r 36 4, pgIdleUs := leAt r 40 4 })
    fabs := (recsOf ss 7).map (fun r => { address := leAt r 0 2, addrMode := leAt r 2 1, routeSeed := leAt r 4 8, roles := leAt r 12 8 })
    eths := (recsOf ss 8).map (fun r =>
      { port := leAt r 0 1, p := leAt r 1 1, qpFirst := leAt r 2 1, qpCount := leAt r 3 1, mac := leAt r 4 6, vlan := leAt r 10 2 })
    nums := (recsOf ss 9).map (fun r => { p := leAt r 0 1, shapes := leAt r 1 1, classes := leAt r 2 1 })
    snaps := (recsOf ss 10).map (fun r =>
      { p := leAt r 0 1, minCut := leAt r 2 2, maxCut := leAt r 4 4, intervalMs := leAt r 8 4, drainRate := leAt r 12 4,
        shardPages := leAt r 16 4, resBase := leAt r 20 4, resFrames := leAt r 24 4, stepUsMin := leAt r 28 4 })
    leds := (recsOf ss 11).map (fun r => { p := leAt r 0 1, base := leAt r 4 4, frames := leAt r 8 4, bytesPerStep := leAt r 12 8 })
    twins := (recsOf ss 12).map (fun r =>
      { p := leAt r 0 1, mirrors := leAt r 1 1, twinDev := leAt r 2 2, twinPart := leAt r 4 1, secDev := leAt r 6 2,
        secPart := leAt r 8 1, srcDev := leAt r 10 2, srcPart := leAt r 12 1, partnerPages := leAt r 16 4, mirFrames := leAt r 20 4,
        mir1 := leAt r 24 4, mir2 := leAt r 28 4 })
    dets := (recsOf ss 13).map (fun r =>
      { p := leAt r 0 1, goal := leAt r 1 1, horizon := leAt r 2 2, targetExp := leAt r 4 1, echoCeil := leAt r 5 1 })
    trims := (recsOf ss 14).map (fun r => { target := leAt r 0 2, param := leAt r 2 1, value := leAt r 4 4 }) }

/-! ### Section presence and record counts (R252, code 01h) -/

/-- The array groups the partitions hold. -/
def groupsOfParts (ps : List PartRec) : List Nat := below 16 (fun g => ps.any (fun r => r.agSet.testBit g))

/-- The partition numbers of the records of a per-partition section run in ascending order. -/
def ascending (l : List Nat) : Bool := decide (l.Pairwise (fun a b => a < b))

/-- Presence, counts and order of the sections of a structure image. -/
def countsBad (im : Image) : Option ImgErr :=
  let ps := im.parts.map (fun r => r.p)
  let each := fun (l : List Nat) => decide (l = ps)
  let some_ := fun (l : List Nat) => ascending l && l.all (fun p => p ∈ ps)
  let e := fun (ty : Nat) (ok : Bool) => if ok then none else some ((1, ty, 0) : ImgErr)
  [e 1 (1 ≤ im.parts.length && im.parts.length ≤ 16 && ascending ps),
   e 2 (decide (im.spares.map (fun r => r.g) = groupsOfParts im.parts)),
   e 3 (each (im.cups.map (fun r => r.p))), e 4 (each (im.chans.map (fun r => r.p))), e 5 (each (im.regs.map (fun r => r.p))),
   e 6 (im.clocks.length = 1), e 7 (im.fabs.length = 1), e 8 (im.eths.length ≤ 128), e 9 (each (im.nums.map (fun r => r.p))),
   e 10 (some_ (im.snaps.map (fun r => r.p))), e 11 (some_ (im.leds.map (fun r => r.p))),
   e 12 (some_ (im.twins.map (fun r => r.p))), e 13 (each (im.dets.map (fun r => r.p)))].findSome? id

/-- The records of a patch's sections run in ascending order (R251). -/
def orderBad (im : Image) : Option ImgErr :=
  let e := fun (ty : Nat) (l : List Nat) => if ascending l then none else some ((1, ty, 0) : ImgErr)
  [e 1 (im.parts.map (fun r => r.p)), e 2 (im.spares.map (fun r => r.g)), e 3 (im.cups.map (fun r => r.p)), e 4 (im.chans.map (fun r => r.p)),
   e 5 (im.regs.map (fun r => r.p)), e 9 (im.nums.map (fun r => r.p)), e 10 (im.snaps.map (fun r => r.p)), e 11 (im.leds.map (fun r => r.p)),
   e 12 (im.twins.map (fun r => r.p)), e 13 (im.dets.map (fun r => r.p))].findSome? id

/-! ### Ranges (R253, code 06h) -/

/-- First element that breaks `ok`, as a range error of section `ty`. -/
def rangeBad {α : Type} (ty : Nat) (l : List α) (ok : α → Bool) : Option ImgErr :=
  (l.findIdx? (fun x => !ok x)).map (fun k => (6, ty, k))

/-- The range check of R253 in section order; `parts` are the partitions whose groups the CLOCK record serves. -/
def rangesBad (im : Image) (parts : List PartRec) (patch : Bool) : Option ImgErr :=
  let inPart := fun (g : Nat) => parts.any (fun r => r.agSet.testBit g)
  [rangeBad 1 (im.parts.zipIdx) (fun x =>
      (if patch then decide (x.1.p < 16) else decide (x.1.p = x.2)) && decide (x.1.agSet ≠ 0)),
   rangeBad 2 im.spares (fun r => decide (r.g < 16) && (decide (r.spareJ ≤ 16) || decide (r.spareJ = 31))
      && r.map.all (fun m => decide (bits m 5 2 = 0) && (!m.testBit 7 || decide (bits m 0 5 ≤ 16)))),
   rangeBad 3 im.cups (fun r => decide (r.p < 16) && decide (r.c ≤ 6)),
   rangeBad 4 im.chans (fun r => decide (r.p < 16) && decide (r.granule ≤ 2)),
   rangeBad 5 im.regs (fun r => decide (r.p < 16) && r.rate.all (fun x => decide (1 ≤ x) && decide (x ≤ 262143))
      && r.depth.all (fun x => decide (x ≤ 4194303))),
   rangeBad 6 im.clocks (fun r =>
      r.agMhz.zipIdx.all (fun x => if inPart x.2 then decide (1000 ≤ x.1) && decide (x.1 ≤ 2500) && decide (x.1 % 50 = 0)
        else decide (x.1 = 0))
      && decide (400 ≤ r.bfyMhz) && decide (r.bfyMhz ≤ 3200) && decide (r.bfyMhz % 100 = 0) && decide (1500 ≤ r.capW)
      && decide (r.capW ≤ 4000) && decide (1 ≤ r.cgIdleUs) && decide (r.cgIdleUs ≤ 1000000) && decide (r.cgIdleUs ≤ r.pgIdleUs)
      && decide (r.pgIdleUs ≤ 60000000)),
   rangeBad 7 im.fabs (fun r => decide (r.addrMode ≤ 1) && (List.range 32).all (fun i => decide (bits r.roles (2 * i) 2 ≤ 1))),
   rangeBad 8 im.eths (fun r => decide (r.port ≤ 1) && decide (r.p < 16) && decide (1 ≤ r.qpCount)
      && decide (r.qpFirst + r.qpCount ≤ 64) && decide (r.vlan < 2 ^ 13)
      && (!r.vlan.testBit 12 || decide (bits r.vlan 0 12 = 0))),
   rangeBad 9 im.nums (fun r => decide (r.p < 16) && decide (r.shapes < 32) && decide (r.classes < 16)),
   rangeBad 10 im.snaps (fun r => decide (r.p < 16) && decide (1 ≤ r.minCut) && decide (r.minCut ≤ r.maxCut)
      && decide (r.maxCut ≤ 1000000) && decide (1000 ≤ r.intervalMs) && decide (r.intervalMs ≤ 3600000)
      && decide (1 ≤ r.stepUsMin)),
   rangeBad 11 im.leds (fun r => decide (r.p < 16)),
   rangeBad 12 im.twins (fun r => decide (r.p < 16) && (decide (r.mirrors = 1) || decide (r.mirrors = 2))
      && (decide (r.mirrors = 2) || (decide (r.secDev = 0) && decide (r.secPart = 0) && decide (r.srcDev = 0) && decide (r.srcPart = 0)
          && decide (r.mir2 = 0)))),
   rangeBad 13 im.dets (fun r => decide (r.p < 16) && decide (bits r.goal 1 6 = 0) && decide (1 ≤ r.horizon) && decide (r.horizon ≤ 256)
      && (if r.goal.testBit 0 then decide (3 ≤ r.targetExp) && decide (r.targetExp ≤ 8) else decide (r.targetExp = 0))
      && decide (1 ≤ r.echoCeil) && decide (r.echoCeil ≤ 50)),
   rangeBad 14 im.trims (fun r => decide (bits r.target 12 4 ≤ 5))].findSome? id

/-! ### Consistency rules (R254, R255; codes 07h to 11h) -/

/-- Channels of a partition. -/
def Image.chansOf (im : Image) (p : Nat) : Nat := ((im.chans.find? (fun r => r.p = p)).map (fun r => popCount r.chans 1024)).getD 0

/-- Base of partition p's window in GiB: windows run in ascending p from 4 GiB (R222). -/
def Image.windowBase (im : Image) (p : Nat) : Nat :=
  4 + ((im.chans.filter (fun r => r.p < p)).map (fun r => popCount r.chans 1024)).sum

/-- Ports of role FABRIC. -/
def Image.portsUp (im : Image) : Nat :=
  match im.fabs with
  | f :: _ => (below 32 (fun i => decide (bits f.roles (2 * i) 2 = 1))).length
  | [] => 0

/-- Whether the image brings up port `i`. -/
def Image.portUp (im : Image) (i : Nat) : Bool :=
  match im.fabs with
  | f :: _ => decide (bits f.roles (2 * i) 2 = 1)
  | [] => false

/-- The reserve, ledger and mirror runs: section, record, partition, first frame, frames. -/
def Image.runs (im : Image) : List (Nat × Nat × Nat × Nat × Nat) :=
  im.snaps.zipIdx.map (fun x => (10, x.2, x.1.p, x.1.resBase, x.1.resFrames))
    ++ im.leds.zipIdx.map (fun x => (11, x.2, x.1.p, x.1.base, x.1.frames))
    ++ im.twins.zipIdx.flatMap (fun x => (12, x.2, x.1.p, x.1.mir1, x.1.mirFrames)
        :: (if x.1.mirrors = 2 then [(12, x.2, x.1.p, x.1.mir2, x.1.mirFrames)] else []))

/-- A run lies wholly in its partition's window or in the device pool. -/
def Image.runPlaced (im : Image) (p base n : Nat) : Bool :=
  let b := im.windowBase p * 16384
  (decide (b ≤ base) && decide (base + n ≤ b + im.chansOf p * 16384)) || (decide (8192 ≤ base) && decide (base + n ≤ 65536))

/-- The retention rule R255 for one SNAPSHOT record. -/
def Image.retention (im : Image) (r : SnapRec) : Bool :=
  let h := ((im.dets.find? (fun d => d.p = r.p)).map (fun d => d.horizon)).getD 0
  let ledOk := match im.leds.find? (fun l => l.p = r.p) with
    | none => true
    | some l =>
      let d := ceilDiv (r.shardPages * 1024) (r.drainRate * r.stepUsMin)
      let w := 2 * max r.maxCut d + d
      decide (l.bytesPerStep * w ≤ l.frames * 65536)
  decide (h + 1 ≤ r.minCut) && decide (r.minCut ≤ r.maxCut)
    && decide (r.shardPages * 1024 ≤ r.intervalMs * 1000 * r.drainRate)
    && decide (r.shardPages ≤ r.resFrames - ceilDiv r.resFrames 4096) && ledOk

/-- Slot length L of a mirror run (R254, code 11h). -/
def slotLen (pages : Nat) : Nat := pages + 33 + ceilDiv (4 * pages) 65536

/-- The first record that does not agree with some record before it. -/
def clashAt {α : Type} (agree : α → α → Bool) (l : List α) : Option Nat :=
  (l.zipIdx.find? (fun x => !(l.take x.2).all (fun y => agree y x.1))).map (fun x => x.2)

/-- The first record with which a running sum exceeds `limit`. -/
def sumExceeds (limit : Nat) (l : List Nat) : Option Nat :=
  (List.range l.length).find? (fun k => decide (limit < (l.take (k + 1)).sum))

/-- First consistency rule broken. A rule between records names the first record that breaks it with those before it
(notes/assumptions/104.md). -/
def consistencyBad (im : Image) : Option ImgErr :=
  let e := fun (c ty : Nat) (k : Option Nat) => k.map (fun k => ((c, ty, k) : ImgErr))
  let at_ := fun {α : Type} (c ty : Nat) (l : List α) (ok : α → Bool) =>
    (l.findIdx? (fun x => !ok x)).map (fun k => ((c, ty, k) : ImgErr))
  let regOf := fun (p : Nat) => im.regs.find? (fun r => r.p = p)
  [e 7 1 (clashAt (fun a b => decide (a.agSet &&& b.agSet = 0) && decide (a.cores &&& b.cores = 0)) im.parts),
   at_ 8 2 im.spares (fun r =>
      let js := (r.map.filter (fun m => m.testBit 7)).map (fun m => bits m 0 5)
      decide (js.Nodup) && !(r.spareJ ∈ js)),
   at_ 10 4 im.chans (fun r => bits r.chans 0 4 = 0), e 10 4 (clashAt (fun a b => a.chans &&& b.chans = 0) im.chans),
   at_ 11 5 im.regs (fun r => decide (r.rate.getD 0 0 + r.rate.getD 1 0 ≤ 200 * im.chansOf r.p)
      && (List.range 3).all (fun k => decide (max 64 (r.rate.getD k 0) ≤ r.depth.getD k 0)
          && decide (r.depth.getD k 0 ≤ 16 * r.rate.getD k 0))),
   (if im.portsUp = 0 then none else e 11 5 (sumExceeds (3125 * im.portsUp) (im.regs.map (fun r => r.rate.getD 2 0)))),
   at_ 11 10 im.snaps (fun r => decide (r.drainRate ≤ ((regOf r.p).map (fun x => x.rate.getD 2 0)).getD 0)),
   (im.runs.find? (fun r => !im.runPlaced r.2.2.1 r.2.2.2.1 r.2.2.2.2)).map (fun r => (12, r.1, r.2.1)),
   ((clashAt (fun a b => decide (a.2.2.2.1 + a.2.2.2.2 ≤ b.2.2.2.1) || decide (b.2.2.2.1 + b.2.2.2.2 ≤ a.2.2.2.1)) im.runs).bind
      (fun k => im.runs[k]?)).map (fun r => (12, r.1, r.2.1)),
   at_ 13 7 im.fabs (fun f => decide (f.addrMode = 0) || decide (f.address ≠ 65535)),
   e 14 8 (clashAt (fun a b =>
      decide (a.port ≠ b.port)
        || ((if a.p = b.p then decide (a.qpFirst = b.qpFirst) && decide (a.qpCount = b.qpCount)
             else decide (a.qpFirst + a.qpCount ≤ b.qpFirst) || decide (b.qpFirst + b.qpCount ≤ a.qpFirst))
            && decide ((a.mac, a.vlan) ≠ (b.mac, b.vlan)))) im.eths),
   at_ 15 9 im.nums (fun r => decide (bits r.shapes 0 4 ≠ 0) && !(r.classes.testBit 3 && r.classes.testBit 0)
      && (!r.classes.testBit 2 || r.classes.testBit 1)),
   at_ 16 10 im.snaps im.retention,
   at_ 17 12 im.twins (fun r => decide (slotLen r.partnerPages ≤ r.mirFrames) && im.snaps.any (fun x => x.p = r.p)
      && im.leds.any (fun x => x.p = r.p) && (decide (r.mirrors = 1) || decide (r.twinDev ≠ r.secDev)))].findSome? id

/-! ### Signatures and versions (R463, R469) -/

/-- The verification key a KEY_SLOT names, if it is allowed: an unrevoked vendor root, or the enrolled owner. -/
def State.keyFor (s : State) (slot : Nat) : Option VKey :=
  if slot < 4 then (if s.sec.flash.revoked.testBit slot then none else some (.root slot))
  else if slot = 128 then s.sec.flash.ownerKey.map (fun k => .owner k) else none

/-- Whether a signature verifies over a message under a key (R462): the model's field SecSt.genuine says which triples do. -/
def State.verifies (s : State) (k : VKey) (msg sig : Bytes) : Bool := decide ((k, msg, sig) ∈ s.sec.genuine)

/-- The signed bytes and the signature of an image of `n` bytes. -/
def imgMsg (b : Bytes) : Bytes := b.take (leAt b 8 4 - 2832)

def imgSig (b : Bytes) : Bytes := slice b (leAt b 8 4 - 2820) 2820

/-- The identity digest (R464). -/
def State.idDigest (s : State) : Bytes := shake256 s.sec.flash.idKey

/-- Version of the running firmware, [31:16] major, [15:0] minor. -/
def State.fwVersion (s : State) : Nat := (s.sec.fw.map (fun f => f.version)).getD 0

/-- Codes 01h to 06h of R265 for an image of kind `kind`. -/
def State.check01to06 (s : State) (b : Bytes) (kind : Nat) : Option ImgErr :=
  if !headerOk b kind || !directoryOk b kind then some (1, 0, 0)
  else
    let im := parseImage b
    match reservedBad (sectionsOf b) with
    | some e => some e
    | none =>
      match (if kind = 1 then countsBad im
             else if kind = 3 then (if im.trims.length = 0 ∨ 8192 < im.trims.length then some (1, 14, 0) else none)
             else orderBad im) with
      | some e => some e
      | none =>
        if slice b 16 8 ≠ ascii "VGL-IL9T" ∨ slice b 24 2 ≠ ascii "B0" ∨ (kind = 3 ∧ im.hdr.devDigest ≠ s.idDigest) then some (2, 0, 0)
        else
          match (if kind = 3 ∧ im.hdr.keySlot = 128 then none else s.keyFor im.hdr.keySlot) with
          | none => some (3, 0, 0)
          | some k =>
            if !s.verifies k (imgMsg b) (imgSig b) then some (3, 0, 0)
            else
              let ctr := match kind with
                | 1 => s.sec.flash.imgSv
                | 2 => s.sec.flash.patchSv
                | _ => s.sec.flash.trimSv
              if im.hdr.secVersion < ctr then some (4, 0, 0)
              else if s.fwVersion < im.hdr.minFw then some (5, 0, 0)
              else rangesBad im (if kind = 2 then ((s.img.act.map (fun (a : Image) => a.parts)).getD []) ++ im.parts else im.parts) (kind = 2)

/-- MGT_IMAGE_STATUS after a check (R259). -/
def State.imgStatus (s : State) (kind slot part : Nat) (e : ImgErr) : State :=
  (((((s.wr F.MGT_IMAGE_STATUS_PARTITION part).wr F.MGT_IMAGE_STATUS_KIND kind).wr F.MGT_IMAGE_STATUS_RECORD e.2.2).wr
    F.MGT_IMAGE_STATUS_SECTION e.2.1).wr F.MGT_IMAGE_STATUS_SLOT slot).wr F.MGT_IMAGE_STATUS_RESULT e.1

/-- Code 14h: a partition or spare on an absent group or array (R11, R40), an assigned absent channel, or an absent device channel (R221), which
no section names. -/
def hardwareBad (im : Image) (absentPairs failedArrays failedChannels : List Nat) : Option ImgErr :=
  let e := fun {α : Type} (ty : Nat) (l : List α) (bad : α → Bool) => (l.findIdx? bad).map (fun k => ((0x14, ty, k) : ImgErr))
  [e 1 im.parts (fun r => absentPairs.any (fun d => (List.range 4).any (fun k => r.agSet.testBit (4 * d + k)))),
   e 2 im.spares (fun r => (decide (r.spareJ ≤ 16) && decide (17 * r.g + r.spareJ ∈ failedArrays))
      || r.map.any (fun m => m.testBit 7 && decide (17 * r.g + bits m 0 5 ∈ failedArrays))),
   e 4 im.chans (fun r => failedChannels.any (fun c => r.chans.testBit c)),
   (if failedChannels.any (fun c => c < 4) then some (0x14, 0, 0) else none)].findSome? id

/-! ### Loading registers (R258 step 6) -/

/-- Roles, map and spare of one array group. A physical array that the image neither maps nor names is QUARANTINED, one that failed or
whose pair is absent is ABSENT (R40, R41). -/
def State.loadSpare (s : State) (r : SpareRec) (failed : List Nat) : State :=
  let g := r.g
  let mapF := [F.AG_MAP_LO_MAP0, F.AG_MAP_LO_MAP1, F.AG_MAP_LO_MAP2, F.AG_MAP_LO_MAP3, F.AG_MAP_LO_MAP4, F.AG_MAP_LO_MAP5,
    F.AG_MAP_LO_MAP6, F.AG_MAP_LO_MAP7, F.AG_MAP_HI_MAP0, F.AG_MAP_HI_MAP1, F.AG_MAP_HI_MAP2, F.AG_MAP_HI_MAP3, F.AG_MAP_HI_MAP4,
    F.AG_MAP_HI_MAP5, F.AG_MAP_HI_MAP6, F.AG_MAP_HI_MAP7]
  let s := (mapF.zip r.map).foldl (fun s x => s.wr x.1 x.2 g) s
  let s := s.wr F.AG_SPARE_SPARE_J r.spareJ g
  (List.range 17).foldl (fun s j =>
    let pa := 17 * g + j
    match r.map.findIdx? (fun m => m.testBit 7 && decide (bits m 0 5 = j)) with
    | some i => ((s.wr F.SPR_STATUS_ROLE 1 pa).wr F.SPR_STATUS_LOGICAL (16 * g + i) pa).wr F.SPR_STATUS_LOGICAL_VALID 1 pa
    | none =>
      let role := if decide (pa ∈ failed) || decide (s.rd F.SPR_STATUS_ROLE pa = 0 ∧ s.img.act.isSome) then 0
        else if r.spareJ = j then 2 else 5
      ((s.wr F.SPR_STATUS_ROLE role pa).wr F.SPR_STATUS_LOGICAL 0 pa).wr F.SPR_STATUS_LOGICAL_VALID 0 pa) s

/-- Cache share of one partition's slices. -/
def State.loadCup (s : State) (gs : List Nat) (r : CupRec) : State :=
  gs.foldl (fun s g => (s.wr F.CUP_SPLIT_PARTITION r.p g).wr F.CUP_SPLIT_CACHE_UNITS r.c g) s

/-- Shapes and classes of one partition's groups. -/
def State.loadNum (s : State) (gs : List Nat) (r : NumRec) : State :=
  gs.foldl (fun s g =>
    let s := (((((s.wr F.AG_CONFIG_PARTITION r.p g).wrB F.AG_CONFIG_SQUARE_PERMIT (r.shapes.testBit 0) g).wrB
      F.AG_CONFIG_TALL_PERMIT (r.shapes.testBit 1) g).wrB F.AG_CONFIG_TALLER_PERMIT (r.shapes.testBit 2) g).wrB
      F.AG_CONFIG_WIDE_PERMIT (r.shapes.testBit 3) g).wrB F.AG_CONFIG_STRICT_PERMIT (r.shapes.testBit 4) g
    (((s.wrB F.AG_RED_PERMIT_ARRIVAL_PERMIT (r.classes.testBit 0 && !r.classes.testBit 3) g).wrB F.AG_RED_PERMIT_ORDERED_PERMIT
      (r.classes.testBit 1) g).wrB F.AG_RED_PERMIT_EXACT_PERMIT (r.classes.testBit 2) g).wrB F.AG_RED_PERMIT_REPLAY
      (r.classes.testBit 3) g) s

/-- Rates and depths of one partition's regulators. -/
def State.loadReg (s : State) (r : RegRec) : State :=
  (List.range 3).foldl (fun s k =>
    (s.wr F.BWG_CFG_RATE (r.rate.getD k 0) r.p k).wr F.BWG_CFG_DEPTH (r.depth.getD k 0) r.p k) s

/-- Goal of one partition; H_EFF under R395. -/
def State.loadDet (s : State) (r : DetRec) : State :=
  let s := ((((s.wr F.GAL_GOAL_ECHO_CEIL r.echoCeil r.p).wr F.GAL_GOAL_TARGET_EXP r.targetExp r.p).wr F.GAL_GOAL_HORIZON r.horizon r.p).wrB
    F.GAL_GOAL_GALLERY (r.goal.testBit 7) r.p).wrB F.GAL_GOAL_GOAL (r.goal.testBit 0) r.p
  s.wr F.GAL_GOAL_H_EFF (max r.horizon (ceilDiv 100 r.echoCeil)) r.p

/-- Belfry cores of one partition (R237): an assigned core runs, any other is power-gated. -/
def State.loadCores (s : State) (r : PartRec) : State :=
  (below 48 (fun n => r.cores.testBit n)).foldl (fun s n =>
    let s := (s.wr F.MGT_BFY_CORE_ASSIGNED 1 n).wr F.MGT_BFY_CORE_PARTITION r.p n
    if s.rd F.MGT_BFY_CORE_STATE n = 0 then
      (s.wr F.MGT_BFY_CORE_STATE 1 n).wr F.MGT_BFY_CORE_FREQ_MHZ s.pwr.bfyMhz n
    else s) s

/-- Mirror runs held for partition p (19). -/
def State.loadTwin (s : State) (r : TwinRec) : State :=
  let l := slotLen r.partnerPages
  let one := fun (s : State) (k base : Nat) =>
    ((s.wr F.SNP_MIRROR_BASE_FRAME base r.p k).wr F.SNP_MIRROR_L l r.p k).wrB F.SNP_MIRROR_TWO_SLOTS (2 * l ≤ r.mirFrames) r.p k
  let s := one s 0 r.mir1
  if r.mirrors = 2 then one s 1 r.mir2
  else ((s.wr F.SNP_MIRROR_BASE_FRAME 0 r.p 1).wr F.SNP_MIRROR_L 0 r.p 1).wr F.SNP_MIRROR_TWO_SLOTS 0 r.p 1

/-- Whether the spare of a group can serve echoes. UNCOVERED and TURRET_SAME of a partition follow from it (R394): a group has a MATMUL
echo unit when its own spare, or the spare of another group of the partition on the same die, is idle and serves echoes (R390). -/
def State.spareFree (s : State) (g : Nat) : Bool :=
  let j := s.rd F.AG_SPARE_SPARE_J g
  decide (j ≤ 16) && decide (s.rd F.SPR_STATUS_ROLE (17 * g + j) = 2 ∨ s.rd F.SPR_STATUS_ROLE (17 * g + j) = 3)
    && !(17 * g + j ∈ s.gal.noEcho)

def State.uncovered (s : State) (p : Nat) : Bool :=
  let gs := s.groupsOf p
  !gs.all (fun g => s.spareFree g || gs.any (fun g' => decide (g' / 4 = g / 4) && s.spareFree g'))

def State.turretSame (s : State) (p : Nat) : Bool := decide ((s.groupsOf p).length = 1)

/-- H_eff of a partition, 0 where nothing is sampled (R395). -/
def State.hEff (s : State) (p : Nat) : Nat :=
  let c := s.rd F.GAL_GOAL_ECHO_CEIL p
  if c = 0 then 0 else max (s.rd F.GAL_GOAL_HORIZON p) (ceilDiv 100 c)

/-- MET (R395, R396): under the rate-bound goal the stored bit is what the last rate update found. -/
def State.goalMet (s : State) (p : Nat) : Bool :=
  let h := s.rd F.GAL_GOAL_HORIZON p
  s.on F.GAL_GOAL_GALLERY p && !s.uncovered p && !s.turretSame p
    && (if s.on F.GAL_GOAL_GOAL p then s.on F.GAL_GOAL_MET p
        else decide (s.hEff p = h) && !s.gal.abandoned.any (fun x => decide (x.1 = p) && decide (agetD s.curSteps p 0 < x.2 + h)))

/-- A goal that is no longer met lapses Silent errors with a level 1 array-class fault (R15, R397). -/
def State.coverage (s : State) (p : Nat) : State :=
  if s.on F.MGT_GUARANTEE_HOLD_SILENT ∧ s.on F.GAL_GOAL_GALLERY p ∧ !s.goalMet p then
    (s.lapse 8).raise { cls := 1, level := 1, master := 0x58, part := p, source := 0x58 }
  else s

/-- Registers all of whose fields an image loads, or that start afresh with it (R231, R233). -/
def imageRegs : List Reg :=
  [.AG_CONFIG, .AG_MAP_LO, .AG_MAP_HI, .AG_SPARE, .AG_RED_PERMIT, .CUP_SPLIT, .PGM_RESERVE, .PGM_WINDOW, .BWG_CFG, .BWG_STATE, .BWG_ISSUED,
   .BWG_SPENT, .BWG_CLIPPED, .LDG_AREA, .SNP_CFG]

/-- The other fields marked "image", and H_EFF, which follows from two of them. The roles come from the array check (R258 step 4). -/
def imageFields : List Fld :=
  [F.SPR_STATUS_LOGICAL, F.SPR_STATUS_LOGICAL_VALID, F.MGT_BFY_CORE_ASSIGNED, F.MGT_BFY_CORE_PARTITION, F.PWR_CAP_CAP_W, F.FAB_ADDR_MODE,
   F.FAB_PORT_ROLE, F.GAL_GOAL_ECHO_CEIL, F.GAL_GOAL_TARGET_EXP, F.GAL_GOAL_HORIZON, F.GAL_GOAL_H_EFF, F.GAL_GOAL_GALLERY,
   F.GAL_GOAL_GOAL, F.SNP_MIRROR_BASE_FRAME, F.SNP_MIRROR_TWO_SLOTS, F.SNP_MIRROR_L]

/-- No field an image loads holds a value of an image before it. -/
def State.clearImage (s : State) : State :=
  s.dropFields (fun k => decide (k.reg ∈ imageRegs) || imageFields.any (fun f => decide (f.reg = k.reg) && decide (f.lsb = k.lsb)))

/-- Every register field marked "image", from a structure image (R258 step 6). -/
def State.loadImage (s : State) (im : Image) (failed : List Nat) : State :=
  let gsOf := fun (p : Nat) => match im.parts.find? (fun r => r.p = p) with
    | some r => below 16 (fun g => r.agSet.testBit g)
    | none => []
  let ck : Option ClockRec := im.clocks.head?
  let s := s.clearImage
  let s := { s with pwr := { s.pwr with
      bfyMhz := (ck.map (fun (c : ClockRec) => c.bfyMhz)).getD 0, bfyMv := 950, mvAt := [],
      grpMhz := match ck with
        | some c => c.agMhz.zipIdx.map (fun (x : Nat × Nat) => (x.2, x.1))
        | none => [],
      grpMv := (List.range 16).map (fun g => (g, 800)) } }
  let s := s.wr F.PWR_CAP_CAP_W ((ck.map (fun (c : ClockRec) => c.capW)).getD 0)
  let s := im.spares.foldl (fun s r => s.loadSpare r failed) s
  let s := im.cups.foldl (fun s r => s.loadCup (gsOf r.p) r) s
  let s := im.nums.foldl (fun s r => s.loadNum (gsOf r.p) r) s
  let s := im.regs.foldl (fun s r =>
    (List.range 3).foldl (fun s k =>
      let d := r.depth.getD k 0
      (s.wr F.BWG_STATE_LEVEL d r.p k).wr F.BWG_ISSUED_ISSUED d r.p k) (s.loadReg r)) s
  let s := im.chans.foldl (fun s r =>
    ((s.wr F.PGM_WINDOW_GRANULE r.granule r.p).wr F.PGM_WINDOW_BASE_GIB (im.windowBase r.p) r.p).wr F.PGM_WINDOW_CHANNELS
      (im.chansOf r.p) r.p) s
  let s := im.dets.foldl (fun s r => s.loadDet r) s
  let s := im.parts.foldl (fun s r => s.loadCores r) s
  let s := im.snaps.foldl (fun s r =>
    ((((s.wr F.PGM_RESERVE_FRAMES r.resFrames r.p).wr F.PGM_RESERVE_BASE_FRAME r.resBase r.p).wr F.SNP_CFG_MAX_CUT_STEPS r.maxCut r.p).wr
      F.SNP_CFG_MIN_CUT_STEPS r.minCut r.p).wr F.SNP_CFG_INTERVAL_MS r.intervalMs r.p) s
  let s := im.leds.foldl (fun s r => (s.wr F.LDG_AREA_FRAMES r.frames r.p).wr F.LDG_AREA_BASE_FRAME r.base r.p) s
  let s := im.twins.foldl (fun s r => s.loadTwin r) s
  let s := match im.fabs with
    | f :: _ =>
      let s := (List.range 32).foldl (fun (s : State) i => s.wr F.FAB_PORT_ROLE (bits f.roles (2 * i) 2) i) s
      s.wr F.FAB_ADDR_MODE f.addrMode
    | [] => s
  { s with img := { s.img with act := some im } }

end Sys2Proof.Machine
end

