-- ==== Sys2Proof/Machine/Directory.lean ====
section
/-!
DEFINITION. Sys2Proof/Machine/Directory.lean: the Layout Directory (spec/12): its entries as built from the device, its updates under the
GENERATION counter, its bytes, and its reads.
-/

namespace Sys2Proof.Machine

/-- Type and instance of every entry, in ascending order (R268, R269). -/
def ldKeys : List (Nat × Nat) :=
  let one := fun (ty n : Nat) => (List.range n).map (fun k => (ty, k))
  List.flatten [one 1 1, one 2 1, one 3 1, one 0x10 1, one 0x11 4, one 0x12 4, one 0x13 1, one 0x14 1, one 0x20 16, one 0x21 272,
    one 0x22 16, one 0x23 16, one 0x24 16, one 0x25 16, one 0x30 16, one 0x31 48, one 0x40 16, one 0x41 1, one 0x42 1, one 0x50 1,
    one 0x51 32, one 0x52 2, one 0x60 1, one 0x61 1, one 0x70 1, one 0x71 1, one 0x72 1, one 0x73 1, one 0x74 1, one 0x75 1,
    one 0x76 1, one 0x77 1, one 0x78 1, one 0x79 1, one 0x80 1]

/-- Types that read UNKNOWN until Dome discovery (R273). -/
def ldDiscovered (ty : Nat) : Bool :=
  decide (ty ∈ [0x11, 0x12, 0x20, 0x21, 0x22, 0x23, 0x24, 0x25, 0x31, 0x40])

/-- The die pair a block lies on, if it lies on one. -/
def ldPair (ty i : Nat) : Option Nat :=
  if ty = 0x11 ∨ ty = 0x12 then some i
  else if ty = 0x20 ∨ ty = 0x22 ∨ ty = 0x23 ∨ ty = 0x24 ∨ ty = 0x25 then some (i / 4)
  else if ty = 0x21 then some (i / 68) else none

/-- The array group a block belongs to, if it belongs to one. -/
def ldGroup (ty i : Nat) : Option Nat :=
  if ty = 0x20 ∨ ty = 0x22 ∨ ty = 0x23 ∨ ty = 0x24 ∨ ty = 0x25 then some i
  else if ty = 0x21 then some (i / 17) else none

/-- Types of the blocks the keep die holds (spec/01, *Dies of the package*): cores, fabric router, Ethernet, PCIe, fault collector, security,
clocks and the always-on domain. -/
def keepTypes : List Nat := [0x31, 0x50, 0x52, 0x60, 0x70, 0x75, 0x77, 0x78]

/-- Index of the entry of the containing block (R268): an array group in its spire die, a stairway and a slice in their cupola die, an array,
turret unit and bell block in their group, the keep die's blocks in it; FFFFh otherwise (notes/assumptions/105.md). -/
def ldParent (ty i : Nat) : Nat :=
  if ty = 0x20 then 4 + i / 4 else if ty = 0x22 ∨ ty = 0x25 then 8 + i / 4
  else if ty = 0x21 then 14 + i / 17 else if ty = 0x23 ∨ ty = 0x24 then 14 + i else if ty ∈ keepTypes then 12 else 0xFFFF

/-- Whether a type has a register window (R269). -/
def ldWindow (ty : Nat) : Bool :=
  decide (ty ∈ [1, 0x20, 0x21, 0x22, 0x23, 0x24, 0x25, 0x40, 0x41, 0x42, 0x50, 0x51, 0x60, 0x61]) || decide (0x70 ≤ ty ∧ ty ≤ 0x79)

/-- The role code of a physical array as the image or the last patch set it (R269): transient roles show the role behind them. -/
def State.setRole (s : State) (pa : Nat) : Nat :=
  match s.rd F.SPR_STATUS_ROLE pa with
  | 3 => 2
  | 4 => match s.gal.camp with
    | some c => agetD c.roles pa 4
    | none => 4
  | r => r

/-- Channels of a stack that are present (R221). -/
def State.chansPresent (s : State) (n : Nat) : Nat := 2 ^ 64 - 1 - s.rd F.MEM_CHAN_ABSENT_ABSENT n

/-- Map entry `k` of array group `g`. -/
def State.mapField (s : State) (g k : Nat) : Nat :=
  s.rd ([F.AG_MAP_LO_MAP0, F.AG_MAP_LO_MAP1, F.AG_MAP_LO_MAP2, F.AG_MAP_LO_MAP3, F.AG_MAP_LO_MAP4, F.AG_MAP_LO_MAP5, F.AG_MAP_LO_MAP6,
    F.AG_MAP_LO_MAP7, F.AG_MAP_HI_MAP0, F.AG_MAP_HI_MAP1, F.AG_MAP_HI_MAP2, F.AG_MAP_HI_MAP3, F.AG_MAP_HI_MAP4, F.AG_MAP_HI_MAP5,
    F.AG_MAP_HI_MAP6, F.AG_MAP_HI_MAP7].getD k F.AG_MAP_LO_MAP0) g

/-- The active image's record counts for partition `p`: SNAPSHOT, LEDGER and TWIN present. -/
def State.hasRec (s : State) (p ty : Nat) : Bool :=
  match s.img.act with
  | none => false
  | some im => if ty = 10 then im.snaps.any (fun r => r.p = p) else if ty = 11 then im.leds.any (fun r => r.p = p)
      else im.twins.any (fun r => r.p = p)

/-- COUNT0, COUNT1 and CAPS of an entry (R269). -/
def State.ldCounts (s : State) (ty i : Nat) : Nat × Nat × Nat :=
  if ty = 1 then (leNat (ascii "B0"), 0, leNat (ascii "VGL-IL9T"))
  else if ty = 2 then
    match s.sec.fw with
    | some f => (f.version, f.slot, f.secVersion)
    | none => (0, 0, 0)
  else if ty = 3 then
    (s.img.slot, ((List.range 16).map (fun p => s.rd F.MGT_PATCH_SEQ_APPLIED p)).sum, s.rd F.MGT_IMAGE_ID_IMAGE_ID)
  else if ty = 0x11 ∨ ty = 0x12 then (i, 0, 0)
  else if ty = 0x14 then (512, 4, 0)
  else if ty = 0x20 then
    (17, ((List.range 16).filter (fun k => (s.mapField i k).testBit 7)).length,
      s.rd F.AG_CONFIG_SQUARE_PERMIT i + 2 * s.rd F.AG_CONFIG_TALL_PERMIT i + 4 * s.rd F.AG_CONFIG_TALLER_PERMIT i
        + 8 * s.rd F.AG_CONFIG_WIDE_PERMIT i + 16 * s.rd F.AG_CONFIG_STRICT_PERMIT i + 32 * s.rd F.AG_RED_PERMIT_ARRIVAL_PERMIT i
        + 64 * s.rd F.AG_RED_PERMIT_ORDERED_PERMIT i + 128 * s.rd F.AG_RED_PERMIT_EXACT_PERMIT i + 256 * s.rd F.AG_RED_PERMIT_REPLAY i)
  else if ty = 0x21 then
    (s.setRole i, if s.setRole i = 1 then s.rd F.SPR_STATUS_LOGICAL i else 0xFFFFFFFF, 0)
  else if ty = 0x22 then (4, 0, 0)
  else if ty = 0x23 then (2048, 0, Config.turretIsaVersion % 65536)
  else if ty = 0x24 then (4096, if (s.partOf i).any (fun p => s.homeOf p = some i) then 1 else 0, 0)
  else if ty = 0x25 then (384, s.rd F.CUP_SPLIT_CACHE_UNITS i, 0)
  else if ty = 0x30 then
    match s.parts.find? (fun r => r.p = i) with
    | none => (0, 0, 0)
    | some r =>
      let home := (s.homeOf i).getD 0
      (r.agSet, popCount r.cores 48,
        home + 16 * s.rd F.CUP_SPLIT_CACHE_UNITS home + 256 * s.rd F.PGM_WINDOW_CHANNELS i
          + (if s.hasRec i 10 then 2 ^ 24 else 0) + (if s.hasRec i 11 then 2 ^ 25 else 0) + (if s.hasRec i 12 then 2 ^ 26 else 0)
          + 2 ^ 27 * s.rd F.GAL_GOAL_GALLERY i + 2 ^ 28 * s.rd F.AG_RED_PERMIT_REPLAY home)
  else if ty = 0x31 then (3200, 2048, 0)
  else if ty = 0x40 then (popCount (s.chansPresent i) 64, 64, s.chansPresent i)
  else if ty = 0x41 then (16777216, 64, 0)
  else if ty = 0x42 then (3, 1000, 0)
  else if ty = 0x50 then (65536, 8, s.rd F.FAB_ADDR_ADDRESS + 65536 * s.rd F.FAB_ADDR_VALID)
  else if ty = 0x51 then (16, 100, s.rd F.FAB_PORT_ROLE i)
  else if ty = 0x52 then (400, 64, 0)
  else if ty = 0x60 then (64, 4, 16)
  else if ty = 0x61 then (16, 4064, if s.sec.fw.isSome then 2 else 0)
  else if ty = 0x80 then (16, 0x7FF, 0x1F + 0x300 + 0xF0000 + 2 ^ 32)
  else (0, 0, 0)

/-- Owning partition of a block; 255 when none. -/
def State.ldPart (s : State) (ty i : Nat) : Nat :=
  match ldGroup ty i with
  | some g => (s.partOf g).getD 255
  | none =>
    if ty = 0x30 then (if s.hasPart i then i else 255)
    else if ty = 0x31 then (if s.on F.MGT_BFY_CORE_ASSIGNED i then s.rd F.MGT_BFY_CORE_PARTITION i else 255) else 255

/-- Whether the active image uses a block (IN_IMAGE); one that no record names is used once an image is applied (notes/assumptions/105.md). -/
def State.ldUsed (s : State) (ty i : Nat) : Bool :=
  if s.img.act.isNone then false
  else if ty = 0x51 then decide (s.rd F.FAB_PORT_ROLE i = 1)
  else if ty = 0x21 then decide (s.ldPart ty i ≠ 255) && decide (s.setRole i = 1 ∨ s.setRole i = 2)
  else if ty = 0x11 ∨ ty = 0x12 then (List.range 4).any (fun k => (s.partOf (4 * i + k)).isSome)
  else if ty = 0x40 then s.img.act.any (fun (im : Image) => im.chans.any (fun r => decide (bits r.chans (64 * i) 64 ≠ 0)))
  else if ty = 0x52 then s.img.act.any (fun (im : Image) => im.eths.any (fun r => r.port = i))
  else if ldDiscovered ty ∨ ty = 0x30 then decide (s.ldPart ty i ≠ 255) else true

/-- One entry as the device stands; `disc` says whether Dome discovery has taken place. -/
def State.ldBuild (s : State) (disc : Bool) (ty i : Nat) : LdEntry :=
  let absent := (ldPair ty i).any (fun d => d ∈ s.img.absentPairs) || (decide (ty = 0x21) && decide (s.rd F.SPR_STATUS_ROLE i = 0))
    || (decide (ty = 0x40) && decide (s.chansPresent i = 0))
  let c := s.ldCounts ty i
  { type := ty, inst := i,
    state := (if ldDiscovered ty && !disc then 0 else if ldDiscovered ty && absent then 2 else 1) + (if s.ldUsed ty i then 4 else 0),
    part := s.ldPart ty i, parent := ldParent ty i,
    window := if ty = 0x79 then 0x10000 else if ldWindow ty then Config.windowOffset ty i else 0,
    windowBytes := if ldWindow ty then Config.windowBytes ty i else 0,
    count0 := c.1, count1 := c.2.1, caps := c.2.2 }

/-- One update of the directory (R272): the entries `sel` picks are rebuilt; GENERATION passes its odd value and is even again, two above. -/
def State.ldUpdate (s : State) (cause part : Nat) (disc : Bool) (sel : Nat → Nat → Bool) : State :=
  let new := if cause = 1 then ldKeys.map (fun k => s.ldBuild disc k.1 k.2)
    else s.ldir.map (fun e => if sel e.type e.inst then s.ldBuild disc e.type e.inst else e)
  let changed := if cause = 1 then new.length else ((s.ldir.zip new).filter (fun x => x.1 ≠ x.2)).length
  let s := { s with ldir := new }
  let s := s.wr F.LDIR_GEN_GENERATION (s.rd F.LDIR_GEN_GENERATION + 2)
  let s := (s.inc F.LDIR_GEN_UPDATES).wr F.LDIR_LAST_NS_TIME s.now
  ((s.wr F.LDIR_CAUSE_CHANGED changed).wr F.LDIR_CAUSE_PARTITION part).wr F.LDIR_CAUSE_CAUSE cause

/-- The updates of R273, by event. -/
def State.ldFooting (s : State) : State := s.ldUpdate 1 0 false (fun _ _ => true)
def State.ldDrum (s : State) : State := s.ldUpdate 2 0 false (fun ty _ => decide (ty = 2 ∨ ty = 0x61))
def State.ldDiscover (s : State) : State := s.ldUpdate 3 0 true (fun ty _ => ldDiscovered ty)
def State.ldImage (s : State) : State := s.ldUpdate 4 0 true (fun _ _ => true)
def State.ldAddress (s : State) : State := s.ldUpdate 5 0 true (fun ty _ => decide (ty = 0x50))
def State.ldPatch (s : State) (p : Nat) : State :=
  s.ldUpdate 6 p true (fun ty i => decide (ty = 3) || (decide (ty = 0x30) && decide (i = p))
    || (ldGroup ty i).any (fun g => decide (s.partOf g = some p)) || decide (ty = 0x31))

/-- Bytes of an entry (R268). -/
def LdEntry.bytes (e : LdEntry) : Bytes :=
  natLe 1 e.type ++ natLe 1 1 ++ natLe 2 e.inst ++ natLe 1 e.state ++ natLe 1 e.part ++ natLe 2 e.parent ++ natLe 4 e.window
    ++ natLe 4 e.windowBytes ++ natLe 4 e.count0 ++ natLe 4 e.count1 ++ natLe 8 e.caps

/-- The whole table with bytes 24 to 55 as given (R267). -/
def State.ldTable (s : State) (digest : Bytes) : Bytes :=
  ascii "VLDR" ++ natLe 1 1 ++ natLe 1 0 ++ natLe 2 s.ldir.length ++ natLe 4 (s.rd F.LDIR_GEN_GENERATION)
    ++ natLe 4 (64 + 32 * s.ldir.length) ++ natLe 2 32 ++ natLe 6 0 ++ digest ++ natLe 8 0 ++ s.ldir.flatMap LdEntry.bytes

/-- The directory as read: its DIGEST is taken with bytes 24 to 55 as 0 (R267). -/
def State.ldBytes (s : State) : Bytes := s.ldTable (shake256 (s.ldTable (natLe 32 0)))

/-- The response of a directory read (R277). -/
def State.dirReadData (s : State) (off len : Nat) : Bytes :=
  let tb := 64 + 32 * s.ldir.length
  if tb < off + len then natLe 1 1 ++ natLe 3 0 ++ natLe 4 (s.rd F.LDIR_GEN_GENERATION)
  else natLe 1 0 ++ natLe 3 0 ++ natLe 4 (s.rd F.LDIR_GEN_GENERATION) ++ slice s.ldBytes off len

/-- Whether a directory read's operands lie in their ranges (R277). -/
def dirReadOk (off len : Nat) : Bool :=
  decide (off % 4 = 0) && decide (off < 2 ^ 32) && decide (4 ≤ len) && decide (len ≤ 1024) && decide (len % 4 = 0)

/-- Whether configuration requests are completed: from 100 ms after PERST# release (R276, R295). AON_STAGE.CONFIG shows it. -/
def State.configUp (s : State) : Bool :=
  s.on F.PWR_STATUS_AUX_VALID && !s.pwr.perst && s.pwr.perstRel.any (fun r => r + 100000000 ≤ s.now)

/-- A read of LDIR_DATA (R276): the 4 bytes at LDIR_INDEX, 0 beyond the table; each read adds 1 to DWORD, wrapping. -/
def State.ldirData (s : State) : Bytes × State :=
  let d := s.rd F.LDIR_INDEX_DWORD
  (slice s.ldBytes (4 * d) 4, s.wr F.LDIR_INDEX_DWORD ((d + 1) % 2 ^ 14))

/-- LDIR_DATA_READ (R276): by a configuration request to PF0. One before configuration requests are completed is told to retry (R295). -/
def execLdirDataRead (t : Nat) (s : State) : Out :=
  let s := s.tick t
  .next (if s.configUp then
      let r := s.ldirData
      { r.2 with host := { r.2.host with readBack := r.1, cfgRetry := false } }
    else if s.on F.PWR_STATUS_AUX_VALID then { s with host := { s.host with cfgRetry := true } }
    else s)

end Sys2Proof.Machine
end

