-- ==== Sys2Proof/Machine/Memory.lean ====
section
/-!
DEFINITION. Sys2Proof/Machine/Memory.lean: the commands of the page map, copy-on-write, DRAM and cupola error correction, scrub, refresh and
the bandwidth regulators (spec/09).
-/

namespace Sys2Proof.Machine

/-! ### Invalidation (R210) -/

/-- A write to PGM_INVAL (R210): while DONE reads 0 it has no effect; otherwise the invalidation begins and DONE reads 0. -/
def State.invalWrite (s : State) (word : Nat) : State :=
  if s.on F.PGM_INVAL_DONE then ({ s with memx := { s.memx with inval := some word } } : State).wr F.PGM_INVAL_DONE 0 else s

/-- PGM_INVAL (R210). -/
def execPgmInval (t word : Nat) (s : State) : Out := .next ((s.tick t).invalWrite word)

/-- Whether an invalidation word names a translation-cache entry. -/
def invalNames (word v e : Nat) : Bool :=
  if word.testBit 62 then decide (pmOwner e = bits word 58 4)
  else decide (bits word 24 24 ≤ v) && decide (v ≤ bits word 24 24 + bits word 0 24)

/-- Whether a held write has used a translation-cache entry that an invalidation names. -/
def State.invalUsed (s : State) (word : Nat) : Bool :=
  s.memx.cowHolds.any (fun h => (pagesOf h.addr h.bytes.length).any (fun v =>
    s.memx.tcache.any (fun e => decide (e.2.1 = v) && invalNames word v e.2.2)))

/-- INVALIDATION_DONE (R210): the named entries leave every translation cache, and DONE returns to 1 once no access that used one is left. -/
def execInvalidationDone (t : Nat) (s : State) : Out :=
  let s := s.tick t
  match s.memx.inval with
  | none => .next s
  | some w =>
    if s.invalUsed w then .next s
    else
      let s := { s with memx := { s.memx with
        inval := none, tcache := s.memx.tcache.filter (fun e => !invalNames w e.2.1 e.2.2) } }
      .next (s.wr F.PGM_INVAL_DONE 1)

/-! ### Copy-on-write (R212 to R214) -/

/-- Whether the page of VPN `v` is being copied. -/
def State.copying (s : State) (v : Nat) : Bool := s.memx.cowCopies.any (fun c => c.vpn = v)

/-- A copy of the page of VPN `v` begins where a cut is in force on it; with no copy frame left the cut aborts (R212, R214). -/
def State.startPageCopy (s : State) (v : Nat) : State :=
  let e := s.pmEntry v
  if s.cowInForce e then
    match s.nextCopyFrame (pmOwner e) with
    | some f => { s with memx := { s.memx with cowCopies := s.memx.cowCopies ++ [{ vpn := v, p := pmOwner e, frame := f }] } }
    | none => s.cutAbort (pmOwner e)
  else s

/-- COW_WRITE_HOLD (R212): a write is held while every page of it that lies under the active cut is copied; with no copy frame left the cut
aborts and the write is released (R214); a write that finds no cut in force is performed. -/
def execCowWriteHold (t p unit addr : Nat) (bytes : Bytes) (s : State) : Out :=
  let s := s.tick t
  let vs := pagesOf addr bytes.length
  match s.checkAccess 4 unit p addr bytes.length true false with
  | (some _, s) => .next s
  | (none, s) =>
    let hold : CowHold := { p := p, unit := unit, addr := addr, bytes := bytes }
    if vs.any s.copying || s.writeWaits addr bytes.length then .next (s.holdWrite hold)
    else
      let s := vs.foldl State.startPageCopy s
      .next (if vs.any s.copying then s.holdWrite hold else s.storePlain 4 unit p addr bytes)

/-! ### DRAM error correction and scrub (R224 to R227) -/

/-- The partition that owns a channel; 255 for a device channel or one of no partition. -/
def State.chanPart (s : State) (stack chan : Nat) : Nat := ((s.chanKey stack chan 0).map (fun x => x.2)).getD 255

/-- A corrected burst: counted, recorded at level 0, and judged for lane erasure (R224, R225). -/
def State.burstCorrected (s : State) (stack chan burst : Nat) (lane : Option Nat) : State :=
  let p := s.chanPart stack chan
  let s := s.inc F.MEM_ECC_CORRECTED stack
  let s := s.raise { cls := 0, level := 0, master := 0x40 + stack, access := 0x31, part := p, source := 0x40 + stack, aux := chan,
                     addr := burst * 128 }
  match lane with
  | none => s
  | some l =>
    if (stack, chan, l) ∈ s.memx.erased then s
    else
      let recent := (stack, chan, l, s.now) :: s.memx.laneCorr.filter (fun e => decide (s.now ≤ e.2.2.2 + 1000000000))
      let s := { s with memx := { s.memx with laneCorr := recent } }
      if 16 ≤ (recent.filter (fun e => decide (e.1 = stack) && decide (e.2.1 = chan) && decide (e.2.2.1 = l))).length then
        let s := { s with memx := { s.memx with
          erased := s.memx.erased ++ [(stack, chan, l)],
          laneCorr := recent.filter (fun e => !(decide (e.1 = stack) && decide (e.2.1 = chan) && decide (e.2.2.1 = l))) } }
        let n := (below 64 (fun c => s.memx.erased.any (fun e => decide (e.1 = stack) && decide (e.2.1 = c)))).length
        let s := (s.wr F.MEM_ECC_ERASED_LANES n stack).eccFirst stack 3 chan l (burst * 128)
        let s := s.raise { cls := 0, level := 1, master := 0x40 + stack, part := p, source := 0x40 + stack, aux := chan, addr := burst * 128 }
        s.warn 5 stack 0 (0x40 + stack) (if p = 255 then s.partNums else [p])
      else s

/-- Memory key of the poison mark of a burst: its DRAM physical address, or a key of its own for a burst that lies in no window. -/
def State.burstKey (s : State) (stack chan burst : Nat) : Nat :=
  ((s.chanKey stack chan (burst * 128)).map (fun x => x.1)).getD (2 ^ 52 + ((64 * stack + chan) * 2 ^ 23 + burst) * 128)

/-- An uncorrected burst: data delivered poisoned, counted, reported and captured, and the poison codeword written; a burst that already holds
the poison codeword is only counted as a poisoned read (R226). -/
def State.burstUncorrected (s : State) (stack chan burst master : Nat) (scrub : Bool) : State :=
  let k := s.burstKey stack chan burst
  if k ∈ s.memx.poison then s.inc F.MEM_ECC_POISON_READS stack
  else
    let s := { s with memx := { s.memx with poison := s.memx.poison ++ [k] } }
    let s := (s.inc F.MEM_ECC_UNCORRECTED stack).eccFirst stack (if scrub then 1 else 0) chan 0 (burst * 128)
    s.raise { cls := 0, level := 1, master := master, access := if scrub then 0x35 else 0x31, part := s.chanPart stack chan,
              source := 0x40 + stack, aux := chan, addr := burst * 128 }

/-- The lanes on which symbols in error lie: lane ℓ carries symbols 4ℓ to 4ℓ + 3 (R224). -/
def symLanes (syms : List Nat) : List Nat := (syms.map (fun x => x / 4)).dedup

/-- Whether the controller corrects the symbols in error (R224, R225): any 4; with one lane of the channel erased, those on it and 2 further
ones. The 8 check symbols leave none to spare beside two erased lanes (DEDUCED, notes/assumptions/93.md). -/
def State.corrects (s : State) (stack chan : Nat) (syms : List Nat) : Bool :=
  let gone := (s.memx.erased.filter (fun e => decide (e.1 = stack) && decide (e.2.1 = chan))).map (fun e => e.2.2)
  let rest := (syms.dedup.filter (fun x => x / 4 ∉ gone)).length
  decide (gone.length ≤ 2) && decide (4 * gone.length + 2 * rest ≤ 8)

/-- The lane to which a correction is confined, if it is confined to one. -/
def oneLane (syms : List Nat) : Option Nat := if (symLanes syms).length = 1 then (symLanes syms).head? else none

/-- A channel that exists, one of its bursts, and symbols of a burst. -/
def chanOk (stack chan burst : Nat) : Bool := decide (stack < 16) && decide (chan < 64) && decide (burst < 2 ^ 23)
def symsOk (syms : List Nat) : Bool := syms.all (fun x => decide (x < 72))

/-- DRAM_BURST_CORRECTED (R224, R225): a burst whose symbols in error the controller corrects. -/
def execDramBurstCorrected (t stack chan burst : Nat) (syms : List Nat) (s : State) : Out :=
  let s := s.tick t
  inst (chanOk stack chan burst && symsOk syms)
    (if syms ≠ [] ∧ s.corrects stack chan syms then s.burstCorrected stack chan burst (oneLane syms) else s)

/-- DRAM_BURST_UNCORRECTED (R226): a burst whose symbols in error it cannot correct, or that holds the poison codeword. -/
def execDramBurstUncorrected (t stack chan burst master : Nat) (scrub : Bool) (syms : List Nat) (s : State) : Out :=
  let s := s.tick t
  inst (chanOk stack chan burst && symsOk syms)
    (if s.corrects stack chan syms && !s.memx.poison.contains (s.burstKey stack chan burst) then s
     else s.burstUncorrected stack chan burst master scrub)

/-- Bursts in the channels of a stack that are present: 2^23 in each (R220, R221). -/
def State.stackBursts (s : State) (stack : Nat) : Nat := (64 - popCount (s.rd F.MEM_CHAN_ABSENT_ABSENT stack) 64) * 2 ^ 23

/-- One burst of a stack scrubbed; a pass completes after every burst of its channels (R227). -/
def State.scrubStep (s : State) (stack : Nat) : State :=
  let n := agetD s.memx.scrubbed stack 0 + 1
  if s.stackBursts stack ≤ n then { s with memx := { s.memx with scrubbed := aset s.memx.scrubbed stack 0 } }.inc F.MEM_SCRUB_PASSES stack
  else { s with memx := { s.memx with scrubbed := aset s.memx.scrubbed stack n } }

/-- PATROL_SCRUB (R227) of a burst with symbols `syms` in error: a correction is rewritten and counted, an uncorrected burst acts as R226 states;
scrub draws no tokens. -/
def execPatrolScrub (t stack chan burst : Nat) (syms : List Nat) (s : State) : Out :=
  let s := s.tick t
  inst (chanOk stack chan burst && symsOk syms)
    ((if s.memx.poison.contains (s.burstKey stack chan burst) || !s.corrects stack chan syms then
        s.burstUncorrected stack chan burst (0x40 + stack) true
      else if syms = [] then s
      else s.burstCorrected stack chan burst (oneLane syms)).scrubStep stack)

/-! ### Cupola error correction (R219) -/

/-- The partition that owns the slice under AGg, 255 when none does. -/
def State.slicePart (s : State) (g : Nat) : Nat := (s.partOf g).getD 255

/-- An uncorrected word of cupola memory: counted, delivered as poisoned, reported at level 1. -/
def State.wordUncorrected (s : State) (g off master access : Nat) : State :=
  let k := granule (cupKey g off)
  let s := { s with memx := { s.memx with poison := addOnce s.memx.poison k } }
  (s.inc F.CUP_ECC_UNCORRECTED g).raise { cls := 0, level := 1, master := master, access := access, part := s.slicePart g,
                                          source := 0x50 + g / 4, aux := g, addr := off }

def cupOk (g off : Nat) : Bool := decide (g < 16) && decide (off < 384 * 2 ^ 20)

/-- CUPOLA_SCRUB (R219): the word is read, corrected and rewritten. -/
def execCupolaScrub (t g off : Nat) (finding : ScrubFinding) (s : State) : Out :=
  let s := s.tick t
  inst (cupOk g off)
    (match finding with
     | .clean => s
     | .corrected => s.inc F.CUP_ECC_CORRECTED g
     | .uncorrected => s.wordUncorrected g off (0x50 + g / 4) 5)

/-- CUPOLA_READ_ERROR (R219): a single-bit error is corrected and counted; an uncorrected one is counted, delivered as poisoned and
reported; a write of part of a bad word leaves it poisoned and reports. -/
def execCupolaReadError (t g off master : Nat) (corrected partWrite : Bool) (s : State) : Out :=
  let s := s.tick t
  inst (cupOk g off)
    (if corrected then s.inc F.CUP_ECC_CORRECTED g
     else if partWrite then
       { s with memx := { s.memx with poison := addOnce s.memx.poison (granule (cupKey g off)) } }.narrowWrite
         (granule (cupKey g off)) master (s.slicePart g)
     else s.wordUncorrected g off master 1)

/-! ### Refresh (R228, R229) -/

/-- Refresh rate code for a temperature alone. -/
def refreshFor (c : Int) : Nat := if c ≤ 85 then 0 else if c ≤ 95 then 1 else if c ≤ 105 then 2 else 3

/-- The rate after a sample: it rises at once, and falls only with the sample 3 degrees or more below the threshold. -/
def refreshNext (old : Nat) (c : Int) : Nat := max (refreshFor c) (min old (refreshFor (c + 3)))

/-- Judges one measured quantity for R15: outside its rating, every HOLD bit is cleared with its LAPSED bit and a level 1 power/thermal
fault is recorded, once for each breach (R487). -/
def State.judgeRating (s : State) (q : Nat) (ok : Bool) : State :=
  if ok then { s with pwr := { s.pwr with breaches := s.pwr.breaches.filter (fun x => x ≠ q) } }
  else if q ∈ s.pwr.breaches then s
  else
    let s := { s with pwr := { s.pwr with breaches := s.pwr.breaches ++ [q] } }
    (s.lapse 31).raise { cls := 4, level := 1, master := 0x5E, source := 0x5E, aux := q }

/-- REFRESH_SAMPLE (R228, R229). -/
def execRefreshSample (t stack : Nat) (c : Int) (s : State) : Out :=
  let s := s.tick t
  let old := s.rd F.MEM_STACK_RATE stack
  let new := refreshNext old c
  let s := ((s.wr F.MEM_STACK_TEMP (unsigned c 8) stack).wr F.MEM_STACK_RATE new stack).wrB F.MEM_STACK_LIMITED (new = 3) stack
  let s := if old < new then (s.inc F.MEM_STACK_RISES stack).inc F.PWR_OVERRIDE_REFRESH else s
  let s := { s with pwr := { s.pwr with dieTemp := aset s.pwr.dieTemp (16 + stack) c } }
  inst (stack < 16) (s.judgeRating (100 + stack) (decide (10 ≤ c) && decide (c ≤ 105)))

/-! ### Bandwidth regulators (R230 to R233) -/

/-- REGULATOR_REFILL (R231): every regulator of every partition refills and serves what waits. -/
def execRegulatorRefill (t : Nat) (s : State) : Out :=
  let s := s.tick t
  let s := { s with memx := { s.memx with refillUs := s.now / 1000 } }
  .next (s.partNums.foldl (fun s p => [0, 1, 2].foldl (fun s r => (s.refill p r).serveAll p r) s) s)

/-- A partition and one of its three regulators. -/
def regOk (p r : Nat) : Bool := decide (p < 16) && decide (r < 3)

/-- REGULATOR_ADMIT (R230 to R232): a request of at most 4,096 bytes joins its unit's requests, and the regulator serves in round-robin; `pool`
says that its frame lies in the device pool. -/
def execRegulatorAdmit (t p r unit bytes : Nat) (pool : Bool) (s : State) : Out :=
  let s := s.tick t
  inst (regOk p r)
    (if bytes = 0 ∨ 4096 < bytes then s
     else
       ({ s with memx := { s.memx with
          regWait := s.memx.regWait ++ [{ p := p, r := r, unit := unit, need := ceilDiv bytes 64, pool := pool }] } } : State).serveAll p r)

/-- REQUEST_REACH_CHANNEL (R231, R233): the oldest admitted request of the unit reaches its channel or port and is spent. A request to a
partition whose channels retrain waits; those of the device pool do not (R222, R223). -/
def execRequestReachChannel (t p r unit : Nat) (s : State) : Out :=
  let s := s.tick t
  let m := fun (q : RegReq) => decide (q.p = p) && decide (q.r = r) && decide (q.unit = unit)
  inst (regOk p r)
    (match s.memx.regHeld.find? m with
     | none => s
     | some q =>
       if r < 2 ∧ !q.pool ∧ s.hngState p = 3 then s
       else
         let s' := (s.wr F.BWG_STATE_HELD (s.rd F.BWG_STATE_HELD p r - q.need) p r).inc F.BWG_SPENT_SPENT p r q.need
         { s' with memx := { s'.memx with regHeld := removeFirst m s'.memx.regHeld } })

/-- A partition reset abandons every request that has not reached its channel or port and returns its tokens (R233). -/
def State.abandonRequests (s : State) (p : Nat) : State :=
  let s := [0, 1, 2].foldl (fun (s : State) r =>
    let h := ((s.memx.regHeld.filter (fun q => decide (q.p = p) && decide (q.r = r))).map (fun q => q.need)).sum
    (s.wr F.BWG_STATE_HELD (s.rd F.BWG_STATE_HELD p r - h) p r).wr F.BWG_STATE_LEVEL (s.rd F.BWG_STATE_LEVEL p r + h) p r) s
  { s with memx := { s.memx with
      regWait := s.memx.regWait.filter (fun q => q.p ≠ p), regHeld := s.memx.regHeld.filter (fun q => q.p ≠ p) } }

/-! ### Page-map writes (R204, R207, R243) -/

/-- The VPNs whose page-map entry is not all zero. -/
def State.listedVpns (s : State) : List Nat :=
  ((s.mem.filter (fun c => c.1 < 2 ^ 27)).map (fun c => c.1 / 8)).foldl (fun l v => addOnce l v) []

/-- The cupola quarters or the frame a valid entry occupies, as ranges of memory keys: first key and length. -/
def frameRanges (e : Nat) : List (Nat × Nat) :=
  if pmLoc e = 2 then (List.range 4).map (fun d => (cupKey (4 * d + pmPlace e) (pmFrame e * 16384), 16384))
  else [(pageKey e 0, 65536)]

def rangesMeet (a b : Nat × Nat) : Bool := decide (a.1 < b.1 + b.2) && decide (b.1 < a.1 + a.2)

/-- Whether partition `o` may map one more SNAP page at VPN `v`: at most SHARD_PAGES of its SNAPSHOT record, where it has one (R253). -/
def State.shardRoom (s : State) (o v : Nat) : Bool :=
  match (s.img.act.map (fun (im : Image) => im.snaps)).bind (fun l => l.find? (fun r => r.p = o)) with
  | none => true
  | some r =>
    decide ((s.listedVpns.filter (fun x =>
      let e := s.pmEntry x
      decide (x ≠ v) && pmValid e && pmSnap e && decide (pmOwner e = o))).length < r.shardPages)

/-- Whether a valid entry may be mapped at VPN `v` (R207; R235 for the keep region; R243 for the directory of a partition with C = 0; R253 for
its SNAP pages). -/
def State.mapOk (s : State) (v e : Nat) : Bool :=
  let o := pmOwner e
  let slices := match pmLoc e with
    | 0 => []
    | 1 => [4 * pmPlace e + pmFrame e / 6144]
    | _ => (List.range 4).map (fun d => 4 * d + pmPlace e)
  let first := if pmLoc e = 1 then pmFrame e % 6144 * 65536 else pmFrame e * 16384
  decide (pmLoc e ≠ 3) && s.hasPart o
    && (pmLoc e = 0 || decide (pmFrame e < 24576))
    && slices.all (fun g => decide (s.partOf g = some o)
        && decide (s.rd F.CUP_SPLIT_CACHE_UNITS g * 2 ^ 26 ≤ first)
        && !(decide (s.rd F.CUP_SPLIT_CACHE_UNITS g = 0) && decide (s.homeOf o = some g) && decide (first < 2 ^ 24)))
    && (pmLoc e ≠ 0 || (decide (pmPlace e = 0) && decide (8192 ≤ pmFrame e)
        && (match s.windowAt (pmFrame e * 65536) with
            | some w => decide (w.1 = o) || decide (w.1 = 255)
            | none => false)))
    && (!pmSnap e || (decide (pmLoc e = 0) && s.shardRoom o v)) && !(pmSnap e && pmMirror e)
    && s.listedVpns.all (fun v' => v' = v || !pmValid (s.pmEntry v')
        || (frameRanges (s.pmEntry v')).all (fun a => (frameRanges e).all (fun b => !rangesMeet a b)))

/-- Whether MIRROR pages sit at the VPNs equal to their frame numbers, and those VPNs hold no other mapping (19, *Slots in a mirror run*). -/
def State.mirrorOk (s : State) (v e : Nat) : Bool :=
  let runs : List (Nat × Nat) := match s.img.act with
    | none => []
    | some im => im.twins.flatMap (fun w => (w.mir1, w.mirFrames) :: (if w.mirrors = 2 then [(w.mir2, w.mirFrames)] else []))
  let inRun := runs.any (fun r => decide (r.1 ≤ v) && decide (v < r.1 + r.2))
  (!pmMirror e || (decide (pmFrame e = v) && inRun)) && (!inRun || pmMirror e)

/-- The entry as stored: reserved bits 45:24 read 0 and POISON retires the page (R205, R226). -/
def cleanEntry (e : Nat) : Nat := bits e 46 18 * 2 ^ 46 + bits e 0 24

/-- A request to write entry `v` of the page map: the management core stores what may be mapped, and refuses the rest (R204, R207). -/
def State.pageWrite (s : State) (v entry : Nat) : State :=
  let e := cleanEntry entry
  if s.atLeast stDome && (!pmValid e || (s.mapOk v e && s.mirrorOk v e)) then s.wrNat (8 * v) 8 e else s

/-- PAGE_MAP_WRITE (R204, R207, R323): while the management core restarts, the write waits until firmware runs again. -/
def execPageMapWrite (t vpn entry : Nat) (s : State) : Out :=
  let s := s.tick t
  inst (vpn < 2 ^ 24)
    (if s.fwUp then s.pageWrite vpn entry
     else if s.on F.AON_STAGE_MGT_RESTART && !s.host.fwDead then
       { s with host := { s.host with heldGo := s.host.heldGo ++ [.pageMapWrite t vpn entry] } }
     else s)

end Sys2Proof.Machine
end

