-- ==== Sys2Proof/Machine/Power.lean ====
section
/-!
DEFINITION. Sys2Proof/Machine/Power.lean: supplies, converters, warm and cold starts, the stages to Finial, rails, the power cap, the thermal
throttle and trip, adaptive voltage, sleep and wake (spec/13, 22), and what each kind of reset leaves (R461).
-/

namespace Sys2Proof.Machine

/-! ### What a loss of power or a reset leaves (R461) -/

/-- The state of every unit behind the converters is lost: queues, engines and what they hold; the flash, the collector, bucket and quarantine
history and the supplies stay. -/
def State.dropVolatile (s : State) : State :=
  { s with
    memx := { erased := s.memx.erased },
    img := {},
    sec := { s.sec with fw := none },
    host := { nextSid := s.host.nextSid, resps := s.host.resps, i3cAddr := s.host.i3cAddr, mctpEid := s.host.mctpEid, pldmTid := s.host.pldmTid,
              answers := s.host.answers, ibi := s.host.ibi, restarts := s.host.restarts },
    gal := { s.gal with camp := none, mism := [], warned := [] },
    ctxs := [], lastCtx := [], jobs := [], echoes := [], pas := [], rings := [], waits := [], beats := [], outBeats := [], atu := [],
    fab := {}, led := [], curSteps := [], advances := [],
    snp := [], slots := [], restores := [], hng := s.hng.map (fun e => (e.1, ({ tagTimes := e.2.tagTimes } : HangSt))),
    pwr := { s.pwr with
             wakeQ := [], waking := [], held := [], pgStarts := [], cgStarts := [],
             idleSince := [], fieldDone := [], grpMhz := [], grpMv := [], bfyMhz := 0, bfyMv := 950, mvAt := [], capLow := false,
             railOut := [], railActed := [], samples := [] },
    fc := { s.fc with autoClr := [] } }

/-- Memory keys of the keep region (R235). -/
def keepBytes : Nat := 512 * 2 ^ 20

/-- Guarantee and stage bits that a stop of the converters clears: only supervision and the sideband stay (R296, R383). TESTED is DEV-reset and
stays (R9). -/
def State.stageDown (s : State) : State :=
  [F.AON_STAGE_JOB_READY, F.AON_STAGE_FIELD_TEST, F.AON_STAGE_FABRIC, F.AON_STAGE_PARTITIONS, F.AON_STAGE_DRAM, F.AON_STAGE_IMAGE,
   F.AON_STAGE_TELEMETRY, F.AON_STAGE_MAILBOX, F.AON_STAGE_FIRMWARE, F.AON_STAGE_MGT_RESTART, F.AON_READY_READY].foldl (fun s f => s.wr f 0) (if s.safe then s.clearHolds else s.clearHolds.setStage stFooting)

/-- A warm device reset (R9, R305, R384, R461): the DEV, MGT and PART registers return to their reset values; the keep region stays, every
other memory is lost; debug scopes lock (R477). The device stands at Footing. -/
def State.warmDeviceReset (s : State) : State :=
  let was := s.stage
  let s := { (s.forget keepBytes (2 ^ 60)).dropVolatile with
    memx := { erased := s.memx.erased, poison := s.memx.poison.filter (fun k => k < keepBytes) } }
  let s := ((s.resetDomain .DEV).resetDomain .MGT).resetDomain .PART
  let s := (List.range 16).foldl (fun s p => s.wr F.HNG_STATUS_STATE 0 p) s
  let s := s.wr F.SEC_STATUS_DEBUG_SCOPE 0
  let s := (s.wr F.AON_STAGE_SUPERVISION 1).wr F.AON_STAGE_SIDEBAND 1
  (s.wr F.AON_STAGE_STAGE was).setStage stFooting

/-- The guarantees that hold when the device leaves Finial through its supplies, a violation, a trip or a rail: each lapses, with one level 1
power/thermal fault (R13 to R15). -/
def State.ratedLost (s : State) : State :=
  let held := [F.MGT_GUARANTEE_HOLD_CONSERVE, F.MGT_GUARANTEE_HOLD_REPLAY, F.MGT_GUARANTEE_HOLD_RECOVERY, F.MGT_GUARANTEE_HOLD_SILENT,
    F.MGT_GUARANTEE_HOLD_VECTORS].any (fun f => s.on f)
  if held then (s.lapse 31).raise { cls := 4, level := 1, master := 0x5E, source := 0x5E } else s

/-- The converters turn off: every memory and every unit behind them loses its state, the keep region included (R281, R383, R461). -/
def State.convertersOff (s : State) : State :=
  let s := s.ratedLost
  let s := ((s.forget 0 (2 ^ 60)).dropVolatile).wr F.PWR_STATUS_CONV_ON 0
  let s := ({ s with dumps := [{}, {}, {}, {}], fc := { s.fc with mirrored := 0 } } : State).wr F.PGM_INVAL_DONE 1
  let s := (List.range 16).foldl (fun s p => s.wr F.HNG_STATUS_STATE 0 p) s
  let s := (List.range 16).foldl (fun s g =>
    ((s.wr F.CLK_AG_STATE 2 g).wr F.CLK_AG_MHZ 0 g).wr F.CLK_AG_MV 0 g) s
  let s := (List.range 48).foldl (fun s n => (s.wr F.MGT_BFY_CORE_STATE 0 n).wr F.MGT_BFY_CORE_FREQ_MHZ 0 n) s
  s.stageDown

/-- Whether a latch holds the converters off (R280, R282, R291). -/
def State.latched (s : State) : Bool :=
  s.on F.PWR_STATUS_TRIP || s.on F.PWR_STATUS_SEQ_VIOL || s.on F.PWR_STATUS_RAIL_FAULT

/-- The converters start once all three supplies are valid and no latch holds them; a cold start begins (R279, R294). It leaves the safe
state only where it follows the clearing of a latch (R384). -/
def State.startConverters (s : State) : State :=
  if s.on F.PWR_STATUS_AUX_VALID && s.pwr.ana && s.pwr.main && !s.latched && !s.on F.PWR_STATUS_CONV_ON then
    let s := ((s.wr F.PWR_STATUS_CONV_ON 1).wr F.AON_STAGE_WARM 0).wr F.AON_STAGE_HOLD_REASON 0
    let s := if s.safe && s.pwr.coldDue then s.setStage stFooting else s
    { s with pwr := { s.pwr with t0 := s.now, coldDue := false } }
  else s

/-- A stage cannot be completed (R296): HOLD_REASON and a level 1 power/thermal fault, once for each time it is held. -/
def State.hold (s : State) (reason : Nat) : State :=
  if s.rd F.AON_STAGE_HOLD_REASON = reason then s
  else (s.wr F.AON_STAGE_HOLD_REASON reason).raise { cls := 4, level := 1, master := 0x5E, source := 0x5E, code := reason }

/-- Whether the stage is held for a reason after which the device does not retry by itself (R296). -/
def State.heldFor (s : State) (reasons : List Nat) : Bool := decide (s.rd F.AON_STAGE_HOLD_REASON ∈ reasons)

/-- A sequencing violation (R280): converters off, SEQ_VIOL, a level 3 power/thermal fault; FAULT_N follows the latch. -/
def State.sequencingViolation (s : State) : State :=
  let s := s.convertersOff.wr F.PWR_STATUS_SEQ_VIOL 1
  (s.raise { cls := 4, level := 3, master := 0x5E, source := 0x5E, code := 2 }).hold 2

/-- FAULT_N sinks (R491, R492). -/
def State.faultN (s : State) : Bool := s.on F.AON_STAGE_SUPERVISION && (s.latched || s.safe)

/-- THERM_TRIP_N sinks (R491, R492). -/
def State.thermTripN (s : State) : Bool := s.on F.AON_STAGE_SUPERVISION && s.on F.PWR_STATUS_TRIP

/-! ### Footing -/

/-- Opens the identity seal at a Footing (R470, R471), fills the rate-token bucket (R472). -/
def State.openSeal (s : State) (sealOk : Bool) : State :=
  let s := (s.wrB F.SEC_STATUS_ID_VALID sealOk).wr F.SEC_SIGIDX_TOKENS 32
  let s := { s with sec := { s.sec with tokenAt := s.now } }
  if sealOk then s else s.raise { cls := 5, level := 1, master := 0x5D, source := 0x5D, code := 1 }

/-- Milliseconds since `t0`, saturating at FFFFh. -/
def State.msSince (s : State) (t0 : Nat) : Nat := min ((s.now - t0) / 1000000) 65535

/-- AUX_3V3_VALID (R294, R295): the always-on domain starts Footing. -/
def execAux3v3Valid (t : Nat) (sealOk : Bool) (s : State) : Out :=
  let s := s.tick t
  if s.on F.PWR_STATUS_AUX_VALID then .next s
  else
    let s := ((s.wr F.PWR_STATUS_AUX_VALID 1).wrB F.PWR_STATUS_ANA_VALID s.pwr.ana).wrB F.PWR_STATUS_MAIN_VALID s.pwr.main
    let s := { s with pwr := { s.pwr with auxAt := s.now } }
    let s := ((s.wr F.AON_STAGE_SUPERVISION 1).wr F.AON_STAGE_SIDEBAND 1).setStage stFooting
    let s := (s.wr F.SEC_SIGIDX_NEXT_INDEX 0xFFFFFFFF).openSeal sealOk
    .next s.ldFooting.startConverters

/-- AUX_3V3_LOST (R9, R235, R461): every register and memory is lost; the flash stays. -/
def execAux3v3Lost (t : Nat) (s : State) : Out :=
  let s := s.tick t
  if s.on F.PWR_STATUS_AUX_VALID then
    .next { State.reset with
      pending := s.pending, now := s.now, freeCtr := s.freeCtr,
      sec := { flash := s.sec.flash, genuine := s.sec.genuine },
      gal := { State.reset.gal with noEcho := s.gal.noEcho, charges := s.gal.charges },
      fc := { State.reset.fc with hist := s.fc.hist },
      pwr := { State.reset.pwr with main := s.pwr.main, ana := s.pwr.ana, perst := s.pwr.perst } }
  else .next s

/-- MAIN_IN_VALID (R279, R280): a sequencing violation while AUX_3V3 is valid and ANA_1V8 is not; else the converters start once all three
supplies are valid. -/
def execMainInValid (t : Nat) (s : State) : Out :=
  let s := s.tick t
  if s.pwr.main then .next s
  else
    let s := { s with pwr := { s.pwr with main := true, mainAt := s.now } }
    if s.on F.PWR_STATUS_AUX_VALID then
      let s := s.wr F.PWR_STATUS_MAIN_VALID 1
      .next (if s.pwr.ana then s.startConverters else s.sequencingViolation)
    else .next s

/-- MAIN_IN_INVALID (R281): as on a loss of power where the converters run. -/
def execMainInInvalid (t : Nat) (s : State) : Out :=
  let s := s.tick t
  let s := (({ s with pwr := { s.pwr with main := false } } : State).wr F.PWR_STATUS_MAIN_VALID 0)
  .next (if s.on F.PWR_STATUS_CONV_ON then s.convertersOff else s)

/-- ANA_1V8_VALID (R279). -/
def execAna1v8Valid (t : Nat) (s : State) : Out :=
  let s := s.tick t
  let s := { s with pwr := { s.pwr with ana := true } }
  .next (if s.on F.PWR_STATUS_AUX_VALID then (s.wr F.PWR_STATUS_ANA_VALID 1).startConverters else s)

/-- ANA_1V8_INVALID (R280): a sequencing violation while AUX_3V3 and MAIN_IN are both valid. -/
def execAna1v8Invalid (t : Nat) (s : State) : Out :=
  let s := s.tick t
  let s := (({ s with pwr := { s.pwr with ana := false } } : State).wr F.PWR_STATUS_ANA_VALID 0)
  .next (if s.on F.PWR_STATUS_AUX_VALID && s.pwr.main then s.sequencingViolation else s)

/-- PERST_ASSERT (R305): a warm device reset. -/
def execPerstAssert (t : Nat) (s : State) : Out :=
  let s := s.tick t
  let s := { s with pwr := { s.pwr with perst := true } }
  .next (if s.on F.PWR_STATUS_AUX_VALID then
      ({ s with pwr := { s.pwr with auxAt := s.now, warmHeld := true } } : State).warmDeviceReset
    else s)

/-- The PCIe link trains to a rate code and width of PCI_LINK; 64 GT/s runs in FLIT mode (R299; notes/assumptions/97.md). -/
def State.linkTrained (s : State) (rate width : Nat) : State :=
  if rate ≤ 5 ∧ width ∈ [1, 2, 4] then
    ((s.wr F.PCI_LINK_RATE rate).wr F.PCI_LINK_WIDTH width).wrB F.PCI_LINK_FLIT (rate = 5)
  else s

/-- The Footing of a warm start at its t0 (R294, R275): directory rebuilt, seal opened, the signature block held before the reset still held
(R473); FAULT_N follows the latches (R492). -/
def State.warmStart (s : State) (sealOk : Bool) : State :=
  let s := { s with pwr := { s.pwr with t0 := s.now } }
  let s := (s.wr F.AON_STAGE_WARM 1).wr F.AON_STAGE_MS_FOOTING (s.msSince s.pwr.auxAt)
  (s.openSeal sealOk).ldFooting

/-- PERST_RELEASE (R294, R384): after a warm device reset the warm start begins; the link trains. -/
def execPerstRelease (t : Nat) (sealOk : Bool) (rate width : Nat) (s : State) : Out :=
  let s := s.tick t
  let warm := s.pwr.warmHeld
  let s := { s with pwr := { s.pwr with perst := false, perstRel := some s.now, warmHeld := false } }
  .next (if s.on F.PWR_STATUS_AUX_VALID then (if warm then s.warmStart sealOk else s).linkTrained rate width else s)

/-! ### Drum (R468) -/

/-- A firmware image passes the boot ROM's checks: its version, security version, first-block key slot, cosignature and measurement. -/
def State.fwCheck (s : State) (b : Bytes) : Option (Nat × Nat × Nat × Bool × Bytes) :=
  let total := leAt b 12 4
  let slot := leAt b 16 1
  let cos := decide (leAt b 17 1 = 1)
  let first := total - (if cos then 5664 else 2832)
  let sv := leAt b 8 4
  let fits := decide (slice b 0 4 = ascii "VFWI") && decide (slice b 24 8 = ascii "VGL-IL9T") && decide (slice b 32 2 = ascii "B0")
    && decide (total ≤ b.length) && decide (total % 16 = 0) && decide (64 + (if cos then 5664 else 2832) ≤ total)
  let ownerOk := decide (slot ≠ 128) || s.sec.flash.ownerPolicy.testBit 0
  let k1 := match s.keyFor slot with
    | some k => s.verifies k (b.take first) (slice b (first + 12) 2820) && decide (leAt b first 4 = slot)
    | none => false
  let k2 := !s.sec.flash.ownerPolicy.testBit 1
    || (cos && (match s.sec.flash.ownerKey with
        | some k => s.verifies (.owner k) (b.take (total - 2832)) (slice b (total - 2820) 2820)
        | none => false))
  if fits && decide (s.sec.flash.fwSv ≤ sv) && ownerOk && k1 && k2 then
    some (leAt b 4 4, sv, slot, cos && s.sec.flash.ownerPolicy.testBit 1, shake256 (b.take first))
  else none

/-- The image the boot ROM runs: the higher SECURITY_VERSION, then the higher FW_VERSION, then A. -/
def State.bootChoice (s : State) : Option (Nat × (Nat × Nat × Nat × Bool × Bytes)) :=
  match s.fwCheck s.sec.flash.fwA, s.fwCheck s.sec.flash.fwB with
  | some a, some b => if a.2.1 < b.2.1 ∨ (a.2.1 = b.2.1 ∧ a.1 < b.1) then some (1, b) else some (0, a)
  | some a, none => some (0, a)
  | none, some b => some (1, b)
  | none, none => none

/-- First key of dump slot `k` (R454). -/
def dumpBase (k : Nat) : Nat := 0x08100000 + k * 0x03000000

/-- Whether the header of dump slot `k` reads right: MAGIC, and DIGEST over bytes 256 to BYTES - 1 (R454). -/
def State.dumpHeaderOk (s : State) (k : Nat) : Bool :=
  let b := dumpBase k
  let n := s.rdNat (b + 36) 4
  decide (s.rdBytes b 4 = ascii "VDMP") && decide (256 ≤ n) && decide (n ≤ 0x03000000)
    && decide (s.rdBytes (b + 64) 32 = shake256 (s.rdBytes (b + 256) (n - 256)))

/-- HNG_SLOT_s from the header of dump slot `k`. -/
def State.showDump (s : State) (k : Nat) (valid : Bool) : State :=
  let b := dumpBase k
  let s := { s with dumps := s.dumps.set k { s.dumps.getD k {} with valid := valid } }
  (((((s.wrB F.HNG_SLOT_VALID valid k).wr F.HNG_SLOT_LIMIT (s.rdNat (b + 29) 1 % 2) k).wr F.HNG_SLOT_PARTITION
    (s.rdNat (b + 6) 1) k).wr F.HNG_SLOT_CAUSE (s.rdNat (b + 7) 1) k).wr F.HNG_SLOT_UNREADABLE (min (s.rdNat (b + 32) 2) 255) k).wr
    F.HNG_SLOT_DUMP_SEQ (s.rdNat (b + 48) 4) k

/-- At Drum the device checks each dump slot and reports the valid ones (R454). -/
def State.dumpCheck (s : State) : State :=
  (List.range 4).foldl (fun s k => if s.dumpHeaderOk k then s.showDump k true else s.wr F.HNG_SLOT_VALID 0 k) s

/-- FIRMWARE_AUTHENTICATE (R468, R294, R296): Drum, or the stage held at Footing. -/
def execFirmwareAuthenticate (t : Nat) (s : State) : Out :=
  let s := s.tick t
  if s.stage ≠ stFooting ∨ s.pwr.perst ∨ s.fwUp ∨ s.heldFor [4] then .next s
  else if s.on F.PWR_STATUS_SEQ_VIOL then .next (s.hold 2)
  else if s.on F.PWR_STATUS_TRIP then .next (s.hold 3)
  else if s.on F.PWR_STATUS_RAIL_FAULT then .next (s.hold 8)
  else if !s.on F.PWR_STATUS_CONV_ON then .next (s.hold 1)
  else
    match s.bootChoice with
    | none => .next (s.hold 4)
    | some (k, v, sv, slot, cos, dig) =>
      let s := { s with sec := { s.sec with fw := some { slot := k, version := v, secVersion := sv, digest := dig } },
                        host := { s.host with kickAt := s.now } }
      let s := ((s.wrB F.SEC_STATUS_FW_OWNER (slot = 128)).wr F.SEC_STATUS_FW_ROOT (if slot = 128 then 0 else slot)).wrB
        F.SEC_STATUS_FW_COSIGNED cos
      let s := ((s.wr F.AON_STAGE_FIRMWARE 1).wr F.AON_STAGE_MAILBOX 1).wr F.AON_STAGE_TELEMETRY 1
      let s := ((s.wr F.AON_STAGE_HOLD_REASON 0).wr F.AON_STAGE_MS_DRUM (s.msSince s.pwr.t0)).setStage stDrum
      .next s.ldDrum.dumpCheck

/-! ### Dome (R258, R259) -/

/-- Physical arrays that failed R40 or whose die pair is absent. -/
def allFailed (absentPairs failedArrays : List Nat) : List Nat :=
  below 272 (fun pa => pa ∈ failedArrays || pa / 68 ∈ absentPairs)

/-- Every page-map entry written 0, and the state that a Dome starts afresh: erased lanes, patches, mirror slots (R225, R258, R264, R433). -/
def State.domeFresh (s : State) : State :=
  let s := s.forget 0 (2 ^ 27)
  let s := { s with memx := { s.memx with erased := [], laneCorr := [], tcache := [] }, slots := [], snp := [], restores := [] }
  let s := (List.range 16).foldl (fun s n => s.wr F.MEM_ECC_ERASED_LANES 0 n) s
  (List.range 16).foldl (fun s p =>
    (List.range 2).foldl (fun s r => (s.wr F.SNP_MIRROR_STATE_A 0 p r).wr F.SNP_MIRROR_STATE_B 0 p r)
      ((s.wr F.MGT_PATCH_SEQ_SEQ 0 p).wr F.MGT_PATCH_SEQ_APPLIED 0 p)) s

/-- Clock states after Dome: a group of a pair that trained runs at its level, any other is absent. -/
def State.startGroups (s : State) (absentPairs : List Nat) : State :=
  (List.range 16).foldl (fun s g =>
    if g / 4 ∈ absentPairs then ((s.wr F.CLK_AG_STATE 4 g).wr F.CLK_AG_MHZ 0 g).wr F.CLK_AG_MV 0 g
    else if agetD s.pwr.grpMhz g 0 = 0 then ((s.wr F.CLK_AG_STATE 2 g).wr F.CLK_AG_MHZ 0 g).wr F.CLK_AG_MV 0 g
    else
      { (((s.wr F.CLK_AG_STATE 0 g).wr F.CLK_AG_MHZ (agetD s.pwr.grpMhz g 0) g).wr F.CLK_AG_MV (agetD s.pwr.grpMv g 800) g) with
        pwr := { s.pwr with idleSince := aset s.pwr.idleSince g s.now } }) s

/-- Dome is refused with a failing code (R259): it is kept in MGT_IMAGE_STATUS, and the stage is held at Drum (R296). -/
def State.domeRefuse (s : State) (kind slot : Nat) (e : ImgErr) : State := (s.imgStatus kind slot 0 e).hold 5

/-- Every port of role FABRIC begins to train (R346); the other ports stay dark (R328). -/
def State.startPorts (s : State) : State :=
  (List.range 32).foldl (fun (s : State) i =>
    if s.rd F.FAB_PORT_ROLE i = 1 then
      let x : FPort := { lastRx := s.now, since := s.now, tryAt := s.now }
      ({ s with fab := { s.fab with ports := aset s.fab.ports i x } } : State).wr F.FAB_PORT_STATE 1 i
    else s) s

/-- DOME_APPLY (R258, R259): the trim image, the selected structure image, die links, the array check, DRAM training, code 14h, then the
registers and the directory. -/
def execDomeApply (t : Nat) (absentPairs failedArrays failedChannels : List Nat) (s : State) : Out :=
  let s := s.tick t
  if s.stage ≠ stDrum ∨ !s.fwUp ∨ s.heldFor [5] then .next s
  else
    let tb := s.sec.flash.trim
    match s.check01to06 tb 3 with
    | some e => .next (s.domeRefuse 3 255 e)
    | none =>
      let trim := parseImage tb
      let s := { s with img := { s.img with trims := trim.trims, trimDigest := shake256 (imgMsg tb), trimSv := trim.hdr.secVersion } }
      let slot := s.sec.flash.bootSlot
      let b := s.sec.flash.slots.getD slot []
      match s.check01to06 b 1 with
      | some e => .next (s.domeRefuse 1 slot e)
      | none =>
        let im := parseImage b
        match consistencyBad im with
        | some e => .next (s.domeRefuse 1 slot e)
        | none =>
          let failed := allFailed absentPairs failedArrays
          let s := { s with img := { s.img with absentPairs := absentPairs } }
          let s := (List.range 272).foldl (fun s pa => s.wr F.SPR_STATUS_ROLE (if pa ∈ failed then 0 else 5) pa) s
          let s := (List.range 16).foldl (fun s n =>
            s.wr F.MEM_CHAN_ABSENT_ABSENT (((below 64 (fun c => 64 * n + c ∈ failedChannels)).map (fun c => 2 ^ c)).sum) n) s
          let s := s.ldDiscover
          match hardwareBad im absentPairs failed failedChannels with
          | some e => .next (s.domeRefuse 1 slot e)
          | none =>
            let s := (s.domeFresh.loadImage im failed).startGroups absentPairs
            let s := { s with img := { s.img with slot := slot, digest := shake256 (imgMsg b), patchChain := natLe 32 0, patchSv := 0 } }
            let s := (s.wr F.MGT_IMAGE_ID_IMAGE_ID im.hdr.imageId).imgStatus 1 slot 0 (0, 0, 0)
            let s := ((s.wr F.AON_STAGE_IMAGE 1).wr F.AON_STAGE_DRAM 1).wr F.AON_STAGE_PARTITIONS 1
            let s := (s.wr F.AON_STAGE_HOLD_REASON 0).wr F.AON_STAGE_MS_DOME (s.msSince s.pwr.t0)
            .next (s.startPorts.ldImage.setStage stDome)

/-! ### Finial (R297, R404) and the guarantees (R13 to R17, R256) -/

/-- Whether no partition of the image has passed the short field test. -/
def State.nonePassed (s : State) : Bool := s.partNums.all (fun p => !(s.rd F.AON_READY_TESTED).testBit p)

/-- SHORT_FIELD_TEST of one partition (R404): an ACTIVE array that fails keeps the partition out of READY, a spare that fails serves no
echoes; with every partition failing, the stage is held (R296). -/
def execShortFieldTest (t p : Nat) (failedArrays : List Nat) (s : State) : Out :=
  let s := s.tick t
  if s.stage ≠ stDome ∨ !s.hasPart p ∨ p ∈ s.pwr.fieldDone then .next s
  else
    let arrays := below 272 (fun pa => decide (pa / 17 ∈ s.groupsOf p) && decide (pa ∈ failedArrays)
      && decide (s.rd F.SPR_STATUS_ROLE pa ≠ 0))
    let active := arrays.any (fun pa => s.rd F.SPR_STATUS_ROLE pa = 1)
    let s := { s with gal := { s.gal with noEcho :=
        (arrays.filter (fun pa => s.rd F.SPR_STATUS_ROLE pa = 2)).foldl addOnce s.gal.noEcho },
                      pwr := { s.pwr with fieldDone := s.pwr.fieldDone ++ [p] } }
    let s := (s.wrBit F.AON_READY_TESTED p (!active)).coverage p
    if s.partNums.all (fun q => q ∈ s.pwr.fieldDone) then
      let s := s.wr F.AON_STAGE_FIELD_TEST 1
      .next (if s.nonePassed then s.hold 7 else s)
    else .next s

/-- Minimum firmware of guarantee `k` of R13, by its bit of MGT_GUARANTEE [4:0]: 1.0, 1.2, 1.4, 1.2 and 1.0. -/
def minFirmware (k : Nat) : Nat := [0x10000, 0x10002, 0x10004, 0x10002, 0x10000].getD k 0

/-- The guarantees whose conditions all hold now, as bits of MGT_GUARANTEE [4:0] (R13, R14, R256, R434, R478). Silent errors needs snapshots to
reach back beyond H, so a SNAPSHOT record, with which R255 holds (notes/assumptions/79.md). -/
def State.conditions (s : State) : Nat :=
  let v := s.fwVersion
  let base := decide (s.stage = stFinial) && s.pwr.breaches.isEmpty && !s.on F.PWR_STATUS_SEQ_VIOL && !s.on F.PWR_STATUS_TRIP
    && decide (s.rd F.SEC_STATUS_DEBUG_SCOPE = 0)
  let all := fun (f : Nat → Bool) => s.partNums.all f
  let home := fun (p : Nat) => (s.homeOf p).getD 0
  let b := fun (k : Nat) (ok : Bool) => if base && ok then 2 ^ k else 0
  b 0 (decide (minFirmware 0 ≤ v)) + b 1 (decide (minFirmware 1 ≤ v) && all (fun p => s.on F.AG_RED_PERMIT_REPLAY (home p)))
    + b 2 (decide (minFirmware 2 ≤ v) && all (fun p => s.hasRec p 10 && s.hasRec p 11 && s.hasRec p 12 && s.on F.SNP_STATUS_RECOVERY p))
    + b 3 (decide (minFirmware 3 ≤ v) && all (fun p => s.goalMet p && s.hasRec p 10))
    + b 4 (decide (minFirmware 4 ≤ v))

/-- Guarantees whose conditions no longer all hold lapse, each with a level 1 fault in the class concerned (R15): security where the firmware
lies below the minimum, else that of the block that decides the condition (notes/assumptions/72.md). -/
def State.lapseFailed (s : State) : State :=
  let c := s.conditions
  [(1, F.MGT_GUARANTEE_HOLD_REPLAY, 2), (2, F.MGT_GUARANTEE_HOLD_RECOVERY, 0), (3, F.MGT_GUARANTEE_HOLD_SILENT, 1),
   (0, F.MGT_GUARANTEE_HOLD_CONSERVE, 4), (4, F.MGT_GUARANTEE_HOLD_VECTORS, 4)].foldl (fun (s : State) (e : Nat × Fld × Nat) =>
    if s.on e.2.1 && !c.testBit e.1 then
      let cls := if s.fwVersion < minFirmware e.1 then 5 else if s.pwr.breaches.isEmpty then e.2.2 else 4
      let src := if cls = 5 then 0x5D else if cls = 4 then 0x5E else 0x58
      (s.lapse (2 ^ e.1)).raise { cls := cls, level := 1, master := src, source := src, aux := e.1 }
    else s) s

/-- At a step boundary a HOLD bit returns to 1 when every condition holds again, and one whose condition fails lapses (R15). -/
def State.judgeGuarantees (s : State) : State :=
  let c := s.conditions
  [(0, F.MGT_GUARANTEE_HOLD_CONSERVE), (1, F.MGT_GUARANTEE_HOLD_REPLAY), (2, F.MGT_GUARANTEE_HOLD_RECOVERY),
   (3, F.MGT_GUARANTEE_HOLD_SILENT), (4, F.MGT_GUARANTEE_HOLD_VECTORS)].foldl
    (fun s e => if c.testBit e.1 then s.wr e.2 1 else s) s.lapseFailed

/-- Port states of FABRIC ports: those that trained (UP, RETRAIN, SILENT or ISOLATE) and those that count as failed (DOWN). -/
def State.portTrained (s : State) (i : Nat) : Bool := decide (s.rd F.FAB_PORT_STATE i ∈ [2, 3, 4, 5])

def State.portFailed (s : State) (i : Nat) : Bool := decide (s.rd F.FAB_PORT_STATE i = 6)

/-- Partitions with a source whose alert path is broken (R366). -/
def State.brokenFor (s : State) (p : Nat) : Bool :=
  let br := fun (m : Nat) => if m < 64 then (s.rd F.FC_BROKEN_LO_BROKEN).testBit m else (s.rd F.FC_BROKEN_HI_BROKEN).testBit (m - 64)
  (s.groupsOf p).any (fun g => br g || br (0x10 + g) || br (0x20 + g) || br (0x30 + g))
    || (match s.img.act with
        | some im => im.chans.any (fun r => decide (r.p = p)
            && (List.range 16).any (fun n => decide (bits r.chans (64 * n) 64 ≠ 0) && br (0x40 + n)))
        | none => false)
    || (s.groupsOf p).any (fun g => br (0x50 + g / 4))

/-- A partition is job-ready: tested, its last restore ended OK, and none of its sources has a broken path (R297, R366, R444). -/
def State.jobReady (s : State) (p : Nat) : Bool :=
  (s.rd F.AON_READY_TESTED).testBit p && decide (s.rd F.SNP_RESTORE_STATE p ≠ 3) && decide (s.rd F.SNP_RESTORE_STATE p ≠ 1)
    && !s.brokenFor p

/-- AON_READY.READY and AON_STAGE.JOB_READY follow the partitions while the device is at Finial. -/
def State.setReady (s : State) : State :=
  if s.stage = stFinial then
    let r := ((s.partNums.filter s.jobReady).map (fun p => 2 ^ p)).sum
    (s.wr F.AON_READY_READY r).wrB F.AON_STAGE_JOB_READY (r ≠ 0)
  else s

/-- FINIAL_REACHED (R297, R296, R17): every FABRIC port trained or failed, admission over at least one unless the image has none, and the short
field test done in every partition and passed in one. -/
def execFinialReached (t : Nat) (s : State) : Out :=
  let s := s.tick t
  let ports := below 32 (fun i => decide (s.rd F.FAB_PORT_ROLE i = 1))
  let settled := ports.all (fun i => s.portTrained i || s.portFailed i)
  if s.stage ≠ stDome ∨ !s.on F.AON_STAGE_FIELD_TEST ∨ s.nonePassed ∨ !settled ∨ s.heldFor [6, 7] then .next s
  else if !ports.isEmpty && !ports.any s.portTrained then .next (s.hold 6)
  else if !ports.isEmpty && !s.on F.FAB_ADDR_ADMITTED then .next s
  else
    let s := ((s.wr F.AON_STAGE_FABRIC 1).wr F.AON_STAGE_HOLD_REASON 0).wr F.AON_STAGE_MS_FINIAL (s.msSince s.pwr.t0)
    let s := s.partNums.foldl (fun s p => s.setSnap p { s.snap p with armedAt := s.now }) s
    let s := (s.setStage stFinial).setReady
    .next s.ldAddress.judgeGuarantees

/-! ### Rails, trip and throttle (R282, R291, R293) -/

/-- RAIL_SAMPLE (R282): rails 0 to 15 are VAG0 to VAG15, the others VSRAM, VDRAM, VPHO, VBFY, VKEEP. -/
def execRailSample (t rail dev : Nat) (s : State) : Out :=
  let s := s.tick t
  inst (rail < 39)
    (if !s.on F.PWR_STATUS_CONV_ON then s
     else if dev ≤ 30 then
       { s with pwr := { s.pwr with railOut := adel s.pwr.railOut rail, railActed := s.pwr.railActed.filter (fun r => r ≠ rail) } }
     else
       match aget s.pwr.railOut rail with
       | none => { s with pwr := { s.pwr with railOut := aset s.pwr.railOut rail s.now } }
       | some since =>
         if s.now < since + 10000 ∨ rail ∈ s.pwr.railActed then s
         else
           let s := { s with pwr := { s.pwr with railActed := s.pwr.railActed ++ [rail] } }
           if rail < 16 then
             s.raise { cls := 4, level := 2, master := 0x54, part := (s.partOf rail).getD 255, source := 0x54, aux := rail }
           else
             let s := s.convertersOff.wr F.PWR_STATUS_RAIL_FAULT 1
             (s.raise { cls := 4, level := 3, master := 0x54, source := 0x54, aux := rail }).hold 8)

/-- THERMAL_TRIP (R291, R490): converters off, TRIP, a level 3 power/thermal fault, one THERMAL override. -/
def execThermalTrip (t sensor : Nat) (s : State) : Out :=
  let s := s.tick t
  inst (sensor < 29)
    (if !s.on F.AON_STAGE_SUPERVISION then s
     else
       let s := (s.convertersOff.wr F.PWR_STATUS_TRIP 1).inc F.PWR_OVERRIDE_THERMAL
       (s.raise { cls := 4, level := 3, master := 0x5E, source := 0x5E, code := 3, aux := sensor }).hold 3)

/-- The throttle threshold in force: THROTTLE_C between 85 and 115. -/
def State.throttleC (s : State) : Nat := min 115 (max 85 (s.rd F.PWR_CAP_THROTTLE_C))

/-- The hottest of the logic dies' samples. -/
def State.hottest (s : State) : Int :=
  (s.pwr.dieTemp.filter (fun e => e.1 < 16)).foldl (fun m e => max m e.2) (-128)

/-- The hottest of all sensors at their last samples, the stacks' included; 127 while a die has none (R291). -/
def State.hottestSensor (s : State) : Int :=
  if (List.range 10).all (fun d => (aget s.pwr.dieTemp d).isSome) then s.pwr.dieTemp.foldl (fun m e => max m e.2) (-128) else 127

/-- THERMAL_THROTTLE_SAMPLE (R291, R293, R487): throttling begins with the first sample above the threshold, counting one THERMAL override for
the episode, and ends when every die lies 3 degrees below it. -/
def execThermalThrottleSample (t die : Nat) (c : Int) (s : State) : Out :=
  let s := s.tick t
  let s := { s with pwr := { s.pwr with dieTemp := aset s.pwr.dieTemp die c } }
  let s := s.wr F.PWR_STATUS_HOTTEST_C (unsigned s.hottest 8)
  let th : Int := s.throttleC
  let s :=
    if s.on F.PWR_STATUS_THERM_THROTTLE then
      if s.hottest ≤ th - 3 then s.wr F.PWR_STATUS_THERM_THROTTLE 0 else s
    else if c > th then ((s.wr F.PWR_STATUS_THERM_THROTTLE 1).inc F.PWR_OVERRIDE_THERMAL).campAbort else s
  inst (die < 10) (s.judgeRating (50 + die) (decide (10 ≤ c) && decide (c ≤ 105)))

/-- A write of 1 to TRIP (R291, R492): it clears only while every sensor reads below 100 degrees, and a cold start begins once no latch is
left. -/
def State.tripCleared (s : State) (hottest : Int) : State :=
  if s.on F.PWR_STATUS_TRIP && decide (hottest < 100) then
    (({ s with pwr := { s.pwr with coldDue := true } } : State).wr F.PWR_STATUS_TRIP 0).startConverters
  else s

/-- TRIP_CLEAR (R291, R492). -/
def execTripClear (t : Nat) (hottest : Int) (s : State) : Out := .next ((s.tick t).tripCleared hottest)

/-- A write of 1 to the latch SEQ_VIOL or RAIL_FAULT: it clears only while MAIN_IN is invalid (R280, R282). -/
def State.latchCleared (s : State) (f : Fld) : State :=
  if s.pwr.main || !s.on f then s else ({ s with pwr := { s.pwr with coldDue := true } } : State).wr f 0

/-- SEQ_VIOL_CLEAR (R280). -/
def execSeqViolClear (t : Nat) (s : State) : Out := .next ((s.tick t).latchCleared F.PWR_STATUS_SEQ_VIOL)

/-- RAIL_FAULT_CLEAR (R282). -/
def execRailFaultClear (t : Nat) (s : State) : Out := .next ((s.tick t).latchCleared F.PWR_STATUS_RAIL_FAULT)

/-! ### Power cap and clocks (R284, R288 to R290) -/

/-- The cap in force: CAP_W between 1,500 and 4,000 (R288). -/
def State.capW (s : State) : Nat := min 4000 (max 1500 (s.rd F.PWR_CAP_CAP_W))

/-- AG_MHZ of the image for group `g`. -/
def State.agMhz (s : State) (g : Nat) : Nat :=
  match s.img.act with
  | some im => ((im.clocks.head?.map (fun (c : ClockRec) => c.agMhz)).getD []).getD g 0
  | none => 0

/-- BFY_MHZ of the image. -/
def State.bfyCeil (s : State) : Nat :=
  match s.img.act with
  | some im => (im.clocks.head?.map (fun (c : ClockRec) => c.bfyMhz)).getD 0
  | none => 0

/-- Groups that run. -/
def State.running (s : State) : List Nat := below 16 (fun g => decide (s.rd F.CLK_AG_STATE g = 0) && decide (s.agMhz g ≠ 0))

/-- CAP_LOOP_SAMPLE (R289, R290). -/
def execCapLoopSample (t watts : Nat) (s : State) : Out :=
  let s := s.tick t
  if !s.on F.PWR_STATUS_CONV_ON then .next s
  else
    let old := s.pwr.samples
    let new := (watts :: old).take 1000
    let avg := new.sum / new.length
    let s := { s with pwr := { s.pwr with samples := new } }
    let s := ((s.wr F.PWR_MEAS_INST_W watts).wr F.PWR_MEAS_AVG_W avg).wr F.PWR_MEAS_PEAK_W (max (s.rd F.PWR_MEAS_PEAK_W) watts)
    let floor := s.running.all (fun g => agetD s.pwr.grpMhz g 0 ≤ 1000)
    let soon := ((new.take 900).sum + 100 * watts) / min 1000 (new.length + 100)
    .next (if 4600 < watts ∨ (floor ∧ (s.capW ≤ avg ∨ s.capW ≤ soon)) then s.wr F.PWR_STATUS_FAST_LIMIT 1
      else if 100 * avg < 95 * s.capW then s.wr F.PWR_STATUS_FAST_LIMIT 0 else s)

/-- Shows a group's clock and rail in CLK_AG_g: 0 MHz while gated, 0 mV while power gated. -/
def State.showClock (s : State) (g : Nat) : State :=
  let st := s.rd F.CLK_AG_STATE g
  (s.wr F.CLK_AG_MHZ (if st = 0 then agetD s.pwr.grpMhz g 0 else 0) g).wr F.CLK_AG_MV
    (if st = 2 ∨ st = 4 then 0 else agetD s.pwr.grpMv g 800) g

/-- Sets the clock level of group `g`. -/
def State.setMhz (s : State) (g v : Nat) : State :=
  ({ s with pwr := { s.pwr with grpMhz := aset s.pwr.grpMhz g v } } : State).showClock g

/-- Sets the commanded voltage of rail `g`. -/
def State.setMv (s : State) (g v : Nat) : State :=
  ({ s with pwr := { s.pwr with grpMv := aset s.pwr.grpMv g v } } : State).showClock g

/-- A higher clock for group `g`: its rail rises first, to a voltage between the present one and 800 mV that the manual does not give: a free
value (R284; notes/assumptions/98.md). -/
def State.raiseMhz (s : State) (g v : Nat) : State :=
  let mv := agetD s.pwr.grpMv g 800
  if v ≤ agetD s.pwr.grpMhz g 0 then s
  else if mv < 800 then ((s.setMv g (mv + s.free % (801 - mv))).freeTaken).setMhz g v
  else s.setMhz g v

/-- The same for the Belfry cores and VBFY, up to 950 mV (R284, R292). -/
def State.raiseBfy (s : State) (v : Nat) : State :=
  let mv := s.pwr.bfyMv
  if v ≤ s.pwr.bfyMhz then s
  else
    let s := if mv < 950 then ({ s with pwr := { s.pwr with bfyMv := mv + s.free % (951 - mv) } } : State).freeTaken else s
    { s with pwr := { s.pwr with bfyMhz := v } }

/-- Running Belfry cores show the clock of their complex. -/
def State.showBfy (s : State) : State :=
  (List.range 48).foldl (fun s n =>
    if s.rd F.MGT_BFY_CORE_STATE n = 1 then s.wr F.MGT_BFY_CORE_FREQ_MHZ s.pwr.bfyMhz n else s) s

/-- One step down of the clock of group `g`: 50 MHz, not below 1,000 MHz; a clock that stands lower stays (R289, R293). -/
def State.lowerMhz (s : State) (g : Nat) : State :=
  let v := agetD s.pwr.grpMhz g 0
  if v ≤ 1000 then s else s.setMhz g (max 1000 (v - 50))

/-- CLOCK_ADJUST_STEP (R289, R291): one step of the cap loop and the throttle, at most one in 10 µs. CAP_ACTIVE reads 1 while a clock that the cap
loop lowered lies below AG_MHZ. -/
def execClockAdjustStep (t : Nat) (s : State) : Out :=
  let s := s.tick t
  if s.now < s.pwr.clkStep + 10000 then .next s
  else
    let s := { s with pwr := { s.pwr with clkStep := s.now } }
    let avg := s.rd F.PWR_MEAS_AVG_W
    let gs := below 16 (fun g => decide (s.agMhz g ≠ 0))
    let high := decide (s.capW < avg)
    let s :=
      if high || s.on F.PWR_STATUS_THERM_THROTTLE then
        let s := { s with pwr := { s.pwr with capLow := s.pwr.capLow || high } }
        if s.running.all (fun g => agetD s.pwr.grpMhz g 0 ≤ 1000) then
          { s with pwr := { s.pwr with bfyMhz := max (min 400 s.pwr.bfyMhz) (s.pwr.bfyMhz - 100) } }
        else s.running.foldl (fun (s : State) g => s.lowerMhz g) s
      else if 100 * avg < 95 * s.capW then
        (gs.foldl (fun (s : State) g => s.raiseMhz g (min (s.agMhz g) (agetD s.pwr.grpMhz g 0 + 50))) s).raiseBfy
          (min s.bfyCeil (s.pwr.bfyMhz + 100))
      else s
    let lowNow := gs.any (fun g => agetD s.pwr.grpMhz g 0 < s.agMhz g)
    let s := { s.showBfy with pwr := { s.showBfy.pwr with capLow := s.pwr.capLow && lowNow } }
    .next (s.wrB F.PWR_STATUS_CAP_ACTIVE s.pwr.capLow)

/-- Whether a requester may write PWR_CAP (R288). -/
def mayWriteCap : Requester → Bool
  | .pf0 => true
  | .mgt => true
  | .vf _ => false
  | .bfy _ => false

/-- A write to PWR_CAP (R288). -/
def State.capWrite (s : State) (value : Nat) : State := (s.wr F.PWR_CAP_CAP_W (bits value 0 12)).wr F.PWR_CAP_THROTTLE_C (bits value 16 8)

/-- PWR_CAP_WRITE (R288). -/
def execPwrCapWrite (t : Nat) (who : Requester) (value : Nat) (s : State) : Out :=
  let s := s.tick t
  .next (if mayWriteCap who then s.capWrite value else s)

/-! ### Adaptive voltage (R292, R293) -/

/-- A raise of a rail by up to `by_` mV; it counts a MARGIN override while the cap loop is lowering clocks. Rail 16 is VBFY. -/
def State.raiseMv (s : State) (g by_ : Nat) : State :=
  let old := if g = 16 then s.pwr.bfyMv else agetD s.pwr.grpMv g 800
  let new := min (if g = 16 then 950 else 800) (old + by_)
  if new ≤ old then s
  else
    let s := if g = 16 then { s with pwr := { s.pwr with bfyMv := new } } else s.setMv g new
    if s.capW < s.rd F.PWR_MEAS_AVG_W then s.inc F.PWR_OVERRIDE_MARGIN else s

/-- Whether the adaptive loop steps rail `g` now: a group that runs, or the Belfry complex while it is clocked; one step in 10 µs (R292). -/
def State.railSteps (s : State) (g : Nat) : Bool :=
  (if g = 16 then decide (s.pwr.bfyMhz ≠ 0) else decide (s.rd F.CLK_AG_STATE g = 0))
    && (aget s.pwr.mvAt g).all (fun a => a + 10000 ≤ s.now)

/-- One step of the adaptive voltage loop of an array-group rail (R292). -/
def State.railStep (s : State) (g : Nat) (marginBelow marginNow : Bool) : State :=
  let mv := agetD s.pwr.grpMv g 800
  if marginBelow then (if 605 ≤ mv then s.setMv g (mv - 5) else s)
  else if marginNow then s
  else if mv < 800 then s.raiseMv g 5
  else (s.setMhz g (agetD s.pwr.grpMhz g 0 - 50)).inc F.PWR_OVERRIDE_MARGIN

/-- The same of VBFY, between 550 and 950 mV (R292; notes/assumptions/99.md). -/
def State.bfyStep (s : State) (marginBelow marginNow : Bool) : State :=
  let mv := s.pwr.bfyMv
  if marginBelow then (if 555 ≤ mv then { s with pwr := { s.pwr with bfyMv := mv - 5 } } else s)
  else if marginNow then s
  else if mv < 950 then s.raiseMv 16 5
  else (({ s with pwr := { s.pwr with bfyMhz := s.pwr.bfyMhz - 50 } } : State).showBfy).inc F.PWR_OVERRIDE_MARGIN

/-- ADAPTIVE_VOLTAGE_STEP (R292): 5 mV towards the lowest voltage with margin; without margin at the highest voltage the clock falls by 50 MHz and
MARGIN counts. -/
def execAdaptiveVoltageStep (t g : Nat) (marginBelow marginNow : Bool) (s : State) : Out :=
  let s := s.tick t
  inst (g < 17)
    (if s.railSteps g then
       let s := { s with pwr := { s.pwr with mvAt := aset s.pwr.mvAt g s.now } }
       if g = 16 then s.bfyStep marginBelow marginNow else s.railStep g marginBelow marginNow
     else s)

/-- DROOP_DETECT (R292): the group's clock is stretched by one period, and the rail rises by 10 mV; the Belfry complex has no stretch counter. -/
def execDroopDetect (t g : Nat) (s : State) : Out :=
  let s := s.tick t
  inst (g < 17)
    (if g = 16 then (if s.pwr.bfyMhz = 0 then s else s.raiseMv 16 10)
     else if s.rd F.CLK_AG_STATE g ≠ 0 then s
     else (s.inc F.CLK_AG_STRETCHES g).raiseMv g 10)

/-! ### Who writes (R239, R301) -/

/-- The function a requester's posted writes come through. -/
def whoFn (who : Requester) : Fn :=
  match who with
  | .pf0 => .pf0
  | .mgt => .pf0
  | .vf n => .vf n
  | .bfy p => .bfy p

/-- A level 1 security-class fault of a register access of core `n` of partition `p` (R239). -/
def State.coreDenied (s : State) (n p : Nat) (write : Bool) : State :=
  s.raise { cls := 5, level := 1, master := 0x59, access := if write then 2 else 1, part := p, source := 0x59, aux := n }

/-- The same of a requester given by its partition: its lowest core stands for it (notes/assumptions/95.md). -/
def State.registerDenied (s : State) (p : Nat) (write : Bool) : State := s.coreDenied ((s.coresOf p).head?.getD 0) p write

/-- A write to a register of partition `p`'s own windows: by management and the partition's Belfry cores; another partition's Belfry core is denied
(R239), and a VF has no register window (R301). -/
def State.asWriter (s : State) (who : Requester) (p : Nat) (eff : State → State) : State :=
  match who with
  | .vf _ => s
  | .bfy q => if q = p then eff s else s.registerDenied q true
  | .pf0 => eff s
  | .mgt => eff s

/-- A write to a register that PF0 and the management core alone write; a Belfry core is denied (R239). -/
def State.asAdmin (s : State) (who : Requester) (eff : State → State) : State :=
  match who with
  | .vf _ => s
  | .bfy q => s.registerDenied q true
  | .pf0 => eff s
  | .mgt => eff s

/-! ### Wake requests (R286, R287) and the order of posted writes (R244, R303) -/

/-- Whether array group `g` runs. -/
def State.groupRuns (s : State) (g : Nat) : Bool := decide (s.rd F.CLK_AG_STATE g = 0)

/-- Asks the wake controller to wake group `g`; a group asleep joins the queue once (R286, R287). -/
def State.wakeRequest (s : State) (g : Nat) : State :=
  let st := s.rd F.CLK_AG_STATE g
  if (st = 1 ∨ st = 2) ∧ !s.safe ∧ s.pwr.wakeQ.all (fun w => w.g ≠ g) then
    { s with pwr := { s.pwr with wakeQ := s.pwr.wakeQ ++ [{ g := g, at_ := s.now }] } }
  else s

/-- An event waits under a key of the held events: a group, or 16 behind a held write of its sender. -/
def State.queueEvent (s : State) (k : Nat) (ev : HeldEvent) : State := { s with pwr := { s.pwr with held := s.pwr.held ++ [(k, ev)] } }

/-- The wake controller holds an event until group `g` runs (R286); nothing wakes an absent group, or any in the safe state. -/
def State.holdEvent (s : State) (g : Nat) (ev : HeldEvent) : State :=
  if s.safe ∨ s.rd F.CLK_AG_STATE g = 4 then s else (s.queueEvent g ev).wakeRequest g

/-- The function whose posted write an event is, where it is one. The management core's writes are no posted writes of a function, and those of a
Belfry core are ordered with its doorbells alone (R244). -/
def senderOf (ev : HeldEvent) : Option Fn :=
  match ev with
  | .doorbell fn _ _ _ => some fn
  | .window fn _ _ => some fn
  | .access who _ _ _ (some _) =>
    match who with
    | .pf0 => some .pf0
    | .vf n => some (.vf n)
    | _ => none
  | _ => none

/-- Where an event has to wait behind earlier posted writes of its sender (R244, R303): under the key of such a write that is held, or under 16 while
a memory write is (notes/assumptions/96.md). -/
def State.behind (s : State) (ev : HeldEvent) : Option Nat :=
  match senderOf ev with
  | none => none
  | some fn =>
    match s.pwr.held.find? (fun e => senderOf e.2 = some fn) with
    | some e => some e.1
    | none => if s.memx.cowHolds.any (fun h => h.who = some fn) then some 16 else none

/-- The group whose clocked window holds the register, if one does. -/
def agOf (reg : Reg) (i : Nat) : Option Nat :=
  if reg = .CLK_AG ∨ reg = .PCI_DB ∨ reg = .PCI_RING then none
  else
    match reg.axes.2.2 with
    | .group => some i
    | .array => some (i / 17)
    | _ => none

/-- The master code that stands for the block that owns a register of a fault class (notes/assumptions/71.md). -/
def blockOf (cls : Nat) : Nat :=
  match cls with
  | 0 => 0x56
  | 1 => 0x56
  | 2 => 0x58
  | 3 => 0x5A
  | 4 => 0x5E
  | 5 => 0x5D
  | _ => 0x5F

/-- An access handled as R5 states: a read returns all ones, a write is not acted on, and a level 0 fault in the class of the owning block is
recorded. -/
def State.badAccess (s : State) (reg : Reg) (i : Nat) (write : Bool) : State :=
  let s := if write then s else { s with host := { s.host with readBack := List.replicate (reg.width / 8) 255 } }
  let src := match agOf reg i with
    | some g => if reg.faultClass = 1 then 0x30 + g else g
    | none => blockOf reg.faultClass
  s.raise { cls := reg.faultClass, level := 0, master := 0x7F, access := if write then 2 else 1, source := src }

/-- Whether the directory entry of the block that owns a register reads STATE UNKNOWN or ABSENT (R270). -/
def State.closedReg (s : State) (reg : Reg) (i : Nat) : Bool :=
  let k := match reg.axes.2.2 with
    | .array => (0x21, i)
    | .slice => (0x25, i)
    | .stack => (0x40, i)
    | .group => if (agOf reg i).isSome then (0x20, i) else (0, 0)
    | _ => if reg = Reg.MEM_REDTAB then (0x40, 0) else (0, 0)
  (s.ldir.find? (fun e => decide (e.type = k.1) && decide (e.inst = k.2))).any (fun e => e.state % 4 ≠ 1)

/-- A write to a register of AGg's window: it takes effect where the group runs and no posted write of its sender is held before it; for a group
asleep the wake controller holds it (R286, R303), and for one that the directory does not show present it is handled as R5 states (R270). -/
def State.windowWrite (s : State) (g : Nat) (reg : Reg) (i j : Nat) (who : Requester) (value : Nat) (eff : State → State) : State :=
  if s.closedReg reg i then s.badAccess reg i true
  else
    let ev : HeldEvent := .access who reg i j (some (value, 0))
    match s.behind ev with
    | some k => s.queueEvent k ev
    | none => if s.groupRuns g then eff s else s.holdEvent g ev

end Sys2Proof.Machine
end

