-- ==== Sys2Proof/Machine/Faults.lean ====
section
/-!
DEFINITION. Sys2Proof/Machine/Faults.lean: the fault collector (spec/16): sampling alert pairs, serving reports with escalation, records,
counters and the level's action, the safe state, acknowledgement, the mirror and the flash history.
-/

namespace Sys2Proof.Machine

/-! ### Records (R377) -/

/-- The 64 bytes of a fault record. -/
def FEntry.bytes (e : FEntry) : Bytes :=
  natLe 8 e.time ++ natLe 8 e.addr ++ natLe 1 e.cls ++ natLe 1 e.level ++ natLe 1 e.final ++ natLe 1 e.master ++ natLe 1 e.access
    ++ natLe 1 e.part ++ natLe 1 e.source ++ natLe 1 (e.flags + 128) ++ natLe 4 e.code ++ natLe 4 e.seq ++ natLe 8 e.aux
    ++ natLe 2 e.rep ++ natLe 1 e.stage ++ natLe 1 e.mode ++ natLe 20 0

/-- A fault record as its 64 bytes spell it. -/
def entryOf (b : Bytes) : FEntry :=
  { time := leAt b 0 8, addr := leAt b 8 8, cls := leAt b 16 1, level := leAt b 17 1, final := leAt b 18 1, master := leAt b 19 1,
    access := leAt b 20 1, part := leAt b 21 1, source := leAt b 22 1, flags := leAt b 23 1 % 128, code := leAt b 24 4, seq := leAt b 28 4,
    aux := leAt b 32 8, rep := leAt b 40 2, stage := leAt b 42 1, mode := leAt b 43 1 }

/-- The first-error record of class `c` as its registers hold it (R376). -/
def State.firstRecord (s : State) (c : Nat) : Bytes :=
  (List.range 8).flatMap (fun w => natLe 8 (s.rd F.FC_REC_LOW c w + 2 ^ 63 * s.rd F.FC_REC_HI c w))

/-- The eight bytes that a read of FC_LOG returns: part of the ring entry whose place it is, 0 where none stands there (R378). -/
def State.ringBytes (s : State) (i : Nat) : Bytes :=
  match s.fc.ring.find? (fun e => e.seq % 4096 = i / 8) with
  | some e => slice e.bytes (8 * (i % 8)) 8
  | none => natLe 8 0

/-- A patch is in progress while its groups wake. -/
def State.patching (s : State) : Bool := s.pwr.held.any (fun e => match e.2 with
  | .patch _ _ _ _ => true
  | _ => false)

/-- The collector's mode (R374). -/
def State.collMode (s : State) : Nat :=
  if s.stage = stFooting ∨ s.stage = stDrum ∨ s.stage = stDome then 1
  else if s.partNums.any s.resetting || s.on F.AON_STAGE_MGT_RESTART || !s.restores.isEmpty || s.patching then 3
  else if (List.range 272).any (fun pa => s.rd F.SPR_STATUS_ROLE pa = 4) || s.gal.camp.isSome then 2 else 0

/-- Pending bit of class `c` and scope `sc` (16 the device) (R370). -/
def State.pendingBit (s : State) (c sc : Nat) : Bool :=
  if sc = 16 then s.on F.FC_PEND_DEVICE c else (s.rd F.FC_PEND_PARTITIONS c).testBit sc

/-- Sets or clears a pending bit; a set bit clears itself after AUTO_ACK_MS as in force at that set (R372). -/
def State.setPending (s : State) (c sc : Nat) (v : Bool) : State :=
  let s := if sc = 16 then s.wrB F.FC_PEND_DEVICE v c else s.wrBit F.FC_PEND_PARTITIONS sc v c
  let rest := s.fc.autoClr.filter (fun e => !(decide (e.1 = c) && decide (e.2.1 = sc)))
  let ms := s.rd F.FC_CFG_AUTO_ACK_MS
  { s with fc := { s.fc with autoClr := if v && decide (ms ≠ 0) then rest ++ [(c, sc, s.now + ms * 1000000)] else rest } }

/-- Scope of a report: its partition, or 16 for the device. -/
def Report.scope (r : Report) : Nat := if r.part < 16 then r.part else 16

/-- Final level and the ESCALATED and DIRECT flags of a report (R371, R373, R375, R382). -/
def State.judge (s : State) (r : Report) : Nat × Bool × Bool :=
  let m := s.collMode
  if s.safe then (r.level, false, false)
  else if decide (r.cls = 6) && decide (1 ≤ r.level) && decide (m ≠ 0) then (3, false, true)
  else if decide (r.part < 16) && s.resetting r.part then (r.level, false, false)
  else if (decide (r.level = 1) || decide (r.level = 2)) && s.pendingBit r.cls r.scope then (r.level + 1, true, false)
  else (r.level, false, false)

/-- Counts a fault of class `c` at its final level (R379). -/
def State.countFault (s : State) (c final : Nat) : State :=
  s.inc (match final with
    | 0 => F.FC_CNT_LO_LEVEL0
    | 1 => F.FC_CNT_LO_LEVEL1
    | 2 => F.FC_CNT_HI_LEVEL2
    | _ => F.FC_CNT_HI_LEVEL3) c

/-- Captures the class's first-error record and the first fault of any class (R376); answers whether the record was captured. -/
def State.captureFirst (s : State) (e : FEntry) : Bool × State :=
  let b := e.bytes
  let cap := !s.on F.FC_REC_HI e.cls 2
  let s := if cap then
      (List.range 8).foldl (fun s w =>
        let x := leAt b (8 * w) 8
        (s.wr F.FC_REC_LOW (x % 2 ^ 63) e.cls w).wr F.FC_REC_HI (x / 2 ^ 63) e.cls w) s
    else s
  let s := if s.on F.FC_FIRST_INFO_VALID then s
    else
      let s := (s.wr F.FC_FIRST_ADDR_ADDRESS e.addr).wr F.FC_FIRST_TIME_TIME e.time
      let s := ((((s.wr F.FC_FIRST_INFO_VALID 1).wr F.FC_FIRST_INFO_FLAGS e.flags).wr F.FC_FIRST_INFO_SOURCE e.source).wr
        F.FC_FIRST_INFO_PARTITION e.part).wr F.FC_FIRST_INFO_ACCESS e.access
      (((s.wr F.FC_FIRST_INFO_MASTER e.master).wr F.FC_FIRST_INFO_FINAL e.final).wr F.FC_FIRST_INFO_LEVEL e.level).wr
        F.FC_FIRST_INFO_CLASS e.cls
  (cap, s)

/-- Whether a level 0 fault merges into the newest entry (R378). -/
def mergesInto (e n : FEntry) : Bool :=
  decide (e.final = 0) && decide (n.final = 0) && decide (e.cls = n.cls) && decide (e.source = n.source) && decide (e.master = n.master)
    && decide (e.code = n.code) && decide (e.time ≤ n.time + 1000000) && decide (n.rep < 65535)

/-- Writes an entry to the ring, or merges it (R377, R378); answers the entry as written. -/
def State.logEntry (s : State) (e : FEntry) : FEntry × State :=
  let fresh :=
    let q := if s.fc.seq = 0xFFFFFFFF then 1 else s.fc.seq + 1
    let e := { e with seq := q }
    let s := if 4096 ≤ s.fc.ring.length then s.inc F.FC_STATUS_OVERWRITTEN else s
    (e, { s with fc := { s.fc with seq := q, ring := (e :: s.fc.ring).take 4096 } })
  match s.fc.ring with
  | n :: rest =>
    if mergesInto e n then
      let n' := { n with rep := n.rep + 1 }
      (n', { s with fc := { s.fc with ring := n' :: rest } })
    else fresh
  | [] => fresh

/-! ### The safe state (R382) -/

/-- Arrays of a group stop: elements in flight are discarded, every drain credit returns, SHADOW_READY clears, no verdict is reported for an
interrupted pass; roles and the map stay (R43). -/
def State.stopArrays (s : State) (g : Nat) : State :=
  let s := (List.range 17).foldl (fun s j =>
    let pa := 17 * g + j
    ((((s.wr F.SPR_CREDIT_FREE 288 pa).wr F.SPR_CREDIT_IN_FLIGHT 0 pa).wr F.SPR_STATUS_SHADOW_READY 0 pa).wr F.SPR_STATUS_PASS_ACTIVE 0
      pa).wr F.SPR_STATUS_W 0 pa) s
  { s with pas := s.pas.map (fun (e : Nat × PaSt) =>
      if e.1 / 17 = g then (e.1, ({ quarters := e.2.quarters, badWords := e.2.badWords } : PaSt)) else e) }

/-- Every stairway engine and turret unit of a group stops: no copy is active, no program runs or waits (R149, R382). -/
def State.stopEngines (s : State) (g : Nat) : State :=
  (List.range 4).foldl (fun (s : State) e => s.wr F.STW_CMD_ACTIVE 0 g e)
    ((s.wr F.TUR_STATUS_RUNNING 0 g).wr F.TUR_STATUS_STAGED 0 g)

/-- Entry to the safe state, all its timed steps (R382): ISOLATE, arrays and engines stopped, Belfry cores held in reset, every group power
gated, stacks in self-refresh, HOLD bits and stage bits cleared, the flash history written, debug scopes locked (R477). -/
def State.enterSafe (s : State) (e : FEntry) : State :=
  let s := (s.wr F.FAB_ISOLATE_DEVICE 1).clearHolds
  let s := ((List.range 16).foldl State.stopArrays s) |> fun s => (List.range 16).foldl State.stopEngines s
  let s := (below 32 (fun i => decide (s.rd F.FAB_PORT_ROLE i = 1) && decide (s.rd F.FAB_PORT_STATE i = 2))).foldl
    (fun (s : State) i => (s.wr F.FAB_PORT_STATE 5 i).parentLost i) s
  let s := (below 48 (fun n => decide (s.rd F.MGT_BFY_CORE_STATE n ≠ 0))).foldl (fun s n =>
    (s.wr F.MGT_BFY_CORE_STATE 3 n).wr F.MGT_BFY_CORE_FREQ_MHZ 0 n) s
  let s := (below 16 (fun g => decide (s.rd F.CLK_AG_STATE g ≠ 4))).foldl (fun s g =>
    ((s.wr F.CLK_AG_STATE 2 g).wr F.CLK_AG_MHZ 0 g).wr F.CLK_AG_MV 0 g) s
  let s := [F.AON_STAGE_JOB_READY, F.AON_STAGE_FIELD_TEST, F.AON_STAGE_FABRIC, F.AON_STAGE_PARTITIONS,
    F.AON_STAGE_DRAM, F.AON_STAGE_IMAGE, F.AON_STAGE_TELEMETRY, F.AON_STAGE_MAILBOX, F.AON_STAGE_FIRMWARE].foldl (fun s f => s.wr f 0) s
  let s := ((s.wr F.AON_READY_READY 0).wr F.SEC_STATUS_DEBUG_SCOPE 0).setStage stSafe
  let s := (List.range 16).foldl (fun s p => s.wr F.HNG_STATUS_STATE 0 p) s
  let recs := (below 7 (fun c => s.on F.FC_REC_HI c 2)).map (fun c => entryOf (s.firstRecord c))
  let due := s.fc.histDue.filter (fun x => decide (x.seq ≠ e.seq) && !recs.contains x)
  { s.campAbort with
    jobs := [], echoes := [], beats := [], outBeats := [],
    memx := { s.memx with selfRefresh := true, cowHolds := [], cowCopies := [], lines := [], priv := [] },
    pwr := { s.pwr with wakeQ := [], waking := [], held := [] },
    hng := s.hng.map (fun x => (x.1, { x.2 with req := none, todo := [], done := [] })),
    fc := { s.fc with hist := ((due ++ recs ++ (if recs.contains e then [] else [e])).reverse ++ s.fc.hist).take 8192, histDue := [] } }

/-! ### Serving reports (R369 to R379) -/

/-- The action of a fault's final level (R369): interrupts, the reset request of a level 2 fault of partition scope, the safe state. -/
def State.act (s : State) (r : Report) (e : FEntry) : State :=
  if s.safe then s
  else
    let s := if 1 ≤ e.final then
        let s := (s.vec .pf0 48).inBand
        if r.part < 16 then s.vec (.vf (r.part + 1)) 3 else s
      else s
    if e.final = 3 then s.enterSafe e
    else if decide (e.final = 2) && decide (r.part < 16) && !s.resetting r.part then
      (if s.gal.camp.isSome then s.campAbort else s).requestReset r.part 2 (s.on F.HNG_CFG_DUMP_FAULT r.part) true e.seq
    else if e.final = 2 then s.campAbort
    else s

/-- Serves one report: judges, records, counts, sets its pending bit and acts (R369 to R379). A merged fault is captured under the sequence
number of the entry it merged into. -/
def State.serveReport (s : State) (r : Report) : State :=
  let j := s.judge r
  let e : FEntry :=
    { time := r.time, addr := r.addr, cls := r.cls, level := r.level, final := j.1, master := r.master, access := r.access,
      part := r.part, source := r.source, flags := r.flags + (if j.2.1 then 1 else 0) + (if j.2.2 then 4 else 0), code := r.code, seq := 0,
      aux := r.aux, rep := 0, stage := r.stage, mode := s.collMode }
  let quiet := s.safe || (decide (r.part < 16) && s.resetting r.part)
  let l := s.logEntry e
  let w : FEntry := { e with seq := l.1.seq, rep := l.1.rep }
  let c := l.2.captureFirst w
  let s := c.2.countFault r.cls j.1
  let s := if c.1 || decide (2 ≤ j.1) then { s with fc := { s.fc with histDue := s.fc.histDue ++ [w] } } else s
  let s := if (decide (j.1 = 1) || decide (j.1 = 2)) && !quiet then s.setPending r.cls r.scope true else s
  s.act r w

/-- FAULT_REPORT (R369, R372): the collector serves one report. -/
def execFaultReport (t : Nat) (s : State) : Out :=
  let s := s.tick t
  match s.fc.coll with
  | [] => .next s
  | r :: rest => .next (({ s with fc := { s.fc with coll := rest } } : State).serveReport r)

/-! ### Alert pairs (R365, R366) -/

/-- Whether the reporting path of source `m` is marked broken. -/
def State.broken (s : State) (m : Nat) : Bool :=
  if m < 64 then (s.rd F.FC_BROKEN_LO_BROKEN).testBit m else (s.rd F.FC_BROKEN_HI_BROKEN).testBit (m - 64)

def State.setBroken (s : State) (m : Nat) (v : Bool) : State :=
  if m < 64 then s.wrBit F.FC_BROKEN_LO_BROKEN m v else s.wrBit F.FC_BROKEN_HI_BROKEN (m - 64) v

/-- One pair after a sample: its run of equal samples, and the last sample that did not show idle levels. -/
def State.pairAfter (s : State) (equalPairs : List Nat) (m : Nat) : PairSt :=
  let old := agetD s.fc.pairs m { equalRun := 0, lastBad := 0 }
  if m ∈ equalPairs then { equalRun := old.equalRun + 1, lastBad := s.now }
  else { equalRun := 0, lastBad := if (agetD s.fc.srcQ m []).isEmpty then old.lastBad else s.now }

/-- ALERT_SAMPLE (R365, R366): every pair is sampled; a pair with equal wires for 2 samples is a broken path; the report each alerting pair
holds is read, in ascending SOURCE code, then the collector's own faults (R372). -/
def execAlertSample (t : Nat) (equalPairs : List Nat) (s : State) : Out :=
  let s := s.tick t
  let newly := below 128 (fun m => decide (m ∈ equalPairs) && !s.broken m && decide (2 ≤ (s.pairAfter equalPairs m).equalRun))
  let marked := newly.foldl (fun (s : State) m => s.setBroken m true) s
  let track := below 128 (fun m => decide (m ∈ equalPairs) || (aget s.fc.pairs m).isSome)
  let heads := below 128 (fun m => !(marked.broken m) && !(agetD s.fc.srcQ m []).isEmpty && !(decide (m ∈ equalPairs)))
  let read := (List.range 128).flatMap (fun m =>
    (if m ∈ newly then
      [({ cls := classOfMaster m, level := 2, master := m, source := m, time := s.now, stage := s.stage, flags := 2 } : Report)] else [])
    ++ (if m ∈ heads then (agetD s.fc.srcQ m []).take 1 else []))
  let q := heads.foldl (fun (q : List (Nat × List Report)) m =>
    let rest := (agetD q m []).drop 1
    if rest.isEmpty then adel q m else aset q m rest) s.fc.srcQ
  let s' := { marked with fc := { s.fc with
    srcQ := q, pairs := track.map (fun m => (m, s.pairAfter equalPairs m)),
    coll := s.fc.coll ++ read ++ s.fc.self, self := [] } }
  inst (equalPairs.all (fun m => m < 128)) s'.setReady

/-- BROKEN_PATH_CLEAR (R366): the pair has shown the idle levels for 1,000 samples (10 µs); the bit clears and a level 0 fault with CODE 0001h is
recorded. -/
def execBrokenPathClear (t source : Nat) (s : State) : Out :=
  let s := s.tick t
  inst (source < 128)
    (if s.broken source && decide ((agetD s.fc.pairs source { equalRun := 0, lastBad := 0 }).lastBad + 10000 ≤ s.now) then
       let s := s.setBroken source false
       ({ s with fc := { s.fc with
          pairs := adel s.fc.pairs source,
          coll := s.fc.coll ++ [{ cls := classOfMaster source, level := 0, master := source, source := source, code := 1, time := s.now, stage := s.stage }] } }
        : State).setReady
     else s)

/-! ### Acknowledgement (R372) -/

/-- Clears the pending bits of the classes and scopes given as bit maps. -/
def State.ackPending (s : State) (classes scopes : Nat) : State :=
  (below 7 (fun c => classes.testBit c)).foldl (fun s c =>
    (below 17 (fun sc => scopes.testBit sc)).foldl (fun s sc => s.setPending c sc false) s) s

/-- The classes a write to FC_ACK names. -/
def ackClasses (value : Nat) : Nat := if value.testBit 23 then 127 else 2 ^ bits value 20 3

/-- FC_ACK (R372). -/
def execFcAck (t value : Nat) (s : State) : Out := .next ((s.tick t).ackPending (ackClasses value) (bits value 0 17))

/-- PENDING_AUTO_CLEAR (R372): a pending bit whose time has come clears. -/
def execPendingAutoClear (t c sc : Nat) (s : State) : Out :=
  let s := s.tick t
  inst (c < 7 ∧ sc < 17)
    (if s.fc.autoClr.any (fun e => decide (e.1 = c) && decide (e.2.1 = sc) && decide (e.2.2 ≤ s.now)) then s.setPending c sc false else s)

/-- LOCKSTEP_MISMATCH (R375): the collector's two copies differ; level 3 in every mode. -/
def execLockstepMismatch (t : Nat) (s : State) : Out := .next ((s.tick t).raiseSelf 3 6 0)

/-! ### Mirror and history (R380, R381) -/

/-- First key of the error log mirror in the keep region (R235). -/
def mirrorBase : Nat := 0x08000000

/-- Writes an entry to the mirror at its sequence number's offset. -/
def State.mirrorPut (s : State) (e : FEntry) : State := s.wrBytes (mirrorBase + 64 * (e.seq % 16384)) e.bytes

/-- The sequence number after `q`. -/
def nextSeq (q : Nat) : Nat := if q = 0xFFFFFFFF then 1 else q + 1

/-- Firmware copies every ring entry the mirror lacks; a run of numbers already overwritten gets one entry with CLASS 6, CODE 0007h and the first
missing number in AUX (R380). -/
def State.copyLog (s : State) : State :=
  if !s.fwUp then s
  else
    let new := (s.fc.ring.takeWhile (fun e => e.seq ≠ s.fc.mirrored)).reverse
    match new with
    | [] => s
    | first :: _ =>
      let want := nextSeq s.fc.mirrored
      let s := if first.seq = want then s
        else s.mirrorPut { time := s.now, addr := 0, cls := 6, level := 0, final := 0, master := 0x58, access := 0, part := 255,
                           source := 0x5F, flags := 0, code := 7, seq := want, aux := want, rep := 0, stage := s.stage, mode := s.collMode }
      let s := new.foldl State.mirrorPut s
      { s with fc := { s.fc with mirrored := s.fc.seq } }

/-- LOG_MIRROR_COPY (R380). -/
def execLogMirrorCopy (t : Nat) (s : State) : Out := .next (s.tick t).copyLog

/-- FLASH_HISTORY_WRITE (R381): the entries due are written to the circle of 8,192. -/
def execFlashHistoryWrite (t : Nat) (s : State) : Out :=
  let s := s.tick t
  .next { s with fc := { s.fc with hist := (s.fc.histDue.reverse ++ s.fc.hist).take 8192, histDue := [] } }

end Sys2Proof.Machine
end

