-- ==== Sys2Proof/Machine/Formats.lean ====
section
/-!
DEFINITION. Sys2Proof/Machine/Formats.lean: number formats, special values, scales, exact arithmetic, rounding and conversion (spec/03), and
the carillon generator (R94).
-/

namespace Sys2Proof.Machine

/-! ### Formats (R44 to R48, R55 to R58) -/

/-- The fixed format of a code of R48. -/
def fixedFmt (code : Nat) : Option Fmt :=
  match code with
  | 0x00 => some ⟨false, 2, 2, 1, 0, true⟩
  | 0x01 => some ⟨false, 3, 3, 3, 0, true⟩
  | 0x02 => some ⟨false, 2, 4, 1, 0, true⟩
  | 0x03 => some ⟨false, 5, 3, 15, 2, true⟩
  | 0x04 => some ⟨false, 4, 4, 7, 1, true⟩
  | 0x08 => some ⟨true, 0, 4, 0, 0, true⟩
  | 0x09 => some ⟨true, 0, 8, 0, 0, true⟩
  | 0x10 => some ⟨false, 8, 8, 127, 2, true⟩
  | 0x11 => some ⟨false, 5, 11, 15, 2, true⟩
  | 0x12 => some ⟨false, 8, 24, 127, 2, true⟩
  | 0x13 => some ⟨false, 11, 53, 1023, 2, true⟩
  | _ => none

/-- binary32 and binary64. -/
def fp32 : Fmt := ⟨false, 8, 24, 127, 2, true⟩
def fp64 : Fmt := ⟨false, 11, 53, 1023, 2, true⟩

/-- Element width b in bits: 1 + e + m for a float, the integer width otherwise. -/
def Fmt.b (f : Fmt) : Nat := if f.int then f.p else f.e + f.p

/-- ERROR of a value written to AG_FMTn (R57). -/
def fmtError (v : Nat) : Nat :=
  let ew := bits v 0 4
  let pw := bits v 4 4
  let sp := bits v 16 2
  if ew < 1 ∨ 8 < ew then 1
  else if pw < 1 ∨ 12 < pw then 2
  else if sp = 3 then 3
  else if sp = 2 ∧ (ew < 2 ∨ pw < 2) then 4
  else if sp = 1 ∧ ew = 1 ∧ pw = 1 then 5
  else if bits v 22 26 ≠ 0 ∨ bits v 19 1 ≠ 0 then 6
  else 0

/-- Custom slot `n` of array group `g` as it stands (R55). -/
def State.fmtSlot (s : State) (g n : Nat) : FmtSlot :=
  ⟨s.on F.AG_FMT_VALID g n, s.rd F.AG_FMT_SCALE g n,
   ⟨false, s.rd F.AG_FMT_EW g n, s.rd F.AG_FMT_PW g n, s.rd F.AG_FMT_BIAS g n, s.rd F.AG_FMT_SPECIAL g n, s.on F.AG_FMT_SUBN g n⟩⟩

/-- Whether a format code names a custom slot. -/
def customCode (code : Nat) : Bool := decide (0x40 ≤ code) && decide (code < 0x50)

/-- The format a code names, `slot` giving the custom slots (R48). -/
def fmtOf (slot : Nat → FmtSlot) (code : Nat) : Option Fmt :=
  if customCode code then
    (if (slot (code - 0x40)).valid then some (slot (code - 0x40)).fmt else none)
  else fixedFmt code

/-- Whether a format allows a scale kind: 0 none, 1 per-tensor, 2 block (R51). -/
def kindOk (slot : Nat → FmtSlot) (code kind : Nat) : Bool :=
  if customCode code then
    match (slot (code - 0x40)).scale with
    | 0 => kind = 0
    | 1 => kind = 0 || kind = 1
    | 2 => kind = 2
    | _ => kind < 3
  else if code < 3 then kind = 2
  else if code = 3 ∨ code = 4 ∨ code = 9 then kind < 3
  else if code = 8 then kind < 2
  else kind = 0

/-- The format a code names in array group `g`, with its slots as they stand. -/
def State.fmt (s : State) (g code : Nat) : Option Fmt := fmtOf (s.fmtSlot g) code

/-- Whether a format allows a scale kind in array group `g`, with its slots as they stand. -/
def State.scaleOk (s : State) (g code kind : Nat) : Bool := kindOk (s.fmtSlot g) code kind

/-- Largest exponent field that encodes a finite value. -/
def Fmt.maxE (f : Fmt) : Nat :=
  if f.policy = 2 ∨ (f.policy = 1 ∧ f.p = 1) then 2 ^ f.e - 2 else 2 ^ f.e - 1

/-- D and the span σ of R77. -/
def Fmt.span (f : Fmt) : Nat :=
  (if f.int then 0 else f.maxE - 1) + f.p

/-- Window-exact formats (R77). -/
def Fmt.exact (f : Fmt) : Bool := decide (f.span ≤ 32)

/-- Smallest ulp exponent u_min (R103); `mx` marks MXINT8. -/
def Fmt.uMin (f : Fmt) (mx : Bool) : Int :=
  if f.int then (if mx then -6 else 0) else 1 - (f.bias : Int) - ((f.p - 1 : Nat) : Int)

/-- Largest finite magnitude as significand and ulp exponent; for an integer format the positive maximum. -/
def Fmt.largest (f : Fmt) (mx : Bool) : Nat × Int :=
  if f.int then (2 ^ (f.p - 1) - 1, if mx then -6 else 0)
  else
    (if f.policy = 1 ∧ 2 ≤ f.p then 2 ^ f.p - 2 else if f.maxE = 0 then 2 ^ (f.p - 1) - 1 else 2 ^ f.p - 1,
     ((max f.maxE 1 : Nat) : Int) - (f.bias : Int) - ((f.p - 1 : Nat) : Int))

/-- emax_elem of a format for block scales (R45, R47): the exponent of the largest finite value; 0 for MXINT8. -/
def Fmt.emaxElem (f : Fmt) : Int :=
  if f.int then 0 else (Nat.log2 (f.largest false).1 : Int) + (f.largest false).2

/-- emax for a per-tensor scale estimate (R188): 2 and 6 for INT4 and INT8. -/
def Fmt.emaxTensor (f : Fmt) : Int := if f.int then (f.p : Int) - 2 else f.emaxElem

/-! ### Exact values -/

def Val.zero (neg : Bool) : Val := ⟨.zero, neg, 0, 0⟩
def Val.nan : Val := ⟨.nan, false, 0, 0⟩
def Val.inf (neg : Bool) : Val := ⟨.inf, neg, 0, 0⟩

/-- The value m * 2^u of a signed mantissa; +0 where m is 0. -/
def Val.ofInt (m u : Int) : Val := if m = 0 then Val.zero false else ⟨.fin, decide (m < 0), m.natAbs, u⟩

/-- Signed mantissa of a finite value at exponent `u`, which must not exceed its own ulp exponent. -/
def Val.at (x : Val) (u : Int) : Int :=
  if x.cls = .fin then (if x.neg then -1 else 1) * (x.mag : Int) * 2 ^ (x.ulp - u).toNat else 0

/-- Exact product (R60, R62). -/
def Val.mul (x y : Val) : Val :=
  let neg := x.neg != y.neg
  if x.cls = .nan ∨ y.cls = .nan then Val.nan
  else if x.cls = .inf ∨ y.cls = .inf then (if x.cls = .zero ∨ y.cls = .zero then Val.nan else Val.inf neg)
  else if x.cls = .zero ∨ y.cls = .zero ∨ x.mag * y.mag = 0 then Val.zero neg
  else ⟨.fin, neg, x.mag * y.mag, x.ulp + y.ulp⟩

/-- Exact sum (R60, R62). -/
def Val.add (x y : Val) : Val :=
  if x.cls = .nan ∨ y.cls = .nan then Val.nan
  else if x.cls = .inf then (if y.cls = .inf ∧ x.neg ≠ y.neg then Val.nan else x)
  else if y.cls = .inf then y
  else if x.cls = .zero ∧ y.cls = .zero then Val.zero (x.neg && y.neg)
  else if x.cls = .zero then y
  else if y.cls = .zero then x
  else
    let u := min x.ulp y.ulp
    Val.ofInt (x.at u + y.at u) u

/-- A value times 2^k. -/
def Val.shift (x : Val) (k : Int) : Val := if x.cls = .fin then { x with ulp := x.ulp + k } else x

/-- A value under an E8M0 scale (R49): NaN under FFh. -/
def Val.scaled (x : Val) (sc : Nat) : Val := if sc = 255 then Val.nan else x.shift ((sc : Int) - 127)

/-- A value divided by an E8M0 scale. -/
def Val.unscaled (x : Val) (sc : Nat) : Val := if sc = 255 then Val.nan else x.shift (127 - (sc : Int))

/-- |x| < |y| for finite values. -/
def Val.magLt (x y : Val) : Bool :=
  let u := min x.ulp y.ulp
  decide ((x.at u).natAbs < (y.at u).natAbs)

/-- x < y as IEEE 754-2019 orders values: +0 equals -0, and nothing compares with a NaN (R63). -/
def Val.lt (x y : Val) : Bool :=
  if x.cls = .nan ∨ y.cls = .nan ∨ (x.cls = .zero ∧ y.cls = .zero) then false
  else if x.neg ≠ y.neg then x.neg
  else
    let small := fun (a b : Val) =>
      if b.cls = .inf then decide (a.cls ≠ .inf) else if a.cls = .inf then false else a.magLt b
    if x.neg then small y x else small x y

/-- IEEE 754-2019 maximum: NaN where either is NaN, and -0 below +0 (R63). -/
def Val.maximum (x y : Val) : Val :=
  if x.cls = .nan ∨ y.cls = .nan then Val.nan
  else if x.lt y || (decide (x.cls = .zero) && decide (y.cls = .zero) && x.neg) then y else x

/-- IEEE 754-2019 minimum (R63). -/
def Val.minimum (x y : Val) : Val :=
  if x.cls = .nan ∨ y.cls = .nan then Val.nan
  else if y.lt x || (decide (x.cls = .zero) && decide (y.cls = .zero) && y.neg) then y else x

/-- Exponent of the leading 1 bit of a finite nonzero value. -/
def Val.top (x : Val) : Int := (Nat.log2 x.mag : Int) + x.ulp

/-! ### Decoding (R44, R46, R47, R59) -/

/-- The value of an element's bits; `mx` marks a block-scaled INT8. An integer zero, which has no sign of its own (R47), enters products and
sums as +0 (DESIGN CHOICE, notes/assumptions/80.md). -/
def Fmt.decode (f : Fmt) (mx : Bool) (v : Nat) : Val :=
  if f.int then
    let x := signed v f.p
    if x = 0 then Val.zero false else ⟨.fin, decide (x < 0), x.natAbs, if mx then -6 else 0⟩
  else
    let m := f.p - 1
    let frac := v % 2 ^ m
    let ex := v / 2 ^ m % 2 ^ f.e
    let neg := v.testBit (f.e + m)
    let ones := decide (ex = 2 ^ f.e - 1)
    if f.policy = 2 && ones then (if frac = 0 then Val.inf neg else Val.nan)
    else if f.policy = 1 && ones && decide (frac = 2 ^ m - 1) then Val.nan
    else if ex = 0 then
      (if frac = 0 ∨ !f.subn then Val.zero neg else ⟨.fin, neg, frac, 1 - (f.bias : Int) - (m : Int)⟩)
    else ⟨.fin, neg, 2 ^ m + frac, (ex : Int) - (f.bias : Int) - (m : Int)⟩

/-! ### Rounding and conversion (R64 to R69) -/

/-- A magnitude mag * 2^u rounded to a multiple of 2^q: mode 0 RNE, 1 SR with the 16-bit draw `r`, 2 RTZ. Answers the multiple. -/
def roundTo (mag : Nat) (u q : Int) (mode r : Nat) : Nat :=
  if q ≤ u then mag * 2 ^ (u - q).toNat
  else
    let d := (q - u).toNat
    let n := mag / 2 ^ d
    let rem := mag % 2 ^ d
    let up := match mode with
      | 0 => decide (2 ^ d < 2 * rem) || (decide (2 * rem = 2 ^ d) && decide (n % 2 = 1))
      | 1 => decide (65536 ≤ rem * 65536 / 2 ^ d + r)
      | _ => false
    if up then n + 1 else n

/-- The output ulp exponent for a finite value: that of its binade, no lower than the subnormals', no higher than the largest binade's under SR. -/
def Fmt.outUlp (f : Fmt) (mx : Bool) (x : Val) (mode : Nat) : Int :=
  if f.int then (if mx then -6 else 0)
  else
    let q := max (x.top - ((f.p - 1 : Nat) : Int)) (f.uMin false)
    if mode = 1 then min q (f.largest false).2 else q

/-- Default NaN bits (R46, R61). -/
def Fmt.nanBits (f : Fmt) : Nat :=
  if f.policy = 1 then 2 ^ (f.e + f.p - 1) - 1 else (2 ^ f.e - 1) * 2 ^ (f.p - 1) + 2 ^ (f.p - 2)

/-- Bits of ±largest finite. -/
def Fmt.maxBits (f : Fmt) (neg : Bool) : Nat :=
  if f.int then (if neg then 2 ^ (f.p - 1) else 2 ^ (f.p - 1) - 1)
  else
    let l := f.largest false
    (if neg then 2 ^ (f.e + f.p - 1) else 0)
      + (if f.maxE = 0 then l.1 else f.maxE * 2 ^ (f.p - 1) + (l.1 - 2 ^ (f.p - 1)))

/-- Bits of ±infinity. -/
def Fmt.infBits (f : Fmt) (neg : Bool) : Nat := (if neg then 2 ^ (f.e + f.p - 1) else 0) + (2 ^ f.e - 1) * 2 ^ (f.p - 1)

/-- Bits of ±0. -/
def Fmt.zeroBits (f : Fmt) (neg : Bool) : Nat := if neg && !f.int then 2 ^ (f.e + f.p - 1) else 0

/-- Bits of a finite magnitude n * 2^q of the format's grid, with a sign. -/
def Fmt.finBits (f : Fmt) (neg : Bool) (n : Nat) (q : Int) : Nat :=
  if f.int then unsigned (if neg then -(n : Int) else n) f.p
  else
    let m := f.p - 1
    let sgn := if neg then 2 ^ (f.e + m) else 0
    if n = 0 then f.zeroBits neg
    else
      let t := Nat.log2 n
      if t < m ∧ q ≤ f.uMin false then sgn + n
      else
        let sig := if t ≤ m then n * 2 ^ (m - t) else n / 2 ^ (t - m)
        let ex := ((t : Int) + q + (f.bias : Int)).toNat
        sgn + ex * 2 ^ m + (sig - 2 ^ m)

/-- Outcome classes of R68, in the order of R182. -/
def ocNormal : Nat := 0
def ocSubnormal : Nat := 1
def ocZero : Nat := 2
def ocVanished : Nat := 3
def ocOverflow : Nat := 4
def ocInf : Nat := 5
def ocNan : Nat := 6

/-- What a finite value that overflows delivers (R66, R67). -/
def Fmt.overflow (f : Fmt) (neg : Bool) (mode pol : Nat) : Nat :=
  if mode = 2 ∨ pol = 0 ∨ f.int ∨ f.policy = 0 then f.maxBits neg
  else if f.policy = 2 then f.infBits neg else f.nanBits

/-- Whether a rounded magnitude n * 2^q exceeds the largest finite value. -/
def Fmt.exceeds (f : Fmt) (mx neg : Bool) (n : Nat) (q : Int) : Bool :=
  if f.int then decide ((if neg then 2 ^ (f.p - 1) else 2 ^ (f.p - 1) - 1) < n)
  else (⟨.fin, false, (f.largest mx).1, (f.largest mx).2⟩ : Val).magLt ⟨.fin, false, n, q⟩

/-- A narrowing conversion: bits and outcome class (R64 to R68). `mode` 0 RNE, 1 SR with draw `r`, 2 RTZ; `pol` 0 SAT, 1 NONSAT. -/
def Fmt.convert (f : Fmt) (mx : Bool) (x : Val) (mode pol r : Nat) : Nat × Nat :=
  match x.cls with
  | .nan =>
    if f.int then (0, ocOverflow) else if f.policy = 0 then (f.maxBits false, ocOverflow) else (f.nanBits, ocNan)
  | .inf =>
    if f.int ∨ f.policy = 0 then (f.maxBits x.neg, ocOverflow)
    else if f.policy = 2 then (f.infBits x.neg, ocInf)
    else ((if pol = 0 then f.maxBits x.neg else f.nanBits), ocOverflow)
  | .zero => (f.zeroBits x.neg, ocZero)
  | .fin =>
    if x.mag = 0 then (f.zeroBits x.neg, ocZero)
    else
      let q := f.outUlp mx x mode
      let n := roundTo x.mag x.ulp q mode r
      if n = 0 then (f.zeroBits x.neg, ocVanished)
      else if f.exceeds mx x.neg n q then (f.overflow x.neg mode pol, ocOverflow)
      else
        let sub := !f.int && decide ((Nat.log2 n : Int) + q < 1 - (f.bias : Int))
        if sub && !f.subn then (f.zeroBits x.neg, ocVanished)
        else (f.finBits x.neg n q, if sub then ocSubnormal else ocNormal)

/-- Whether format `f` holds every value of format `src` exactly, its infinities and NaNs included (R69). -/
def Fmt.holds (f src : Fmt) : Bool :=
  let big := src.largest false
  let top : Int := if src.int then (src.p : Int) - 1 else (Nat.log2 big.1 : Int) + big.2
  let low := if src.int || src.subn then src.uMin false else 1 - (src.bias : Int)
  if f.int then src.int && decide (src.p ≤ f.p)
  else
    decide ((if src.int then src.p - 1 else src.p) ≤ f.p) && decide (f.uMin false ≤ src.uMin false)
      && (f.subn || decide (1 - (f.bias : Int) ≤ low))
      && (if src.int then decide (top ≤ f.emaxElem) else !(⟨.fin, false, (f.largest false).1, (f.largest false).2⟩ : Val).magLt ⟨.fin, false, big.1, big.2⟩)
      && (src.int || decide (src.policy = 0) || decide (f.policy = 2) || decide (src.policy = f.policy))

/-- The outcome class of a value of format `src` itself (R69). -/
def Fmt.classOf (src : Fmt) (x : Val) : Nat :=
  match x.cls with
  | .nan => ocNan
  | .inf => ocInf
  | .zero => ocZero
  | .fin => if !src.int && decide (x.top < 1 - (src.bias : Int)) then ocSubnormal else ocNormal

/-- A conversion of an unscaled value of format `src`: where the output holds all of `src`, it is exact and takes the input's class (R69). -/
def Fmt.convertFrom (f src : Fmt) (x : Val) (mode pol r : Nat) : Nat × Nat :=
  let c := f.convert false x mode pol r
  if f.holds src then (c.1, src.classOf x) else c

/-- A value rounded to an accumulator format: binary32, or binary64 where `wide` (R62, R85). -/
def accRound (wide : Bool) (x : Val) (mode r : Nat) : Nat :=
  ((if wide then fp64 else fp32).convert false x mode 1 r).1

/-- The value a binary32 or binary64 pattern holds. -/
def accVal (wide : Bool) (v : Nat) : Val := (if wide then fp64 else fp32).decode false v

/-- rne of a value in the accumulator format, as a value. -/
def accRne (wide : Bool) (x : Val) : Val := accVal wide (accRound wide x 0 0)

/-! ### Block scales (R53) -/

/-- Larger of two finite magnitudes. -/
def Val.maxMag (x y : Val) : Val := if x.magLt y then y else x

/-- The finite nonzero value of largest magnitude in a list, if one. -/
def largestFin (xs : List Val) : Option Val :=
  (xs.filter (fun x => decide (x.cls = .fin) && decide (x.mag ≠ 0))).foldl (fun (a : Option Val) x =>
    match a with
    | none => some x
    | some y => some (y.maxMag x)) none

/-- The scale of an output block (R53). -/
def Fmt.blockScale (f : Fmt) (xs : List Val) : Nat :=
  if xs.any (fun x => x.cls = .nan) then 255
  else
    match largestFin xs with
    | none => 0
    | some a => (min 254 (max 0 (a.top - f.emaxElem + 127))).toNat

/-- One element of a block-scaled output: 0 counted NAN in a block of scale FFh, else the value divided by the scale, converted (R53). -/
def Fmt.blockElem (f : Fmt) (sc : Nat) (x : Val) (mode pol r : Nat) : Nat × Nat :=
  if sc = 255 then (0, ocNan) else f.convert f.int (x.unscaled sc) mode pol r

/-! ### The carillon generator (R92, R94) -/

def rotl32 (v n : Nat) : Nat := (v * 2 ^ n + v / 2 ^ (32 - n)) % 2 ^ 32

/-- One round on (x0, x1, x2, x3). -/
def carillonRound (k : Nat) (x : Nat × Nat × Nat × Nat) : Nat × Nat × Nat × Nat :=
  let x0 := (x.1 + x.2.1 + k) % 2 ^ 32
  let x3 := rotl32 (x.2.2.2 ^^^ x0) 16
  let x2 := (x.2.2.1 + x3) % 2 ^ 32
  let x1 := rotl32 (x.2.1 ^^^ x2) 12
  let x0 := (x0 + x1) % 2 ^ 32
  let x3 := rotl32 (x3 ^^^ x0) 8
  let x2 := (x2 + x3) % 2 ^ 32
  let x1 := rotl32 (x1 ^^^ x2) 7
  (x0, x1, x2, x3)

/-- carillon(seed, step, tensor, row, col, pass) (R94). -/
def carillon (seed step tensor row col pass : Nat) : Nat :=
  let key := fun (i : Nat) => if i % 3 = 0 then seed % 2 ^ 32 else if i % 3 = 1 then seed / 2 ^ 32 % 2 ^ 32 else pass % 65536
  let x := (List.range 12).foldl (fun x i => carillonRound ((key i + i * 0x9E3779B9) % 2 ^ 32) x)
    (col % 2 ^ 32, row % 2 ^ 32, tensor % 2 ^ 32, step % 2 ^ 32)
  (x.1 ^^^ x.2.1 ^^^ x.2.2.1 ^^^ x.2.2.2) / 65536 % 65536

/-! ### amax (R184) -/

/-- The magnitude of a finite value rounded to binary32 toward plus infinity and capped at the largest finite pattern; 0 for other values. -/
def amaxOf (x : Val) : Nat :=
  if x.cls = .fin then
    let y : Val := { x with neg := false }
    let c := (fp32.convert false y 2 1 0).1
    let c := if (fp32.decode false c).magLt y then c + 1 else c
    min c 0x7F7FFFFF
  else 0

end Sys2Proof.Machine
end

