-- ==== Sys2Proof/Machine/Bells.lean ====
section
/-!
DEFINITION. Sys2Proof/Machine/Bells.lean: contexts of a sequencer, how a descriptor ends, rings, bells and waits, completion records
(spec/07, 14).
-/

namespace Sys2Proof.Machine

/-! ### Contexts and started descriptors -/

def State.ctx (s : State) (g c : Nat) : Option CtxSt := aget s.ctxs (8 * g + c)

def State.setCtx (s : State) (g c : Nat) (x : CtxSt) : State := { s with ctxs := aset s.ctxs (8 * g + c) x }

/-- Changes an open context. -/
def State.updCtx (s : State) (g c : Nat) (f : CtxSt → CtxSt) : State :=
  match s.ctx g c with
  | some x => s.setCtx g c (f x)
  | none => s

def State.job (s : State) (id : Nat) : Option Job := s.jobs.find? (fun j => j.id = id)

/-- Replaces the started descriptor of the same number. -/
def State.putJob (s : State) (j : Job) : State := { s with jobs := s.jobs.map (fun x => if x.id = j.id then j else x) }

def State.dropJob (s : State) (id : Nat) : State := { s with jobs := s.jobs.filter (fun x => x.id ≠ id) }

/-- Started and unretired descriptors of a context, in order of start; echoes are not among them. -/
def State.jobsOf (s : State) (g c : Nat) : List Job :=
  s.jobs.filter (fun j => decide (j.g = g) && decide (j.c = c) && !j.echo)

/-- Fields of a descriptor header (R154). -/
def Job.op (j : Job) : Nat := leAt j.desc 0 1
def Job.flags (j : Job) : Nat := leAt j.desc 1 1
def Job.ringBell (j : Job) : Nat := leAt j.desc 6 2
def Job.ringCount (j : Job) : Nat := leAt j.desc 8 1
def Job.target (j : Job) : Nat := leAt j.desc 9 1
def Job.tag (j : Job) : Nat := leAt j.desc 12 4

/-- Ring slots a descriptor takes: two with an extension (R155). -/
def Job.slots (j : Job) : Nat := if j.ext.isEmpty then 1 else 2

/-- Cupola die whose translation cache and feed port serve array group `g`. -/
def dieOf (g : Nat) : Nat := g / 4

/-- Whether work may go on in partition `p`: not frozen, collecting or resetting (R451). -/
def State.free_ (s : State) (p : Nat) : Bool := decide (s.hngState p = 0) && !s.safe

/-! ### Completion reservations (R310) and halting (R163) -/

def State.reserve (s : State) (g c : Nat) : State :=
  s.wr F.PCI_RING_RESERVED_SLOTS (s.rd F.PCI_RING_RESERVED_SLOTS g c + 1) g c

def State.unreserve (s : State) (g c : Nat) : State :=
  s.wr F.PCI_RING_RESERVED_SLOTS (s.rd F.PCI_RING_RESERVED_SLOTS g c - 1) g c

/-- Whether a completion slot is free for a reservation (R310). -/
def State.canReserve (s : State) (g c : Nat) : Bool :=
  match s.ctx g c with
  | some x => decide ((s.rd F.PCI_RING_CQ_TAIL g c + 65536 - x.cqHead) % 65536 + s.rd F.PCI_RING_RESERVED_SLOTS g c < 2 ^ x.cqLog2)
  | none => false

/-- Statuses that halt their context, and those marked "seq" (R163). -/
def halting (status : Nat) : Bool := decide (status ≠ 0) && decide (status ≠ 0x0C)
def seqMarked (status : Nat) : Bool := decide (status ∈ [1, 2, 3, 5, 0x0B, 0x0E])

/-- A context enters HALTED (R163); a region loses its withheld rings (R179). A context halted already keeps its first cause. -/
def State.halt (s : State) (g c index ringIdx status : Nat) : State :=
  if s.rd F.AG_CTX_STATE g c = 2 then s
  else
    let s := ((s.wr F.AG_CTX_STATE 2 g c).wr F.AG_CTX_HALT_INDEX index g c).wr F.AG_CTX_HALT_STATUS status g c
    ((s.inc F.AG_SEQ_EVENTS_HALTS g).stirred g).updCtx g c (fun x =>
      { x with haltAt := ringIdx, region := x.region.map (fun r => { r with withheld := [] }) })

/-- The level 1 turret/sequencer fault of a status marked "seq" (R163). -/
def State.seqFault (s : State) (g p status detail : Nat) : State :=
  s.raise { cls := 2, level := 1, master := g, part := p, source := g, code := status, aux := detail }

/-- What a status brings besides its record: the fault and the halt. -/
def State.statusEffects (s : State) (g c p index ringIdx status detail : Nat) : State :=
  let s := if seqMarked status then s.seqFault g p status detail else s
  if halting status then s.halt g c index ringIdx status else s

/-! ### The end of a descriptor (R153, R162, R163, R176) -/

/-- Adds a count to a region's withheld rings, or none where a 33rd bell would be needed (R176). -/
def withhold (l : List (Nat × Nat)) (bell count : Nat) : Option (List (Nat × Nat)) :=
  match aget l bell with
  | some n => some (aset l bell (n + count))
  | none => if l.length < 32 then some (aset l bell count) else none


/-- INDEX of a descriptor in its completion record (R162). -/
def State.indexOf (s : State) (j : Job) : Nat :=
  if j.alt then j.idx
  else match s.ctx j.g j.c with
    | some x => j.idx % 2 ^ x.sqLog2
    | none => j.idx

/-- A descriptor ends with a status: its ring leaves for the home block or is withheld, its record becomes due or its reservation is released,
its context halts where the status halts (R153, R162, R163, R165, R176, R310). -/
def State.endJob (s : State) (j : Job) (status detail info : Nat) : State :=
  let s := (s.dropJob j.id).progress j.p
  let rung := decide (status = 0) && j.ringBell.testBit 15
  let reg := (s.ctx j.g j.c).bind (fun x => x.region)
  let w : Option (List (Nat × Nat)) :=
    match reg with
    | some r => if rung && j.inReg then withhold r.withheld (bits j.ringBell 0 12) j.ringCount else some r.withheld
    | none => some []
  let status := if w.isNone then 0x0E else status
  let s := match reg, w with
    | some r, some l => s.updCtx j.g j.c (fun x => { x with region := some { r with withheld := l } })
    | _, _ => s
  let index := s.indexOf j
  let sends := rung && !j.inReg
  let s := if sends then
      { s with rings := s.rings ++ [{ p := j.p, bell := bits j.ringBell 0 12, count := j.ringCount, from_ := j.p, src := j.g, c := j.c,
                                      job := some j.id }] }
    else s
  let write := (j.flags.testBit 1 && !j.inReg) || decide (j.op = 6 ∧ status = 0)
  let e : EndRec := { ringIdx := j.idx, job := j.id, index := index, alt := j.alt, level := j.level, op := j.op, tag := j.tag, status := status,
                      detail := if w.isNone then 0 else detail, info := if w.isNone then 0 else info, chk := j.chk, ringDue := sends,
                      write := write }
  let s := s.statusEffects j.g j.c j.p index j.idx status detail
  if status = 0 ∧ !write ∧ !sends then s.unreserve j.g j.c
  else s.updCtx j.g j.c (fun x => { x with ends := x.ends ++ [e] })

/-! ### Bells (R165 to R169) -/

/-- Evaluates the waits of a bell strictly in order of registration, `fuel` of them at most (R166). -/
def State.evalWaits (s : State) (p bell : Nat) : Nat → State
  | 0 => s
  | fuel + 1 =>
    match s.homeOf p, s.waits.find? (fun w => decide (w.p = p) && decide (w.bell = bell)) with
    | some home, some w =>
      let n := s.rd F.BEL_STATE_COUNT home bell
      if w.n ≤ n then
        let s := s.wr F.BEL_STATE_COUNT (n - w.n) home bell
        let s := ({ s with waits := s.waits.filter (fun x => x ≠ w) } : State).stirred home
        let s := s.updCtx w.g w.c (fun (x : CtxSt) => { x with head := x.head.map (fun (h : Head) => { h with waits := false }) })
        let s := if s.rd F.AG_CTX_STATE w.g w.c = 3 then s.wr F.AG_CTX_STATE 1 w.g w.c else s
        (s.progress p).evalWaits p bell fuel
      else s
    | _, _ => s

/-- The judgement of a descriptor's ring settles the descriptor's record (R153, R168). -/
def State.ringJudged (s : State) (job : Nat) (ok : Bool) (count : Nat) : State :=
  match s.ctxs.find? (fun x => x.2.ends.any (fun e => e.job = job)) with
  | none => s
  | some (key, x) =>
    let g := key / 8
    let c := key % 8
    match x.ends.find? (fun e => e.job = job) with
    | none => s
    | some e =>
      let set : (EndRec → EndRec) → State → State := fun f s =>
        s.updCtx g c (fun y => { y with ends := y.ends.map (fun z => if z.job = job then f z else z) })
      if ok then
        let s := if e.op = 6 then s.updCtx g c (fun y => { y with closed := none }) else s
        if e.write then set (fun z => { z with ringDue := false }) s
        else (s.updCtx g c (fun y => { y with ends := y.ends.filter (fun z => z.job ≠ job) })).unreserve g c
      else
        let s := set (fun z => { z with ringDue := false, status := 3, detail := 0, info := count }) s
        let s := if e.op = 6 ∧ s.rd F.AG_CTX_STATE g c ≠ 2 then s.updCtx g c (fun y => { y with endRefused := true }) else s
        s.statusEffects g c (s.rd F.AG_CONFIG_PARTITION g) e.index
          e.ringIdx 3 0

/-- A ring reaches its home block: it is applied, or refused and counted (R165, R168). -/
def State.ringApply (s : State) (r : Ring) : State :=
  match s.homeOf r.p with
  | none => s
  | some home =>
    let n := s.rd F.BEL_STATE_COUNT home r.bell
    let foreign := decide (r.from_ ≠ r.p)
    if foreign ∨ 2 ^ 32 ≤ n + r.count then
      let s := s.inc F.BEL_EVENTS_RING_REFUSED home
      let s := if foreign then
          s.raise { cls := 5, level := 1, master := r.src, access := 2, part := r.p, source := home, code := 3, aux := r.bell }
        else if 0x40 ≤ r.src ∧ r.src < 0x54 then
          s.raise { cls := 0, level := 1, master := r.src, access := 2, part := r.p, source := home, code := 3, aux := r.bell }
        else s
      match r.job with
      | some id => s.ringJudged id false n
      | none => s
    else
      let s := s.wr F.BEL_STATE_COUNT (n + r.count) home r.bell
      match r.job with
      | some id => s.ringJudged id true (n + r.count)
      | none => s

/-- The place of a ring among those of its cycle (R168): descriptor and turret rings by array group and context, then the others by master
code. -/
def Ring.place (r : Ring) : Nat := if r.src < 0x20 then 8 * (r.src % 16) + r.c % 8 else 128 + r.src

/-- Puts a ring into its place among the rings of a cycle; rings of one place keep their order. -/
def placeRing (r : Ring) : List Ring → List Ring
  | [] => [r]
  | x :: l => if r.place < x.place then r :: x :: l else x :: placeRing r l

/-- The rings of one cycle arrive: they are applied one at a time in their order, and only then are the waits of their bells evaluated (R166,
R168). -/
def State.ringsArrive (s : State) (l : List Ring) : State :=
  let l := l.foldl (fun a r => placeRing r a) []
  let s := l.foldl State.ringApply s
  (l.map (fun r => (r.p, r.bell))).dedup.foldl (fun (s : State) b => s.evalWaits b.1 b.2 (s.waits.length + 1)) s

/-- A ring that its source sends off (R165). -/
def State.sendRing (s : State) (p bell count src : Nat) : State :=
  { s with rings := s.rings ++ [{ p := p, bell := bell, count := count, from_ := p, src := src }] }

/-- The rings with the numbers `ks` among those on their way to partition `p`, and the state without them. -/
def State.takeRings (s : State) (p : Nat) (ks : List Nat) : List Ring × State :=
  let mine := (s.rings.filter (fun r => r.p = p)).zipIdx
  ((mine.filter (fun x => ks.contains x.2)).map (fun x => x.1),
   { s with rings := s.rings.filter (fun r => r.p ≠ p) ++ (mine.filter (fun x => !ks.contains x.2)).map (fun x => x.1) })

/-- BELL_RING_ARRIVE (R166, R168) of the rings that arrive at partition `p`'s home block in one cycle. Rings to a home block whose group
sleeps wake it and arrive once the group runs (R286). -/
def execBellRingArrive (t p : Nat) (ks : List Nat) (s : State) : Out :=
  let s := s.tick t
  inst (p < 16)
    (let r := s.takeRings p ks
     if r.1.isEmpty ∨ s.hngState p = 3 then s
     else
       match s.homeOf p with
       | some h => if s.groupRuns h then r.2.ringsArrive r.1 else s.wakeRequest h
       | none => r.2.ringsArrive r.1)

/-- The partition a requester speaks for; management speaks for `p` itself. -/
def reqPart (who : Requester) (p : Nat) : Nat :=
  match who with
  | .vf n => n - 1
  | .bfy q => q
  | .pf0 => p
  | .mgt => p

/-- The master code of a requester. -/
def reqMaster (who : Requester) : Nat :=
  match who with
  | .bfy _ => 0x59
  | .mgt => 0x58
  | .pf0 => 0x5B
  | .vf _ => 0x5B

/-- A write to BEL_RING (R165): a software ring sets off for the home block; a COUNT of 0 has no effect. -/
def State.ringWrite (s : State) (who : Requester) (p word : Nat) : State :=
  if bits word 0 32 = 0 ∨ (s.homeOf p).isNone ∨ s.hngState p = 3 then s
  else { s with rings := s.rings ++ [{ p := p, bell := bits word 32 12, count := bits word 0 32, from_ := reqPart who p,
                                       src := reqMaster who }] }

/-- BEL_RING (R165). -/
def execBelRing (t : Nat) (who : Requester) (p word : Nat) (s : State) : Out :=
  let s := s.tick t
  inst (p < 16) (s.asWriter who p (fun s => s.ringWrite who p word))

/-- A write to BEL_SET of partition `p` (R169): it takes effect only on a bell without a registered wait, and is refused and counted
otherwise. -/
def State.setBell (s : State) (home p word : Nat) : State :=
  let bell := bits word 32 12
  if s.hngState p = 3 then s
  else if s.waits.any (fun w => decide (w.p = p) && decide (w.bell = bell)) then s.inc F.BEL_EVENTS_SET_REFUSED home
  else s.wr F.BEL_STATE_COUNT (bits word 0 32) home bell

/-- BEL_SET (R169). The home block of a group asleep takes the write once the group runs (R286). -/
def execBelSet (t : Nat) (who : Requester) (p word : Nat) (s : State) : Out :=
  let s := s.tick t
  inst (p < 16)
    (match s.homeOf p with
     | none => s
     | some home => s.asWriter who p (fun s => s.windowWrite home .BEL_SET home 0 who word (fun s => s.setBell home p word)))

/-- The timeout of a wait in ns (R154, BEL_TIMEOUT). -/
def State.waitNs (s : State) (home field : Nat) : Nat :=
  let n := bits field 0 6
  if n = 0 then max 1 (min 60000000 (s.rd F.BEL_TIMEOUT_DEFAULT_US home)) * 1000
  else n * (match bits field 6 2 with
    | 0 => 1000
    | 1 => 1000000
    | _ => 100000000)

/-- Advances the head of a context past a descriptor: along the ring, or along its level segment. -/
def State.takeHead (s : State) (j : Job) : State :=
  let s := s.updCtx j.g j.c (fun x => { x with head := none })
  if j.alt then s.updCtx j.g j.c (fun x => { x with region := x.region.map (fun r => { r with pos := r.pos + j.slots }) })
  else s.wr F.PCI_RING_SQ_HEAD (j.idx + j.slots) j.g j.c

/-- WAIT_EXPIRE (R167): a wait whose time has come takes nothing and ends its descriptor WAIT_TIMEOUT with the count in INFO. The rings `ks`
arrive at the home block in the same cycle: where they make the wait satisfiable, it is satisfied. -/
def execWaitExpire (t g c : Nat) (ks : List Nat) (s : State) : Out :=
  let s := s.tick t
  inst (g < 16 ∧ c < 8)
    (match s.waits.find? (fun w => decide (w.g = g) && decide (w.c = c)) with
     | none => s
     | some w =>
       let r := s.takeRings w.p ks
       let s1 := r.2.ringsArrive r.1
       if s.now < w.due ∨ !s.free_ w.p then s
       else if w ∉ s1.waits then s1
       else
         let s := s1
         let home := (s.homeOf w.p).getD 0
         let s := ({ s with waits := s.waits.filter (fun x => x ≠ w) } : State).stirred home
         let s := s.inc F.BEL_EVENTS_TIMEOUTS home
         let n := s.rd F.BEL_STATE_COUNT home w.bell
         let s := match (s.ctx g c).bind (fun x => x.head) with
           | some h => ((s.takeHead h.job).progress w.p).endJob h.job 2 0 n
           | none => s
         s.evalWaits w.p w.bell (s.waits.length + 1))

/-! ### Completion records (R162, R310, R311) -/

/-- The 16 bytes of a record at free-running index `i` of a ring of 2^log2 slots. -/
def EndRec.bytes (e : EndRec) (g c i log2 : Nat) : Bytes :=
  natLe 2 e.index ++ natLe 1 e.status ++ natLe 1 e.detail ++ natLe 1 e.op
    ++ natLe 1 ((i / 2 ^ log2 + 1) % 2 + (if e.chk then 2 else 0) + (if e.alt then 4 else 0) + 8 * (e.level % 8))
    ++ natLe 1 (g + 16 * c) ++ natLe 1 0 ++ natLe 4 e.tag ++ natLe 4 e.info

/-- The completion interrupt of a context reaches the targets chosen at CONTEXT_OPEN (R245): the vector of the opening function, and the Belfry
core. Belfry cores that opened a context are no function and have no vector (notes/assumptions/94.md). -/
def State.complInterrupt (s : State) (g c : Nat) (x : CtxSt) : State :=
  let k := ((s.groupsOf (s.rd F.AG_CONFIG_PARTITION g)).findIdx? (fun q => q = g)).getD 0
  let s := match x.irqFn with
    | some .pf0 => s.vec .pf0 (64 + 8 * g + c)
    | some (.vf n) => s.vec (.vf n) (8 + 8 * k + c)
    | _ => s
  match x.irqCore with
  | some n => s.coreVec n (64 + 8 * g + c)
  | none => s

end Sys2Proof.Machine
end

