-- ==== Sys2Proof/Machine/Numerics.lean ====
section
/-!
DEFINITION. Sys2Proof/Machine/Numerics.lean: the numerics table: updates, scale lookup, promotion, the advance and the watch table (spec/08).
-/

namespace Sys2Proof.Machine

/-! ### Access to the table (R180, R494) -/

/-- Device address of the table as array group `g` holds it, and whether it is enabled. -/
def State.numBase (s : State) (g : Nat) : Nat := s.rd F.AG_NUMTAB_BASE g * 4096

def State.numOn (s : State) (g : Nat) : Bool := s.on F.AG_NUMTAB_ENABLE g

/-- Reads `n` bytes of the table, writes still held for it included (R185): none where the page is absent (nothing recorded), some none where
the access fails otherwise (R494). -/
def State.tabRead (s : State) (g p off n : Nat) : Option (Option Bytes) × State :=
  let addr := s.numBase g + off
  let l := s.pmLookup (dieOf g) (addr / 65536)
  if l.2.accessCode l.1 addr p false false = some 1 then (none, l.2)
  else
    match l.2.devRead (dieOf g) g p addr n with
    | (none, b, false, s) => (some (some (s.withHeld addr b)), s)
    | (_, _, _, s) => (some none, s)

/-- Writes bytes of the table; a write that fails its checks is recorded and skipped (R494). -/
def State.tabWrite (s : State) (g p off : Nat) (b : Bytes) : State := (s.devWrite (dieOf g) g p (s.numBase g + off) b).2

/-- Offset of the census record of a format code (R181). -/
def censusOff (code : Nat) : Nat :=
  64 * (if code < 5 then code else if code = 8 then 5 else if code = 9 then 6 else if code < 0x20 then code - 0x10 + 7
        else 16 + (code - 0x40))

/-- Offsets of tensor and watch entries (R180). -/
def tensorOff (tensor : Nat) : Nat := 0x800 + 256 * (tensor % 4096)
def watchOff (l : Nat) : Nat := 0x100800 + 64 * l

/-- Adds to `w`-byte counters at consecutive places of a byte string; each saturates (R8, R182). -/
def addCounters (b : Bytes) (off w : Nat) (counts : List Nat) : Bytes :=
  counts.zipIdx.foldl (fun b e =>
    patchBytes b (off + w * e.2) (natLe w (min (leAt b (off + w * e.2) w + e.1) (2 ^ (8 * w) - 1)))) b

/-- STATE of a tensor entry: 0 free, 1 unseeded, 2 seeded. -/
def entState (e : Bytes) : Nat := bits (leAt e 4 1) 5 2

/-- Whether an entry registers tensor `tensor` (R183). -/
def entServes (e : Bytes) (tensor : Nat) : Bool :=
  (entState e == 1 || entState e == 2) && leAt e 0 4 == tensor

/-! ### The numerics interrupt (AG_NUM_ALERT, R245) -/

/-- Raises the numerics interrupt of partition `p`: its PF0 and VF vectors and the Belfry core that a session of its cores named. -/
def State.numInterrupt (s : State) (p : Nat) : State :=
  ((s.host.sessions.filter (fun x => x.fn = .bfy p)).filterMap (fun x => x.bfyCore)).foldl (fun (s : State) n => s.coreVec n 1)
    (s.vecBoth (16 + p) 1 p)

/-- Sets an AG_NUM_ALERT bit in the partition's home group. -/
def State.numAlert (s : State) (p : Nat) (f : Fld) : State :=
  match s.homeOf p with
  | none => s
  | some h => if s.on f h then s else (s.wr f 1 h).numInterrupt p

/-! ### Updates (R185, R195) -/

/-- A descriptor of array group `g`, or an atomic unit on its behalf, updates the table of partition `p` after converting into `tensor` at
`step` with rounding mode `mode`: counts in the order of R182 and amax. -/
def State.numUpdate (s : State) (g p tensor step code mode : Nat) (counts : List Nat) (amax : Nat) : State :=
  if !s.numOn g then s
  else
    let s := match s.tabRead g p (censusOff code) 64 with
      | (some (some b), s) => s.tabWrite g p (censusOff code) (addCounters b 0 8 counts)
      | (_, s) => s
    match s.tabRead g p (tensorOff tensor) 256 with
    | (some (some e), s) =>
      if !entServes e tensor then s
      else if leAt e 8 4 = step then
        let e := addCounters e 96 4 counts
        let e := patchBytes e 12 (natLe 4 (max (leAt e 12 4) amax))
        let bad := (leAt e 4 1).testBit 4 && decide (mode ≠ 1) && decide (0 < counts.sum)
        let e := if bad then addCounters e 92 4 [counts.sum] else e
        let s := s.tabWrite g p (tensorOff tensor) e
        if bad then s.numAlert p F.AG_NUM_ALERT_NONSR else s
      else (s.tabWrite g p (tensorOff tensor) (addCounters e 84 4 [1])).numAlert p F.AG_NUM_ALERT_OFFSTEP
    | (_, s) => s

/-- A promotion counted in the tensor's entry and the format's census record; a forced scale counts an override event (R193, R194). -/
def State.numPromote (s : State) (g p tensor code : Nat) : State :=
  if !s.numOn g then s
  else
    let s := match s.tabRead g p (censusOff code) 64 with
      | (some (some b), s) => s.tabWrite g p (censusOff code) (addCounters b 56 8 [1])
      | (_, s) => s
    match s.tabRead g p (tensorOff tensor) 256 with
    | (some (some e), s) =>
      if entServes e tensor then
        let s := s.tabWrite g p (tensorOff tensor) (addCounters e 88 4 [1])
        if (leAt e 4 1).testBit 3 then s.inc F.PWR_OVERRIDE_PROMOTION else s
      else s
    | (_, s) => s

/-! ### Scales (R187 to R189) -/

/-- emax of a format code for tensor scales, where the code names a format that allows a per-tensor scale. -/
def State.tensorFmt (s : State) (g code : Nat) : Option Fmt :=
  if s.scaleOk g code 1 then s.fmt g code else none

/-- estimate_scale (R188) of a binary32 amax pattern. -/
def estimateScale (a : Nat) (f : Fmt) (h : Nat) : Nat :=
  let x := fp32.decode false a
  if x.cls = .fin then (min 254 (max 0 (x.top - f.emaxTensor + h + 127))).toNat
  else if a = 0 then 0x7F else 254

/-- What a scale lookup yields: a scale, an unseeded tensor, or a failed access. -/
inductive ScaleGot where
  | scale (v : Nat)
  | unseeded
  | failed
  deriving DecidableEq, Repr

/-- The output scale latched at the start of a MATMUL into `tensor` with output format `code` (R189, R494). -/
def State.latchScale (s : State) (g p tensor code : Nat) : ScaleGot × State :=
  if !s.numOn g then (.scale 0x7F, s)
  else
    match s.tabRead g p (tensorOff tensor) 256 with
    | (none, s) => (.scale 0x7F, s)
    | (some none, s) => (.failed, s)
    | (some (some e), s) =>
      if !entServes e tensor then (.scale 0x7F, s)
      else if entState e = 1 then (.unseeded, s)
      else
        let sc := leAt e 7 1
        match s.tensorFmt g (leAt e 81 1), s.fmt g code with
        | some f, some o =>
          if leAt e 81 1 = code ∨ sc = 255 then (.scale sc, s)
          else (.scale (min 254 (max 0 ((sc : Int) + f.emaxTensor - o.emaxTensor))).toNat, s)
        | _, _ => (.scale sc, s)

/-- A tensor entry after an advance to step `step` (R187). -/
def State.advanceEntry (s : State) (g step : Nat) (e : Bytes) : Bytes :=
  let census := (List.range 7).map (fun k => leAt e (96 + 4 * k) 4)
  let st := entState e
  let e :=
    if 0 < census.sum then
      let fill := if st = 1 then 0 else bits (leAt e 80 1) 0 5
      let ctrl := leAt e 4 1
      let e := if st = 1 then patchBytes e 4 (natLe 1 (ctrl - 32 + 64)) else e
      let e := patchBytes e 16 (slice e 12 4 ++ slice e 16 60)
      let e := patchBytes e 80 (natLe 1 (min (fill + 1) 16))
      patchBytes (patchBytes e 128 (slice e 96 28)) 156 (slice e 8 4)
    else e
  let e :=
    if entState e = 2 then
      let code := leAt e 5 1
      let n := min (bits (leAt e 80 1) 0 5) 16
      let a := ((List.range n).map (fun k => leAt e (16 + 4 * k) 4)).foldl max 0
      let sc := if (leAt e 4 1).testBit 3 then leAt e 6 1
        else match s.tensorFmt g code with
          | some f => estimateScale a f (bits (leAt e 4 1) 0 3)
          | none => 0x7F
      patchBytes (patchBytes e 81 (natLe 1 code)) 7 (natLe 1 sc)
    else e
  patchBytes (patchBytes (patchBytes e 96 (natLe 28 0)) 12 (natLe 4 0)) 8 (natLe 4 step)

/-! ### The watch table (R197, R198) -/

/-- Quotient of two finite nonzero values, exact to the last bit that rounding to binary64 can see. -/
def Val.quot (x y : Val) : Val :=
  let k : Nat := 200
  let n := x.mag * 2 ^ k / y.mag
  ⟨.fin, x.neg != y.neg, 2 * n + (if x.mag * 2 ^ k % y.mag = 0 then 0 else 1), x.ulp - y.ulp - (k : Int) - 1⟩

/-- Square root of a positive finite value, likewise. -/
def Val.root (x : Val) : Val :=
  let odd := x.ulp % 2
  let m := x.mag * 2 ^ (odd.toNat + 200)
  let r := Nat.sqrt m
  ⟨.fin, false, 2 * r + (if r * r = m then 0 else 1), (x.ulp - odd - 200) / 2 - 1⟩

/-- RATIO = sqrt(UPD_SQ / WGT_SQ) as a binary32 pattern (R198). -/
def watchRatio (u w : Val) : Nat :=
  let q : Val :=
    if w.cls = .zero then Val.inf false
    else if u.cls = .nan ∨ w.cls = .nan then Val.nan
    else if u.cls = .inf then (if w.cls = .inf then Val.nan else Val.inf (u.neg != w.neg))
    else if w.cls = .inf ∨ u.cls = .zero then Val.zero false
    else accVal true (accRound true (u.quot w) 0 0)
  let r : Val :=
    match q.cls with
    | .fin => if q.neg then Val.nan else accVal true (accRound true q.root 0 0)
    | .inf => if q.neg then Val.nan else q
    | _ => q
  (fp32.convert false r 0 1 0).1

/-- A watch alert: the bit of AG_NUM_ALERT, and FIRST_LAYER at the first since both bits were 0. -/
def State.watchAlert (s : State) (p l : Nat) (f : Fld) : State :=
  match s.homeOf p with
  | none => s
  | some h =>
    let s := if s.on F.AG_NUM_ALERT_WATCH_HIGH h || s.on F.AG_NUM_ALERT_WATCH_LOW h then s else s.wr F.AG_NUM_ALERT_FIRST_LAYER l h
    s.numAlert p f

/-- An advance finishes one watch entry (R198); `cur` is the step that ends. -/
def State.watchFinish (s : State) (g p cur l : Nat) : State :=
  match s.tabRead g p (watchOff l) 64 with
  | (some (some e), s) =>
    let u := fp64.decode false (leAt e 0 8)
    let w := fp64.decode false (leAt e 8 8)
    if (leAt e 32 1).testBit 0 && (decide (u.cls ≠ .zero) || decide (w.cls ≠ .zero)) then
      let r := watchRatio u w
      let rv := fp32.decode false r
      let hi := decide (rv.cls = .nan) || (fp32.decode false (leAt e 28 4)).lt rv
      let lo := rv.lt (fp32.decode false (leAt e 24 4))
      let e := patchBytes (patchBytes e 16 (natLe 4 r)) 20 (natLe 4 cur)
      let e := if hi then patchBytes (addCounters e 36 4 [1]) 33 (natLe 1 (leAt e 33 1 ||| 1)) else e
      let e := if lo then patchBytes (addCounters e 40 4 [1]) 33 (natLe 1 (leAt e 33 1 ||| 2)) else e
      let s := s.tabWrite g p (watchOff l) (patchBytes e 0 (natLe 16 0))
      let s := if hi then s.watchAlert p l F.AG_NUM_ALERT_WATCH_HIGH else s
      if lo then s.watchAlert p l F.AG_NUM_ALERT_WATCH_LOW else s
    else s
  | (_, s) => s

/-- WATCH_DEPOSIT (R198): a pair of binary64 sums is added, each with RNE; a deposit to an entry that is not enabled, or by an echo (R391), is
discarded. -/
def execWatchDeposit (t g l upd wgt : Nat) (s : State) : Out :=
  let s := s.tick t
  inst (g < 16 ∧ l < 1024)
    (match s.jobs.find? (fun j => decide (j.pa = g) && decide (j.unit = 20) && !j.ended) with
     | none => s
     | some j =>
       if j.echo || !s.numOn j.g then s
       else
         match s.tabRead j.g j.p (watchOff l) 64 with
         | (some (some e), s) =>
           if (leAt e 32 1).testBit 0 then
             let add := fun (off v : Nat) =>
               natLe 8 (accRound true ((fp64.decode false (leAt e off 8)).add (fp64.decode false v)) 0 0)
             s.tabWrite j.g j.p (watchOff l) (add 0 upd ++ add 8 wgt)
           else s
         | (_, s) => s)

/-- An advance of partition `p` to step `step` processes every entry (R187). The step that ends is CUR_STEP of the first registered tensor, or
`cur` where none is registered (DEDUCED, notes/assumptions/90.md). -/
def State.advanceTable (s : State) (g p cur step : Nat) : State :=
  let r := (List.range 4096).foldl (fun (r : Option Nat × State) x =>
    match r.2.tabRead g p (0x800 + 256 * x) 256 with
    | (some (some e), s) =>
      if entState e = 1 ∨ entState e = 2 then
        (some (r.1.getD (leAt e 8 4)), s.tabWrite g p (0x800 + 256 * x) (s.advanceEntry g step e))
      else (r.1, s)
    | (_, s) => (r.1, s)) (none, s)
  (List.range 1024).foldl (fun s l => s.watchFinish g p (r.1.getD cur) l) r.2

/-! ### Register writes (R55, R186) -/

/-- The effect of a write to AG_FMTn of AGg (R55 to R57): the named fields take the value written; VALID and ERROR give the validation's
result. -/
def State.fmtWrite (s : State) (g n value : Nat) : State :=
  let err := fmtError value
  ((((((s.wr F.AG_FMT_EW (bits value 0 4) g n).wr F.AG_FMT_PW (bits value 4 4) g n).wr F.AG_FMT_BIAS (bits value 8 8) g n).wr
      F.AG_FMT_SPECIAL (bits value 16 2) g n).wr F.AG_FMT_SUBN (bits value 18 1) g n).wr F.AG_FMT_SCALE (bits value 20 2) g n).wr
    F.AG_FMT_ERROR err g n |>.wrB F.AG_FMT_VALID (err = 0) g n

/-- AG_FMT_WRITE (R55 to R57). -/
def execAgFmtWrite (t g n value : Nat) (s : State) : Out :=
  let s := s.tick t
  inst (g < 16 ∧ n < 16) (s.windowWrite g .AG_FMT g n .mgt value (fun s => s.fmtWrite g n value))

/-- A write of `step` to AG_NUM_ADVANCE of the home group `g` of partition `p` (R186, R429): held while a cut is arming, without effect while
BUSY, and with the table off it starts no advance. -/
def State.advanceWrite (s : State) (p g step : Nat) : State :=
  if (s.snap p).arming then s.setSnap p { s.snap p with heldAdv := (s.snap p).heldAdv ++ [step % 2 ^ 32] }
  else if s.on F.AG_NUM_ADVANCE_BUSY g then s
  else if !s.numOn g then s.wr F.AG_NUM_ADVANCE_STEP step g
  else
    let s := s.settle p
    { (s.wr F.AG_NUM_ADVANCE_STEP step g).wr F.AG_NUM_ADVANCE_BUSY 1 g with advances := s.advances ++ [(p, step % 2 ^ 32)] }

/-- A write to AG_NUM_ADVANCE of AGg: in the home group it starts an advance; elsewhere it starts none. -/
def State.numAdvance (s : State) (g step : Nat) : State :=
  match s.partOf g with
  | none => s
  | some p => if s.homeOf p ≠ some g ∨ s.hngState p = 3 then s else s.advanceWrite p g step

/-- AG_NUM_ADVANCE_WRITE (R186). -/
def execAgNumAdvanceWrite (t g step : Nat) (s : State) : Out :=
  let s := s.tick t
  inst (g < 16) (s.windowWrite g .AG_NUM_ADVANCE g 0 .mgt step (fun s => s.numAdvance g step))

end Sys2Proof.Machine
end

