-- ==== Sys2Proof/Machine/Advance.lean ====
section
/-!
DEFINITION. Sys2Proof/Machine/Advance.lean: the end of an advance (spec/08, R186, R187) and what a step boundary brings: cut triggers, the
recovery budget, the guarantees, holds, and the arming window (spec/01, 14, 19).
-/

namespace Sys2Proof.Machine

/-! ### The recovery budget (R434, R446) -/

/-- Age in ns of the newest cut that is COMPLETE at every mirror. -/
def State.cutAge (s : State) (p : Nat) : Option Nat := (s.snap p).newest.map (fun n => s.now - n.2)

/-- The left side of R446 in ns, multiplied by 4,800 times REPLAY_X10 (4.8 TB/s are 4,800 bytes in one ns). -/
def State.budget (s : State) (p pages age : Nat) : Nat :=
  let x := max 1 (s.rd F.SNP_AGE_REPLAY_X10 p)
  5200000000 * 4800 * x + pages * 65536 * x + age * 10 * 4800 + (s.snap p).tStep * 4800 * x

/-- The budget in whole seconds, saturating; 255 where no cut is COMPLETE. -/
def State.budgetS (s : State) (p : Nat) : Nat :=
  match (s.snap p).newest with
  | none => 255
  | some n => min 255 (s.budget p n.1 (s.now - n.2) / (4800 * max 1 (s.rd F.SNP_AGE_REPLAY_X10 p) * 1000000000))

/-- The recovery condition of partition `p` as its device judges it: mirrors (R434) and budget (R446). -/
def State.recoverable (s : State) (p : Nat) : Bool :=
  (s.snap p).mirrorsGood
    && (match (s.snap p).newest with
        | none => false
        | some n => decide (s.budget p n.1 (s.now - n.2) ≤ 60000000000 * 4800 * max 1 (s.rd F.SNP_AGE_REPLAY_X10 p)))

/-- HOLD_RECOVERY lapses with a level 1 memory-class fault (R15, R434; notes/assumptions/54.md). -/
def State.recoveryLost (s : State) (p : Nat) : State :=
  let s := s.wr F.SNP_STATUS_RECOVERY 0 p
  if s.on F.MGT_GUARANTEE_HOLD_RECOVERY then
    (s.lapse 4).raise { cls := 0, level := 1, master := 0x56, part := p, source := 0x56, code := 0, aux := 2 }
  else s

/-- SNP_STATUS.RECOVERY follows the condition. -/
def State.judgeRecovery (s : State) (p : Nat) : State :=
  if s.recoverable p then s.wr F.SNP_STATUS_RECOVERY 1 p else s.recoveryLost p

/-! ### Cut triggers and the arming window (R428, R430) -/

/-- Whether partition `p` has the records without which it never arms a cut (R428). -/
def State.cuts (s : State) (p : Nat) : Bool := s.hasRec p 10 && s.hasRec p 12

/-- Mirrors of partition `p`'s TWIN record, numbered from 1, with the device and partition that hold them. -/
def State.mirrors (s : State) (p : Nat) : List (Nat × Nat × Nat) :=
  match s.img.act.bind (fun im => im.twins.find? (fun t => t.p = p)) with
  | none => []
  | some t => if t.mirrors = 2 then [(1, t.twinDev, t.twinPart), (2, t.secDev, t.secPart)] else [(1, t.twinDev, t.twinPart)]

/-- MAX is raised at a step MAX_CUT_STEPS or more above the previous cut step; pending for as many steps again it is OVERDUE (R430). -/
def State.maxTrigger (s : State) (p step : Nat) : State :=
  let n := s.rd F.SNP_CFG_MAX_CUT_STEPS p
  if !s.cuts p then s
  else
    let s := if s.rd F.SNP_STATUS_CUT_STEP p + n ≤ step ∧ !(s.rd F.SNP_STATUS_PENDING p).testBit 1 then
        (s.snapTrigger p 1).setSnap p { s.snap p with maxSince := some step }
      else s
    match (s.snap p).maxSince with
    | some m =>
      if m + n ≤ step ∧ !s.on F.SNP_STATUS_OVERDUE p ∧ (s.rd F.SNP_STATUS_PENDING p).testBit 1 then
        (s.wr F.SNP_STATUS_OVERDUE 1 p).raise { cls := 0, level := 1, master := 0x56, part := p, source := 0x56, code := 0, aux := 1 }
      else s
    | none => s

/-- Whether an arming window follows the advance to `step` (R428). -/
def State.window (s : State) (p step : Nat) : Bool :=
  let x := s.snap p
  s.cuts p && decide (s.rd F.SNP_STATUS_PENDING p ≠ 0) && !s.on F.PGM_CUT_ACTIVE p && decide (1 ≤ step)
    && (!x.armed || decide (s.rd F.SNP_STATUS_CUT_STEP p + s.rd F.SNP_CFG_MIN_CUT_STEPS p ≤ step - 1))
    && decide (s.rd F.SNP_TABLE_SHARDS p ≠ 0)
    && (s.mirrors p).all (fun m => x.answers.any (fun a => decide (a.r = m.1) && a.slot.isSome && decide (s.now ≤ a.at_ + 10000000)))

/-! ### The advance (R186, R187) -/

/-- Whether nothing of partition `p` that started before its advance is unfinished; commits of atomic units are single steps. -/
def State.advanceReady (s : State) (p : Nat) : Bool := !s.jobs.any (fun j => decide (j.p = p) && !j.echo)

/-- The step boundary that an advance of partition `p` to `step` makes; the guarantees of the device are judged at that of any partition
(DESIGN CHOICE, notes/assumptions/111.md). -/
def State.stepBoundary (s : State) (p step : Nat) : State :=
  let x := s.snap p
  let s := s.setSnap p { x with tStep := if x.lastAdvance = 0 then 0 else s.now - x.lastAdvance, lastAdvance := s.now }
  let s := s.maxTrigger p step
  let s := if s.cuts p then s.judgeRecovery p else s
  let s := s.judgeGuarantees
  let s := if p ∈ s.host.holdArmed then
      ({ s with host := { s.host with holdArmed := s.host.holdArmed.filter (fun q => q ≠ p) } } : State).wrBit F.MGT_HOST_HELD p true
    else s
  if s.window p step then (s.setSnap p { s.snap p with arming := true }).wr F.SNP_STATUS_STATE 1 p else s

/-- ADVANCE_RUN (R186, R187, R198, R321, R428, R446): once the partition's started descriptors have retired, the advance processes every entry,
clears BUSY and makes a step boundary. -/
def execAdvanceRun (t p : Nat) (s : State) : Out :=
  let s := s.tick t
  inst (p < 16)
    (match s.advances.find? (fun a => a.1 = p), s.homeOf p with
     | some a, some g =>
       if !s.advanceReady p ∨ s.safe then s
       else
         let s := (s.settle p).advanceTable g p (agetD s.curSteps p 0) a.2
         let s := ({ s with advances := s.advances.filter (fun x => x.1 ≠ p), curSteps := aset s.curSteps p a.2 } : State).wr
           F.AG_NUM_ADVANCE_BUSY 0 g
         s.stepBoundary p a.2
     | _, _ => s)

end Sys2Proof.Machine
end

