-- ==== Sys2Proof/Machine/Marks.lean ====
section
/-!
DEFINITION. Sys2Proof/Machine/Marks.lean: what a detected wrong result leaves: the bad step, the bucket charge, the quarantine request and the
first capture (spec/17, R389, R398, R400, R401).
-/

namespace Sys2Proof.Machine

/-- Marks step `step` of partition `p` bad, with `suspect` as the first suspect step (R389, R398): the lower values stay. -/
def State.markBad (s : State) (p step suspect : Nat) : State :=
  let was := s.on F.GAL_GOAL_BAD p
  let s' := (s.wr F.GAL_STEP_BAD_STEP (if was then min step (s.rd F.GAL_STEP_BAD_STEP p) else step) p).wr F.GAL_STEP_SUSPECT_FIRST
    (if was then min suspect (s.rd F.GAL_STEP_SUSPECT_FIRST p) else suspect) p
  s'.wr F.GAL_GOAL_BAD 1 p

/-- GAL_QUAR_p shows the pending request and how many wait (R401). -/
def State.showQuar (s : State) (p : Nat) : State :=
  match agetD s.gal.quar p [] with
  | [] => (((((s.wr F.GAL_QUAR_VALID 0 p).wr F.GAL_QUAR_PHYS 0 p).wr F.GAL_QUAR_BUCKET 0 p).wr F.GAL_QUAR_QUEUED 0 p).wr
      F.GAL_QUAR_STEP 0 p)
  | q :: rest => (((((s.wr F.GAL_QUAR_VALID 1 p).wr F.GAL_QUAR_PHYS q.pa p).wr F.GAL_QUAR_BUCKET q.bucket p).wr F.GAL_QUAR_QUEUED
      (min rest.length 31) p).wr F.GAL_QUAR_STEP q.step p)

/-- Ends every quarantine request for physical array `pa` (R401); a request that becomes pending holds BAD again. -/
def State.endQuar (s : State) (p pa : Nat) : State :=
  let l := (agetD s.gal.quar p []).filter (fun q => q.pa ≠ pa)
  let s := { s with gal := { s.gal with quar := if l.isEmpty then adel s.gal.quar p else aset s.gal.quar p l } }
  s.showQuar p

/-- Bucket index at a temperature in degrees C, a rail voltage in mV and a toggle-density band (R400). -/
def bucketIndex (c : Int) (mv band : Nat) : Nat :=
  32 * min 24 (c / 5).toNat + 4 * min 7 ((mv - 600) / 25) + band % 4

/-- The bucket in which a charge to physical array `pa` falls now. The toggle-density band is a free value (notes/assumptions/7.md). -/
def State.bucketNow (s : State) (pa : Nat) : Nat × State :=
  let g := pa / 17
  let c := agetD s.pwr.dieTemp (1 + g / 4) 0
  (bucketIndex c (agetD s.pwr.grpMv g 800) (s.free % 4), s.freeTaken)

/-- A charge to physical array `pa` in bucket `b` (R400, R401): the count rises to at most 15; at 3 an ACTIVE array raises a quarantine request,
a spare serves no further echoes. -/
def State.charge (s : State) (p pa b step : Nat) : State :=
  let k := 800 * pa + b
  let n := min 15 (agetD s.sec.flash.buckets k 0 + 1)
  let s := { s with sec := { s.sec with flash := { s.sec.flash with buckets := aset s.sec.flash.buckets k n } } }
  if n ≠ 3 then s
  else if s.rd F.SPR_STATUS_ROLE pa = 1 then
    let s := s.raise { cls := 1, level := 1, master := 0x30 + pa / 17, part := p, source := 0x30 + pa / 17, code := 0x120, aux := pa }
    let l := agetD s.gal.quar p [] ++ [{ pa := pa, bucket := b, step := step }]
    (({ s with gal := { s.gal with quar := aset s.gal.quar p l } } : State).showQuar p).markBad p step step
  else if s.rd F.SPR_STATUS_ROLE pa = 2 ∨ s.rd F.SPR_STATUS_ROLE pa = 3 then
    { s with gal := { s.gal with noEcho := addOnce s.gal.noEcho pa } }
  else s

/-- GAL_FIRST captures the first detection: KIND 0 checksum column, 1 checksum row, 2 Gallery. -/
def State.galFirst (s : State) (kind p phys master step : Nat) : State :=
  if s.on F.GAL_FIRST_VALID then s
  else
    (((((s.wr F.GAL_FIRST_VALID 1).wr F.GAL_FIRST_KIND kind).wr F.GAL_FIRST_PARTITION p).wr F.GAL_FIRST_PHYS phys).wr
      F.GAL_FIRST_MASTER master).wr F.GAL_FIRST_STEP step

/-- A failed checksum of physical array `pa` (R39, R388, R389, R398, R400): counter, first captures, level 1 array fault, bucket charge, bad
step. `kind` 0 is the checksum column at slot `slot`, 1 the checksum row at column `col`; `pass` passes in the array are older. -/
def State.checksumFail (s : State) (kind p pa pass slot col step : Nat) : State :=
  let s := s.inc (if kind = 0 then F.SPR_CHK_CNT_ROW_MISMATCH else F.SPR_CHK_CNT_COL_MISMATCH) pa
  let s := if s.on F.SPR_CHK_FIRST_VALID pa then s
    else
      ((((s.wr F.SPR_CHK_FIRST_VALID 1 pa).wr F.SPR_CHK_FIRST_KIND kind pa).wr F.SPR_CHK_FIRST_SLOT (if kind = 0 then min slot 65535 else 0)
        pa).wr F.SPR_CHK_FIRST_COLUMN (if kind = 0 then 0 else col) pa).wr F.SPR_CHK_FIRST_PASS
        ((s.rd F.SPR_PASS_CNT_PASSES pa + pass) % 2 ^ 32) pa
  let m := 0x30 + pa / 17
  let s := s.raise { cls := 1, level := 1, master := m, part := p, source := m, code := 0x101 + kind, aux := pa }
  let s := (s.galFirst kind p pa m step).markBad p step step
  let b := s.bucketNow pa
  b.2.charge p pa b.1 step

end Sys2Proof.Machine
end

