-- ==== Sys2Proof/Machine/Products.lean ====
section
/-!
DEFINITION. Sys2Proof/Machine/Products.lean: exact products, the group window, the column register, joins, strict chains and the checksum
sums (spec/04, 17).
-/

namespace Sys2Proof.Machine

/-! ### Shapes (R22, table of shapes) -/

/-- Shape codes: 0 Square, 1 Tall, 2 Taller, 3 Wide. K, N, number of segments, columns of a segment, extra latency E. -/
def shapeK (sh : Nat) : Nat := [256, 512, 1024, 128].getD sh 256
def shapeN (sh : Nat) : Nat := [256, 128, 64, 512].getD sh 256
def shapeSegs (sh : Nat) : Nat := [1, 2, 4, 1].getD sh 1
def shapeExtra (sh : Nat) : Nat := [0, 4, 8, 0].getD sh 0

/-- Columns of one segment. -/
def segCols (sh : Nat) : Nat := 256 / shapeSegs sh

/-- Reduction index carried at physical row `r` and column `c`. -/
def kAt (sh r c : Nat) : Nat := if sh = 3 then r % 128 else 256 * (c / segCols sh) + r

/-- Logical column at physical row `r` and column `c`. -/
def nAt (sh r c : Nat) : Nat := if sh = 3 then (if r < 128 then c else c + 256) else c % segCols sh

/-! ### Group windows (R73 to R76) -/

/-- The products of a group that enter its window: finite with a nonzero magnitude. -/
def Val.enters (x : Val) : Bool := decide (x.cls = .fin) && decide (x.mag ≠ 0)

/-- Anchor X and window W of a group's products; `pp` is p_x + p_y (R75). -/
def groupWindow (ps : List Val) (pp : Int) : Option (Int × Int) :=
  let f := ps.filter Val.enters
  match f with
  | [] => none
  | a :: rest =>
    let x := rest.foldl (fun (m : Int) q => max m (q.ulp + pp)) (a.ulp + pp)
    some (x, (f.map (fun q =>
      let k := q.ulp - x + 90
      let mg : Int := if 0 ≤ k then (q.mag * 2 ^ k.toNat : Nat) else (q.mag / 2 ^ (-k).toNat : Nat)
      if q.neg then -mg else mg)).sum)

/-! ### The column register (R80, R81) -/

/-- The register before any group has entered. -/
def ColRes.start : ColRes := ⟨false, false, false, true, false, 0, 0⟩

/-- x * 2^k with the floor toward minus infinity where k is negative. -/
def shiftFloor (x k : Int) : Int := if 0 ≤ k then x * 2 ^ k.toNat else x / 2 ^ (-k).toNat

/-- A group with anchor `x` and window `w` enters under scale exponent `c` (R76, R80). -/
def ColRes.enter (r : ColRes) (x w c : Int) : ColRes :=
  let y := x + c
  let r := if r.some_ then r else { r with anchor := y, reg := 0, some_ := true }
  let r := if r.anchor < y then { r with reg := shiftFloor r.reg (r.anchor - y), anchor := y } else r
  { r with reg := r.reg + shiftFloor w (y - 90 - (r.anchor - 640)) }

/-- Flags after products of a column (R81). -/
def ColRes.flags (r : ColRes) (ps : List Val) : ColRes :=
  let pi := r.pinf || ps.any (fun x => decide (x.cls = .inf) && !x.neg)
  let ni := r.ninf || ps.any (fun x => decide (x.cls = .inf) && x.neg)
  { r with nan := r.nan || ps.any (fun x => x.cls = .nan) || (pi && ni), pinf := pi, ninf := ni,
           negZero := r.negZero && ps.all (fun x => x.neg && decide (x.cls ≠ .nan) && decide (x.cls ≠ .inf) && !x.enters) }

/-- One run of R80 over groups of products with their scale exponents. -/
def columnRun (groups : List (List Val × Int)) (pp : Int) : ColRes :=
  groups.foldl (fun r g =>
    let r := r.flags g.1
    match groupWindow g.1 pp with
    | none => r
    | some (x, w) => r.enter x w g.2) ColRes.start

/-- The join J of two results (R82). -/
def ColRes.join (a b : ColRes) : ColRes :=
  let an := if !a.some_ then b.anchor else if !b.some_ then a.anchor else max a.anchor b.anchor
  let part := fun (r : ColRes) => if r.some_ then shiftFloor r.reg (r.anchor - an) else 0
  let pi := a.pinf || b.pinf
  let ni := a.ninf || b.ninf
  { nan := a.nan || b.nan || (pi && ni), pinf := pi, ninf := ni, negZero := a.negZero && b.negZero,
    some_ := a.some_ || b.some_, anchor := an, reg := part a + part b }

/-- The value of a column result (R81). -/
def ColRes.value (r : ColRes) : Val :=
  if r.nan then Val.nan
  else if r.pinf then Val.inf false
  else if r.ninf then Val.inf true
  else if r.some_ then Val.ofInt r.reg (r.anchor - 640)
  else Val.zero r.negZero

/-- Whether a result is NaN or infinite. -/
def ColRes.special (r : ColRes) : Bool := r.nan || r.pinf || r.ninf

/-- A value as a column result, for the check chains of strict mode (R386). -/
def ColRes.ofNum (x : Val) : ColRes :=
  { nan := decide (x.cls = .nan), pinf := decide (x.cls = .inf) && !x.neg, ninf := decide (x.cls = .inf) && x.neg,
    negZero := decide (x.cls = .zero) && x.neg, some_ := x.enters, anchor := x.ulp + 640,
    reg := if x.enters then x.at x.ulp else 0 }

/-- The results of the logical columns from those of the physical columns (R82, R83). -/
def logicalResults (sh : Nat) (phys : List ColRes) : List ColRes :=
  let at_ := fun (c : Nat) => phys.getD c ColRes.start
  match sh with
  | 1 => (List.range 128).map (fun n => (at_ n).join (at_ (n + 128)))
  | 2 => (List.range 64).map (fun n => ((at_ n).join (at_ (n + 64))).join ((at_ (n + 128)).join (at_ (n + 192))))
  | _ => phys

/-! ### One element slot (R73 to R83) -/

/-- The products of group `j` of physical column `c`. -/
def groupProducts (sh : Nat) (xs : List Val) (rows : List (List Val)) (j c : Nat) : List Val :=
  (List.range 32).map (fun i =>
    let r := 32 * j + i
    (xs.getD (kAt sh r c) (Val.zero false)).mul ((rows.getD r []).getD c (Val.zero false)))

/-- Index of the streamed block scale that group `j` of physical column `c` takes (R50, R83). -/
def xBlock (sh j c : Nat) : Nat := if sh = 3 then j % 4 else 8 * (c / segCols sh) + j

/-- Scale exponent c_j of group `j` of physical column `c` (R76). -/
def groupScale (sh : Nat) (xsc : List Nat) (ysc : List (List Nat)) (j c : Nat) : Int :=
  ((xsc.getD (xBlock sh j c) 127 : Int) - 127) + (((ysc.getD j []).getD c 127 : Int) - 127)

/-- The groups of one run of a physical column: `h` selects the half in Wide. -/
def runGroups (sh h : Nat) : List Nat := if sh = 3 then (List.range 4).map (fun j => 4 * h + j) else List.range 8

/-- Physical column results of a slot in fast mode; in Wide the results of rows 0 to 127, then those of rows 128 to 255. -/
def physResults (sh : Nat) (xs : List Val) (xsc : List Nat) (t : TileSt) (pp : Int) : List ColRes :=
  (List.range (if sh = 3 then 2 else 1)).flatMap (fun h =>
    (List.range 256).map (fun c =>
      columnRun ((runGroups sh h).map (fun j => (groupProducts sh xs t.rows j c, groupScale sh xsc t.scales j c))) pp))

/-- The products of a run of a physical column in ascending k, scales applied exactly. -/
def scaledProducts (sh h : Nat) (xs : List Val) (xsc : List Nat) (t : TileSt) (c : Nat) : List Val :=
  (runGroups sh h).flatMap (fun j => (groupProducts sh xs t.rows j c).map (fun p => p.shift (groupScale sh xsc t.scales j c)))

/-- Exact sum of values. -/
def sumNum (xs : List Val) : Val := xs.foldl Val.add (Val.zero true)

/-- E of the checksum column: the exact sum of every product of the slot (R38, R386). -/
def slotE (sh : Nat) (xs : List Val) (xsc : List Nat) (t : TileSt) : Val :=
  sumNum ((List.range (if sh = 3 then 2 else 1)).flatMap (fun h =>
    (List.range 256).flatMap (fun c => scaledProducts sh h xs xsc t c)))

/-- Rounded products of each logical column for the strict chains (R71, R89). -/
def strictChains (wide : Bool) (sh : Nat) (xs : List Val) (xsc : List Nat) (t : TileSt) : List (List Val) :=
  (List.range (if sh = 3 then 2 else 1)).flatMap (fun h =>
    (List.range 256).map (fun c => (scaledProducts sh h xs xsc t c).map (accRne wide)))

/-- A chain over rounded products from the value `v` (R89). -/
def chainFrom (wide : Bool) (v : Val) (ps : List Val) : Val := ps.foldl (fun v p => accRne wide (v.add p)) v

/-- Smallest c_j among the groups of each logical column that hold a finite nonzero product (R104). -/
def scaleMins (sh : Nat) (xs : List Val) (xsc : List Nat) (t : TileSt) : List (Option Int) :=
  (List.range (shapeN sh)).map (fun n =>
    ((List.range (if sh = 3 then 1 else shapeSegs sh)).flatMap (fun sg =>
      let c := if sh = 3 then n % 256 else sg * segCols sh + n
      (runGroups sh (n / 256)).filterMap (fun j =>
        if (groupProducts sh xs t.rows j c).any Val.enters then some (groupScale sh xsc t.scales j c) else none))).min?)

/-- Largest scaled top exponent T + c_j of the products of each run (A of R386 in strict mode), -4096 for none; `pp` is p_x + p_y. -/
def strictTops (sh : Nat) (xs : List Val) (xsc : List Nat) (t : TileSt) (pp : Int) : List Int :=
  (List.range (if sh = 3 then 2 else 1)).flatMap (fun h => (List.range 256).map (fun c =>
    (((runGroups sh h).flatMap (fun j =>
      ((groupProducts sh xs t.rows j c).filter Val.enters).map (fun p => p.ulp + pp + groupScale sh xsc t.scales j c))).max?).getD (-4096)))

/-- Final anchor of each result (A of R386 in fast mode), -4096 for none. -/
def fastTops (phys : List ColRes) : List Int := phys.map (fun r => if r.some_ then r.anchor else -4096)

/-! ### Exact comparison of checksums (R386) -/

/-- |m1 * 2^e1 - m2 * 2^e2| > tol * 2^te. -/
def differsBy (m1 e1 m2 e2 : Int) (tol : Nat) (te : Int) : Bool :=
  let u := min (min e1 e2) te
  decide (tol * 2 ^ (te - u).toNat < (m1 * 2 ^ (e1 - u).toNat - m2 * 2 ^ (e2 - u).toNat).natAbs)

/-- Mantissa and exponent of a sum of m1 * 2^e1 and m2 * 2^e2. -/
def dyAdd (a b : Int × Int) : Int × Int :=
  let u := min a.2 b.2
  (a.1 * 2 ^ (a.2 - u).toNat + b.1 * 2 ^ (b.2 - u).toNat, u)

/-- A finite value as mantissa and exponent. -/
def Val.dy (x : Val) : Int × Int := if x.enters then (x.at x.ulp, x.ulp) else (0, 0)

/-- A slot whose streamed element `k` turns out NaN: every result it feeds is NaN (R137). -/
def SlotFl.spoil (f : SlotFl) (sh k : Nat) : SlotFl :=
  { f with
    phys := f.phys.mapIdx (fun c r => if sh = 3 ∨ c / segCols sh = k / 256 then { r with nan := true } else r),
    chains := f.chains.map (fun l => l ++ [Val.nan]),
    special := true }

end Sys2Proof.Machine
end

