-- ==== Sys2Proof/Machine/Tiles.lean ====
section
/-!
DEFINITION. Sys2Proof/Machine/Tiles.lean: fields of MATMUL descriptors, tile headers and layouts, word planes, and the reads of streamed slots
and shadow rows (spec/06, 07).
-/

namespace Sys2Proof.Machine

/-! ### MATMUL fields (R156, R158) -/

def Job.xAddr (j : Job) : Nat := leAt j.desc 16 6
def Job.yAddr (j : Job) : Nat := leAt j.desc 22 6
def Job.outAddr (j : Job) : Nat := leAt j.desc 28 6
def Job.xStride (j : Job) : Nat := leAt j.desc 34 2
def Job.yStride (j : Job) : Nat := leAt j.desc 36 2
def Job.chunks (j : Job) : Nat := leAt j.desc 38 2 + 1
def Job.xFmt (j : Job) : Nat := leAt j.desc 40 1
def Job.yFmt (j : Job) : Nat := leAt j.desc 41 1
def Job.outFmt (j : Job) : Nat := leAt j.desc 42 1
def Job.shape (j : Job) : Nat := bits (leAt j.desc 43 1) 0 2
def Job.accum (j : Job) : Nat := bits (leAt j.desc 43 1) 2 2
def Job.slotNo (j : Job) : Nat := bits (leAt j.desc 43 1) 4 2
def Job.clear (j : Job) : Bool := (leAt j.desc 43 1).testBit 6
def Job.strict (j : Job) : Bool := (leAt j.desc 43 1).testBit 7
def Job.xKind (j : Job) : Nat := bits (leAt j.desc 44 1) 0 2
def Job.yKind (j : Job) : Nat := bits (leAt j.desc 44 1) 2 2
def Job.outKind (j : Job) : Nat := bits (leAt j.desc 44 1) 4 2
def Job.axisM (j : Job) : Bool := (leAt j.desc 44 1).testBit 6
def Job.accMode (j : Job) : Nat := bits (leAt j.desc 45 1) 0 2
def Job.outMode (j : Job) : Nat := bits (leAt j.desc 45 1) 2 2
def Job.policy (j : Job) : Nat := bits (leAt j.desc 45 1) 4 1
def Job.final (j : Job) : Bool := (leAt j.desc 45 1).testBit 5
def Job.hasExt (j : Job) : Bool := (leAt j.desc 45 1).testBit 6
def Job.passBase (j : Job) : Nat := leAt j.desc 46 2
def Job.step (j : Job) : Nat := if j.op = 3 then leAt j.desc 28 4 else if j.op = 2 then leAt j.cmd 44 4 else leAt j.desc 48 4
def Job.tensor (j : Job) : Nat := if j.op = 3 then leAt j.desc 32 4 else if j.op = 2 then leAt j.cmd 40 4 else leAt j.desc 52 4
def Job.originRow (j : Job) : Nat := leAt j.desc 56 4
def Job.originCol (j : Job) : Nat := leAt j.desc 60 4
def Job.fusedAddr (j : Job) : Nat := leAt j.ext 16 6
def Job.fusedFmt (j : Job) : Nat := leAt j.ext 22 1
def Job.fuse (j : Job) : Bool := (leAt j.ext 23 1).testBit 0
def Job.fuseMul (j : Job) : Bool := (leAt j.ext 23 1).testBit 1
def Job.broadcast (j : Job) : Nat := bits (leAt j.ext 23 1) 2 2
def Job.rowOp (j : Job) : Nat := bits (leAt j.ext 23 1) 4 2
def Job.rowvAddr (j : Job) : Nat := leAt j.ext 24 6
def Job.beta (j : Job) : Int := signed (leAt j.ext 30 2) 16
def Job.complex (j : Job) : Bool := (leAt j.ext 32 1).testBit 0
def Job.exports (j : Job) : Bool := (leAt j.ext 33 1).testBit 0
def Job.redClass (j : Job) : Nat := bits (leAt j.ext 33 1) 1 2
def Job.accWide (j : Job) : Bool := (leAt j.ext 33 1).testBit 3
def Job.remote (j : Job) : Bool := (leAt j.ext 33 1).testBit 4
def Job.handle (j : Job) : Nat := bits (leAt j.ext 34 2) 0 12
def Job.contrib (j : Job) : Nat := bits (leAt j.ext 36 2) 0 12
def Job.destDev (j : Job) : Nat := leAt j.ext 38 2
def Job.xImagAddr (j : Job) : Nat := leAt j.ext 40 6
def Job.yImagAddr (j : Job) : Nat := leAt j.ext 46 6
def Job.outImagAddr (j : Job) : Nat := leAt j.ext 52 6

/-- Whether the drain writes an output tile: FINAL, and no export. -/
def Job.writesOut (j : Job) : Bool := j.final && !j.exports

/-! ### Words and passes (R88, R144, R147, R148) -/

/-- Word planes of a format code. -/
def planesOf (code : Nat) : Nat := if code = 0x12 then 2 else if code = 0x13 then 5 else 1

/-- Precision p of an operand as the cells see it: 12 for word records. -/
def wordP (code : Nat) (f : Fmt) : Nat := if planesOf code = 1 then f.p else 12

/-- Element width b_e of a streamed or shadow plane (R31). -/
def planeBits (code : Nat) (f : Fmt) : Nat := if planesOf code = 1 then f.b else 32

/-- Word pairs (streamed, stationary) of a chunk in their order (R88). -/
def wordOrder (w : Nat) : List (Nat × Nat) :=
  (List.range (2 * w - 1)).flatMap (fun sum =>
    (List.range w).filterMap (fun iy => if iy ≤ sum ∧ sum - iy < w then some (sum - iy, iy) else none))

/-- One pass of a descriptor: its K-chunk, which tiles it takes, whether the stationary sign is inverted, its words, and its output tile. -/
structure PassInfo where
  chunk : Nat
  xImag : Bool
  yImag : Bool
  negate : Bool
  ix : Nat
  iy : Nat
  imagOut : Bool
  deriving DecidableEq, Repr

def Job.words (j : Job) : Nat := planesOf j.xFmt * planesOf j.xFmt
def Job.perChunk (j : Job) : Nat := j.words * (if j.complex then 4 else 1)
/-- Number of passes. -/
def Job.passes (j : Job) : Nat := j.chunks * j.perChunk

/-- Pass `q` of the descriptor. -/
def Job.passInfo (j : Job) (q : Nat) : PassInfo :=
  let real := q % j.perChunk / j.words
  let w := (wordOrder (planesOf j.xFmt)).getD (q % j.words) (0, 0)
  { chunk := q / j.perChunk, xImag := decide (real = 1 ∨ real = 3), yImag := decide (real = 1 ∨ real = 2), negate := decide (real = 1),
    ix := w.1, iy := w.2, imagOut := decide (2 ≤ real) }

/-- Whether pass `q` is the first, or the last, into its output tile. -/
def Job.firstInto (j : Job) (q : Nat) : Bool := (List.range q).all (fun r => (j.passInfo r).imagOut != (j.passInfo q).imagOut)
def Job.lastInto (j : Job) (q : Nat) : Bool :=
  (List.range (j.passes - (q + 1))).all (fun r => (j.passInfo (q + 1 + r)).imagOut != (j.passInfo q).imagOut)

/-- Addresses of the streamed and the stationary tile of pass `q` (R157). -/
def Job.xTile (j : Job) (q : Nat) : Nat :=
  let i := j.passInfo q
  (if i.xImag then j.xImagAddr else j.xAddr) + i.chunk * j.xStride * 4096
def Job.yTile (j : Job) (q : Nat) : Nat :=
  let i := j.passInfo q
  (if i.yImag then j.yImagAddr else j.yAddr) + i.chunk * j.yStride * 4096

/-! ### Layouts (R31, R135, R138, R139) -/

/-- Rounded up to a multiple of 64. -/
def up64 (n : Nat) : Nat := ceilDiv n 64 * 64

/-- S: streamed bytes of an element slot for element width `be` and scale kind (R31). -/
def slotBytes (sh be kind : Nat) : Nat := ceilDiv (shapeK sh * be) 8 + (if kind = 2 then shapeK sh / 32 else 0)

/-- Slot period of a shape for element width `be`, cycles `w` and scale kind (R31). -/
def slotPeriod (sh be w kind : Nat) : Nat := max w (ceilDiv (slotBytes sh be kind) 200)

/-- Geometry of a STREAM or SHADOW plane: period, Q, line bytes, scale offset, sum offset and plane bytes. -/
structure Geom where
  period : Nat
  q : Nat
  line : Nat
  scaleOff : Nat
  sumOff : Nat
  plane : Nat
  deriving DecidableEq, Repr

/-- STREAM layout (R135) of `m` slots. -/
def streamGeom (sh code : Nat) (f : Fmt) (kind m : Nat) : Geom :=
  let be := planeBits code f
  let p := slotPeriod sh be (max 2 (wordP code f)) kind
  let rf := if sh = 3 then 128 else 256
  let q := ceilDiv rf p
  let lb := 8 * ceilDiv (shapeSegs sh * q * be) 64
  let lines := (p * (m - 1) + rf) * lb
  let so := if kind = 2 then up64 lines else 0
  let su := up64 (if kind = 2 then so + m * (shapeK sh / 32) else lines)
  ⟨p, q, lb, so, su, up64 (su + 48 * shapeK sh)⟩

/-- SHADOW layout (R138). -/
def shadowGeom (code : Nat) (f : Fmt) (kind : Nat) : Geom :=
  let lb := 64 * ceilDiv (256 * planeBits code f) 512
  ⟨0, 0, lb, if kind = 2 then 256 * lb else 0, 0, if kind = 2 then 256 * lb + 2048 else 256 * lb⟩

/-! ### Tile headers (R132 to R134, R157) -/

/-- What a header check finds: good with EXTENT, mismatching, failed with its CODE, or unreadable with a stairway code. -/
inductive HdrGot where
  | good (extent ready state tscale : Nat)
  | mismatch
  | failed (code : Nat)
  deriving DecidableEq, Repr

/-- Stairway code of a failed access check (*Access checks*), by the outcome codes of State.accessCode. -/
def stwCode (check : Nat) : Nat := if check = 4 then 5 else 6

/-- Reads and checks the header at `addr` as a STREAM (`kindL` 1) or SHADOW (2) tile of shape `sh`, format code, scale kind and period; a tag
other than `gen` on an unfinished tile is stale. -/
def State.checkHeader (s : State) (g p addr kindL sh code kind period gen : Nat) : HdrGot × State :=
  match s.devRead (dieOf g) g p addr 64 with
  | (some c, _, _, s) => (.failed (stwCode c), s)
  | (none, _, true, s) => (.failed 5, s)
  | (none, h, false, s) =>
    let st := bits (leAt h 26 1) 0 2
    if st = 2 ∨ (st = 0 ∧ leAt h 28 1 ≠ gen) then (.failed (leAt h 27 1), s)
    else if bits (leAt h 0 1) 3 2 = sh ∧ leAt h 1 1 = code ∧ bits (leAt h 2 1) 0 2 = kind ∧ leAt h 6 2 + 1 = shapeK sh
        ∧ (kindL = 1 → leAt h 3 1 = period) ∧ (kind ≠ 0 ∨ leAt h 29 1 = 0x7F) then
      (.good (leAt h 4 2 + 1) (leAt h 24 2) st (leAt h 29 1), s)
    else (.mismatch, s)

/-- Header check of the streamed, or the stationary, tile of pass `q`. -/
def State.checkX (s : State) (j : Job) (q : Nat) : HdrGot × State :=
  s.checkHeader j.g j.p (j.xTile q) 1 j.shape j.xFmt j.xKind
    (slotPeriod j.shape (planeBits j.xFmt j.xf) (max 2 (wordP j.xFmt j.xf)) j.xKind) j.gen
def State.checkY (s : State) (j : Job) (q : Nat) : HdrGot × State :=
  s.checkHeader j.g j.p (j.yTile q) 2 j.shape j.yFmt j.yKind 0 j.gen

/-- w of the descriptor and its slot period (R24, R31). -/
def Job.w (j : Job) : Nat := max 2 (max (wordP j.xFmt j.xf) (wordP j.yFmt j.yf))
def Job.period (j : Job) : Nat := slotPeriod j.shape (planeBits j.xFmt j.xf) j.w j.xKind

/-! ### Reads of operand data (R136 to R138, R145, R497) -/

/-- What a data read meets: nothing, poison (0), or a failed check. -/
abbrev ReadErr := Option Nat

/-- A read of `n` bytes at device address `addr` by `unit` for descriptor `j`; an echo reads what it has written itself from its divert buffer
(R391). -/
def State.jobRead (s : State) (j : Job) (unit addr n : Nat) : Option Nat × Bytes × Bool × State :=
  match s.devRead (dieOf j.g) unit j.p addr n with
  | (some c, b, bad, s) => (some c, b, bad, s)
  | (none, b, bad, s) =>
    if j.echo then (none, b.zipIdx.map (fun x => (aget j.divert (addr + x.2)).getD x.1), bad, s) else (none, b, bad, s)

/-- Reads `w` bits at bit `off` from device address `addr`: one element of a larger read, whose tokens are drawn for the whole. -/
def State.readBits (s : State) (j : Job) (unit addr off w : Nat) : ReadErr × Nat × State :=
  let a := addr + off / 8
  match s.bareRead (dieOf j.g) unit j.p a ((off % 8 + w + 7) / 8) with
  | (some c, _, _, s) => (some c, 0, s)
  | (none, b, bad, s) =>
    let b := if j.echo then b.zipIdx.map (fun x => (aget j.divert (a + x.2)).getD x.1) else b
    (if bad then some 0 else none, bits (leNat b) (off % 8) w, s)

/-- Whether the page that holds device address `a` is one a feed port of AGg reads: a NEAR page of the cupola die under the group (R142,
R217). -/
def State.feeds (s : State) (g a : Nat) : Bool :=
  let e := (s.pmLookup (dieOf g) (a / 65536)).1
  decide (pmLoc e = 1) && decide (pmPlace e = dieOf g)

/-- As readBits, by the feed port of the descriptor's array: what it delivers for an address outside its die is a free value
(notes/assumptions/74.md). -/
def State.feedBits (s : State) (j : Job) (addr off w : Nat) : ReadErr × Nat × State :=
  match s.readBits j (0x30 + j.g) addr off w with
  | (some c, v, s) => (some c, v, s)
  | (none, v, s) =>
    if s.feeds j.g (addr + off / 8) && s.feeds j.g (addr + (off + w - 1) / 8) then (none, v, s) else (none, s.free % 2 ^ w, s.freeTaken)

/-- The value of a stored element: a word record (R145), or the format's value, NaN under a NaN scale (R49). -/
def elemVal (code : Nat) (f : Fmt) (kind sc v : Nat) : Val :=
  if sc = 255 then Val.nan
  else if planesOf code = 1 then f.decode (kind = 2) v
  else
    let e := signed (bits v 12 10) 10
    match bits v 22 2 with
    | 0 => Val.zero (v.testBit 24)
    | 1 => ⟨.fin, v.testBit 24, bits v 0 12, if code = 0x13 then 4 * e else e⟩
    | 2 => Val.inf (v.testBit 24)
    | _ => Val.nan

/-- Offset of the line that holds element `k` of slot `slot` in a STREAM plane of a shape with element width `be`, and the element's first
bit in that line (R135). -/
def Geom.elem (ge : Geom) (sh be slot k : Nat) : Nat × Nat :=
  let r := if sh = 3 then k else k % 256
  let sg := if sh = 3 then 0 else k / 256
  ((ge.period * slot + r) * ge.line, be * (sg * ge.q + r / ge.period))

/-- Device address of the first byte that holds element `k` of slot `slot` in the streamed tile of pass `q` (R135). -/
def Job.elemAddr (j : Job) (q slot k : Nat) : Nat :=
  let ge := streamGeom j.shape j.xFmt j.xf j.xKind j.m
  let e := ge.elem j.shape (planeBits j.xFmt j.xf) slot k
  j.xTile q + 64 + (j.passInfo q).ix * ge.plane + e.1 + e.2 / 8

/-- A streamed slot of pass `q`: values by reduction index, block scales, and the indices whose read failed. Unread elements are NaN. -/
def State.readSlot (s : State) (j : Job) (q slot m tscale : Nat) : List Val × List Nat × List (Nat × Nat) × State :=
  let ge := streamGeom j.shape j.xFmt j.xf j.xKind m
  let base := j.xTile q + 64 + (j.passInfo q).ix * ge.plane
  let nb := shapeK j.shape / 32
  let scs : List Nat × List Nat × State :=
    (List.range nb).foldl (fun (a : List Nat × List Nat × State) b =>
      if j.xKind = 2 then
        match a.2.2.feedBits j (base + ge.scaleOff + slot * nb + b) 0 8 with
        | (none, v, s) => (a.1 ++ [v], a.2.1, s)
        | (some e, _, s) => (a.1 ++ [255], a.2.1 ++ (List.range 32).map (fun i => (32 * b + i) * 16 + e), s)
      else (a.1 ++ [if j.xKind = 1 then tscale else 127], a.2.1, a.2.2)) ([], [], s)
  let be := planeBits j.xFmt j.xf
  let els := (List.range (shapeK j.shape)).foldl (fun (a : List Val × List (Nat × Nat) × State) k =>
    let at_ := ge.elem j.shape be slot k
    match a.2.2.feedBits j (base + at_.1) at_.2 be with
    | (none, v, s) => (a.1 ++ [elemVal j.xFmt j.xf j.xKind (scs.1.getD (k / 32) 127) v], a.2.1, s)
    | (some e, _, s) => (a.1 ++ [Val.nan], a.2.1 ++ [(k, e)], s)) ([], [], scs.2.2)
  (els.1, scs.1, scs.2.1.map (fun x => (x / 16, x % 16)) ++ els.2.1, els.2.2)

/-- Shadow row `r` of pass `q`: its 256 cells, the scale row that loads with it where it starts a group, and the first failed read. -/
def State.readRow (s : State) (j : Job) (q r tscale : Nat) (scales : List (List Nat)) :
    List Val × Option (List Nat) × ReadErr × State :=
  let ge := shadowGeom j.yFmt j.yf j.yKind
  let i := j.passInfo q
  let base := j.yTile q + 64 + i.iy * ge.plane
  let sc : List Nat × ReadErr × State :=
    if r % 32 = 0 then
      (List.range 256).foldl (fun (a : List Nat × ReadErr × State) c =>
        if j.yKind = 2 then
          match a.2.2.feedBits j (base + ge.scaleOff + 256 * (r / 32) + c) 0 8 with
          | (none, v, s) => (a.1 ++ [v], a.2.1, s)
          | (some e, _, s) => (a.1 ++ [255], a.2.1.or (some e), s)
        else (a.1 ++ [if j.yKind = 1 then tscale else 127], a.2.1, a.2.2)) ([], none, s)
    else ([], none, s)
  let row := if r % 32 = 0 then sc.1 else scales.getD (r / 32) []
  let be := planeBits j.yFmt j.yf
  let els := (List.range 256).foldl (fun (a : List Val × ReadErr × State) c =>
    match a.2.2.feedBits j (base + ge.line * r) (be * c) be with
    | (none, v, s) =>
      let x := elemVal j.yFmt j.yf j.yKind (row.getD c 127) v
      (a.1 ++ [if i.negate then { x with neg := !x.neg } else x], a.2.1, s)
    | (some e, _, s) => (a.1 ++ [Val.nan], a.2.1.or (some e), s)) ([], sc.2.1, sc.2.2)
  (els.1, if r % 32 = 0 then some sc.1 else none, els.2.1, els.2.2)

end Sys2Proof.Machine
end

