-- ==== Sys2Proof/Machine/Arrays.lean ====
section
/-!
DEFINITION. Sys2Proof/Machine/Arrays.lean: shadow loads, element starts, feed reads and the verdicts of the checksum column and row of the
spire arrays (spec/02, 04, 06, 17).
-/

namespace Sys2Proof.Machine

/-! ### The arrays and their descriptors -/

def State.pa (s : State) (pa : Nat) : PaSt := agetD s.pas pa {}

def State.setPa (s : State) (pa : Nat) (x : PaSt) : State := { s with pas := aset s.pas pa x }

/-- Started MATMUL descriptors of a physical array: the first runs, the second is staged (R152). -/
def State.paJobs (s : State) (pa : Nat) : List Job := s.jobs.filter (fun j => decide (j.op = 1) && decide (j.pa = pa))

/-- Notes how a descriptor will end, unless an earlier cause stands (notes/assumptions/40.md). -/
def Job.fail (j : Job) (status detail info : Nat) : Job :=
  if j.bad.isSome then j else { j with bad := some (status, detail, info) }

/-- It also starts no further element. -/
def Job.stop (j : Job) (status detail info : Nat) : Job := { j.fail status detail info with stopped := true }

/-- A write enters the write digest of a sampled descriptor or an echo: an 8-byte location and the bytes (R392). -/
def Job.note (j : Job) (loc : Nat) (b : Bytes) : Job :=
  if j.sampled || j.echo then { j with wlog := j.wlog ++ natLe 8 loc ++ b } else j

/-- The check of R208 that a write of `n` bytes at `addr` would fail, without recording it: an echo's write is checked as the descriptor's is. -/
def State.failCode (s : State) (j : Job) (addr n : Nat) : Option Nat :=
  (pagesOf addr n).findSome? (fun v => s.accessCode (s.pmLookup (dieOf j.g) v).1 (max addr (v * 65536)) j.p true false)

/-- A write by `unit` for descriptor `j`: an echo diverts it (R391), and it enters the write digest. Answers the failed check, if one. -/
def State.jobWrite (s : State) (j : Job) (unit addr : Nat) (b : Bytes) : Option Nat × State × Job :=
  if j.echo then
    match s.failCode j addr b.length with
    | some c => (some c, s, j)
    | none => (none, s, { j.note addr b with divert := b.zipIdx.foldl (fun d x => aset d (addr + x.2) x.1) j.divert })
  else
    match s.devWrite (dieOf j.g) unit j.p addr b with
    | (some c, s) => (some c, s, j)
    | (none, s) => (none, s, j.note addr b)

/-- Byte at device address `a` as a unit sees it before it writes part of it. -/
def State.oldByte (s : State) (j : Job) (a : Nat) : Byte :=
  let b := s.rdByte (s.keyOf (dieOf j.g) a)
  if j.echo then (aget j.divert a).getD b else b

/-- READY, STATE and TSCALE of the tile at `addr`, or the code with which it counts as failed (R133, R157). -/
def State.tileReady (s : State) (j : Job) (addr : Nat) : HdrGot × State :=
  match s.jobRead j (0x30 + j.g) addr 64 with
  | (some c, _, _, s) => (.failed (stwCode c), s)
  | (none, _, true, s) => (.failed 5, s)
  | (none, h, false, s) =>
    let st := bits (leAt h 26 1) 0 2
    if st = 2 ∨ (st = 0 ∧ leAt h 28 1 ≠ j.gen) then (.failed (leAt h 27 1), s)
    else (.good (leAt h 4 2 + 1) (leAt h 24 2) st (leAt h 29 1), s)

/-- Checks the header of the streamed (`x`) or stationary tile of pass `q` against an extent, 0 for any (R157): how the descriptor ends, if
it ends, and the extent. -/
def State.checkTile (s : State) (j : Job) (x : Bool) (q want : Nat) : Option (Nat × Nat × Nat) × Nat × State :=
  let r := if x then s.checkX j q else s.checkY j q
  let ch := (j.passInfo q).chunk
  match r.1 with
  | .failed c => (some (4, c, ch), 0, r.2)
  | .mismatch => (some (5, 0, ch), 0, r.2)
  | .good ext _ _ _ => if want = 0 ∨ want = ext then (none, ext, r.2) else (some (5, 0, ch), ext, r.2)

/-- Checks every tile of the chunk that pass `q` begins, against extents `m` and `n`. -/
def State.checkChunk (s : State) (j : Job) (q m n : Nat) : Option (Nat × Nat × Nat) × Nat × Nat × State :=
  (if j.complex then [q, q + j.words] else [q]).foldl (fun (a : Option (Nat × Nat × Nat) × Nat × Nat × State) r =>
    match a with
    | (some e, m, n, s) => (some e, m, n, s)
    | (none, m, n, s) =>
      match s.checkTile j true r m with
      | (some e, _, s) => (some e, m, n, s)
      | (none, m, s) =>
        match s.checkTile j false r n with
        | (some e, _, s) => (some e, m, n, s)
        | (none, n, s) => (none, m, n, s)) (none, m, n, s)

/-- An uncorrected error that reaches a feed port or the drain of array group `g`: a level 1 memory-class fault (R37, R101, R137). -/
def State.feedFault (s : State) (g p source : Nat) : State :=
  s.raise { cls := 0, level := 1, master := 0x30 + g, access := 1, part := p, source := source }

/-! ### Shadow loads (R35 to R37, R497) -/

/-- The descriptor and pass whose stationary tile loads next: the running descriptor's next pass, then the staged one's first (R152). -/
def State.loadTarget (s : State) (pa : Nat) : Option (Job × Nat) :=
  match s.paJobs pa with
  | [] => none
  | j :: rest =>
    let next := if j.slot = 0 then j.pass else j.pass + 1
    if !j.stopped && decide (next < j.passes) then some (j, next)
    else (rest.find? (fun k => !k.stopped)).map (fun k => (k, 0))

/-- Bytes of shadow row `r`: its cells, and with the first row of a group its block scales. -/
def Job.rowBytes (j : Job) (r : Nat) : Nat :=
  ceilDiv (256 * planeBits j.yFmt j.yf) 8 + (if j.yKind = 2 ∧ r % 32 = 0 then 256 else 0)

/-- Whether a row of `n` bytes can be loaded by cycle `cyc`, when the row before it was written in cycle `at_`: the port gives the load what
the streamed lanes leave of 200 bytes per cycle, at most 128 (R31; notes/assumptions/75.md). -/
def PaSt.rowFits (ps : PaSt) (at_ cyc n : Nat) : Bool :=
  if ps.active.isSome ∧ cyc < ps.lastStart + ps.period then
    decide (at_ < cyc) && decide (n * ps.period ≤ (cyc - at_) * min (128 * ps.period) (200 * ps.period - ps.bytes))
  else decide (at_ < cyc) && decide (n ≤ (cyc - at_) * 128)

/-- The next shadow row of pass `q` of descriptor `j` is written in cycle `cyc`. -/
def State.loadRow (s : State) (pa cyc : Nat) (j : Job) (q : Nat) : State :=
  let ps := s.pa pa
  let fresh : TileSt := { job := j.id, pass := q, rows := [], scales := [] }
  let tile := match ps.shadow with
    | some t => if t.job = j.id ∧ t.pass = q then t else fresh
    | none => fresh
  let r := tile.rows.length
  if 256 ≤ r ∨ s.rd F.CLK_AG_STATE (pa / 17) ≠ 0 ∨ (ps.active.isSome ∧ cyc < ps.swapAt + r + 256)
      ∨ (0 < r ∧ !ps.rowFits tile.wroteAt cyc (j.rowBytes r)) then s
  else
    match (if r = 0 ∧ q % j.perChunk = 0 then s.checkChunk j q j.m j.n else (none, j.m, j.n, s)) with
    | (some e, _, _, s) => s.putJob (j.stop e.1 e.2.1 e.2.2)
    | (none, _, _, s) =>
      match s.tileReady j (j.yTile q) with
      | (.failed c, s) => s.putJob (j.stop 4 c (j.passInfo q).chunk)
      | (.mismatch, s) => s
      | (.good _ ready _ tsc, s) =>
        if ready ≤ r then s
        else
          match s.readRow j q r tsc tile.scales with
          | (row, sc, none, s) =>
            let t : TileSt := { tile with rows := tile.rows ++ [row], scales := tile.scales ++ sc.toList, wroteAt := cyc }
            (s.setPa pa { s.pa pa with shadow := some t }).wrB F.SPR_STATUS_SHADOW_READY (r = 255) pa
          | (_, _, some 0, s) =>
            let s := (s.wr F.SPR_STATUS_SHADOW_POISON 1 pa).wr F.SPR_STATUS_SHADOW_READY 0 pa
            (s.feedFault j.g j.p (0x50 + dieOf j.g)).putJob (j.stop 6 0 q)
          | (_, _, some c, s) => (s.wr F.SPR_STATUS_SHADOW_READY 0 pa).putJob (j.stop 4 (stwCode c) (j.passInfo q).chunk)

/-- SHADOW_ROW_LOAD (R35): the sequencer writes the next row of the shadow registers once the SWAP element has passed it and READY covers
it. -/
def execShadowRowLoad (t pa cyc : Nat) (s : State) : Out :=
  let s := s.tick t
  inst (pa < 272)
    (match s.loadTarget pa with
     | none => s
     | some jq => s.loadRow pa cyc jq.1 jq.2)

/-! ### Element starts (R31 to R36, R109, R141, R290) -/

/-- Cycles from the start of an element of pass `q` to the next start on its lane (R26, R28, R31, R109). -/
def Job.gap (j : Job) (q : Nat) : Nat :=
  let b := if j.strict then 16 * j.w else j.period
  if j.rowOp ≠ 0 ∧ q + 1 = j.passes then max b (2 * j.period) else b

/-- The first cycle in which an array may start its next element: after the spacing of the element started last, doubled by the fast limiter
(R290; notes/assumptions/73.md). -/
def State.mayStart (s : State) (pa : Nat) : Nat :=
  let ps := s.pa pa
  if ps.active.isSome then ps.lastStart + (if s.on F.PWR_STATUS_FAST_LIMIT then max ps.gap (2 * ps.period) else ps.gap) else 0

/-- The column results, chains and checksum sums of a slot that starts in cycle `cyc` (R73 to R83, R89, R386). -/
def Job.slotFl (j : Job) (slot cyc : Nat) (xs : List Val) (xsc : List Nat) (t : TileSt) : SlotFl :=
  let pp : Int := wordP j.xFmt j.xf + wordP j.yFmt j.yf
  let wide := decide (j.accum = 1)
  let chains := if j.strict then strictChains wide j.shape xs xsc t else []
  let phys := if j.strict then chains.map (fun l => ColRes.ofNum (chainFrom wide (Val.zero false) l))
    else physResults j.shape xs xsc t pp
  let e := slotE j.shape xs xsc t
  { job := j.id, pass := t.pass, slot := slot, start := cyc, w := j.w, phys := phys, chains := chains, em := e.dy.1, ee := e.dy.2,
    special := decide (e.cls = .nan) || decide (e.cls = .inf),
    tops := if j.strict then strictTops j.shape xs xsc t pp else fastTops phys,
    cmin := if j.accum = 2 then scaleMins j.shape xs xsc t else [], judged := false }

/-- The next slot of tile `t` starts: it takes a credit, its SWAP element activates the tile, and its operand reads are judged (R34, R36, R137,
R497). -/
def State.launch (s : State) (pa cyc : Nat) (j : Job) (t : TileSt) (swap : Bool) (tscale : Nat) : State :=
  let slot := if swap then 0 else j.slot
  match s.readSlot j t.pass slot j.m tscale with
  | (xs, xsc, errs, s) =>
    let f := j.slotFl slot cyc xs xsc t
    let j := errs.foldl (fun (j : Job) e =>
      if e.2 = 0 then j.fail 7 0 t.pass else j.fail 4 (stwCode e.2) (j.passInfo t.pass).chunk) j
    let s := if errs.any (fun e => e.2 = 0) then s.feedFault j.g j.p (0x30 + j.g) else s
    let ps := s.pa pa
    let checks := if swap then ps.checks ++ [⟨j.id, t.pass, t, cyc, 0, List.replicate 256 (0, 0, false, -4096)⟩]
      else ps.checks.map (fun (c : PassChk) => if c.job = j.id ∧ c.pass = t.pass then { c with lastStart := cyc } else c)
    let s' := if swap then
        ((((s.wr F.SPR_STATUS_SHADOW_READY 0 pa).wr F.SPR_STATUS_PASS_ACTIVE 1 pa).wr F.SPR_STATUS_W j.w pa).wr F.SPR_STATUS_SHAPE
          j.shape pa).wrB F.SPR_STATUS_STRICT j.strict pa
      else s.inc F.SPR_SLOTS_BUBBLE_CYCLES pa 0 (cyc - (ps.lastStart + j.w))
    let s' := s'.setPa pa { ps with
      active := some t, shadow := if swap then none else ps.shadow, slots := ps.slots ++ [f],
      swapAt := if swap then cyc else ps.swapAt, lastStart := cyc, checks := checks, gap := j.gap t.pass, period := j.period,
      bytes := slotBytes j.shape (planeBits j.xFmt j.xf) j.xKind }
    let s' := ((s'.wr F.SPR_CREDIT_FREE (s'.rd F.SPR_CREDIT_FREE pa - 1) pa).wr F.SPR_CREDIT_IN_FLIGHT
      (s'.rd F.SPR_CREDIT_IN_FLIGHT pa + 1) pa).inc F.SPR_SLOTS_VALID_SLOTS pa
    s'.putJob (if slot + 1 = j.m then { j with pass := t.pass + 1, slot := 0 } else { j with slot := slot + 1 })

/-- The tile under which the running descriptor's next element runs, and whether that element is a SWAP (R36). -/
def State.nextTile (s : State) (pa : Nat) (j : Job) : Option (TileSt × Bool) :=
  let ps := s.pa pa
  if j.slot = 0 then
    match ps.shadow with
    | some t => if t.job = j.id ∧ t.pass = j.pass ∧ j.pass < j.passes ∧ s.on F.SPR_STATUS_SHADOW_READY pa then some (t, true) else none
    | none => none
  else
    match ps.active with
    | some t => if t.job = j.id ∧ t.pass = j.pass then some (t, false) else none
    | none => none

/-- ELEMENT_START (R33, R34, R36, R141): the sequencer starts the running descriptor's next element once its slot is present, a credit is free,
its spacing has passed, and for the last slot of a pass the column sums are there. -/
def execElementStart (t pa cyc : Nat) (s : State) : Out :=
  let s := s.tick t
  inst (pa < 272)
    (match (s.paJobs pa).head? with
     | none => s
     | some j =>
       match s.nextTile pa j with
       | none => s
       | some (tile, swap) =>
         if j.stopped ∨ s.rd F.CLK_AG_STATE (pa / 17) ≠ 0 ∨ s.rd F.SPR_CREDIT_FREE pa = 0 ∨ cyc < s.mayStart pa then s
         else
           match s.tileReady j (j.xTile tile.pass) with
           | (.failed c, s) => s.putJob (j.stop 4 c (j.passInfo tile.pass).chunk)
           | (.mismatch, s) => s
           | (.good _ ready st tsc, s) =>
             if ready ≤ j.slot ∨ (j.slot + 1 = j.m ∧ st ≠ 1) then s else s.launch pa cyc j tile swap tsc)

/-- Whether two records are of the same element slot. -/
def SlotFl.same (a b : SlotFl) : Bool := decide (a.job = b.job) && decide (a.pass = b.pass) && decide (a.slot = b.slot)

/-- The array after a change to a slot in flight: a slot that has been drained and judged leaves the record. -/
def PaSt.putSlot (ps : PaSt) (f : SlotFl) : PaSt :=
  { ps with slots := (ps.slots.map (fun x => if x.same f then f else x)).filter (fun x => !(x.drained && x.judged)) }

/-- FEED_READ_RETURN (R137, R497): a read for an element already started that returns an uncorrected error or fails a check delivers the element
as NaN; the descriptor ends POISONED or TILE_FAILED. -/
def execFeedReadReturn (t pa n k : Nat) (outcome : FeedOutcome) (s : State) : Out :=
  let s := s.tick t
  let ps := s.pa pa
  inst (pa < 272 ∧ k < 1024)
    (match ps.slots[n]?, outcome with
     | none, _ => s
     | _, .data => s
     | some f, o =>
       match s.job f.job with
       | none => s
       | some j =>
         if f.judged ∨ f.drained ∨ shapeK j.shape ≤ k then s
         else
           let s := s.setPa pa (ps.putSlot (f.spoil j.shape k))
           match o with
           | .failed c =>
             (s.accessFault c (dieOf j.g) (0x30 + j.g) j.p (j.elemAddr f.pass f.slot k) false).putJob
               (j.fail 4 (stwCode c) (j.passInfo f.pass).chunk)
           | _ => (s.feedFault j.g j.p (0x30 + j.g)).putJob (j.fail 7 0 f.pass))

/-! ### Verdicts (R38, R386 to R389) -/

/-- Cycle in which the last physical column result of a slot started in cycle `start` leaves the foot (R26, R27). -/
def Job.footAt (j : Job) (start : Nat) : Nat := start + j.w + (if j.strict then 4098 else 258) + (segCols j.shape - 1)

/-- Whether the checks of the descriptor tolerate no difference: fast mode and both operands window-exact. -/
def Job.exactPair (j : Job) : Bool :=
  decide (planesOf j.xFmt = 1) && decide (planesOf j.yFmt = 1) && j.xf.exact && j.yf.exact

/-- p of the strict tolerances. -/
def Job.accP (j : Job) : Int := if j.accum = 1 then 53 else 24

/-- Adds the results of a slot to the sums of its pass, by physical column. -/
def PassChk.add (c : PassChk) (f : SlotFl) : PassChk :=
  { c with
    judged := c.judged + 1,
    sums := c.sums.mapIdx (fun col (x : Int × Int × Bool × Int) =>
      ([col, col + 256].filter (fun i => i < f.phys.length)).foldl (fun (x : Int × Int × Bool × Int) i =>
        let r := f.phys.getD i ColRes.start
        let d := dyAdd (x.1, x.2.1) r.value.dy
        (d.1, d.2, x.2.2.1 || r.special, max x.2.2.2 (f.tops.getD i (-4096)))) x) }

/-- Whether the sum of a slot's results, changed by um * 2^ue, differs from E of the checksum column by more than the tolerance (R386 to R388). -/
def Job.columnFails (j : Job) (f : SlotFl) (um ue : Int) : Bool :=
  let sum := f.phys.foldl (fun a r => dyAdd a r.value.dy) (um, ue)
  let a := (f.tops.max?).getD (-4096)
  if j.strict then differsBy f.em f.ee sum.1 sum.2 1 (a + 26 - j.accP)
  else differsBy f.em f.ee sum.1 sum.2 (if j.exactPair then 0 else 1) (a - 74)

/-- CHECKSUM_COLUMN_VERDICT (R38, R386 to R388). -/
def execChecksumColumnVerdict (t pa cyc : Nat) (um ue : Int) (s : State) : Out :=
  let s := s.tick t
  let ps := s.pa pa
  inst (pa < 272)
    (match ps.slots.find? (fun f => !f.judged) with
     | none => s
     | some f =>
       match s.job f.job with
       | none => s
       | some j =>
         if cyc < j.footAt f.start + 4 then s
         else
           let pass := ps.checks.findIdx (fun c => decide (c.job = f.job) && decide (c.pass = f.pass))
           let ps := { ps.putSlot { f with judged := true } with
             checks := ps.checks.map (fun c => if c.job = f.job ∧ c.pass = f.pass then c.add f else c) }
           let s := s.setPa pa ps
           if f.special || f.phys.any ColRes.special then s.inc F.GAL_CNT_SKIPPED_SPECIAL j.p
           else
             if j.columnFails f um ue then (s.checksumFail 0 j.p pa pass f.slot 0 j.step).putJob { j with chk := true } else s)

/-- A column sum record as a value, with the weight exponent of its lowest bit if it is floored (R139, R140). -/
def sumRecord (b : Bytes) : Val × Option Int :=
  let fl := leAt b 42 1
  let e0 := signed (leAt b 40 2) 16
  (if fl.testBit 0 ∨ (fl.testBit 1 ∧ fl.testBit 2) then Val.nan
   else if fl.testBit 1 then Val.inf false
   else if fl.testBit 2 then Val.inf true
   else Val.ofInt (signed (leAt b 0 40) 320) e0,
   if fl.testBit 3 then some e0 else none)

/-- The column sums of pass `q` by reduction index. A record that cannot be read counts as NaN (notes/assumptions/41.md). -/
def State.passSums (s : State) (j : Job) (q : Nat) : List (Val × Option Int) × State :=
  let ge := streamGeom j.shape j.xFmt j.xf j.xKind j.m
  let base := j.xTile q + 64 + (j.passInfo q).ix * ge.plane + ge.sumOff
  (List.range (shapeK j.shape)).foldl (fun (a : List (Val × Option Int) × State) k =>
    match a.2.jobRead j (0x30 + j.g) (base + 48 * k) 48 with
    | (none, b, false, s) => (a.1 ++ [sumRecord b], s)
    | (_, _, _, s) => (a.1 ++ [(Val.nan, none)], s)) ([], s)

/-- Scaled stationary value at physical row `r` and column `c` of a tile. -/
def TileSt.at_ (t : TileSt) (r c : Nat) : Val :=
  ((t.rows.getD r []).getD c (Val.zero false)).scaled ((t.scales.getD (r / 32) []).getD c 127)

/-- E of the checksum row for physical column `c` (R386). -/
def rowCheckE (sh : Nat) (t : TileSt) (sums : List (Val × Option Int)) (c : Nat) : Val :=
  (List.range 256).foldl (fun (a : Val) r =>
    a.add ((sums.getD (kAt sh r c) (Val.zero false, none)).1.mul (t.at_ r c))) (Val.zero true)

/-- What floored records add to the tolerance of physical column `c`, as mantissa and exponent (R386). -/
def rowCheckSlack (sh : Nat) (t : TileSt) (sums : List (Val × Option Int)) (c : Nat) : Int × Int :=
  (List.range (if sh = 3 then 128 else 256)).foldl (fun (a : Int × Int) r =>
    match (sums.getD (kAt sh r c) (Val.zero false, none)).2 with
    | none => a
    | some e0 =>
      match (((if sh = 3 then [r, r + 128] else [r]).map (fun q => t.at_ q c)).filter Val.enters |>.map Val.top).max? with
      | some top => dyAdd a (1, e0 + 12 + top)
      | none => a) (0, 0)

/-- Judges physical column `c` of a pass: none where the check is not made, or whether it fails. -/
def Job.judgeColumn (j : Job) (k : PassChk) (sums : List (Val × Option Int)) (c : Nat) (up : Int × Int) : Option Bool :=
  let x := k.sums.getD c (0, 0, false, -4096)
  let e := rowCheckE j.shape k.tile sums c
  if x.2.2.1 ∨ e.cls = .nan ∨ e.cls = .inf then none
  else
    let sum := dyAdd (x.1, x.2.1) up
    let tol : Int × Int := if j.strict then (1, x.2.2.2 + 28 - j.accP)
      else if j.exactPair then (0, 0) else dyAdd (rowCheckSlack j.shape k.tile sums c) (1, x.2.2.2 - 72)
    some (differsBy e.dy.1 e.dy.2 sum.1 sum.2 tol.1.natAbs tol.2)

/-- The array has no pass left: PASS_ACTIVE and W return to 0. -/
def State.passEnd (s : State) (pa : Nat) : State :=
  let ps := s.pa pa
  if ps.checks.isEmpty then ((s.wr F.SPR_STATUS_PASS_ACTIVE 0 pa).wr F.SPR_STATUS_W 0 pa).setPa pa { ps with active := none } else s

/-- CHECKSUM_ROW_VERDICT (R38, R386 to R388): the oldest pass whose slots have all been judged is checked column by column and reported
complete. -/
def execChecksumRowVerdict (t pa cyc : Nat) (upsets : List (Nat × Int × Int)) (s : State) : Out :=
  let s := s.tick t
  inst (pa < 272)
    (match (s.pa pa).checks.head? with
     | none => s
     | some k =>
       match s.job k.job with
       | none => s
       | some j =>
         if k.judged < j.m ∨ cyc < j.footAt k.lastStart + 48 then s
         else
           let r := s.passSums j k.pass
           let s := (List.range 256).foldl (fun (s : State) c =>
             let up := (upsets.find? (fun u => u.1 = c)).elim (0, 0) (fun u => u.2)
             match j.judgeColumn k r.1 c up with
             | none => s.inc F.GAL_CNT_SKIPPED_SPECIAL j.p
             | some false => s
             | some true =>
               let s := s.checksumFail 1 j.p pa 0 0 c j.step
               match s.job k.job with
               | some x => s.putJob { x with chk := true }
               | none => s) r.2
           let s := (s.setPa pa { s.pa pa with checks := (s.pa pa).checks.drop 1 }).inc F.SPR_PASS_CNT_PASSES pa
           let s := match s.job k.job with
             | some x => s.putJob { x with done := x.done + 1 }
             | none => s
           s.passEnd pa)

/-- Drain credits return: `n` slots of physical array `pa` have been written, or their descriptor has left (R34). -/
def State.giveCredits (s : State) (pa n : Nat) : State :=
  (s.wr F.SPR_CREDIT_FREE (s.rd F.SPR_CREDIT_FREE pa + n) pa).wr F.SPR_CREDIT_IN_FLIGHT (s.rd F.SPR_CREDIT_IN_FLIGHT pa - n) pa

/-- A descriptor leaves its physical array: its unfinished passes are reported by no verdict, a tile it loaded is discarded, and the credits
of rows still held for a block along m return (R112). -/
def State.leaveArray (s : State) (j : Job) : State :=
  let ps := s.pa j.pa
  let drop := ps.shadow.any (fun t => t.job = j.id)
  let s := if drop then s.wr F.SPR_STATUS_SHADOW_READY 0 j.pa else s
  let s := s.giveCredits j.pa ((ps.slots.filter (fun f => decide (f.job = j.id) && !f.drained)).length + j.held.length)
  let s := s.setPa j.pa { ps with
    shadow := if drop then none else ps.shadow,
    slots := ps.slots.filter (fun f => f.job ≠ j.id),
    checks := ps.checks.filter (fun c => c.job ≠ j.id) }
  s.passEnd j.pa

end Sys2Proof.Machine
end

