-- ==== Sys2Proof/Machine/Lantern.lean ====
section
/-!
DEFINITION. Sys2Proof/Machine/Lantern.lean: lantern ports of the Ndor fabric: light and training, frames, retry, credits, census and
reconciliation, silence (spec/15).
-/

namespace Sys2Proof.Machine

/-! ### Ports and packets -/

def State.port (s : State) (i : Nat) : FPort := agetD s.fab.ports i {}

def State.setPort (s : State) (i : Nat) (x : FPort) : State := { s with fab := { s.fab with ports := aset s.fab.ports i x } }

/-- FAB_PORT_i.STATE (*Port states*). -/
def State.pstate (s : State) (i : Nat) : Nat := s.rd F.FAB_PORT_STATE i

/-- Ports in UP. -/
def State.upPorts (s : State) : List Nat := below 32 (fun i => decide (s.pstate i = 2))

/-- Receive slots of a virtual channel (*Virtual channels*). -/
def vcSlots (v : Nat) : Nat := if v % 2 = 0 then 960 else 64

/-- Adds `n` at place `k` of a list of counts. -/
def bump (l : List Nat) (k n : Nat) : List Nat := l.mapIdx (fun i x => if i = k then x + n else x)

/-- Takes `n` away at place `k`. -/
def dent (l : List Nat) (k n : Nat) : List Nat := l.mapIdx (fun i x => if i = k then x - n else x)

/-- Adaptive virtual channel of an operation; its escape channel is the next (*Packet operations*). -/
def opVc (op : Nat) : Nat := 2 * (op - 1)

/-- Data bytes of a packet: a beat in binary32, binary64 or exact form counts as its elements. -/
def pktLen (k : Pkt) : Nat :=
  match k.beat with
  | some b => b.vals.length * (if b.hdr.cls = 2 then 16 else if b.hdr.wide then 8 else 4)
  | none => k.data.length

/-- Flits of a packet: 256 bytes each, at least one. -/
def pktFlits (k : Pkt) : Nat := max 1 (ceilDiv (pktLen k) 256)

/-- This device's address. -/
def State.fabAddr (s : State) : Nat := s.rd F.FAB_ADDR_ADDRESS

/-- A new number for the packets of a local command. -/
def State.newTag (s : State) : Nat × State := (s.fab.tagCtr + 1, { s with fab := { s.fab with tagCtr := s.fab.tagCtr + 1 } })

/-- Hands a packet of this device to the router, with 64 hops (R329, R349). -/
def State.sendPkt (s : State) (tag srcEp dst dstEp op arg gen : Nat) (ordered : Bool) (data : Bytes) (beat : Option Beat := none) : State :=
  let k : Pkt := { src := s.fabAddr, srcEp := srcEp, dst := dst, dstEp := dstEp, op := op, arg := arg, gen := gen, hops := 64, detours := 0,
                   ordered := ordered, data := data, beat := beat }
  { s with fab := { s.fab with heads := s.fab.heads ++ [{ pkt := k, since := s.now, tag := tag }] } }

/-- Whether packets with number `tag` have not all left the device. -/
def State.tagBusy (s : State) (tag : Nat) : Bool :=
  s.fab.heads.any (fun h => h.tag = tag) || s.fab.ports.any (fun e => e.2.dataQ.any (fun q => q.tag = tag))

/-- A LINK message is queued at a port. -/
def State.link (s : State) (i : Nat) (m : LinkMsg) : State :=
  s.setPort i { s.port i with linkQ := (s.port i).linkQ ++ [m] }

/-- Receive slots are freed and their credits wait to be returned (R331). -/
def State.freeSlots (s : State) (from_ : Option (Nat × Nat)) (n : Nat) : State :=
  match from_ with
  | none => s
  | some (i, v) => s.setPort i { s.port i with occ := dent (s.port i).occ v n, retDue := bump (s.port i).retDue v n }

/-- The beat of a remote export has left a lantern port, or its packet is lost: it no longer holds its descriptor (R116, R153). -/
def State.beatGone (s : State) (k : Pkt) : State :=
  match k.beat with
  | none => s
  | some b => if k.src = s.fabAddr then { s with outBeats := s.outBeats.erase (k.dst, b) } else s

/-! ### Routes (R348, R355) -/

/-- Candidate `k` of destination `d` (0 primary, 1 to 3 alternates): its port, if it is valid. -/
def State.candPort (s : State) (d k : Nat) : Option Nat :=
  let v := s.rd ([F.FAB_ROUTE_PRIMARY, F.FAB_ROUTE_ALT1, F.FAB_ROUTE_ALT2, F.FAB_ROUTE_ALT3].getD k F.FAB_ROUTE_PRIMARY) d
  if v.testBit 5 ∧ s.on F.FAB_ROUTE_VALID d then some (v % 32) else none

/-- Whether candidate `k` of `d` is live for a packet on virtual channel `vc` (R348, R355). -/
def State.live (s : State) (d k vc : Nat) : Option Nat :=
  match s.candPort d k with
  | none => none
  | some i =>
    let iso := s.on F.FAB_PORT_NBR_ISOLATE i
    if s.pstate i = 2 ∧ !(s.rd F.FAB_ROUTE_WD d).testBit k ∧ (!iso ∨ (s.rd F.FAB_PORT_NBR_ADDR i = d ∧ 4 ≤ vc)) then some i else none

/-- Whether candidate `k` of `d` lies on a shortest path. -/
def State.minimal (s : State) (d k : Nat) : Bool := decide (k = 0) || (s.rd F.FAB_ROUTE_MIN d).testBit (k - 1)

/-- Whether candidate `k` of `d` leads through a port in RETRAIN: its routes are kept and traffic waits (*Port states*). -/
def State.kept (s : State) (d k : Nat) : Bool :=
  (s.candPort d k).any (fun i => decide (s.pstate i = 3)) && !(s.rd F.FAB_ROUTE_WD d).testBit k

/-- Whether any candidate of `d` is live, or kept through a retrain. -/
def State.reachable (s : State) (d : Nat) : Bool := (List.range 4).any (fun k => (s.live d k 4).isSome || s.kept d k)

/-- Destinations the route table lists. -/
def State.routed (s : State) : List Nat :=
  (s.regs.foldl (fun (l : List Nat) e =>
    if e.1.reg = .FAB_ROUTE ∧ e.1.lsb = 63 then e.1.i :: l else l) []).reverse

/-- WITHDRAW for each destination that has just lost its last live candidate, ANNOUNCE for each that is reachable again, on every UP port,
up to 120 addresses in a frame (R350). -/
def chunks120 (fuel : Nat) (l : List Nat) : List (List Nat) :=
  match fuel with
  | 0 => []
  | n + 1 => if l.isEmpty then [] else l.take 120 :: chunks120 n (l.drop 120)

def State.reachCheck (s : State) : State :=
  let all := s.routed.filter (fun d => decide (d ≠ s.fabAddr))
  let lost := all.filter (fun d => !s.reachable d && !s.fab.gone.contains d)
  let back := s.fab.gone.filter (fun d => s.reachable d)
  let s := { s with fab := { s.fab with gone := s.fab.gone.filter (fun d => !back.contains d) ++ lost } }
  let send := fun (s : State) (m : LinkMsg) => s.upPorts.foldl (fun s i => s.link i m) s
  let s := (chunks120 (lost.length + 1) lost).foldl (fun s l => send s (.withdraw l)) s
  (chunks120 (back.length + 1) back).foldl (fun s l => send s (.announce l)) s

/-! ### Leaving UP (R327, R333 to R335, R360) -/

/-- The packets of a port that are lost when it falls silent or goes down (R335). -/
def State.dropPackets (s : State) (i : Nat) : State :=
  let x := s.port i
  let tails := x.replay.filterMap (fun f => match f.body with
    | .data _ _ true k => some k
    | _ => none)
  let s := s.inc F.FAB_LINK_DROPPED i 0 (tails.length + x.dataQ.length)
  let s := x.dataQ.foldl (fun (s : State) q => (s.freeSlots q.from_ (pktFlits q.pkt - q.sent)).beatGone q.pkt) s
  let x := s.port i
  let occ := x.partIn.foldl (fun o e => dent o e.1 e.2) x.occ
  s.setPort i { x with replay := [], resend := [], dataQ := [], linkQ := [], partIn := [], occ := occ, paused := false, answering := false, trying := false }

/-- A port leaves UP: its state and reason, its packets, the routes through it, and the votes whose result it carries (R360). -/
def State.leaveUp (s : State) (i st reason : Nat) : State :=
  let wasUp := s.pstate i = 2
  let s := (s.wr F.FAB_PORT_STATE st i).wr F.FAB_PORT_REASON reason i
  let s := s.dropPackets i
  let s := s.setPort i { s.port i with since := s.now, tryAt := s.now }
  let s := if wasUp then s.parentLost i else s
  s.reachCheck

/-- A port enters RETRAIN; a third retrain within 1 s takes it to DOWN (R333). -/
def State.enterRetrain (s : State) (i : Nat) : State :=
  let x := s.port i
  let recent := x.retrains.filter (fun a => s.now < a + 1000000000)
  let wasUp := s.pstate i = 2
  let s := s.inc F.FAB_LINK_RETRAINS i
  if 2 ≤ recent.length then (s.setPort i { x with retrains := [] }).leaveUp i 6 2
  else
    let s := (s.setPort i { x with retrains := s.now :: recent, since := s.now, resend := [] }).wr F.FAB_PORT_STATE 3 i
    if wasUp then s.parentLost i else s

/-- Whether a port is to stand in ISOLATE (R354). -/
def State.isolated (s : State) (i : Nat) : Bool := s.safe || s.on F.FAB_ISOLATE_DEVICE || (s.rd F.FAB_ISOLATE_PORTS).testBit i

/-- FREE_v = SLOTS_v - O_v of a receiver (R339). -/
def FPort.free (x : FPort) : List Nat := x.occ.mapIdx (fun v o => vcSlots v - o)

/-- The port has told its partner FREE_v: the credits not yet returned are part of it. -/
def FPort.told (x : FPort) : FPort := { x with retDue := [0, 0, 0, 0, 0, 0, 0, 0], retLog := [] }

/-- A port stops its DATA frames and reconciles (R339, R340): a RECONCILE waits until the replay buffer is empty, and takes FREE_v as it is sent. -/
def State.sendReconcile (s : State) (i : Nat) : State :=
  (s.setPort i { s.port i with paused := true }).link i (.reconcile [])

/-! ### Training (R328, R333, R340, R343) -/

/-- The device's own claim. -/
def State.ownClaim (s : State) : ClaimMsg :=
  { addr := s.fab.proposal.getD s.fabAddr, digest := s.idDigest, seq := s.fab.claimSeq, admitted := s.on F.FAB_ADDR_ADMITTED, hops := 0,
    legal := true, down := true }

/-- TRAINING_COMPLETE (R328, R333, R334, R340): with 8 or more wavelengths the port enters UP, or ISOLATE, with fresh sequence numbers, and the
RECONCILE in both directions that ends the training gives it the partner's FREE_v as credits; with fewer wavelengths it goes DOWN with reason
LANES. A silent port needs a HELLO too, a DOWN port its attempt. -/
def execTrainingComplete (t port lanes : Nat) (free : List Nat) (s : State) : Out :=
  let s := s.tick t
  let x := s.port port
  let st := s.pstate port
  inst (port < 32)
    (if !(st = 1 ∨ (st = 4 ∧ x.since ≤ x.heardAt) ∨ (st = 6 ∧ x.trying ∧ s.now < x.tryAt + 100000000)) ∨ s.rd F.FAB_PORT_ROLE port ≠ 1 then s
     else
       let mask := below 16 (fun w => lanes.testBit w && x.lanesOk.testBit w)
       let s := s.wr F.FAB_PORT_LANE_MASK ((mask.map (fun w => 2 ^ w)).sum) port
       if mask.length < 8 then s.leaveUp port 6 4
       else
         let y : FPort := { lastRx := s.now, ackAt := s.now, since := s.now, tryAt := x.tryAt, heardAt := x.heardAt, nbr := x.nbr,
                            lanesOk := x.lanesOk, retrains := x.retrains, fwOld := x.fwOld, occ := x.occ, delayPs := x.delayPs,
                            credits := (List.range 8).map (fun v => free.getD v 0),
                            rxTrain := signed (s.rd F.FAB_OPT_RX_MIN port) 16, lightTrain := signed (s.rd F.FAB_OPT_LIGHT_IN port) 16 }
         let s := (s.setPort port y).wr F.FAB_PORT_STATE (if s.isolated port then 5 else 2) port
         let s := if s.fab.proposal.isSome || s.on F.FAB_ADDR_VALID then s.link port (.claim s.ownClaim) else s
         s.reachCheck)

/-- RETRAIN_COMPLETE (R333, R340): the port reconciles and replays from ACK + 1, or goes DOWN. -/
def execRetrainComplete (t port : Nat) (ok : Bool) (lanes : Nat) (free : List Nat) (s : State) : Out :=
  let s := s.tick t
  let x := s.port port
  inst (port < 32)
    (if s.pstate port ≠ 3 then s
     else if !ok ∨ x.since + 100000 < s.now then s.leaveUp port 6 2
     else
       let mask := below 16 (fun w => lanes.testBit w && x.lanesOk.testBit w)
       let s := s.wr F.FAB_PORT_LANE_MASK ((mask.map (fun w => 2 ^ w)).sum) port
       if mask.length < 8 then s.leaveUp port 6 4
       else
         let s := s.setPort port { x with credits := (List.range 8).map (fun v => free.getD v 0), resend := x.replay, lastRx := s.now,
                                          ackAt := s.now, since := s.now, replayRun := 0, paused := false, answering := false }
         ((s.setPort port (s.port port).told).wr F.FAB_PORT_STATE (if s.isolated port then 5 else 2) port).reachCheck)

/-- DOWN_TRAINING_ATTEMPT (R332): a DOWN port tries to train every 100 ms. -/
def execDownTrainingAttempt (t port : Nat) (s : State) : Out :=
  let s := s.tick t
  let x := s.port port
  inst (port < 32)
    (if s.pstate port = 6 ∧ x.tryAt + 100000000 ≤ s.now then s.setPort port { x with tryAt := s.now, trying := true } else s)

/-- PORT_TRAINING_TIMEOUT (R346): a port not trained within 8 s on a cold start, 1 s on a warm one, goes DOWN with reason TRAIN. -/
def execPortTrainingTimeout (t port : Nat) (s : State) : Out :=
  let s := s.tick t
  let limit := if s.on F.AON_STAGE_WARM then 1000000000 else 8000000000
  inst (port < 32)
    (if s.pstate port ≠ 1 ∨ s.now < (s.port port).since + limit then s
     else
       let s := s.leaveUp port 6 3
       let ports := below 32 (fun i => decide (s.rd F.FAB_PORT_ROLE i = 1))
       if s.stage = stDome ∧ ports.all s.portFailed then s.hold 6 else s)

/-- LIGHT_LOSS (R327): the four ports of the fibre go DOWN with reason LIGHT. -/
def execLightLoss (t fibre : Nat) (s : State) : Out :=
  let s := s.tick t
  inst (fibre < 8)
    ((List.range 4).foldl (fun (s : State) k => if s.pstate (4 * fibre + k) = 0 then s else s.leaveUp (4 * fibre + k) 6 5) s)

/-- OPTICAL_POWER_SAMPLE (R328): powers in 0.1 dBm; a wavelength below -10.0 dBm is left out of the next training. -/
def execOpticalPowerSample (t port : Nat) (powers : List Int) (light : Int) (s : State) : Out :=
  let s := s.tick t
  let at_ := fun (w : Nat) => powers.getD w (-32768)
  let low := (List.range 16).foldl (fun m w => if at_ w < at_ m then w else m) 0
  let mean : Int := ((List.range 16).map at_).sum / 16
  inst (port < 32)
    (if s.rd F.FAB_PORT_ROLE port ≠ 1 then s
     else
       let s := ((s.wr F.FAB_OPT_RX_MIN (unsigned (at_ low) 16) port).wr F.FAB_OPT_RX_MIN_LANE low port).wr F.FAB_OPT_RX_AVG (unsigned mean 16) port
       let s := s.wr F.FAB_OPT_LIGHT_IN (unsigned light 16) port
       let s := s.setPort port { s.port port with lanesOk := ((below 16 (fun w => decide (-100 ≤ at_ w))).map (fun w => 2 ^ w)).sum }
       let s := s.judgeRating (200 + port / 4) (decide (180 ≤ light) && decide (light ≤ 240))
       if s.pstate port = 2 ∨ s.pstate port = 5 then
         s.judgeRating (300 + port) ((below 16 (fun w => (s.rd F.FAB_PORT_LANE_MASK port).testBit w)).all (fun w =>
           decide (-80 ≤ at_ w) && decide (at_ w ≤ 20)))
       else s)

/-! ### Sending frames (R329 to R332, R336) -/

/-- Whether a packet may leave through a port in state `st`: every one in UP, only answers of the router in ISOLATE. -/
def mayLeave (st : Nat) (k : Pkt) : Bool := decide (st = 2) || (decide (st = 5) && decide (k.op = 4) && decide (k.srcEp = 0xFE))

/-- The first queued packet whose flit can go: the first of its virtual channel, with a credit. -/
def FPort.nextData (x : FPort) (st : Nat) : Option OutPkt :=
  if x.paused then none
  else
    (List.range 8).findSome? (fun v =>
      match x.dataQ.find? (fun q => q.vc = v) with
      | some q => if mayLeave st q.pkt ∧ 0 < x.credits.getD v 0 then some q else none
      | none => none)

/-- Whether a LINK message may leave in state `st`: HELLO alone in TRAINING and SILENT, RECONCILE once the replay buffer is empty (R339). -/
def FPort.linkMay (x : FPort) (st : Nat) (m : LinkMsg) : Bool :=
  match m with
  | .hello _ => decide (st ≠ 0 ∧ st ≠ 6 ∧ st ≠ 3)
  | .reconcile _ => decide (st = 2 ∨ st = 5) && x.replay.isEmpty
  | _ => decide (st = 2 ∨ st = 5)

/-- The credit return that the next new frame carries. -/
def FPort.credit (x : FPort) : Nat × Nat :=
  if x.paused then (0, 0)
  else match (List.range 8).find? (fun v => 0 < x.retDue.getD v 0) with
    | some v => (v, min 960 (x.retDue.getD v 0))
    | none => (0, 0)

/-- KIND of a frame: IDLE, DATA with HEAD, TAIL and the virtual channel, or LINK. -/
def kindByte : FrameBody → Nat
  | .idle => 0
  | .data v head tail _ => 1 + (if head then 4 else 0) + (if tail then 8 else 0) + 16 * v
  | .link _ => 2

/-- ARG of a packet: the device address of a WRITE; handle, contributor and first element of a CONTRIB. -/
def pktArg (k : Pkt) : Nat :=
  match k.beat with
  | some b => b.hdr.handle % 4096 + 4096 * (b.hdr.index % 4096) + 2 ^ 24 * (b.first % 65536)
  | none => if k.op = 1 then k.arg else 0

/-- Bytes 8 to 27 of a control block: the packet header in a head, 0 in every other frame. -/
def headBytes : FrameBody → Bytes
  | .data _ true _ k =>
    natLe 2 k.dst ++ natLe 1 k.dstEp ++ natLe 1 k.srcEp ++ natLe 2 k.src ++ natLe 1 k.op
      ++ natLe 1 ((pktFlits k - 1) + (if k.ordered then 16 else 0) + 32 * (k.detours % 4)) ++ natLe 1 k.gen ++ natLe 1 k.hops
      ++ natLe 6 (pktArg k) ++ natLe 4 (pktLen k)
  | _ => List.replicate 20 0

/-- Bytes 0 to 27 of a frame's control block (R329). -/
def controlBytes (f : Frame) : Bytes :=
  natLe 2 f.fseq ++ natLe 2 f.ack ++ natLe 1 (kindByte f.body) ++ natLe 1 f.crVc ++ natLe 2 f.crCount ++ headBytes f.body

/-- The frame is the last one sent. -/
def FPort.onWire (x : FPort) (f : Frame) : FPort := { x with last := some f, wire := controlBytes f }

/-- A new frame of a port with body `b`; a sequenced one enters the replay buffer. -/
def State.newFrame (s : State) (i : Nat) (b : FrameBody) : State :=
  let x := s.port i
  let seqd := match b with
    | .idle => false
    | _ => true
  let q := if seqd then (x.txSeq + 1) % 65536 else x.txSeq
  let c := x.credit
  let f : Frame := { fseq := q, ack := x.rxSeq, crVc := c.1, crCount := c.2, body := b }
  s.setPort i (({ x with
    txSeq := q, replay := if seqd then x.replay ++ [f] else x.replay, ackAt := if x.replay.isEmpty then s.now else x.ackAt,
    retDue := dent x.retDue c.1 c.2, retLog := if c.2 = 0 then x.retLog else x.retLog ++ [(q, c.1, c.2)] } : FPort).onWire f)

/-- One flit of a queued packet leaves. -/
def State.sendFlit (s : State) (i : Nat) (q : OutPkt) : State :=
  let done := decide (q.sent + 1 = pktFlits q.pkt)
  let s := s.newFrame i (.data q.vc (decide (q.sent = 0)) done q.pkt)
  let x := s.port i
  let rest := if done then x.dataQ.erase q else x.dataQ.map (fun z => if z = q then { q with sent := q.sent + 1 } else z)
  let s := s.setPort i { x with credits := dent x.credits q.vc 1, dataQ := rest }
  let s := s.freeSlots q.from_ 1
  if done then s.beatGone q.pkt else s

/-- FRAME_SEND on a port (R329 to R332): a frame being replayed, else a LINK frame, else a flit with a credit, else IDLE; IDLE alone while the
replay buffer is full. -/
def execFrameSend (t port : Nat) (s : State) : Out :=
  let s := s.tick t
  let x := s.port port
  let st := s.pstate port
  inst (port < 32)
    (if st = 0 ∨ st = 3 ∨ st = 6 then s
     else
       match x.resend with
       | f :: rest => s.setPort port (({ x with resend := rest } : FPort).onWire { f with ack := x.rxSeq })
       | [] =>
         if 2048 ≤ x.replay.length then s.newFrame port .idle
         else
           match x.linkQ.find? (x.linkMay st) with
           | some m =>
             let x := { x with linkQ := x.linkQ.erase m }
             match m with
             | .census _ _ => (s.setPort port x).newFrame port (.link (.census x.credits x.rxSeq))
             | .reconcile _ =>
               (s.setPort port { x.told with paused := x.paused && !x.answering, answering := false }).newFrame port (.link (.reconcile x.free))
             | m => (s.setPort port x).newFrame port (.link m)
           | none =>
             match x.nextData st with
             | some q => s.sendFlit port q
             | none => if st = 2 ∨ st = 5 then s.newFrame port .idle else s)

/-! ### Receiving frames (R330 to R332, R354) -/

/-- An ACK acknowledges every frame up to it. -/
def FPort.acknowledge (x : FPort) (ack now : Nat) : FPort :=
  match x.replay.findIdx? (fun f => f.fseq = ack) with
  | some k =>
    let rest := x.replay.drop (k + 1)
    { x with acked := ack, replay := rest, resend := x.resend.filter (fun f => rest.contains f), ackAt := now, replayRun := 0 }
  | none => x

/-- What an accepted frame carries beside its body: ACK, and the credits it returns (R330, R331). -/
def FPort.accepted (x : FPort) (f : Frame) (now : Nat) : FPort :=
  let x := x.acknowledge f.ack now
  if x.paused then x else { x with credits := bump x.credits f.crVc f.crCount }

/-- A whole packet has arrived: it waits at the router as a head; a port in ISOLATE takes only a MGMT_REQ for endpoint FEh (R354). -/
def State.packetIn (s : State) (i v : Nat) (k : Pkt) : State :=
  if s.pstate i = 5 ∧ !(k.op = 3 ∧ k.dst = s.fabAddr ∧ k.dstEp = 0xFE) then (s.freeSlots (some (i, v)) (pktFlits k)).inc F.FAB_DROP_ISOLATED
  else { s with fab := { s.fab with heads := s.fab.heads ++ [{ pkt := k, from_ := some (i, v), since := s.now }] } }

/-- FRAME_RECEIVE (R330 to R332): a frame with a bad CRC or an FSEQ other than the one expected is discarded, all of it, with a NAK; an IDLE
frame is expected to carry the FSEQ of the last sequenced frame received (DEDUCED). A LINK frame in order takes effect as the command of its
kind. -/
def execFrameReceive (t port : Nat) (f : Frame) (crcOk : Bool) (s : State) : Out :=
  let s := s.tick t
  let st := s.pstate port
  inst (port < 32)
    (if st = 0 ∨ st = 6 then s
     else
       let x : FPort := { s.port port with lastRx := s.now }
       let want := (x.rxSeq + 1) % 65536
       if !crcOk then (((s.setPort port x).inc F.FAB_LINK_CRC_ERR port).link port (.nak want))
       else
         match f.body with
         | .idle =>
           if f.fseq = x.rxSeq then s.setPort port (x.accepted f s.now) else (s.setPort port x).link port (.nak want)
         | .link _ =>
           if f.fseq = want then s.setPort port { x.accepted f s.now with rxSeq := want } else (s.setPort port x).link port (.nak want)
         | .data v _ tail k =>
           if st = 1 ∨ st = 3 ∨ st = 4 then s.setPort port x
           else if f.fseq ≠ want then (s.setPort port x).link port (.nak want)
           else
             let got := agetD x.partIn v 0 + 1
             let x := x.accepted f s.now
             let x := { x with rxSeq := want, occ := bump x.occ v 1, partIn := if tail then adel x.partIn v else aset x.partIn v got }
             let s := s.setPort port x
             if tail then s.packetIn port v k else s)

/-- Replays every frame from `fseq` in order; 8 consecutive replays from one FSEQ enter RETRAIN (R332). -/
def State.replayFrom (s : State) (i fseq : Nat) : State :=
  let x := s.port i
  match x.replay.findIdx? (fun f => f.fseq = fseq) with
  | none => s
  | some k =>
    let run := if x.replayRun ≠ 0 ∧ x.replayFrom = fseq then x.replayRun + 1 else 1
    let s := s.inc F.FAB_LINK_REPLAYS i
    let s := s.setPort i { x with resend := x.replay.drop k, replayFrom := fseq, replayRun := run, ackAt := s.now }
    if 8 ≤ run then s.enterRetrain i else s

/-- NAK_RECEIVE (R332). -/
def execNakReceive (t port fseq : Nat) (s : State) : Out :=
  let s := s.tick t
  inst (port < 32) (if s.pstate port = 2 ∨ s.pstate port = 5 then s.replayFrom port fseq else s)

/-- REPLAY_TIMER (R332): frames unacknowledged with ACK unchanged for 1 µs. -/
def execReplayTimer (t port : Nat) (s : State) : Out :=
  let s := s.tick t
  let x := s.port port
  inst (port < 32)
    (match x.replay.head? with
     | some f => if (s.pstate port = 2 ∨ s.pstate port = 5) ∧ x.ackAt + 1000 ≤ s.now then s.replayFrom port f.fseq else s
     | none => s)

/-- SILENCE_TIMEOUT (R334, R335): no frame for 4 µs. -/
def execSilenceTimeout (t port : Nat) (s : State) : Out :=
  let s := s.tick t
  let st := s.pstate port
  inst (port < 32)
    (if (st = 2 ∨ st = 3 ∨ st = 5) ∧ (s.port port).lastRx + 4000 ≤ s.now then s.leaveUp port 4 1 else s)

/-- SILENT_EXPIRE (R334): a SILENT port that has not returned to UP within 1 s goes DOWN. -/
def execSilentExpire (t port : Nat) (s : State) : Out :=
  let s := s.tick t
  inst (port < 32)
    (if s.pstate port = 4 ∧ (s.port port).since + 1000000000 ≤ s.now then s.leaveUp port 6 (s.rd F.FAB_PORT_REASON port) else s)

/-! ### Credit census (R337 to R340) -/

/-- CENSUS_SEND (R338); the frame takes C_v and LAST_RX_FSEQ as it is sent. -/
def execCensusSend (t port : Nat) (s : State) : Out :=
  let s := s.tick t
  inst (port < 32) (if s.pstate port = 2 then s.link port (.census [] 0) else s)

/-- Whether FSEQ `a` comes after `b`. -/
def seqAfter (a b : Nat) : Bool := decide (0 < (a + 65536 - b) % 65536) && decide ((a + 65536 - b) % 65536 < 32768)

/-- CENSUS (R338, R339): C_v + O_v + R_v = SLOTS_v for each v, or the link reconciles; a second failure within 1 s enters RETRAIN. -/
def execCensus (t port : Nat) (credits : List Nat) (lastRx : Nat) (s : State) : Out :=
  let s := s.tick t
  let x := s.port port
  let r := fun (v : Nat) => x.retDue.getD v 0 + ((x.retLog.filter (fun e => decide (e.2.1 = v) && seqAfter e.1 lastRx)).map (fun e => e.2.2)).sum
  let ok := (List.range 8).all (fun v => decide (credits.getD v 0 + x.occ.getD v 0 + r v = vcSlots v))
  inst (port < 32)
    (if s.pstate port ≠ 2 then s
     else if ok then s.setPort port { x with retLog := x.retLog.filter (fun e => seqAfter e.1 lastRx) }
     else
       let s := (s.inc F.FAB_LINK_CENSUS_FAIL port).fabFault 1 1 port
       let again := x.censusBad.any (fun a => s.now < a + 1000000000)
       let s := s.setPort port { x with censusBad := some s.now }
       let s := s.sendReconcile port
       if again then s.enterRetrain port else s)

/-- DATA flits of virtual channel `v` that this end has sent and the partner has not acknowledged. -/
def FPort.inFlight (x : FPort) (v : Nat) : Nat :=
  (x.replay.filter (fun f => match f.body with
    | .data u _ _ _ => decide (u = v)
    | _ => false)).length

/-- RECONCILE (R339, R340): C_v = FREE_v, and traffic resumes. An end that had not stopped takes what its unacknowledged flits leave of FREE_v,
stops, answers with a RECONCILE of its own and resumes once that has left. -/
def execReconcile (t port : Nat) (free : List Nat) (s : State) : Out :=
  let s := s.tick t
  let x := s.port port
  inst (port < 32)
    (if s.pstate port ≠ 2 ∧ s.pstate port ≠ 5 then s
     else if x.paused then s.setPort port { x with credits := (List.range 8).map (fun v => free.getD v 0), paused := false, answering := false }
     else (s.setPort port { x with credits := (List.range 8).map (fun v => free.getD v 0 - x.inFlight v), answering := true }).sendReconcile port)

end Sys2Proof.Machine
end

