-- ==== Sys2Proof/Machine/Ledger.lean ====
section
/-!
DEFINITION. Sys2Proof/Machine/Ledger.lean: the ledger engine: its log, commands, exports, the inbox and retention (spec/18).
-/

namespace Sys2Proof.Machine

/-! ### The log (R412 to R414, R421, R423, R424) -/

def State.ledger (s : State) (p : Nat) : LedSt := agetD s.led p {}

def State.setLedger (s : State) (p : Nat) (x : LedSt) : State := { s with led := aset s.led p x }

/-- Units of the ledger area. -/
def State.ledUnits (s : State) (p : Nat) : Nat := 1024 * s.rd F.LDG_AREA_FRAMES p

/-- Memory key of unit `u` of the area, addressed physically. -/
def State.ledKey (s : State) (p u : Nat) : Nat := 65536 * s.rd F.LDG_AREA_BASE_FRAME p + 64 * (u % s.ledUnits p)

/-- `n` units from unit `u`. -/
def State.ledRead (s : State) (p u n : Nat) : Bytes := (List.range n).flatMap (fun k => s.rdBytes (s.ledKey p (u + k)) 64)

/-- Units written from unit `u`; the last is padded with zeros. -/
def State.ledWrite (s : State) (p u : Nat) (b : Bytes) : State :=
  (List.range (ceilDiv b.length 64)).foldl (fun s k => s.wrBytes (s.ledKey p (u + k)) (slice b (64 * k) 64)) s

/-- Live records. -/
def State.ledLive (s : State) (p : Nat) : Nat := s.rd F.LDG_APPENDED_APPENDED p - s.rd F.LDG_RELEASED_RELEASED p

/-- Units in use between TAIL and HEAD. -/
def State.ledUsed (s : State) (p : Nat) : Nat :=
  let h := s.rd F.LDG_HEAD_HEAD p
  let t := s.rd F.LDG_TAIL_TAIL p
  if h = t then (if s.ledLive p = 0 then 0 else s.ledUnits p) else (h + s.ledUnits p - t) % s.ledUnits p

/-- Fields of a ledger record (R413). -/
def recKind (r : Bytes) : Nat := leAt r 0 1
def recFlags (r : Bytes) : Nat := leAt r 1 1
def recStep (r : Bytes) : Nat := leAt r 8 4
def recLenM1 (r : Bytes) : Nat := leAt r 30 2
def recDigest (r : Bytes) : Bytes := slice r 32 32

/-- Units a record takes with its held data. -/
def recUnits (r : Bytes) : Nat := 1 + (if (recFlags r).testBit 3 then recLenM1 r + 1 else 0)

/-- A ledger record (R413). -/
def mkRecord (kind flags producer parts gen consumer step tensor row col loc lenM1 : Nat) (digest : Bytes) : Bytes :=
  natLe 1 kind ++ natLe 1 flags ++ natLe 2 producer ++ natLe 1 parts ++ natLe 1 gen ++ natLe 2 consumer ++ natLe 4 step ++ natLe 4 tensor
    ++ natLe 4 row ++ natLe 4 col ++ natLe 6 loc ++ natLe 2 lenM1 ++ slice digest 0 32

/-- Appends a record with its held data, in one step (R414), at the cost of its tokens (R230); none where it does not fit (R423). -/
def State.ledAppend (s : State) (p : Nat) (r held : Bytes) : Option State :=
  let n := 1 + ceilDiv held.length 64
  if s.ledUnits p < s.ledUsed p + n then none
  else
    let h := s.rd F.LDG_HEAD_HEAD p
    let s := ((s.regCharge p 1 0x56 (64 * n)).ledWrite p (h + 1) held).ledWrite p h r
    some (((s.wr F.LDG_HEAD_HEAD ((h + n) % s.ledUnits p) p).inc F.LDG_APPENDED_APPENDED p).progress p)

/-- Live records from TAIL, as unit and bytes; `fuel` bounds the walk. -/
def State.ledWalk (s : State) (p : Nat) : Nat → Nat → List (Nat × Bytes)
  | 0, _ => []
  | fuel + 1, u =>
    let r := s.ledRead p u 1
    (if (s.ledger p).holes.contains u then [] else [(u, r)]) ++ s.ledWalk p fuel ((u + recUnits r) % s.ledUnits p)

def State.ledRecords (s : State) (p : Nat) : List (Nat × Bytes) :=
  s.ledWalk p (s.ledLive p + (s.ledger p).holes.length) (s.rd F.LDG_TAIL_TAIL p)

/-- Releases records from TAIL while their STEP lies below FLOOR; a record released before passes (R421). -/
def State.ledRelease (s : State) (p : Nat) : Nat → State
  | 0 => s
  | fuel + 1 =>
    let t := s.rd F.LDG_TAIL_TAIL p
    let r := s.ledRead p t 1
    let next := (t + recUnits r) % s.ledUnits p
    let x := s.ledger p
    if x.holes.contains t then
      ((s.setLedger p { x with holes := x.holes.filter (fun u => u ≠ t) }).wr F.LDG_TAIL_TAIL next p).ledRelease p fuel
    else if s.ledLive p ≠ 0 ∧ recStep r < s.rd F.LDG_FLOOR_FLOOR p then
      (((s.setLedger p { x with checks := x.checks.filter (fun c => c.1 ≠ t) }).wr F.LDG_TAIL_TAIL next p).inc F.LDG_RELEASED_RELEASED
        p).ledRelease p fuel
    else s

def State.ledReleaseAll (s : State) (p : Nat) : State := s.ledRelease p (s.ledLive p + (s.ledger p).holes.length)

/-- A level 1 memory-class report of the engine of partition `p`. -/
def State.ledFault (s : State) (p code aux : Nat) : State :=
  s.raise { cls := 0, level := 1, master := 0x56, part := p, source := 0x56, code := code, aux := aux }

/-- FULL follows whether an append waits; one report for each episode (R423). -/
def State.ledFull (s : State) (p : Nat) (waits : Bool) : State :=
  let s := s.settle p
  if waits then (if s.on F.LDG_STATUS_FULL p then s else (s.wr F.LDG_STATUS_FULL 1 p).ledFault p 0 0) else s.wr F.LDG_STATUS_FULL 0 p

/-- Whether replay mode covers `step` (R425). -/
def State.replays (s : State) (p step : Nat) : Bool := s.on F.LDG_REPLAY_ACTIVE p && decide (step ≤ s.rd F.LDG_REPLAY_UNTIL p)

/-- The generation tag of partition `p` (R456). -/
def State.genOf (s : State) (p : Nat) : Nat := s.rd F.HNG_STATUS_GEN p

/-! ### Exports with REMOTE = 1 (R351, R416, R423, R425) -/

/-- Bytes of one element of a contribution. -/
def beatWidth (h : ContribHdr) : Nat := if h.cls = 2 then 16 else if h.wide then 8 else 4

/-- A held contribution: its header in one unit, then its elements (notes/assumptions/47.md). -/
def contribData (bs : List Beat) : Bytes :=
  match bs.head? with
  | none => []
  | some b =>
    let h := natLe 1 b.hdr.cls ++ natLe 1 (if b.hdr.wide then 1 else 0) ++ natLe 2 (unsigned b.hdr.lambda 16) ++ natLe 4 b.hdr.count
    slice h 0 64 ++ bs.flatMap (fun x => x.vals.flatMap (fun v => natLe (beatWidth x.hdr) v))

/-- Sends a beat in CONTRIB packets of up to 4,096 bytes. -/
def State.sendBeat (s : State) (dst : Nat) (b : Beat) : State :=
  let per := 4096 / beatWidth b.hdr
  (List.range (ceilDiv b.vals.length per)).foldl (fun (s : State) k =>
    let part : Beat := { b with first := b.first + k * per, vals := (b.vals.drop (k * per)).take per }
    ({ s with outBeats := s.outBeats ++ [(dst, part)] } : State).sendPkt 0 b.p dst b.p 2
      (b.hdr.handle % 4096 + 4096 * (b.hdr.index % 4096) + 2 ^ 24 * (part.first % 65536)) b.gen false [] (some part)) s

/-- Beats of one whole contribution to `dst`: its CONTRIB record is appended and the beats leave, or in replay mode the record alone stands
for them; none where the record does not fit. -/
def State.exportWhole (s : State) (dst : Nat) (bs : List Beat) : Option State :=
  match bs.head? with
  | none => some s
  | some b =>
    let j := s.jobs.find? (fun j => j.id = b.job)
    let at_ := fun (o : Nat) => (j.map (fun j => leAt j.desc o 4)).getD 0
    let data := contribData bs
    let pad := slice data 0 (64 * ceilDiv data.length 64)
    let rep := s.replays b.p (at_ 48)
    let r := mkRecord 2 (8 + if rep then 2 else 0) s.fabAddr (b.p + 16 * b.p) b.gen dst (at_ 48) (at_ 52) (at_ 56) (at_ 60)
      (b.hdr.handle % 4096 + 4096 * (b.hdr.index % 4096)) (ceilDiv data.length 64 - 1) (shake256 pad)
    match s.ledAppend b.p r data with
    | none => none
    | some s => some ((if rep then s else bs.foldl (fun s x => s.sendBeat dst x) s).ledReleaseAll b.p)

/-- Whether the beats are one whole contribution. -/
def wholeContrib (bs : List Beat) : Bool :=
  match bs.head? with
  | none => false
  | some b => decide ((bs.map (fun x => x.vals.length)).sum = b.hdr.count)

/-- Whether two beats belong to one contribution of one descriptor. -/
def sameContrib (a b : Beat) : Bool := decide (a.job = b.job) && decide (a.hdr.handle = b.hdr.handle) && decide (a.hdr.index = b.hdr.index)

/-- A beat of a remote export reaches the engine, which appends the contribution's record once it is whole, and no append waits (R423). -/
def State.exportRemote (s : State) (dst : Nat) (b : Beat) : State :=
  let x := s.ledger b.p
  let mine := fun (e : Nat × List Beat) => decide (e.1 = dst) && (e.2.head?).any (fun a => sameContrib a b)
  let e : Nat × List Beat := (dst, ((x.exports.find? mine).map (fun e => e.2)).getD [] ++ [b])
  let rest := x.exports.filter (fun z => !mine z)
  if wholeContrib e.2 ∧ !s.on F.LDG_STATUS_FULL b.p then
    match s.exportWhole dst e.2 with
    | some s' => s'.setLedger b.p { s'.ledger b.p with exports := rest }
    | none => (s.setLedger b.p { x with exports := rest ++ [e] }).ledFull b.p true
  else s.setLedger b.p { x with exports := rest ++ [e] }

/-! ### Commands (R415 to R417) -/

def cmdBell (c : Bytes) : Nat := leAt c 2 2
def cmdStep (c : Bytes) : Nat := leAt c 24 4

/-- Whether a command breaks its layout: a reserved kind or byte, or a misaligned address (code 01h). -/
def cmdBad (c : Bytes) : Bool :=
  let z := fun (a n : Nat) => allZero (slice c a n)
  let low := decide (leAt c 6 1 < 16) && z 7 1 && decide (bits (cmdBell c) 12 3 = 0)
  match leAt c 0 1 with
  | 1 => !(low && decide (leAt c 1 1 < 2) && z 22 2 && z 46 18 && decide (leAt c 8 6 % 64 = 0) && decide (leAt c 14 6 % 64 = 0))
  | 2 => !(low && z 1 1 && z 20 4)
  | 3 => !(low && decide (leAt c 1 1 < 2) && z 8 16 && decide (leAt c 34 1 < 16) && z 35 5 && z 46 18)
  | _ => true

/-- The next command: one of LEDGER_COMMAND first, else the ring's, read under R208; or the code with which its read fails. -/
def State.ledNext (s : State) (p : Nat) : Option ((Bytes × Bool × Option Nat) × State) :=
  let x := s.ledger p
  if !s.on F.LDG_SQ_ENABLE p ∨ s.on F.LDG_STATUS_HALTED p ∨ x.run.isSome ∨ !s.free_ p then none
  else
    match x.extra with
    | c :: rest => some ((c, false, none), s.setLedger p { x with extra := rest })
    | [] =>
      let h := s.rd F.LDG_STATUS_SQ_HEAD p
      if h = x.sqTail then none
      else
        let a := 4096 * s.rd F.LDG_SQ_BASE p + 64 * (h % 2 ^ max 4 (s.rd F.LDG_SQ_LOG2 p))
        match s.devRead 4 0x56 p a 64 with
        | (some _, _, _, s) => some ((natLe 64 0, true, some 2), s.wr F.LDG_STATUS_SQ_HEAD (h + 1) p)
        | (none, _, true, s) => some ((natLe 64 0, true, some 3), s.wr F.LDG_STATUS_SQ_HEAD (h + 1) p)
        | (none, b, false, s) => some ((b, true, none), s.wr F.LDG_STATUS_SQ_HEAD (h + 1) p)

/-- Rings the DONE_BELL of a command, as BEL_RING would. -/
def State.cmdRing (s : State) (p : Nat) (c : Bytes) : State :=
  if (cmdBell c).testBit 15 then s.sendRing p (bits (cmdBell c) 0 12) 1 0x56 else s

/-- A command ends OK. -/
def State.cmdDone (s : State) (p : Nat) (c : Bytes) : State :=
  let s := (s.setLedger p { s.ledger p with run := none }).wr F.LDG_STATUS_LAST_CODE 0 p
  (s.cmdRing p c).ledReleaseAll p

/-- A command fails with a code of *Ledger command codes* (R417). -/
def State.cmdFail (s : State) (p : Nat) (c : Bytes) (code : Nat) : State :=
  let s := ((s.setLedger p { s.ledger p with run := none }).wr F.LDG_STATUS_LAST_CODE code p).wr F.LDG_STATUS_HALTED 1 p
  let s := if s.on F.LDG_FIRST_VALID p then s
    else (((s.wr F.LDG_FIRST_VALID 1 p).wr F.LDG_FIRST_CODE code p).wr F.LDG_FIRST_SQ_INDEX (s.rd F.LDG_STATUS_SQ_HEAD p - 1) p).wr
      F.LDG_FIRST_STEP (cmdStep c) p
  (s.ledFault p code 0).cmdRing p c

/-- A copy of record `r` goes alone to an inbox address, with ORDERED = 1 (R416). -/
def State.toInbox (s : State) (p tag dev part addr : Nat) (r : Bytes) (resent : Bool) : State :=
  let r := if resent then patchBytes r 1 (natLe 1 (recFlags r ||| 1)) else r
  (s.sendPkt tag p dev part 1 addr (s.genOf p) true r).progress p

/-- Data sent as WRITE packets of up to 4,096 bytes. -/
def State.sendData (s : State) (p tag dev part addr : Nat) (ordered : Bool) (b : Bytes) : State :=
  (List.range (ceilDiv b.length 4096)).foldl (fun (s : State) k =>
    s.sendPkt tag p dev part 1 (addr + 4096 * k) (s.genOf p) ordered ((b.drop (4096 * k)).take 4096)) (s.progress p)

/-- Steps 1 and 2 of a SEND (R416, R425): the record is appended and the data leaves; it waits where the log has no room. -/
def State.sendBegin (s : State) (p : Nat) (c : Bytes) (ring : Bool) : State :=
  let n := leAt c 20 2 + 1
  match s.devRead 4 0x56 p (leAt c 8 6) (64 * n) with
  | (some _, _, _, s) => s.cmdFail p c 2
  | (none, _, true, s) => s.cmdFail p c 3
  | (none, b, false, s) =>
    let rep := s.replays p (cmdStep c)
    let r := mkRecord 1 (8 + if rep then 2 else 0) s.fabAddr (p + 16 * (leAt c 6 1)) (s.genOf p) (leAt c 4 2) (cmdStep c) (leAt c 28 4)
      (leAt c 32 4) (leAt c 36 4) (leAt c 14 6) (n - 1) (shake256 b)
    match s.ledAppend p r b with
    | none => (s.setLedger p { s.ledger p with run := some { cmd := c, ring := ring } }).ledFull p true
    | some s =>
      let t := s.newTag
      let s := t.2.setLedger p { t.2.ledger p with run := some { cmd := c, ring := ring, sent := true, tag := t.1, record := r } }
      if rep then s else s.sendData p t.1 (leAt c 4 2) (leAt c 6 1) (leAt c 14 6) ((leAt c 1 1).testBit 0) b

/-- Steps 3 and 4 of a SEND, once its last packet has reached a lantern port: the record alone to the inbox, and DONE_BELL. -/
def State.sendEnd (s : State) (p : Nat) (r : LedRun) : State :=
  let c := r.cmd
  let inbox := leAt c 40 6
  (if inbox = 0 then s else s.toInbox p 0 (leAt c 4 2) (leAt c 6 1) inbox r.record (s.replays p (cmdStep c))).cmdDone p c

/-- LEDGER_SEND (R416): the engine takes the next command if it is a SEND or one that breaks the layout, or ends the SEND whose packets have
left. -/
def execLedgerSend (t p : Nat) (s : State) : Out :=
  let s := s.tick t
  inst (p < 16)
    (match (s.ledger p).run with
     | some r => if r.sent ∧ leAt r.cmd 0 1 = 1 ∧ !s.tagBusy r.tag then s.sendEnd p r else s
     | none =>
       match s.ledNext p with
       | none => s
       | some ((c, ring, err), s') =>
         match err with
         | some code => s'.cmdFail p c code
         | none =>
           if leAt c 0 1 = 2 ∨ leAt c 0 1 = 3 ∨ s.on F.LDG_STATUS_FULL p then s
           else if s'.ledUnits p = 0 ∨ cmdBad c then s'.cmdFail p c 1
           else s'.sendBegin p c ring)

/-- A BATCH: its record is appended, goes to the inbox it names, and DONE_BELL rings. -/
def State.batchRun (s : State) (p : Nat) (c : Bytes) (ring : Bool) : State :=
  let dev := leAt c 4 2
  let r := mkRecord 3 (if s.replays p (cmdStep c) then 2 else 0) s.fabAddr (p + 16 * leAt c 6 1) (s.genOf p) dev (cmdStep c) (leAt c 28 4) 0 0
    (leAt c 8 6) 0 (slice c 32 32)
  match s.ledAppend p r [] with
  | none => (s.setLedger p { s.ledger p with run := some { cmd := c, ring := ring } }).ledFull p true
  | some s => (if dev = 0xFFFF then s else s.toInbox p 0 dev (leAt c 6 1) (leAt c 14 6) r false).cmdDone p c

/-- LEDGER_BATCH (R416). -/
def execLedgerBatch (t p : Nat) (s : State) : Out :=
  let s := s.tick t
  inst (p < 16)
    (match s.ledNext p with
     | some ((c, ring, none), s') =>
       if leAt c 0 1 ≠ 2 ∨ s.on F.LDG_STATUS_FULL p then s
       else if s'.ledUnits p = 0 ∨ cmdBad c then s'.cmdFail p c 1
       else s'.batchRun p c ring
     | _ => s)

/-- Sends one record's data again for a RESEND (R426). -/
def State.resendOne (s : State) (p : Nat) (c : Bytes) (e : Nat × Bytes) : State :=
  let dev := leAt c 32 2
  let part := leAt c 34 1 % 16
  let inbox := leAt c 40 6
  let r := e.2
  let held := s.ledRead p (e.1 + 1) (recLenM1 r + 1)
  let s := s.regCharge p 0 0x56 (64 * recUnits r)
  match recKind r with
  | 1 =>
    let s := if (recFlags r).testBit 3 then s.sendData p 0 dev part (leAt r 24 6) false held else s
    if inbox = 0 then s else s.toInbox p 0 dev part inbox r true
  | 2 =>
    let cls := leAt held 0 1
    let h : ContribHdr := ⟨leAt r 24 3 % 4096, leAt r 24 3 / 4096, cls, decide (leAt held 1 1 = 1), signed (leAt held 2 2) 16, leAt held 4 4⟩
    let vals := (List.range h.count).map (fun i => leAt held (64 + beatWidth h * i) (beatWidth h))
    s.sendBeat dev { p := p, gen := s.genOf p, hdr := h, first := 0, vals := vals, job := 0 }
  | _ =>
    let orig := patchBytes (patchBytes r 0 (natLe 1 (bits (recFlags r) 4 3))) 1 (natLe 1 0)
    if inbox = 0 then s else s.toInbox p 0 dev part inbox orig true

/-- Whether a RESEND selects a record: its kinds, its consumer or producer, its steps. -/
def resendTakes (c r : Bytes) : Bool :=
  let old := leAt c 4 2
  let part := leAt c 6 1
  let inSteps := decide (cmdStep c ≤ recStep r) && decide (recStep r ≤ leAt c 28 4)
  if (leAt c 1 1).testBit 0 then decide (recKind r = 4) && decide (leAt r 2 2 = old) && decide (leAt r 4 1 % 16 = part) && inSteps
  else decide (recKind r = 1 ∨ recKind r = 2) && decide (leAt r 6 2 = old) && decide (leAt r 4 1 / 16 = part) && inSteps

/-- LEDGER_RESEND (R426): it appends nothing, and ends OK even where it matches no record. -/
def execLedgerResend (t p : Nat) (s : State) : Out :=
  let s := s.tick t
  inst (p < 16)
    (match s.ledNext p with
     | some ((c, _, none), s') =>
       if leAt c 0 1 ≠ 3 then s
       else if s'.ledUnits p = 0 ∨ cmdBad c then s'.cmdFail p c 1
       else (((s'.ledRecords p).filter (fun e => resendTakes c e.2)).foldl (fun s e => s.resendOne p c e) s').cmdDone p c
     | _ => s)

/-! ### The inbox (R418 to R420) -/

/-- Whether the data of an INBOUND record of a SEND matches its DIGEST. -/
def State.inboxMatches (s : State) (p : Nat) (r : Bytes) : Bool × State :=
  match s.devRead 4 0x56 p (leAt r 24 6) (64 * (recLenM1 r + 1)) with
  | (none, b, false, s) => (decide (shake256 b = recDigest r), s)
  | (_, _, _, s) => (false, s)

/-- The record at unit `u` becomes VERIFIED and is counted. -/
def State.inboxVerify (s : State) (p u : Nat) (ring : Bool) : State :=
  let s := s.wrNat (s.ledKey p u + 1) 1 (s.rdNat (s.ledKey p u + 1) 1 ||| 4)
  let s := s.inc F.LDG_INBOX_CNT_VERIFIED p
  if ring then s.sendRing p (s.rd F.LDG_INBOX_BELL p) 1 0x56 else s

/-- The INBOUND form of a received record (R418). -/
def inboundOf (r : Bytes) : Bytes :=
  patchBytes (patchBytes r 0 (natLe 1 4)) 1 (natLe 1 (recFlags r % 2 + 16 * (recKind r % 8)))

/-- Appends a received record and verifies it (R418, R419); none where it does not fit. -/
def State.inboxTake (s : State) (p : Nat) (r : Bytes) : Option State :=
  let u := s.rd F.LDG_HEAD_HEAD p
  match s.ledAppend p (inboundOf r) [] with
  | none => none
  | some s =>
    some (match recKind r with
      | 1 =>
        match s.inboxMatches p r with
        | (true, s) => s.inboxVerify p u true
        | (false, s) => s.setLedger p { s.ledger p with checks := (s.ledger p).checks ++ [(u, s.now + 1000000)] }
      | 3 => s.inboxVerify p u false
      | _ => s)

/-- Whether a live INBOUND record is of the same data as a received one (R420). -/
def sameData (r x : Bytes) : Bool :=
  decide (recKind x = 4) && decide (bits (recFlags x) 4 3 = recKind r) && decide (slice x 8 24 = slice r 8 24)

/-- Takes one received record as R420 states; none where it waits for room. -/
def State.inboxJudge (s : State) (p : Nat) (r : Bytes) : Option State :=
  if !(recFlags r).testBit 0 then s.inboxTake p r
  else if recStep r < s.rd F.LDG_FLOOR_FLOOR p then some (s.inc F.LDG_INBOX_CNT_STALE p)
  else
    match (s.ledRecords p).find? (fun e => sameData r e.2) with
    | none => s.inboxTake p r
    | some (u, x) =>
      if (recFlags x).testBit 2 then
        if recDigest x = recDigest r then some (s.inc F.LDG_INBOX_CNT_VERIFIED p)
        else some (((s.inc F.LDG_INBOX_CNT_DUP_BAD p).ledFault p 0 1).markBad p (recStep r) (recStep r))
      else
        let l := s.ledger p
        let s := (s.setLedger p { l with holes := l.holes ++ [u], checks := l.checks.filter (fun c => c.1 ≠ u) }).inc
          F.LDG_RELEASED_RELEASED p
        (s.ledReleaseAll p).inboxTake p r

/-- INBOX_RECEIVE (R418 to R420): the oldest record that waits. -/
def execInboxReceive (t p : Nat) (s : State) : Out :=
  let s := s.tick t
  inst (p < 16)
    (match (s.ledger p).inQ with
     | [] => s
     | r :: rest =>
       match s.inboxJudge p r with
       | some s => (s.setLedger p { s.ledger p with inQ := rest }).ledReleaseAll p
       | none => s.ledFull p true)

/-- INBOX_RECHECK (R419): 1 ms after a mismatch the data is compared again. -/
def execInboxRecheck (t p : Nat) (s : State) : Out :=
  let s := s.tick t
  inst (p < 16)
    (match (s.ledger p).checks.find? (fun c => c.2 ≤ s.now) with
     | none => s
     | some c =>
       let s := s.setLedger p { s.ledger p with checks := (s.ledger p).checks.filter (fun z => z ≠ c) }
       match s.inboxMatches p (s.ledRead p c.1 1) with
       | (true, s) => s.inboxVerify p c.1 true
       | (false, s) => (s.inc F.LDG_INBOX_CNT_MISSING p).ledFault p 0 2)

/-! ### Room, retention and the doorbell (R309, R417, R421, R423) -/

/-- Exports that wait for room go, in order, as far as they fit. -/
def State.exportsGo (s : State) (p : Nat) : Nat → State
  | 0 => s
  | fuel + 1 =>
    match (s.ledger p).exports.find? (fun e => wholeContrib e.2) with
    | none => s
    | some e =>
      match s.exportWhole e.1 e.2 with
      | none => s
      | some s' => (s'.setLedger p { s'.ledger p with exports := (s'.ledger p).exports.erase e }).exportsGo p fuel

/-- LEDGER_APPEND_WAIT_END (R423): appends that waited go on where they now fit. -/
def execLedgerAppendWaitEnd (t p : Nat) (s : State) : Out :=
  let s := s.tick t
  inst (p < 16)
    (if !s.on F.LDG_STATUS_FULL p then s
     else
       let s := s.ledFull p false
       let s := match (s.ledger p).run with
         | some r =>
           if r.sent then s
           else
             let s := s.setLedger p { s.ledger p with run := none }
             if leAt r.cmd 0 1 = 1 then s.sendBegin p r.cmd r.ring else s.batchRun p r.cmd r.ring
         | none => s
       let s := s.exportsGo p (s.ledger p).exports.length
       if (s.ledger p).exports.any (fun e => wholeContrib e.2) then s.ledFull p true else s)


/-- LDG_FLOOR_WRITE (R421). -/
def State.floorWrite (s : State) (p f : Nat) : State :=
  let v := min (f % 2 ^ 32) (s.rd F.LDG_FLOOR_LAST_COMMIT p + 1)
  if s.rd F.LDG_FLOOR_FLOOR p < v then (s.wr F.LDG_FLOOR_FLOOR v p).ledReleaseAll p else s

def execLdgFloorWrite (t : Nat) (who : Requester) (p value : Nat) (s : State) : Out :=
  let s := s.tick t
  inst (p < 16) (s.asWriter who p (fun s => s.floorWrite p value))

/-- RESUME clears HALTED; the failed command, already taken, is not run again (R417). -/
def State.ledResume (s : State) (p : Nat) : State := s.wr F.LDG_STATUS_HALTED 0 p

/-- A write of LDG_DB: TAIL is taken, or refused and reported as R309 states for SQ_TAIL; RESUME acts as R417 states. -/
def State.ledDoorbell (s : State) (p value : Nat) : State :=
  let x := s.ledger p
  let tail := bits value 0 16
  let size : Nat := 2 ^ max 4 (s.rd F.LDG_SQ_LOG2 p)
  let head := s.rd F.LDG_STATUS_SQ_HEAD p
  let bad := decide (size < ahead tail head) || decide (ahead tail head < ahead x.sqTail head)
  let s := if bad then s.raise { cls := 2, level := 1, master := 0x56, part := p, source := 0x56, aux := tail }
    else s.setLedger p { x with sqTail := tail }
  if value.testBit 31 then s.ledResume p else s

/-- LDG_DB_WRITE (R415). -/
def execLdgDbWrite (t : Nat) (who : Requester) (p value : Nat) (s : State) : Out :=
  let s := s.tick t
  inst (p < 16) (s.asWriter who p (fun s => s.ledDoorbell p value))

/-- LEDGER_RESUME (R417). -/
def execLedgerResume (t : Nat) (who : Requester) (p : Nat) (s : State) : Out :=
  let s := s.tick t
  inst (p < 16) (s.asWriter who p (fun s => s.ledResume p))

/-- A reset of partition `p` stops its ledger engine (R424): the command ends ABORTED, appends not live and pending verifications are
dropped, and the ring starts again at 0 (notes/assumptions/48.md). -/
def State.ledReset (s : State) (p : Nat) : State :=
  let s := match (s.ledger p).run with
    | some r => s.cmdFail p r.cmd 4
    | none => s
  let x := s.ledger p
  ((s.setLedger p { holes := x.holes }).wr F.LDG_STATUS_FULL 0 p).wr F.LDG_STATUS_SQ_HEAD 0 p

end Sys2Proof.Machine
end

