-- ==== Sys2Proof/Machine/Drain.lean ====
section
/-!
DEFINITION. Sys2Proof/Machine/Drain.lean: the drain of a spire array: accumulator memory, fused operation, row operations, output conversion,
export and credit return (spec/05).
-/

namespace Sys2Proof.Machine

/-! ### Accumulator memory (R97, R99, R101, R103, R104) -/

/-- Words per element of an accumulation mode. -/
def accWords (mode : Nat) : Nat := [1, 2, 4].getD mode 1

/-- First accumulator word of element `e` of slot `sl`. -/
def accWord (mode sl e : Nat) : Nat := 65536 * accWords mode * sl + e * accWords mode

/-- An element in exact form: flags and V (R103). -/
structure ExactForm where
  nan : Bool
  pinf : Bool
  ninf : Bool
  negZero : Bool
  v : Int
  deriving DecidableEq, Repr

def exactStart : ExactForm := ⟨false, false, false, true, 0⟩

/-- The exact form in the low `w + 4` bits of a number, V in the low `w`: 124 in accumulator memory, 316 at an atomic unit. -/
def exactOf (w x : Nat) : ExactForm :=
  ⟨x.testBit (w + 3), x.testBit (w + 2), x.testBit (w + 1), x.testBit w, signed x w⟩

def exactBits (w : Nat) (x : ExactForm) : Nat :=
  unsigned x.v w + (if x.negZero then 2 ^ w else 0) + (if x.ninf then 2 ^ (w + 1) else 0) + (if x.pinf then 2 ^ (w + 2) else 0)
    + (if x.nan then 2 ^ (w + 3) else 0)

/-- The value an exact form reads out as: NaN under NAN or both infinity flags (R62, R81, R121). -/
def exactVal (x : ExactForm) (lam : Int) : Val :=
  if x.nan || (x.pinf && x.ninf) then Val.nan
  else if x.pinf then Val.inf false
  else if x.ninf then Val.inf true
  else if x.v = 0 then Val.zero x.negZero
  else Val.ofInt x.v lam

/-- λ of a descriptor (R103). -/
def Job.lambda (j : Job) : Int := j.xf.uMin (decide (j.xKind = 2)) + j.yf.uMin (decide (j.yKind = 2)) + j.beta

/-- The exact addition of a column result; none where R104 makes the element NaN. `cm` is the smallest scale exponent of the groups with a
finite nonzero product. -/
def exactAdd (x : ExactForm) (c : ColRes) (cm : Option Int) (lam beta : Int) : ExactForm × Bool :=
  let pi := x.pinf || c.pinf
  let ni := x.ninf || c.ninf
  let nan := x.nan || c.nan || (pi && ni)
  let v := x.v + (if c.some_ then shiftFloor c.reg (c.anchor - 640 - lam) else 0)
  let bad := cm.any (fun m => m < beta) || decide (2 ^ 123 ≤ v.natAbs)
  (⟨nan || bad, pi, ni, x.negZero && c.negZero, if bad then x.v else v⟩, bad)

/-! ### Stochastic draws (R92) -/

/-- The carillon draw of element (m, n) of the real or imaginary tile at pass number `pass`. -/
def Job.draw (j : Job) (imag : Bool) (m n pass : Nat) : Nat :=
  carillon j.seed j.step (if imag then j.tensor ^^^ 0x80000000 else j.tensor) ((j.originRow + m) % 2 ^ 32) ((j.originCol + n) % 2 ^ 32) pass

/-! ### Stage 1: rounding point and exact addition (R85, R86, R89, R104) -/

/-- The accumulator bits of logical column `n` after the slot, from the stored bits, and whether R104 failed. `reads` is false in the first pass
of a cleared tile. -/
def Job.accumulate (j : Job) (f : SlotFl) (res : List ColRes) (imag reads : Bool) (n stored : Nat) : Nat × Bool :=
  let wide := decide (j.accum = 1)
  let c := res.getD n ColRes.start
  if j.accum = 2 then
    let x := exactAdd (if reads then exactOf 124 stored else exactStart) c ((f.cmin.getD n none)) j.lambda j.beta
    (exactBits 124 x.1, x.2)
  else if j.strict then
    let ps := f.chains.getD n []
    let v := if reads then chainFrom wide (accVal wide stored) ps
      else match ps with
        | [] => Val.zero false
        | p :: rest => chainFrom wide p rest
    (accRound wide v 0 0, false)
  else
    let r := if j.accMode = 1 then j.draw imag f.slot n (j.passBase + f.pass) else 0
    (accRound wide (if reads then (accVal wide stored).add c.value else c.value) j.accMode r, false)

/-! ### Writes of the drain (R391, R392, R496) -/

/-- The drain writes bytes to an output address; after a failed check it writes nothing further there. -/
def State.drainWrite (s : State) (j : Job) (pass addr : Nat) (b : Bytes) : State × Job :=
  if j.outStop then (s, j)
  else
    match s.jobWrite j (0x30 + j.g) addr b with
    | (some _, s, j) => (s, { j.fail 6 0 pass with outStop := true })
    | (none, s, j) => (s, j)

/-- Writes a row of packed elements of `b` bits; an element withheld keeps its old bits (R54, R101, R495). -/
def State.drainRow (s : State) (j : Job) (pass addr b : Nat) (els : List (Option Nat)) : State × Job :=
  let v := (els.zipIdx.map (fun x => (x.1.getD 0) % 2 ^ b * 2 ^ (b * x.2))).sum
  let nb := ceilDiv (els.length * b) 8
  if els.all Option.isSome then s.drainWrite j pass addr (natLe nb v)
  else
    let mask := (els.zipIdx.map (fun x => if x.1.isSome then (2 ^ b - 1) * 2 ^ (b * x.2) else 0)).sum
    (List.range nb).foldl (fun (a : State × Job) i =>
      let mk := bits mask (8 * i) 8
      if mk = 0 then a
      else
        let old := (a.1.oldByte a.2 (addr + i)).toNat
        let keep := ((List.range 8).map (fun k => if mk.testBit k then 0 else if old.testBit k then 2 ^ k else 0)).sum
        a.1.drainWrite a.2 pass (addr + i) [BitVec.ofNat 8 (keep + bits v (8 * i) 8)]) (s, j)

/-! ### Stage 2: the fused operation (R106, R108, R495) -/

/-- Row pitch of a tile of `n` elements of `b` bits. -/
def rowPitch (n b : Nat) : Nat := 64 * ceilDiv (n * b) 512

/-- Row address and index of the fused operand of element (m, n) (R108). -/
def Job.fusedPlace (j : Job) (m n : Nat) : Nat × Nat :=
  match j.broadcast with
  | 0 => (j.fusedAddr + m * rowPitch j.n j.ff.b, n)
  | 1 => (j.fusedAddr, n)
  | _ => (j.fusedAddr, m)

/-- The fused operand for element (m, n), or none where it cannot be read. A read that fails is recorded for each element that needs it
(DESIGN CHOICE, notes/assumptions/77.md). -/
def State.fusedAt (s : State) (j : Job) (m n : Nat) : Option Val × Bool × State :=
  let b := j.ff.b
  let at_ := j.fusedPlace m n
  match s.readBits j (0x30 + j.g) at_.1 (b * at_.2) b with
  | (none, v, s) => (some (j.ff.decode false v), false, s)
  | (some e, _, s) => (none, decide (e = 0), s)

/-- a′ of element (m, n) from its accumulator bits, rounded in the accumulator rounding mode of R106 in strict mode too (DEDUCED,
notes/assumptions/83.md). -/
def Job.fused (j : Job) (imag : Bool) (m n a : Nat) (f : Val) : Nat :=
  let wide := decide (j.accum = 1)
  let x := accVal wide a
  let r := if j.accMode = 1 then j.draw imag m n (j.passBase + j.passes) else 0
  accRound wide (if j.fuseMul then x.mul f else x.add f) j.accMode r

/-! ### Stage 3: row operations (R109) -/

/-- Row maximum or row sum of a tile row in binary32. -/
def rowResult (max_ : Bool) (xs : List Val) : Nat :=
  match xs with
  | [] => 0
  | x :: rest => accRound false (rest.foldl (fun v y => if max_ then v.maximum y else accRne false (v.add y)) x) 0 0

/-! ### Stage 4: output conversion (R53, R110, R111, R184, R189) -/

/-- Converts element (m, n) under scale kind none or per-tensor: bits and outcome. -/
def Job.convOne (j : Job) (imag : Bool) (m n : Nat) (x : Val) : Nat × Nat :=
  let r := if j.outMode = 1 then j.draw imag m n 0xFFFF else 0
  match j.outKind, j.oscale with
  | 1, none => if x.enters then (j.of_.overflow x.neg j.outMode j.policy, ocOverflow) else j.of_.convert false x j.outMode j.policy r
  | 1, some sc => j.of_.convert false (x.unscaled sc) j.outMode j.policy r
  | _, _ =>
    if j.accum = 2 then j.of_.convert false x j.outMode j.policy r
    else j.of_.convertFrom (if j.accum = 1 then fp64 else fp32) x j.outMode j.policy r

/-- Converts a block of elements (m, n, value): its scale and its elements, all withheld where one is. -/
def Job.convBlock (j : Job) (imag : Bool) (cells : List (Nat × Nat × Option Val)) : Option Nat × List (Option (Nat × Nat)) :=
  if cells.all (fun c => c.2.2.isSome) then
    let xs := cells.map (fun c => c.2.2.getD Val.nan)
    let sc := j.of_.blockScale xs
    (some sc, cells.map (fun c =>
      some (j.of_.blockElem sc (c.2.2.getD Val.nan) j.outMode j.policy
        (if j.outMode = 1 then j.draw imag c.1 c.2.1 0xFFFF else 0))))
  else (none, cells.map (fun _ => none))

/-- Counts converted elements in the census and amax of the descriptor, and of its array unless it is an echo (R111, R184, R391). -/
def State.countOut (s : State) (j : Job) (conv : List (Option (Nat × Nat))) (xs : List (Option Val)) : State × Job :=
  let oc := conv.filterMap (fun c => c.map (fun x => x.2))
  let n := fun (k : Nat) => (oc.filter (fun o => o = k)).length
  let am := ((xs.zip conv).filterMap (fun e => if e.2.isSome then e.1.map amaxOf else none)).foldl max j.amax
  let j := { j with counts := j.counts.zipIdx.map (fun c => c.1 + n c.2), amax := am }
  if j.echo then (s, j)
  else
    let add := fun (s : State) (f : Fld) (k : Nat) => s.inc f j.pa 0 (n k)
    let s := add (add (add (add s F.SPR_CENSUS_A_NORMAL 0) F.SPR_CENSUS_A_SUBNORMAL 1) F.SPR_CENSUS_B_ZERO 2) F.SPR_CENSUS_B_VANISHED 3
    let s := add (add (add s F.SPR_CENSUS_D_OVERFLOW 4) F.SPR_CENSUS_C_INF 5) F.SPR_CENSUS_C_NAN 6
    (s.wr F.SPR_AMAX_AMAX am j.pa, j)

/-- Address of the real or the imaginary output tile. -/
def Job.outTile (j : Job) (imag : Bool) : Nat := if imag then j.outImagAddr else j.outAddr

/-- Writes one output row, with the block scales `scs` (index, scale) that go with it. -/
def State.putOut (s : State) (j : Job) (imag : Bool) (pass m : Nat) (conv : List (Option (Nat × Nat))) (scs : List (Nat × Nat)) :
    State × Job :=
  let pitch := rowPitch j.n j.of_.b
  let base := j.outTile imag
  let r := s.drainRow j pass (base + m * pitch) j.of_.b (conv.map (fun c => c.map (fun x => x.1)))
  scs.foldl (fun (a : State × Job) e => a.1.drainWrite a.2 pass (base + j.m * pitch + e.1) [BitVec.ofNat 8 e.2]) r

/-- Converts and writes tile row `m` of values a′ (R105, R110). With block axis m the drain holds 32 rows before it writes. -/
def State.outRow (s : State) (j : Job) (imag : Bool) (pass m : Nat) (xs : List (Option Val)) : State × Job :=
  if j.outKind ≠ 2 then
    let conv := xs.zipIdx.map (fun x => x.1.map (fun v => j.convOne imag m x.2 v))
    let r := s.countOut j conv xs
    r.1.putOut r.2 imag pass m conv []
  else if !j.axisM then
    let nb := j.n / 32
    let bl := (List.range nb).map (fun b => j.convBlock imag ((List.range 32).map (fun i => (m, 32 * b + i, xs.getD (32 * b + i) none))))
    let conv := bl.flatMap (fun x => x.2)
    let r := s.countOut j conv xs
    r.1.putOut r.2 imag pass m conv (bl.zipIdx.filterMap (fun x => x.1.1.map (fun sc => (m * nb + x.2, sc))))
  else
    let held := j.held ++ [xs]
    if held.length < 32 then (s, { j with held := held })
    else
      let m0 := m - 31
      let bl := (List.range j.n).map (fun n => j.convBlock imag ((List.range 32).map (fun i => (m0 + i, n, (held.getD i []).getD n none))))
      let rows := (List.range 32).map (fun i => bl.map (fun b => b.2.getD i none))
      let j := { j with held := [] }
      let r := (List.range 32).foldl (fun (a : State × Job) i =>
        let conv := rows.getD i []
        let c := a.1.countOut a.2 conv (held.getD i [])
        c.1.putOut c.2 imag pass (m0 + i) conv []) (s, j)
      (bl.zipIdx.filterMap (fun x => x.1.1.map (fun sc => (m0 / 32 * j.n + x.2, sc)))).foldl (fun (a : State × Job) e =>
        a.1.drainWrite a.2 pass (j.outTile imag + j.m * rowPitch j.n j.of_.b + e.1) [BitVec.ofNat 8 e.2]) r

/-- Sends one beat of the descriptor's contribution; each element withheld goes as NaN (R101, R116). An echo exports nothing (R391). -/
def State.export (s : State) (j : Job) (m : Nat) (els : List (Option Nat)) : State × Job :=
  let nan := if j.accum = 2 then exactBits 124 { exactStart with nan := true, negZero := false }
    else accRound (decide (j.accum = 1)) Val.nan 0 0
  let vals := els.map (fun e => e.getD nan)
  let hdr : ContribHdr := ⟨j.handle, j.contrib, j.redClass, j.accWide, if j.redClass = 2 then j.lambda else 0, j.m * j.n⟩
  let beat : Beat := ⟨j.p, j.gen, hdr, m * j.n, vals, j.id⟩
  let j := j.note (2 ^ 63 + 2 ^ 62 + j.handle * 2 ^ 32 + m * j.n) (vals.flatMap (fun v => natLe (4 * accWords j.accum) v))
  if j.echo then (s, j)
  else if j.remote then (s.exportRemote j.destDev beat, j)
  else ({ s with beats := s.beats ++ [beat] }, j)

/-! ### One slot through the drain (R100, R101, R105, R112) -/

/-- Writes the accumulator bits of the elements that are not withheld. -/
def State.putAcc (s : State) (j : Job) (sl m : Nat) (els : List (Option Nat)) : State × Job :=
  let w := 4 * accWords j.accum
  els.zipIdx.foldl (fun (a : State × Job) x =>
    match x.1 with
    | none => a
    | some v =>
      let word := accWord j.accum sl (m * j.n + x.2)
      (a.1.wrNat (accKey j.pa (4 * word)) w v, a.2.note (2 ^ 63 + sl * 2 ^ 32 + word) (natLe w v))) (s, j)

/-- The last-pass stages of a tile row, from the accumulator bits after stage 1. A complex descriptor's row results go to one ROWV_ADDR, those
of its imaginary tile last (DEDUCED, notes/assumptions/84.md). -/
def State.lastStages (s : State) (j : Job) (imag : Bool) (sl pass m : Nat) (acc : List (Option Nat)) : State × Job :=
  let fz : List (Option Nat) × Bool × State :=
    if j.fuse then
      acc.zipIdx.foldl (fun (a : List (Option Nat) × Bool × State) x =>
        match x.1 with
        | none => (a.1 ++ [none], a.2)
        | some v =>
          match a.2.2.fusedAt j m x.2 with
          | (some f, _, s) => (a.1 ++ [some (j.fused imag m x.2 v f)], a.2.1, s)
          | (none, poison, s) => (a.1 ++ [none], a.2.1 || poison, s)) ([], false, s)
    else (acc, false, s)
  let s := if fz.2.1 then fz.2.2.feedFault j.g j.p (0x30 + j.g) else fz.2.2
  let lost := (acc.zip fz.1).any (fun x => x.1.isSome && x.2.isNone)
  let at_ := j.fusedPlace m 0
  let from_ := at_.1 + j.ff.b * at_.2 / 8
  let upTo := at_.1 + ceilDiv (j.ff.b * (at_.2 + (if 1 < j.broadcast then 1 else j.n))) 8
  let s := if j.fuse && !lost then s.traffic (dieOf j.g) (0x30 + j.g) from_ (upTo - from_) false else s
  let j := if lost then j.fail 6 0 pass else j
  let r := if j.fuse then s.putAcc j sl m fz.1 else (s, j)
  let wide := decide (j.accum = 1)
  let vals : List (Option Val) := fz.1.map (fun x => x.map (fun v => if j.accum = 2 then exactVal (exactOf 124 v) j.lambda else accVal wide v))
  let r := if r.2.rowOp ≠ 0 ∧ vals.all Option.isSome then
      r.1.drainWrite r.2 pass (j.rowvAddr + 4 * m) (natLe 4 (rowResult (decide (j.rowOp = 1)) (vals.map (fun v => v.getD Val.nan))))
    else r
  if j.exports then r.1.export r.2 m fz.1 else r.1.outRow r.2 imag pass m vals

/-- Credits that return with a slot, when `was` rows stood held for a block along m before it and `now` after it: none while the row itself is
held, all of the block's once it is written (R34, R110, R112). -/
def creditsBack (was now : Nat) : Nat := if was < now then 0 else if now < was then was + 1 else 1

/-- Slot `f` of descriptor `j` goes through the drain; `corr` and `unc` are accumulator words that show errors when read. -/
def State.drain (s : State) (pa : Nat) (j : Job) (f : SlotFl) (corr unc : List Nat) : State :=
  let i := j.passInfo f.pass
  let sl := j.slotNo + (if i.imagOut then 1 else 0)
  let reads := !(j.clear && j.firstInto f.pass)
  let w := accWords j.accum
  let ps := s.pa pa
  let first := accWord j.accum sl (f.slot * j.n)
  let here := fun (x : Nat) => decide (first ≤ x) && decide (x < first + j.n * w)
  let bad := if reads then (ps.badWords.filter here) ++ (unc.filter (fun x => here x && !ps.badWords.contains x)).dedup else []
  let fixed := if reads then (corr.filter (fun x => here x && !bad.contains x)).dedup else []
  let s := (s.inc F.SPR_ACC_ECC_UNCORRECTED pa 0 bad.length).inc F.SPR_ACC_ECC_CORRECTED pa 0 fixed.length
  let s := if bad.isEmpty then s else s.feedFault j.g j.p (0x30 + j.g)
  let j := if bad.isEmpty then j else j.fail 6 0 f.pass
  let res := logicalResults j.shape f.phys
  let els : List (Option (Nat × Bool)) := (List.range j.n).map (fun n =>
    if bad.any (fun x => decide (first + n * w ≤ x) && decide (x < first + n * w + w)) then none
    else some (j.accumulate f res i.imagOut reads n (s.rdNat (accKey pa (4 * (first + n * w))) (4 * w))))
  let nOver := (els.filter (fun e => e.any (fun x => x.2))).length
  let j := { j with exactRange := j.exactRange + nOver }
  let s := if j.echo then s else s.inc F.SPR_CENSUS_D_EXACT_RANGE pa 0 nOver
  let acc := els.map (fun e => e.map (fun x => x.1))
  let r : State × Job := s.putAcc j sl f.slot acc
  let r : State × Job := if j.final && j.lastInto f.pass then r.1.lastStages r.2 i.imagOut sl f.pass f.slot acc else r
  let s := r.1
  let ps := s.pa pa
  let kept := bad ++ ps.badWords.filter (fun x => !here x)
  let lam : Int := if r.2.accum = 2 then r.2.lambda else 0
  let wrote := (els.zipIdx.filter (fun x => x.1.isSome)).map (fun x => (first + x.2 * w) / 65536)
  let s := s.setPa pa { ps.putSlot { f with drained := true } with
    badWords := kept, quarters := ps.quarters.mapIdx (fun q x => if q ∈ wrote then (r.2.accum, lam) else x) }
  (s.giveCredits pa (creditsBack j.held.length r.2.held.length)).putJob { r.2 with drained := r.2.drained + 1 }

/-- Cycles from the last column result at the foot to the drain's last write (*Drain latency*). -/
def Job.drainLag (j : Job) (pass : Nat) : Nat :=
  if !(j.final && j.lastInto pass) then 8 else if j.fuse then 16 else 12

/-- DRAIN_SLOT (R100, R105, R112): the oldest slot in flight, its last result written in cycle `cyc`. -/
def execDrainSlot (t pa cyc : Nat) (corrected uncorrected : List Nat) (s : State) : Out :=
  let s := s.tick t
  inst (pa < 272)
    (match (s.pa pa).slots.find? (fun f => !f.drained) with
     | none => s
     | some f =>
       match s.job f.job with
       | none => s
       | some j =>
         let foot := f.start + j.w + (if j.strict then 4098 else 258) + (if j.shape = 3 then 255 else shapeN j.shape - 1) + shapeExtra j.shape
         if cyc < foot + j.drainLag f.pass then s else s.drain pa j f corrected uncorrected)

end Sys2Proof.Machine
end

