-- ==== Sys2Proof/Machine/Stairway.lean ====
section
/-!
DEFINITION. Sys2Proof/Machine/Stairway.lean: stairway commands, their checks, and the copies that engines make slot by slot (spec/06).
-/

namespace Sys2Proof.Machine

/-! ### Command fields (R126) -/

def Job.srcAddr (j : Job) : Nat := leAt j.cmd 0 8
def Job.dstAddr (j : Job) : Nat := leAt j.cmd 8 8
def Job.srcScaleAddr (j : Job) : Nat := leAt j.cmd 16 8
def Job.srcPitch (j : Job) : Nat := leAt j.cmd 24 4
def Job.srcRows (j : Job) : Nat := leAt j.cmd 28 2 + 1
def Job.srcCols (j : Job) : Nat := leAt j.cmd 30 2 + 1
/-- LAYOUT kind: 0 LINEAR, 1 STREAM, 2 SHADOW. -/
def Job.layKind (j : Job) : Nat := bits (leAt j.cmd 32 1) 0 3
def Job.layShape (j : Job) : Nat := bits (leAt j.cmd 32 1) 3 2
/-- TRANSPOSE acts on STREAM and SHADOW layouts (notes/assumptions/42.md). -/
def Job.transpose (j : Job) : Bool := (leAt j.cmd 32 1).testBit 5 && decide (j.layKind ≠ 0)
def Job.paired (j : Job) : Bool := (leAt j.cmd 32 1).testBit 6
def Job.imagSel (j : Job) : Nat := bits (leAt j.cmd 32 1) 7 1
def Job.srcFmt (j : Job) : Nat := leAt j.cmd 33 1
def Job.dstFmt (j : Job) : Nat := leAt j.cmd 34 1
def Job.convMode (j : Job) : Nat := bits (leAt j.cmd 35 1) 0 2
def Job.convPolicy (j : Job) : Nat := bits (leAt j.cmd 35 1) 2 1
def Job.dstKind (j : Job) : Nat := bits (leAt j.cmd 35 1) 3 2
def Job.srcTs (j : Job) : Nat := leAt j.cmd 36 1
def Job.dstTs (j : Job) : Nat := leAt j.cmd 37 1
def Job.doneBell (j : Job) : Nat := leAt j.cmd 38 2
def Job.dstOriginRow (j : Job) : Nat := leAt j.cmd 48 4
def Job.dstOriginCol (j : Job) : Nat := leAt j.cmd 52 4
/-- Elements in a source row. -/
def Job.srcElems (j : Job) : Nat := if j.paired then 2 * j.srcCols else j.srcCols
/-- The engine's index. -/
def Job.engine (j : Job) : Nat := j.unit - 16

/-- Slots or rows along the first destination axis (STREAM slots, SHADOW k, LINEAR rows), and elements along the second. -/
def Job.dstX (j : Job) : Nat := if j.transpose then j.srcCols else j.srcRows
def Job.dstY (j : Job) : Nat := if j.transpose then j.srcRows else j.srcCols

/-- M of a STREAM, N of a SHADOW destination. -/
def Job.dstExtent (j : Job) : Nat := if j.layKind = 1 then j.dstX else j.dstY

/-- Geometry of the destination planes. -/
def Job.dstGeom (j : Job) : Geom :=
  if j.layKind = 1 then streamGeom j.layShape j.dstFmt j.of_ j.dstKind j.dstX else shadowGeom j.dstFmt j.of_ j.dstKind

/-- Bytes between rows of a LINEAR destination. -/
def Job.linPitch (j : Job) : Nat := up64 (ceilDiv (j.srcCols * j.of_.b) 8)

/-- Bytes of the destination from DST_ADDR. -/
def Job.dstLen (j : Job) : Nat :=
  if j.layKind = 0 then j.srcRows * j.linPitch + (if j.dstKind = 2 then j.srcRows * ceilDiv j.srcCols 32 else 0)
  else 64 + planesOf j.dstFmt * j.dstGeom.plane

/-! ### The checks of R127 -/

/-- The running command of engine `e` of AGg. -/
def State.copyOn (s : State) (g e : Nat) : Option Job :=
  s.jobs.find? (fun j => decide (j.g = g) && decide (j.unit = 16 + e) && !j.ended)

/-- Whether two ranges of device addresses meet. -/
def spansMeet (a la b lb : Nat) : Bool := decide (a < b + lb) && decide (b < a + la)

/-- Code 04h: the destination meets that of another active command of the die, or a tile of a started MATMUL of the die. -/
def State.dstBusy (s : State) (j : Job) : Bool :=
  s.jobs.any (fun k =>
    decide (dieOf k.g = dieOf j.g) && decide (k.id ≠ j.id) &&
    (if k.op = 2 then
       !k.echo && !k.ended && decide ((s.copyOn k.g k.engine).map Job.id = some k.id) && spansMeet j.dstAddr j.dstLen k.dstAddr k.dstLen
     else if k.op = 1 then
       (List.range k.passes).any (fun q =>
         spansMeet j.dstAddr j.dstLen (k.xTile q) (64 + planesOf k.xFmt * (streamGeom k.shape k.xFmt k.xf k.xKind k.m).plane)
         || spansMeet j.dstAddr j.dstLen (k.yTile q) (64 + planesOf k.yFmt * (shadowGeom k.yFmt k.yf k.yKind).plane))
     else false))

/-- Code 03h: some page of the destination is not pinned near the group's cupola die (R142). -/
def State.notNear (s : State) (j : Job) : Bool :=
  (pagesOf j.dstAddr j.dstLen).any (fun v =>
    let e := s.pmEntry v
    !(pmValid e && decide (pmLoc e = 1) && decide (pmPlace e = dieOf j.g) && decide (v < 2 ^ 24)))

/-- The custom slots as the descriptor latched them at its start (R56). -/
def Job.fmtSlot (j : Job) (n : Nat) : FmtSlot := agetD j.fslots n ⟨false, 0, ⟨false, 0, 0, 0, 0, false⟩⟩

/-- The lowest code of R127 a command fails before it writes, 0 for none. Custom formats are judged as latched at the descriptor's start
(R56). -/
def State.copyCheck (s : State) (j : Job) : Nat :=
  let allows := fun (code kind : Nat) => kindOk j.fmtSlot code kind
  let srcOk := if j.srcScaleAddr ≠ 0 then allows j.srcFmt 2 && decide (j.srcTs = 0x7F)
    else if j.srcTs ≠ 0x7F then allows j.srcFmt 1
    else allows j.srcFmt 0 || allows j.srcFmt 1
  let k := j.layKind
  if (fmtOf j.fmtSlot j.srcFmt).isNone ∨ (fmtOf j.fmtSlot j.dstFmt).isNone ∨ !srcOk ∨ j.dstKind = 3 ∨ !allows j.dstFmt j.dstKind
      ∨ j.convMode = 3 ∨ (j.dstKind ≠ 1 ∧ j.dstTs ≠ 0x7F) ∨ (k ≠ 0 ∧ planesOf j.dstFmt ≠ 1 ∧ j.layShape = 2) then 1
  else if 2 < k ∨ bits (leAt j.cmd 35 1) 5 3 ≠ 0 ∨ bits j.doneBell 12 3 ≠ 0 ∨ !allZero (slice j.cmd 56 8) ∨ j.srcAddr % 16 ≠ 0
      ∨ j.srcPitch % 16 ≠ 0 ∨ j.dstAddr % (if k = 0 then 64 else 4096) ≠ 0
      ∨ (k = 1 ∧ (1024 < j.dstX ∨ shapeK j.layShape < j.dstY))
      ∨ (k = 2 ∧ (shapeK j.layShape < j.dstX ∨ shapeN j.layShape < j.dstY)) then 2
  else if k ≠ 0 ∧ s.notNear j then 3
  else if !j.echo && s.dstBusy j then 4
  else 0

/-! ### Source elements and conversion (R130, R131, R501) -/

/-- Whether the copy is bit-exact (R130): a last destination block of fewer than 32 source elements counts as taking them from one source
block (DEDUCED, notes/assumptions/81.md). -/
def Job.bitExact (j : Job) : Bool :=
  decide (j.srcFmt = j.dstFmt) && decide (j.srcTs = j.dstTs) && decide ((j.srcScaleAddr ≠ 0) ↔ (j.dstKind = 2))
    && (j.srcScaleAddr = 0
        || (!j.paired && (j.layKind = 0 || (j.layKind = 1 && !j.transpose) || (j.layKind = 2 && j.transpose))))

/-- Source row and element that destination position (x, y) takes. -/
def Job.srcOf (j : Job) (x y : Nat) : Nat × Nat := if j.transpose then (y, x) else (x, y)

/-- Bits of a source element and its block scale, or the stairway code of a failed read. -/
def State.srcRead (s : State) (j : Job) (i e : Nat) : Option Nat × Nat × Nat × State :=
  let q := if j.paired then 2 * e + j.imagSel else e
  let sc : ReadErr × Nat × State :=
    if j.srcScaleAddr = 0 then (none, 0x7F, s)
    else s.readBits j (0x20 + j.g) (j.srcScaleAddr + i * ceilDiv j.srcElems 32 + q / 32) 0 8
  match sc with
  | (some c, _, s) => (some (if c = 0 then 5 else stwCode c), 0, 0, s)
  | (none, b, s) =>
    match s.readBits j (0x20 + j.g) (j.srcAddr + i * j.srcPitch) (j.xf.b * q) j.xf.b with
    | (some c, _, s) => (some (if c = 0 then 5 else stwCode c), 0, 0, s)
    | (none, v, s) => (none, v, b, s)

/-- One element on its way into the destination: its position there, raw source bits, block scale and exact value. -/
structure CopyEl where
  x : Nat
  y : Nat
  raw : Nat
  sc : Nat
  val : Val
  deriving DecidableEq, Repr

/-- The traffic of the source elements and scales of positions `ps`, row by row (R230). -/
def State.copyTraffic (s : State) (j : Job) (ps : List (Nat × Nat)) : State :=
  let es := ps.map (fun p => j.srcOf p.1 p.2)
  ((es.map (fun e => e.1)).dedup).foldl (fun (s : State) i =>
    let qs := (es.filter (fun e => e.1 = i)).map (fun e => if j.paired then 2 * e.2 + j.imagSel else e.2)
    let lo := qs.foldl min (qs.headD 0)
    let hi := qs.foldl max 0
    let row := j.srcAddr + i * j.srcPitch
    let a := row + j.xf.b * lo / 8
    let s := s.traffic (dieOf j.g) (0x20 + j.g) a (row + ceilDiv (j.xf.b * (hi + 1)) 8 - a) false
    if j.srcScaleAddr = 0 then s
    else s.traffic (dieOf j.g) (0x20 + j.g) (j.srcScaleAddr + i * ceilDiv j.srcElems 32 + lo / 32) (hi / 32 - lo / 32 + 1) false) s

/-- Reads the elements of positions `ps` in order. -/
def State.copyRead (s : State) (j : Job) (ps : List (Nat × Nat)) : Option Nat × List CopyEl × State :=
  let r := ps.foldl (fun (a : Option Nat × List CopyEl × State) p =>
    match a with
    | (some c, l, s) => (some c, l, s)
    | (none, l, s) =>
      let ie := j.srcOf p.1 p.2
      match s.srcRead j ie.1 ie.2 with
      | (some c, _, _, s) => (some c, l, s)
      | (none, v, b, s) =>
        let x := ((j.xf.decode (decide (j.srcScaleAddr ≠ 0)) v).scaled b).scaled j.srcTs
        (none, l ++ [⟨p.1, p.2, v, b, x⟩], s)) (none, [], s)
  if r.1.isSome then r else (none, r.2.1, r.2.2.copyTraffic j ps)

/-- Converts the elements of one destination block (or any group where there are no blocks): its scale, and bits with outcomes. -/
def Job.copyConv (j : Job) (els : List CopyEl) : Nat × List (Nat × Nat) :=
  if j.bitExact then ((els.head?.map CopyEl.sc).getD 0x7F, els.map (fun e => (e.raw, 7)))
  else
    let sc := if j.dstKind = 2 then j.of_.blockScale (els.map CopyEl.val) else 0x7F
    (sc, els.map (fun e =>
      let ij := j.srcOf e.x e.y
      let r := if j.convMode = 1 then
          carillon j.seed j.step j.tensor ((j.dstOriginRow + ij.1) % 2 ^ 32) ((j.dstOriginCol + ij.2) % 2 ^ 32) 0xFFFE else 0
      if j.dstKind = 2 then j.of_.blockElem sc (e.val.unscaled j.dstTs) j.convMode j.convPolicy r
      else if j.srcScaleAddr = 0 ∧ j.srcTs = 0x7F ∧ j.dstKind = 0 then j.of_.convertFrom j.xf e.val j.convMode j.convPolicy r
      else j.of_.convert false (e.val.unscaled j.dstTs) j.convMode j.convPolicy r))

/-- Counts conversions: outcome counts and amax of the command, and STW_CONV unless it is an echo. -/
def State.copyCount (s : State) (j : Job) (els : List CopyEl) (oc : List Nat) : State × Job :=
  if j.bitExact then (s, j)
  else
    let n := fun (k : Nat) => (oc.filter (fun o => o = k)).length
    let j := { j with counts := j.counts.zipIdx.map (fun c => c.1 + n c.2), amax := (els.map (fun e => amaxOf e.val)).foldl max j.amax }
    if j.echo then (s, j)
    else ((s.inc F.STW_CONV_OVERFLOW j.g j.engine (n ocOverflow)).inc F.STW_CONV_VANISHED j.g j.engine (n ocVanished), j)

/-! ### Words (R144, R145) -/

/-- The record of word `i` of an element with bits `v` in FP32 (0x12) or FP64, its sign that of the bits, a NaN's too (R145); other formats
keep their bits. -/
def wordRecord (code : Nat) (f : Fmt) (v i : Nat) : Nat :=
  if planesOf code = 1 then v
  else
    let x := f.decode false v
    let sgn := if v.testBit (f.b - 1) then 2 ^ 24 else 0
    match x.cls with
    | .zero => sgn
    | .inf => sgn + 2 * 2 ^ 22
    | .nan => sgn + 3 * 2 ^ 22
    | .fin =>
      let rho := if code = 0x13 then (x.ulp % 4).toNat else 0
      let u := x.ulp - rho + 12 * i
      let e := if code = 0x13 then u / 4 else u
      sgn + 2 ^ 22 + unsigned e 10 * 2 ^ 12 + bits (x.mag * 2 ^ rho) (12 * i) 12

/-! ### Column sums (R139, R140) -/

/-- A contribution enters a running column sum; `p` is the precision of its format. -/
def csumEnter (r : ColRes × Bool) (x : Val) (p : Nat) : ColRes × Bool :=
  let c := r.1
  let pi := c.pinf || (decide (x.cls = .inf) && !x.neg)
  let ni := c.ninf || (decide (x.cls = .inf) && x.neg)
  let c := { c with nan := c.nan || decide (x.cls = .nan) || (pi && ni), pinf := pi, ninf := ni }
  if !x.enters then (c, r.2)
  else
    let y := x.ulp + p
    let c := if c.some_ then c else { c with anchor := y, reg := 0, some_ := true }
    let lost := decide (c.anchor < y) && decide (c.reg % 2 ^ (y - c.anchor).toNat ≠ 0)
    let c := if c.anchor < y then { c with reg := shiftFloor c.reg (c.anchor - y), anchor := y } else c
    let k := x.ulp - (c.anchor - 304)
    let mg : Int := if 0 ≤ k then (x.mag * 2 ^ k.toNat : Nat) else (x.mag / 2 ^ (-k).toNat : Nat)
    let cut := decide (k < 0) && decide (x.mag % 2 ^ (-k).toNat ≠ 0)
    ({ c with reg := c.reg + (if x.neg then -mg else mg) }, r.2 || lost || cut)

/-- The 48 bytes of a column sum record. -/
def csumBytes (r : ColRes × Bool) : Bytes :=
  let c := r.1
  natLe 40 (unsigned c.reg 320) ++ natLe 2 (if c.some_ then unsigned (c.anchor - 304) 16 else 0)
    ++ natLe 1 ((if c.nan then 1 else 0) + (if c.pinf then 2 else 0) + (if c.ninf then 4 else 0) + (if r.2 then 8 else 0)) ++ natLe 5 0

/-! ### Completion (R127, R128, R133) -/

/-- The first failure of a group's engines (STW_FIRST). -/
def State.stwFirst (s : State) (g e code addr : Nat) : State :=
  if s.on F.STW_FIRST_VALID g then s
  else (((s.wr F.STW_FIRST_VALID 1 g).wr F.STW_FIRST_ENGINE e g).wr F.STW_FIRST_CODE code g).wr F.STW_FIRST_CMD_ADDR (bits addr 6 42) g

/-- The address of a COPY's command. -/
def Job.cmdAddr (j : Job) : Nat := leAt j.desc 16 6

/-- The command ends with a code: LAST_CODE and STW_FIRST, DONE_BELL rings once, and the descriptor may retire. An echo rings nothing. -/
def State.endCopy (s : State) (j : Job) (code : Nat) : State :=
  let s := (s.wr F.STW_PROG_LAST_CODE code j.g j.engine).wr F.STW_CMD_ACTIVE 0 j.g j.engine
  let s := if code ≠ 0 then s.stwFirst j.g j.engine code j.cmdAddr else s
  let s := if j.doneBell.testBit 15 && !j.echo then s.sendRing j.p (bits j.doneBell 0 12) 1 (0x20 + j.g) else s
  s.putJob { (if code = 0 then j else j.fail 0x0A code 0) with ended := true }

/-- A write of the engine, counted in STW_BYTES by `n` bytes unless it is an echo's. -/
def State.copyWrite (s : State) (j : Job) (addr : Nat) (b : Bytes) (n : Nat) : Option Nat × State × Job :=
  match s.jobWrite j (0x20 + j.g) addr b with
  | (some c, s, j) => (some (stwCode c), s, j)
  | (none, s, j) => (none, if j.echo then s else s.inc F.STW_BYTES_BYTES j.g j.engine n, j)

/-- Stops a copy that has begun: STATE failed and the code go into the tile header (R128). -/
def State.failCopy (s : State) (j : Job) (code : Nat) : State :=
  let r : Option Nat × State × Job := if j.layKind = 0 then (none, s, j) else s.jobWrite j (0x20 + j.g) (j.dstAddr + 26) (natLe 1 2 ++ natLe 1 code)
  r.2.1.endCopy r.2.2 code

/-- The tile header as it stands at the start of a copy (R132). -/
def Job.header (j : Job) : Bytes :=
  let ge := j.dstGeom
  let st := decide (j.layKind = 1)
  natLe 1 (bits (leAt j.cmd 32 1) 0 5) ++ natLe 1 j.dstFmt ++ natLe 1 (j.dstKind + 16 * planesOf j.dstFmt)
    ++ natLe 1 (if st then ge.period else 0) ++ natLe 2 (j.dstExtent - 1) ++ natLe 2 (shapeK j.layShape - 1) ++ natLe 4 ge.line
    ++ natLe 4 ge.plane ++ natLe 4 ge.scaleOff ++ natLe 4 (if st then ge.sumOff else 0) ++ natLe 2 0 ++ natLe 1 0 ++ natLe 1 0
    ++ natLe 1 j.gen ++ natLe 1 j.dstTs ++ natLe 2 0 ++ slice j.cmd 40 4 ++ slice j.cmd 44 4 ++ slice j.cmd 48 4 ++ slice j.cmd 52 4
    ++ natLe 16 0

/-- An engine takes up the command of `j`: it checks it and writes the tile header. -/
def State.beginCopy (s : State) (j : Job) : State :=
  let s := ((s.wr F.STW_CMD_CMD_ADDR (j.cmdAddr / 64) j.g j.engine).wr F.STW_CMD_ACTIVE 1 j.g j.engine).wr F.STW_PROG_READY 0 j.g j.engine
  let code := s.copyCheck j
  if code ≠ 0 then s.endCopy j code
  else
    let j := { j with csums :=
      if j.layKind = 1 then List.replicate (planesOf j.dstFmt * shapeK j.layShape) ({ ColRes.start with negZero := false }, false) else [] }
    if j.layKind = 0 then s.putJob j
    else
      match s.copyWrite j j.dstAddr j.header 64 with
      | (some c, s, j) => s.endCopy j c
      | (none, s, j) => s.putJob j

/-- After a command of an engine has ended, the staged one begins (R152), and so on. -/
def State.nextCopy (s : State) (g e : Nat) : Nat → State
  | 0 => s
  | fuel + 1 =>
    if s.on F.STW_CMD_ACTIVE g e then s
    else
      match s.copyOn g e with
      | none => s
      | some j => (s.beginCopy j).nextCopy g e fuel

/-! ### Slots and rows -/

/-- Several writes in order, each with the bytes it counts. -/
def State.copyWrites (s : State) (j : Job) (ws : List (Nat × Bytes × Nat)) : Option Nat × State × Job :=
  ws.foldl (fun (a : Option Nat × State × Job) w =>
    match a with
    | (some c, s, j) => (some c, s, j)
    | (none, s, j) => s.copyWrite j w.1 w.2.1 w.2.2) (none, s, j)

/-- Line bytes with `w` bits of `v` put at bit `off`. -/
def putBits (line : Nat) (off w v : Nat) : Nat :=
  line - bits line off w * 2 ^ off + v % 2 ^ w * 2 ^ off

/-- Blocks of 32 consecutive k of a list of destination elements along y: converted scale by block and (element, bits, outcome). -/
def Job.convRuns (j : Job) (els : List CopyEl) (blockOf : CopyEl → Nat) : List (Nat × Nat) × List (CopyEl × Nat × Nat) :=
  let keys := (els.map blockOf).dedup
  let rs := keys.map (fun k =>
    let es := els.filter (fun e => blockOf e = k)
    let c := j.copyConv es
    ((k, c.1), es.zip c.2))
  (rs.map (fun r => r.1), rs.flatMap (fun r => r.2))

/-- STREAM slot `g` in every plane: lines, scales and column sums (R135, R139). -/
def State.streamSlot (s : State) (j : Job) (slot : Nat) : Option Nat × State × Job :=
  match s.copyRead j ((List.range j.dstY).map (fun k => (slot, k))) with
  | (some c, _, s) => (some c, s, j)
  | (none, els, s) =>
    let ge := j.dstGeom
    let kk := shapeK j.layShape
    let be := planeBits j.dstFmt j.of_
    let rf := if j.layShape = 3 then 128 else 256
    let cv := j.convRuns els (fun e => e.y / 32)
    let ct := s.copyCount j els (cv.2.map (fun x => x.2.2))
    let j := ct.2
    let codes := (List.range kk).map (fun k => ((cv.2.find? (fun x => x.1.y = k)).map (fun x => x.2.1)).getD (j.of_.zeroBits false))
    let scaleAt := fun (k : Nat) => if j.dstKind = 2 then (aget cv.1 (k / 32)).getD 0x7F else if j.dstKind = 1 then j.dstTs else 0x7F
    let np := planesOf j.dstFmt
    let csums := j.csums.zipIdx.map (fun c =>
      let k := c.2 % kk
      csumEnter c.1 ((elemVal j.dstFmt j.of_ j.dstKind (scaleAt k) (wordRecord j.dstFmt j.of_ (codes.getD k 0) (c.2 / kk))).scaled (scaleAt k))
        (wordP j.dstFmt j.of_))
    let writes := (List.range np).flatMap (fun i =>
      let base := j.dstAddr + 64 + i * ge.plane
      let lines := (List.range rf).map (fun r =>
        let a := base + (ge.period * slot + r) * ge.line
        let fresh := slot = 0 ∨ rf ≤ r + ge.period
        let old := if fresh then 0 else leNat ((List.range ge.line).map (fun b => ct.1.oldByte j (a + b)))
        let new := (List.range (shapeSegs j.layShape)).foldl (fun l sg =>
          putBits l (be * (sg * ge.q + r / ge.period)) be (wordRecord j.dstFmt j.of_ (codes.getD (256 * sg + r) 0) i)) old
        (a, natLe ge.line new, if fresh then ge.line else 0))
      let scales := if j.dstKind = 2 then
          [(base + ge.scaleOff + slot * (kk / 32), (List.range (kk / 32)).map (fun b => BitVec.ofNat 8 (scaleAt (32 * b))), kk / 32)]
        else []
      let sums := if slot + 1 = j.dstX then
          [(base + ge.sumOff, (List.range kk).flatMap (fun k => csumBytes (csums.getD (i * kk + k) (ColRes.start, false))), 48 * kk)]
        else []
      lines ++ scales ++ sums)
    ct.1.copyWrites { j with csums := csums } writes

/-- SHADOW row `r` in every plane, with the scale row where it starts a group (R138). -/
def State.shadowRow (s : State) (j : Job) (r : Nat) : Option Nat × State × Job :=
  let sh := j.layShape
  let inside := fun (k n : Nat) => decide (k < j.dstX) && decide (n < j.dstY)
  -- a row's block scales come from all 32 rows of its group
  let rows := if j.dstKind = 2 then (List.range 32).map (fun i => r / 32 * 32 + i) else [r]
  let pos := (rows.flatMap (fun q => (List.range 256).map (fun c => (kAt sh q c, nAt sh q c)))).filter (fun p => inside p.1 p.2)
  match s.copyRead j pos with
  | (some c, _, s) => (some c, s, j)
  | (none, els, s) =>
    let ge := j.dstGeom
    let be := planeBits j.dstFmt j.of_
    let mine := (List.range 256).map (fun c => (kAt sh r c, nAt sh r c))
    let cv := if j.dstKind = 2 then j.convRuns els (fun e => e.x / 32 * 512 + e.y) else
      let c := j.copyConv els
      ([], els.zip c.2)
    let now := cv.2.filter (fun x => mine.contains (x.1.x, x.1.y))
    let ct := s.copyCount j (now.map (fun x => x.1)) (now.map (fun x => x.2.2))
    let j := ct.2
    let code := fun (p : Nat × Nat) => ((now.find? (fun x => x.1.x = p.1 ∧ x.1.y = p.2)).map (fun x => x.2.1)).getD (j.of_.zeroBits false)
    let writes := (List.range (planesOf j.dstFmt)).flatMap (fun i =>
      let base := j.dstAddr + 64 + i * ge.plane
      let rec_ := (mine.zipIdx.map (fun p => wordRecord j.dstFmt j.of_ (code p.1) i % 2 ^ be * 2 ^ (be * p.2))).sum
      let scales := if j.dstKind = 2 ∧ r % 32 = 0 then
          [(base + ge.scaleOff + 256 * (r / 32),
            mine.map (fun p => BitVec.ofNat 8 ((aget cv.1 (p.1 / 32 * 512 + p.2)).getD 0x7F)), 256)]
        else []
      scales ++ [(base + r * ge.line, natLe ge.line rec_, ge.line)])
    ct.1.copyWrites j writes

/-- LINEAR row `i` with its scale bytes (R126, R501). -/
def State.linearRow (s : State) (j : Job) (i : Nat) : Option Nat × State × Job :=
  match s.copyRead j ((List.range j.srcCols).map (fun e => (i, e))) with
  | (some c, _, s) => (some c, s, j)
  | (none, els, s) =>
    let cv := j.convRuns els (fun e => e.y / 32)
    let ct := s.copyCount j els (cv.2.map (fun x => x.2.2))
    let b := j.of_.b
    let row := (cv.2.map (fun x => x.2.1 % 2 ^ b * 2 ^ (b * x.1.y))).sum
    let n := ceilDiv (j.srcCols * b) 8
    let nb := ceilDiv j.srcCols 32
    ct.1.copyWrites ct.2 ([(j.dstAddr + i * j.linPitch, natLe n row, n)] ++
      (if j.dstKind = 2 then
        [(j.dstAddr + j.srcRows * j.linPitch + i * nb, (List.range nb).map (fun k => BitVec.ofNat 8 ((aget cv.1 k).getD 0x7F)), nb)] else []))

/-- READY rises after every byte of a slot or row is written; on the last one the header becomes complete (R133). -/
def State.copyRaise (s : State) (j : Job) : State :=
  let n := j.rows + 1
  let total := if j.layKind = 2 then 256 else if j.layKind = 1 then j.dstX else j.srcRows
  let j := { j with rows := n }
  let s := (s.wr F.STW_PROG_READY (n % 2048) j.g j.engine).progress j.p
  let w : Option Nat × State × Job := if j.layKind = 0 then (none, s, j)
    else s.jobWrite j (0x20 + j.g) (j.dstAddr + 24) (natLe 2 n ++ natLe 1 (if n = total then 1 else 0))
  match w with
  | (some c, s, j) => s.failCopy j (stwCode c)
  | (none, s, j) => if n = total then s.endCopy j 0 else s.putJob j

/-- The next slot or row of a copy, by its destination layout. -/
def State.copyRow (s : State) (j : Job) : Option Nat × State × Job :=
  match j.layKind with
  | 0 => s.linearRow j j.rows
  | 1 => s.streamSlot j j.rows
  | _ => s.shadowRow j j.rows

/-- STAIRWAY_SLOT_WRITTEN (R128, R133): engine `e` finishes the next slot or row in every plane. -/
def execStairwaySlotWritten (t g e : Nat) (s : State) : Out :=
  let s := s.tick t
  inst (g < 16 ∧ e < 4)
    (match s.copyOn g e with
     | none => s
     | some j =>
       if !s.on F.STW_CMD_ACTIVE g e then s
       else
         let s := match s.copyRow j with
           | (some c, s, j) => s.failCopy j c
           | (none, s, j) => s.copyRaise j
         s.nextCopy g e 2)

/-- STAIRWAY_SOURCE_ERROR (R128): the engine meets an uncorrected error or a failed page check in its source; the copy stops. -/
def execStairwaySourceError (t g e check : Nat) (s : State) : Out :=
  let s := s.tick t
  inst (g < 16 ∧ e < 4 ∧ check < 5)
    (match s.copyOn g e with
     | none => s
     | some j =>
       if !s.on F.STW_CMD_ACTIVE g e then s
       else
         let m := 0x20 + g
         let s := if check = 0 then s.raise { cls := 0, level := 1, master := m, access := 1, part := j.p, source := m }
           else s.accessFault check (dieOf g) m j.p (j.srcAddr + j.rows * j.srcPitch) false
         (s.failCopy j (if check = 0 ∨ check = 4 then 5 else 6)).nextCopy g e 2)

end Sys2Proof.Machine
end

