-- ==== Sys2Proof/Machine/Validate.lean ====
section
/-!
DEFINITION. Sys2Proof/Machine/Validate.lean: the checks a sequencer makes of a descriptor when it reaches the head of its context, and the
rejection details they give (spec/07, R161).
-/

namespace Sys2Proof.Machine

/-! ### Header and region fields (R154, R159, R160) -/

def Job.waitBell (j : Job) : Nat := leAt j.desc 2 2
def Job.waitCount (j : Job) : Nat := leAt j.desc 4 1
def Job.waitField (j : Job) : Nat := leAt j.desc 5 1
def Job.waits (j : Job) : Bool := j.waitBell.testBit 15
def Job.fence (j : Job) : Bool := j.flags.testBit 0
def Job.watch (j : Job) : Bool := j.flags.testBit 2
def Job.progAddr (j : Job) : Nat := leAt j.desc 16 6
def Job.argAddr (j : Job) : Nat := leAt j.desc 22 6
def Job.span (j : Job) : Nat := leAt j.desc 16 2
def Job.levelMax (j : Job) : Nat := leAt j.desc 18 1
def Job.altAddr (j : Job) : Nat := leAt j.desc 20 6

/-- Fused operation and row operation as the last pass runs them: not at all with FINAL = 0 (notes/assumptions/43.md). -/
def Job.fz (j : Job) : Bool := j.final && j.fuse
def Job.rz (j : Job) : Nat := if j.final then j.rowOp else 0

/-! ### 01h -/

/-- A header with a reserved value (R154). -/
def Job.badHeader (j : Job) : Bool :=
  decide (bits j.flags 3 5 ≠ 0) || decide (bits j.waitBell 12 3 ≠ 0) || decide (bits j.ringBell 12 3 ≠ 0)
    || decide (leAt j.desc 10 2 ≠ 0) || (decide (j.op ≠ 1) && decide (j.op ≠ 2) && decide (j.target ≠ 0))
    || (j.waits && (decide (j.waitCount = 0) || decide (bits j.waitField 6 2 = 3)))
    || (j.ringBell.testBit 15 && decide (j.ringCount = 0))

/-- An extension with a reserved value (R155, R158). -/
def Job.badExt (j : Job) : Bool :=
  decide (leAt j.ext 0 1 ≠ 0x0F) || !allZero (slice j.ext 1 15) || decide (bits (leAt j.ext 23 1) 6 2 ≠ 0)
    || decide (bits (leAt j.ext 32 1) 1 7 ≠ 0) || decide (bits (leAt j.ext 33 1) 5 3 ≠ 0) || !allZero (slice j.ext 58 6)
    || (j.fz && (decide (j.broadcast = 3) || decide (j.fusedAddr % 64 ≠ 0)))
    || decide (j.rz = 3) || (decide (j.rz ≠ 0) && decide (j.rowvAddr % 64 ≠ 0))
    || (decide (j.accum = 2) && decide (254 < j.beta.natAbs))
    || decide (bits (leAt j.ext 34 2) 12 4 ≠ 0) || decide (bits (leAt j.ext 36 2) 12 4 ≠ 0)
    || (j.exports && decide (j.redClass = 3))
    || (j.complex && (decide (j.xImagAddr % 4096 ≠ 0) || decide (j.yImagAddr % 4096 ≠ 0)))
    || (j.complex && j.writesOut && decide (j.outImagAddr % 64 ≠ 0))

/-- The body of a MATMUL with a reserved value or a misaligned address (R156). -/
def Job.badMatmul (j : Job) : Bool :=
  decide (j.accum = 3) || (leAt j.desc 44 1).testBit 7 || (leAt j.desc 45 1).testBit 7
    || decide (j.xAddr % 4096 ≠ 0) || decide (j.yAddr % 4096 ≠ 0) || (j.writesOut && decide (j.outAddr % 64 ≠ 0))
    || (j.hasExt && j.badExt)

/-- DETAIL 01h. -/
def Job.bad01 (j : Job) : Bool :=
  match j.op with
  | 0 => j.badHeader || !allZero (slice j.desc 16 48)
  | 1 => j.badHeader || j.badMatmul
  | 2 => j.badHeader || decide (leAt j.desc 16 6 % 64 ≠ 0) || !allZero (slice j.desc 22 42)
  | 3 => j.badHeader || decide (j.progAddr % 64 ≠ 0) || decide (j.argAddr % 64 ≠ 0) || !allZero (slice j.desc 36 28)
  | 5 => j.badHeader || decide (leAt j.desc 19 1 ≠ 0) || decide (j.altAddr % 64 ≠ 0) || !allZero (slice j.desc 26 38)
  | 6 => j.badHeader || !allZero (slice j.desc 16 48)
  | _ => true

/-! ### MATMUL details -/

/-- Whether a fused format converts exactly into the accumulator format (R69, R106). -/
def fitsAcc (wide : Bool) (f : Fmt) : Bool :=
  wide || f.int || (decide (f.p ≤ 24) && decide (-149 ≤ f.uMin false)
    && decide ((Nat.log2 (f.largest false).1 : Int) + (f.largest false).2 ≤ 127))

/-- Whether a format code names words (R144). -/
def multiword (code : Nat) : Bool := decide (planesOf code ≠ 1)

/-- Whether both formats are window-exact, where they are formats at all. -/
def State.exactCodes (s : State) (g x y : Nat) : Bool :=
  match s.fmt g x, s.fmt g y with
  | some a, some b => !multiword x && !multiword y && a.exact && b.exact
  | _, _ => true

/-- The failing details of a MATMUL that depend on the descriptor alone, lowest first (R161). -/
def State.matmulDetails (s : State) (j : Job) : List (Nat × Bool) :=
  let g := j.g
  let fx := s.fmt g j.xFmt
  let fy := s.fmt g j.yFmt
  let slots := [4, 2, 1].getD j.accum 1
  let permit := [F.AG_CONFIG_SQUARE_PERMIT, F.AG_CONFIG_TALL_PERMIT, F.AG_CONFIG_TALLER_PERMIT, F.AG_CONFIG_WIDE_PERMIT].getD j.shape
    F.AG_CONFIG_SQUARE_PERMIT
  let red := [F.AG_RED_PERMIT_ARRIVAL_PERMIT, F.AG_RED_PERMIT_ORDERED_PERMIT, F.AG_RED_PERMIT_EXACT_PERMIT].getD j.redClass
    F.AG_RED_PERMIT_EXACT_PERMIT
  let classMode := match j.redClass with
    | 0 => decide (j.accum = 0) && !j.accWide
    | 1 => (decide (j.accum = 0) && !j.accWide) || (decide (j.accum = 1) && j.accWide)
    | _ => decide (j.accum = 2) && !j.accWide
  [(0x02, fx.isNone || fy.isNone || (j.writesOut && (s.fmt g j.outFmt).isNone) || (j.fz && (s.fmt g j.fusedFmt).isNone)),
   (0x03, !s.scaleOk g j.xFmt j.xKind || !s.scaleOk g j.yFmt j.yKind || (j.writesOut && !s.scaleOk g j.outFmt j.outKind)),
   (0x04, fx.any (fun a => fy.any (fun b => a.int != b.int))),
   (0x05, !s.on permit g),
   (0x06, decide (slots ≤ j.slotNo + (if j.complex then 1 else 0))),
   (0x08, j.strict && (decide (j.accum = 2) || !s.on F.AG_CONFIG_STRICT_PERMIT g || decide (j.shape = 1) || decide (j.shape = 2)
      || multiword j.xFmt || multiword j.yFmt)),
   (0x09, (decide (j.accum = 2) || (j.exports && decide (j.redClass = 2))) && !s.exactCodes g j.xFmt j.yFmt),
   (0x0A, decide (2 ≤ j.accMode) || (j.writesOut && decide (j.outMode = 3))),
   (0x0B, decide (j.accMode = 1) && decide (0xFFFC < j.passBase + j.passes - 1 + (if j.fz then 1 else 0))),
   (0x0C, j.fz && (decide (j.accum = 2) || j.exports || !s.scaleOk g j.fusedFmt 0
      || !(s.fmt g j.fusedFmt).all (fun f => fitsAcc (decide (j.accum = 1)) f))),
   (0x0D, decide (j.rz ≠ 0) && decide (j.accum ≠ 0)),
   (0x0F, j.exports && (!s.on red g || !j.final || !classMode || j.complex)),
   (0x10, ((multiword j.xFmt || multiword j.yFmt) && (decide (j.xFmt ≠ j.yFmt) || decide (j.shape = 2)))
      || (decide (j.xFmt = 0x13) && decide (j.accum = 0))),
   (0x12, decide (j.accum = 2) && !j.hasExt),
   (0x13, decide (15 < j.target) || !(s.mapField g j.target).testBit 7)]

/-! ### Region rules (R175) -/

/-- Whether the descriptor stands at the closing slot of its region, or its extension at or beyond that slot. -/
def RegionSt.closing (r : RegionSt) (j : Job) : Bool × Bool :=
  if r.level = 0 then
    let d := (j.idx + 65536 - r.start) % 65536
    (decide (d = r.span - 1), decide (j.slots = 2) && decide (r.span - 1 ≤ d + 1))
  else (decide (j.idx = r.segCount - 1), decide (j.slots = 2) && decide (r.segCount - 1 ≤ j.idx + 1))

/-- DETAIL 11h. The COPY rule is judged only on a command that has been fetched (R498). -/
def State.bad11 (s : State) (j : Job) : Bool :=
  let reg := (s.ctx j.g j.c).bind (fun x => x.region)
  (j.watch && decide (j.op ≠ 1) && decide (j.op ≠ 2))
    || (decide (j.op = 5) && (reg.isSome || decide (j.span < 2) || decide (1024 < j.span) || decide (j.levelMax < 1) || decide (4 < j.levelMax)))
    || (match reg with
        | none => decide (j.op = 6)
        | some r =>
          let c := r.closing j
          (decide (j.op = 6) != c.1) || c.2 || (decide (j.op = 1) && j.exports)
            || (decide (j.op = 2) && !j.cmd.isEmpty && j.doneBell.testBit 15))

/-- The lowest rejection detail of a descriptor at the head, 0 where it passes (R161). -/
def State.validate (s : State) (j : Job) : Nat :=
  let l : List (Nat × Bool) :=
    match j.op with
    | 1 => s.matmulDetails j
    | 2 => [(0x13, decide (3 < j.target))]
    | _ => []
  let fails := (l.filter (fun x => x.2)).map (fun x => x.1) ++ (if s.bad11 j then [0x11] else [])
  if j.bad01 then 1 else (fails.min?).getD 0

/-! ### Checks at start (R99, R110, R161) -/

/-- A MATMUL whose tile has `m` rows and `n` columns: the lowest failing detail, 0 for none. -/
def State.startDetail (s : State) (j : Job) (m n : Nat) : Nat :=
  let w := accWords j.accum
  let qs := (List.range (w * (if j.complex then 2 else 1))).map (fun i => w * j.slotNo + i)
  let lam : Int := if j.accum = 2 then j.lambda else 0
  if shapeN j.shape < n then 5
  else if 65536 < m * n then 6
  else if !j.clear && qs.any (fun q => decide ((s.pa j.pa).quarters.getD q (0, 0) ≠ (j.accum, lam))) then 7
  else if j.writesOut && decide (j.outKind = 2) && decide ((if j.axisM then m else n) % 32 ≠ 0) then 0x0E
  else 0

end Sys2Proof.Machine
end

