-- ==== Sys2Proof/Machine/Atomic.lean ====
section
/-!
DEFINITION. Sys2Proof/Machine/Atomic.lean: the memory-side atomic units: reduction entries, contributions, hold slots, commit and failure
(spec/05, R113 to R124, R499, R500).
-/

namespace Sys2Proof.Machine

/-! ### Reduction entries (R113 to R115) -/

/-- Fields of a reduction table entry. -/
def redDest (e : Bytes) : Nat := leAt e 0 8
def redWork (e : Bytes) : Nat := leAt e 8 8
def redElems (e : Bytes) : Nat := leAt e 40 2 + 1
def redContribs (e : Bytes) : Nat := leAt e 44 2 % 4096 + 1
def redLambda (e : Bytes) : Int := signed (leAt e 46 2) 16
def redClass (e : Bytes) : Nat := leAt e 48 1 % 4
def redWide (e : Bytes) : Bool := (leAt e 48 1).testBit 2
def redState (e : Bytes) : Nat := leAt e 54 1

/-- Bytes of a working value. -/
def redWidth (e : Bytes) : Nat := if redClass e = 2 then 40 else if redWide e then 8 else 4

/-- Device address of entry `h` of partition `p`. -/
def State.redAddr (s : State) (p h : Nat) : Nat := s.rd F.MEM_REDTAB_BASE p * 4096 + 64 * h

/-- Key of an entry among the atomic units' open entries. -/
def redKey (p h : Nat) : Nat := 4096 * p + h % 4096

def State.setAtu (s : State) (p h : Nat) (x : AtuEntry) : State := { s with atu := aset s.atu (redKey p h) x }

/-- Master code of an atomic unit: its stack controller, or its cupola die. -/
def unitMaster (u : Nat) : Nat := if u < 128 then 0x40 + u / 8 else 0x50 + (u - 128) / 4

/-- The unit that owns a memory key (R113). -/
def State.unitOfKey (s : State) (k : Nat) : Nat :=
  if k < 2 ^ 40 then
    match s.chanOf k with
    | some (st, ch, _) => 8 * st + ch / 8
    | none => 0
  else 128 + (k - 2 ^ 44) / 2 ^ 29

/-- Whether the layout of an entry is as R500 asks, VALID and STATE aside. A custom OUT_FORMAT names a slot of the partition's home group `g`
(DESIGN CHOICE, notes/assumptions/86.md). -/
def State.redSound (s : State) (g : Nat) (e : Bytes) : Bool :=
  let c := redClass e
  decide (redDest e % 64 = 0) && decide (redWork e % 4096 = 0) && decide (c ≠ 3) && (!redWide e || decide (c = 1))
    && (decide (leAt e 46 2 = 0) || decide (c = 2)) && (decide (leAt e 51 1 = 0) || decide (c = 1)) && (s.fmt g (leAt e 49 1)).isSome && s.scaleOk g (leAt e 49 1) 0
    && decide (leAt e 50 1 % 4 ≠ 3) && decide (leAt e 50 1 < 8) && decide (leAt e 48 1 < 8) && decide (bits (leAt e 44 2) 12 4 = 0)
    && decide (bits (leAt e 52 2) 12 4 = 0) && decide (bits (redState e) 2 5 = 0) && allZero (slice e 56 8)

/-! ### Rejection and failure (R114, R116, R117) -/

/-- A stack's or a slice's field of the atomic registers, with its instance. -/
def atuFld (u : Nat) (m c : Fld) : Fld × Nat := if u < 128 then (m, u / 8) else (c, u - 128)

/-- MEM_ATU_STATUS and CUP_ATU_STATUS show the open entries and the contributions partly received of a unit's stack or slice. -/
def State.showAtu (s : State) (u : Nat) : State :=
  let a := atuFld u F.MEM_ATU_STATUS_ACTIVE F.CUP_ATU_STATUS_ACTIVE
  let f := atuFld u F.MEM_ATU_STATUS_INFLIGHT F.CUP_ATU_STATUS_INFLIGHT
  let mine := s.atu.filter (fun e => decide (unitMaster e.2.unit = unitMaster u) && (decide (u < 128) || decide (e.2.unit = u)))
  (s.wr a.1 (min 255 (mine.filter (fun e => e.2.opened)).length) a.2).wr f.1
    (min 65535 ((mine.map (fun e => (e.2.ins.filter (fun i => !i.dead)).length)).sum)) f.2

/-- The field of MEM_ATU_REJECT or CUP_ATU_REJECT that counts a rejection code. -/
def rejectFld (u code : Nat) : Fld × Nat :=
  match code with
  | 1 => atuFld u F.MEM_ATU_REJECT_NOT_OPEN F.CUP_ATU_REJECT_NOT_OPEN
  | 2 => atuFld u F.MEM_ATU_REJECT_OWNER F.CUP_ATU_REJECT_OWNER
  | 3 => atuFld u F.MEM_ATU_REJECT_FORBIDDEN F.CUP_ATU_REJECT_FORBIDDEN
  | 4 => atuFld u F.MEM_ATU_REJECT_MISMATCH F.CUP_ATU_REJECT_MISMATCH
  | 5 => atuFld u F.MEM_ATU_REJECT_INDEX F.CUP_ATU_REJECT_INDEX
  | _ => atuFld u F.MEM_ATU_REJECT_DUPLICATE F.CUP_ATU_REJECT_DUPLICATE

/-- REJECTS of the entry counts one more, where the entry can be written. -/
def State.countRejects (s : State) (u p h : Nat) : State :=
  match s.devRead 4 (unitMaster u) p (s.redAddr p h + 55) 1 with
  | (none, b, _, s) => (s.devWrite 4 (unitMaster u) p (s.redAddr p h + 55) (natLe 1 (min 255 (leNat b + 1)))).2
  | (_, _, _, s) => s

/-- A contribution is rejected (R116): counted, captured first, reported to its contributor; on this device the descriptor ends with the
reduction-rejected status and the fault is recorded. -/
def State.rejectContrib (s : State) (u p h index dev job gen code : Nat) : State :=
  let f := rejectFld u code
  let v := atuFld u F.MEM_ATU_FIRST_VALID F.CUP_ATU_FIRST_VALID
  let s := s.inc f.1 f.2
  let put := fun (m c : Fld) (x : Nat) (s : State) => s.wr (atuFld u m c).1 x v.2
  let s := if s.on v.1 v.2 then s
    else
      let s := put F.MEM_ATU_FIRST_CODE F.CUP_ATU_FIRST_CODE code (s.wr v.1 1 v.2)
      let s := put F.MEM_ATU_FIRST_HANDLE F.CUP_ATU_FIRST_HANDLE h (put F.MEM_ATU_FIRST_PARTITION F.CUP_ATU_FIRST_PARTITION p s)
      put F.MEM_ATU_FIRST_CONTRIB F.CUP_ATU_FIRST_CONTRIB index (put F.MEM_ATU_FIRST_SOURCE F.CUP_ATU_FIRST_SOURCE dev s)
  if dev = s.fabAddr then
    let s := s.raise { cls := if code = 2 then 5 else 0, level := if code = 6 then 0 else 1, master := unitMaster u, access := 4, part := p,
                       source := unitMaster u, code := code, aux := h }
    match s.job job with
    | some j => s.putJob ({ j with rejected := true }.fail 9 code h)
    | none => s
  else { s with fab := { s.fab with reports := s.fab.reports ++ [(dev, p, gen, h, index, code)] } }

/-- Closes an entry with a final state (R114): VALID 0, the state and REJECTS written, then DONE_BELL; contributions in progress are rejected
with NOT_OPEN (R117). -/
def State.closeEntry (s : State) (p h final addRejects : Nat) : State :=
  let x := agetD s.atu (redKey p h) { unit := 0, opened := false }
  let u := x.unit
  let live := x.ins.filter (fun i => !i.dead)
  let n := addRejects + live.length
  let s := s.setAtu p h { x with opened := false, holds := [], ins := (x.ins.filter (fun i => i.got < i.total)).map (fun i => { i with dead := true }) }
  let s := live.foldl (fun s i => s.rejectContrib u p h i.index i.dev i.job i.gen 1) s
  let a := s.redAddr p h
  match s.devRead 4 (unitMaster u) p (a + 52) 4 with
  | (none, b, _, s) =>
    let s := (s.devWrite 4 (unitMaster u) p (a + 54) (natLe 1 final ++ natLe 1 (min 255 (leAt b 3 1 + n)))).2
    (s.sendRing p (leAt b 0 2 % 4096) 1 (unitMaster u)).showAtu u
  | (_, _, _, s) => s.showAtu u

/-- A contribution that is rejected as it begins: what follows of it is discarded. -/
def State.rejectFirst (s : State) (u p h dev code : Nat) (b : Beat) : State :=
  let x := agetD s.atu (redKey p h) { unit := u, opened := false }
  let i : PartIn := { dev := dev, job := b.job, index := b.hdr.index, gen := b.gen, got := b.vals.length, hold := none, lastAt := s.now,
                      total := b.hdr.count, dead := true }
  let s := if b.vals.length < b.hdr.count then s.setAtu p h { x with ins := x.ins ++ [i] } else s
  s.rejectContrib u p h b.hdr.index dev b.job b.gen code

/-! ### Commit (R121) -/

/-- The value element `i` of the region reads out as. -/
def redValue (e : Bytes) (work : Bytes) (i : Nat) : Val :=
  let w := redWidth e
  let v := leAt work (w * i) w
  if redClass e = 2 then exactVal (exactOf 316 v) (redLambda e) else accVal (redWide e) v

/-- Reads out, converts and writes the region, its elements packed without row alignment from DEST_ADDR (DESIGN CHOICE,
notes/assumptions/85.md); a failed check or unreadable working values fail the entry instead, with no contribution in progress to reject
(R117, R121). -/
def State.commitEntry (s : State) (p h : Nat) (e : Bytes) : State :=
  let x := agetD s.atu (redKey p h) { unit := 0 }
  let m := unitMaster x.unit
  let g := (s.homeOf p).getD 0
  let n := redElems e
  match s.devRead 4 m p (redWork e + 512) (redWidth e * n), s.fmt g (leAt e 49 1) with
  | (none, work, false, s), some f =>
    let mode := leAt e 50 1 % 4
    let pol := bits (leAt e 50 1) 2 1
    let len := leAt e 42 2 + 1
    let vals := (List.range n).map (redValue e work)
    let conv := vals.zipIdx.map (fun v =>
      let r := if mode = 1 then carillon (leAt e 16 8) (leAt e 28 4) (leAt e 24 4) ((leAt e 32 4 + v.2 / len) % 2 ^ 32)
        ((leAt e 36 4 + v.2 % len) % 2 ^ 32) 0xFFFF else 0
      if redClass e = 2 then f.convert false v.1 mode pol r else f.convertFrom (if redWide e then fp64 else fp32) v.1 mode pol r)
    let word := (conv.zipIdx.map (fun c => c.1.1 % 2 ^ f.b * 2 ^ (f.b * c.2))).sum
    match s.devWrite 4 m p (redDest e) (natLe (ceilDiv (n * f.b) 8) word) with
    | (some _, s) => s.closeEntry p h 2 0
    | (none, s) =>
      let counts := (List.range 7).map (fun k => (conv.filter (fun c => c.2 = k)).length)
      let s := s.numUpdate g p (leAt e 24 4) (leAt e 28 4) (leAt e 49 1) mode counts ((vals.map amaxOf).foldl max 0)
      s.closeEntry p h 1 0
  | (_, _, _, s), _ => s.closeEntry p h 2 0

/-! ### Applying (R118 to R120) -/

/-- A working value after element `c` of contribution `index`. -/
def applyElem (e : Bytes) (index old c : Nat) : Nat :=
  match redClass e with
  | 2 =>
    let a := exactOf 316 old
    let b := exactOf 124 c
    exactBits 316 ⟨a.nan || b.nan, a.pinf || b.pinf, a.ninf || b.ninf, a.negZero && b.negZero, a.v + b.v⟩
  | 1 => if index = 0 then c else accRound (redWide e) ((accVal (redWide e) old).add (accVal (redWide e) c)) 0 0
  | _ => accRound false ((accVal false old).add (accVal false c)) 0 0

/-- Applies elements from element `first` on; answers false where the work area cannot be read or written. -/
def State.applyVals (s : State) (p : Nat) (u : Nat) (e : Bytes) (index first : Nat) (vals : List Nat) : Bool × State :=
  let w := redWidth e
  let a := redWork e + 512 + w * first
  match s.devRead 4 (unitMaster u) p a (w * vals.length) with
  | (none, old, false, s) =>
    let new := vals.zipIdx.flatMap (fun v => natLe w (applyElem e index (leAt old (w * v.2) w) v.1))
    match s.devWrite 4 (unitMaster u) p a new with
    | (none, s) => (true, s)
    | (some _, s) => (false, s)
  | (_, _, _, s) => (false, s)

/-- Whether every bit of the contributor bitmap is set. -/
def bitmapFull (e bm : Bytes) : Bool := (List.range (redContribs e)).all (fun i => (leNat bm).testBit i)

/-- Contribution `i` has been applied in full (R117, R119, R121): its bit is set, k advances in the ordered class, and the entry commits
when every bit is set. Where the bitmap cannot be read or written the entry fails and the contribution is rejected (R500). -/
def State.contribDone (s : State) (p h : Nat) (i : PartIn) (e : Bytes) : State :=
  let x := agetD s.atu (redKey p h) { unit := 0 }
  let m := unitMaster x.unit
  match s.devRead 4 m p (redWork e) 512 with
  | (none, bm, false, s) =>
    let bm := natLe 512 (setBitTo (leNat bm) i.index true)
    match s.devWrite 4 m p (redWork e + i.index / 8) (slice bm (i.index / 8) 1) with
    | (some _, s) => s.closeEntry p h 2 0
    | (none, s) =>
      let s := s.setAtu p h { x with ins := x.ins.filter (fun z => z ≠ i), next := if redClass e = 1 then x.next + 1 else x.next }
      if bitmapFull e bm then s.commitEntry p h e else s.showAtu x.unit
  | (_, _, _, s) => s.closeEntry p h 2 0

/-! ### Arrival (R116, R119, R499, R500) -/

/-- The entry of a contribution as the router of contributions reads it, and the unit that serves it; none for the unit under the home group
that rejects it (R499). -/
def State.routeContrib (s : State) (cache m p h : Nat) : Option (Bytes × Nat) × State :=
  if s.rd F.MEM_REDTAB_COUNT p ≤ h then (none, s)
  else
    match s.devRead cache m p (s.redAddr p h) 64 with
    | (none, e, false, s) =>
      let v := redDest e / 65536
      let l := s.pmLookup cache v
      if redDest e < 2 ^ 40 ∧ pmValid l.1 ∧ pmLoc l.1 ≠ 3 then (some (e, l.2.unitOfKey (pageKey l.1 (redDest e % 65536))), l.2)
      else (none, l.2.accessFault 1 cache m p (redDest e) false)
    | (_, _, _, s) => (none, s)

/-- Whether DEST_ADDR or WORK_ADDR lies on a VALID page of another partition (R116, OWNER). -/
def State.redForeign (s : State) (p : Nat) (e : Bytes) : Bool :=
  [redDest e, redWork e].any (fun a =>
    let pe := (s.pmLookup 4 (a / 65536)).1
    decide (a < 2 ^ 40) && pmValid pe && decide (pmOwner pe ≠ p))

/-- Initialises the work area: the bitmap 0, each value -0 in the arrival class and 0 with NEG_ZERO in the exact class; false where a write
fails its check. -/
def State.initWork (s : State) (p u : Nat) (e : Bytes) : Bool × State :=
  let one := if redClass e = 2 then natLe 40 (2 ^ 316) else natLe 4 0x80000000
  let vals := if redClass e = 1 then [] else (List.replicate (redElems e) one).flatten
  match s.devWrite 4 (unitMaster u) p (redWork e) (natLe 512 0 ++ vals) with
  | (none, s) => (true, s)
  | (some _, s) => (false, s)

/-- The first matching code of *Contribution rejection codes* from FORBIDDEN on, for an open entry; 0 where the header fits. -/
def State.headerCode (s : State) (p u : Nat) (e : Bytes) (hd : ContribHdr) : Nat × State :=
  let g := (s.homeOf p).getD 0
  let permit := match hd.cls with
    | 0 => s.on F.AG_RED_PERMIT_ARRIVAL_PERMIT g
    | 1 => s.on F.AG_RED_PERMIT_ORDERED_PERMIT g
    | 2 => s.on F.AG_RED_PERMIT_EXACT_PERMIT g
    | _ => false
  if !permit then (3, s)
  else if hd.cls ≠ redClass e ∨ hd.wide ≠ redWide e ∨ hd.lambda ≠ redLambda e ∨ hd.count ≠ redElems e then (4, s)
  else if redContribs e ≤ hd.index then (5, s)
  else
    match s.devRead 4 (unitMaster u) p (redWork e + hd.index / 8) 1 with
    | (none, b, false, s) => (if (leNat b).testBit (hd.index % 8) then 6 else 0, s)
    | (_, _, _, s) => (7, s)

/-- A free hold slot of an entry, if one is left (R119). -/
def AtuEntry.freeHold (x : AtuEntry) (e : Bytes) : Option Nat :=
  (List.range (leAt e 51 1)).find? (fun k => x.holds.all (fun y => y.hold ≠ some k) && x.ins.all (fun i => i.dead || i.hold ≠ some k))

/-- Device address of element `i` of hold slot `k` (notes/assumptions/49.md). -/
def holdAddr (e : Bytes) (k i : Nat) : Nat := redWork e + 512 + redWidth e * (redElems e * (k + 1) + i)

/-- Takes elements of a contribution in progress: applied, or copied into its hold slot; on the last the contribution is done or held. -/
def State.takeVals (s : State) (p h : Nat) (e : Bytes) (i : PartIn) (b : Beat) : State :=
  let x := agetD s.atu (redKey p h) { unit := 0 }
  let w := redWidth e
  let i2 := { i with got := b.first + b.vals.length, lastAt := s.now }
  let s := s.setAtu p h { x with ins := x.ins.map (fun z => if z = i then i2 else z) }
  let r : Bool × State :=
    match i.hold with
    | some k =>
      match s.devWrite 4 (unitMaster x.unit) p (holdAddr e k b.first) (b.vals.flatMap (natLe w)) with
      | (none, s) => (true, s)
      | (some _, s) => (false, s)
    | none => s.applyVals p x.unit e i.index b.first b.vals
  let s := r.2
  if !r.1 then s.closeEntry p h 2 0
  else if i2.got < redElems e then s.showAtu x.unit
  else
    match i.hold with
    | some _ =>
      let y := agetD s.atu (redKey p h) { unit := 0 }
      (s.setAtu p h { y with ins := y.ins.filter (fun z => z ≠ i2), holds := y.holds ++ [i2] }).showAtu x.unit
    | none => s.contribDone p h i2 e

/-- Removes a beat from where it waited. -/
abbrev Taker := State → State

/-- A contribution's first beat at its unit (R116, R119, R500). `take` removes the beat; a contribution held back leaves it. -/
def State.firstBeat (s0 s : State) (take : Taker) (u p h dev : Nat) (e : Bytes) (b : Beat) : State :=
  let s := match aget s.atu (redKey p h) with
    | some _ => s
    | none => s.setAtu p h { unit := u, opened := false }
  let x := agetD s.atu (redKey p h) { unit := u, opened := false }
  let valid := (redState e).testBit 7
  let no := fun (s : State) (code : Nat) => ((take s).countRejects u p h).rejectFirst u p h dev code b
  let open0 : Option State × State :=
    if x.opened then (some s, s)
    else
      let g := (s.homeOf p).getD 0
      let sound := valid && decide (redState e % 4 = 0) && s.redSound g e
      if !sound then
        (none, if valid ∨ redState e % 4 = 0 then
            ((take (s.setAtu p h { x with unit := u })).closeEntry p h 2 1).rejectFirst u p h dev 1 b
          else no s 1)
      else if s.redForeign p e then (none, no s 2)
      else
        match s.initWork p u e with
        | (true, s) => (some (s.setAtu p h { x with unit := u, opened := true, next := 0, holds := [] }), s)
        | (false, s) => (none, ((take (s.setAtu p h { x with unit := u })).closeEntry p h 2 1).rejectFirst u p h dev 1 b)
  match open0 with
  | (none, s) => s
  | (some s, _) =>
    let x := agetD s.atu (redKey p h) { unit := u }
    match (if s.redForeign p e then (2, s) else s.headerCode p u e b.hdr) with
    | (0, s) =>
      let i : PartIn := { dev := dev, job := b.job, index := b.hdr.index, gen := b.gen, got := 0, hold := none, lastAt := s.now,
                          total := b.hdr.count }
      if redClass e ≠ 1 ∨ b.hdr.index = x.next then ((take s).setAtu p h { x with ins := x.ins ++ [i] }).takeVals p h e i b
      else
        match x.freeHold e with
        | some k =>
          let i := { i with hold := some k }
          ((take s).setAtu p h { x with ins := x.ins ++ [i] }).takeVals p h e i b
        | none => s0
    | (7, s) => ((take s).closeEntry p h 2 1).rejectFirst u p h dev 1 b
    | (code, s) => (no s code).showAtu u

/-- A contribution stops (R117): its entry fails, and it is rejected with every other contribution in progress; or, while it is only being
copied, its hold slot is freed. -/
def State.stopContrib (s : State) (p h : Nat) (i : PartIn) : State :=
  let x := agetD s.atu (redKey p h) { unit := 0 }
  match i.hold with
  | some _ => (s.setAtu p h { x with ins := x.ins.filter (fun z => z ≠ i) }).showAtu x.unit
  | none =>
    let f := atuFld x.unit F.MEM_ATU_STATUS_FAILED F.CUP_ATU_STATUS_FAILED
    (s.closeEntry p h 2 0).inc f.1 f.2

/-- One beat reaches its unit. -/
def State.beatArrives (s0 : State) (take : Taker) (cache m dev : Nat) (b : Beat) : State :=
  let p := b.p
  let h := b.hdr.handle
  let mine := fun (x : AtuEntry) => x.ins.find? (fun i =>
    decide (i.dev = dev) && decide (i.job = b.job) && decide (i.index = b.hdr.index) && decide (i.gen = b.gen))
  match (aget s0.atu (redKey p h)).bind mine with
  | some i =>
    if b.first ≠ i.got then s0
    else
      let s := take s0
      let x := agetD s.atu (redKey p h) { unit := 0 }
      if i.dead then
        let got := i.got + b.vals.length
        let ins := x.ins.filter (fun z => z ≠ i) ++ (if got < b.hdr.count then [{ i with got := got }] else [])
        if ins.isEmpty ∧ !x.opened then { s with atu := adel s.atu (redKey p h) } else s.setAtu p h { x with ins := ins }
      else
        match s.devRead 4 (unitMaster x.unit) p (s.redAddr p h) 64 with
        | (none, e, false, s) => s.takeVals p h e i b
        | (_, _, _, s) =>
          let ins := x.ins.map (fun z => if z = i then { i with got := b.first + b.vals.length } else z)
          (s.setAtu p h { x with ins := ins }).closeEntry p h 2 0
  | none =>
    if b.first ≠ 0 then take s0
    else
      -- a beat of the same contributor with another GEN stops what came before it (R457)
      let old := ((aget s0.atu (redKey p h)).map (fun x => x.ins.filter (fun i =>
        decide (i.dev = dev) && decide (i.gen ≠ b.gen) && !i.dead))).getD []
      let s := old.foldl (fun s i => s.stopContrib p h i) s0
      match s.routeContrib cache m p h with
      | (none, s) => (take s).rejectFirst (128 + (s.homeOf p).getD 0) p h dev 1 b
      | (some (e, u), s) => s.firstBeat s0 take u p h dev e b

/-- Whether two beats belong to one contribution's stream. -/
def sameStream (a b : Beat) : Bool :=
  decide (a.p = b.p) && decide (a.hdr.handle = b.hdr.handle) && decide (a.hdr.index = b.hdr.index) && decide (a.job = b.job)
    && decide (a.gen = b.gen)

/-- CONTRIBUTION_ARRIVE (R116): a beat of a local drain, or one the fabric has delivered. A beat whose stream is held back waits behind the
beats before it (R119). -/
def execContributionArrive (t : Nat) (src : BeatSrc) (s : State) : Out :=
  let s := s.tick t
  if s.safe then .next s else
  .next (match src with
    | .drain k =>
      match s.beats[k]? with
      | none => s
      | some b =>
        if (s.beats.take k).any (fun a => sameStream a b) then s else
        let g := ((s.job b.job).map (fun j => j.g)).getD ((s.homeOf b.p).getD 0)
        s.beatArrives (fun s => { s with beats := s.beats.erase b }) (dieOf g) (0x30 + g) s.fabAddr b
    | .fabric k =>
      match s.fab.delivered[k]? with
      | none => s
      | some pk =>
        let drop : Taker := fun s => { s with fab := { s.fab with delivered := s.fab.delivered.erase pk } }
        match pk.beat with
        | some b =>
          let held := (s.fab.delivered.take k).any (fun q =>
            decide (q.src = pk.src) && decide (q.dstEp = pk.dstEp) && q.beat.any (fun a => sameStream { a with p := b.p } b))
          if held then s else if pk.op = 2 then s.beatArrives drop 4 0x5A pk.src { b with p := pk.dstEp } else s
        | none => s)

/-- HELD_CONTRIBUTION_APPLY (R119): the held contribution whose index k has reached is applied and its slot freed; where it cannot be, the
entry fails and it is rejected (R500). -/
def execHeldContributionApply (t p handle : Nat) (s : State) : Out :=
  let s := s.tick t
  inst (p < 16)
    (if s.safe then s else
     match aget s.atu (redKey p handle) with
     | none => s
     | some x =>
       match x.holds.find? (fun y => y.index = x.next) with
       | none => s
       | some y =>
         if !x.opened then s
         else
           let i : PartIn := { y with hold := none, lastAt := s.now }
           let s := s.setAtu p handle { x with holds := x.holds.filter (fun z => z ≠ y), ins := x.ins ++ [i] }
           match s.devRead 4 (unitMaster x.unit) p (s.redAddr p handle) 64 with
           | (none, e, false, s) =>
             match s.devRead 4 (unitMaster x.unit) p (holdAddr e (y.hold.getD 0) 0) (redWidth e * redElems e) with
             | (none, d, false, s) =>
               let vals := (List.range (redElems e)).map (fun k => leAt d (redWidth e * k) (redWidth e))
               match s.applyVals p x.unit e y.index 0 vals with
               | (true, s) => s.contribDone p handle i e
               | (false, s) => s.closeEntry p handle 2 0
             | (_, _, _, s) => s.closeEntry p handle 2 0
           | (_, _, _, s) => s.closeEntry p handle 2 0)

/-- CONTRIBUTION_STALL (R117): no beat of the contribution for 1 ms, or its tag stale. -/
def execContributionStall (t p handle index : Nat) (stale : Bool) (s : State) : Out :=
  let s := s.tick t
  inst (p < 16)
    (match (aget s.atu (redKey p handle)).bind (fun x => x.ins.find? (fun i => decide (i.index = index) && !i.dead)) with
     | none => s
     | some i => if s.safe then s else if stale ∨ i.lastAt + 1000000 ≤ s.now then s.stopContrib p handle i else s)

/-- A reset of partition `p` (R117, R124, R457): its entries are discarded without a bell, what was partly received is rejected, and its own
contributions stop at other entries. -/
def State.atuReset (s : State) (p : Nat) : State :=
  s.atu.foldl (fun (s : State) e =>
    if e.1 / 4096 = p then
      let live := e.2.ins.filter (fun i => !i.dead)
      let s := live.foldl (fun (s : State) i =>
        if i.dev = s.fabAddr then s else s.rejectContrib e.2.unit p (e.1 % 4096) i.index i.dev i.job i.gen 1) s
      let dead := (e.2.ins.filter (fun i => i.dev ≠ s.fabAddr)).map (fun i => { i with dead := true })
      let s : State := if dead.isEmpty then { s with atu := adel s.atu e.1 }
        else { s with atu := aset s.atu e.1 { e.2 with opened := false, holds := [], ins := dead } }
      s.showAtu e.2.unit
    else s) { s with beats := s.beats.filter (fun b => b.p ≠ p), outBeats := s.outBeats.filter (fun b => b.2.p ≠ p) }

end Sys2Proof.Machine
end

