-- ==== Sys2Proof/Machine/Belfry.lean ====
section
/-!
DEFINITION. Sys2Proof/Machine/Belfry.lean: the Belfry cores' accesses and private caches, their resets, access faults and cache errors, and the
Ethernet ports' receive side (spec/10).
-/

namespace Sys2Proof.Machine

/-- The partition of Belfry core `n`, if it is assigned. -/
def State.corePart (s : State) (n : Nat) : Option Nat :=
  if s.on F.MGT_BFY_CORE_ASSIGNED n then some (s.rd F.MGT_BFY_CORE_PARTITION n) else none

/-! ### Private caches (R236, R240 to R243, R247) -/

/-- Lines of a private cache: 2 MiB of 128 bytes (R236). -/
def privLines : Nat := 16384

/-- Private lines without the modified data of core `n`: each such line reads as what lies below it, and the core holds nothing (R247). -/
def State.dropCore (s : State) (n : Nat) : State :=
  let s := (s.memx.priv.filter (fun l => l.core = n)).foldl (fun (s : State) l =>
    match l.below with
    | some b => s.wrBytes l.line b
    | none => s) s
  { s with memx := { s.memx with priv := s.memx.priv.filter (fun l => l.core ≠ n) } }

/-- The modified lines core `n` holds. -/
def State.modified (s : State) (n : Nat) : Nat := (s.memx.priv.filter (fun l => decide (l.core = n) && l.below.isSome)).length

/-- Core `n` of partition `p` takes a line; the oldest leaves a full cache, and is written back where it is modified (notes/assumptions/92.md). -/
def State.takeLine (s : State) (n p : Nat) (l : PLine) : State :=
  let mine := s.memx.priv.filter (fun x => decide (x.core = n) && decide (x.line ≠ l.line))
  let s := match mine.head?.filter (fun _ => decide (privLines ≤ mine.length)) with
    | some old =>
      let s : State := { s with memx := { s.memx with priv := s.memx.priv.filter (fun x => x ≠ old) } }
      if old.below.isNone then s
      else if (s.homeOf p).any (fun g => decide (s.rd F.CUP_SPLIT_CACHE_UNITS g ≠ 0)) then s.lineTraffic p 0x59 old.line 128 true false
      else s.regCharge p 1 0x59 128 (decide (old.line < 65536 * 65536))
    | none => s
  let rest : List PLine := s.memx.priv.filter (fun x => !(decide (x.core = n) && decide (x.line = l.line)))
  { s with memx := { s.memx with priv := rest ++ [l] } }

/-- Device addresses of the lines that `n` bytes from `addr` touch and a private cache may hold: those of DRAM pages without UNCACHED (R240,
R242). -/
def State.privateLines (s : State) (addr n : Nat) : List Nat :=
  if n = 0 then []
  else ((List.range ((addr + n - 1) / 128 - addr / 128 + 1)).map (fun i => (addr / 128 + i) * 128)).filter (fun a =>
    let e := (s.pmLookup 4 (a / 65536)).1
    decide (pmLoc e = 0) && !pmUncached e)

/-- The line at device address `a` in core `n`'s cache, if it is there. -/
def State.heldLine (s : State) (n a : Nat) : Option PLine :=
  s.memx.priv.find? (fun l => decide (l.core = n) && decide (l.line = s.keyOf 4 a))

/-- The traffic of `len` bytes from `addr` that core `n` does not find in its cache (R216, R230, R242). -/
def State.missTraffic (s : State) (n addr len : Nat) (write : Bool) : State :=
  let ls := s.privateLines addr len
  if ls.isEmpty then s.traffic 4 0x59 addr len write
  else ls.foldl (fun (s : State) a => if (s.heldLine n a).isSome then s else s.traffic 4 0x59 a 128 false) s

/-- What core `n` of partition `p` gets from a read of `len` bytes at device address `addr`: the failing check, or the bytes and whether they are
poisoned. Other cores' modified copies are fetched; the lines then lie in the core's cache (R238, R240, R241). -/
def State.coreLoad (s : State) (n p addr len : Nat) : CoreAns × State :=
  match s.checkAccess 4 0x59 p addr len false false n with
  | (some c, s) => ({ code := c, data := [] }, s)
  | (none, s) =>
    let own : List PLine := s.memx.priv.filter (fun (l : PLine) => l.core = n)
    let s := s.missTraffic n addr len false
    let r := s.readKeys 0x59 p ((List.range len).map (fun k => s.keyOf 4 (addr + k)))
    let others : List PLine := r.2.2.memx.priv.filter (fun (l : PLine) => l.core ≠ n)
    let s : State := { r.2.2 with memx := { r.2.2.memx with priv := others ++ own } }
    let s := (s.privateLines addr len).foldl (fun (s : State) a =>
      if (s.heldLine n a).isSome then s else s.takeLine n p { core := n, line := s.keyOf 4 a, below := none }) s
    ({ code := 0, data := r.1, poison := r.2.1 }, s)

/-- A store of core `n` of partition `p`: the failing check, or the bytes stored. The core then holds each cacheable line of it modified; a store
to a page that waits is held (R212, R223, R238, R240, R244). -/
def State.coreStore (s : State) (n p addr : Nat) (bytes : Bytes) : CoreAns × State :=
  match s.checkAccess 4 0x59 p addr bytes.length true false n with
  | (some c, s) => ({ code := c, data := [] }, s)
  | (none, s) =>
    let s := (pagesOf addr bytes.length).foldl State.finishCopy s
    let ok : CoreAns := { code := 0, data := [] }
    if s.writeWaits addr bytes.length then
      (ok, s.holdWrite { p := p, unit := 0x59, addr := addr, bytes := bytes, who := some (.bfy p) })
    else
      let s := (pagesOf addr bytes.length).foldl State.cowNow s
      let s := s.missTraffic n addr bytes.length true
      let lines := (s.privateLines addr bytes.length).map (fun a =>
        let k := s.keyOf 4 a
        ({ core := n, line := k, below := some (((s.heldLine n a).bind (fun l => l.below)).getD (s.rdBytes k 128)) } : PLine))
      let s := s.storeBytes 4 0x59 p addr bytes
      (ok, lines.foldl (fun (s : State) l => s.takeLine n p l) s)

/-- A reset of core `n` (R247): its cache is discarded, the modified lines are counted, and the core starts again. -/
def State.coreReset (s : State) (n : Nat) : State :=
  if !s.on F.MGT_BFY_CORE_ASSIGNED n then s
  else
    let s := (s.inc F.MGT_BFY_CORE_LOST_LINES n 0 (s.modified n)).dropCore n
    if s.safe then s else (s.wr F.MGT_BFY_CORE_STATE 1 n).wr F.MGT_BFY_CORE_FREQ_MHZ s.pwr.bfyMhz n

/-- BFY_CORE_RESET (R239, R247): the management core alone writes it; a Belfry core's write is denied. -/
def execBfyCoreReset (t n : Nat) (who : Requester) (s : State) : Out :=
  let s := s.tick t
  inst (n < 48)
    (match who with
     | .mgt => s.coreReset n
     | .bfy p => s.registerDenied p true
     | _ => s)

/-- BELFRY_ACCESS_FAULT (R208, R238, R246): core `n`'s access is checked with its partition as requester. A failure is recorded and reaches the
core as its outcome code; an access that passes is carried out, but for a read of channels that retrain, which waits. -/
def execBelfryAccessFault (t n addr len : Nat) (wr : Option Bytes) (s : State) : Out :=
  let s := s.tick t
  inst (n < 48)
    (match s.corePart n with
     | none => s
     | some p =>
       if s.rd F.MGT_BFY_CORE_STATE n ≠ 1 then s
       else if wr.isNone ∧ (pagesOf addr len).any (fun v => s.retrains (s.pmEntry v)) then s
       else
         let r := match wr with
           | some b => s.coreStore n p addr b
           | none => s.coreLoad n p addr len
         { r.2 with host := { r.2.host with coreGot := aset r.2.host.coreGot n r.1 } })

/-- Registers that no Belfry core reaches: MGT_, SEC_, FC_ and PGM_ (R239), and FAB_ other than its own FAB_VCAST. -/
def bfyClosed (r : Reg) : Bool :=
  decide (r ∈ [Reg.MGT_GUARANTEE, .MGT_BFY_CORE, .MGT_ETH, .MGT_IMAGE_ID, .MGT_IMAGE_STATUS, .MGT_PATCH_SEQ, .MGT_WDOG, .MGT_HOST, .PGM_INVAL,
      .PGM_FAULT, .PGM_CUT, .PGM_RESERVE, .PGM_WINDOW])
    || decide (r ∈ [Reg.SEC_STATUS, .SEC_SIGIDX, .SEC_SV_LO, .SEC_SV_HI, .SEC_CTR, .FC_STATUS, .FC_CFG, .FC_BROKEN_LO, .FC_BROKEN_HI,
      .FC_FIRST_ADDR, .FC_FIRST_TIME, .FC_FIRST_INFO, .FC_PEND, .FC_ACK, .FC_CNT_LO, .FC_CNT_HI, .FC_REC, .FC_LOG])
    || decide (r ∈ [Reg.FAB_ADDR, .FAB_PORT, .FAB_LINK, .FAB_OPT, .FAB_DROP, .FAB_TIME, .FAB_ISOLATE, .FAB_VGRP, .FAB_VCFG, .FAB_VRES, .FAB_VEXCL,
      .FAB_ROUTE])

/-- Whether instance `i` of a register lies in the window of a partition other than `p`. -/
def State.foreignInst (s : State) (p : Nat) (r : Reg) (i : Nat) : Bool :=
  match r.axes.2.2 with
  | .group => decide (i ∉ s.groupsOf p)
  | .array => decide (i / 17 ∉ s.groupsOf p)
  | .slice => decide (i ∉ s.groupsOf p)
  | .part => decide (i ≠ p)
  | _ => false

/-- BELFRY_REGISTER_DENIED (R239): the read completes with all ones and a write is not acted on. -/
def execBelfryRegisterDenied (t n : Nat) (reg : Reg) (i j : Nat) (write : Bool) (s : State) : Out :=
  let s := s.tick t
  inst (n < 48 ∧ i < reg.axes.1 ∧ j < reg.axes.2.1)
    (match s.corePart n with
     | some p =>
       if bfyClosed reg || s.foreignInst p reg i then
         let s := if write then s else { s with host := { s.host with readBack := List.replicate (reg.width / 8) 255 } }
         s.coreDenied n p write
       else s
     | none => s)

/-- MACHINE_CHECK (R236, R247): an error in a line that core `n` holds. A corrected one is counted. An uncorrected one is counted, raises a
machine-check exception in the core and a level 1 fault, and the line is gone: modified data is lost. -/
def execMachineCheck (t n line : Nat) (corrected : Bool) (s : State) : Out :=
  let s := s.tick t
  inst (n < 48)
    (match s.corePart n, s.memx.priv.find? (fun l => decide (l.core = n) && decide (l.line = line / 128 * 128)) with
     | some p, some l =>
       if corrected then s.inc F.MGT_BFY_CORE_CACHE_CORR n
       else
         let s := match l.below with
           | some b => s.wrBytes l.line b
           | none => s
         let s := { s with memx := { s.memx with priv := s.memx.priv.filter (fun x => x ≠ l) } }
         ((s.inc F.MGT_BFY_CORE_CACHE_UNCORR n).raise
           { cls := 0, level := 1, master := 0x59, access := 1, part := p, source := 0x59, aux := n, addr := l.line }).coreVec n 3
     | _, _ => s)

/-! ### Ethernet (R248, R249) -/

/-- The record of the image that a received frame matches (R249): its port, destination MAC address, and VLAN identifier or the untagged
mark (bit 12). -/
def State.ethMatch (s : State) (port mac : Nat) (vlan : Option Nat) : Option EthRec :=
  (s.img.act.map (fun im => im.eths)).getD [] |>.find? (fun r => decide (r.port = port) && decide (r.mac = mac)
    && decide (r.vlan = (match vlan with
      | none => 4096
      | some v => v % 4096)) && decide (0 < r.qpCount))

/-- ETHERNET_FRAME_RECEIVE (R248, R249): frames come over a link that is up; FEC counts its codewords, and a frame with one it did not correct is
no frame. One that matches no partition is dropped and counted; another goes to a queue pair of its partition, picked by the hash of its flow
fields, and is written to where that pair says, with the partition as requester. -/
def execEthernetFrameReceive (t port mac : Nat) (vlan : Option Nat) (hash dma : Nat) (bytes : Bytes) (corr unc : Nat) (s : State) : Out :=
  let s := s.tick t
  inst (port < 2)
    (if !s.on F.PWR_STATUS_CONV_ON then s
     else
       let s := ((s.wr F.MGT_ETH_LINK 1 port).inc F.MGT_ETH_FEC_CORR port 0 corr).inc F.MGT_ETH_FEC_UNCORR port 0 unc
       if 0 < unc ∨ 9216 < bytes.length then s
       else
         match s.ethMatch port mac vlan with
         | none => s.inc F.MGT_ETH_RX_UNMATCHED port
         | some r =>
           let qp := r.qpFirst + hash % r.qpCount
           if qp < 64 then
             (({ s with host := { s.host with ethQ := aset s.host.ethQ (64 * port + qp) (agetD s.host.ethQ (64 * port + qp) 0 + 1) } } : State).devWrite
               4 0x5C r.p dma bytes).2
           else s)

end Sys2Proof.Machine
end

