-- ==== Sys2Proof/Machine/Discovery.lean ====
section
/-!
DEFINITION. Sys2Proof/Machine/Discovery.lean: HELLO, claims, settling of the address, the route table and its withdrawals (spec/15).
-/

namespace Sys2Proof.Machine

/-! ### HELLO (R343, R346, R355) -/

/-- The order of digests, bytewise. -/
def digestLt : Bytes → Bytes → Bool
  | [], [] => false
  | [], _ :: _ => true
  | _ :: _, [] => false
  | a :: as, b :: bs => if a = b then digestLt as bs else decide (a.toNat < b.toNat)

/-- The claim with the lowest digest other than the device's own. -/
def State.lowestClaim (s : State) : Option ClaimRec :=
  s.fab.claims.foldl (fun (m : Option ClaimRec) c =>
    match m with
    | none => some c
    | some x => if digestLt c.digest x.digest then some c else some x) none

/-- Least hops to the device that claimed with this record. -/
def ClaimRec.least (c : ClaimRec) : Nat := c.paths.foldl (fun m x => min m x.2.1) 255

/-- A root that the neighbours of an admitted fabric name. -/
def State.namedRoot (s : State) : Option Nat :=
  s.upPorts.findSome? (fun i =>
    match (s.port i).nbr with
    | some h => if h.admitted ∧ h.root ≠ 0xFFFF then some h.root else none
    | none => none)

/-- The root as the device sees it now, and its level: the root its neighbours name, or the lowest digest heard. -/
def State.rootNow (s : State) : Nat × Nat :=
  if s.on F.FAB_ADDR_VALID then (s.rd F.FAB_ADDR_ROOT, s.rd F.FAB_ADDR_LEVEL)
  else
    match s.namedRoot with
    | some r => (r, ((s.fab.claims.find? (fun c => c.addr = r)).map (fun c => c.least)).getD 255)
    | none =>
      match s.lowestClaim with
      | some c => if digestLt c.digest s.idDigest then (c.addr, c.least) else (s.fab.proposal.getD 0xFFFF, 0)
      | none => (s.fab.proposal.getD 0xFFFF, 0)

/-- HELLO_SEND (R343). -/
def execHelloSend (t port : Nat) (s : State) : Out :=
  let s := s.tick t
  let st := s.pstate port
  let r := s.rootNow
  inst (port < 32)
    (if st = 0 ∨ st = 6 then s
     else s.link port (.hello { version := 1, digest := s.idDigest, addr := s.fabAddr, admitted := s.on F.FAB_ADDR_ADMITTED,
                                isolate := decide (st = 5), root := r.1, level := r.2, port := port, stage := s.stage }))

/-- The four candidate fields of a route entry. -/
def candFlds : List Fld := [F.FAB_ROUTE_PRIMARY, F.FAB_ROUTE_ALT1, F.FAB_ROUTE_ALT2, F.FAB_ROUTE_ALT3]

/-- Candidates of destination `d` that name port `i`. -/
def State.candsVia (s : State) (d i : Nat) : List Nat := (List.range 4).filter (fun k => s.candPort d k = some i)

/-- Removes every candidate that names port `i`, and the claims heard through it (R343). -/
def State.forgetPort (s : State) (i : Nat) : State :=
  let s := { s with fab := { s.fab with
    claims := s.fab.claims.map (fun (c : ClaimRec) => { c with paths := c.paths.filter (fun x => x.1 ≠ i) }) } }
  s.routed.foldl (fun (s : State) d =>
    (s.candsVia d i).foldl (fun (s : State) k => s.wr (candFlds.getD k F.FAB_ROUTE_PRIMARY) 0 d) s) s

/-- HELLO (R343, R355): what the partner says of itself; a new digest makes it a new device. -/
def execHello (t port : Nat) (h : HelloMsg) (s : State) : Out :=
  let s := s.tick t
  let st := s.pstate port
  inst (port < 32)
    (if st = 0 ∨ st = 6 then s
     else
       let x := s.port port
       let fresh := x.nbr.any (fun n => n.digest ≠ h.digest)
       let s := s.setPort port { x with lastRx := s.now, heardAt := s.now, nbr := some h }
       let s := ((s.wr F.FAB_PORT_NBR_ADDR h.addr port).wr F.FAB_PORT_NBR_PORT h.port port).wrB F.FAB_PORT_NBR_ISOLATE h.isolate port
       let s := if fresh then (s.forgetPort port).wr F.FAB_PORT_REASON 6 port else s
       s.reachCheck)

/-! ### Routes from claims (R346) -/

/-- Whether the hop from this device through port `i` is up: toward the lower level, or between equal levels toward the lower address. -/
def State.hopUp (s : State) (i : Nat) : Bool :=
  match (s.port i).nbr with
  | none => false
  | some h =>
    let mine := s.rootNow.2
    decide (h.level < mine) || (decide (h.level = mine) && decide (h.addr < s.fab.proposal.getD s.fabAddr))

/-- A candidate field: valid, with its port. -/
def candVal (i : Option Nat) : Nat :=
  match i with
  | some i => 32 + i
  | none => 0

/-- Fills the route entry of the destination that a record claims (R346). -/
def State.fillRoute (s : State) (c : ClaimRec) : State :=
  let m := c.least
  let legal := c.paths.filter (fun x => x.2.2)
  let best := legal.foldl (fun b x => min b x.2.1) 255
  let prim := (legal.find? (fun x => x.2.1 = best)).map (fun x => x.1)
  let others := c.paths.filter (fun x => decide (some x.1 ≠ prim))
  let alts := ((others.filter (fun x => x.2.1 = m)).map (fun x => (x.1, true)) ++ (others.filter (fun x => x.2.1 = m + 1)).map (fun x => (x.1, false))).take 3
  let at_ := fun (k : Nat) => (alts[k]?).map (fun x => x.1)
  let mins := (((List.range 3).filter (fun k => (alts[k]?).any (fun x => x.2))).map (fun k => 2 ^ k)).sum
  let d := c.addr
  let s := ((s.wrB F.FAB_ROUTE_VALID (!c.paths.isEmpty) d).wr F.FAB_ROUTE_WD 0 d).wr F.FAB_ROUTE_MIN mins d
  (((s.wr F.FAB_ROUTE_PRIMARY (candVal prim) d).wr F.FAB_ROUTE_ALT1 (candVal (at_ 0)) d).wr F.FAB_ROUTE_ALT2 (candVal (at_ 1)) d).wr
    F.FAB_ROUTE_ALT3 (candVal (at_ 2)) d

/-- Clears a route entry. -/
def State.clearRoute (s : State) (d : Nat) : State :=
  [F.FAB_ROUTE_VALID, F.FAB_ROUTE_PIN, F.FAB_ROUTE_WD, F.FAB_ROUTE_MIN, F.FAB_ROUTE_PRIMARY, F.FAB_ROUTE_ALT1, F.FAB_ROUTE_ALT2,
   F.FAB_ROUTE_ALT3].foldl (fun (s : State) f => s.wr f 0 d) s

/-! ### Claims (R344, R345) -/

/-- The device claims `a`, on every UP port. -/
def State.claimAddr (s : State) (a : Nat) : State :=
  let s := { s with fab := { s.fab with proposal := some a, claimSeq := s.fab.claimSeq + 1, changeAt := s.now } }
  s.upPorts.foldl (fun (s : State) i => s.link i (.claim s.ownClaim)) s

/-- The give-way rule (R344, R345): a claim for the device's own address with another digest. -/
def State.giveWay (s : State) (c : ClaimMsg) : State :=
  let mine := s.fab.proposal.getD 0xFFFF
  if c.addr ≠ mine ∨ c.digest = s.idDigest ∨ s.on F.FAB_ADDR_ADMITTED ∨ s.on F.FAB_ADDR_MODE then s
  else if c.admitted ∨ digestLt c.digest s.idDigest then s.claimAddr ((mine + 1) % 0xFFFF)
  else s

/-- CLAIM on `port` (R344 to R346): the path is recorded, a claim not seen before is forwarded with one more hop, the give-way rule is applied
and the route entry filled. -/
def execClaim (t port : Nat) (c : ClaimMsg) (s : State) : Out :=
  let s := s.tick t
  inst (port < 32)
    (if s.pstate port ≠ 2 ∨ c.digest = s.idDigest then s
     else
       let up := s.hopUp port
       let legal := if up then c.legal else c.down
       let path : Nat × Nat × Bool := (port, c.hops + 1, legal)
       let old := s.fab.claims.find? (fun r => r.digest = c.digest)
       let seen := old.any (fun r => decide (r.addr = c.addr) && decide (r.seq = c.seq))
       let r : ClaimRec := { addr := c.addr, digest := c.digest, admitted := c.admitted, seq := c.seq,
                             paths := if seen then ((old.map (fun r => aset r.paths port path.2)).getD []) else [path] }
       let moved := old.any (fun o => o.addr ≠ c.addr)
       let s := { s with fab := { s.fab with
         claims := s.fab.claims.filter (fun (z : ClaimRec) => z.digest ≠ c.digest) ++ [r],
         changeAt := if old.isNone || moved then s.now else s.fab.changeAt } }
       let s := if moved then old.elim s (fun o => if s.fab.claims.any (fun (z : ClaimRec) => z.addr = o.addr) then s else s.clearRoute o.addr) else s
       let s := if seen then s
         else (s.upPorts.filter (fun i => i ≠ port)).foldl (fun (s : State) i =>
           s.link i (.claim { c with hops := c.hops + 1, legal := legal, down := !up && c.down })) s
       ((s.giveWay c).fillRoute r).reachCheck)

/-! ### Settling (R344 to R346, R363) -/

/-- ADDRESS_SETTLE (R344 to R346, R363): the device proposes its address, and once 10 ms have passed with no change it is settled and
admitted, or refused with CONFLICT in mode 1. -/
def execAddressSettle (t : Nat) (masterTime : Option Nat) (s : State) : Out :=
  let s := s.tick t
  let mode1 := s.on F.FAB_ADDR_MODE
  if s.stage ≠ stDome ∨ s.on F.FAB_ADDR_ADMITTED ∨ s.upPorts.isEmpty ∨ s.heldFor [6] then .next s
  else
    match s.fab.proposal with
    | none =>
      let low := leAt s.idDigest 0 2
      let first := if mode1 then ((s.img.act.bind (fun im => im.fabs.head?)).map (fun f => f.address)).getD 0xFFFE
        else if low = 0xFFFF then 0xFFFE else low
      .next (s.claimAddr first)
    | some a =>
      if s.now < s.fab.changeAt + 10000000 then .next s
      else if s.fab.claims.any (fun c => c.addr = a) then
        .next (if mode1 then (s.wr F.FAB_ADDR_CONFLICT 1).hold 6 else s)
      else
        let r := s.rootNow
        let s := (((s.wr F.FAB_ADDR_ADDRESS a).wr F.FAB_ADDR_VALID 1).wr F.FAB_ADDR_ROOT r.1).wr F.FAB_ADDR_LEVEL (min r.2 255)
        let s := s.fab.claims.foldl (fun (s : State) c => s.fillRoute c) s
        let s := match masterTime with
          | some m =>
            let s := { s with now := m }
            s.raise { cls := 3, level := 0, master := 0x5A, source := 0x5A, code := 4 }
          | none => s
        let s := ((s.wr F.FAB_ADDR_ADMITTED 1).wr F.AON_STAGE_FABRIC 1).ldAddress
        .next (s.claimAddr a).reachCheck

/-! ### Withdrawals and the route table (R347, R348, R350) -/

/-- Sets or clears the WD bits of every listed destination's candidates that name `port` (R350). -/
def State.markWd (s : State) (port : Nat) (ds : List Nat) (v : Bool) : State :=
  ds.foldl (fun (s : State) d => (s.candsVia d port).foldl (fun (s : State) k => s.wrBit F.FAB_ROUTE_WD k v d) s) s

/-- WITHDRAW (R350). -/
def execWithdraw (t port : Nat) (ds : List Nat) (s : State) : Out :=
  let s := s.tick t
  inst (port < 32) (if s.pstate port = 0 ∨ s.pstate port = 6 then s else (s.markWd port ds true).reachCheck)

/-- ANNOUNCE (R350). -/
def execAnnounce (t port : Nat) (ds : List Nat) (s : State) : Out :=
  let s := s.tick t
  inst (port < 32) (if s.pstate port = 0 ∨ s.pstate port = 6 then s else (s.markWd port ds false).reachCheck)

/-- A write to a route entry (R347, R348): WD reads 0 after it. -/
def State.routeWrite (s : State) (a value : Nat) : State :=
  let s := [F.FAB_ROUTE_VALID, F.FAB_ROUTE_PIN, F.FAB_ROUTE_MIN, F.FAB_ROUTE_ALT3, F.FAB_ROUTE_ALT2, F.FAB_ROUTE_ALT1, F.FAB_ROUTE_PRIMARY].foldl
    (fun (s : State) f => s.wr f (bits value f.lsb f.width) a) s
  (s.wr F.FAB_ROUTE_WD 0 a).reachCheck

/-- ROUTE_ENTRY_WRITE (R347, R348). -/
def execRouteEntryWrite (t : Nat) (who : Requester) (a value : Nat) (s : State) : Out :=
  let s := s.tick t
  inst (a < 65536) (s.asAdmin who (fun s => s.routeWrite a value))

end Sys2Proof.Machine
end

