-- ==== Sys2Proof/Machine/Fabric.lean ====
section
/-!
DEFINITION. Sys2Proof/Machine/Fabric.lean: the router, delivery to local endpoints, isolation, device time and neighbour queries (spec/15).
-/

namespace Sys2Proof.Machine

/-! ### Routing a packet head (R331, R342, R348, R349, R354) -/

/-- A head leaves the router without going on: it is dropped and counted. -/
def State.dropRoute (s : State) (h : RouteWait) (f : Fld) : State :=
  let s := { s with fab := { s.fab with heads := s.fab.heads.erase h } }
  ((s.freeSlots h.from_ (pktFlits h.pkt)).beatGone h.pkt).inc f

/-- Whether a packet's operation and endpoint are known here (R342, R351). -/
def State.endpointOk (s : State) (k : Pkt) : Bool :=
  match k.op with
  | 1 => s.hasPart k.dstEp
  | 2 => s.hasPart k.dstEp
  | 3 => decide (k.dstEp = 0xFE)
  | 4 => decide (k.dstEp = 0xFE) || s.hasPart k.dstEp
  | _ => false

/-- Delivery of a packet addressed to this device. A MGMT_REQ for the router is answered as the command it carries. -/
def State.deliverHead (s : State) (h : RouteWait) : State :=
  if !s.endpointOk h.pkt then s.dropRoute h F.FAB_DROP_BAD_OP
  else
    let s := ({ s with fab := { s.fab with heads := s.fab.heads.erase h } } : State).freeSlots h.from_ (pktFlits h.pkt)
    if h.pkt.op = 3 then s else { s with fab := { s.fab with delivered := s.fab.delivered ++ [h.pkt] } }

/-- Whether the packet is an answer of this device's own router, which leaves an isolated port too (R354). -/
def State.ownAnswer (s : State) (k : Pkt) : Bool := decide (k.op = 4) && decide (k.srcEp = 0xFE) && decide (k.src = s.fabAddr)

/-- Port of candidate `c` of the packet's destination where it is live for virtual channel `vc`. -/
def State.liveFor (s : State) (k : Pkt) (vc c : Nat) : Option Nat :=
  match s.live k.dst c vc with
  | some i => some i
  | none =>
    match s.candPort k.dst c with
    | some i => if s.ownAnswer k ∧ s.pstate i = 5 then some i else none
    | none => none

/-- Credits of a virtual channel of a port that no queued packet waits for. -/
def State.freeCredits (s : State) (i v : Nat) : Nat :=
  let x := s.port i
  x.credits.getD v 0 - ((x.dataQ.filter (fun q => q.vc = v)).map (fun q => pktFlits q.pkt - q.sent)).sum

/-- Tokens that a packet draws from the fabric egress regulator of the partition that sends it: 4 for each flit; none for transit packets and
answers of the router (R352). -/
def State.egressNeed (s : State) (h : RouteWait) (k : Pkt) : Nat :=
  if h.from_.isSome ∨ k.src ≠ s.fabAddr ∨ s.ownAnswer k ∨ s.rd F.BWG_CFG_DEPTH k.srcEp 2 = 0 then 0 else 4 * pktFlits k

/-- The head goes to port `i` on `vc`, if the channel holds credits for the whole packet and the egress regulator admits it (R231, R331, R352);
otherwise it waits. -/
def State.forward (s : State) (h : RouteWait) (k : Pkt) (i vc : Nat) : State :=
  let need := s.egressNeed h k
  if s.freeCredits i vc < pktFlits k ∨ (need ≠ 0 ∧ !s.mayDraw k.srcEp 2 need) then s
  else
    let s := if need = 0 then s else s.draw k.srcEp 2 0x5A need
    let s := { s with fab := { s.fab with heads := s.fab.heads.erase h } }
    s.setPort i { s.port i with dataQ := (s.port i).dataQ ++ [{ pkt := k, vc := vc, from_ := h.from_, tag := h.tag }] }

/-- Whether a head keeps to escape channels: it moved to one here or before. -/
def RouteWait.escapes (h : RouteWait) : Bool := h.escape || (h.from_.any (fun x => x.2 % 2 = 1))

/-- The candidates of a destination that are live and minimal. -/
def State.liveMinimal (s : State) (k : Pkt) (vc : Nat) : List Nat :=
  (List.range 4).filter (fun c => s.minimal k.dst c && (s.liveFor k vc c).isSome)

/-- ROUTE_SEED of the image. -/
def State.routeSeed (s : State) : Nat := ((s.img.act.bind (fun im => im.fabs.head?)).map (fun f => f.routeSeed)).getD 0

/-- The live minimal candidate with the most free credits; ties by the hash of ROUTE_SEED, SRC and DST (R349). -/
def State.bestCand (s : State) (k : Pkt) (vc : Nat) (cs : List Nat) : Option Nat :=
  let ports := cs.filterMap (s.liveFor k vc)
  let most := (ports.map (fun i => s.freeCredits i vc)).foldl max 0
  let ties := ports.filter (fun i => s.freeCredits i vc = most)
  ties[Config.routeHash s.routeSeed k.src k.dst % ties.length]?

/-- The rules of R349 in order. -/
def State.routeHead (s : State) (h : RouteWait) : State :=
  let k := { h.pkt with hops := h.pkt.hops - 1 }
  if k.hops = 0 then s.dropRoute h F.FAB_DROP_LIMIT
  else
    let esc := h.escapes || k.ordered
    let vc := opVc k.op + (if esc then 1 else 0)
    match s.liveMinimal k vc with
    | [] =>
      match (List.range 4).findSome? (fun c => if s.minimal k.dst c then none else s.liveFor k vc c) with
      | some i => if (List.range 4).any (fun c => s.minimal k.dst c && s.kept k.dst c) then s else if 2 ≤ k.detours then s.dropRoute h F.FAB_DROP_UNREACHABLE else s.forward h { k with detours := k.detours + 1 } i vc
      | none => if (List.range 4).any (s.kept k.dst) then s else s.dropRoute h F.FAB_DROP_UNREACHABLE
    | c :: cs =>
      if esc ∨ (s.on F.FAB_ROUTE_PIN k.dst ∧ c = 0) then
        match s.liveFor k vc c with
        | some i => s.forward h k i vc
        | none => s
      else
        match s.bestCand k vc (c :: cs) with
        | some i => s.forward h k i vc
        | none => s

/-- Whether `b` is to arrive behind `a`: both ordered, of one source, destination and class (R349). -/
def behind (a b : Pkt) : Bool :=
  a.ordered && b.ordered && decide (a.src = b.src) && decide (a.dst = b.dst) && decide (a.op = b.op)

/-- PACKET_HEAD_ROUTE of the k-th waiting head (R331, R342, R348, R349). A reserved operation is dropped as BAD_OP (R351). An ordered packet
waits behind the ones before it. -/
def execPacketHeadRoute (t k : Nat) (s : State) : Out :=
  let s := s.tick t
  .next (match s.fab.heads[k]? with
    | none => s
    | some h =>
      if (s.fab.heads.take k).any (fun g => behind g.pkt h.pkt) then s
      else if h.pkt.op < 1 ∨ 4 < h.pkt.op then s.dropRoute h F.FAB_DROP_BAD_OP
      else if h.pkt.dst = s.fabAddr then s.deliverHead h else s.routeHead h)

/-- The candidates whose adaptive channel the packet may take (R349): the primary alone while it is pinned and live. -/
def State.adaptive (s : State) (k : Pkt) : List Nat :=
  let cs := s.liveMinimal k (opVc k.op)
  if s.on F.FAB_ROUTE_PIN k.dst ∧ cs.contains 0 then [0] else cs

/-- ESCAPE_TIMEOUT of the k-th waiting head (R349): no adaptive credit on any candidate for 1 µs. -/
def execEscapeTimeout (t k : Nat) (s : State) : Out :=
  let s := s.tick t
  .next (match s.fab.heads[k]? with
    | none => s
    | some h =>
      let vc := opVc h.pkt.op
      let cs := s.adaptive h.pkt
      if h.escapes ∨ h.pkt.ordered ∨ s.now < h.since + 1000 ∨ cs.isEmpty
          ∨ (cs.filterMap (s.liveFor h.pkt vc)).any (fun i => decide (pktFlits h.pkt ≤ s.freeCredits i vc)) then s
      else { s with fab := { s.fab with heads := s.fab.heads.set k { h with escape := true } } })

/-! ### WRITE and MGMT_RSP at a local endpoint (R208, R209, R351, R418) -/

/-- The device whose mirror frames may write MIRROR page `v`: the one that the image names as twin of the page's owner (R209). -/
def State.mirrorSender (s : State) (v : Nat) : Option Nat :=
  match s.img.act with
  | none => none
  | some im =>
    (im.twins.filter (fun w => w.p = pmOwner (s.pmEntry v))).findSome? (fun w =>
      if w.mir1 ≤ v ∧ v < w.mir1 + w.mirFrames then some w.twinDev
      else if w.mirrors = 2 ∧ w.mir2 ≤ v ∧ v < w.mir2 + w.mirFrames then some w.srcDev else none)

/-- Whether every page of the write is a MIRROR page that its source may write. -/
def State.mirrorWrite (s : State) (k : Pkt) : Bool :=
  let vs := pagesOf k.arg k.data.length
  !vs.isEmpty && vs.all (fun v => pmMirror (s.pmEntry v) && decide (s.mirrorSender v = some k.src))

/-- Whether the write arrives for the inbox page of partition `p`. -/
def State.toInboxPage (s : State) (p addr : Nat) : Bool := s.on F.LDG_INBOX_ENABLE p && decide (addr / 65536 = s.rd F.LDG_INBOX_VPN p)

/-- Whether partition `p` is a local member of some enabled vote group. -/
def State.localMember (s : State) (p : Nat) : Bool :=
  (List.range 16).any (fun n => s.on F.FAB_VGRP_ENABLE n && (s.rd F.FAB_VGRP_LOCAL_MASK n).testBit p)

/-- Applies a WRITE as R351 states. -/
def State.applyWrite (s : State) (k : Pkt) (member : Bool) : State :=
  let p := k.dstEp
  let s := match aget s.restores p with
    | some r => { s with restores := aset s.restores p { r with heard := aset r.heard k.src s.now } }
    | none => s
  if s.mirrorWrite k then (s.devWrite 4 0x5A p k.arg k.data true).2
  else if member && s.localMember p then
    if s.toInboxPage p k.arg then
      match s.checkAccess 4 0x5A p k.arg k.data.length true false with
      | (some _, s) => s
      | (none, s) =>
        s.setLedger p { s.ledger p with inQ := (s.ledger p).inQ ++ (List.range (k.data.length / 64)).map (fun j => slice k.data (64 * j) 64) }
    else (s.devWrite 4 0x5A p k.arg k.data).2
  else
    (s.inc F.FAB_DROP_NOT_PERMITTED).raise { cls := 5, level := 1, master := 0x5A, access := 0x12, part := p, source := 0x5A, addr := k.arg }

/-- WRITE: the k-th delivered packet (R208, R209, R351). -/
def execWritePacket (t k : Nat) (member : Bool) (s : State) : Out :=
  let s := s.tick t
  .next (match s.fab.delivered[k]? with
    | none => s
    | some x =>
      if x.op ≠ 1 ∨ (s.fab.delivered.take k).any (fun y => behind y x) then s
      else ({ s with fab := { s.fab with delivered := s.fab.delivered.eraseIdx k } } : State).applyWrite x member)

/-- MGMT_RSP: the answer reaches the endpoint that asked (R351). -/
def execMgmtRsp (t k : Nat) (s : State) : Out :=
  let s := s.tick t
  .next (match s.fab.delivered[k]? with
    | none => s
    | some x =>
      if x.op ≠ 4 ∨ (s.fab.delivered.take k).any (fun y => behind y x) then s
      else { s with fab := { s.fab with delivered := s.fab.delivered.eraseIdx k }, host := { s.host with readBack := x.data } })

/-! ### Answers to the commands of R307 (R277, R353, R433) -/

/-- The path by which a command of R307 came takes its answer: a MGMT_RSP, or an MCTP or DOE answer. -/
def State.answer (s : State) (path : Path) (b : Bytes) : State :=
  match path with
  | .fabric src ep _ => s.sendPkt 0 0xFE src ep 4 0 0 false b
  | _ => { s with host := { s.host with answers := (path, b) :: s.host.answers } }

/-! ### Isolation (R340, R354) -/

/-- Every FABRIC port in UP or ISOLATE takes the state its bits give; leaving ISOLATE is followed by RECONCILE. -/
def State.applyIsolate (s : State) : State :=
  ((List.range 32).foldl (fun (s : State) i =>
    if s.rd F.FAB_PORT_ROLE i ≠ 1 then s
    else if s.pstate i = 2 ∧ s.isolated i then ((s.wr F.FAB_PORT_STATE 5 i).setPort i { s.port i with since := s.now }).parentLost i
    else if s.pstate i = 5 ∧ !s.isolated i then
      ((s.wr F.FAB_PORT_STATE 2 i).setPort i { s.port i with since := s.now }).sendReconcile i
    else s) s).reachCheck

/-- A write to FAB_ISOLATE (R354); in the safe state it has no effect. -/
def State.isolateWrite (s : State) (value : Nat) : State :=
  if s.safe then s else ((s.wr F.FAB_ISOLATE_DEVICE (bits value 63 1)).wr F.FAB_ISOLATE_PORTS (bits value 0 32)).applyIsolate

/-- FAB_ISOLATE_WRITE (R354). -/
def execFabIsolateWrite (t : Nat) (who : Requester) (value : Nat) (s : State) : Out :=
  let s := s.tick t
  .next (s.asAdmin who (fun s => s.isolateWrite value))

/-! ### Device time (R362, R363) -/

/-- The serving time master (R362): of the masters that can be reached, this device among them, the one with the lowest address; with none, the
root. -/
def State.timeMaster (s : State) : Nat :=
  match s.fab.masters.filter s.reachable ++ (if s.on F.FAB_TIME_MASTER then [s.fabAddr] else []) with
  | [] => s.rd F.FAB_ADDR_ROOT
  | a :: l => l.foldl min a

/-- The port of the primary route to the time master. -/
def State.masterPort (s : State) : Option Nat := s.live s.timeMaster 0 5

/-- TIME_EXCHANGE (R362): times in ps, and the masters that the frames name; the link delay, and the offset of this device from the neighbour on
the primary route to the master. -/
def execTimeExchange (t port t1 t2 t3 t4 : Nat) (masters : List Nat) (s : State) : Out :=
  let s := s.tick t
  let s := if port < 32 then { s with fab := { s.fab with masters := masters.filter (fun a => decide (a ≠ s.fabAddr)) } } else s
  let delay : Int := (((t4 : Int) - t1) - ((t3 : Int) - t2)) / 2
  let off : Int := (((t1 : Int) - t2) + ((t4 : Int) - t3)) / 2
  inst (port < 32)
    (if s.timeMaster = s.fabAddr then s.wr F.FAB_TIME_MASTER_ADDR s.fabAddr
     else if s.masterPort ≠ some port then s
     else
       let s := s.setPort port { s.port port with delayPs := delay }
       let s := ((s.wr F.FAB_TIME_OFFSET_PS (unsigned off 32)).wrB F.FAB_TIME_SYNCED (-20000 ≤ off ∧ off ≤ 20000)).wr F.FAB_TIME_MASTER_LOST 0
       ({ s with fab := { s.fab with masterGone := none } } : State).wr F.FAB_TIME_MASTER_ADDR s.timeMaster)

/-- MASTER_LOST (R363): the master cannot be reached; SYNCED clears 10 s later. -/
def execMasterLost (t : Nat) (s : State) : Out :=
  let s := s.tick t
  .next
    (if s.timeMaster = s.fabAddr ∨ s.reachable s.timeMaster then s
     else
       let since := s.fab.masterGone.getD s.now
       let s := ({ s with fab := { s.fab with masterGone := some since } } : State).wr F.FAB_TIME_MASTER_LOST 1
       if since + 10000000000 ≤ s.now then s.wr F.FAB_TIME_SYNCED 0 else s)

/-! ### Neighbour queries (R364) -/

/-- PEER_QUERY_SEND (R364). -/
def execPeerQuerySend (t : Nat) (s : State) : Out :=
  let s := s.tick t
  .next (s.upPorts.foldl (fun (s : State) i => s.link i .peerQuery) s)

/-- The value of a register from its stored fields; AON_STAGE.CONFIG is live. -/
def State.stored (s : State) (r : Reg) (i j : Nat) : Nat :=
  let s := if r = .AON_STAGE then s.wrB F.AON_STAGE_CONFIG s.configUp else s
  (r.fields.map (fun f => s.rd f i j * 2 ^ f.lsb)).sum

/-- Restarts of the management core in the last 60 s (MGT_WDOG.RECENT). -/
def State.recentRestarts (s : State) : Nat := (s.host.restarts.filter (fun a => s.now < a + 60000000000)).length

/-- FW_AGE in µs. -/
def State.fwAge (s : State) : Nat := min ((s.now - s.host.kickAt) / 1000) 0xFFFFFFFF

/-- PEER_QUERY (R364): a query is answered by the router; two answers in succession above 1 s set NBR_FW_STALE. -/
def execPeerQuery (t port : Nat) (answer : Option Nat) (s : State) : Out :=
  let s := s.tick t
  let x := s.port port
  inst (port < 32)
    (if s.pstate port ≠ 2 ∧ s.pstate port ≠ 5 then s
     else
       match answer with
       | none => s.link port (.peerAnswer (s.stored .AON_STAGE 0 0) (s.stored .MGT_GUARANTEE 0 0) (min s.recentRestarts 255) s.fwAge)
       | some age =>
         let n := if 1000000 < age then x.fwOld + 1 else 0
         let s := s.setPort port { x with fwOld := n }
         if 2 ≤ n ∧ !s.on F.FAB_PORT_NBR_FW_STALE port then (s.wr F.FAB_PORT_NBR_FW_STALE 1 port).fabFault 0 5 port else s)

end Sys2Proof.Machine
end

