-- ==== Sys2Proof/Machine/Sequencer.lean ====
section
/-!
DEFINITION. Sys2Proof/Machine/Sequencer.lean: doorbells, heads, starts, retirements, layer retry regions, completion records and halted
contexts of the sequencers, and the turret units (spec/07, 14).
-/

namespace Sys2Proof.Machine

/-! ### What AG_CTX and TUR_STATUS show -/

/-- AG_CTX STATE, LEVEL and IN_REGION of a context; a halted context stays halted. A group that stops being idle restarts its idle timer
(R285). -/
def State.showCtx (s : State) (g c : Nat) : State :=
  match s.ctx g c with
  | none => s
  | some x =>
    let was := s.rd F.AG_CTX_STATE g c
    let st := if was = 2 then 2
      else match x.head with
        | some h => if h.waits then 3 else 1
        | none => if (s.jobsOf g c).isEmpty then 0 else 1
    let s := if was ≠ st ∨ st % 2 = 1 then s.stirred g else s
    ((s.wr F.AG_CTX_STATE st g c).wr F.AG_CTX_LEVEL ((x.region.map (fun r => r.level)).getD 0) g c).wrB F.AG_CTX_IN_REGION
      x.region.isSome g c

/-- Programs on the turret unit of AGg: the first runs, the second is staged. -/
def State.turretJobs (s : State) (g : Nat) : List Job :=
  s.jobs.filter (fun j => decide (j.unit = 20) && decide (j.pa = g) && !j.ended)

/-- TUR_STATUS of AGg. -/
def State.showTurret (s : State) (g : Nat) : State :=
  let l := s.turretJobs g
  let s := match l.head? with
    | some j => s.wr F.TUR_STATUS_PROG_ADDR (j.progAddr / 64) g
    | none => s
  (s.wrB F.TUR_STATUS_RUNNING (!l.isEmpty) g).wrB F.TUR_STATUS_STAGED (decide (2 ≤ l.length)) g

/-! ### Doorbells (R309, R311) -/

/-- The doorbell word of context `c` of AGg takes effect, or is refused (R309): the new SQ_TAIL lies between the previous one and 2^SQ_LOG2 ahead of
SQ_HEAD, the new CQ_HEAD between the previous one and CQ_TAIL. -/
def State.doorbell (s : State) (g c word : Nat) : State :=
  let tail := bits word 0 16
  let cqh := bits word 16 16
  let arm := word.testBit 32
  let p := s.rd F.AG_CONFIG_PARTITION g
  let refuse : State := (s.inc F.PCI_RING_BAD_DB g c).raise { cls := 2, level := 1, master := g, part := p, source := g, aux := c }
  match s.ctx g c with
  | none => refuse
  | some x =>
    let sqh := s.rd F.PCI_RING_SQ_HEAD g c
    let cqt := s.rd F.PCI_RING_CQ_TAIL g c
    if 2 ^ x.sqLog2 < ahead tail sqh ∨ ahead tail sqh < ahead x.sqTail sqh ∨ ahead cqt x.cqHead < ahead cqt cqh then refuse
    else
      let s := s.setCtx g c { x with sqTail := tail, cqHead := cqh }
      if arm ∧ cqt ≠ cqh then (s.wr F.PCI_RING_ARMED 0 g c).complInterrupt g c x
      else s.wrB F.PCI_RING_ARMED arm g c

/-- Whether function `fn` reaches the doorbell pages of AGg. -/
def State.fnReaches (s : State) (fn : Fn) (g : Nat) : Bool :=
  match fn with
  | .pf0 => true
  | .vf n => decide (s.partOf g = some (n - 1))
  | .bfy p => decide (s.partOf g = some p)

/-- A doorbell word that `fn` writes: one to another partition's page is denied to a Belfry core (R239) and reaches nothing from a VF; it waits
behind earlier posted writes of its sender (R244, R303), and for a group that sleeps (R286). -/
def State.doorbellFrom (s : State) (fn : Fn) (g c word : Nat) : State :=
  if !s.fnReaches fn g then
    (match fn with
     | .bfy p => s.registerDenied p true
     | _ => s)
  else if s.safe then s
  else
    let ev : HeldEvent := .doorbell fn g c word
    match s.behind ev with
    | some k => s.queueEvent k ev
    | none => if s.groupRuns g then (s.doorbell g c word).showCtx g c else s.holdEvent g ev

/-- DOORBELL_WRITE (R309). -/
def execDoorbellWrite (t : Nat) (fn : Fn) (g c word : Nat) (s : State) : Out :=
  inst (g < 16 ∧ c < 8) ((s.tick t).doorbellFrom fn g c word)

/-! ### The head of a context (R155, R161, R498) -/

/-- Where the next descriptor of a context lies: its address, that of the slot after it, its index, whether it lies in a level segment, and
how many slots are there. -/
def State.headSlot (s : State) (g c : Nat) (x : CtxSt) : Option (Nat × Nat × Nat × Bool × Nat) :=
  match x.region.filter (fun r => decide (0 < r.level)) with
  | some r => if r.pos < r.segCount then
      some (r.segAddr + 64 * r.pos, r.segAddr + 64 * (r.pos + 1), r.pos, true, r.segCount - r.pos) else none
  | none =>
    let h := s.rd F.PCI_RING_SQ_HEAD g c
    let n := ahead x.sqTail h
    let size : Nat := 2 ^ x.sqLog2
    if 0 < n ∧ n ≤ size then some (x.sqBase + 64 * (h % size), x.sqBase + 64 * ((h + 1) % size), h, false, n) else none

/-- Whether the sequencer of partition `p`'s group `g` works on descriptors at all. -/
def State.seqUp (s : State) (p g : Nat) : Bool := s.free_ p && s.groupRuns g && s.hasPart p

/-- Drops a head that will not start: its reservation is released and a wait not yet satisfied is dropped (notes/assumptions/44.md). -/
def State.dropHead (s : State) (g c : Nat) : State :=
  match (s.ctx g c).bind (fun x => x.head) with
  | none => s
  | some _ =>
    let s := (s.unreserve g c).updCtx g c (fun x => { x with head := none })
    match s.waits.find? (fun w => decide (w.g = g) && decide (w.c = c)) with
    | none => s
    | some w => ({ s with waits := s.waits.filter (fun x => x ≠ w) } : State).stirred ((s.homeOf w.p).getD g)

/-- Puts a wait in its place: after every wait registered before it, and among those of its cycle by array group and context (R166). -/
def placeWait (w : Wait) : List Wait → List Wait
  | [] => [w]
  | x :: l => if x.since = w.since ∧ 8 * w.g + w.c < 8 * x.g + x.c then w :: x :: l else x :: placeWait w l

/-- The wait of the head is registered on its bell in order, and the bell's waits are evaluated (R165, R166). Waits registered at one time are
those of one cycle (notes/assumptions/89.md). -/
def State.registerWait (s : State) (j : Job) : State :=
  match s.homeOf j.p with
  | none => s
  | some home =>
    let bell := bits j.waitBell 0 12
    let w : Wait := { p := j.p, bell := bell, g := j.g, c := j.c, n := j.waitCount, due := s.now + s.waitNs home j.waitField,
                      since := s.now }
    let s := { s with waits := placeWait w s.waits }
    s.evalWaits j.p bell (s.waits.length + 1)

/-- A descriptor read at the head is judged and takes its place there, or ends (R161, R498). -/
def State.judgeHead (s : State) (j : Job) (unread : Bool) : State :=
  let s := { s with jobCtr := j.id }.reserve j.g j.c
  let f : Job × State :=
    if j.op = 2 ∧ !unread ∧ !j.bad01 ∧ j.target ≤ 3 then
      match s.devRead (dieOf j.g) j.g j.p (leAt j.desc 16 6) 64 with
      | (some c, _, _, s) => ({ j with cmdBad := some (stwCode c) }, s)
      | (none, _, true, s) => ({ j with cmdBad := some 5 }, s)
      | (none, b, false, s) => ({ j with cmd := b }, s)
    else (j, s)
  let j := f.1
  let s := f.2
  let d := if unread then 1 else s.validate j
  if d ≠ 0 then (s.takeHead j).endJob j 1 d 0
  else
    match j.cmdBad with
    | some code =>
      let s := (s.wr F.STW_PROG_LAST_CODE code j.g j.target).stwFirst j.g j.target code j.cmdAddr
      (s.takeHead j).endJob j 0x0A code 0
    | none =>
      let s := s.updCtx j.g j.c (fun x => { x with head := some { job := j, waits := j.waits } })
      if j.waits then s.registerWait j else s

/-- The unit a descriptor names (R154). -/
def unitOf (op target : Nat) : Nat := if op = 1 then target else if op = 2 then 16 + target else if op = 3 then 20 else 31

/-- The next descriptor of the context reaches its head once it has been posted whole and a completion slot can be reserved (R155, R161, R310;
notes/assumptions/29.md). -/
def State.headStep (s : State) (g c : Nat) : State :=
    match s.ctx g c with
     | none => s
     | some x =>
       let p := s.rd F.AG_CONFIG_PARTITION g
       if s.rd F.AG_CTX_STATE g c = 2 ∨ x.head.isSome ∨ (x.region.bind (fun r => r.stop)).isSome ∨ !s.canReserve g c ∨ !s.seqUp p g
           ∨ x.ends.any (fun e => e.op = 6 && decide (e.status = 0)) then s
       else
         match s.headSlot g c x with
         | none => s
         | some (addr, next, idx, alt, avail) =>
           match s.devRead (dieOf g) g p addr 64 with
           | (code, b, bad, s') =>
             let unread := code.isSome || bad
             let desc := if unread then natLe 64 0 else b
             let op := leAt desc 0 1
             let j0 : Job := { id := s'.jobCtr + 1, g := g, c := c, p := p, idx := idx, alt := alt,
                               level := (x.region.map (fun r => r.level)).getD 0,
                               inReg := decide (op = 5) || (x.region.isSome && decide (op ≠ 6)),
                               desc := desc, ext := [], unit := unitOf op (leAt desc 9 1) }
             if op = 1 ∧ j0.hasExt ∧ !unread then
               if avail < 2 then
                 if alt then (s'.judgeHead { j0 with ext := natLe 64 0x0F } false).showCtx g c else s
               else
                 match s'.devRead (dieOf g) g p next 64 with
                 | (some _, _, _, s') => (s'.judgeHead { j0 with ext := natLe 64 0 } true).showCtx g c
                 | (none, _, true, s') => (s'.judgeHead { j0 with ext := natLe 64 0 } true).showCtx g c
                 | (none, e, false, s') => (s'.judgeHead { j0 with ext := e } false).showCtx g c
             else (s'.judgeHead j0 unread).showCtx g c

/-! ### Sampling and echoes (R390, R391, R395) -/

/-- Whether the Gallery may sample a descriptor (R390). -/
def Job.eligible (j : Job) : Bool := (decide (j.op = 1) && j.clear) || decide (j.op = 2) || decide (j.op = 3)

/-- Key of a unit among those that serve no echoes: a physical array, an engine, a turret unit. -/
def unitKey (unit pa g : Nat) : Nat := if unit < 16 then pa else if unit < 20 then 1000 + 4 * g + (unit - 16) else 2000 + pa

/-- Whether an echo runs on physical array `pa`. -/
def State.echoOn (s : State) (pa : Nat) : Bool := s.jobs.any (fun k => k.echo && decide (k.op = 1) && decide (k.pa = pa))

/-- The spare of a group that can serve an echo: idle, or still in role ECHO though a partition reset has discarded its echo (R43). -/
def State.echoSpare (s : State) (g : Nat) : Option Nat :=
  let pa := 17 * g + s.rd F.AG_SPARE_SPARE_J g
  if (s.rd F.SPR_STATUS_ROLE pa = 2 ∨ s.rd F.SPR_STATUS_ROLE pa = 3) ∧ !s.echoOn pa ∧ !s.gal.noEcho.contains pa then some pa else none

/-- Whether sampling in array group `g` is suspended: its spare is in TEST, or a Campanile request waits for it (R42, R394). -/
def State.noSampling (s : State) (g : Nat) : Bool :=
  let pa := 17 * g + s.rd F.AG_SPARE_SPARE_J g
  decide (s.rd F.SPR_STATUS_ROLE pa = 4) || s.gal.camp.any (fun c => c.target = some pa)

/-- Echo unit of a descriptor: unit number and physical array or group (R390); none where none is free (notes/assumptions/45.md). -/
def State.echoUnit (s : State) (j : Job) : Option (Nat × Nat) :=
  match j.op with
  | 1 =>
    let own := s.echoSpare j.g
    let others := (s.groupsOf j.p).filter (fun g => decide (g ≠ j.g) && decide (g / 4 = j.g / 4))
    (own.or (others.findSome? s.echoSpare)).map (fun pa => (j.unit, pa))
  | 2 =>
    ((List.range 4).find? (fun e => decide (e ≠ j.target) && (s.copyOn j.g e).isNone
      && !s.gal.noEcho.contains (unitKey (16 + e) 0 j.g))).map (fun e => (16 + e, 0))
  | _ =>
    let gs := s.groupsOf j.p
    let next := ((gs.find? (fun g => j.g < g)).or gs.head?).getD j.g
    if (s.turretJobs next).length < 2 ∧ !s.gal.noEcho.contains (unitKey 20 next 0) then some (20, next) else none

/-- Bytes of a compare unit's divert buffer (R391). -/
def divertBytes : Nat := 8 * 2 ^ 20

/-- Whether the Gallery samples descriptor `j` at its start, with the free value its own generator gives under the rate-bound goal. -/
def State.samples (s : State) (j : Job) : Bool × State :=
  if !s.on F.GAL_GOAL_GALLERY j.p ∨ !j.eligible ∨ s.noSampling j.g ∨ (s.echoUnit j).isNone then (false, s)
  else if s.on F.GAL_GOAL_GOAL j.p then (decide (s.free % 1000000 < s.rd F.GAL_GOAL_RATE_PPM j.p), s.freeTaken)
  else
    let h := s.hEff j.p
    let n := ((s.ctx j.g j.c).map (fun x => agetD x.elig j.step 0)).getD 0
    (decide (h ≠ 0) && decide (n % h = j.step % h), s)

/-- Counts an eligible descriptor that starts. -/
def State.countElig (s : State) (j : Job) : State :=
  if j.eligible then s.updCtx j.g j.c (fun x => { x with elig := aset x.elig j.step (agetD x.elig j.step 0 + 1) }) else s

/-! ### Starts (R56, R96, R151, R152, R157, R189) -/

/-- What a descriptor latches when it starts: the contents of every slot it names as they stand (R56). Formats are judged at the head (R48,
R161) and not again: a slot rewritten since applies as it reads now, VALID or not (DEDUCED, notes/assumptions/82.md). -/
def State.latch (s : State) (j : Job) : Job :=
  let f := fun (code : Nat) => if customCode code then (s.fmtSlot j.g (code - 0x40)).fmt else (fixedFmt code).getD ⟨false, 0, 0, 0, 0, false⟩
  let j := { j with seed := s.rd F.AG_SR_SEED_SEED j.g, gen := s.rd F.HNG_STATUS_GEN j.p }
  match j.op with
  | 1 => { j with xf := f j.xFmt, yf := f j.yFmt, of_ := f j.outFmt, ff := f j.fusedFmt }
  | 2 =>
    { j with xf := f j.srcFmt, of_ := f j.dstFmt,
             fslots := ([j.srcFmt, j.dstFmt].filter customCode).map (fun (code : Nat) => (code - 0x40, s.fmtSlot j.g (code - 0x40))) }
  | _ => j

/-- The checks of a MATMUL at start: how it ends, if it does no work, with the descriptor as it starts. -/
def State.prepareMatmul (s : State) (j : Job) : Option (Nat × Nat × Nat) × Job × State :=
  let hdr := (List.range j.chunks).foldl (fun (a : Option (Nat × Nat × Nat) × Nat × Nat × State) k =>
    match a with
    | (some e, m, n, s) => (some e, m, n, s)
    | (none, m, n, s) => s.checkChunk j (k * j.perChunk) m n) (none, 0, 0, s)
  match hdr with
  | (some e, _, _, s) => (some e, j, s)
  | (none, m, n, s) =>
    let j := { j with m := m, n := n }
    let d := s.startDetail j m n
    if d ≠ 0 then (some (1, d, 0), j, s)
    else if j.writesOut && decide (j.outKind = 1) then
      match s.latchScale j.g j.p j.tensor j.outFmt with
      | (.scale v, s) => (none, { j with oscale := some v }, s)
      | (.unseeded, s) => (none, { j with oscale := none }, s)
      | (.failed, s) => (some (6, 0, 0), j, s)
    else (none, j, s)

/-- A prepared descriptor, or its echo, begins on its unit. -/
def State.begin_ (s : State) (j : Job) : State :=
  let s := if s.jobs.any (fun k => k.p = j.p) then s else s.setHang j.p { s.hang j.p with ran := 0, mark := s.now }
  let s := { s with jobs := s.jobs ++ [j] }
  match j.op with
  | 1 =>
    if j.echo then s
    else
      let s := [F.SPR_CENSUS_A_NORMAL, F.SPR_CENSUS_A_SUBNORMAL, F.SPR_CENSUS_B_ZERO, F.SPR_CENSUS_B_VANISHED, F.SPR_CENSUS_C_INF,
        F.SPR_CENSUS_C_NAN, F.SPR_CENSUS_D_OVERFLOW, F.SPR_CENSUS_D_EXACT_RANGE].foldl (fun s f => s.wr f 0 j.pa) s
      s.wr F.SPR_AMAX_AMAX 0 j.pa
  | 2 => s.nextCopy j.g j.engine 2
  | _ => s.showTurret j.pa

/-- Whether the head of a context can start now (R151, R152, R163, R186, R321, R402, R451). -/
def State.canStart (s : State) (g c : Nat) : Bool :=
  match s.ctx g c with
  | none => false
  | some x =>
    match x.head with
    | none => false
    | some h =>
      let j := h.job
      let p := j.p
      let held := (s.rd F.MGT_HOST_HELD).testBit p || (s.rd F.MGT_HOST_STOPPED).testBit p
      let echo := s.jobs.find? (fun k => k.echo && decide (k.g = g) && decide (k.c = c))
      decide (s.rd F.AG_CTX_STATE g c ≠ 2) && !h.waits && s.seqUp p g && !held
        && !(s.homeOf p).any (fun hg => s.on F.AG_NUM_ADVANCE_BUSY hg)
        && !s.gal.camp.any (fun r => decide (r.p = p) && r.target.isNone)
        && !(s.snap p).arming && ((!j.fence && decide (j.op ≠ 6)) || (s.jobsOf g c).isEmpty)
        && decide ((s.jobs.filter (fun k => decide (k.g = g) && decide (k.unit = j.unit) && decide (j.unit ≠ 31) && !k.echo)).length < 2)
        && echo.isNone && (x.region.bind (fun r => r.stop)).isNone && x.ends.all (fun e => !(decide (e.op = 6) && decide (e.status = 0)))

/-- The context that starts next in round-robin order (R152). -/
def State.nextCtx (s : State) (g : Nat) : Option Nat :=
  ((List.range 8).map (fun k => (agetD s.lastCtx g 7 + 1 + k) % 8)).find? (fun c => s.canStart g c)

/-- REGION_END (R176): the withheld rings leave in ascending bell order and the region closes; the ring goes on after the level 0
REGION_END. -/
def State.endRegion (s : State) (j : Job) : State :=
  match (s.ctx j.g j.c).bind (fun x => x.region) with
  | none => s
  | some r =>
    let s := s.takeHead j
    let s := { s with rings := s.rings ++ r.withheld.map (fun (e : Nat × Nat) =>
      ({ p := j.p, bell := e.1, count := e.2, from_ := j.p, src := j.g, c := j.c } : Ring)) }
    let s := s.updCtx j.g j.c (fun x => { x with region := none, closed := if j.ringBell.testBit 15 then some r else none })
    let s := if 0 < r.level then s.wr F.PCI_RING_SQ_HEAD (r.start + r.span) j.g j.c else s
    s.endJob { j with level := r.level } 0 0 0

/-- A Gallery or Campanile request reaches physical array `pa`: it takes the role ECHO for the echo assigned to it, or TEST (R42). -/
def State.takeTest (s : State) (pa : Nat) : State :=
  if s.echoOn pa then s.wr F.SPR_STATUS_ROLE 3 pa
  else if s.gal.camp.any (fun c => c.roles.any (fun e => e.1 = pa)) then s.wr F.SPR_STATUS_ROLE 4 pa else s

/-- The request is made: an array of a group asleep takes it once the group runs (R286). -/
def State.askTest (s : State) (pa : Nat) : State := if s.groupRuns (pa / 17) then s.takeTest pa else s.holdEvent (pa / 17) (.test pa)

/-- Starts the echo of a sampled descriptor instead of it (R391): its array takes the role ECHO; another group's unit is woken (R286). -/
def State.startEcho (s : State) (j : Job) (u : Nat × Nat) : State :=
  let e := { j with id := s.jobCtr + 1, unit := u.1, pa := u.2, echo := true, startAt := s.now }
  let s := ({ s with jobCtr := s.jobCtr + 1 } : State).begin_ e
  if j.op = 1 then s.askTest u.2 else if j.op = 3 then s.wakeRequest u.2 else s

/-- The head of a context that can start does so. -/
def State.startHead (s : State) (g c : Nat) : State :=
  match (s.ctx g c).bind (fun x => x.head) with
  | none => s
  | some h =>
    let j := s.latch h.job
    let s := { s with lastCtx := aset s.lastCtx g c }
    match j.op with
    | 0 => (s.takeHead j).endJob j 0 0 0
    | 5 =>
      let r : RegionSt := { start := j.idx, span := j.span, levelMax := j.levelMax, altAddr := j.altAddr }
      let s := (s.takeHead j).updCtx g c (fun x => { x with region := some r })
      s.endJob j 0 0 0
    | 6 => s.endRegion j
    | op =>
      let j := { j with startAt := s.now, pa := if op = 1 then 17 * g + s.mapField g j.target % 32 else g }
      match (if op = 1 then s.prepareMatmul j else (none, j, s)) with
      | (some e, j, s) => (s.takeHead j).endJob j e.1 e.2.1 e.2.2
      | (none, j, s) =>
        if h.echoed then
          let done := s.echoes.any (fun k => decide (k.g = g) && decide (k.c = c) && decide (k.idx = j.idx) && decide (k.alt = j.alt))
          ((s.countElig j).takeHead j).begin_ { j with sampled := done }
        else
          let d := s.samples j
          if d.1 then
            match s.echoUnit j with
            | some u => d.2.startEcho j u
            | none => ((d.2.countElig j).takeHead j).begin_ j
          else ((d.2.countElig j).takeHead j).begin_ j

/-! ### How a started descriptor ends (R153, R163) -/

/-- Whether nothing of a MATMUL descriptor is on its way: no slot in flight, no beat not yet taken. -/
def State.quiet (s : State) (j : Job) : Bool :=
  (s.pa j.pa).slots.all (fun f => f.job ≠ j.id) && s.beats.all (fun b => b.job ≠ j.id)
    && s.outBeats.all (fun b => b.2.job ≠ j.id) && (s.ledger j.p).exports.all (fun e => e.2.all (fun b => b.job ≠ j.id))

/-- Status, DETAIL and INFO of a started descriptor all of whose effects can be observed. -/
def State.jobOutcome (s : State) (j : Job) : Option (Nat × Nat × Nat) :=
  let ok : Nat × Nat × Nat := (0, 0, j.counts.getD 4 0)
  match j.op with
  | 1 =>
    if j.stopped then (if s.quiet j then j.bad else none)
    else if s.quiet j ∧ j.done = j.passes ∧ j.drained = j.passes * j.m then
      some (j.bad.getD (if j.exactRange ≠ 0 then (8, 0, j.exactRange) else ok))
    else none
  | _ => if j.ended then some (j.bad.getD ok) else none

/-- A spare whose echo is over is idle again, or under the Campanile test that waited for it (R42). -/
def State.leaveEchoRole (s : State) (pa : Nat) : State :=
  if s.rd F.SPR_STATUS_ROLE pa ≠ 3 then s
  else (s.wr F.SPR_STATUS_ROLE (if s.gal.camp.any (fun c => c.target = some pa) then 4 else 2) pa).stirred (pa / 17)

/-- An echo that has ended leaves its unit and waits for its descriptor (R391, R392). -/
def State.endEcho (s : State) (e : Job) : State :=
  let s := s.dropJob e.id
  let s := if e.op = 1 then
      let s := s.leaveArray e
      s.leaveEchoRole e.pa
    else s
  let s := { s with echoes := s.echoes ++ [e] }
  (s.inc F.GAL_CNT_ECHOES e.p).updCtx e.g e.c (fun (x : CtxSt) => { x with head := x.head.map (fun (h : Head) => { h with echoed := true }) })

/-- An abandoned echo whose elements in flight have all drained leaves its array; its descriptor starts unsampled (R33, R391). -/
def State.dropEcho (s : State) (e : Job) : State :=
  let s := s.dropJob e.id
  let s := if e.op = 1 then (s.leaveArray e).leaveEchoRole e.pa else s
  s.updCtx e.g e.c (fun (x : CtxSt) => { x with head := x.head.map (fun (h : Head) => { h with echoed := true }) })

/-- DESCRIPTOR_START (R151, R152): the head of the context starts if it is next in round-robin order. Where its echo has ended, the
descriptor itself starts. -/
def execDescriptorStart (t g c : Nat) (s : State) : Out :=
  let s := s.tick t
  inst (g < 16 ∧ c < 8)
    (let s := match s.jobs.find? (fun k => k.echo && decide (k.g = g) && decide (k.c = c)) with
       | some e => if e.dropped then (if s.quiet e then s.dropEcho e else s)
         else if (s.jobOutcome e).isSome ∧ e.divert.length ≤ divertBytes then s.endEcho e else s
       | none => s
     if s.nextCtx g = some c then (s.startHead g c).showCtx g c else s)

/-! ### Retirement (R153, R178, R185, R193) -/

/-- The record that announces a promotion (R178). -/
def State.promotedRec (s : State) (j : Job) (level : Nat) : EndRec :=
  { ringIdx := j.idx, job := j.id, index := s.indexOf j, alt := j.alt, level := level, op := j.op, tag := j.tag, status := 0x0C,
    detail := level, info := 0, chk := j.chk, ringDue := false, write := true }

/-- After the last retirement of a region that is to promote: rings discarded, promotions counted, the PROMOTED record due (R178, R193). -/
def State.maybePromote (s : State) (g c : Nat) : State :=
  match (s.ctx g c).bind (fun x => x.region) with
  | none => s
  | some r =>
    match r.stop with
    | none => s
    | some e =>
      if r.due ∨ !(s.jobsOf g c).isEmpty ∨ s.rd F.AG_CTX_STATE g c = 2 then s
      else
        let s := s.dropHead g c
        let p := s.rd F.AG_CONFIG_PARTITION g
        let s := r.ovf.foldl (fun s x => s.numPromote x.1 p x.2.1 x.2.2) s
        s.updCtx g c (fun (x : CtxSt) => { x with region := some { r with withheld := [], due := true, ovf := [] }, ends := x.ends ++ [e] })

/-- The numerics table learns what a retiring descriptor converted (R185). -/
def State.retireUpdate (s : State) (j : Job) : State :=
  if j.counts.sum = 0 then s
  else if j.op = 1 ∧ j.writesOut then s.numUpdate j.g j.p j.tensor j.step j.outFmt j.outMode j.counts j.amax
  else if j.op = 2 ∧ !j.bitExact then s.numUpdate j.g j.p j.tensor j.step j.dstFmt j.convMode j.counts j.amax
  else s

/-- A started descriptor retires with its outcome. -/
def State.retire (s : State) (j : Job) (o : Nat × Nat × Nat) : State :=
  let s := if j.op = 1 then s.leaveArray j else s
  let s := s.retireUpdate j
  let over_ := j.counts.getD 4 0
  let reg := (s.ctx j.g j.c).bind (fun x => x.region)
  let hot := j.watch && j.inReg && decide (0 < over_) && decide (o.1 = 0)
  let code := if j.op = 1 then j.outFmt else j.dstFmt
  let s := match reg with
    | some r =>
      if hot then
        if r.level < r.levelMax then
          let first := r.stop.isNone
          let stop := r.stop.or (some (s.promotedRec j (r.level + 1)))
          let r : RegionSt := { r with stop := stop, ovf := r.ovf ++ [(j.g, j.tensor, code)] }
          let s := s.updCtx j.g j.c (fun (x : CtxSt) => { x with region := some r })
          (if first then s.reserve j.g j.c else s).endJob j o.1 o.2.1 o.2.2
        else s.endJob j 0x0D r.level 0
      else s.endJob j o.1 o.2.1 o.2.2
    | none => s.endJob j o.1 o.2.1 o.2.2
  let s := if j.unit = 20 then s.showTurret j.pa else s
  (s.maybePromote j.g j.c).showCtx j.g j.c

/-- DESCRIPTOR_RETIRE of the k-th started and unretired descriptor of the context (R153). A sampled descriptor retires once its digests have
been compared (R392). -/
def execDescriptorRetire (t g c k : Nat) (s : State) : Out :=
  let s := s.tick t
  inst (g < 16 ∧ c < 8)
    (match (s.jobsOf g c)[k]? with
     | none => s
     | some j =>
       match s.jobOutcome j with
       | none => s
       | some o => if j.sampled then s else s.retire j o)

/-! ### Levels (R160, R178) -/

/-- LEVEL_START: after a promotion the next level begins, from the segment its level-table entry gives (R160). An entry that cannot be read
or breaks its layout ends the region REJECTED with DETAIL 11h (notes/assumptions/30.md). -/
def execLevelStart (t g c : Nat) (s : State) : Out :=
  let s := s.tick t
  inst (g < 16 ∧ c < 8)
    (match (s.ctx g c).bind (fun x => x.region) with
     | none => s
     | some r =>
       let p := s.rd F.AG_CONFIG_PARTITION g
       if !r.due ∨ s.rd F.AG_CTX_STATE g c = 2 ∨ !s.seqUp p g then s
       else
         match s.devRead (dieOf g) g p (r.altAddr + 16 * r.level) 16 with
         | (code, b, bad, s') =>
           let addr := leAt b 0 6
           let n := leAt b 6 2
           if code.isNone ∧ !bad ∧ addr % 64 = 0 ∧ n ≠ 0 ∧ allZero (slice b 8 8) then
             let r : RegionSt := { r with level := r.level + 1, segAddr := addr, segCount := n, pos := 0, stop := none, due := false, ovf := [] }
             (s'.updCtx g c (fun (x : CtxSt) => { x with region := some r })).showCtx g c
           else if !s.canReserve g c then s
           else
             match r.stop with
             | none => s
             | some e =>
               let e : EndRec := { e with status := 1, detail := 0x11, level := r.level }
               let r' : RegionSt := { r with due := false, stop := none }
               let s' := (s'.reserve g c).updCtx g c (fun (x : CtxSt) => { x with region := some r', ends := x.ends ++ [e] })
               (s'.statusEffects g c p e.index e.ringIdx 1 0x11).showCtx g c)

/-! ### Completion records (R162, R310, R311) -/

/-- COMPLETION_RECORD_WRITE of the k-th ended descriptor whose ring has been judged. It waits with its page (R223, R429), so that CQ_TAIL and the
interrupt never come before the record. -/
def execCompletionRecordWrite (t g c k : Nat) (s : State) : Out :=
  let s := s.tick t
  inst (g < 16 ∧ c < 8)
    (match s.ctx g c with
     | none => s
     | some x =>
       match (x.ends.filter (fun e => !e.ringDue))[k]? with
       | none => s
       | some e =>
         let p := s.rd F.AG_CONFIG_PARTITION g
         let i := s.rd F.PCI_RING_CQ_TAIL g c
         if s.writeWaits (x.cqBase + 16 * (i % 2 ^ x.cqLog2)) 16 then s else
         let s := (s.devWrite (dieOf g) g p (x.cqBase + 16 * (i % 2 ^ x.cqLog2)) (e.bytes g c i x.cqLog2)).2
         let s := (s.wr F.PCI_RING_CQ_TAIL (i + 1) g c).unreserve g c
         let s := s.updCtx g c (fun y => { y with ends := y.ends.filter (fun z => z ≠ e) })
         let s := if e.status = 1 then s.inc F.AG_SEQ_EVENTS_REJECTED g
           else if e.status = 0x0C then s.inc F.AG_SEQ_EVENTS_PROMOTIONS g
           else if e.status = 0x0D then s.inc F.AG_SEQ_EVENTS_FINAL g else s
         if s.on F.PCI_RING_ARMED g c then (s.wr F.PCI_RING_ARMED 0 g c).complInterrupt g c x else s)

/-! ### Leaving HALTED (R164, R179) -/

/-- RETRY of a REGION_END whose own ring was refused: its region is open again at that descriptor, with no ring left to apply (R164, R176). -/
def State.reopen (s : State) (g c haltAt : Nat) (r : RegionSt) : State :=
  let r : RegionSt := { r with withheld := [], stop := none, due := false, ovf := [], pos := r.segCount - 1 }
  let s := s.updCtx g c (fun y => { y with region := some r })
  if r.level = 0 then s.wr F.PCI_RING_SQ_HEAD haltAt g c else s

/-- A context leaves HALTED: RESUME goes on with the first descriptor not yet started, or after the region; RETRY goes back to the halted
descriptor, or to the first descriptor of the region's present level (notes/assumptions/31.md). -/
def State.leaveHalt (s : State) (g c : Nat) (retry : Bool) : State :=
  match s.ctx g c with
  | none => s
  | some x =>
    if s.rd F.AG_CTX_STATE g c ≠ 2 then s
    else
      let s := s.wr F.AG_CTX_STATE 0 g c
      let s := s.updCtx g c (fun y => { y with closed := none, endRefused := false })
      match x.region, x.closed.filter (fun _ => x.endRefused && retry) with
      | none, some r => ((s.dropHead g c).reopen g c x.haltAt r).showCtx g c
      | none, none => if retry then ((s.dropHead g c).wr F.PCI_RING_SQ_HEAD x.haltAt g c).showCtx g c else s.showCtx g c
      | some r, _ =>
        let s := s.dropHead g c
        let s := if r.stop.isSome && !r.due then s.unreserve g c else s
        let fresh : RegionSt := { r with withheld := [], stop := none, due := false, ovf := [], pos := 0 }
        let s := if retry then
            let s := s.updCtx g c (fun y => { y with region := some fresh })
            if r.level = 0 then s.wr F.PCI_RING_SQ_HEAD (r.start + 1) g c else s
          else (s.updCtx g c (fun y => { y with region := none })).wr F.PCI_RING_SQ_HEAD (r.start + r.span) g c
        s.showCtx g c

/-- CONTEXT_RESUME: a 1 written to AG_CTX_c.RESUME. -/
def execContextResume (t g c : Nat) (s : State) : Out :=
  let s := s.tick t
  inst (g < 16 ∧ c < 8) (s.windowWrite g .AG_CTX g c .mgt (2 ^ 32) (fun s => s.leaveHalt g c false))

/-- CONTEXT_RETRY: a 1 written to AG_CTX_c.RETRY. -/
def execContextRetry (t g c : Nat) (s : State) : Out :=
  let s := s.tick t
  inst (g < 16 ∧ c < 8) (s.windowWrite g .AG_CTX g c .mgt (2 ^ 33) (fun s => s.leaveHalt g c true))

end Sys2Proof.Machine
end

