-- ==== Sys2Proof/Machine/Vote.lean ====
section
/-!
DEFINITION. Sys2Proof/Machine/Vote.lean: the step vote: casts, reports, results and what a member learns of them (spec/15, 17, 18).
-/

namespace Sys2Proof.Machine

/-! ### Slots and steps (R356, R409, R410) -/

/-- Progress of group slot `n` in its current step. -/
def State.vote (s : State) (n : Nat) : Option VoteSt := aget s.fab.votes n

def State.setVote (s : State) (n : Nat) (v : VoteSt) : State := { s with fab := { s.fab with votes := aset s.fab.votes n v } }

/-- The current step S of slot `n` (R356): none before the first result, cast or VOTE_UP. -/
def State.voteStep (s : State) (n : Nat) : Option Nat :=
  if s.rd F.FAB_VRES_RESULT n ≠ 0 then some (s.rd F.FAB_VRES_STEP n + 1)
  else
    match s.vote n with
    | some v => some v.step
    | none => (s.fab.casts.find? (fun c => c.slot = n)).map (fun c => c.step)

/-- Whether partition `p` is a member of slot `n`. -/
def State.voteMember (s : State) (n p : Nat) : Bool := s.on F.FAB_VGRP_ENABLE n && (s.rd F.FAB_VGRP_LOCAL_MASK n).testBit p

/-- The lowest enabled slot in which `p` is a local member (R409). -/
def State.voteSlot (s : State) (p : Nat) : Option Nat := (List.range 16).find? (fun n => s.voteMember n p)

/-- LDG_VOTE shows the slot of every partition. -/
def State.showVoteSlots (s : State) : State :=
  (List.range 16).foldl (fun (s : State) p =>
    match s.voteSlot p with
    | some n => (s.wr F.LDG_VOTE_SLOT_VALID 1 p).wr F.LDG_VOTE_SLOT n p
    | none => (s.wr F.LDG_VOTE_SLOT_VALID 0 p).wr F.LDG_VOTE_SLOT 0 p) s

/-! ### Casts (R356, R389, R408) -/

/-- A cast from a non-member or for another step is refused (R356). -/
def State.castRefused (s : State) (n p : Nat) : State := (s.inc F.FAB_VEXCL_REFUSED n).fabFault 1 2 n p

/-- Whether a cast of `p` in slot `n` for `step` is taken. -/
def State.castOk (s : State) (n p step : Nat) : Bool := s.voteMember n p && (s.voteStep n).all (fun x => x = step)

/-- A write to FAB_VCAST_p: refused, or held until the step's work has ended (R408). -/
def State.castWrite (s : State) (p value : Nat) : State :=
  let n := bits value 32 4
  let step := bits value 0 32
  if s.castOk n p step then
    { s with fab := { s.fab with casts := s.fab.casts ++ [{ p := p, slot := n, step := step, verdict := value.testBit 63 }] } }
  else s.castRefused n p

/-- VOTE_CAST (R356, R408). -/
def execVoteCast (t : Nat) (who : Requester) (p value : Nat) (s : State) : Out :=
  let s := s.tick t
  inst (p < 16) (s.asWriter who p (fun s => s.castWrite p value))

/-- Ledger commands posted in the ring and not yet taken. -/
def State.postedCmds (s : State) (p : Nat) : List Bytes :=
  let h := s.rd F.LDG_STATUS_SQ_HEAD p
  let size := 2 ^ max 4 (s.rd F.LDG_SQ_LOG2 p)
  (List.range (((s.ledger p).sqTail + 65536 - h) % 65536)).map (fun k =>
    let a := 4096 * s.rd F.LDG_SQ_BASE p + 64 * ((h + k) % size)
    (List.range 64).map (fun o => s.rdByte (s.keyOf 4 (a + o))))

/-- Whether the work of partition `p` up to `step` has ended as R408 requires: no started descriptor, no echo or comparison, no ledger command,
and every inbox record VERIFIED. -/
def State.stepEnded (s : State) (p step : Nat) : Bool :=
  let x := s.ledger p
  let cmdOpen := fun (c : Bytes) => decide (leAt c 0 1 ≠ 3) && decide (cmdStep c ≤ step)
  !s.jobs.any (fun j => decide (j.p = p) && decide (j.step ≤ step)) && !s.echoes.any (fun j => decide (j.p = p) && decide (j.step ≤ step))
    && !x.run.any (fun r => cmdOpen r.cmd) && !x.extra.any cmdOpen && !(s.postedCmds p).any cmdOpen
    && !x.inQ.any (fun r => decide (recStep r ≤ step))
    && (s.ledRecords p).all (fun e => decide (recKind e.2 ≠ 4) || decide (step < recStep e.2) || (recFlags e.2).testBit 2)

/-- The verdict as cast: forced to 0 for a bad step (R389). -/
def State.forceVerdict (s : State) (p step : Nat) (v : Bool) : Bool × State :=
  if v && s.on F.GAL_GOAL_BAD p && decide (s.rd F.GAL_STEP_BAD_STEP p ≤ step) then (false, s.inc F.GAL_CNT_FORCED p) else (v, s)

/-- VOTE_CAST_RELEASE: the first held cast of `p` whose step's work has ended enters the vote (R389, R408). -/
def execVoteCastRelease (t p : Nat) (s : State) : Out :=
  let s := s.tick t
  inst (p < 16)
    (match s.fab.casts.find? (fun c => decide (c.p = p) && s.stepEnded p c.step) with
     | none => s
     | some c =>
       let ok := s.castOk c.slot p c.step
       let s := { s with fab := { s.fab with casts := s.fab.casts.erase c } }
       if !ok then s.castRefused c.slot p
       else
         let f := s.forceVerdict p c.step c.verdict
         let s := f.2
         let v := (s.vote c.slot).getD { step := c.step, begun := s.now }
         s.setVote c.slot { v with locals := aset v.locals p f.1 })

/-! ### Results (R359, R409) -/

/-- Writes FAB_VRES_n; a changed result rings RESULT_BELL and updates LAST_COMMIT of the members that report slot `n` (R359, R409). -/
def State.voteResult (s : State) (n step result count first : Nat) : State :=
  let count := min count 0x3FFF
  let changed := decide (s.rd F.FAB_VRES_RESULT n ≠ result) || decide (s.rd F.FAB_VRES_STEP n ≠ step)
    || decide (s.rd F.FAB_VRES_EXCL_COUNT n ≠ count) || decide (s.rd F.FAB_VRES_FIRST_EXCL n ≠ first)
  let s := (((s.wr F.FAB_VRES_RESULT result n).wr F.FAB_VRES_STEP step n).wr F.FAB_VRES_EXCL_COUNT count n).wr
    F.FAB_VRES_FIRST_EXCL first n
  let s := { s with fab := { s.fab with votes := adel s.fab.votes n } }
  if !changed then s
  else
    (below 16 (fun p => s.voteSlot p = some n)).foldl (fun (s : State) p =>
      let s := if s.on F.LDG_VOTE_RING p then s.sendRing p (s.rd F.LDG_VOTE_RESULT_BELL p) 1 0x56 else s
      let excl := (s.rd F.FAB_VEXCL_LOCAL n).testBit p
      if result = 1 ∨ (result = 3 ∧ !excl) then s.wr F.LDG_FLOOR_LAST_COMMIT step p else s) s

/-- Sends VOTE_DOWN on child ports. -/
def State.sendDown (s : State) (n step result count first : Nat) (ports : List Nat) : State :=
  ports.foldl (fun (s : State) i => s.link i (.voteDown (s.rd F.FAB_VGRP_GROUP n) step result count first)) s

/-- Child ports of slot `n`. -/
def State.children (s : State) (n : Nat) : List Nat := below 32 (fun i => (s.rd F.FAB_VGRP_CHILD_MASK n).testBit i)

/-! ### Reports (R357, R358) -/

/-- A bad vote frame is dropped and counted (R358). -/
def State.badVote (s : State) : State := s.inc F.FAB_DROP_BAD_OP

/-- The enabled slot of group `g` to which `f` says the port belongs. -/
def State.groupSlot (s : State) (g : Nat) (f : Nat → Bool) : Option Nat :=
  (List.range 16).find? (fun n => s.on F.FAB_VGRP_ENABLE n && decide (s.rd F.FAB_VGRP_GROUP n = g) && f n)

/-- VOTE_UP on a child port (R356 to R358). -/
def execVoteUp (t port group step : Nat) (verdict : Bool) (count first : Nat) (s : State) : Out :=
  let s := s.tick t
  inst (port < 32)
    (if s.pstate port ≠ 2 then s
     else
       match s.groupSlot group (fun n => (s.rd F.FAB_VGRP_CHILD_MASK n).testBit port) with
       | none => s.badVote
       | some n =>
         if (s.voteStep n).any (fun x => x ≠ step) then s.badVote
         else
           let v := (s.vote n).getD { step := step, begun := s.now }
           s.setVote n { v with kids := aset v.kids port (verdict, count, first) })

/-- Members and children that have not reported. -/
def State.missing (s : State) (n : Nat) (v : VoteSt) : List Nat × List Nat :=
  (below 16 (fun p => (s.rd F.FAB_VGRP_LOCAL_MASK n).testBit p && !(s.rd F.FAB_VEXCL_LOCAL n).testBit p && (aget v.locals p).isNone),
   (s.children n).filter (fun i => !(s.rd F.FAB_VEXCL_CHILD n).testBit i && (aget v.kids i).isNone))

/-- Excludes children whose port is not UP or whose partner is isolated (R357). -/
def State.excludeDead (s : State) (n : Nat) : State :=
  (s.children n).foldl (fun (s : State) i =>
    if s.pstate i ≠ 2 ∨ s.on F.FAB_PORT_NBR_ISOLATE i then s.wrBit F.FAB_VEXCL_CHILD i true n else s) s

/-- Verdict, EXCL_COUNT and FIRST_EXCL of a report (R358); FIRST_EXCL reads 0 where nothing is excluded. -/
def State.report (s : State) (n : Nat) (v : VoteSt) : Bool × Nat × Nat :=
  let verdict := v.locals.all (fun e => e.2) && v.kids.all (fun e => e.2.1)
  let mem := below 16 (fun p => (s.rd F.FAB_VGRP_LOCAL_MASK n).testBit p && (s.rd F.FAB_VEXCL_LOCAL n).testBit p)
  let kid := (s.children n).filter (fun i => (s.rd F.FAB_VEXCL_CHILD n).testBit i)
  let count := (v.kids.map (fun e => e.2.2.1)).sum + mem.length + kid.length
  let firsts := (if mem.isEmpty then [] else [s.fabAddr]) ++ kid.map (fun i => s.rd F.FAB_PORT_NBR_ADDR i)
    ++ (v.kids.filter (fun e => 0 < e.2.2.1)).map (fun e => e.2.2.2)
  (verdict, min count 0x3FFF, match firsts with
    | [] => 0
    | a :: l => l.foldl min a)

/-- VOTE_REPORT of slot `n` (R357 to R359): every one not excluded has reported, or WAIT_US has passed; the root decides the result. -/
def execVoteReport (t n : Nat) (s : State) : Out :=
  let s := s.tick t
  inst (n < 16)
    (match s.vote n with
     | none => s
     | some v =>
       if v.reported ∨ !s.on F.FAB_VGRP_ENABLE n then s
       else
         let s := s.excludeDead n
         let m := s.missing n v
         let late := v.begun + max 1 (s.rd F.FAB_VCFG_WAIT_US n) * 1000 ≤ s.now
         if !(m.1.isEmpty ∧ m.2.isEmpty) ∧ !late then s
         else
           let s := m.1.foldl (fun (s : State) p => s.wrBit F.FAB_VEXCL_LOCAL p true n) s
           let s := m.2.foldl (fun (s : State) i => s.wrBit F.FAB_VEXCL_CHILD i true n) s
           let r := s.report n v
           if s.on F.FAB_VGRP_HAS_PARENT n then
             (s.setVote n { v with reported := true }).link (s.rd F.FAB_VCFG_PARENT_PORT n)
               (.voteUp (s.rd F.FAB_VGRP_GROUP n) v.step r.1 r.2.1 r.2.2)
           else
             let result := if !r.1 then 2 else if 0 < r.2.1 then 3 else 1
             (s.voteResult n v.step result r.2.1 r.2.2).sendDown n v.step result r.2.1 r.2.2
               ((s.children n).filter (fun i => !(s.rd F.FAB_VEXCL_CHILD n).testBit i)))

/-- VOTE_DOWN on the parent port (R358, R359, R409): the result is written and passed on. -/
def execVoteDown (t port group step result count first : Nat) (s : State) : Out :=
  let s := s.tick t
  inst (port < 32)
    (if s.pstate port ≠ 2 then s
     else
       match s.groupSlot group (fun n => s.on F.FAB_VGRP_HAS_PARENT n && decide (s.rd F.FAB_VCFG_PARENT_PORT n = port)) with
       | none => s.badVote
       | some n =>
         if (s.voteStep n).any (fun x => x ≠ step) ∨ result = 0 ∨ 3 < result then s.badVote
         else (s.voteResult n step result count first).sendDown n step result count first (s.children n))

/-! ### Enabling a slot (R410) -/

/-- A write to FAB_VGRP_n; ENABLE from 0 to 1 sets FAB_VRES_n to 0 and clears the current step (R410). -/
def State.vgrpWrite (s : State) (n value : Nat) : State :=
  let was := s.on F.FAB_VGRP_ENABLE n
  let s := [F.FAB_VGRP_CHILD_MASK, F.FAB_VGRP_LOCAL_MASK, F.FAB_VGRP_GROUP, F.FAB_VGRP_HAS_PARENT, F.FAB_VGRP_ENABLE].foldl
    (fun (s : State) f => s.wr f (bits value f.lsb f.width) n) s
  let s := if !was && value.testBit 0 then
      let s := [F.FAB_VRES_RESULT, F.FAB_VRES_EXCL_COUNT, F.FAB_VRES_FIRST_EXCL, F.FAB_VRES_STEP].foldl (fun (s : State) f => s.wr f 0 n) s
      { s with fab := { s.fab with votes := adel s.fab.votes n, casts := s.fab.casts.filter (fun (c : HeldCast) => c.slot ≠ n) } }
    else s
  s.showVoteSlots

/-- VGRP_ENABLE (R410). -/
def execVgrpEnable (t : Nat) (who : Requester) (n value : Nat) (s : State) : Out :=
  let s := s.tick t
  inst (n < 16) (s.asAdmin who (fun s => s.vgrpWrite n value))

end Sys2Proof.Machine
end

