-- ==== Sys2Proof/Machine/Mailbox.lean ====
section
/-!
DEFINITION. Sys2Proof/Machine/Mailbox.lean: mailboxes, sessions, the checks every request passes, and the messages of sessions and contexts
(spec/14).
-/

namespace Sys2Proof.Machine

/-! ### Sessions (R312, R320, R321) -/

/-- The open session of mailbox `m`. -/
def State.session (s : State) (m : Nat) : Option Session := s.host.sessions.find? (fun x => x.m = m)

/-- The partition a function speaks for; PF0 has management scope. -/
def fnPart (fn : Fn) : Option Nat :=
  match fn with
  | .pf0 => none
  | .vf n => some (n - 1)
  | .bfy p => some p

/-- Whether a function's scope covers partition `p` (R312). -/
def covers (fn : Fn) (p : Nat) : Bool := (fnPart fn).all (fun q => q = p)

/-- The partitions in a function's scope. -/
def State.scopeOf (s : State) (fn : Fn) : List Nat := s.partNums.filter (covers fn)

/-- MBX_STATUS.OWNER of an opener. -/
def ownerCode (fn : Fn) : Nat :=
  match fn with
  | .pf0 => 1
  | .vf _ => 2
  | .bfy _ => 3

/-- MBX_STATUS and MGT_HOST.ABSENT show the sessions. -/
def State.showSessions (s : State) : State :=
  (List.range 16).foldl (fun (s : State) m =>
    let x := s.session m
    let away := x.any (fun y => y.absentAt.isSome)
    ((s.wr F.MBX_STATUS_OWNER ((x.map (fun y => ownerCode y.fn)).getD 0) m).wrB F.MBX_STATUS_ABSENT away m).wrBit F.MGT_HOST_ABSENT m away) s

def State.setSessions (s : State) (l : List Session) : State := ({ s with host := { s.host with sessions := l } } : State).showSessions

/-- Replaces the session of the same mailbox. -/
def State.putSession (s : State) (x : Session) : State :=
  s.setSessions (s.host.sessions.map (fun y => if y.m = x.m then x else y))

/-- PF0 vector 32 + p and the VF's vector 2 for each partition a session covers (R304, R320). -/
def State.absentVectors (s : State) (fn : Fn) : State := (s.scopeOf fn).foldl (fun (s : State) p => s.vecBoth (32 + p) 2 p) s

/-- The most restrictive policy among the absent sessions that cover partition `p` (R321): 0 CONTINUE, 1 HOLD_AT_STEP, 2 STOP. -/
def State.absentPolicy (s : State) (p : Nat) : Nat :=
  ((s.host.sessions.filter (fun x => x.absentAt.isSome && covers x.fn p)).map (fun x => x.policy)).foldl max 0

/-- Puts partition `p` under the policy of its absent sessions (R321); a hold in place stays. -/
def State.applyPolicy (s : State) (p : Nat) : State :=
  match s.absentPolicy p with
  | 0 => s
  | 1 =>
    if s.on F.AG_NUMTAB_ENABLE ((s.homeOf p).getD 0) then { s with host := { s.host with holdArmed := addOnce s.host.holdArmed p } }
    else s.wrBit F.MGT_HOST_HELD p true
  | _ => s.wrBit F.MGT_HOST_STOPPED p true

/-- The session of mailbox `m` enters host-absent (R320). -/
def State.lapseSession (s : State) (m : Nat) : State :=
  match s.session m with
  | none => s
  | some x =>
    if x.absentAt.isSome then s
    else
      let s := (s.putSession { x with absentAt := some s.now }).absentVectors x.fn
      (s.scopeOf x.fn).foldl State.applyPolicy s

/-! ### Requests and responses (R314, R316) -/

/-- The vectors of a response in mailbox `m` (R304): PF0 vector m, and vector 0 of the VF whose partition holds the mailbox or whose attach
mailbox it is. -/
def State.mbxVector (s : State) (fn : Fn) (m : Nat) : State :=
  let s := if m < 16 then s.vec .pf0 m else s
  match fnPart fn with
  | none => s
  | some p => s.vec (.vf (p + 1)) 0

/-- A response is written: DONE is set, BUSY cleared, and the mailbox's vector raised. -/
def State.respond (s : State) (h : MbxHdr) (status : Nat) (data : Bytes) : State :=
  let s := { s with host := { s.host with resps := aset s.host.resps h.m { status := status, seq := h.seq, session := h.session, data := data } } }
  ((s.wr F.MBX_STATUS_BUSY 0 h.m).wr F.MBX_STATUS_DONE 1 h.m).mbxVector h.fn h.m

/-- Whether the function may write GO of the mailbox: its owner, or anyone it opens to while it is unowned (R312 to R314). -/
def State.mayGo (s : State) (fn : Fn) (m : Nat) : Bool :=
  if m < 16 then
    match s.session m with
    | some x => decide (x.fn = fn)
    | none => decide (fn = .pf0)
  else (fnPart fn).any (fun p => decide (m = 16 + p) && s.hasPart p && !s.host.sessions.any (fun x => decide (fnPart x.fn = some p)))

/-- A GO write that is ignored is counted. -/
def State.ignoreGo (s : State) (m : Nat) : State := s.inc F.MBX_STATUS_IGNORED m

/-- A request (R314, R324): ignored while BUSY or from another function, held while the management core restarts, unanswered while no firmware
runs, and served otherwise. -/
def State.mbx (s : State) (i : Instr) (h : MbxHdr) (serve : State → State) : State :=
  if !s.mayGo h.fn h.m ∨ s.on F.MBX_STATUS_BUSY h.m then s.ignoreGo h.m
  else if s.sec.fw.isNone ∨ s.host.fwDead then s
  else if s.on F.AON_STAGE_MGT_RESTART then
    ({ s with host := { s.host with heldGo := s.host.heldGo ++ [i] } } : State).wr F.MBX_STATUS_BUSY 1 h.m
  else serve s

/-- What the checks of R316 need to know of an opcode: its feature, whether it needs management scope, the partitions it names, the stage it
needs (notes/assumptions/52.md), whether the safe state answers it, and whether its fields lie in their ranges. -/
structure OpSpec where
  feat : Option Nat := none
  mgmt : Bool := false
  parts : List Nat := []
  stage : Nat := 2
  safeOk : Bool := false
  fieldOk : Bool := true

/-- The first failing check of R316, in its order. -/
def State.mbxCheck (s : State) (h : MbxHdr) (o : OpSpec) : Option Nat :=
  let x := s.session h.m
  let granted := o.feat.all (fun f => x.any (fun y => y.feats.testBit f))
  if !h.lenOk ∨ 4064 < h.len then some 3
  else if !granted then some 1
  else if x.any (fun y => y.verMajor ≠ h.verMajor ∨ y.verMinor ≠ h.verMinor) then some 2
  else if !x.any (fun y => y.id = h.session) then some 6
  else if (o.mgmt ∧ h.fn ≠ .pf0) ∨ !o.parts.all (covers h.fn) then some 5
  else if (s.safe ∧ !o.safeOk) ∨ (!s.safe ∧ s.stage < o.stage) then some 8
  else if !h.resOk ∨ !o.fieldOk then some 4
  else none

/-- What a served request answers: status, payload and the state after it. -/
abbrev Reply := Nat × Bytes × State

def okReply (s : State) (b : Bytes := []) : Reply := (0, b, s)
def busyReply (s : State) : Reply := (7, [], s)
def fieldReply (s : State) : Reply := (4, [], s)
def failReply (s : State) (code : Nat) (b : Bytes := []) : Reply := (9, natLe 4 code ++ b, s)

/-- Serves a request: the failing check's status, or what the body answers. -/
def State.serveMsg (s : State) (h : MbxHdr) (o : OpSpec) (body : State → Reply) : State :=
  match s.mbxCheck h o with
  | some st => s.respond h st []
  | none =>
    let r := body s
    r.2.2.respond h r.1 r.2.1

/-- A mailbox that exists: 0 to 15, or the attach mailbox of a partition. -/
def mbxOk (h : MbxHdr) : Bool := decide (h.m < 32)

/-- The bytes of a register's value. -/
def State.regBytes (s : State) (r : Reg) (i : Nat := 0) (j : Nat := 0) : Bytes := natLe (r.width / 8) (s.stored r i j)

/-! ### OPEN and CLOSE (R313, R318, R319, R322) -/

/-- The payload of every OPEN response: chosen version, granted map, session, firmware version, supported range. -/
def State.openData (s : State) (ver feats id : Nat) : Bytes :=
  natLe 1 (ver / 256) ++ natLe 1 (ver % 256) ++ natLe 32 feats ++ natLe 4 id ++ natLe 4 s.fwVersion
    ++ natLe 1 (Config.protoVersion / 256) ++ natLe 1 (Config.protoVersion % 256) ++ natLe 1 (Config.protoVersion / 256)
    ++ natLe 1 (Config.protoVersion % 256)

/-- The session an OPEN with REATTACH takes over: the mailbox's own, host-absent and opened through the same function, or one closed since with
contexts left open, by PF0 (R322). -/
def State.reattachOk (s : State) (fn : Fn) (m previous : Nat) : Bool :=
  match s.host.sessions.find? (fun x => x.id = previous) with
  | some x => x.absentAt.isSome && decide (x.fn = fn) && decide (x.m = m)
  | none => decide (fn = .pf0) && s.ctxs.any (fun e => e.2.session = previous) && (s.session m).isNone

/-- The mailbox an OPEN binds: the mailbox itself, or for an attach mailbox the lowest unowned one of 1 to 15 (R313). -/
def State.bindFor (s : State) (m : Nat) : Option Nat :=
  if m < 16 then some m else (List.range 16).find? (fun k => decide (0 < k) && (s.session k).isNone)

/-- Opens a session on mailbox `m`; a reattach takes over the previous one and its contexts. -/
def State.openOn (s : State) (h : MbxHdr) (m : Nat) (req : OpenReq) : State :=
  let id := s.host.nextSid
  let feats := req.features &&& Config.features
  let x : Session := { m := m, id := id, fn := h.fn, verMajor := Config.protoVersion / 256, verMinor := Config.protoVersion % 256,
                       feats := feats, policy := req.policy, lastBeat := s.now, absentAt := none, bfyCore := req.bfyCore }
  let rest := s.host.sessions.filter (fun y => decide (y.m ≠ m) && !(req.reattach && decide (y.id = req.previous)))
  let s := ({ s with host := { s.host with nextSid := id + 1 } } : State).setSessions (rest ++ [x])
  let s := if req.reattach then
      { s with ctxs := s.ctxs.map (fun (e : Nat × CtxSt) => (e.1, if e.2.session = req.previous then { e.2 with session := id } else e.2)) }
    else s
  let s := if req.reattach then s.absentVectors h.fn else s
  let s := s.wr F.MBX_STATUS_BUSY 0 h.m
  ({ h with m := m, session := id } : MbxHdr) |> fun h' => s.respond h' 0 (s.openData Config.protoVersion feats id)

/-- OPEN as firmware serves it (R313, R316, R318, R322). -/
def State.openServe (s : State) (h : MbxHdr) (req : OpenReq) : State :=
  let owner := s.session h.m
  let common := decide (req.lowest ≤ Config.protoVersion) && decide (Config.protoVersion ≤ req.highest)
  let ver := 256 * h.verMajor + h.verMinor
  let coreOk := match req.bfyCore with
    | none => true
    | some n => match h.fn with
      | .bfy p => decide (n ∈ s.coresOf p)
      | _ => false
  let fieldOk := h.resOk && decide (h.session = 0) && decide (req.policy ≤ 2) && coreOk && decide (req.lowest ≤ ver)
    && decide (ver ≤ req.highest) && (req.reattach || decide (req.previous = 0)) && (!req.reattach || s.reattachOk h.fn h.m req.previous)
  if !h.lenOk ∨ 4064 < h.len then s.respond h 3 []
  else if !common then s.respond h 2 (s.openData 0 0 0)
  else if !fieldOk then s.respond h 4 []
  else if owner.isSome ∧ !req.reattach then s.respond h 7 []
  else
    match s.bindFor h.m with
    | none => s.respond h 7 []
    | some m => s.openOn h m req

/-- OPEN (R312, R313, R318). -/
def execOpenSession (t : Nat) (h : MbxHdr) (req : OpenReq) (s : State) : Out :=
  let s := s.tick t
  inst (mbxOk h) (s.mbx (.openSession t h req) h (fun s => s.openServe h req))

/-- Whether a descriptor of a context has started without retiring, or its record is still due (R317). -/
def State.ctxBusy (s : State) (g c : Nat) : Bool := !(s.jobsOf g c).isEmpty || (s.ctx g c).any (fun x => !x.ends.isEmpty)

/-- Closes a context: what waits at its head is dropped (R317). -/
def State.closeCtx (s : State) (g c : Nat) : State :=
  let s := s.dropHead g c
  let s := { s with ctxs := adel s.ctxs (8 * g + c) }
  ((((s.wr F.PCI_RING_OPEN 0 g c).wr F.PCI_RING_ARMED 0 g c).wr F.PCI_RING_RESERVED_SLOTS 0 g c).wr F.AG_CTX_STATE 0 g c).wr
    F.AG_CTX_IN_REGION 0 g c

/-- The contexts of a session, as 8 g + c. -/
def State.ctxsOf (s : State) (id : Nat) : List Nat := (s.ctxs.filter (fun e => e.2.session = id)).map (fun e => e.1)

/-- CLOSE as firmware serves it (R312, R317): BUSY while a context of the session has a started descriptor. A host-absent session ends its absence
with it (R304). -/
def State.closeServe (s : State) (h : MbxHdr) : State :=
  s.serveMsg h { safeOk := true } (fun s =>
    let ks := s.ctxsOf h.session
    if ks.any (fun k => s.ctxBusy (k / 8) (k % 8)) then busyReply s
    else
      let s := ks.foldl (fun (s : State) k => s.closeCtx (k / 8) (k % 8)) s
      let away := (s.session h.m).any (fun x => x.absentAt.isSome)
      let s := s.setSessions (s.host.sessions.filter (fun x => x.m ≠ h.m))
      okReply (if away then s.absentVectors h.fn else s))

/-- CLOSE (R312, R317). -/
def execCloseSession (t : Nat) (h : MbxHdr) (s : State) : Out :=
  let s := s.tick t
  inst (mbxOk h) (s.mbx (.closeSession t h) h (fun s => s.closeServe h))

/-- STATUS as firmware serves it. -/
def State.statusServe (s : State) (h : MbxHdr) : State :=
  s.serveMsg h { safeOk := true } (fun s =>
    okReply s (s.regBytes .AON_STAGE ++ s.regBytes .AON_READY ++ s.regBytes .MGT_GUARANTEE ++ s.regBytes .MGT_HOST))

/-- STATUS (R317). -/
def execStatusMsg (t : Nat) (h : MbxHdr) (s : State) : Out :=
  let s := s.tick t
  inst (mbxOk h) (s.mbx (.statusMsg t h) h (fun s => s.statusServe h))

/-! ### Contexts and windows (R308, R317, R322) -/

/-- Whether a ring of `n` bytes lies 4 KiB aligned in valid pages of partition `p`. -/
def State.ringOk (s : State) (p base n : Nat) : Bool :=
  decide (base % 4096 = 0) && decide (base + n ≤ 2 ^ 40)
    && (pagesOf base n).all (fun v => pmValid (s.pmEntry v) && decide (pmOwner (s.pmEntry v) = p))

/-- CONTEXT_OPEN as firmware serves it (R308). -/
def State.contextOpenServe (s : State) (h : MbxHdr) (r : CtxOpenReq) : State :=
  let p := s.partOf r.g
  let logOk := fun (n : Nat) => decide (4 ≤ n) && decide (n ≤ 15)
  let coreOk := match r.irqCore with
    | none => true
    | some n => p.any (fun p => decide (n ∈ s.coresOf p)) && (s.session h.m).any (fun x => x.feats.testBit 4)
  s.serveMsg h
    { parts := p.toList, stage := stDome
      fieldOk := decide (r.g < 16) && decide (r.c < 8) && logOk r.sqLog2 && logOk r.cqLog2 && coreOk
        && p.any (fun p => s.ringOk p r.sqBase (64 * 2 ^ r.sqLog2) && s.ringOk p r.cqBase (16 * 2 ^ r.cqLog2)) }
    (fun s =>
      if (s.ctx r.g r.c).isSome then busyReply s
      else
        let x : CtxSt := { sqBase := r.sqBase, sqLog2 := r.sqLog2, cqBase := r.cqBase, cqLog2 := r.cqLog2,
                           irqFn := if r.irqFn then some h.fn else none, irqCore := r.irqCore, session := h.session }
        let s := s.setCtx r.g r.c x
        let s := ((s.wr F.PCI_RING_OPEN 1 r.g r.c).wr F.PCI_RING_GEN ((s.rd F.PCI_RING_GEN r.g r.c + 1) % 256) r.g r.c).wr F.PCI_RING_SQ_HEAD 0
          r.g r.c
        let s := (s.wr F.PCI_RING_CQ_TAIL 0 r.g r.c).wr F.AG_CTX_STATE 0 r.g r.c
        okReply (match h.fn with
          | .vf n => { s with host := { s.host with vfBase := aset s.host.vfBase n r.vfBase } }
          | _ => s))

/-- CONTEXT_OPEN (R308). -/
def execContextOpen (t : Nat) (h : MbxHdr) (req : CtxOpenReq) (s : State) : Out :=
  let s := s.tick t
  inst (mbxOk h) (s.mbx (.contextOpen t h req) h (fun s => s.contextOpenServe h req))

/-- CONTEXT_CLOSE as firmware serves it: BUSY while a descriptor of the context has started without retiring. -/
def State.contextCloseServe (s : State) (h : MbxHdr) (g c : Nat) : State :=
  s.serveMsg h
    { parts := (s.partOf g).toList, stage := stDome
      fieldOk := decide (g < 16) && decide (c < 8) && (s.ctx g c).isSome }
    (fun s => if s.ctxBusy g c then busyReply s else okReply (s.closeCtx g c))

/-- CONTEXT_CLOSE (R317). -/
def execContextClose (t : Nat) (h : MbxHdr) (g c : Nat) (s : State) : Out :=
  let s := s.tick t
  inst (mbxOk h) (s.mbx (.contextClose t h g c) h (fun s => s.contextCloseServe h g c))

/-- The 12 bytes of a context in CONTEXT_RESYNC (R317, R322). -/
def State.resyncBytes (s : State) (k : Nat) : Bytes :=
  let g := k / 8
  let c := k % 8
  let x := s.ctx g c
  natLe 2 (s.rd F.PCI_RING_GEN g c) ++ natLe 2 (s.rd F.PCI_RING_SQ_HEAD g c) ++ natLe 2 ((x.map (fun x => x.sqTail)).getD 0)
    ++ natLe 2 ((x.map (fun x => x.cqHead)).getD 0) ++ natLe 2 (s.rd F.PCI_RING_CQ_TAIL g c) ++ natLe 2 (s.rd F.AG_CTX_STATE g c)

/-- CONTEXT_RESYNC as firmware serves it. -/
def State.resyncServe (s : State) (h : MbxHdr) : State :=
  s.serveMsg h { stage := stDome } (fun s => okReply s ((s.ctxsOf h.session).flatMap s.resyncBytes))

/-- CONTEXT_RESYNC (R317, R322). -/
def execContextResync (t : Nat) (h : MbxHdr) (s : State) : Out :=
  let s := s.tick t
  inst (mbxOk h) (s.mbx (.contextResync t h) h (fun s => s.resyncServe h))

/-- WINDOW_SET as firmware serves it: VF_BASE of a partition's VF, or PCI_WIN for PF0 (R302). -/
def State.windowServe (s : State) (h : MbxHdr) (pf0 : Bool) (p base : Nat) : State :=
  s.serveMsg h { mgmt := pf0, parts := [p], fieldOk := decide (p < 16) && decide (base < 2 ^ 48) && (!pf0 || decide (base % 2 ^ 32 = 0)) }
    (fun s =>
      okReply (if pf0 then (s.wr F.PCI_WIN_PARTITION p).wr F.PCI_WIN_BASE (base / 2 ^ 32)
        else { s with host := { s.host with vfBase := aset s.host.vfBase (p + 1) base } }))

/-- WINDOW_SET (R302, R317). -/
def execWindowSet (t : Nat) (h : MbxHdr) (pf0 : Bool) (p base : Nat) (s : State) : Out :=
  let s := s.tick t
  inst (mbxOk h) (s.mbx (.windowSet t h pf0 p base) h (fun s => s.windowServe h pf0 p base))

/-- HOLD_RELEASE as firmware serves it (R322): the hold ends, and the policy of any session still absent takes effect again. -/
def State.holdReleaseServe (s : State) (h : MbxHdr) (p : Nat) : State :=
  s.serveMsg h { parts := [p], stage := stDome, fieldOk := decide (p < 16) } (fun s =>
    let s := (s.wrBit F.MGT_HOST_HELD p false).wrBit F.MGT_HOST_STOPPED p false
    okReply (({ s with host := { s.host with holdArmed := s.host.holdArmed.filter (fun q => q ≠ p) } } : State).applyPolicy p))

/-- HOLD_RELEASE (R322). -/
def execHoldRelease (t : Nat) (h : MbxHdr) (p : Nat) (s : State) : Out :=
  let s := s.tick t
  inst (mbxOk h) (s.mbx (.holdRelease t h p) h (fun s => s.holdReleaseServe h p))

/-- POLICY_SET as firmware serves it. -/
def State.policyServe (s : State) (h : MbxHdr) (policy : Nat) : State :=
  s.serveMsg h { fieldOk := decide (policy ≤ 2) } (fun s =>
    okReply (match s.session h.m with
      | some x => s.putSession { x with policy := policy }
      | none => s))

/-- POLICY_SET (R317, R321). -/
def execPolicySet (t : Nat) (h : MbxHdr) (policy : Nat) (s : State) : Out :=
  let s := s.tick t
  inst (mbxOk h) (s.mbx (.policySet t h policy) h (fun s => s.policyServe h policy))

/-- MAILBOX_UNKNOWN_OPCODE (R316): UNSUPPORTED, after the length check. -/
def State.unknownServe (s : State) (h : MbxHdr) : State := s.respond h (if 4064 < h.len then 3 else 1) []

def execMailboxUnknownOpcode (t : Nat) (h : MbxHdr) (opcode : Nat) (s : State) : Out :=
  let s := s.tick t
  inst (mbxOk h) (s.mbx (.mailboxUnknownOpcode t h opcode) h (fun s => s.unknownServe h))

/-- MBX_GO_IGNORED (R314): a GO write while BUSY reads 1, or from another function. -/
def execMbxGoIgnored (t m : Nat) (fn : Fn) (s : State) : Out :=
  let s := s.tick t
  inst (m < 32) (if s.on F.MBX_STATUS_BUSY m ∨ !s.mayGo fn m then s.ignoreGo m else s)

/-! ### Heartbeats (R320 to R322) -/

/-- A write to MBX_HEARTBEAT of mailbox `m` by its owner (R320). -/
def State.beat (s : State) (m : Nat) (fn : Fn) (value : Nat) : State :=
  match s.session m with
  | some x => if x.fn = fn then (s.wr F.MBX_HEARTBEAT_COUNT value m).putSession { x with lastBeat := s.now } else s
  | none => s

/-- HEARTBEAT (R320). -/
def execHeartbeat (t m : Nat) (fn : Fn) (value : Nat) (s : State) : Out := inst (m < 16) ((s.tick t).beat m fn value)

/-- HEARTBEAT_LAPSE (R320, R324): 1 s without a heartbeat, judged by running firmware and not until 1 s after a restart. -/
def execHeartbeatLapse (t m : Nat) (s : State) : Out :=
  let s := s.tick t
  inst (m < 16)
    (match s.session m with
     | some x =>
       if s.fwUp ∧ x.lastBeat + 1000000000 ≤ s.now ∧ (s.host.restarts.isEmpty ∨ s.host.restartEnd + 1000000000 ≤ s.now) then s.lapseSession m
       else s
     | none => s)

/-- ABSENT_SESSION_CLOSE (R312, R322): 10 minutes after the lapse; its contexts stay open. -/
def execAbsentSessionClose (t m : Nat) (s : State) : Out :=
  let s := s.tick t
  inst (m < 16)
    (match s.session m with
     | some x =>
       match x.absentAt with
       | some a =>
         if s.fwUp ∧ a + 600000000000 ≤ s.now then (s.setSessions (s.host.sessions.filter (fun y => y.m ≠ m))).absentVectors x.fn else s
       | none => s
     | none => s)

end Sys2Proof.Machine
end

