-- ==== Sys2Proof/Machine/FaultMsgs.lean ====
section
/-!
DEFINITION. Sys2Proof/Machine/FaultMsgs.lean: the mailbox messages that serve fault records and acknowledgements (spec/16, R385;
notes/assumptions/69.md).
-/

namespace Sys2Proof.Machine

/-- The entry with sequence number `q`: from the mirror, or from the ring while the mirror lacks it. -/
def State.faultEntry (s : State) (q : Nat) : Option Bytes :=
  let b := s.rdBytes (mirrorBase + 64 * (q % 16384)) 64
  if leAt b 28 4 = q then some b else (s.fc.ring.find? (fun e => e.seq = q)).map FEntry.bytes

/-- Whether a record belongs to a function's scope: every record for management scope, its own partition's for another. -/
def seesRecord (fn : Fn) (b : Bytes) : Bool := (fnPart fn).all (fun p => decide (leAt b 21 1 = p))

/-- Up to `n` entries in a function's scope from sequence number `q` upward, at most `fuel` numbers on. -/
def State.faultsFrom (s : State) (fn : Fn) : Nat → Nat → Nat → List Bytes
  | 0, _, _ => []
  | _ + 1, _, 0 => []
  | fuel + 1, q, n + 1 =>
    let rest := fun (m : Nat) => if q = s.fc.seq then [] else s.faultsFrom fn fuel (nextSeq q) m
    match s.faultEntry q with
    | some b => if seesRecord fn b then b :: rest n else rest (n + 1)
    | none => rest (n + 1)

/-- FAULT_READ as firmware serves it: the newest SEQ held, then up to 63 entries. -/
def State.faultReadServe (s : State) (h : MbxHdr) (seqFrom count : Nat) : State :=
  s.serveMsg h { feat := some 2, safeOk := true, fieldOk := decide (1 ≤ seqFrom) && decide (seqFrom < 2 ^ 32) && decide (count ≤ 63) } (fun s =>
    okReply s (natLe 4 s.fc.seq ++ (s.faultsFrom h.fn 16384 seqFrom count).flatten))

/-- FAULT_READ (R385). -/
def execFaultRead (t : Nat) (h : MbxHdr) (seqFrom count : Nat) (s : State) : Out :=
  let s := s.tick t
  inst (mbxOk h) (s.mbx (.faultRead t h seqFrom count) h (fun s => s.faultReadServe h seqFrom count))

/-- FAULT_ACK as firmware serves it: the pending bits of the classes and scopes named, all within the session's scope. -/
def State.faultAckServe (s : State) (h : MbxHdr) (classes scopes : Nat) : State :=
  s.serveMsg h
    { feat := some 2, safeOk := true, parts := below 17 (fun k => scopes.testBit k),
      fieldOk := decide (classes < 128) && decide (scopes < 2 ^ 17) }
    (fun s => okReply (s.ackPending classes scopes))

/-- FAULT_ACK (R372, R385). -/
def execFaultAck (t : Nat) (h : MbxHdr) (classes scopes : Nat) (s : State) : Out :=
  let s := s.tick t
  inst (mbxOk h) (s.mbx (.faultAck t h classes scopes) h (fun s => s.faultAckServe h classes scopes))

/-- FAULT_HISTORY as firmware serves it: up to 63 entries of the flash history from a position, the newest at position 0. -/
def State.faultHistoryServe (s : State) (h : MbxHdr) (pos count : Nat) : State :=
  s.serveMsg h { feat := some 2, safeOk := true, fieldOk := decide (pos < 8192) && decide (count ≤ 63) } (fun s =>
    okReply s (((((s.fc.hist.map FEntry.bytes).filter (seesRecord h.fn)).drop pos).take count).flatten))

/-- FAULT_HISTORY (R381, R385). -/
def execFaultHistory (t : Nat) (h : MbxHdr) (pos count : Nat) (s : State) : Out :=
  let s := s.tick t
  inst (mbxOk h) (s.mbx (.faultHistory t h pos count) h (fun s => s.faultHistoryServe h pos count))

/-- FAULT_FIRST as firmware serves it: the seven first-error records, those of other partitions as zeros; `clear` names the VALID bits that
management scope clears. -/
def State.faultFirstServe (s : State) (h : MbxHdr) (clear : Nat) : State :=
  s.serveMsg h { feat := some 2, safeOk := true, mgmt := decide (clear ≠ 0), fieldOk := decide (clear < 128) } (fun s =>
    let recs := (List.range 7).flatMap (fun c =>
      let b := s.firstRecord c
      if seesRecord h.fn b then b else natLe 64 0)
    okReply ((below 7 (fun c => clear.testBit c)).foldl (fun (s : State) c => s.wr F.FC_REC_HI 0 c 2) s) recs)

/-- FAULT_FIRST (R376, R385). -/
def execFaultFirst (t : Nat) (h : MbxHdr) (clear : Nat) (s : State) : Out :=
  let s := s.tick t
  inst (mbxOk h) (s.mbx (.faultFirst t h clear) h (fun s => s.faultFirstServe h clear))

end Sys2Proof.Machine
end

