-- ==== Sys2Proof/Machine/Snapshot.lean ====
section
/-!
DEFINITION. Sys2Proof/Machine/Snapshot.lean: the snapshot engine of a partition: the shard table, arming a cut, draining it to the mirrors, and
its end (spec/19, R428 to R438, R446).
-/

namespace Sys2Proof.Machine

/-! ### Shard headers (R431, R432) -/

/-- The bytes of a shard header under their names. -/
def shNdim (b : Bytes) : Nat := leAt b 5 1
def shFormat (b : Bytes) : Nat := leAt b 6 1
def shLayout (b : Bytes) : Nat := leAt b 7 1
def shTensor (b : Bytes) : Nat := leAt b 8 4
def shAddr (b : Bytes) : Nat := leAt b 24 8
def shBytes (b : Bytes) : Nat := leAt b 32 8
def shVec (b : Bytes) (off : Nat) : List Nat := (List.range 8).map (fun k => leAt b (off + 8 * k) 8)
def shShape (b : Bytes) : List Nat := shVec b 48
def shOrigin (b : Bytes) : List Nat := shVec b 112
def shExtent (b : Bytes) : List Nat := shVec b 176

/-- Extents of the dimensions a header uses. -/
def shDims (b : Bytes) : List Nat := (shExtent b).take (shNdim b)

/-- Rows of a dense shard and elements of a row: the last dimension is the fastest (R54). -/
def shRows (b : Bytes) : Nat := (shDims b).dropLast.foldl (fun m x => m * x) 1
def shCols (b : Bytes) : Nat := (shDims b).getLastD 1

/-- Element width of a format code as array group `g` knows it; scales are bytes. -/
def State.elemBits (s : State) (g code : Nat) : Option Nat := if code = 0x20 then some 8 else (s.fmt g code).map (fun f => f.b)

/-- Bytes of a dense shard without and with block scales (R54). -/
def denseData (b : Bytes) (w : Nat) : Nat := shRows b * ceilDiv (shCols b * w) 8
def denseScales (b : Bytes) : Nat := shRows b * ceilDiv (shCols b) 32

/-- Whether a dense shard carries block scales, where its DATA_BYTES fit one of the forms its format allows (R51, R54; notes/assumptions/55.md). -/
def State.denseForm (s : State) (g : Nat) (b : Bytes) : Option Bool :=
  match s.elemBits g (shFormat b) with
  | none => none
  | some w =>
    let n := shBytes b
    let block := s.scaleOk g (shFormat b) 2
    let plain := decide (shFormat b = 0x20) || s.scaleOk g (shFormat b) 0 || s.scaleOk g (shFormat b) 1
    if plain ∧ n = denseData b w then some false else if block ∧ n = denseData b w + denseScales b then some true else none

/-- The checks a header passes on its own (R432). -/
def State.headerFits (s : State) (g : Nat) (b : Bytes) : Bool :=
  decide (slice b 0 4 = ascii "VSHD") && decide (leAt b 4 1 = 1) && (s.elemBits g (shFormat b)).isSome && decide (shLayout b ≤ 1)
    && (decide (shLayout b = 1) || (decide (1 ≤ shNdim b) && decide (shNdim b ≤ 8) && (s.denseForm g b).isSome))

/-- Device address of shard header `k` of partition `p`'s table. -/
def State.headerAddr (s : State) (p k : Nat) : Nat := s.rd F.SNP_TABLE_BASE p * 65536 + 512 * k

/-- The headers of the table, each as read under R208; none where a read fails. -/
def State.shardTable (s : State) (p : Nat) : List (Option Bytes) × State :=
  (List.range (s.rd F.SNP_TABLE_SHARDS p)).foldl (fun (r : List (Option Bytes) × State) k =>
    match r.2.devRead 4 0x56 p (s.headerAddr p k) 512 with
    | (none, b, false, s) => (r.1 ++ [some b], s)
    | (_, _, _, s) => (r.1 ++ [none], s)) ([], s)

/-- VPNs of partition `p`'s SNAP pages in ascending order. -/
def State.snapPages (s : State) (p : Nat) : List Nat :=
  s.listedVpns.filter (fun v => let e := s.pmEntry v; pmValid e && pmSnap e && decide (pmOwner e = p))

/-- Whether two address ranges share a byte. -/
def overlapping (a b : Nat × Nat) : Bool := decide (a.1 < b.1 + b.2) && decide (b.1 < a.1 + a.2)

/-- No two of a list of ranges overlap. -/
def apart : List (Nat × Nat) → Bool
  | [] => true
  | a :: l => l.all (fun b => !overlapping a b) && apart l

/-- The check of arming step 2 (R432). -/
def State.tableOk (s : State) (p : Nat) : Bool :=
  let t := (s.shardTable p).1
  let hs := t.filterMap (fun x => x)
  let g := (s.homeOf p).getD 0
  let pages := s.snapPages p
  let data := hs.map (fun b => (shAddr b, shBytes b))
  let used := (pagesOf (s.headerAddr p 0) (512 * t.length)) ++ data.flatMap (fun d => pagesOf d.1 d.2)
  t.all (fun x => x.isSome) && hs.all (s.headerFits g) && data.all (fun d => (pagesOf d.1 d.2).all (fun v => v ∈ pages)) && apart data
    && pages.all (fun v => v ∈ used)

/-! ### Arming (R429, R430) -/

/-- Arming is over: writes held for it are performed in order, and held writes of AG_NUM_ADVANCE take effect. -/
def State.armRelease (s : State) (p : Nat) : State :=
  let adv := (s.snap p).heldAdv
  let s := (s.setSnap p { s.snap p with arming := false, heldAdv := [] }).releaseHolds
  match s.homeOf p with
  | some g => adv.foldl (fun (s : State) x => s.advanceWrite p g x) s
  | none => s

/-- Sends a router slot command as MGMT_REQ to endpoint FEh of device `dev`: code, partition, run and slot (notes/assumptions/56.md). -/
def State.slotSend (s : State) (p dev part code r slot : Nat) (body : Bytes) : State :=
  s.sendPkt 0 p dev 0xFE 3 0 (s.genOf p) false (natLe 1 code ++ natLe 1 part ++ natLe 1 r ++ natLe 1 slot ++ body)

/-- Marks every SNAP page of the cut (R212): COW, the present CUT, not DIRTY. -/
def State.markCut (s : State) (pages : List Nat) (cut : Nat) : State :=
  pages.foldl (fun (s : State) v =>
    s.wrNat (8 * v) 8 (setBitTo (setBitTo (s.pmEntry v - pmCut (s.pmEntry v) * 2 ^ 49 + cut * 2 ^ 49) 51 true) 48 false)) s

/-- The cut of partition `p` is armed: steps 3 and 4 of R429, and SLOT_OPEN to every mirror (R435). -/
def State.arm (s : State) (p : Nat) : State :=
  let pages := s.snapPages p
  let cut := (s.rd F.PGM_CUT_CUT p + 1) % 4
  let s := s.settle p
  let s := (s.inc F.SNP_SEQ_CUT_SEQ p).markCut pages cut
  let s := ((s.wr F.PGM_CUT_CUT cut p).wr F.PGM_CUT_COPIES 0 p).wr F.PGM_CUT_ACTIVE 1 p
  let s := { s with memx := { s.memx with tcache := s.memx.tcache.filter (fun e => pmOwner e.2.2 ≠ p) } }
  let s := ((s.wr F.SNP_STATUS_PENDING 0 p).wr F.SNP_STATUS_OVERDUE 0 p).wr F.SNP_STATUS_STATE 2 p
  let s := (s.wr F.SNP_STATUS_CUT_STEP (agetD s.curSteps p 0 - 1) p).wr F.SNP_DRAIN_TOTAL pages.length p |>.wr F.SNP_DRAIN_SENT 0 p
  let x := s.snap p
  let ds := (s.mirrors p).filterMap (fun m =>
    match x.answers.find? (fun a => a.r = m.1) with
    | some a => some ({ r := m.1, slot := a.slot.getD 0, dev := m.2.1, base := a.base, len := a.len } : MirrorDrain)
    | none => none)
  let s := s.setSnap p { x with armed := true, armedAt := s.now, pages := pages, drains := ds, maxSince := none }
  let s := (s.mirrors p).foldl (fun (s : State) m =>
    match ds.find? (fun d => d.r = m.1) with
    | some d => s.slotSend p m.2.1 m.2.2 0x21 m.1 d.slot []
    | none => s) s
  s.armRelease p

/-- CUT_ARM (R429): the shard table is checked, and the cut armed or ended with code 01h. -/
def execCutArm (t p : Nat) (s : State) : Out :=
  let s := s.tick t
  inst (p < 16)
    (if !(s.snap p).arming then s
     else if s.tableOk p then (s.shardTable p).2.arm p
     else ((((s.shardTable p).2.settle p).cutEnd p 1).armRelease p))

/-- INTERVAL_TRIGGER: INTERVAL_MS since the previous arming, or since Finial. -/
def execIntervalTrigger (t p : Nat) (s : State) : Out :=
  let s := s.tick t
  inst (p < 16)
    (if s.stage = stFinial ∧ s.cuts p ∧ (s.snap p).armedAt + s.rd F.SNP_CFG_INTERVAL_MS p * 1000000 ≤ s.now then s.snapTrigger p 0 else s)

/-- A write of 1 to SNP_TRIGGER_p.NOW raises COMMAND. -/
def State.triggerNow (s : State) (who : Requester) (p : Nat) : State := s.asWriter who p (fun s => s.snapTrigger p 3)

/-- SNP_TRIGGER_NOW. -/
def execSnpTriggerNow (t : Nat) (who : Requester) (p : Nat) (s : State) : Out :=
  let s := s.tick t
  inst (p < 16) (s.triggerNow who p)

/-- SNAP_NOW as firmware serves it. -/
def State.snapNowServe (s : State) (h : MbxHdr) (p : Nat) : State :=
  s.serveMsg h { feat := some 2, parts := [p], stage := stDome, fieldOk := decide (p < 16) && s.hasPart p } (fun s => okReply (s.snapTrigger p 3))

/-- SNAP_NOW. -/
def execSnapNow (t : Nat) (h : MbxHdr) (p : Nat) (s : State) : Out :=
  let s := s.tick t
  inst (mbxOk h) (s.mbx (.snapNow t h p) h (fun s => s.snapNowServe h p))

/-! ### The cut image (R213, R431, R435) -/

/-- The copy frame of page `v`, which the cut log names. -/
def State.cutFrame (s : State) (p v : Nat) : Option Nat :=
  let log := s.rd F.PGM_RESERVE_BASE_FRAME p * 65536
  (List.range (s.rd F.PGM_CUT_COPIES p)).findSome? (fun i =>
    if s.rdNat (log + 16 * i) 4 = v then some (s.rdNat (log + 16 * i + 4) 4) else none)

/-- Memory key of byte `a` (device address) of the cut image: live while the page's COW bit reads 1, else in its copy frame. -/
def State.cutKey (s : State) (p a : Nat) : Nat :=
  let v := a / 65536
  let e := s.pmEntry v
  if pmCow e then pageKey e (a % 65536)
  else
    match s.cutFrame p v with
    | some f => f * 65536 + a % 65536
    | none => pageKey e (a % 65536)

def State.cutBytes (s : State) (p a n : Nat) : Bytes := (List.range n).map (fun k => s.rdByte (s.cutKey p (a + k)))

/-- CUT_ID: source device, partition, CUT_SEQ. -/
def State.cutId (s : State) (p : Nat) : Nat := s.fabAddr * 2 ^ 48 + p * 2 ^ 44 + s.rd F.SNP_SEQ_CUT_SEQ p

/-- Header `k` as drained: STEP, CUT_ID and DIGEST filled in (R431). -/
def State.drainHeader (s : State) (p k : Nat) : Bytes :=
  let b := s.cutBytes p (s.headerAddr p k) 512
  let b := patchBytes (patchBytes b 12 (natLe 4 (s.rd F.SNP_STATUS_CUT_STEP p))) 16 (natLe 8 (s.cutId p))
  patchBytes b 448 (shake256 (s.cutBytes p (shAddr b) (shBytes b)))

/-- Page `v` of the cut as drained. -/
def State.drainPage (s : State) (p v : Nat) : Bytes :=
  (below (s.rd F.SNP_TABLE_SHARDS p) (fun k => decide (s.headerAddr p k / 65536 = v))).foldl (fun (b : Bytes) k =>
    patchBytes b (s.headerAddr p k % 65536) (s.drainHeader p k)) (s.cutBytes p (v * 65536) 65536)

/-- Offset in the slot of device address `a`: pages stand in the order of the page list. -/
def slotOff (pages : List Nat) (a : Nat) : Nat := (pages.findIdx (fun v => v = a / 65536)) * 65536 + a % 65536

/-- The manifest entries of the cut (R439). -/
def State.manifestEntries (s : State) (p : Nat) : Bytes :=
  let pages := (s.snap p).pages
  (List.range (s.rd F.SNP_TABLE_SHARDS p)).flatMap (fun k =>
    let h := s.drainHeader p k
    natLe 4 (shTensor h) ++ natLe 1 (shFormat h) ++ natLe 1 (shLayout h) ++ natLe 1 (shNdim h) ++ natLe 1 0
      ++ natLe 8 (slotOff pages (s.headerAddr p k)) ++ natLe 8 (slotOff pages (shAddr h)) ++ natLe 8 (shBytes h)
      ++ slice h 448 32 ++ shake256 h ++ natLe 32 0)

/-- The page list of the cut. -/
def State.pageList (s : State) (p : Nat) : Bytes := (s.snap p).pages.flatMap (fun v => natLe 4 v)

/-- The manifest header for mirror `r` (R439). -/
def State.manifestHeader (s : State) (p r : Nat) : Bytes :=
  ascii "VMNF" ++ natLe 1 1 ++ natLe 1 0 ++ natLe 2 0 ++ natLe 4 (s.rd F.SNP_STATUS_CUT_STEP p) ++ natLe 4 (s.rd F.SNP_TABLE_SHARDS p)
    ++ natLe 4 (s.snap p).pages.length ++ natLe 2 s.fabAddr ++ natLe 1 p ++ natLe 1 r ++ natLe 8 (s.cutId p) ++ natLe 8 (s.snap p).armedAt
    ++ natLe 8 (s.rd F.MGT_IMAGE_ID_IMAGE_ID) ++ shake256 (s.manifestEntries p) ++ shake256 (s.pageList p) ++ natLe 16 0

/-- P of a slot of `len` frames: len = P + 33 + ceil(P / 16,384). -/
def slotPages (len : Nat) : Nat := (len - 33) - ceilDiv (len - 33) 16385

/-! ### Draining (R435, R436) -/

/-- WRITE packets of up to 4,096 bytes from partition `p` to device `dev`, partition `part`. -/
def State.sendWrites (s : State) (p tag dev part addr : Nat) (ordered : Bool) (b : Bytes) : State :=
  (List.range (ceilDiv b.length 4096)).foldl (fun (s : State) k =>
    s.sendPkt tag p dev part 1 (addr + 4096 * k) (s.genOf p) ordered ((b.drop (4096 * k)).take 4096)) s

/-- Replaces the drain to the same mirror. -/
def State.putDrain (s : State) (p : Nat) (d : MirrorDrain) : State :=
  s.setSnap p { s.snap p with drains := (s.snap p).drains.map (fun x => if x.r = d.r then d else x) }

/-- The partition of a mirror's device that holds it. -/
def State.mirrorPart (s : State) (p r : Nat) : Nat := (((s.mirrors p).find? (fun m => m.1 = r)).map (fun m => m.2.2)).getD 0

/-- What a drain sends next: a page, or the manifest entries and page list and then SLOT_SEAL. -/
def State.drainNext (s : State) (p : Nat) (d : MirrorDrain) (img : Bytes) : State :=
  let first := d.base + d.slot * d.len
  let part := s.mirrorPart p d.r
  let pages := (s.snap p).pages
  if d.sent < pages.length then
    (s.sendWrites p 0 d.dev part ((first + d.sent) * 65536) false img).putDrain p { d with sent := d.sent + 1 }
  else
    let man := (first + slotPages d.len) * 65536
    let s := s.sendWrites p 0 d.dev part (man + 128) false (s.manifestEntries p)
    let s := s.sendWrites p 0 d.dev part (man + 33 * 65536) false (s.pageList p)
    (s.slotSend p d.dev part 0x22 d.r d.slot (s.manifestHeader p d.r)).putDrain p { d with sent := d.sent + 1, sealed := true }

/-- SNP_DRAIN.SENT and SNP_STATUS.STATE follow the drains. -/
def State.showDrain (s : State) (p : Nat) : State :=
  let x := s.snap p
  let go := x.drains.filter (fun d => d.ended.isNone)
  let sent := go.foldl (fun m d => min m d.sent) x.pages.length
  let s := s.wr F.SNP_DRAIN_SENT sent p
  if !go.isEmpty && go.all (fun d => d.sealed) then s.wr F.SNP_STATUS_STATE 3 p else s

/-- DRAIN_PAGE_SEND (R435): the next page goes to every mirror that lacks it, read once; after the last page the manifest, the page list and
SLOT_SEAL. -/
def execDrainPageSend (t p : Nat) (s : State) : Out :=
  let s := s.tick t
  inst (p < 16)
    (let x := s.snap p
     let go := x.drains.filter (fun d => d.ended.isNone && d.opened && !d.sealed)
     if s.safe ∨ !s.on F.PGM_CUT_ACTIVE p ∨ go.isEmpty then s
     else
       let k := go.foldl (fun m d => min m d.sent) (x.pages.length + 1)
       let img := match x.pages[k]? with
         | some v => s.drainPage p v
         | none => []
       let s := match x.pages[k]? with
         | some v => s.fetchPriv ((List.range 512).map (fun b => s.cutKey p (v * 65536 + 128 * b)))
         | none => s
       let s := s.regCharge p 0 0x56 img.length
       ((go.filter (fun d => d.sent = k)).foldl (fun (s : State) d => s.drainNext p d img) s).showDrain p)

/-! ### Polling and the end of a cut (R433, R435, R438) -/

/-- The slot a new cut may take (R433, R447; notes/assumptions/57.md). -/
def targetSlot (a : SlotAns) : Option Nat :=
  let free := fun (i : SlotInfo) => !i.pinned && !i.serving
  if free a.a ∧ a.a.state ≠ 2 then some 0
  else if a.two ∧ free a.b ∧ a.b.state ≠ 2 then some 1
  else if free a.a ∧ (!a.two ∨ !free a.b ∨ a.a.step ≤ a.b.step) then some 0
  else if a.two ∧ free a.b then some 1 else none

/-- The run has two slots and its newest slot, the one with the higher STEP, is COMPLETE (R434). -/
def runGood (a : SlotAns) : Bool :=
  a.two && ((decide (a.a.state = 2) && (decide (a.b.state ≠ 2) || decide (a.b.step ≤ a.a.step)))
    || (decide (a.b.state = 2) && (decide (a.a.state ≠ 2) || decide (a.a.step ≤ a.b.step))))

/-- The last cut drained, once every mirror has ended (R438). -/
def State.finishCut (s : State) (p : Nat) : State :=
  let x := s.snap p
  if x.drains.isEmpty ∨ x.drains.any (fun d => d.ended.isNone) then s
  else
    let codes : List Nat := x.drains.filterMap (fun d => d.ended)
    let code := if codes.all (fun c => c = 0) then 0 else if codes.any (fun c => c = 0) then 6 else codes.headD 4
    let s := if code = 0 then s.setSnap p { s.snap p with newest := some (x.pages.length, x.armedAt) } else s
    let s := s.cutEnd p code
    if code = 0 ∨ s.recoverable p then s else s.recoveryLost p

/-- Records an answer, or its absence for a configured mirror of a cut that ends. -/
def State.noteAnswer (s : State) (p r : Nat) (a : SlotAns) : State :=
  let x := s.snap p
  let n : SlotAnswer := { r := r, at_ := s.now, slot := targetSlot a, good := runGood a, base := a.base, len := a.len }
  let l := x.answers.filter (fun y => y.r ≠ r) ++ [n]
  let good := (s.mirrors p).all (fun m => l.any (fun y => decide (y.r = m.1) && y.good))
  let s := s.setSnap p { x with answers := l, mirrorsGood := good }
  if good then s else s.recoveryLost p

/-- How a poll moves a drain on. -/
def MirrorDrain.polled (d : MirrorDrain) (answer : Option SlotAns) : MirrorDrain :=
  if d.ended.isSome then d
  else
    match answer with
    | none =>
      if !d.opened then { d with ended := some 4 }
      else if !d.sealed then d
      else if 1 ≤ d.missed then { d with missed := 2, ended := some 4 } else { d with missed := 1 }
    | some a =>
      let st := (if d.slot = 0 then a.a else a.b).state
      if !d.opened then (if st = 1 then { d with opened := true } else { d with ended := some 4 })
      else if !d.sealed then d
      else if st = 2 then { d with ended := some 0 }
      else if st = 3 then { d with ended := some 5 }
      else { d with missed := 0 }

/-- SLOT_STATUS_POLL of mirror `r` (R428, R435, R438): the engine asks, and the answer, or none, moves a drain on. -/
def execSlotStatusPoll (t p r : Nat) (answer : Option SlotAns) (s : State) : Out :=
  let s := s.tick t
  inst (p < 16)
    (match (s.mirrors p).find? (fun m => m.1 = r) with
     | none => s
     | some m =>
       let s := s.slotSend p m.2.1 m.2.2 0x20 r 0 []
       let s := match answer with
         | some a => s.noteAnswer p r a
         | none => s
       match (s.snap p).drains.find? (fun d => d.r = r) with
       | none => s
       | some d =>
         let d' := d.polled answer
         let s := s.putDrain p d'
         let s := if d'.ended = some 4 ∧ d.ended.isNone then
             s.setSnap p { s.snap p with mirrorsGood := false }
           else s
         s.finishCut p)

end Sys2Proof.Machine
end

