-- ==== Sys2Proof/Machine/Views.lean ====
section
/-!
DEFINITION. Sys2Proof/Machine/Views.lean: what a register shows when it is read: the stored fields, and the live fields whose value the
device derives at the read from state it holds elsewhere. A firmware answer that returns registers reads them so.
-/

namespace Sys2Proof.Machine

/-- Whether slot `k` of mirror run `r` (numbered from 1) of partition `p` is being served (R442). -/
def State.slotServing (s : State) (p r k : Nat) : Bool :=
  ((aget s.slots (4 * p + 2 * (r - 1) + k)).bind (fun x => x.serving)).any (fun t => s.tagBusy t)

/-- Whether every identity-key index has been used (R473): SIG_BLOCK reads 16,384 and the held block is spent or absent. -/
def State.exhausted (s : State) : Bool :=
  let n := s.rd F.SEC_SIGIDX_NEXT_INDEX
  decide (16384 ≤ s.sec.flash.sigBlock) && (decide (n = 0xFFFFFFFF) || decide (n % 64 = 0 ∧ n = 64 * s.sec.flash.sigBlock))

/-- The dump slots that are HELD, as a bit map (R454). -/
def State.heldDumps (s : State) : Nat :=
  ((below 4 (fun k => (s.dumps.getD k {}).held)).map (fun k => 2 ^ k)).sum

/-- The state with the live fields of a register brought up to what a read shows. -/
def State.live_ (s : State) (r : Reg) (i j : Nat) : State :=
  match r with
  | .FC_STATUS =>
    ((s.wr F.FC_STATUS_NEWEST_SEQ s.fc.seq).wrB F.FC_STATUS_SAFE s.safe).wr F.FC_STATUS_MODE s.collMode
  | .HNG_STATUS =>
    (s.wrB F.HNG_STATUS_SUSPENDED (s.stillNow i) i).wr F.HNG_STATUS_SINCE_MS
      (min ((s.now - (s.hang i).progress) / 1000000) (2 ^ 20 - 1)) i
  | .GAL_GOAL =>
    let s := ((s.wrB F.GAL_GOAL_MET (s.goalMet i) i).wrB F.GAL_GOAL_UNCOVERED (s.uncovered i) i).wrB F.GAL_GOAL_TURRET_SAME (s.turretSame i) i
    if s.on F.GAL_GOAL_GOAL i then s
    else
      let h := s.hEff i
      (s.wrB F.GAL_GOAL_CLAMPED (s.on F.GAL_GOAL_GALLERY i && decide (h ≠ s.rd F.GAL_GOAL_HORIZON i)) i).wr F.GAL_GOAL_RATE_PPM
        (if s.on F.GAL_GOAL_GALLERY i ∧ h ≠ 0 then 1000000 / h else 0) i
  | .HNG_DUMP => (s.wr F.HNG_DUMP_HELD s.heldDumps).wr F.HNG_DUMP_LAST_SEQ s.dumpSeq
  | .SEC_STATUS =>
    ((s.wr F.SEC_STATUS_REVOKED s.sec.flash.revoked).wrB F.SEC_STATUS_EXHAUSTED s.exhausted).wrB F.SEC_STATUS_OWNER_ENROLLED
      s.sec.flash.ownerKey.isSome
  | .SEC_SIGIDX => s.wr F.SEC_SIGIDX_SIG_BLOCK s.sec.flash.sigBlock
  | .SEC_SV_LO => (s.wr F.SEC_SV_LO_FW_SV s.sec.flash.fwSv).wr F.SEC_SV_LO_IMG_SV s.sec.flash.imgSv
  | .SEC_SV_HI => (s.wr F.SEC_SV_HI_PATCH_SV s.sec.flash.patchSv).wr F.SEC_SV_HI_TRIM_SV s.sec.flash.trimSv
  | .SEC_CTR => (s.wr F.SEC_CTR_OWNER_EPOCH s.sec.flash.ownerEpoch).wr F.SEC_CTR_DEBUG_CTR s.sec.flash.debugCtr
  | .SNP_AGE =>
    (s.wr F.SNP_AGE_BUDGET_S (s.budgetS i) i).wr F.SNP_AGE_AGE_MS
      (match s.cutAge i with | some a => min (a / 1000000) 0xFFFFFFFF | none => 0xFFFFFFFF) i
  | .SNP_MIRROR => s.wrB F.SNP_MIRROR_SERVING (s.slotServing i (j + 1) 0 || s.slotServing i (j + 1) 1) i j
  | .MGT_WDOG => s.wr F.MGT_WDOG_RECENT (min s.recentRestarts 255)
  | .BEL_STATE =>
    s.wr F.BEL_STATE_WAITERS
      ((s.waits.filter (fun w => decide (w.bell = j) && decide (s.homeOf w.p = some i))).length) i j
  | _ => s

/-- The value a read of a register returns. -/
def State.shown (s : State) (r : Reg) (i j : Nat) : Nat := (s.live_ r i j).stored r i j

/-- Clears the RC fields of a register, as any read does (R7), but for the field whose lowest bit is `event`, which ends at 1. -/
def State.clearRc (s : State) (r : Reg) (i j : Nat) (event : Option Nat) : State :=
  (r.fields.filter (fun f => f.ty = .RC)).foldl (fun (s : State) f => s.wr f (if event = some f.lsb then 1 else 0) i j) s

/-- The bytes of registers read one after another, and the state after the reads. -/
def State.readRegs (s : State) (l : List (Reg × Nat × Nat)) : Bytes × State :=
  l.foldl (fun (x : Bytes × State) e =>
    (x.1 ++ natLe (e.1.width / 8) (x.2.shown e.1 e.2.1 e.2.2), x.2.clearRc e.1 e.2.1 e.2.2 none)) ([], s)

/-- The answer of a message that returns registers. -/
def regReply (s : State) (l : List (Reg × Nat × Nat)) : Reply :=
  let r := s.readRegs l
  okReply r.2 r.1

/-! ### Status messages that return registers -/

/-- SNAP_STATUS as firmware serves it: the SNP_ registers of each partition in scope. -/
def State.snapStatusServe (s : State) (h : MbxHdr) : State :=
  s.serveMsg h { feat := some 2 } (fun s =>
    regReply s ((s.scopeOf h.fn).flatMap (fun p =>
      [(.SNP_CFG, p, 0), (.SNP_TABLE, p, 0), (.SNP_STATUS, p, 0), (.SNP_SEQ, p, 0), (.SNP_DRAIN, p, 0), (.SNP_MIRROR, p, 0),
       (.SNP_MIRROR, p, 1), (.SNP_STEPS, p, 0), (.SNP_STEPS, p, 1), (.SNP_RESTORE, p, 0), (.SNP_AGE, p, 0)])))

/-- SNAP_STATUS. -/
def execSnapStatus (t : Nat) (h : MbxHdr) (s : State) : Out :=
  let s := s.tick t
  inst (mbxOk h) (s.mbx (.snapStatus t h) h (fun s => s.snapStatusServe h))

/-- LEDGER_STATUS as firmware serves it: the LDG_ registers of each partition in scope. -/
def State.ledgerStatusServe (s : State) (h : MbxHdr) : State :=
  s.serveMsg h { feat := some 2 } (fun s =>
    regReply s ((s.scopeOf h.fn).flatMap (fun p =>
      [(.LDG_AREA, p, 0), (.LDG_SQ, p, 0), (.LDG_HEAD, p, 0), (.LDG_TAIL, p, 0), (.LDG_APPENDED, p, 0), (.LDG_RELEASED, p, 0),
       (.LDG_FLOOR, p, 0), (.LDG_REPLAY, p, 0), (.LDG_INBOX, p, 0), (.LDG_INBOX_CNT, p, 0), (.LDG_VOTE, p, 0), (.LDG_STATUS, p, 0),
       (.LDG_FIRST, p, 0)])))

/-- LEDGER_STATUS (R416). -/
def execLedgerStatus (t : Nat) (h : MbxHdr) (s : State) : Out :=
  let s := s.tick t
  inst (mbxOk h) (s.mbx (.ledgerStatus t h) h (fun s => s.ledgerStatusServe h))

/-- LEDGER_COMMAND as firmware serves it: one command for the partition's engine, ahead of ring commands not yet taken (R416). -/
def State.ledgerCommandServe (s : State) (h : MbxHdr) (p : Nat) (cmd : Bytes) : State :=
  s.serveMsg h { feat := some 2, parts := [p], stage := stDome, fieldOk := decide (p < 16) && s.hasPart p && decide (cmd.length = 64) } (fun s =>
    okReply (s.setLedger p { s.ledger p with extra := (s.ledger p).extra ++ [cmd] }))

/-- LEDGER_COMMAND (R416). -/
def execLedgerCommand (t : Nat) (h : MbxHdr) (p : Nat) (cmd : Bytes) (s : State) : Out :=
  let s := s.tick t
  inst (mbxOk h) (s.mbx (.ledgerCommand t h p cmd) h (fun s => s.ledgerCommandServe h p cmd))

/-- GALLERY_STATUS as firmware serves it: GAL_GOAL_p, GAL_CNT_p, GAL_STEP_p and GAL_QUAR_p of the scope. -/
def State.galleryStatusServe (s : State) (h : MbxHdr) : State :=
  s.serveMsg h { feat := some 2 } (fun s =>
    regReply s ((s.scopeOf h.fn).flatMap (fun p => [(.GAL_GOAL, p, 0), (.GAL_CNT, p, 0), (.GAL_STEP, p, 0), (.GAL_QUAR, p, 0)])))

/-- GALLERY_STATUS. -/
def execGalleryStatus (t : Nat) (h : MbxHdr) (s : State) : Out :=
  let s := s.tick t
  inst (mbxOk h) (s.mbx (.galleryStatus t h) h (fun s => s.galleryStatusServe h))

/-- HANG_STATUS as firmware serves it: HNG_CFG_p and HNG_STATUS_p of each partition in scope, and HNG_SLOT_s. -/
def State.hangStatusServe (s : State) (h : MbxHdr) : State :=
  s.serveMsg h { feat := some 2 } (fun s =>
    regReply s ((s.scopeOf h.fn).flatMap (fun p => [(.HNG_CFG, p, 0), (.HNG_STATUS, p, 0)])
      ++ (List.range 4).map (fun k => (.HNG_SLOT, k, 0))))

/-- HANG_STATUS (R449). -/
def execHangStatus (t : Nat) (h : MbxHdr) (s : State) : Out :=
  let s := s.tick t
  inst (mbxOk h) (s.mbx (.hangStatus t h) h (fun s => s.hangStatusServe h))

end Sys2Proof.Machine
end

