-- ==== Sys2Proof/Machine/Twin.lean ====
section
/-!
DEFINITION. Sys2Proof/Machine/Twin.lean: mirror runs at the device that holds them: slot commands, the seal's check, serving a slot, and
RESTORE (spec/19, R433, R437, R439 to R444).
-/

namespace Sys2Proof.Machine

/-! ### Mirror runs (R209, R433) -/

/-- The TWIN record of partition `p`. -/
def State.twinRec (s : State) (p : Nat) : Option TwinRec := s.img.act.bind (fun im => im.twins.find? (fun t => t.p = p))

/-- Whether this device holds mirror run `r` for partition `p`, with slot `k` in it. -/
def State.runHas (s : State) (p r k : Nat) : Bool :=
  match s.twinRec p with
  | none => false
  | some t => decide (1 ≤ r) && decide (r ≤ t.mirrors) && decide (k ≤ 1) && (decide (k = 0) || s.on F.SNP_MIRROR_TWO_SLOTS p (r - 1))

/-- The device that may send into mirror run `r` of partition `p` (R209). -/
def State.runSender (s : State) (p r : Nat) : Option Nat := (s.twinRec p).map (fun t => if r = 1 then t.twinDev else t.srcDev)

/-- P, the pages of an image in a run of partition `p`. -/
def State.runPages (s : State) (p : Nat) : Nat := ((s.twinRec p).map (fun t => t.partnerPages)).getD 0

def stateFld (k : Nat) : Fld := if k = 0 then F.SNP_MIRROR_STATE_A else F.SNP_MIRROR_STATE_B
def pinFld (k : Nat) : Fld := if k = 0 then F.SNP_MIRROR_PIN_A else F.SNP_MIRROR_PIN_B
def stepFld (k : Nat) : Fld := if k = 0 then F.SNP_STEPS_STEP_A else F.SNP_STEPS_STEP_B

/-- Key of a slot in State.slots. -/
def slotKey (p r k : Nat) : Nat := 4 * p + 2 * (r - 1) + k

def State.slot (s : State) (p r k : Nat) : SlotSt := agetD s.slots (slotKey p r k) {}

def State.setSlot (s : State) (p r k : Nat) (x : SlotSt) : State := { s with slots := aset s.slots (slotKey p r k) x }

/-- Memory key of the first byte of a slot. -/
def State.slotBase (s : State) (p r k : Nat) : Nat :=
  (s.rd F.SNP_MIRROR_BASE_FRAME p (r - 1) + k * s.rd F.SNP_MIRROR_L p (r - 1)) * 65536

/-- The answer to a slot command on the fabric: a status byte and data (notes/assumptions/56.md). -/
def State.slotAnswer (s : State) (src ep status : Nat) (b : Bytes) : State := s.answer (.fabric src ep 0) (natLe 1 status ++ b)

/-- One slot in an answer to SLOT_STATUS. -/
def State.slotInfo (s : State) (p r k : Nat) : Bytes :=
  natLe 1 (s.rd (stateFld k) p (r - 1))
    ++ natLe 1 ((if s.on (pinFld k) p (r - 1) then 1 else 0) + (if s.slotServing p r k then 2 else 0))
    ++ natLe 2 0 ++ natLe 4 (s.rd (stepFld k) p (r - 1)) ++ natLe 8 (s.slot p r k).cutId

/-- SLOT_STATUS (R433), accepted from any device. -/
def execSlotStatus (t src ep p r : Nat) (s : State) : Out :=
  let s := s.tick t
  .next (if !s.on F.AON_STAGE_SUPERVISION then s
    else if !s.runHas p r 0 then s.slotAnswer src ep 0xFF []
    else s.slotAnswer src ep 0 (s.slotInfo p r 0 ++ s.slotInfo p r 1 ++ natLe 4 (s.rd F.SNP_MIRROR_BASE_FRAME p (r - 1))
      ++ natLe 4 (s.rd F.SNP_MIRROR_L p (r - 1)) ++ natLe 1 (s.rd F.SNP_MIRROR_TWO_SLOTS p (r - 1))))

/-- SLOT_OPEN (R435): the slot becomes OPEN before the answer; refused (01h) when it is pinned or being served, or to a device that is not the
run's sender. -/
def execSlotOpen (t src ep p r slot : Nat) (s : State) : Out :=
  let s := s.tick t
  .next (if !s.on F.AON_STAGE_SUPERVISION then s
    else if !s.runHas p r slot ∨ s.runSender p r ≠ some src ∨ s.on (pinFld slot) p (r - 1) ∨ s.slotServing p r slot then
      s.slotAnswer src ep 1 []
    else
      let s := (s.wr (stateFld slot) 1 p (r - 1)).setSlot p r slot {}
      s.slotAnswer src ep 0 [])

/-- SLOT_SEAL (R437): the check begins and ACCEPTED is answered; refused for a slot that is not OPEN or from another device. -/
def execSlotSeal (t src ep p r slot : Nat) (header : Bytes) (s : State) : Out :=
  let s := s.tick t
  .next (if !s.on F.AON_STAGE_SUPERVISION then s
    else if !s.runHas p r slot ∨ s.runSender p r ≠ some src ∨ s.rd (stateFld slot) p (r - 1) ≠ 1 ∨ header.length ≠ 128 then
      s.slotAnswer src ep 1 []
    else (s.setSlot p r slot { sealing := some header, readAt := s.now }).slotAnswer src ep 0 [])

/-! ### Manifests (R439, R440) -/

/-- Manifest header fields. -/
def mfStep (h : Bytes) : Nat := leAt h 8 4
def mfShards (h : Bytes) : Nat := leAt h 12 4
def mfPages (h : Bytes) : Nat := leAt h 16 4
def mfSigned (h : Bytes) : Bool := (leAt h 5 1).testBit 1
def mfCutId (h : Bytes) : Nat := leAt h 24 8

/-- MAGIC, VERSION, counts and both digests (R440); the signature is judged apart. -/
def manifestOk (h entries pages : Bytes) (most : Nat) : Bool :=
  decide (slice h 0 4 = ascii "VMNF") && decide (leAt h 4 1 = 1) && decide (mfPages h ≤ most) && decide (1 ≤ mfShards h)
    && decide (mfShards h ≤ 16384) && decide (shake256 entries = slice h 48 32) && decide (shake256 pages = slice h 80 32)

/-- Bytes of a slot of partition `p`'s run by memory key, with whether an uncorrected error lies among them; the read draws tokens (R230). -/
def State.slotRead (s : State) (p base off n : Nat) : Bytes × Bool × State :=
  (s.regCharge p 0 0x56 n).readKeys 0x56 p ((List.range n).map (fun k => base + off + k))

/-- Entry fields. -/
def meHdrOff (e : Bytes) : Nat := leAt e 8 8
def meDataOff (e : Bytes) : Nat := leAt e 16 8
def meDataBytes (e : Bytes) : Nat := leAt e 24 8

/-- Whether every shard of a slot matches its digests (R437, R440). -/
def State.slotDigests (s : State) (p base n : Nat) (entries : Bytes) (len : Nat) : Bool × State :=
  (List.range n).foldl (fun (x : Bool × State) k =>
    let e := slice entries (128 * k) 128
    if !x.1 ∨ len < meHdrOff e + 512 ∨ len < meDataOff e + meDataBytes e then (false, x.2)
    else
      match x.2.slotRead p base (meHdrOff e) 512 with
      | (hb, bad, s) =>
        match s.slotRead p base (meDataOff e) (meDataBytes e) with
        | (db, bad', s) => (!bad && !bad' && decide (shake256 hb = slice e 64 32) && decide (shake256 db = slice e 32 32), s)) (true, s)

/-- The check of R437 over a slot as it stands. -/
def State.slotPasses (s : State) (p r k : Nat) (h : Bytes) : Bool × State :=
  let base := s.slotBase p r k
  let most := s.runPages p
  if mfSigned h ∨ 16384 < mfShards h ∨ most < mfPages h then (false, s)
  else
    match s.slotRead p base (most * 65536 + 128) (128 * mfShards h) with
    | (es, bad, s) =>
      match s.slotRead p base ((most + 33) * 65536) (4 * mfPages h) with
      | (ps, bad', s) =>
        if bad ∨ bad' ∨ !manifestOk h es ps most then (false, s) else s.slotDigests p base (mfShards h) es (most * 65536)

/-- SLOT_SEAL_CHECK_DONE (R437): COMPLETE after every comparison passes; a comparison that fails is made again 1 ms later, and then the slot is
FAILED with a level 1 memory-class fault. -/
def execSlotSealCheckDone (t p r slot : Nat) (s : State) : Out :=
  let s := s.tick t
  .next (match (s.slot p r slot).sealing with
    | none => s
    | some h =>
      let x := s.slot p r slot
      if s.safe ∨ !s.runHas p r slot ∨ s.rd (stateFld slot) p (r - 1) ≠ 1 ∨ (x.tries = 1 ∧ s.now < x.readAt + 1000000) then s
      else
        match s.slotPasses p r slot h with
        | (true, s) =>
          let s := s.wrBytes (s.slotBase p r slot + s.runPages p * 65536) h
          ((s.setSlot p r slot { cutId := mfCutId h }).wr (stateFld slot) 2 p (r - 1)).wr (stepFld slot) (mfStep h) p (r - 1)
        | (false, s) =>
          if x.tries = 0 then s.setSlot p r slot { x with tries := 1, readAt := s.now }
          else
            ((s.setSlot p r slot {}).wr (stateFld slot) 3 p (r - 1)).raise
              { cls := 0, level := 1, master := 0x56, part := p, source := 0x56, code := 0, aux := 2 * (r - 1) + slot })

/-! ### Serving a slot (R441, R442) -/

/-- Sends slot bytes from offset `off` as packets of at most 4,096 bytes; reading them draws tokens (R230). -/
def State.serveBytes (s : State) (tag : Nat) (q : ServeReq) (off n addr : Nat) (ordered : Bool) : State :=
  let b := s.rdBytes (s.slotBase q.p q.r q.slot + off) n
  (List.range (ceilDiv n 4096)).foldl (fun (s : State) k =>
    s.sendPkt tag q.p q.dev q.part 1 (addr + 4096 * k) (s.genOf q.p) ordered ((b.drop (4096 * k)).take 4096)) (s.regCharge q.p 0 0x56 n)

/-- Sends a slot: DIRECT, the manifest area to STAGE_ADDR and each page to the VPN of the page list; RESLICE, the whole image to STAGE_ADDR;
then SERVE_DONE. -/
def State.serveSlot (s : State) (q : ServeReq) : State :=
  let t := s.newTag
  let s := t.2.setSlot q.p q.r q.slot { t.2.slot q.p q.r q.slot with serving := some t.1 }
  let p := s.runPages q.p
  let area := s.rd F.SNP_MIRROR_L q.p (q.r - 1) - p
  let s := if q.reslice then s.serveBytes t.1 q 0 ((p + area) * 65536) q.stage false
    else
      let n := mfPages (s.rdBytes (s.slotBase q.p q.r q.slot + p * 65536) 128)
      let s := s.serveBytes t.1 q (p * 65536) (area * 65536) q.stage true
      (List.range n).foldl (fun (s : State) i =>
        let v := s.rdNat (s.slotBase q.p q.r q.slot + (p + 33) * 65536 + 4 * i) 4
        s.serveBytes t.1 q (i * 65536) 65536 (v * 65536) false) s
  s.sendPkt t.1 q.p q.dev 0xFE 3 0 (s.genOf q.p) false (natLe 1 0x23 ++ natLe 1 q.part ++ natLe 2 0)

/-- SNAP_SERVE as firmware serves it: the named slot must be COMPLETE and not being served. -/
def State.snapServeServe (s : State) (h : MbxHdr) (q : ServeReq) : State :=
  s.serveMsg h
    { feat := some 2, mgmt := true, stage := stFinial
      fieldOk := decide (q.p < 16) && s.runHas q.p q.r q.slot && decide (q.part < 16) && decide (q.stage % 65536 = 0) && decide (q.stage < 2 ^ 40) }
    (fun s =>
      if s.slotServing q.p q.r q.slot then busyReply s
      else if s.rd (stateFld q.slot) q.p (q.r - 1) ≠ 2 then fieldReply s
      else okReply (s.serveSlot q))

/-- SNAP_SERVE (R442). -/
def execSnapServe (t : Nat) (h : MbxHdr) (req : ServeReq) (s : State) : Out :=
  let s := s.tick t
  inst (mbxOk h) (s.mbx (.snapServe t h req) h (fun s => s.snapServeServe h req))

/-- SERVE_DONE (R442), accepted from a serving device that RESTORE names. -/
def execServeDone (t src ep p : Nat) (s : State) : Out :=
  let s := s.tick t
  .next (match aget s.restores p with
    | none => s.slotAnswer src ep 1 []
    | some r =>
      if r.req.sources.any (fun x => x.dev = some src) then
        ({ s with restores := aset s.restores p { r with served := aset r.served src s.now, heard := aset r.heard src s.now } } : State).slotAnswer
          src ep 0 []
      else s.slotAnswer src ep 1 [])

end Sys2Proof.Machine
end

