-- ==== Sys2Proof/Machine/Restore.lean ====
section
/-!
DEFINITION. Sys2Proof/Machine/Restore.lean: RESTORE on the receiving device: its sources, the step rule, DIRECT and RESLICE, and its end
(spec/19, R440 to R444).
-/

namespace Sys2Proof.Machine

/-- Whether partition `p` is quiesced (R260). -/
def State.quiesced (s : State) (p : Nat) : Bool :=
  let gs := s.groupsOf p
  gs.all (fun g =>
    (List.range 8).all (fun c => s.rd F.AG_CTX_STATE g c % 2 = 0) && (List.range 4).all (fun e => !s.on F.STW_CMD_ACTIVE g e)
      && !s.on F.TUR_STATUS_RUNNING g && (List.range 17).all (fun j => s.rd F.SPR_CREDIT_FREE (17 * g + j) = 288))
    && !s.jobs.any (fun j => j.p = p) && !s.on F.PGM_CUT_ACTIVE p && !(s.homeOf p).any (fun g => s.on F.AG_NUM_ADVANCE_BUSY g)

/-! ### Source images (R440 to R442) -/

/-- Where a source image lies: staged whole, or (DIRECT) its pages in their target pages and its manifest area in staging. -/
structure SrcPlace where
  direct : Bool
  stage : Nat
  pages : Nat
  list : List Nat
  deriving DecidableEq, Repr

/-- Device address of byte `off` of a source image. -/
def SrcPlace.addr (x : SrcPlace) (off : Nat) : Nat :=
  if !x.direct then x.stage + off
  else if off < x.pages * 65536 then x.list.getD (off / 65536) (2 ^ 24) * 65536 + off % 65536
  else x.stage + (off - x.pages * 65536)

/-- Reads the bytes at device addresses as partition `p`, under R208; none where a check or a word fails. -/
def State.gather (s : State) (p : Nat) (as : List Nat) : Option Bytes × State :=
  let r := (as.foldl (fun l a => addOnce l (a / 65536)) []).foldl (fun (r : Bool × State) v =>
    if r.1 then
      match r.2.checkAccess 4 0x56 p (v * 65536) 1 false false with
      | (none, s) => (true, s)
      | (some _, s) => (false, s)
    else r) (true, s)
  if !r.1 then (none, r.2)
  else
    match (r.2.regCharge p 0 0x56 as.length).readKeys 0x56 p (as.map (fun a => r.2.keyOf 4 a)) with
    | (b, bad, s) => (if bad then none else some b, s)

/-- `n` bytes of a source image from offset `off`. -/
def State.imgBytes (s : State) (p : Nat) (x : SrcPlace) (off n : Nat) : Option Bytes × State :=
  s.gather p ((List.range n).map (fun k => x.addr (off + k)))

/-- What a source holds. -/
inductive SrcGot where
  /-- manifest header, entries, and where its bytes lie -/
  | image (hdr entries : Bytes) (at_ : SrcPlace)
  /-- a manifest that is not valid, or one whose signature does not verify -/
  | bad
  | badSig
  deriving DecidableEq, Repr

/-- Whether the signature of a SIGNED manifest verifies: it stands behind the page list, over the header and its entries digest, and is
followed by the signer's identity digest (R447; notes/assumptions/58.md). -/
def State.signedOk (s : State) (p : Nat) (x : SrcPlace) (h : Bytes) (signer : Option Bytes) : Bool :=
  match signer with
  | none => false
  | some key =>
    match s.imgBytes p x ((x.pages + 33) * 65536 + 4 * mfPages h) 2852 with
    | (some b, _) => s.verifies (.owner key) (h ++ slice h 48 32) (b.take 2820) && decide (b.drop 2820 = shake256 key)
    | _ => false

/-- Reads the manifest of a source. -/
def State.loadSource (s : State) (p : Nat) (reslice : Bool) (src : RestoreSrc) : SrcGot × State :=
  let x : SrcPlace := { direct := !reslice, stage := src.stage, pages := src.pages, list := [] }
  match s.imgBytes p x (src.pages * 65536) 128 with
  | (none, s) => (.bad, s)
  | (some h, s) =>
    if 16384 < mfShards h ∨ src.pages < mfPages h then (.bad, s)
    else
      match s.imgBytes p x (src.pages * 65536 + 128) (128 * mfShards h) with
      | (none, s) => (.bad, s)
      | (some es, s) =>
        match s.imgBytes p x ((src.pages + 33) * 65536) (4 * mfPages h) with
        | (none, s) => (.bad, s)
        | (some ps, s) =>
          if !manifestOk h es ps src.pages then (.bad, s)
          else if mfSigned h && !s.signedOk p x h src.signer then (.badSig, s)
          else (.image h es { x with list := (List.range (mfPages h)).map (fun i => leAt ps (4 * i) 4) }, s)

/-- A shard of a source: its header as drained and its data, where both match their digests. -/
structure SrcShard where
  hdr : Bytes
  data : Bytes
  ok : Bool
  deriving DecidableEq, Repr

/-- Reads shard `k` of a source (R440). -/
def State.loadShard (s : State) (p : Nat) (es : Bytes) (x : SrcPlace) (k : Nat) : SrcShard × State :=
  let e := slice es (128 * k) 128
  match s.imgBytes p x (meHdrOff e) 512 with
  | (none, s) => (⟨[], [], false⟩, s)
  | (some hb, s) =>
    match s.imgBytes p x (meDataOff e) (meDataBytes e) with
    | (none, s) => (⟨hb, [], false⟩, s)
    | (some db, s) => (⟨hb, db, decide (shake256 hb = slice e 64 32) && decide (shake256 db = slice e 32 32)⟩, s)

def State.loadShards (s : State) (p : Nat) (n : Nat) (es : Bytes) (x : SrcPlace) : List SrcShard × State :=
  (List.range n).foldl (fun (r : List SrcShard × State) k =>
    match r.2.loadShard p es x k with
    | (sh, s) => (r.1 ++ [sh], s)) ([], s)

/-! ### RESLICE (R442) -/

/-- Indices of row `r` over extents, the last the fastest. -/
def unrank (dims : List Nat) (r : Nat) : List Nat :=
  (dims.foldr (fun d (x : List Nat × Nat) => (x.2 % d :: x.1, x.2 / d)) ([], r)).1

/-- The row number of indices over extents. -/
def rank (dims idx : List Nat) : Nat := (dims.zip idx).foldl (fun r x => r * x.1 + x.2) 0

/-- Bits [o + w - 1 : o] of a byte string. -/
def bitsOf (b : Bytes) (o w : Nat) : Nat := leAt b (o / 8) (ceilDiv (o % 8 + w) 8) / 2 ^ (o % 8) % 2 ^ w

/-- Origin of the dimensions a header uses. -/
def shOrg (b : Bytes) : List Nat := (shOrigin b).take (shNdim b)

/-- Whether a shard holds an element of global coordinates `c`. -/
def shHolds (b : Bytes) (c : List Nat) : Bool :=
  ((shOrg b).zip (shDims b)).zip c |>.all (fun x => decide (x.1.1 ≤ x.2) && decide (x.2 < x.1.1 + x.1.2))

/-- Whether a source shard fits a target shard in tensor, format, shape and layout. -/
def shFits (a b : Bytes) : Bool :=
  decide (shTensor a = shTensor b) && decide (shFormat a = shFormat b) && decide (shLayout a = shLayout b)
    && decide (shNdim a = shNdim b) && decide (shShape a = shShape b)

/-- The piece boundaries of a block-scaled shard on the last dimension fall at multiples of 32, or at the end of the tensor. -/
def blocksAlign (b : Bytes) : Bool :=
  let o := (shOrg b).getLastD 0
  let e := o + shCols b
  decide (o % 32 = 0) && (decide (e % 32 = 0) || decide (e = ((shShape b).take (shNdim b)).getLastD 0))

/-- Where element `c` stands in a dense shard: row and place in the row. -/
def shAt (b : Bytes) (c : List Nat) : Nat × Nat :=
  let idx := (c.zip (shOrg b)).map (fun x => x.1 - x.2)
  (rank (shDims b).dropLast idx.dropLast, idx.getLastD 0)

/-- The source shard that gives element `c` of target `th`: the shard, or the code of *Restore codes*. -/
def sourceOf (srcs : List SrcShard) (th : Bytes) (c : List Nat) : SrcShard ⊕ Nat :=
  match srcs.find? (fun x => x.ok && shFits x.hdr th && shHolds x.hdr c) with
  | some x => .inl x
  | none =>
    if srcs.any (fun x => !x.ok && (x.hdr.isEmpty || (decide (shTensor x.hdr = shTensor th) && shHolds x.hdr c))) then .inr 0x12
    else if srcs.any (fun x => x.ok && decide (shTensor x.hdr = shTensor th) && !shFits x.hdr th) then .inr 0x14
    else .inr 0x11

/-- Sums values of `w` bits each into a bit string of whole bytes. -/
def packRow (w : Nat) (vs : List Nat) : Bytes :=
  natLe (ceilDiv (vs.length * w) 8) ((vs.zipIdx.map (fun x => x.1 * 2 ^ (w * x.2))).sum)

/-- One row of a dense target, copied element by element. -/
def sliceRow (srcs : List SrcShard) (th : Bytes) (w : Nat) (row : List Nat) : List Nat ⊕ Nat :=
  (List.range (shCols th)).foldl (fun (r : List Nat ⊕ Nat) i =>
    match r with
    | .inr c => .inr c
    | .inl vs =>
      let c := ((shOrg th).zip (row ++ [i])).map (fun x => x.1 + x.2)
      match sourceOf srcs th c with
      | .inr e => .inr e
      | .inl x =>
        let a := shAt x.hdr c
        .inl (vs ++ [bitsOf x.data (8 * a.1 * ceilDiv (shCols x.hdr * w) 8 + w * a.2) w])) (.inl [])

/-- The block scales of one row of a dense target. -/
def sliceScales (srcs : List SrcShard) (th : Bytes) (w : Nat) (row : List Nat) : List Nat ⊕ Nat :=
  (List.range (ceilDiv (shCols th) 32)).foldl (fun (r : List Nat ⊕ Nat) j =>
    match r with
    | .inr c => .inr c
    | .inl vs =>
      let c := ((shOrg th).zip (row ++ [32 * j])).map (fun x => x.1 + x.2)
      match sourceOf srcs th c with
      | .inr e => .inr e
      | .inl x =>
        let a := shAt x.hdr c
        .inl (vs ++ [leAt x.data (denseData x.hdr w + a.1 * ceilDiv (shCols x.hdr) 32 + a.2 / 32) 1])) (.inl [])

/-- The data of a dense target shard. -/
def State.sliceDense (s : State) (g : Nat) (srcs : List SrcShard) (th : Bytes) : Bytes ⊕ Nat :=
  match s.elemBits g (shFormat th), s.denseForm g th with
  | some w, some scaled =>
    let mine := srcs.filter (fun x => x.ok && shFits x.hdr th)
    if mine.any (fun x => s.denseForm g x.hdr ≠ some scaled) then .inr 0x14
    else if scaled && !(blocksAlign th && mine.all (fun x => blocksAlign x.hdr)) then .inr 0x14
    else
      let rows := (List.range (shRows th)).map (fun r => unrank (shDims th).dropLast r)
      let add := fun (f : List Nat → List Nat ⊕ Nat) (k : Nat) (a : Bytes ⊕ Nat) (row : List Nat) =>
        match a with
        | .inr c => (.inr c : Bytes ⊕ Nat)
        | .inl b =>
          match f row with
          | .inr c => .inr c
          | .inl vs => .inl (b ++ packRow k vs)
      let d := rows.foldl (add (sliceRow srcs th w) w) (.inl [])
      if scaled then rows.foldl (add (sliceScales srcs th w) 8) d else d
  | _, _ => .inr 0x14

/-- The data of a target shard: dense by element, OPAQUE whole. -/
def State.sliceShard (s : State) (g : Nat) (srcs : List SrcShard) (th : Bytes) : Bytes ⊕ Nat :=
  if shLayout th = 0 then s.sliceDense g srcs th
  else
    let same := fun (x : SrcShard) => decide (shTensor x.hdr = shTensor th) && decide (shLayout x.hdr = 1)
    let equal_ := fun (x : SrcShard) =>
      decide (shOrigin x.hdr = shOrigin th) && decide (shExtent x.hdr = shExtent th) && decide (shBytes x.hdr = shBytes th)
    match srcs.find? (fun x => x.ok && same x && equal_ x) with
    | some x => .inl x.data
    | none => if srcs.any (fun x => !x.ok && (x.hdr.isEmpty || (same x && equal_ x))) then .inr 0x12
              else if srcs.any (fun x => x.ok && same x) then .inr 0x14 else .inr 0x11

/-- What a step gives: the writes that restore it and the number of shards verified, or the code that rules it out. -/
abbrev StepGot := (List (Nat × Bytes) × Nat) ⊕ Nat

/-- RESLICE from the images of one step. -/
def State.resliceStep (s : State) (p : Nat) (imgs : List (Bytes × Bytes × SrcPlace)) : StepGot × State :=
  let r := imgs.foldl (fun (r : List SrcShard × State) m =>
    match r.2.loadShards p (mfShards m.1) m.2.1 m.2.2 with
    | (l, s) => (r.1 ++ l, s)) ([], s)
  match r.2.shardTable p with
  | (t, s) =>
    let got := t.foldl (fun (a : StepGot) th =>
      match a, th with
      | .inr c, _ => .inr c
      | .inl _, none => .inr 0x14
      | .inl (ws, n), some th =>
        match s.sliceShard ((s.homeOf p).getD 0) r.1 th with
        | .inl b => .inl (ws ++ [(shAddr th, b)], n + 1)
        | .inr c => .inr c) (.inl ([], 0))
    (got, s)

/-- DIRECT from one image: every page went to a writable SNAP page of the partition, and every shard matches its digests. -/
def State.directStep (s : State) (p : Nat) (m : Bytes × Bytes × SrcPlace) : StepGot × State :=
  let pageOk := fun (v : Nat) =>
    let e := s.pmEntry v
    pmValid e && pmSnap e && pmWrite e && decide (pmOwner e = p)
  if !m.2.2.list.all pageOk then (.inr 0x14, s)
  else
    match s.loadShards p (mfShards m.1) m.2.1 m.2.2 with
    | (l, s) => (if l.all (fun x => x.ok) then .inl ([], l.length) else .inr 0x12, s)

/-! ### The step rule and the end of a restore (R443, R444) -/

/-- Whether a source has stopped answering for 1 s, and whether it has been served whole and 1 ms has passed. -/
def RestoreRun.lost (r : RestoreRun) (now : Nat) (src : RestoreSrc) : Bool :=
  src.dev.any (fun d => (aget r.served d).isNone && decide (max r.begun (agetD r.heard d 0) + 1000000000 ≤ now))

def RestoreRun.ready (r : RestoreRun) (now : Nat) (src : RestoreSrc) : Bool :=
  src.dev.all (fun d => (aget r.served d).any (fun t => t + 1000000 ≤ now))

/-- A number put into a list in ascending order of a key, after those of the same key. -/
def insertAt (key : Nat → Nat) (x : Nat) : List Nat → List Nat
  | [] => [x]
  | y :: l => if key x < key y then x :: y :: l else y :: insertAt key x l

/-- Steps without repeats, highest first. -/
def stepsDown (l : List Nat) : List Nat := ((l.foldl addOnce []).foldl (fun a x => insertAt (fun y => y) x a) []).reverse

/-- How a restore ends. -/
structure RestoreEnd where
  code : Nat
  step : Nat := 0
  writes : List (Nat × Bytes) := []
  shards : Nat := 0
  passed : List (Nat × Nat) := []
  orphans : List Nat := []
  /-- a digest failed in the course of it -/
  soft : Bool := false
  deriving DecidableEq, Repr

/-- Every source's manifest. -/
def State.loadSources (s : State) (r : RestoreRun) : List (RestoreSrc × SrcGot) × State :=
  r.req.sources.foldl (fun (x : List (RestoreSrc × SrcGot) × State) src =>
    match x.2.loadSource r.req.p r.req.reslice src with
    | (g, s) => (x.1 ++ [(src, g)], s)) ([], s)

/-- Tries the qualifying steps from the highest down; answers the step with what it gives, the code of the first tried, and whether a digest
failed. -/
def State.trySteps (s : State) (r : RestoreRun) (imgs : List (Bytes × Bytes × SrcPlace)) :
    List Nat → Option Nat → Bool → (Option (Nat × (List (Nat × Bytes) × Nat)) × Option Nat × Bool) × State
  | [], c, soft => ((none, c, soft), s)
  | st :: rest, c, soft =>
    let mine := imgs.filter (fun m => mfStep m.1 = st)
    let got := if r.req.reslice then s.resliceStep r.req.p mine
      else match mine.head? with
        | some m => s.directStep r.req.p m
        | none => (.inr 0x10, s)
    match got with
    | (.inl w, s) => ((some (st, w), c, soft), s)
    | (.inr e, s) => s.trySteps r imgs rest (c.or (some e)) (soft || decide (e = 0x12))

/-- The outcome of a restore whose sources have all been served or lost. -/
def State.restoreEnd (s : State) (r : RestoreRun) : RestoreEnd × State :=
  match s.loadSources r with
  | (l, s) =>
    let live := l.filter (fun x => !r.lost s.now x.1)
    let gone := l.filter (fun x => r.lost s.now x.1)
    let imgs := live.filterMap (fun x => match x.2 with | .image h es a => some (h, es, a) | _ => none)
    let fits := fun (st : Nat) => if r.req.exact then decide (st = r.req.step) else decide (st ≤ r.req.step)
    let steps := stepsDown ((imgs.map (fun m => mfStep m.1)).filter fits)
    let soft := live.any (fun x => x.2 = .bad)
    match s.trySteps r imgs steps none false with
    | ((some (st, ws, n), _, sf), s) =>
      let passed := l.zipIdx.filterMap (fun x => match x.1.2 with
        | .image h _ _ => if st < mfStep h then some (x.2, mfStep h) else none
        | _ => none)
      ({ code := 0, step := st, writes := ws, shards := n, passed := passed, soft := soft || sf }, s)
    | ((none, c, sf), s) =>
      let orphans := gone.flatMap (fun x => match x.2 with
        | .image h es _ => (List.range (mfShards h)).map (fun k => leAt es (128 * k) 4)
        | _ => [])
      let code :=
        if !gone.isEmpty then (if orphans.isEmpty then 0x13 else 0x15)
        else match c with
          | some e => e
          | none => if live.any (fun x => x.2 = .badSig) then 0x17 else if soft then 0x12 else 0x10
      ({ code := code, orphans := orphans.foldl addOnce [], soft := soft || sf }, s)

/-- The payload of the answer to RESTORE: step, counts, passed-over sources and orphaned TENSORs (notes/assumptions/59.md). -/
def RestoreEnd.bytes (e : RestoreEnd) : Bytes :=
  (natLe 4 e.step ++ natLe 2 e.passed.length ++ natLe 2 e.orphans.length
    ++ e.passed.flatMap (fun x => natLe 2 x.1 ++ natLe 2 0 ++ natLe 4 x.2) ++ e.orphans.flatMap (fun x => natLe 4 x)).take 4060

/-- SNP_RESTORE shows how a restore ended; a dry run leaves STATE. -/
def State.showRestore (s : State) (p : Nat) (dry : Bool) (code step shards : Nat) : State :=
  let s := ((s.wr F.SNP_RESTORE_CODE code p).wr F.SNP_RESTORE_STEP step p).wr F.SNP_RESTORE_SHARDS_DONE shards p
  (if dry then s else s.wr F.SNP_RESTORE_STATE (if code = 0 then 2 else 3) p).setReady

/-- Answers the request that waits for partition `p`, if a restart of the management core has not taken it over (R324). -/
def State.answerBusy (s : State) (p : Nat) (restore : Bool) (status : Nat) (b : Bytes) : State :=
  let mine := fun (x : MbxBusy) => decide (x.p = p) && (x.restore == restore)
  let l := s.host.busy.filter mine
  let s := { s with host := { s.host with busy := s.host.busy.filter (fun x => !mine x) } }
  l.foldl (fun (s : State) x => s.respond x.h status b) s

/-- RESTORE as firmware serves it: the request stays BUSY until the restore ends (R441, R443). -/
def State.restoreServe (s : State) (h : MbxHdr) (q : RestoreReq) : State :=
  match s.mbxCheck h { feat := some 2, mgmt := true, stage := stFinial, fieldOk := decide (q.p < 16) && s.hasPart q.p } with
  | some st => s.respond h st []
  | none =>
    if (aget s.restores q.p).isSome then s.respond h 7 []
    else if !s.quiesced q.p then (s.showRestore q.p q.dryRun 0x16 0 0).respond h 9 (natLe 4 0x16)
    else
      let s := s.wr F.MBX_STATUS_BUSY 1 h.m
      let run : RestoreRun := { req := q, h := h, begun := s.now }
      let entry : MbxBusy := { h := h, p := q.p, restore := true }
      let s := { s with restores := aset s.restores q.p run, host := { s.host with busy := s.host.busy ++ [entry] } }
      let s := (s.wr F.SNP_RESTORE_CODE 0 q.p).wr F.SNP_RESTORE_SHARDS_DONE 0 q.p
      (if q.dryRun then s else s.wr F.SNP_RESTORE_STATE 1 q.p).setReady

/-- RESTORE (R441). -/
def execRestore (t : Nat) (h : MbxHdr) (req : RestoreReq) (s : State) : Out :=
  let s := s.tick t
  inst (mbxOk h) (s.mbx (.restore t h req) h (fun s => s.restoreServe h req))

/-- RESTORE_COMPLETE (R442 to R444): once every source has been served or lost, the restore ends; a failed digest is read again after 1 ms. -/
def execRestoreComplete (t p : Nat) (s : State) : Out :=
  let s := s.tick t
  inst (p < 16)
    (match aget s.restores p with
     | none => s
     | some r =>
       if s.safe ∨ !r.req.sources.all (fun x => r.ready s.now x || r.lost s.now x) ∨ r.failedAt.any (fun t => s.now < t + 1000000) then s
       else
         match s.restoreEnd r with
         | (e, s) =>
           if e.soft ∧ r.failedAt.isNone then { s with restores := aset s.restores p { r with failedAt := some s.now } }
           else
             let s := { s with restores := adel s.restores p }
             let s := if r.req.dryRun then s
               else e.writes.foldl (fun (s : State) w => (s.devWrite 4 0x56 p w.1 w.2).2) s
             let s := s.showRestore p r.req.dryRun e.code e.step e.shards
             if e.code = 0 then s.answerBusy p true 0 e.bytes else s.answerBusy p true 9 (natLe 4 e.code ++ e.bytes))

end Sys2Proof.Machine
end

