-- ==== Sys2Proof/Machine/Gallery.lean ====
section
/-!
DEFINITION. Sys2Proof/Machine/Gallery.lean: echo comparison, known answers and charges, detection goals, margins, the Campanile test and the
Gallery messages (spec/17).
-/

namespace Sys2Proof.Machine

/-! ### Comparison and charges (R391 to R393, R398, R400) -/

/-- Master code of the unit of a descriptor or echo. -/
def Job.unitCode (j : Job) : Nat := if j.op = 1 then 0x30 + j.pa / 17 else if j.op = 2 then 0x20 + j.g else 0x10 + j.pa

/-- First step a mismatch at step `d` puts under suspicion (R398). -/
def State.suspectFrom (s : State) (p d : Nat) : Nat :=
  d + 1 - (if s.on F.GAL_GOAL_GOAL p then s.rd F.GAL_GOAL_HORIZON p else s.hEff p)

/-- Write digest of a descriptor or echo with its final status byte (R392). -/
def State.writeDigest (s : State) (j : Job) : Bytes :=
  shake256 (j.wlog ++ natLe 1 (((s.jobOutcome j).map (fun o => o.1)).getD 0))

/-- A Gallery mismatch (R392): counted, a level 1 fault with CODE 0110h in the class of the opcode, the step marked bad; its charge waits for the
known answers. -/
def State.mismatch (s : State) (j e : Job) : State :=
  let m := j.unitCode
  let s := (s.inc F.GAL_CNT_MISMATCHES j.p).raise
    { cls := if j.op = 1 then 1 else if j.op = 2 then 0 else 2, level := 1, master := m, part := j.p, source := m, code := 0x110,
      aux := if j.op = 1 then j.pa else 0 }
  let s := s.markBad j.p j.step (s.suspectFrom j.p j.step)
  let bu := s.bucketNow j.pa
  let be := bu.2.bucketNow e.pa
  let x : Mismatch := { p := j.p, unit := m, unitPa := unitKey j.unit j.pa j.g, echo := e.unitCode,
                        echoPa := unitKey e.unit e.pa e.g, step := j.step, bucketU := bu.1, bucketE := be.1 }
  if j.op = 1 then { be.2 with gal := { be.2.gal with mism := be.2.gal.mism ++ [x] } }
  else { s with gal := { s.gal with mism := s.gal.mism ++ [x] } }

/-- ECHO_COMPARE (R392): once the k-th started descriptor of the context and its echo have ended, their digests are compared. -/
def execEchoCompare (t g c k : Nat) (upset : Bool) (s : State) : Out :=
  let s := s.tick t
  inst (g < 16 ∧ c < 8)
    (match (s.jobsOf g c)[k]? with
     | none => s
     | some j =>
       let mine := fun (e : Job) => decide (e.g = g) && decide (e.c = c) && decide (e.idx = j.idx) && (e.alt == j.alt)
       match s.echoes.find? mine with
       | none => s
       | some e =>
         if !j.sampled ∨ (s.jobOutcome j).isNone then s
         else
           let differ := upset || decide (s.writeDigest j ≠ s.writeDigest e)
           let s := { s with echoes := s.echoes.filter (fun x => !mine x) }
           let s := s.putJob { j with sampled := false }
           if differ then s.mismatch j e else s)

/-- ECHO_ABANDON (R391, R395): an echo that has outgrown the divert buffer is abandoned, and its descriptor starts unsampled; the elements of a
MATMUL echo that are in flight still complete (R33). -/
def execEchoAbandon (t g c : Nat) (s : State) : Out :=
  let s := s.tick t
  inst (g < 16 ∧ c < 8)
    (match s.jobs.find? (fun k => k.echo && decide (k.g = g) && decide (k.c = c)) with
     | none => s
     | some e =>
       if e.dropped ∨ e.divert.length ≤ divertBytes then s
       else
         let s := match e.op with
           | 1 => s.putJob { e with stopped := true, outStop := true, dropped := true, divert := [] }
           | 2 =>
             let s := s.dropEcho e
             if e.ended then s else (s.wr F.STW_CMD_ACTIVE 0 g (e.unit - 16)).nextCopy g (e.unit - 16) 2
           | _ => (s.dropEcho e).showTurret e.pa
         let s := s.inc F.GAL_CNT_SKIPPED_SIZE e.p
         ({ s with gal := { s.gal with abandoned := s.gal.abandoned ++ [(e.p, e.step)] } } : State).coverage e.p)

/-- Path of a unit in the table of failure rates: 0 drain, conversion and export, 1 turret units, 2 stairway engines. -/
def pathOf (master : Nat) : Nat := if master < 0x20 then 1 else if master < 0x30 then 2 else 0

/-- Charges a mismatch to a unit: its bucket where it is a physical array, the path's count, and the partition's clean service (R396,
R400). -/
def State.chargeUnit (s : State) (x : Mismatch) (master pa bucket : Nat) : State :=
  let s := s.galFirst 2 x.p (if pa < 272 then pa else 511) master x.step
  let s := { s with
    gal := { s.gal with charges := s.gal.charges ++ [(x.p, pathOf master, s.now)] },
    sec := { s.sec with flash := { s.sec.flash with cleanNs := aset s.sec.flash.cleanNs x.p 0 } } }
  if pa < 272 then s.charge x.p pa bucket x.step else s

/-- GALLERY_KNOWN_ANSWER (R393): the mismatch is charged to the descriptor's unit where the echo unit passes, and to the echo unit, which then
serves no echoes, where it fails. -/
def execGalleryKnownAnswer (t p : Nat) (passed : Bool) (s : State) : Out :=
  let s := s.tick t
  inst (p < 16)
    (match s.gal.mism.find? (fun x => x.p = p) with
     | none => s
     | some x =>
       let s := { s with gal := { s.gal with mism := removeFirst (fun y => y.p = p) s.gal.mism } }
       if passed then s.chargeUnit x x.unit x.unitPa x.bucketU
       else
         let s := s.chargeUnit x x.echo x.echoPa x.bucketE
         ({ s with gal := { s.gal with noEcho := addOnce s.gal.noEcho x.echoPa } } : State).coverage p)

/-! ### The rate-bound goal (R396, R397) -/

/-- Published failure rates in 10^-8 per device-hour, by path. -/
def pathRates : List Nat := [10, 15, 5, 3, 7]

/-- 720 hours in ns. -/
def windowNs : Nat := 720 * 3600 * 1000000000

/-- Σ rate x time over the last 720 h of service of partition `p`, in ppm ns. -/
def State.ratedNs (s : State) (p : Nat) : Nat :=
  ((s.gal.rates.filter (fun x => x.1 = p)).map (fun (x : Nat × Nat × Nat × Nat) => x.2.2.2 * (x.2.2.1 - max x.2.1 (s.now - windowNs)))).sum

/-- Mismatches charged to path `u` of partition `p` in the last 720 h. -/
def State.chargesOf (s : State) (p u : Nat) : Nat :=
  (s.gal.charges.filter (fun x => decide (x.1 = p) && decide (x.2.1 = u) && decide (s.now ≤ x.2.2 + windowNs))).length

/-- Λ and its bound 10^-E g / 16, both in units of 10^-16 / (16 S) per hour, S the sum of rate and time (1 where it is 0); a charged path with
no sampled service gives no finite Λ (notes/assumptions/63.md). -/
def State.goalRates (s : State) (p : Nat) : Option Nat × Nat :=
  let g := (s.groupsOf p).length
  let sum := s.ratedNs p
  let s1 := max sum 1
  let term := fun (u : Nat) => max (pathRates.getD u 0 * g * s1) (s.chargesOf p u * 3600000000000000000 * 1600000000) * 100000000
  (if sum = 0 ∧ (List.range 5).any (fun u => 0 < s.chargesOf p u) then none else some (((List.range 5).map term).sum),
   g * 10 ^ (16 - s.rd F.GAL_GOAL_TARGET_EXP p) * s1)

/-- r_model in ppm, rounded up. -/
def modelPpm (r : Option Nat × Nat) : Nat :=
  match r.1 with
  | none => 1000000
  | some l => if l ≤ r.2 then 0 else ceilDiv (1000000 * (l - r.2)) l

/-- r_prior in ppm, rounded up, after `ns` of clean service. -/
def priorPpm (ns : Nat) : Nat := ceilDiv 250000 (2 ^ (ns / 86400000000000))

/-- SAMPLING_RATE_UPDATE (R396, R397): every 60 s firmware sets the sampling rate, MET and CLAMPED of a partition under the rate-bound goal. -/
def execSamplingRateUpdate (t p : Nat) (s : State) : Out :=
  let s := s.tick t
  let last := aget s.gal.rateAt p
  inst (p < 16)
    (if !s.fwUp ∨ !s.on F.GAL_GOAL_GALLERY p ∨ !s.on F.GAL_GOAL_GOAL p ∨ last.any (fun x => s.now < x + 60000000000) then s
     else
       let from_ := last.getD s.now
       let clean := agetD s.sec.flash.cleanNs p 0 + (s.now - from_)
       let seg := if from_ < s.now then [(p, from_, s.now, s.rd F.GAL_GOAL_RATE_PPM p)] else []
       let s := { s with
         gal := { s.gal with
           rateAt := aset s.gal.rateAt p s.now
           rates := s.gal.rates.filter (fun (x : Nat × Nat × Nat × Nat) => decide (s.now < x.2.2.1 + windowNs)) ++ seg
           charges := s.gal.charges.filter (fun (x : Nat × Nat × Nat) => decide (s.now ≤ x.2.2 + windowNs)) },
         sec := { s.sec with flash := { s.sec.flash with cleanNs := aset s.sec.flash.cleanNs p clean } } }
       let r := s.goalRates p
       let want := max (modelPpm r) (max (priorPpm clean) 1000)
       let ceil := s.rd F.GAL_GOAL_ECHO_CEIL p * 10000
       let rate := min ceil want
       let met := match r.1 with
         | none => false
         | some l => decide (l * (1000000 - rate) ≤ r.2 * 1000000)
       let s := (s.wr F.GAL_GOAL_RATE_PPM rate p).wrB F.GAL_GOAL_MET met p
       (s.wrB F.GAL_GOAL_CLAMPED (!met && decide (ceil < want)) p).coverage p)

/-! ### Margins (R405, R406) -/

/-- Default threshold of a cause, in the unit of its samples: tenths of a percent, counts, tenths of a dB. -/
def defaultThreshold (cause : Nat) : Int := [30, 1000, -80, 15, 10000, 0, 1000].getD cause 0

def State.threshold (s : State) (cause : Nat) : Int := (aget s.gal.thresholds cause).getD (defaultThreshold cause)

/-- Whether a trend crosses the threshold of its cause (*Trended margins*). -/
def State.crosses (s : State) (cause inst : Nat) (v : Int) : Bool :=
  let th := s.threshold cause
  match cause with
  | 0 => v < th
  | 1 => th < v
  | 2 => v < th ∨ v ≤ (s.port inst).rxTrain - 20
  | 3 => v ≤ (s.port (4 * inst)).lightTrain - th
  | 5 => true
  | _ => th < v

/-- Partitions with channels in a stack. -/
def State.stackParts (s : State) (n : Nat) : List Nat :=
  match s.img.act with
  | some im => s.partNums.filter (fun p => im.chans.any (fun r => decide (r.p = p) && decide (bits r.chans (64 * n) 64 ≠ 0)))
  | none => []

/-- Class, source and partitions of a warning's instance. -/
def State.warnScope (s : State) (cause inst : Nat) : Nat × Nat × List Nat :=
  match cause with
  | 0 => (4, 0x54, (s.partOf inst).toList)
  | 1 => (4, 0x54, (s.partOf inst).toList)
  | 2 => (3, 0x5A, s.partNums)
  | 3 => (3, 0x5A, s.partNums)
  | 6 => (0, 0x50 + inst / 4, (s.partOf inst).toList)
  | _ => (0, 0x40 + inst, s.stackParts inst)

/-- How many instances a cause has. -/
def warnInstances (cause : Nat) : Nat := [16, 16, 32, 8, 16, 16, 16].getD cause 0

/-- MARGIN_SAMPLE (R405, R406). -/
def execMarginSample (t cause inst_ : Nat) (value : Int) (s : State) : Out :=
  let s := s.tick t
  inst (inst_ < warnInstances cause)
    (if s.fwUp && s.crosses cause inst_ value then
       let w := s.warnScope cause inst_
       s.warn cause inst_ w.1 w.2.1 w.2.2
     else s)

/-! ### The Campanile test (R402, R403) -/

/-- Whether a test's request lies in its ranges: an array test takes parts 0, 3 and 4, and the set point lies 3 degrees below throttling. -/
def State.campFields (s : State) (q : CampReq) : Bool :=
  decide (0 < q.parts) && decide (q.parts < 32) && (!q.parts.testBit 3 || decide (q.setPointC ≤ (s.throttleC : Int) - 3))
    && (match q.target with
        | some pa => decide (pa < 272) && decide (s.rd F.SPR_STATUS_ROLE pa ≠ 0) && (s.partOf (pa / 17)).isSome && decide (q.parts &&& 6 = 0)
        | none => s.hasPart q.p)

/-- CAMPANILE_RUN as firmware serves it. A spare in ECHO role is tested once its echo is over (R42); an ACTIVE array, or a partition, that is not
quiesced is refused with RESULT 03h. -/
def State.campRunServe (s : State) (h : MbxHdr) (q : CampReq) : State :=
  s.serveMsg h { feat := some 2, mgmt := true, stage := stDome, fieldOk := s.campFields q } (fun s =>
    let p := match q.target with
      | some pa => (s.partOf (pa / 17)).getD 0
      | none => q.p
    let phys := q.target.getD 511
    let arrays := match q.target with
      | some pa => [pa]
      | none => below 272 (fun pa => decide (pa / 17 ∈ s.groupsOf p) && decide (s.rd F.SPR_STATUS_ROLE pa ≠ 0))
    let quiet := s.quiesced p || q.target.any (fun pa => s.rd F.SPR_STATUS_ROLE pa ≠ 1)
    if s.gal.camp.isSome then busyReply s
    else
      let s := (s.wr F.GAL_CAMP_PARTITION p).wr F.GAL_CAMP_PHYS phys
      if !quiet then failReply (s.wr F.GAL_CAMP_RESULT 3) 3
      else
        let s := s.settle p
        let role := fun (pa : Nat) => let r := s.rd F.SPR_STATUS_ROLE pa; if r = 3 then 2 else r
        let run : CampRun := { target := q.target, p := p, parts := q.parts, setPointC := q.setPointC.toNat, beganAt := s.now,
                               roles := arrays.map (fun pa => (pa, role pa)) }
        let s := { s with gal := { s.gal with camp := some run, ranges := [] } }
        let s := arrays.foldl (fun (s : State) pa => if s.rd F.SPR_STATUS_ROLE pa = 3 ∧ s.echoOn pa then s else s.askTest pa) s
        let first := ((below 5 (fun k => q.parts.testBit k)).head?).getD 0
        let s := ((s.wr F.GAL_CAMP_RUNNING 1).wr F.GAL_CAMP_PART first).wr F.GAL_CAMP_RESULT 0
        okReply (((s.wr F.GAL_CAMP_FAILED 0).wr F.GAL_CAMP_ELAPSED_MS 0).coverage p))

/-- CAMPANILE_RUN (R402). -/
def execCampanileRun (t : Nat) (h : MbxHdr) (req : CampReq) (s : State) : Out :=
  let s := s.tick t
  inst (mbxOk h) (s.mbx (.campanileRun t h req) h (fun s => s.campRunServe h req))

/-- CAMPANILE_COMPLETE (R403): each array returns to its former role, failures at in-service conditions (array, degrees C, rail in mV between 600
and 800, R292) are charged to the bucket of those conditions, and the result stands in GAL_CAMP. -/
def execCampanileComplete (t failed : Nat) (charged : List (Nat × Int × Nat)) (ranges : List (Nat × Nat × Nat)) (s : State) : Out :=
  let s := s.tick t
  .next (match s.gal.camp with
    | none => s
    | some c =>
      if c.roles.any (fun e => s.rd F.SPR_STATUS_ROLE e.1 ≠ 4) then s
      else
        let bad := failed &&& c.parts
        let s := s.settle c.p
        let s := c.roles.foldl (fun (s : State) e => (s.wr F.SPR_STATUS_ROLE e.2 e.1).stirred (e.1 / 17)) s
        let s := { s with gal := { s.gal with camp := none, ranges := ranges.filter (fun r => decide (r.1 ∈ s.groupsOf c.p)) } }
        let s := ((s.wr F.GAL_CAMP_RUNNING 0).wr F.GAL_CAMP_RESULT (if bad = 0 then 0 else 1)).wr F.GAL_CAMP_FAILED bad
        let s := s.wr F.GAL_CAMP_ELAPSED_MS (min ((s.now - c.beganAt) / 1000000) 65535)
        let step := agetD s.curSteps c.p 0
        (charged.filter (fun x => c.roles.any (fun e => e.1 = x.1) && decide (600 ≤ x.2.2) && decide (x.2.2 ≤ 800))).foldl
          (fun (s : State) x => s.freeTaken.charge c.p x.1 (bucketIndex x.2.1 x.2.2 (s.free % 4)) step) s)

/-- CAMPANILE_RESULT as firmware serves it: GAL_CAMP, and the passing range of each group (notes/assumptions/64.md). -/
def State.campResultServe (s : State) (h : MbxHdr) : State :=
  s.serveMsg h { feat := some 2, mgmt := true } (fun s =>
    okReply s (natLe 8 (s.shown .GAL_CAMP 0 0) ++ s.gal.ranges.flatMap (fun r => natLe 1 r.1 ++ natLe 1 r.2.1 ++ natLe 1 r.2.2)))

/-- CAMPANILE_RESULT (R406). -/
def execCampanileResult (t : Nat) (h : MbxHdr) (s : State) : Out :=
  let s := s.tick t
  inst (mbxOk h) (s.mbx (.campanileResult t h) h (fun s => s.campResultServe h))

/-! ### Buckets and thresholds (R400, R401, R405) -/

/-- BUCKET_READ as firmware serves it: the 800 counts of one physical array, one to a byte. -/
def State.bucketReadServe (s : State) (h : MbxHdr) (pa : Nat) : State :=
  s.serveMsg h { feat := some 2, parts := (s.partOf (pa / 17)).toList, fieldOk := decide (pa < 272) } (fun s =>
    okReply s ((List.range 800).flatMap (fun b => natLe 1 (agetD s.sec.flash.buckets (800 * pa + b) 0))))

/-- BUCKET_READ (R400). -/
def execBucketRead (t : Nat) (h : MbxHdr) (pa : Nat) (s : State) : Out :=
  let s := s.tick t
  inst (mbxOk h) (s.mbx (.bucketRead t h pa) h (fun s => s.bucketReadServe h pa))

/-- BUCKET_CLEAR as firmware serves it: the array's counts, its quarantine requests, and its exclusion from echoes end (R393, R401). -/
def State.bucketClearServe (s : State) (h : MbxHdr) (pa : Nat) : State :=
  s.serveMsg h { feat := some 2, mgmt := true, fieldOk := decide (pa < 272) } (fun s =>
    let s := { s with
      sec := { s.sec with flash := { s.sec.flash with buckets := s.sec.flash.buckets.filter (fun e => e.1 / 800 ≠ pa) } },
      gal := { s.gal with noEcho := s.gal.noEcho.filter (fun x => x ≠ pa) } }
    okReply ((List.range 16).foldl (fun (s : State) p =>
      if (agetD s.gal.quar p []).any (fun q => q.pa = pa) then s.endQuar p pa else s) s))

/-- BUCKET_CLEAR (R401). -/
def execBucketClear (t : Nat) (h : MbxHdr) (pa : Nat) (s : State) : Out :=
  let s := s.tick t
  inst (mbxOk h) (s.mbx (.bucketClear t h pa) h (fun s => s.bucketClearServe h pa))

/-- WARN_SET as firmware serves it. -/
def State.warnSetServe (s : State) (h : MbxHdr) (cause : Nat) (value : Int) : State :=
  s.serveMsg h { feat := some 2, mgmt := true, fieldOk := decide (cause < 7) } (fun s =>
    okReply { s with gal := { s.gal with thresholds := aset s.gal.thresholds cause value } })

/-- WARN_SET (R405). -/
def execWarnSet (t : Nat) (h : MbxHdr) (cause : Nat) (value : Int) (s : State) : Out :=
  let s := s.tick t
  inst (mbxOk h) (s.mbx (.warnSet t h cause value) h (fun s => s.warnSetServe h cause value))

end Sys2Proof.Machine
end

