-- ==== Sys2Proof/Machine/Hang.lean ====
section
/-!
DEFINITION. Sys2Proof/Machine/Hang.lean: progress watchdogs, reset requests, dump collection and the partition reset (spec/20).
-/

namespace Sys2Proof.Machine

/-! ### Watchdogs (R448, R449) -/

/-- Whether partition `p` has outstanding work (R448). -/
def State.outstanding (s : State) (p : Nat) : Bool :=
  s.jobs.any (fun j => j.p = p) || (s.ledger p).run.isSome
    || (s.groupsOf p).any (fun g =>
      (List.range 4).any (fun e => s.on F.STW_CMD_ACTIVE g e) || s.on F.TUR_STATUS_RUNNING g || (List.range 8).any (fun c => s.canStart g c))

/-- The watchdog period of partition `p` in ns (HNG_CFG_p.PERIOD_MS). -/
def State.watchNs (s : State) (p : Nat) : Nat := min (max (s.rd F.HNG_CFG_PERIOD_MS p) 10) 60000 * 1000000

/-- HANG_WATCHDOG_EXPIRE (R449): the fault with CODE 0200h, and ACTION: a reset with cause HANG, a collection alone, or the fault alone. -/
def execHangWatchdogExpire (t p : Nat) (s : State) : Out :=
  let s := s.tick t
  inst (p < 16)
    (if !s.outstanding p ∨ s.stillNow p ∨ s.hngState p ≠ 0 ∨ s.safe ∨ !s.hasPart p ∨ s.ranNow p < s.watchNs p then s
     else
       let g := (s.homeOf p).getD 0
       let s := s.raise { cls := 2, level := 1, master := g, part := p, source := g, code := 0x200 }
       match s.rd F.HNG_CFG_ACTION p with
       | 0 => s.requestReset p 1 (s.on F.HNG_CFG_DUMP_HANG p) true
       | 1 => s.requestReset p 1 true false
       | _ => s.setHang p { s.hang p with ran := 0, mark := s.now })

/-! ### Requests by register and message (R450) -/

/-- A write to HNG_REQ_p: RESET requests a reset with cause MAILBOX, with a dump where DUMP is 1. -/
def State.resetAsked (s : State) (p value : Nat) : State :=
  if value.testBit 0 ∧ s.hasPart p ∧ !s.safe then s.requestReset p 3 (value.testBit 1) true else s

/-- HNG_REQ_RESET (R450): only the management core and PF0 write the register. -/
def execHngReqReset (t : Nat) (who : Requester) (p value : Nat) (s : State) : Out :=
  let s := s.tick t
  inst (p < 16) (if who = .pf0 ∨ who = .mgt then s.resetAsked p value else s)

/-- PARTITION_RESET as firmware serves it: the request stays BUSY until the reset completes. -/
def State.partitionResetServe (s : State) (h : MbxHdr) (p : Nat) (dump : Bool) : State :=
  match s.mbxCheck h { feat := some 1, parts := [p], stage := stDome, fieldOk := decide (p < 16) && s.hasPart p } with
  | some st => s.respond h st []
  | none =>
    let entry : MbxBusy := { h := h, p := p }
    let s := s.wr F.MBX_STATUS_BUSY 1 h.m
    ({ s with host := { s.host with busy := s.host.busy ++ [entry] } } : State).requestReset p 3 dump true

/-- PARTITION_RESET (R450). -/
def execPartitionReset (t : Nat) (h : MbxHdr) (p : Nat) (dump : Bool) (s : State) : Out :=
  let s := s.tick t
  inst (mbxOk h) (s.mbx (.partitionReset t h p dump) h (fun s => s.partitionResetServe h p dump))

/-! ### Collection (R452 to R455) -/

/-- The units collected for partition `p`, in order, as master code and instance (R452). -/
def State.dumpUnits (s : State) (p : Nat) : List (Nat × Nat) :=
  let gs := s.groupsOf p
  let atus := ((s.atu.filter (fun e => decide (e.1 / 4096 = p) && e.2.opened)).map (fun e => unitMaster e.2.unit)).foldl addOnce []
  gs.map (fun g => (g, 0)) ++ gs.head?.toList.map (fun g => (g, 0x100)) ++ gs.map (fun g => (0x10 + g, 0))
    ++ gs.flatMap (fun g => (List.range 4).map (fun e => (0x20 + g, e)))
    ++ gs.flatMap (fun g => (List.range 17).map (fun j => (0x30 + g, j)))
    ++ (below 0x60 (fun m => m ∈ atus)).map (fun m => (m, 0))

/-- Largest record of a unit. -/
def dumpCap (u : Nat × Nat) : Nat :=
  1024 * (if u.1 < 0x10 then (if u.2 = 0 then 16 else 40) else if u.1 < 0x20 then 640 else if u.1 < 0x30 then 4 else if u.1 < 0x40 then 2 else 8)

/-- Partitions whose collection is due or running, in order of request (R455). -/
def State.collecting (s : State) : List Nat :=
  let due := s.partNums.filter (fun p => decide (1 ≤ s.hngState p) && decide (s.hngState p ≤ 2) && (s.hang p).dump)
  let at_ := fun (p : Nat) => ((s.hang p).req.map (fun r => r.2)).getD 0
  due.filter (fun p => s.hngState p = 2) ++ (due.filter (fun p => s.hngState p = 1)).foldl (fun l p => insertAt at_ p l) []

/-- The dump slot a collection takes: the lowest that is not HELD, or else the one with the lowest DUMP_SEQ (R454). -/
def State.freeDump (s : State) : Nat :=
  match (List.range 4).find? (fun k => !(s.dumps.getD k {}).held) with
  | some k => k
  | none => (List.range 4).foldl (fun b k => if s.rdNat (dumpBase k + 48) 4 < s.rdNat (dumpBase b + 48) 4 then k else b) 0

/-- Collection of partition `p` begins if it has not: STATE reads collecting, and a slot is taken whose old header no longer reads valid. -/
def State.beginDump (s : State) (p : Nat) : State :=
  if s.hngState p ≠ 1 then s
  else
    let k := s.freeDump
    let s := if (s.dumps.getD k {}).held then s.inc F.HNG_DUMP_LOST else s
    let s := (s.wrBytes (dumpBase k) (natLe 256 0)).showDump k false
    let s := { s with dumps := s.dumps.set k {} }
    (s.setHang p { s.hang p with slot := k, todo := s.dumpUnits p, done := [] }).wr F.HNG_STATUS_STATE 2 p

/-- The directory and the records of a dump whose first record lies at offset `off`. -/
def dumpBody : List DumpUnit → Nat → Bytes × Bytes
  | [], _ => ([], [])
  | u :: l, off =>
    let n := u.record.length
    let r := dumpBody l (off + n)
    (natLe 1 u.master ++ natLe 1 u.method ++ natLe 2 u.inst ++ natLe 4 (if u.method < 2 then off else 0) ++ natLe 4 n ++ natLe 4 u.atUs ++ r.1,
     u.record ++ r.2)

/-- Collection ends: the directory and records are written, then the header with DIGEST; the slot is HELD (R454). A collection without a
reset unfreezes the partition (R449). -/
def State.endDump (s : State) (p : Nat) (limit : Bool) : State :=
  let x := s.hang p
  let units := x.done.reverse
  let b := dumpBody units (256 + 16 * units.length)
  let body := b.1 ++ b.2
  let q := s.dumpSeq + 1
  let base := dumpBase x.slot
  let req := x.req.getD (0, 0)
  let home := (s.homeOf p).getD 0
  let head := ascii "VDMP" ++ natLe 1 1 ++ natLe 1 x.slot ++ natLe 1 p ++ natLe 1 req.1 ++ natLe 8 req.2 ++ natLe 8 s.now
    ++ natLe 4 (s.rd F.AG_NUM_ADVANCE_STEP home) ++ natLe 1 (s.genOf p) ++ natLe 1 (if limit then 1 else 0) ++ natLe 2 units.length
    ++ natLe 2 ((units.filter (fun u => 2 ≤ u.method)).length) ++ natLe 2 ((units.filter (fun u => u.method = 1)).length)
    ++ natLe 4 (256 + body.length) ++ s.regBytes .MGT_IMAGE_ID ++ natLe 4 q ++ natLe 4 x.faultSeq ++ natLe 8 0 ++ shake256 body
    ++ natLe 160 0
  let s := (s.wrBytes (base + 256) body).wrBytes base head
  let s := ({ s with dumpSeq := q, dumps := s.dumps.set x.slot { held := true, valid := true } } : State).showDump x.slot true
  let s := s.setHang p { x with dump := false, todo := [], done := [], collEnd := s.now }
  if x.resetAfter then s
  else (s.setHang p { s.hang p with req := none, ran := 0, mark := s.now }).wr F.HNG_STATUS_STATE 0 p

/-- The next unit of partition `p`'s collection is read, or cannot be. -/
def State.dumpRead (s : State) (p method : Nat) (record : Bytes) : State :=
  if s.collecting.head? ≠ some p then s
  else
    let s := s.beginDump p
    let x := s.hang p
    match x.todo with
    | [] => s.endDump p false
    | u :: rest =>
      let d : DumpUnit := { master := u.1, inst := u.2, method := method, record := record.take (dumpCap u),
                            atUs := (s.now - (x.req.getD (0, 0)).2) / 1000 }
      let s := s.setHang p { x with todo := rest, done := d :: x.done }
      if rest.isEmpty then s.endDump p false else s

/-- DUMP_UNIT_READ (R452): the collector reads the next unit through its dump port. -/
def execDumpUnitRead (t p : Nat) (record : Bytes) (s : State) : Out := inst (p < 16) ((s.tick t).dumpRead p 0 record)

/-- DUMP_PORT_TIMEOUT (R453): the unit is read once through the oculus scan path, or marked UNREADABLE. -/
def execDumpPortTimeout (t p : Nat) (scan : Option Bytes) (s : State) : Out :=
  inst (p < 16)
    (match scan with
     | some b => (s.tick t).dumpRead p 1 b
     | none => (s.tick t).dumpRead p 2 [])

/-- When the collection of partition `p` could begin: its request, or the end of the collection before it (notes/assumptions/60.md). -/
def State.collFrom (s : State) (p : Nat) : Nat :=
  (s.hng.map (fun x => x.2.collEnd)).foldl max (((s.hang p).req.map (fun r => r.2)).getD 0)

/-- COLLECTION_LIMIT (R453): after 2 s collection ends with LIMIT, and every unit not yet read is NOT_REACHED. -/
def execCollectionLimit (t p : Nat) (s : State) : Out :=
  let s := s.tick t
  inst (p < 16)
    (if s.collecting.head? ≠ some p ∨ s.now < s.collFrom p + 2000000000 then s
     else
       let s := s.beginDump p
       let x := s.hang p
       let late := x.todo.map (fun u => ({ master := u.1, inst := u.2, method := 3, record := [], atUs := 0 } : DumpUnit))
       (s.setHang p { x with todo := [], done := late.reverse ++ x.done }).endDump p true)

/-! ### The reset (R454, R456 to R459) -/

/-- Whether the reset of partition `p` waits (R450, R458): for its dump, an advance, a page copy, or because its coming generation tag
was given less than 10 s ago. -/
def State.resetWaits (s : State) (p : Nat) : Bool :=
  let next := (s.genOf p + 1) % 256
  (s.hang p).dump || (s.homeOf p).any (fun g => s.on F.AG_NUM_ADVANCE_BUSY g) || s.memx.cowCopies.any (fun c => c.p = p)
    || (s.hang p).tagTimes.any (fun x => decide (x.1 = next) && decide (s.now < x.2 + 10000000000))

/-- Step 1: the generation tag advances. -/
def State.advanceTag (s : State) (p : Nat) : State :=
  let next := (s.genOf p + 1) % 256
  let s := s.setHang p { s.hang p with
    tagTimes := (next, s.now) :: (s.hang p).tagTimes.filter (fun x => decide (x.1 ≠ next) && decide (s.now < x.2 + 10000000000)) }
  (s.wr F.HNG_STATUS_GEN next p).wr F.HNG_STATUS_STATE 3 p

/-- Step 2: engines, arrays, turret programs, the ledger engine, reduction entries, regulator requests and fabric egress stop (R43, R124, R149,
R233, R352, R424). -/
def State.stopUnits (s : State) (p : Nat) : State :=
  let gs := s.groupsOf p
  let s := gs.foldl (fun (s : State) g => ((s.stopArrays g).stopEngines g).stirred g) (s.ledReset p)
  let s := { s with
    jobs := s.jobs.filter (fun j => j.p ≠ p), echoes := s.echoes.filter (fun j => j.p ≠ p), rings := s.rings.filter (fun r => r.p ≠ p),
    waits := s.waits.filter (fun w => w.p ≠ p),
    fab := { s.fab with heads := s.fab.heads.filter (fun h => !(h.from_.isNone && decide (h.pkt.srcEp = p) && decide (h.pkt.op ≤ 3))) } }
  (s.atuReset p).abandonRequests p

/-- Accumulator words, their recorded modes and marks of the groups of partition `p` are zeroed (R102). -/
def State.zeroAccs (s : State) (p : Nat) : State :=
  let gs := s.groupsOf p
  let s := gs.foldl (fun (s : State) g => s.forget (accKey (17 * g) 0) (accKey (17 * g + 17) 0)) s
  { s with
    pas := s.pas.filter (fun e => e.1 / 17 ∉ gs),
    memx := { s.memx with poison := s.memx.poison.filter (fun k => !gs.any (fun g =>
      decide (accKey (17 * g) 0 ≤ k) && decide (k < accKey (17 * g + 17) 0))) } }

/-- The translation-cache entries of partition `p` go (R211); a cut in progress, or being armed, ends (R438). -/
def State.stopCut (s : State) (p : Nat) : State :=
  let s := { s with memx := { s.memx with tcache := s.memx.tcache.filter (fun e => pmOwner e.2.2 ≠ p) } }
  let arms := (s.snap p).arming
  let s := (s.setSnap p { s.snap p with heldAdv := [] })
  let s := if arms then s.armRelease p else s
  if arms || s.on F.PGM_CUT_ACTIVE p then s.cutEnd p (s.stopCode p 3) else s

/-- What R459 leaves of a context: open, its generation advanced, its posted descriptors taken back. -/
def State.resetCtx (s : State) (g c gen cqTail : Nat) (armed : Bool) (x : CtxSt) : State :=
  let s := s.setCtx g c { x with head := none, region := none, ends := [], elig := [], haltAt := 0 }
  ((((s.wr F.PCI_RING_OPEN 1 g c).wr F.PCI_RING_GEN ((gen + 1) % 256) g c).wr F.PCI_RING_SQ_HEAD x.sqTail g c).wr F.PCI_RING_CQ_TAIL cqTail
    g c).wrB F.PCI_RING_ARMED armed g c

/-- Whether a held event is an access of partition `p`'s Belfry cores to an array-group window, and whether it is a read. -/
def coreAccess (p : Nat) (ev : HeldEvent) : Option Bool :=
  match ev with
  | .access (.bfy q) reg i _ wr => if q = p ∧ (agOf reg i).isSome then some wr.isNone else none
  | _ => none

/-- The pending accesses of partition `p`'s cores to its array-group windows at a reset: writes are not acted on, and reads wait for the notice, under
key 17 + p of the held events (R246). -/
def State.stopCoreAccesses (s : State) (p : Nat) : State :=
  { s with pwr := { s.pwr with held := s.pwr.held.filterMap (fun e =>
      match coreAccess p e.2 with
      | some true => some (17 + p, e.2)
      | some false => none
      | none => some e) } }

/-- Those reads complete with all ones (R246). -/
def State.endCoreAccesses (s : State) (p : Nat) : State :=
  (s.pwr.held.filter (fun e => e.1 = 17 + p)).foldl (fun (s : State) e =>
    match e.2 with
    | .access _ reg _ _ _ => { s with host := { s.host with readBack := List.replicate (reg.width / 8) 255 } }
    | _ => s) { s with pwr := { s.pwr with held := s.pwr.held.filter (fun e => e.1 ≠ 17 + p) } }

/-- Steps 1 to 3 of the reset of partition `p` (R454, R459). STW_PROG.LAST_CODE of an engine whose command the reset ended reads 07h after the
restore of R9 (DEDUCED, notes/assumptions/110.md). -/
def State.resetBegin (s : State) (p : Nat) : State :=
  let gs := s.groupsOf p
  let copies := gs.flatMap (fun g => (below 4 (fun e => s.on F.STW_CMD_ACTIVE g e)).map (fun e => (g, e)))
  let gens := gs.flatMap (fun g => (List.range 8).filterMap (fun c => (s.ctx g c).map (fun x =>
    (g, c, s.rd F.PCI_RING_GEN g c, s.rd F.PCI_RING_CQ_TAIL g c, s.on F.PCI_RING_ARMED g c, x))))
  let closed := gs.flatMap (fun g => (below 8 (fun c => (s.ctx g c).isNone)).map (fun c => (g, c, s.rd F.PCI_RING_GEN g c)))
  let s := ((((s.advanceTag p).stopUnits p).stopCoreAccesses p).zeroAccs p).stopCut p
  let s := s.resetPart p
  let s := copies.foldl (fun (s : State) x => s.wr F.STW_PROG_LAST_CODE 7 x.1 x.2) s
  let s := closed.foldl (fun (s : State) x => s.wr F.PCI_RING_GEN x.2.2 x.1 x.2.1) s
  let s := { s with lastCtx := s.lastCtx.filter (fun e => e.1 ∉ gs) }
  gens.foldl (fun (s : State) x => s.resetCtx x.1 x.2.1 x.2.2.1 x.2.2.2.1 x.2.2.2.2.1 x.2.2.2.2.2) s

/-- PARTITION_RESET_BEGIN (R454, R458): steps 1 to 3, once the dump is done and nothing the reset waits for is in progress. -/
def execPartitionResetBegin (t p : Nat) (s : State) : Out :=
  let s := s.tick t
  inst (p < 16)
    (if (s.hngState p = 1 ∨ s.hngState p = 2) ∧ (s.hang p).resetAfter ∧ !s.resetWaits p then s.resetBegin p else s)

/-- Steps 4 and 5 of the reset of partition `p`: its channels have returned from retraining (R223), its pending bits clear (R372) and the
notice goes out (R245). -/
def State.resetDone (s : State) (p : Nat) : State :=
  let cause := ((s.hang p).req.map (fun r => r.1)).getD 0
  let s := (List.range 7).foldl (fun (s : State) c => s.setPending c p false) s
  let s := ((s.inc F.HNG_STATUS_RESETS p).wr F.HNG_STATUS_LAST_CAUSE cause p).wr F.HNG_STATUS_STATE 0 p
  let s := s.setHang p { s.hang p with req := none, dump := false, faultSeq := 0, progress := s.now, ran := 0, mark := s.now }
  ((((s.notice p).endCoreAccesses p).answerBusy p false 0 []).setReady).releaseHolds

/-- PARTITION_RESET_COMPLETE (R454 steps 4 and 5). -/
def execPartitionResetComplete (t p : Nat) (s : State) : Out :=
  let s := s.tick t
  inst (p < 16) (if s.hngState p = 3 then s.resetDone p else s)

/-! ### Replies with a generation tag (R116, R456, R458) -/

/-- MEMORY_REPLY_RETURN (R456, R458): a reply with a stale tag, or to a request no longer outstanding, is dropped and counted. A current
rejection report of a remote contribution is a level 1 fault of the contributing partition (R116). -/
def execMemoryReplyReturn (t p gen id : Nat) (reject : Option Nat) (s : State) : Out :=
  let s := s.tick t
  inst (p < 16)
    (if gen ≠ s.genOf p then s.inc F.HNG_STALE_REPLIES p
     else
       match reject with
       | some code => s.raise { cls := if code = 2 then 5 else 0, level := 1, master := 0x56, access := 4, part := p, source := 0x56, code := code }
       | none => if s.jobs.any (fun j => decide (j.p = p) && decide (j.id = id)) then s else s.inc F.HNG_STALE_REPLIES p)

/-! ### Messages -/

/-- DUMP_READ as firmware serves it: partition scope reads its own dumps. -/
def State.dumpReadServe (s : State) (h : MbxHdr) (slot off len : Nat) : State :=
  let owner := if s.on F.HNG_SLOT_VALID slot then s.rd F.HNG_SLOT_PARTITION slot else 16
  s.serveMsg h
    { feat := some 2, parts := [owner], fieldOk := decide (slot < 4) && decide (len ≤ 4032) && decide (off + len ≤ 0x03000000) }
    (fun s => okReply s (s.rdBytes (dumpBase slot + off) len))

/-- DUMP_READ (R454). -/
def execDumpRead (t : Nat) (h : MbxHdr) (slot off len : Nat) (s : State) : Out :=
  let s := s.tick t
  inst (mbxOk h) (s.mbx (.dumpRead t h slot off len) h (fun s => s.dumpReadServe h slot off len))

/-- DUMP_RELEASE as firmware serves it. -/
def State.dumpReleaseServe (s : State) (h : MbxHdr) (slot : Nat) : State :=
  s.serveMsg h { feat := some 2, mgmt := true, fieldOk := decide (slot < 4) } (fun s =>
    okReply { s with dumps := s.dumps.set slot { s.dumps.getD slot {} with held := false } })

/-- DUMP_RELEASE (R454). -/
def execDumpRelease (t : Nat) (h : MbxHdr) (slot : Nat) (s : State) : Out :=
  let s := s.tick t
  inst (mbxOk h) (s.mbx (.dumpRelease t h slot) h (fun s => s.dumpReleaseServe h slot))

/-- WATCHDOG_SET as firmware serves it: PERIOD_MS, ACTION and the DUMP bits, bit 0 DUMP_HANG and bit 1 DUMP_FAULT. -/
def State.watchdogSetServe (s : State) (h : MbxHdr) (p periodMs action dumpBits : Nat) : State :=
  s.serveMsg h
    { feat := some 2, parts := [p],
      fieldOk := decide (p < 16) && decide (periodMs < 65536) && decide (action < 4) && decide (dumpBits < 4) }
    (fun s =>
      let s := (s.wr F.HNG_CFG_PERIOD_MS periodMs p).wr F.HNG_CFG_ACTION action p
      okReply ((s.wrB F.HNG_CFG_DUMP_HANG (dumpBits.testBit 0) p).wrB F.HNG_CFG_DUMP_FAULT (dumpBits.testBit 1) p))

/-- WATCHDOG_SET (R449). -/
def execWatchdogSet (t : Nat) (h : MbxHdr) (p periodMs action dumpBits : Nat) (s : State) : Out :=
  let s := s.tick t
  inst (mbxOk h) (s.mbx (.watchdogSet t h p periodMs action dumpBits) h (fun s => s.watchdogSetServe h p periodMs action dumpBits))

end Sys2Proof.Machine
end

