-- ==== Sys2Proof/Machine/HostLink.lean ====
section
/-!
DEFINITION. Sys2Proof/Machine/HostLink.lean: PCIe resets and windows, the sideband, directory and status reads on every path, image and
firmware writes, WARM_RESET, and the watchdog (spec/12, 14).
-/

namespace Sys2Proof.Machine

/-! ### PCIe resets and windows (R302, R305) -/

/-- A function-level reset of `fn`: its configuration, window base and pending vectors are cleared, and its sessions enter host-absent at once
(R305, R320). PF0's configuration holds LDIR_INDEX (R276; notes/assumptions/102.md). -/
def State.flr (s : State) (fn : Fn) : State :=
  let s := { s with host := { s.host with
    vecs := s.host.vecs.filter (fun e => e.1 ≠ fn), pba := s.host.pba.filter (fun e => e.1 ≠ fn),
    cfgs := s.host.cfgs.filter (fun e => e.1 ≠ fn) } }
  let s := match fn with
    | .vf n => { s with host := { s.host with vfBase := adel s.host.vfBase n } }
    | _ => ((s.wr F.PCI_WIN_PARTITION 0).wr F.PCI_WIN_BASE 0).wr F.LDIR_INDEX_DWORD 0
  (s.host.sessions.filter (fun x => x.fn = fn)).foldl (fun (s : State) x => s.lapseSession x.m) s

/-- FLR_VF (R305). -/
def execFlrVf (t n : Nat) (s : State) : Out :=
  let s := s.tick t
  inst (1 ≤ n ∧ n ≤ 16) (s.flr (.vf n))

/-- FLR_PF0 (R305). -/
def execFlrPf0 (t : Nat) (s : State) : Out := .next ((s.tick t).flr .pf0)

/-- HOT_RESET (R305): every function is reset, and the link retrains. -/
def execHotReset (t rate width : Nat) (s : State) : Out :=
  let s := s.tick t
  let s := (List.range 16).foldl (fun (s : State) n => s.flr (.vf (n + 1))) s
  .next (((s.flr .pf0).inc F.PCI_LINK_RETRAINS).linkTrained rate width)

/-! ### Configuration space (R276, R295, R299) -/

/-- Vectors of a function (R299). -/
def vectorsOf (fn : Fn) : Nat :=
  match fn with
  | .pf0 => 192
  | .vf _ => 136
  | .bfy _ => 0

/-- What a configuration read of `fn` returns, 4 bytes. The DVSEC lies in PF0 alone; the layout of the PCIe structures is the PCIe
specification's, and the value of a register the manual does not speak of is free (notes/assumptions/103.md). -/
def State.cfgRead (s : State) (fn : Fn) (reg : CfgReg) : Bytes × State :=
  let c := s.host.cfgOf fn
  let pf := decide (fn = .pf0)
  let say := fun (n : Nat) => (natLe 4 n, s)
  match reg with
  | .dvsec1 => say (if pf then Config.vendorId % 65536 + 0x14 * 2 ^ 20 else 0)
  | .dvsec2 => say (if pf then 1 else 0)
  | .ldirIndex => say (if pf then s.stored .LDIR_INDEX 0 0 else 0)
  | .ldirData => if pf then s.ldirData else say 0
  | .msixControl => say ((vectorsOf fn - 1) * 2 ^ 16 + (if c.mask then 2 ^ 30 else 0) + (if c.msix then 2 ^ 31 else 0))
  | .msixEntry v => say (if v ∈ c.unmasked then 0 else 1)
  | .power => say (if c.d3hot then 3 else 0)
  | .aer => say (if c.abort then 2 ^ 15 else 0)
  | .other => (natLe 4 s.free, s.freeTaken)

/-- A configuration write. -/
def State.cfgWrite (s : State) (fn : Fn) (reg : CfgReg) (v : Nat) : State :=
  let c := s.host.cfgOf fn
  match reg with
  | .ldirIndex => if fn = .pf0 then s.wr F.LDIR_INDEX_DWORD (bits v 2 14) else s
  | .msixControl => s.setCfg fn { c with msix := v.testBit 31, mask := v.testBit 30 }
  | .msixEntry k =>
    if k < vectorsOf fn then
      s.setCfg fn { c with unmasked := if v.testBit 0 then c.unmasked.filter (fun x => x ≠ k) else addOnce c.unmasked k }
    else s
  | .power => s.setCfg fn { c with d3hot := decide (bits v 0 2 = 3) }
  | .aer => if v.testBit 15 then s.setCfg fn { c with abort := false } else s
  | _ => s

/-- Functions of the PCIe interface (R299). -/
def fnOk (fn : Fn) : Bool :=
  match fn with
  | .pf0 => true
  | .vf n => decide (1 ≤ n) && decide (n ≤ 16)
  | .bfy _ => false

/-- CONFIGURATION_REQUEST (R276, R295, R299): answered with Retry Status until 100 ms after PERST# release, completed from then on. -/
def execConfigurationRequest (t : Nat) (fn : Fn) (reg : CfgReg) (wr : Option Nat) (s : State) : Out :=
  let s := s.tick t
  inst (fnOk fn)
    (if !s.on F.PWR_STATUS_AUX_VALID then s
     else if !s.configUp then { s with host := { s.host with cfgRetry := true } }
     else
       let s : State := { s with host := { s.host with cfgRetry := false } }
       match wr with
       | some v => s.cfgWrite fn reg v
       | none =>
         let r := s.cfgRead fn reg
         { r.2 with host := { r.2.host with readBack := r.1 } })

/-- Where offset `off` of a function's memory window lies (R302): the requester's partition and the device address, for PF0 BAR4 and VF BAR2. -/
def State.windowAt_ (s : State) (fn : Fn) (off : Nat) : Nat × Nat :=
  match fn with
  | .vf n => (n - 1, agetD s.host.vfBase n 0 + off)
  | _ => (s.rd F.PCI_WIN_PARTITION, s.rd F.PCI_WIN_BASE * 2 ^ 32 + off)

/-- A read through a function's window: a failed one completes with all ones and logs a Completer Abort (R302). A read of channels that retrain
waits (R223). -/
def State.windowLoad (s : State) (fn : Fn) (off len : Nat) : State :=
  let w := s.windowAt_ fn off
  if (pagesOf w.2 len).any (fun v => s.retrains (s.pmEntry v)) then s
  else
    match s.devRead 4 0x5B w.1 w.2 len with
    | (none, b, false, s) => { s with host := { s.host with readBack := b } }
    | (_, _, _, s) =>
      ({ s with host := { s.host with readBack := List.replicate len 255, aerAborts := s.host.aerAborts + 1 } } : State).setCfg fn
        { s.host.cfgOf fn with abort := true }

/-- A posted write through a function's window: a failed one is dropped (R302). -/
def State.windowStore (s : State) (fn : Fn) (off : Nat) (b : Bytes) : State :=
  let w := s.windowAt_ fn off
  (s.devWrite 4 0x5B w.1 w.2 b false (some fn)).2

/-! ### Sideband and DOE (R299, R306, R307) -/

/-- A sensor's reading (R306): PWR_MEAS fields, the hottest junction of each die, each stack's temperature. The numbering is the model's own
(notes/assumptions/53.md). -/
def State.sensor (s : State) (k : Nat) : Option Nat :=
  if k < 4 then some (s.rd ([F.PWR_MEAS_AVG_W, F.PWR_MEAS_INST_W, F.PWR_MEAS_PEAK_W, F.PWR_MEAS_MAIN_CV].getD k F.PWR_MEAS_AVG_W))
  else if k < 14 then some (unsigned (agetD s.pwr.dieTemp (k - 4) 0) 16)
  else if 16 ≤ k ∧ k < 32 then some (s.rd F.MEM_STACK_TEMP (k - 16))
  else none

/-- Bytes written into a component of the firmware-update set (R306): the inactive firmware image, slots 0 to 3, the trim image. -/
def State.flashWrite (s : State) (component off : Nat) (b : Bytes) : State :=
  let f := s.sec.flash
  let g : FlashSt := match component with
    | 0 => if s.sec.fw.any (fun x => x.slot = 0) then { f with fwB := patchBytes f.fwB off b } else { f with fwA := patchBytes f.fwA off b }
    | 5 => { f with trim := patchBytes f.trim off b }
    | k => { f with slots := f.slots.mapIdx (fun i x => if i + 1 = k then patchBytes x off b else x) }
  { s with sec := { s.sec with flash := g } }

/-- The PLDM type a command belongs to (R306). -/
def pldmTypeOf (cmd : PldmCmd) : Nat :=
  match cmd with
  | .base _ _ => 0
  | .readSensor _ => 2
  | .readStage => 2
  | .update _ _ _ => 5

/-- The commands of PLDM base (DSP0240; notes/assumptions/101.md): set and get the terminus ID, versions of a type, the types 0, 2 and 5, and the
commands of a type. -/
def State.pldmBase (s : State) (code arg : Nat) : State :=
  let say := fun (s : State) (b : Bytes) => s.answer .mctp (natLe 1 0 ++ b)
  match code with
  | 1 => say { s with host := { s.host with pldmTid := arg % 256 } } []
  | 2 => say s (natLe 1 s.host.pldmTid)
  | 3 => say s (natLe 4 0 ++ natLe 1 5 ++ natLe 4 (Config.pldmVersion (arg % 256)))
  | 4 => say s (natLe 8 0x25)
  | 5 => say s (natLe 32 (Config.pldmCommands (arg % 256)))
  | _ => s.answer .mctp (natLe 1 5)

/-- PLDM_REQUEST (R306): completion codes of DSP0240 and DSP0248; NOT_READY before Drum, unsupported types and commands are refused. -/
def execPldmRequest (t ty : Nat) (cmd : PldmCmd) (s : State) : Out :=
  let s := s.tick t
  let say := fun (s : State) (b : Bytes) => s.answer .mctp b
  if !s.on F.AON_STAGE_SIDEBAND then .next s
  else if ty ≠ 0 ∧ ty ≠ 2 ∧ ty ≠ 5 then .next (say s (natLe 1 0x20))
  else if !s.fwUp then .next (say s (natLe 1 4))
  else if pldmTypeOf cmd ≠ ty then .next (say s (natLe 1 5))
  else
    .next (match cmd with
      | .base code arg => s.pldmBase code arg
      | .readSensor k =>
        match s.sensor k with
        | some v => say s (natLe 1 0 ++ natLe 2 v)
        | none => say s (natLe 1 0x80)
      | .readStage => say s (natLe 1 0 ++ natLe 1 s.stage)
      | .update component off b => if component ≤ 5 then say (s.flashWrite component off b) (natLe 1 0) else say s (natLe 1 1))

/-- MCTP_CONTROL_MESSAGE (R306): the bus owner sets the endpoint ID with Set Endpoint ID (code 01h); Get Endpoint ID (02h) reads it. The other
codes are those of DSP0236: UUID, versions of message type `eid`, message types PLDM and vendor-defined, and Vygoril's identifier
(notes/assumptions/101.md). -/
def execMctpControlMessage (t code eid : Nat) (s : State) : Out :=
  let s := s.tick t
  let say := fun (s : State) (b : Bytes) => s.answer .mctp (natLe 1 0 ++ b)
  .next (if !s.on F.AON_STAGE_SIDEBAND then s
    else
      match code with
      | 1 => say { s with host := { s.host with mctpEid := some (eid % 256) } } (natLe 1 0 ++ natLe 1 eid ++ natLe 1 0)
      | 2 => say s (natLe 1 (s.host.mctpEid.getD 0) ++ natLe 1 0 ++ natLe 1 0)
      | 3 => say s (natLe 16 Config.mctpUuid)
      | 4 => say s (natLe 1 1 ++ natLe 4 (Config.mctpVersion (eid % 256)))
      | 5 => say s (natLe 1 2 ++ natLe 1 1 ++ natLe 1 0x7E)
      | 6 => say s (natLe 1 0xFF ++ natLe 1 0 ++ natLe 2 Config.vendorId ++ natLe 2 0)
      | _ => s.answer .mctp (natLe 1 5))

/-- I3C_DYNAMIC_ADDRESS (R306): ENTDAA, or SETDASA to static address 3Ah. -/
def execI3cDynamicAddress (t : Nat) (static : Option Nat) (addr : Nat) (s : State) : Out :=
  let s := s.tick t
  .next (if !s.on F.AON_STAGE_SIDEBAND ∨ 128 ≤ addr then s
    else
      match static with
      | none => if s.host.i3cAddr.isSome then s else { s with host := { s.host with i3cAddr := some addr } }
      | some a => if a = 0x3A ∧ s.host.i3cAddr.isNone then { s with host := { s.host with i3cAddr := some addr } } else s)

/-- DOE_DISCOVERY (R299): index 0 is DOE Discovery itself, index 1 the vendor-defined object of type 01h; the answer names the next index. -/
def execDoeDiscovery (t index : Nat) (s : State) : Out :=
  let s := s.tick t
  .next (if !s.configUp then s
    else
      match index with
      | 0 => s.answer .doe (natLe 2 1 ++ natLe 1 0 ++ natLe 1 1)
      | 1 => s.answer .doe (natLe 2 Config.vendorId ++ natLe 1 1 ++ natLe 1 0)
      | _ => s.answer .doe (natLe 2 0xFFFF ++ natLe 1 0 ++ natLe 1 0))

/-- Whether a command of R307 by a path reaches the always-on domain, which answers from Footing onward: the sideband, a DOE object once
configuration requests are completed (R295), a fabric management frame. -/
def State.aonUp (s : State) (path : Path) : Bool :=
  match path with
  | .mctp => s.on F.AON_STAGE_SIDEBAND
  | .doe => s.on F.AON_STAGE_SUPERVISION && s.configUp
  | _ => s.on F.AON_STAGE_SUPERVISION

/-- DIR_READ as firmware serves it. -/
def State.dirServe (s : State) (h : MbxHdr) (off len : Nat) : State :=
  s.serveMsg h { safeOk := true, fieldOk := dirReadOk off len } (fun s => okReply s (s.dirReadData off len))

/-- DIR_READ (R277, R307, R317, R353): by mailbox, or answered by the always-on domain. Operands outside their ranges read RANGE there. -/
def execDirRead (t : Nat) (path : Path) (off len : Nat) (s : State) : Out :=
  let s := s.tick t
  match path with
  | .mbx h => inst (mbxOk h) (s.mbx (.dirRead t path off len) h (fun s => s.dirServe h off len))
  | p =>
    .next (if !s.aonUp p then s
      else s.answer p (if dirReadOk off len then s.dirReadData off len
        else natLe 1 1 ++ natLe 3 0 ++ natLe 4 (s.rd F.LDIR_GEN_GENERATION)))

/-- STAGE_AND_GUARANTEE_STATUS (R307): AON_STAGE, AON_READY and MGT_GUARANTEE. A mailbox carries STATUS instead. -/
def execStageAndGuaranteeStatus (t : Nat) (path : Path) (s : State) : Out :=
  let s := s.tick t
  match path with
  | .mbx _ => .next s
  | p =>
    .next (if !s.aonUp p then s
      else s.answer p (natLe 1 0 ++ s.regBytes .AON_STAGE ++ s.regBytes .AON_READY ++ s.regBytes .MGT_GUARANTEE))

/-- Command codes of R307 and *Router slot commands* that a path knows. -/
def vendorKnown (path : Path) (code : Nat) : Bool :=
  match path with
  | .fabric _ _ _ => decide (code ∈ [1, 2, 0x10, 0x11, 0x12, 0x20, 0x21, 0x22, 0x23])
  | _ => decide (code ∈ [1, 2, 0x10, 0x11, 0x12])

/-- UNKNOWN_VENDOR_COMMAND (R307): status FFh with no data. -/
def execUnknownVendorCommand (t : Nat) (path : Path) (code : Nat) (s : State) : Out :=
  let s := s.tick t
  match path with
  | .mbx _ => .next s
  | p => .next (if !s.aonUp p ∨ vendorKnown p code then s else s.answer p (natLe 1 0xFF))

/-! ### Images, firmware and WARM_RESET (R257, R305, R317) -/

/-- Bytes of an image slot: the longest image (R250; notes/assumptions/106.md). -/
def imageSlotBytes : Nat := 262144

/-- Bytes of the flash die, which no firmware image can exceed (spec/01; notes/assumptions/106.md). -/
def flashBytes : Nat := 512 * 2 ^ 20 / 8

/-- IMAGE_WRITE as firmware serves it: slot 0 to 3, or 4 for the trim image. -/
def State.imageWriteServe (s : State) (h : MbxHdr) (slot off : Nat) (b : Bytes) : State :=
  s.serveMsg h
    { feat := some 0, mgmt := true,
      fieldOk := decide (slot ≤ 4) && decide (b.length ≤ 4032) && decide (off + b.length ≤ imageSlotBytes) } (fun s =>
    okReply (s.flashWrite (if slot = 4 then 5 else slot + 1) off b))

/-- IMAGE_WRITE (R257, R317). -/
def execImageWrite (t : Nat) (h : MbxHdr) (slot off : Nat) (bytes : Bytes) (s : State) : Out :=
  let s := s.tick t
  inst (mbxOk h) (s.mbx (.imageWrite t h slot off bytes) h (fun s => s.imageWriteServe h slot off bytes))

/-- IMAGE_SELECT as firmware serves it: codes 01h to 06h of R265, then the boot selection. -/
def State.imageSelectServe (s : State) (h : MbxHdr) (slot : Nat) : State :=
  s.serveMsg h { feat := some 0, mgmt := true, fieldOk := decide (slot ≤ 3) } (fun s =>
    match s.check01to06 (s.sec.flash.slots.getD slot []) 1 with
    | some e => failReply (s.imgStatus 1 slot 0 e) e.1
    | none =>
      let s := s.imgStatus 1 slot 0 (0, 0, 0)
      okReply { s with sec := { s.sec with flash := { s.sec.flash with bootSlot := slot } } })

/-- IMAGE_SELECT (R257, R265, R317). -/
def execImageSelect (t : Nat) (h : MbxHdr) (slot : Nat) (s : State) : Out :=
  let s := s.tick t
  inst (mbxOk h) (s.mbx (.imageSelect t h slot) h (fun s => s.imageSelectServe h slot))

/-- FW_WRITE as firmware serves it: the inactive firmware image. -/
def State.fwWriteServe (s : State) (h : MbxHdr) (off : Nat) (b : Bytes) : State :=
  s.serveMsg h { feat := some 0, mgmt := true, fieldOk := decide (b.length ≤ 4032) && decide (off + b.length ≤ flashBytes) }
    (fun s => okReply (s.flashWrite 0 off b))

/-- FW_WRITE (R317). -/
def execFwWrite (t : Nat) (h : MbxHdr) (off : Nat) (bytes : Bytes) (s : State) : Out :=
  let s := s.tick t
  inst (mbxOk h) (s.mbx (.fwWrite t h off bytes) h (fun s => s.fwWriteServe h off bytes))

/-- WARM_RESET as firmware serves it: OK, then the warm device reset and the start that follows (R305, R384). -/
def State.warmServe (s : State) (h : MbxHdr) (sealOk : Bool) : State :=
  s.serveMsg h { mgmt := true, safeOk := true } (fun s => okReply s) |> fun s' =>
    if (s.mbxCheck h { mgmt := true, safeOk := true }).isNone then
      ({ s' with pwr := { s'.pwr with auxAt := s'.now } } : State).warmDeviceReset.warmStart sealOk
    else s'

/-- WARM_RESET (R305, R317, R384). -/
def execWarmReset (t : Nat) (h : MbxHdr) (sealOk : Bool) (s : State) : Out :=
  let s := s.tick t
  inst (mbxOk h) (s.mbx (.warmReset t h sealOk) h (fun s => s.warmServe h sealOk))

/-! ### The watchdog (R298, R323 to R325) -/

/-- A write of 1 to MGT_WDOG.KICK (R323). -/
def State.kick (s : State) : State := if s.fwUp then { s with host := { s.host with kickAt := s.now } } else s

/-- WATCHDOG_KICK (R239, R323): the management core alone writes it; a Belfry core is denied. -/
def execWatchdogKick (t : Nat) (who : Requester) (s : State) : Out :=
  let s := s.tick t
  .next (match who with
    | .mgt => s.kick
    | .bfy p => s.registerDenied p true
    | _ => s)

/-- WATCHDOG_EXPIRE (R298, R323 to R325): the management core restarts; a fourth restart within 60 s is a level 3 fault instead. -/
def execWatchdogExpire (t : Nat) (s : State) : Out :=
  let s := s.tick t
  if !s.fwUp ∨ s.now < s.host.kickAt + 100000000 then .next s
  else if 3 ≤ s.recentRestarts then
    .next (({ s with host := { s.host with fwDead := true } } : State).raise { cls := 2, level := 3, master := 0x58, source := 0x58, code := 1 })
  else
    let s := s.resetDomain .MGT
    let patches := s.pwr.held.filterMap (fun e => match e.2 with
      | .patch h p _ _ => some ({ h := h, p := p } : MbxBusy)
      | _ => none)
    let s := { s with
      pwr := { s.pwr with held := s.pwr.held.filter (fun e => match e.2 with
        | .patch _ _ _ _ => false
        | _ => true) },
      host := { s.host with
        restartAt := s.now, restarts := s.now :: s.host.restarts.filter (fun a => s.now < a + 60000000000),
        owedRestarted := s.host.owedRestarted ++ s.host.busy ++ patches, busy := [] } }
    let s := (((s.wr F.AON_STAGE_MGT_RESTART 1).wr F.AON_STAGE_MAILBOX 0).wr F.AON_STAGE_TELEMETRY 0).wr F.AON_STAGE_FIRMWARE 0
    let s := (List.range 32).foldl (fun (s : State) m => s.wr F.MBX_STATUS_FW_DOWN 1 m) s
    .next ((s.inc F.MGT_WDOG_RESTARTS).raise { cls := 2, level := 1, master := 0x58, source := 0x58, code := 1 })

end Sys2Proof.Machine
end

