-- ==== Sys2Proof/Machine/Generic.lean ====
section
/-!
DEFINITION. Sys2Proof/Machine/Generic.lean: register accesses in general (spec/00, R5 to R8) and breaches of the operating ratings (spec/22).
-/

namespace Sys2Proof.Machine

/-! ### Who may write what -/

/-- Whether the register lies in the control page of a mailbox the requester owns, or of the attach mailbox that stands in its place (R301, R312,
R313). -/
def State.ownPage (s : State) (who : Requester) (reg : Reg) (i : Nat) : Bool :=
  decide (reg ∈ [Reg.MBX_CTRL, .MBX_STATUS, .MBX_HEARTBEAT])
    && ((s.session i).any (fun x => x.fn = whoFn who) || (decide (16 ≤ i) && s.mayGo (whoFn who) i))

/-- What becomes of a register access. -/
inductive AccessFate where
  | acts
  | denied
  | nothing
  deriving DecidableEq, Repr

/-- Whether an access acts. PF0 and the management core reach every window, but for what the management core alone writes; a Belfry core
reaches the windows of its partition and is denied those of R239; a VF has no register window (R301), only doorbells and its mailbox. What
neither grants nor denies has no effect and reads all ones (notes/assumptions/70.md). -/
def State.fate (s : State) (who : Requester) (reg : Reg) (i : Nat) (write : Bool) : AccessFate :=
  match who with
  | .mgt => .acts
  | .pf0 => if write ∧ (reg = .MGT_BFY_CORE ∨ reg = .MGT_WDOG) then .nothing else .acts
  | .bfy p =>
    if bfyClosed reg || s.foreignInst p reg i then .denied
    else if write ∧ reg = .HNG_REQ then .nothing
    else
      match reg.axes.2.2 with
      | .group => .acts
      | .array => .acts
      | .slice => .acts
      | .part => .acts
      | _ => if s.ownPage who reg i then .acts else .nothing
  | .vf n => if (reg = .PCI_DB ∧ s.partOf i = some (n - 1)) ∨ s.ownPage who reg i then .acts else .nothing

/-- Whether the 9T has the window an access names: each array group, physical array, slice and stack has one of its own; every other register lies
in a window that is there. -/
def hasWindow (reg : Reg) (i : Nat) : Bool :=
  match reg.axes.2.2 with
  | .group => decide (i < reg.axes.1)
  | .array => decide (i < reg.axes.1)
  | .slice => decide (i < reg.axes.1)
  | .stack => decide (i < reg.axes.1)
  | _ => true

/-- Whether the 9T has instance `i`, `j` of a register; any other offset of its window is an undefined one (R6). -/
def hasInst (reg : Reg) (i j : Nat) : Bool := decide (i < reg.axes.1) && decide (j < reg.axes.2.1)

/-! ### The effect of a write (R6, R7) -/

/-- One field of a register after a write of `value` to the register: RW takes its bits; in RW1C a 1 clears its bit, and a bit the device sets
in the same cycle (`setNow`) stays 1; every other type keeps its value. -/
def State.fieldWrite (s : State) (f : Fld) (i j value setNow : Nat) : State :=
  let v := bits value f.lsb f.width
  match f.ty with
  | .RW => s.wr f v i j
  | .RW1C => s.wr f ((s.rd f i j &&& (2 ^ f.width - 1 - v)) ||| bits setNow f.lsb f.width) i j
  | _ => s

/-- A write to a register whose fields have no effect of their own (R7); reserved bits are ignored (R6). -/
def State.plainWrite (s : State) (reg : Reg) (i j value setNow : Nat) : State :=
  reg.fields.foldl (fun (s : State) f => s.fieldWrite f i j value setNow) s

/-- A write to PWR_STATUS: each latch clears under its own rule (R280, R282, R291), but for one the device sets in the same cycle (R7). -/
def State.latchWrite (s : State) (value setNow : Nat) : State :=
  let one := fun (s : State) (b : Nat) (f : Fld) (clear : State → State) =>
    if setNow.testBit b then s.wr f 1 else if value.testBit b then clear s else s
  let s := one s 4 F.PWR_STATUS_RAIL_FAULT (fun s => s.latchCleared F.PWR_STATUS_RAIL_FAULT)
  let s := one s 5 F.PWR_STATUS_SEQ_VIOL (fun s => s.latchCleared F.PWR_STATUS_SEQ_VIOL)
  one s 6 F.PWR_STATUS_TRIP (fun s => s.tripCleared s.hottestSensor)

/-- A write to a bell register of AGg's bell block: that of a partition's home group serves the partition (R165). -/
def State.bellWrite (s : State) (g : Nat) (f : Nat → State) : State :=
  match s.partOf g with
  | some p => if s.homeOf p = some g then f p else s
  | none => s

/-- The effect of a write that acts; one at an undefined offset has none (R6). -/
def State.regEffect (s : State) (who : Requester) (reg : Reg) (i j value setNow : Nat) : State :=
  if !hasInst reg i j then s else
  match reg with
  | .AG_FMT => s.fmtWrite i j value
  | .AG_NUM_ADVANCE => s.numAdvance i value
  | .AG_CTX =>
    let s := if value.testBit 32 then s.leaveHalt i j false else s
    if value.testBit 33 then s.leaveHalt i j true else s
  | .BEL_RING => s.bellWrite i (fun p => s.ringWrite who p value)
  | .BEL_SET => s.bellWrite i (fun p => s.setBell i p value)
  | .PGM_INVAL => s.invalWrite value
  | .PWR_CAP => s.capWrite value
  | .PWR_STATUS => s.latchWrite value setNow
  | .PCI_DB => s.doorbellFrom (whoFn who) i j value
  | .MGT_BFY_CORE => if value.testBit 63 then s.coreReset i else s
  | .MGT_WDOG => if value.testBit 0 then s.kick else s
  | .MBX_HEARTBEAT => s.beat i (whoFn who) value
  | .FAB_ROUTE => s.routeWrite i value
  | .FAB_ISOLATE => s.isolateWrite value
  | .FAB_VGRP => s.vgrpWrite i value
  | .FAB_VCAST => s.castWrite i value
  | .HNG_REQ => s.resetAsked i value
  | .FC_REC =>
    -- only VALID, bit 63 of word 2, can be written: it is RW1C
    if j = 2 ∧ (value.testBit 63 ∨ setNow.testBit 63) then s.wrB F.FC_REC_HI (setNow.testBit 63) i j else s
  | .FC_ACK => s.ackPending (ackClasses value) (bits value 0 17)
  | .LDG_DB => s.ledDoorbell i value
  | .LDG_FLOOR => s.floorWrite i value
  | .SNP_TRIGGER => if value.testBit 0 then s.snapTrigger i 3 else s
  | .GAL_GOAL =>
    -- BAD is held at 1 while a quarantine request is pending (R401)
    let busy := s.on F.GAL_QUAR_VALID i
    s.plainWrite reg i j value (if busy && s.on F.GAL_GOAL_BAD i then setNow ||| 2 ^ 9 else setNow)
  | _ => s.plainWrite reg i j value setNow

/-- What a read returns: the register's value, 0 at an undefined offset (R6), and directory bytes (R266, R276). -/
def State.readBytes (s : State) (reg : Reg) (i j : Nat) : Bytes :=
  if !hasInst reg i j then natLe (reg.width / 8) 0
  else
    match reg with
    | .LDIR_TABLE => slice s.ldBytes (8 * i + (if j = 2 then 4 else 0)) (if j = 0 then 8 else 4)
    | .LDIR_DATA => s.ldirData.1
    | .FC_LOG => s.ringBytes i
    | _ => natLe (reg.width / 8) (s.shown reg i j)

/-- A register read: the value stands in the read-back buffer, every RC field is cleared but for one that counts an event in the read cycle (R7),
and LDIR_INDEX steps (R276). -/
def State.readReg (s : State) (reg : Reg) (i j : Nat) (event : Option Nat) : State :=
  let s := { s with host := { s.host with readBack := s.readBytes reg i j } }
  if !hasInst reg i j then s else if reg = .LDIR_DATA then s.ldirData.2 else s.clearRc reg i j event

/-- A read that completes with all ones. -/
def State.readOnes (s : State) (reg : Reg) : State :=
  { s with host := { s.host with readBack := List.replicate (reg.width / 8) 255 } }

/-- An access that does not act: a read returns all ones, and one that R239 denies is a fault. -/
def State.turnedAway (s : State) (who : Requester) (reg : Reg) (denied write : Bool) : State :=
  let s := if write then s else s.readOnes reg
  match who with
  | .bfy p => if denied then s.registerDenied p write else s
  | _ => s

/-- MISALIGNED_ACCESS (R5). -/
def execMisalignedAccess (t : Nat) (who : Requester) (reg : Reg) (i _j : Nat) (write : Bool) (s : State) : Out :=
  let s := s.tick t
  inst (hasWindow reg i)
    (match s.fate who reg i write with
     | .acts => s.badAccess reg i write
     | .denied => s.turnedAway who reg true write
     | .nothing => s.turnedAway who reg false write)

/-! ### Ratings (R15, R486, R487) -/

/-- Whether a measured quantity lies in its operating rating (R486): 0 MAIN_IN, 1 AUX_3V3 and 2 ANA_1V8 in mV; 50 + d the junction temperature
of die d and 100 + s the temperature of stack s in degrees C; 200 + f the power of light-input fibre f and 300 + i the received power at port Li
in 0.1 dBm. None where no quantity has the number. -/
def ratingOk (q : Nat) (v : Int) : Option Bool :=
  if q = 0 then some (decide (40000 ≤ v) && decide (v ≤ 48000))
  else if q = 1 then some (decide (3135 ≤ v) && decide (v ≤ 3465))
  else if q = 2 then some (decide (1746 ≤ v) && decide (v ≤ 1854))
  else if (50 ≤ q ∧ q < 60) ∨ (100 ≤ q ∧ q < 116) then some (decide (10 ≤ v) && decide (v ≤ 105))
  else if 200 ≤ q ∧ q < 208 then some (decide (180 ≤ v) && decide (v ≤ 240))
  else if 300 ≤ q ∧ q < 332 then some (decide (-80 ≤ v) && decide (v ≤ 20))
  else none

/-- RATINGS_BREACH (R15, R486, R487): the quantity is judged as measured; MAIN_IN shows in PWR_MEAS.MAIN_CV. -/
def execRatingsBreach (t q : Nat) (value : Int) (s : State) : Out :=
  let s := s.tick t
  let s := if q = 0 then s.wr F.PWR_MEAS_MAIN_CV (value / 10).toNat else s
  match ratingOk q value with
  | some ok => .next (s.judgeRating q ok)
  | none => .fault .noSuchInstance

end Sys2Proof.Machine
end

