-- ==== Sys2Proof/Machine/Patch.lean ====
section
/-!
DEFINITION. Sys2Proof/Machine/Patch.lean: patches: scope, base and quiescence, the merged image, and the one indivisible step that applies
them (spec/11, R260 to R264; notes/assumptions/68.md).
-/

namespace Sys2Proof.Machine

/-- Records with those of `new` in the place of the records of the same key; a key not yet there is added in ascending order. -/
def mergeBy {α : Type} (key : α → Nat) (old new : List α) : List α :=
  new.foldl (fun (l : List α) (x : α) =>
    l.filter (fun y => key y < key x) ++ [x] ++ l.filter (fun y => key x < key y)) old

/-- The device's image with a patch in it. -/
def Image.patched (im q : Image) : Image :=
  { im with
    parts := mergeBy (fun r => r.p) im.parts q.parts, spares := mergeBy (fun r => r.g) im.spares q.spares,
    cups := mergeBy (fun r => r.p) im.cups q.cups, regs := mergeBy (fun r => r.p) im.regs q.regs,
    nums := mergeBy (fun r => r.p) im.nums q.nums, twins := mergeBy (fun r => r.p) im.twins q.twins,
    dets := mergeBy (fun r => r.p) im.dets q.dets }

/-- What the records of a section name: a partition, or an array group. -/
def Image.recNames (im : Image) (ty : Nat) : List Nat :=
  match ty with
  | 1 => im.parts.map (fun r => r.p)
  | 2 => im.spares.map (fun r => r.g)
  | 3 => im.cups.map (fun r => r.p)
  | 5 => im.regs.map (fun r => r.p)
  | 9 => im.nums.map (fun r => r.p)
  | 12 => im.twins.map (fun r => r.p)
  | 13 => im.dets.map (fun r => r.p)
  | _ => []

/-- A failure of the patched device as MGT_IMAGE_STATUS reports it: the patch's own record, or no section where the failing record is not the
patch's. -/
def ofPatch (new q : Image) (e : ImgErr) : ImgErr :=
  match ((new.recNames e.2.1)[e.2.2]?).bind (fun n => (q.recNames e.2.1).findIdx? (fun m => m = n)) with
  | some k => (e.1, e.2.1, k)
  | none => (e.1, 0, 0)

/-- First record or section of a patch of partition `p` outside R261 (code 13h). -/
def scopeBad (im q : Image) (p : Nat) : Option ImgErr :=
  let set := ((im.parts.find? (fun r => r.p = p)).map (fun r => r.agSet)).getD 0
  let at_ := fun {α : Type} (ty : Nat) (l : List α) (ok : α → Bool) => (l.findIdx? (fun x => !ok x)).map (fun k => ((0x13, ty, k) : ImgErr))

  let section_ := (q.types.find? (fun ty => !(decide (ty ∈ [1, 2, 3, 5, 9, 12, 13])))).map (fun ty => ((0x13, ty, 0) : ImgErr))
  [if set = 0 then some (0x13, 0, 0) else none, section_,
   at_ 1 q.parts (fun r => decide (r.p = p) && decide (r.agSet = set)), at_ 2 q.spares (fun r => set.testBit r.g),
   at_ 3 q.cups (fun r => r.p = p), at_ 5 q.regs (fun r => r.p = p), at_ 9 q.nums (fun r => r.p = p), at_ 12 q.twins (fun r => r.p = p),
   at_ 13 q.dets (fun r => r.p = p)].findSome? id

/-- Whether a mapped page lies in scratchpad that a new cache share of partition `p` would take (R218, code 09h). -/
def State.cacheMapped (s : State) (q : Image) (p : Nat) : Bool :=
  q.cups.any (fun r =>
    s.listedVpns.any (fun v =>
      let e := s.pmEntry v
      let slices := match pmLoc e with
        | 1 => [4 * pmPlace e + pmFrame e / 6144]
        | 2 => (List.range 4).map (fun d => 4 * d + pmPlace e)
        | _ => []
      let first := if pmLoc e = 1 then pmFrame e % 6144 * 65536 else pmFrame e * 16384
      pmValid e && slices.any (fun g => decide (s.partOf g = some p)) && decide (first < r.c * 2 ^ 26)))

/-- The first failing code of a patch (R261, R265), with its parsed form. -/
def State.patchCheck (s : State) (b : Bytes) : Option ImgErr :=
  match s.check01to06 b 2 with
  | some e => some e
  | none =>
    let q := parseImage b
    let p := q.hdr.patchPart
    let im := s.img.act.getD q
    let new := im.patched q
    let absent := below 272 (fun pa => decide (pa / 17 ∈ s.groupsOf p) && decide (s.rd F.SPR_STATUS_ROLE pa = 0))
    let twinOnly := decide (q.types = [12])
    match consistencyBad new with
    | some e => some (ofPatch new q e)
    | none =>
      if s.cacheMapped q p then some (9, 3, 0)
      else if q.hdr.baseId ≠ s.rd F.MGT_IMAGE_ID_IMAGE_ID ∨ q.hdr.patchSeq ≤ s.rd F.MGT_PATCH_SEQ_SEQ p then some (0x12, 0, 0)
      else
        match scopeBad im q p with
        | some e => some e
        | none =>
          match hardwareBad new s.img.absentPairs absent [] with
          | some e => some (ofPatch new q e)
          | none =>
            if !twinOnly ∧ !s.quiesced p then some (0x15, 0, 0)
            else if twinOnly ∧ s.on F.PGM_CUT_ACTIVE p then some (0x16, 0, 0)
            else if s.resetting p then some (0x17, 0, 0) else none

/-- A Belfry core that a patch takes from its partition is power-gated (R237). -/
def State.dropCores (s : State) (p : Nat) (r : PartRec) : State :=
  (below 48 (fun n => s.on F.MGT_BFY_CORE_ASSIGNED n && decide (s.rd F.MGT_BFY_CORE_PARTITION n = p) && !r.cores.testBit n)).foldl
    (fun (s : State) n =>
      (((s.wr F.MGT_BFY_CORE_ASSIGNED 0 n).wr F.MGT_BFY_CORE_PARTITION 0 n).wr F.MGT_BFY_CORE_STATE 0 n).wr F.MGT_BFY_CORE_FREQ_MHZ 0 n) s

/-- New roles and map of one group (R41): a replaced array is QUARANTINED and its quarantine requests end (R401); SPARE_USED says that the
former spare runs a logical array and no idle spare is named in its place (notes/assumptions/78.md); a former spare may serve echoes again
(R393). Arrays under a Campanile test take their new role after it. -/
def State.patchSpare (s : State) (p : Nat) (r : SpareRec) : State :=
  let mine := (List.range 17).map (fun j => 17 * r.g + j)
  let before := mine.map (fun pa => (pa, agetD ((s.gal.camp.map (fun c => c.roles)).getD []) pa (s.rd F.SPR_STATUS_ROLE pa)))
  let spare := 17 * r.g + s.rd F.AG_SPARE_SPARE_J r.g
  let s := s.loadSpare r []
  let s := before.foldl (fun (s : State) x =>
    if x.2 = 1 ∧ s.rd F.SPR_STATUS_ROLE x.1 ≠ 1 then (s.wr F.SPR_STATUS_ROLE 5 x.1).endQuar p x.1 else s) s
  let s := if s.rd F.SPR_STATUS_ROLE (17 * r.g + r.spareJ) = 2 then s.wr F.AG_SPARE_SPARE_USED 0 r.g
    else if s.rd F.SPR_STATUS_ROLE spare = 1 then s.wr F.AG_SPARE_SPARE_USED 1 r.g else s
  let s := if s.rd F.SPR_STATUS_ROLE spare = 2 then s
    else { s with gal := { s.gal with noEcho := s.gal.noEcho.filter (fun x => x ≠ spare) } }
  match s.gal.camp with
  | none => s
  | some c =>
    let roles := c.roles.map (fun e => if e.1 ∈ mine then (e.1, s.rd F.SPR_STATUS_ROLE e.1) else e)
    let s := (roles.filter (fun e => e.1 ∈ mine)).foldl (fun (s : State) e => s.wr F.SPR_STATUS_ROLE 4 e.1) s
    { s with gal := { s.gal with camp := some { c with roles := roles } } }

/-- The indivisible step (R262, R274): the register values, the merged image, the sequence number and the directory. -/
def State.patchApply (s : State) (b : Bytes) : State :=
  let q := parseImage b
  let p := q.hdr.patchPart
  let gs := s.groupsOf p
  let im := (s.img.act.getD q).patched q
  let s := q.parts.foldl (fun (s : State) r => (s.dropCores p r).loadCores r) s
  let s := q.spares.foldl (fun (s : State) r => s.patchSpare p r) s
  let s := q.cups.foldl (fun (s : State) r => (s.flushCache p).loadCup gs r) s
  let s := q.nums.foldl (fun (s : State) r => s.loadNum gs r) s
  let s := q.regs.foldl State.loadReg s
  let s := q.dets.foldl State.loadDet s
  let s := q.twins.foldl (fun (s : State) r =>
    (s.loadTwin r).setSnap p { s.snap p with answers := [], mirrorsGood := false }) s
  let s := { s with img := { s.img with
    act := some im, patchSv := max s.img.patchSv q.hdr.secVersion, patchChain := shake256 (s.img.patchChain ++ shake256 (imgMsg b)) } }
  let s := (s.wr F.MGT_PATCH_SEQ_SEQ q.hdr.patchSeq p).inc F.MGT_PATCH_SEQ_APPLIED p
  let s := (s.imgStatus 2 255 p (0, 0, 0)).ldPatch p
  (s.coverage p).lapseFailed.setReady

/-- What PATCH_APPLY needs of its request (R316, R317). -/
def patchSpec (p len : Nat) : OpSpec := { feat := some 0, mgmt := true, stage := stDome, fieldOk := decide (p < 16) && decide (len ≤ 262144) }

/-- A group of partition `p` that has to wake before a patch of the partition takes effect (R286). -/
def State.asleepOf (s : State) (p : Nat) : Option Nat :=
  (s.groupsOf p).find? (fun g => decide (s.rd F.CLK_AG_STATE g ≠ 0) && decide (s.rd F.CLK_AG_STATE g ≠ 4))

/-- PATCH_APPLY as firmware serves it: the patch is read from device memory of partition `p`, checked and applied; FAILED carries the
code. Groups of the patched partition that sleep are woken first, and the request stays BUSY (R286). -/
def State.patchServe (s : State) (h : MbxHdr) (p addr len : Nat) : State :=
  match s.mbxCheck h (patchSpec p len) with
  | some st => s.respond h st []
  | none =>
    let reply := fun (r : Reply) => r.2.2.respond h r.1 r.2.1
    match s.devRead 4 0x58 p addr len with
    | (none, b, false, s) =>
      (match s.patchCheck b with
       | some e => reply (failReply (s.imgStatus 2 255 (leAt b 14 1 % 16) e) e.1)
       | none =>
         let q := leAt b 14 1
         match s.asleepOf q with
         | some g => (((s.groupsOf q).foldl State.wakeRequest s).queueEvent g (.patch h p addr len)).wr F.MBX_STATUS_BUSY 1 h.m
         | none => reply (okReply (s.patchApply b)))
    | (_, _, _, s) => reply (failReply (s.imgStatus 2 255 0 (1, 0, 0)) 1)

/-- PATCH_APPLY (R261 to R263). -/
def execPatchApply (t : Nat) (h : MbxHdr) (p addr len : Nat) (s : State) : Out :=
  let s := s.tick t
  inst (mbxOk h) (s.mbx (.patchApply t h p addr len) h (fun s => s.patchServe h p addr len))

end Sys2Proof.Machine
end

