-- ==== Sys2Proof/Machine/Sleep.lean ====
section
/-!
DEFINITION. Sys2Proof/Machine/Sleep.lean: sleep and wake of array groups (spec/13, R285 to R287), and the events the wake controller holds.
-/

namespace Sys2Proof.Machine

/-- Whether array group `g` is idle (R285). -/
def State.groupIdle (s : State) (g : Nat) : Bool :=
  (List.range 8).all (fun c => decide (s.rd F.AG_CTX_STATE g c = 0) || decide (s.rd F.AG_CTX_STATE g c = 2))
    && s.jobs.all (fun j => decide (j.g ≠ g))
    && (List.range 17).all (fun j => decide (s.rd F.SPR_CREDIT_FREE (17 * g + j) = 288) && decide (s.rd F.SPR_STATUS_ROLE (17 * g + j) ≠ 3)
      && decide (s.rd F.SPR_STATUS_ROLE (17 * g + j) ≠ 4))
    && s.waits.all (fun w => decide (s.homeOf w.p ≠ some g))

/-- An idle limit of the image's CLOCK record, in ns. -/
def State.idleLimit (s : State) (f : ClockRec → Nat) : Option Nat :=
  (s.img.act.bind (fun im => im.clocks.head?)).map (fun c => 1000 * f c)

/-- Whether the group's idle timer has reached a limit. -/
def State.idleFor (s : State) (g : Nat) (f : ClockRec → Nat) : Bool :=
  (s.idleLimit f).any (fun n => decide (agetD s.pwr.idleSince g 0 + n ≤ s.now))

/-- CLOCK_GATE_ENTRY (R285). -/
def execClockGateEntry (t g : Nat) (s : State) : Out :=
  let s := s.tick t
  inst (g < 16)
    (if s.rd F.CLK_AG_STATE g = 0 ∧ s.groupIdle g ∧ s.idleFor g (fun c => c.cgIdleUs) then (s.wr F.CLK_AG_STATE 1 g).showClock g else s)

/-- The stationary registers of a power gated group are lost, and SHADOW_READY reads 0. -/
def State.loseTiles (s : State) (g : Nat) : State :=
  (List.range 17).foldl (fun (s : State) j =>
    let pa := 17 * g + j
    (s.setPa pa { s.pa pa with shadow := none, active := none }).wr F.SPR_STATUS_SHADOW_READY 0 pa) s

/-- POWER_GATE_ENTRY (R285, R286): never the home group of a partition, nor a group whose wake waits. -/
def execPowerGateEntry (t g : Nat) (s : State) : Out :=
  let s := s.tick t
  let st := s.rd F.CLK_AG_STATE g
  inst (g < 16)
    (if (st = 0 ∨ st = 1) ∧ s.groupIdle g ∧ s.idleFor g (fun c => c.pgIdleUs) ∧ s.partNums.all (fun p => s.homeOf p ≠ some g)
       ∧ s.pwr.wakeQ.all (fun w => w.g ≠ g) then
       ((s.loseTiles g).wr F.CLK_AG_STATE 2 g).showClock g
     else s)

/-- A write to a register that acts, or a posted write through a memory window, takes effect; a ring sets off; a request reaches its array. -/
def State.deliver (s : State) (ev : HeldEvent) : State :=
  match ev with
  | .doorbell fn g c word => if s.fnReaches fn g then (s.doorbell g c word).showCtx g c else s
  | .ring p bell count => s.ringsArrive [{ p := p, bell := bell, count := count, from_ := p, src := 0x7F }]
  | .test pa => s.takeTest pa
  | .patch h p addr len => s.patchServe h p addr len
  | .access _ reg i j none => s.readReg reg i j none
  | .access who reg i j (some w) => s.regEffect who reg i j w.1 w.2
  | .window fn off b => s.windowStore fn off b

/-- The groups that have to run before an event is delivered (R286). -/
def State.groupsFor (s : State) (ev : HeldEvent) : List Nat :=
  match ev with
  | .doorbell _ g _ _ => [g]
  | .ring p _ _ => (s.homeOf p).toList
  | .test pa => [pa / 17]
  | .patch _ p _ _ => (s.asleepOf p).toList
  | .access _ reg i _ _ => (agOf reg i).toList
  | .window _ _ _ => []

/-- An event arrives: it waits behind earlier posted writes of its sender (R244, R303), for a group that sleeps (R286), or takes effect. -/
def State.arrive (s : State) (ev : HeldEvent) : State :=
  match s.behind ev with
  | some k => s.queueEvent k ev
  | none =>
    match (s.groupsFor ev).find? (fun g => !s.groupRuns g) with
    | some g => s.holdEvent g ev
    | none => s.deliver ev

/-- The events held under a key arrive again, in their order. -/
def State.releaseKey (s : State) (k : Nat) : State :=
  ((s.pwr.held.filter (fun e => e.1 = k)).map (fun e => e.2)).foldl State.arrive
    { s with pwr := { s.pwr with held := s.pwr.held.filter (fun e => e.1 ≠ k) } }

/-- Posted writes behind a memory write that is no longer held take effect (R244, R303). -/
def State.releasePosted (s : State) : State := if s.pwr.held.any (fun e => e.1 = 16) then s.releaseKey 16 else s

/-- WAKE_EVENT (R286): a group that runs takes the event at once; for a group asleep the wake controller holds it. The event is one for group
`g`. -/
def execWakeEvent (t g : Nat) (ev : HeldEvent) (s : State) : Out :=
  let s := s.tick t
  inst (g < 16)
    (if s.safe ∨ s.rd F.CLK_AG_STATE g = 4 ∨ !(s.groupsFor ev).contains g then s else s.arrive ev)

/-- Whether a wake may begin now (R287): at most 2 from POWER_GATED in 10 µs, 4 from CLOCK_GATED in 100 ns. -/
def State.wakeFits (s : State) (power : Bool) : Bool :=
  if power then decide ((s.pwr.pgStarts.filter (fun a => s.now < a + 10000)).length < 2)
  else decide ((s.pwr.cgStarts.filter (fun a => s.now < a + 100)).length < 4)

/-- Whether a waiting wake comes before another: it arrived earlier, or in the same always-on sample for a lower group. -/
def WakeReq.before (a b : WakeReq) : Bool :=
  decide (a.at_ / 10 < b.at_ / 10) || (decide (a.at_ / 10 = b.at_ / 10) && decide (a.g < b.g))

/-- WAKE_START (R287): the first wake of its kind begins if the limits allow; its kind is what the group leaves, POWER_GATED or CLOCK_GATED. -/
def execWakeStart (t g : Nat) (s : State) : Out :=
  let s := s.tick t
  let power := fun (g : Nat) => decide (s.rd F.CLK_AG_STATE g = 2)
  inst (g < 16)
    (match s.pwr.wakeQ.find? (fun w => w.g = g) with
     | none => s
     | some w =>
       if s.safe ∨ !s.wakeFits (power g) ∨ s.pwr.wakeQ.any (fun v => power v.g == power g && v.before w) then s
       else
         let ns := if power g then 40000 else 200
         let s' : State := { s with pwr := { s.pwr with
           wakeQ := s.pwr.wakeQ.filter (fun v => v ≠ w),
           pgStarts := if power g then s.now :: s.pwr.pgStarts.filter (fun a => s.now < a + 10000) else s.pwr.pgStarts,
           cgStarts := if power g then s.pwr.cgStarts else s.now :: s.pwr.cgStarts.filter (fun a => s.now < a + 100),
           waking := aset s.pwr.waking g (s.now + ns) } }
         let s' := if power g then s'.inc F.CLK_AG_PG_WAKES g else s'
         (s'.wr F.CLK_AG_STATE 3 g).showClock g)

/-- WAKE_COMPLETE (R286): the group runs, and the events held for it are delivered in order. -/
def execWakeComplete (t g : Nat) (s : State) : Out :=
  let s := s.tick t
  inst (g < 16)
    (match aget s.pwr.waking g with
     | none => s
     | some due =>
       if s.now < due ∨ s.rd F.CLK_AG_STATE g ≠ 3 then s
       else
         let s := ({ s with pwr := { s.pwr with waking := adel s.pwr.waking g } } : State).stirred g
         (((s.wr F.CLK_AG_STATE 0 g).showClock g).releaseKey g).releasePosted)

end Sys2Proof.Machine
end

