-- ==== Sys2Proof/Machine/Posted.lean ====
section
/-!
DEFINITION. Sys2Proof/Machine/Posted.lean: the accesses of functions in their order (spec/14, R303): register writes and reads, the memory
windows, and the commands at which posted writes held behind a memory write take effect (spec/09, 10).
-/

namespace Sys2Proof.Machine

/-- REGISTER_WRITE (R5 to R7, R239, R266, R270, R286, R303): a write that acts goes to its register; one to the directory, or to the window of a
block that is not shown present, is handled as R5 states. -/
def execRegisterWrite (t : Nat) (who : Requester) (reg : Reg) (i j value setNow : Nat) (s : State) : Out :=
  let s := (s.tick t).releasePosted
  inst (hasWindow reg i)
    (match s.fate who reg i true with
     | .acts =>
       if reg = .LDIR_TABLE ∨ s.closedReg reg i then s.badAccess reg i true
       else s.arrive (.access who reg i j (some (value, setNow)))
     | .denied => s.turnedAway who reg true true
     | .nothing => s)

/-- RC_COUNTER_READ (R5 to R7, R239, R266, R270, R286, R301). In the safe state BAR0 stays readable, and the registers of gated groups are held in
retention (R285, R382; DEDUCED, notes/assumptions/146.md). -/
def execRcCounterRead (t : Nat) (who : Requester) (reg : Reg) (i j : Nat) (event : Option Nat) (s : State) : Out :=
  let s := (s.tick t).releasePosted
  inst (hasWindow reg i)
    (match s.fate who reg i false with
     | .acts =>
       if s.closedReg reg i then s.badAccess reg i false
       else
         match (agOf reg i).filter (fun g => !s.groupRuns g && !s.safe) with
         | some g => s.holdEvent g (.access who reg i j none)
         | none => s.readReg reg i j event
     | .denied => s.turnedAway who reg true false
     | .nothing => s.turnedAway who reg false false)

/-- An access through a function's memory window (R302): a read returns at once or waits for its channels, a write is posted. In the safe state
only configuration space and BAR0 answer (R382). -/
def State.windowAccess (s : State) (fn : Fn) (size off len : Nat) (wr : Option Bytes) : State :=
  let n := (wr.map (fun b => b.length)).getD len
  if s.safe ∨ size < off + n then s
  else
    match wr with
    | some b => s.arrive (.window fn off b)
    | none => s.windowLoad fn off len

/-- BAR4_ACCESS (R302, R303): the window at PCI_WIN.BASE, requester PCI_WIN.PARTITION. -/
def execBar4Access (t off len : Nat) (wr : Option Bytes) (s : State) : Out :=
  .next (((s.tick t).releasePosted).windowAccess .pf0 (2 ^ 32) off len wr)

/-- VF_BAR2_ACCESS (R302, R303): the window at VF_BASE, requester partition n - 1. -/
def execVfBar2Access (t n off len : Nat) (wr : Option Bytes) (s : State) : Out :=
  inst (1 ≤ n ∧ n ≤ 16) (((s.tick t).releasePosted).windowAccess (.vf n) (2 ^ 30) off len wr)

/-- COW_COPY_DONE (R212): the page copy is made, and the writes held for it and what was posted behind them take effect. -/
def execCowCopyDone (t vpn : Nat) (s : State) : Out :=
  .next (((s.tick t).finishCopy vpn).releasePosted)

/-- DESCRIPTOR_HEAD (R155, R161, R244, R303). -/
def execDescriptorHead (t g c : Nat) (s : State) : Out :=
  inst (g < 16 ∧ c < 8) (((s.tick t).releasePosted).headStep g c)

end Sys2Proof.Machine
end

