-- ==== Sys2Proof/Machine/Security.lean ====
section
/-!
DEFINITION. Sys2Proof/Machine/Security.lean: signing with the identity key, evidence, counters, ownership, debug scopes and root revocation
(spec/21).
-/

namespace Sys2Proof.Machine

/-! ### Signatures (R471 to R473) -/

/-- The index the next signature uses, and the state with it counted as used; a spent or absent block is replaced by reserving the next
(R473). None when the key is exhausted. -/
def State.takeIndex (s : State) : Option (Nat × State) :=
  if s.exhausted then none
  else
    let n := s.rd F.SEC_SIGIDX_NEXT_INDEX
    let b := s.sec.flash.sigBlock
    if n = 0xFFFFFFFF ∨ n = 64 * b then
      let s := { s with sec := { s.sec with flash := { s.sec.flash with sigBlock := b + 1 } } }
      some (64 * b, s.wr F.SEC_SIGIDX_NEXT_INDEX (64 * b + 1))
    else some (n, s.wr F.SEC_SIGIDX_NEXT_INDEX (n + 1))

/-- Seconds until the signing bucket's next token. -/
def State.tokenWait (s : State) : Nat := ceilDiv (s.sec.tokenAt + 360000000000 - s.now) 1000000000

/-- Takes one token; a full bucket begins to refill now (notes/assumptions/65.md). -/
def State.takeToken (s : State) : State :=
  let n := s.rd F.SEC_SIGIDX_TOKENS
  let s := if n = 32 then { s with sec := { s.sec with tokenAt := s.now } } else s
  s.wr F.SEC_SIGIDX_TOKENS (n - 1)

/-- A signature by the identity key over the message `msg` gives for the index used: the index, the message and the signature with the state
after it, or the detail of *Security failure details* (R471 to R473). A signature made verifies under the identity key. -/
def State.sign (s : State) (msg : Nat → Bytes) : Nat ⊕ (Nat × Bytes × Bytes × State) :=
  if !s.on F.SEC_STATUS_ID_VALID then .inl 1
  else
    match s.takeIndex with
    | none => .inl 2
    | some (n, s') =>
      if s.rd F.SEC_SIGIDX_TOKENS = 0 then .inl 3
      else
        let m := msg n
        let sig := slice (Config.xmssSign n m) 0 2820
        let s' := s'.takeToken
        .inr (n, m, sig, { s' with sec := { s'.sec with genuine := s'.sec.genuine ++ [(.owner s'.sec.flash.idKey, m, sig)] } })

/-- Payload of a signing failure: the detail, and for RATE_LIMITED the seconds until the next token. -/
def State.signFail (s : State) (code : Nat) : Bytes := natLe 4 code ++ (if code = 3 then natLe 4 s.tokenWait else [])

/-- SIGNATURE_TOKEN_REFILL (R472): one token every 360 s, up to 32. -/
def execSignatureTokenRefill (t : Nat) (s : State) : Out :=
  let s := s.tick t
  let n := s.rd F.SEC_SIGIDX_TOKENS
  .next (if 32 ≤ n ∨ s.now < s.sec.tokenAt + 360000000000 then s
    else ({ s with sec := { s.sec with tokenAt := s.sec.tokenAt + 360000000000 } } : State).wr F.SEC_SIGIDX_TOKENS (n + 1))

/-! ### Identity and evidence (R470, R474) -/

/-- The 256 bytes of evidence for a nonce and a signature index. -/
def State.evidence (s : State) (nonce : Bytes) (index : Nat) : Bytes :=
  let owner := s.sec.flash.ownerKey
  let scope := s.rd F.SEC_STATUS_DEBUG_SCOPE
  let flags := s.rd F.SEC_STATUS_FW_OWNER + 2 * s.rd F.SEC_STATUS_FW_COSIGNED + (if owner.isSome then 4 else 0) + (if scope = 0 then 0 else 8)
  let fw := s.sec.fw.getD { slot := 0, version := 0, secVersion := 0, digest := [] }
  ascii "VEVD" ++ natLe 1 1 ++ natLe 1 flags ++ natLe 2 0 ++ slice nonce 0 32 ++ natLe 8 s.now ++ natLe 4 fw.version ++ natLe 4 fw.secVersion
    ++ slice fw.digest 0 32 ++ s.regBytes .MGT_IMAGE_ID ++ slice s.img.digest 0 32 ++ slice s.img.trimDigest 0 32 ++ slice s.img.patchChain 0 32
    ++ (match owner with
        | some k => shake256 k
        | none => natLe 32 0)
    ++ s.regBytes .AON_STAGE ++ natLe 4 index ++ natLe 1 s.sec.flash.revoked ++ natLe 1 scope ++ natLe 22 0

/-- Public key, identity digest and endorsement. -/
def State.identity (s : State) : Bytes := slice s.sec.flash.idKey 0 64 ++ s.idDigest ++ s.sec.flash.endorsement

/-- Every counter of *Monotonic counters*, in its order, four bytes each (notes/assumptions/66.md). -/
def State.counters (s : State) : Bytes :=
  let f := s.sec.flash
  natLe 4 f.fwSv ++ natLe 4 f.imgSv ++ natLe 4 f.patchSv ++ natLe 4 f.trimSv ++ natLe 4 f.revoked ++ natLe 4 f.ownerEpoch ++ natLe 4 f.debugCtr
    ++ natLe 4 f.sigBlock

/-- GET_IDENTITY as firmware serves it. -/
def State.identityServe (s : State) (h : MbxHdr) : State := s.serveMsg h { feat := some 3 } (fun s => okReply s s.identity)

/-- GET_IDENTITY (R470, R471): it answers from Footing, whether or not the seal opened. -/
def execGetIdentity (t : Nat) (path : Path) (s : State) : Out :=
  let s := s.tick t
  match path with
  | .mbx h => inst (mbxOk h) (s.mbx (.getIdentity t path) h (fun s => s.identityServe h))
  | p => .next (if s.aonUp p then s.answer p (natLe 1 0 ++ s.identity) else s)

/-- GET_COUNTERS as firmware serves it. -/
def State.countersServe (s : State) (h : MbxHdr) : State := s.serveMsg h { feat := some 3 } (fun s => okReply s s.counters)

/-- GET_COUNTERS (R465). -/
def execGetCounters (t : Nat) (path : Path) (s : State) : Out :=
  let s := s.tick t
  match path with
  | .mbx h => inst (mbxOk h) (s.mbx (.getCounters t path) h (fun s => s.countersServe h))
  | p => .next (if s.aonUp p then s.answer p (natLe 1 0 ++ s.counters) else s)

/-- Status, payload and state of a request for evidence. -/
def State.evidenceReply (s : State) (nonce : Bytes) : Reply :=
  match s.sign (fun n => s.evidence nonce n) with
  | .inl code => (9, s.signFail code, s)
  | .inr (_, m, sig, s') => okReply s' (m ++ sig)

/-- GET_EVIDENCE as firmware serves it. -/
def State.evidenceServe (s : State) (h : MbxHdr) (nonce : Bytes) : State :=
  s.serveMsg h { feat := some 3, fieldOk := decide (nonce.length = 32) } (fun s => s.evidenceReply nonce)

/-- GET_EVIDENCE (R472 to R474): STAGE status before Drum on the always-on paths. -/
def execGetEvidence (t : Nat) (path : Path) (nonce : Bytes) (s : State) : Out :=
  let s := s.tick t
  match path with
  | .mbx h => inst (mbxOk h) (s.mbx (.getEvidence t path nonce) h (fun s => s.evidenceServe h nonce))
  | p =>
    .next (if !s.aonUp p then s
      else if s.sec.fw.isNone then s.answer p (natLe 1 8)
      else
        let r := s.evidenceReply nonce
        r.2.2.answer p (natLe 1 r.1 ++ r.2.1))

/-- MANIFEST_SIGN as firmware serves it: SIGNED is set in the header, and the header, the signature and the signer's identity digest return
(R447; notes/assumptions/58.md). -/
def State.manifestSignServe (s : State) (h : MbxHdr) (header entriesDigest : Bytes) : State :=
  let hd := header.take 5 ++ natLe 1 (leAt header 5 1 ||| 2) ++ header.drop 6
  s.serveMsg h
    { feat := some 2
      fieldOk := decide (header.length = 128) && decide (entriesDigest.length = 32) && decide (slice header 0 4 = ascii "VMNF")
        && decide (leAt header 4 1 = 1) }
    (fun s =>
      match s.sign (fun _ => hd ++ entriesDigest) with
      | .inl code => (9, s.signFail code, s)
      | .inr (_, _, sig, s') => okReply s' (hd ++ sig ++ s'.idDigest))

/-- MANIFEST_SIGN (R447). -/
def execManifestSign (t : Nat) (h : MbxHdr) (header entriesDigest : Bytes) (s : State) : Out :=
  let s := s.tick t
  inst (mbxOk h) (s.mbx (.manifestSign t h header entriesDigest) h (fun s => s.manifestSignServe h header entriesDigest))

/-! ### Counters, ownership, debug and roots (R463 to R467, R475 to R478) -/

/-- Changes the flash, one indivisible transaction (R465). -/
def State.setFlash (s : State) (f : FlashSt) : State := { s with sec := { s.sec with flash := f } }

/-- COUNTER_COMMIT of a kind: the counter rises to the security version of the item in force (R466). -/
def State.commitCounter (s : State) (kind : Nat) : State :=
  let f := s.sec.flash
  s.setFlash (match kind with
    | 0 => { f with fwSv := max f.fwSv ((s.sec.fw.map (fun x => x.secVersion)).getD 0) }
    | 1 => { f with imgSv := max f.imgSv ((s.img.act.map (fun x => x.hdr.secVersion)).getD 0) }
    | 2 => { f with patchSv := max f.patchSv s.img.patchSv }
    | _ => { f with trimSv := max f.trimSv s.img.trimSv })

/-- COUNTER_COMMIT as firmware serves it. -/
def State.counterServe (s : State) (h : MbxHdr) (kind : Nat) : State :=
  s.serveMsg h { feat := some 3, mgmt := true, fieldOk := decide (kind < 4) } (fun s => okReply (s.commitCounter kind))

/-- COUNTER_COMMIT (R466). -/
def execCounterCommit (t : Nat) (h : MbxHdr) (kind : Nat) (s : State) : Out :=
  let s := s.tick t
  inst (mbxOk h) (s.mbx (.counterCommit t h kind) h (fun s => s.counterServe h kind))

/-- Whether the signature block behind the first `n` bytes verifies over them under the key its slot names. -/
def State.blockVerifies (s : State) (b : Bytes) (n : Nat) (slotOk : Nat → Bool) : Bool :=
  let slot := leAt b n 4
  slotOk slot && (match s.keyFor slot with
    | some k => s.verifies k (b.take n) (slice b (n + 12) 2820)
    | none => false)

/-- The first failing check of a token (R475), 0 for none, in the order of *Security failure details* (notes/assumptions/67.md). -/
def State.tokenFault (s : State) (b : Bytes) (magic : String) (counter mask reserved : Nat) (slotOk : Nat → Bool) : Nat :=
  if !s.blockVerifies b 128 slotOk then 4
  else if slice b 8 32 ≠ s.idDigest then 5
  else if leAt b 40 4 ≠ counter then 6
  else if slice b 0 4 ≠ ascii magic ∨ leAt b 4 1 ≠ 1 ∨ leAt b 5 3 ≠ 0 ∨ leAt b 44 1 &&& (255 - mask) ≠ 0 ∨ leAt b 45 3 ≠ 0
      ∨ !allZero (slice b reserved (128 - reserved)) ∨ !allZero (slice b 132 8) then 8
  else 0

/-- OWNER_TRANSFER as firmware serves it: the owner record is written or cleared, OWNER_EPOCH rises, every debug scope locks (R476). -/
def State.ownerServe (s : State) (h : MbxHdr) (token : Bytes) : State :=
  s.serveMsg h { feat := some 3, mgmt := true, fieldOk := decide (token.length = 2960) } (fun s =>
    let f := s.sec.flash
    match s.tokenFault token "VOWN" f.ownerEpoch 3 112 (fun k => decide (k < 4)) with
    | 0 =>
      let key := slice token 48 64
      let f := if allZero key then { f with ownerKey := none, ownerPolicy := 0 }
        else { f with ownerKey := some key, ownerPolicy := leAt token 44 1 }
      okReply ((s.setFlash { f with ownerEpoch := f.ownerEpoch + 1 }).wr F.SEC_STATUS_DEBUG_SCOPE 0)
    | code => failReply s code)

/-- OWNER_TRANSFER (R476). -/
def execOwnerTransfer (t : Nat) (h : MbxHdr) (token : Bytes) (s : State) : Out :=
  let s := s.tick t
  inst (mbxOk h) (s.mbx (.ownerTransfer t h token) h (fun s => s.ownerServe h token))

/-- DEBUG_UNLOCK as firmware serves it: DEBUG_CTR rises, the token's scopes unlock, and the guarantees lapse with a level 1 security fault
(R477, R478). -/
def State.unlockServe (s : State) (h : MbxHdr) (token : Bytes) : State :=
  s.serveMsg h { feat := some 3, mgmt := true, fieldOk := decide (token.length = 2960) } (fun s =>
    let f := s.sec.flash
    let slotOk := fun (k : Nat) => if f.ownerKey.isSome then decide (k = 128) else decide (k < 4)
    match s.tokenFault token "VDBG" f.debugCtr 15 48 slotOk with
    | 0 =>
      let scope := leAt token 44 1
      let s := (s.setFlash { f with debugCtr := f.debugCtr + 1 }).wr F.SEC_STATUS_DEBUG_SCOPE (s.rd F.SEC_STATUS_DEBUG_SCOPE ||| scope)
      okReply (if scope = 0 then s else (s.lapse 31).raise { cls := 5, level := 1, master := 0x5D, source := 0x5D, aux := scope })
    | code => failReply s code)

/-- DEBUG_UNLOCK (R477, R478). -/
def execDebugUnlock (t : Nat) (h : MbxHdr) (token : Bytes) (s : State) : Out :=
  let s := s.tick t
  inst (mbxOk h) (s.mbx (.debugUnlock t h token) h (fun s => s.unlockServe h token))

/-- DEBUG_LOCK as firmware serves it. -/
def State.lockServe (s : State) (h : MbxHdr) : State :=
  s.serveMsg h { feat := some 3, mgmt := true } (fun s => okReply (s.wr F.SEC_STATUS_DEBUG_SCOPE 0))

/-- DEBUG_LOCK (R477). -/
def execDebugLock (t : Nat) (h : MbxHdr) (s : State) : Out :=
  let s := s.tick t
  inst (mbxOk h) (s.mbx (.debugLock t h) h (fun s => s.lockServe h))

/-- ROOT_REVOKE as firmware serves it: a mask byte and a signature block over it by a vendor root that neither the mask nor REVOKED revokes
(R467). -/
def State.revokeServe (s : State) (h : MbxHdr) (record : Bytes) : State :=
  s.serveMsg h { feat := some 3, mgmt := true, fieldOk := decide (record.length = 2833) } (fun s =>
    let mask := leAt record 0 1
    let f := s.sec.flash
    if !s.blockVerifies record 1 (fun k => decide (k < 4) && !mask.testBit k) then failReply s 4
    else if (f.revoked ||| mask) % 16 = 15 then failReply s 7
    else if 16 ≤ mask ∨ !allZero (slice record 5 8) then failReply s 8
    else okReply (s.setFlash { f with revoked := f.revoked ||| mask }))

/-- ROOT_REVOKE (R467). -/
def execRootRevoke (t : Nat) (h : MbxHdr) (record : Bytes) (s : State) : Out :=
  let s := s.tick t
  inst (mbxOk h) (s.mbx (.rootRevoke t h record) h (fun s => s.revokeServe h record))

end Sys2Proof.Machine
end

