-- ==== Sys2Proof/Machine/Restart.lean ====
section
/-!
DEFINITION. Sys2Proof/Machine/Restart.lean: the end of a restart of the management core (spec/14, R298, R323, R324).
-/

namespace Sys2Proof.Machine

/-- Firmware serves a request whose GO was held during the restart (R324), each as its own command does, or a page-map write (R323); after a WARM_RESET among them no
firmware runs and the rest is lost. -/
def State.serveHeld (s : State) (i : Instr) : State :=
  if s.sec.fw.isNone then s else
  match i with
  | .faultRead _ h seqFrom count => s.faultReadServe h seqFrom count
  | .faultAck _ h classes scopes => s.faultAckServe h classes scopes
  | .faultHistory _ h pos count => s.faultHistoryServe h pos count
  | .faultFirst _ h clear => s.faultFirstServe h clear
  | .campanileRun _ h req => s.campRunServe h req
  | .campanileResult _ h => s.campResultServe h
  | .bucketRead _ h pa => s.bucketReadServe h pa
  | .bucketClear _ h pa => s.bucketClearServe h pa
  | .warnSet _ h cause value => s.warnSetServe h cause value
  | .partitionReset _ h p dump => s.partitionResetServe h p dump
  | .dumpRead _ h slot off len => s.dumpReadServe h slot off len
  | .dumpRelease _ h slot => s.dumpReleaseServe h slot
  | .watchdogSet _ h p periodMs action dumpBits => s.watchdogSetServe h p periodMs action dumpBits
  | .dirRead _ (.mbx h) off len => s.dirServe h off len
  | .imageWrite _ h slot off bytes => s.imageWriteServe h slot off bytes
  | .imageSelect _ h slot => s.imageSelectServe h slot
  | .fwWrite _ h off bytes => s.fwWriteServe h off bytes
  | .warmReset _ h sealOk => s.warmServe h sealOk
  | .openSession _ h req => s.openServe h req
  | .closeSession _ h => s.closeServe h
  | .statusMsg _ h => s.statusServe h
  | .contextOpen _ h req => s.contextOpenServe h req
  | .contextClose _ h g c => s.contextCloseServe h g c
  | .contextResync _ h => s.resyncServe h
  | .windowSet _ h pf0 p base => s.windowServe h pf0 p base
  | .holdRelease _ h p => s.holdReleaseServe h p
  | .policySet _ h policy => s.policyServe h policy
  | .mailboxUnknownOpcode _ h _ => s.unknownServe h
  | .patchApply _ h p addr len => s.patchServe h p addr len
  | .restore _ h req => s.restoreServe h req
  | .getIdentity _ (.mbx h) => s.identityServe h
  | .getCounters _ (.mbx h) => s.countersServe h
  | .getEvidence _ (.mbx h) nonce => s.evidenceServe h nonce
  | .manifestSign _ h header entriesDigest => s.manifestSignServe h header entriesDigest
  | .counterCommit _ h kind => s.counterServe h kind
  | .ownerTransfer _ h token => s.ownerServe h token
  | .debugUnlock _ h token => s.unlockServe h token
  | .debugLock _ h => s.lockServe h
  | .rootRevoke _ h record => s.revokeServe h record
  | .snapNow _ h p => s.snapNowServe h p
  | .snapServe _ h req => s.snapServeServe h req
  | .snapStatus _ h => s.snapStatusServe h
  | .ledgerStatus _ h => s.ledgerStatusServe h
  | .ledgerCommand _ h p cmd => s.ledgerCommandServe h p cmd
  | .galleryStatus _ h => s.galleryStatusServe h
  | .hangStatus _ h => s.hangStatusServe h
  | .pageMapWrite _ vpn entry => s.pageWrite vpn entry
  | _ => s

/-- Answers the requests that were outstanding at the restart with RESTARTED (R324). -/
def State.answerRestarted (s : State) : State :=
  s.host.owedRestarted.foldl (fun (s : State) x => s.respond x.h 10 []) { s with host := { s.host with owedRestarted := [] } }

/-- MGT_RESTART_COMPLETE (R298, R323, R324, R380): firmware runs again, MAILBOX, TELEMETRY and FIRMWARE read 1 outside the safe state, what was
outstanding is answered, held GO writes are served in order, and the ring is copied to the mirror. -/
def execMgtRestartComplete (t : Nat) (s : State) : Out :=
  let s := s.tick t
  if !s.on F.AON_STAGE_MGT_RESTART ∨ s.host.fwDead then .next s
  else
    let up := !s.safe
    let s := (((s.wr F.AON_STAGE_MGT_RESTART 0).wrB F.AON_STAGE_MAILBOX up).wrB F.AON_STAGE_TELEMETRY up).wrB F.AON_STAGE_FIRMWARE up
    let s := (List.range 32).foldl (fun (s : State) m => s.wr F.MBX_STATUS_FW_DOWN 0 m) s
    let s := { s with host := { s.host with kickAt := s.now, restartEnd := s.now } }
    let s := s.answerRestarted
    let held := s.host.heldGo
    .next ((held.foldl State.serveHeld { s with host := { s.host with heldGo := [] } }).copyLog)

end Sys2Proof.Machine
end

