-- ==== Sys2Proof/Machine/Turret.lean ====
section
/-!
DEFINITION. Sys2Proof/Machine/Turret.lean: the turret units: their arithmetic, the run of a program, its end and its faults (spec/07, R171 to
R176).
-/

namespace Sys2Proof.Machine

/-! ### Arithmetic on binary32 (R173) -/

/-- x / y, correctly rounded. -/
def Val.divRound (x y : Val) : Nat :=
  let neg := x.neg != y.neg
  let r : Val := match x.cls, y.cls with
    | .nan, _ | _, .nan | .inf, .inf | .zero, .zero => Val.nan
    | .inf, _ | _, .zero => Val.inf neg
    | .zero, _ | _, .inf => Val.zero neg
    | .fin, .fin => x.quot y
  accRound false r 0 0

/-- Square root, correctly rounded. -/
def Val.sqrtRound (x : Val) : Nat :=
  let r : Val := match x.cls with
    | .nan => Val.nan
    | .zero => x
    | .inf => if x.neg then Val.nan else x
    | .fin => if x.neg then Val.nan else x.root
  accRound false r 0 0

/-- 2^(2^-i) with 96 fraction bits. -/
def rootOfTwo : Nat → Nat
  | 0 => 2 ^ 97
  | i + 1 => Nat.sqrt (rootOfTwo i * 2 ^ 96)

/-- 2^x of a finite value below 2^9 in magnitude, to a relative error below 2^-56, and whether it is exact. -/
def exp2Approx (x : Val) : Val × Bool :=
  let k := x.ulp + 64
  let m : Int := if x.neg then -(x.mag : Int) else x.mag
  let fx := shiftFloor m k
  let f := (fx % 2 ^ 64).toNat
  let p := (List.range 64).foldl (fun p i => if f.testBit (63 - i) then p * rootOfTwo (i + 1) / 2 ^ 96 else p) (2 ^ 96)
  (⟨.fin, false, p, fx / 2 ^ 64 - 96⟩, decide (f = 0) && (decide (0 ≤ k) || decide (x.mag % 2 ^ (-k).toNat = 0)))

/-- log2 of a positive finite value with 100 fraction bits, and whether it is exact. -/
def log2Approx (x : Val) : Val × Bool :=
  let t := Nat.log2 x.mag
  let m := x.mag * 2 ^ 128 / 2 ^ t
  let r := (List.range 100).foldl (fun (a : Nat × Nat) _ =>
    let y := a.1 * a.1 / 2 ^ 128
    if 2 ^ 129 ≤ y then (y / 2, 2 * a.2 + 1) else (y, 2 * a.2)) (m, 0)
  (Val.ofInt (((t : Int) + x.ulp) * 2 ^ 100 + r.2) (-100), decide (x.mag = 2 ^ t))

/-- 1 / sqrt of a positive finite value, and whether it is exact. -/
def rsqrtApprox (x : Val) : Val × Bool :=
  let m := x.mag * 2 ^ (x.ulp % 2).toNat
  let n := 2 * (64 + Nat.log2 m)
  let q := 2 ^ n / m
  let r := Nat.sqrt q
  (⟨.fin, false, r, -((n : Int) / 2) - (x.ulp - x.ulp % 2) / 2⟩, decide (r * r = q) && decide (2 ^ n % m = 0))

/-- A binary32 pattern within `n` units in the last place of an approximated value: which one is the unit's own (Config.turretUlp). -/
def nearPattern (op n x : Nat) (v : Val × Bool) : Nat :=
  let lo := accRound false { v.1 with neg := false } 2 0
  let choice := Config.turretUlp op x
  let mag := if v.2 then lo + choice % (2 * n + 1) - n else lo + choice % (2 * n) - (n - 1)
  min mag 0x7F800000 + (if v.1.neg then 2 ^ 31 else 0)

/-- The pattern an operation that R173 bounds in ulp delivers. Where the manual states no result (a NaN, an infinity, a zero or a negative
operand) it is the unit's own. -/
def boundedOp (op : Config.TurretOp) (a : Nat) : Nat :=
  let x := accVal false a
  let nan := accRound false Val.nan 0 0
  match op with
  | .exp2 =>
    if x.cls = .nan then nan
    else if x.cls = .zero then nearPattern 0 2 a (⟨.fin, false, 1, 0⟩, true)
    else if x.cls = .inf ∨ 9 ≤ x.top then (if x.neg then nearPattern 0 2 a (Val.zero false, false) else 0x7F800000)
    else nearPattern 0 2 a (exp2Approx x)
  | .log2 => if x.enters && !x.neg then nearPattern 1 2 a (log2Approx x) else if x.cls = .nan then nan else Config.turretUlp 1 a % 2 ^ 32
  | _ => if x.enters && !x.neg then nearPattern 2 1 a (rsqrtApprox x) else if x.cls = .nan then nan else Config.turretUlp 2 a % 2 ^ 32

/-- An arithmetic operation on binary32 patterns (R60 to R63, R173). -/
def turretArith (op : Config.TurretOp) (a b c : Nat) : Nat :=
  let x := accVal false a
  let y := accVal false b
  let z := accVal false c
  let rne := fun (v : Val) => accRound false v 0 0
  match op with
  | .add => rne (x.add y)
  | .sub => rne (x.add { y with neg := !y.neg })
  | .mul => rne (x.mul y)
  | .fma => rne ((x.mul y).add z)
  | .div => x.divRound y
  | .sqrt => x.sqrtRound
  | .maximum => rne (x.maximum y)
  | .minimum => rne (x.minimum y)
  | op => boundedOp op a

/-! ### The run of a program (R171 to R174, R176) -/

/-- How far a program has come. -/
inductive TurretEnd where
  | running
  | done
  | limit
  | fault (code pc : Nat)
  deriving DecidableEq, Repr

/-- The turret fault code of a failed access check (*Access checks*), by the outcome codes of State.accessCode. -/
def turretCode (check : Nat) : Nat := if check = 4 then 3 else 2

/-- A read by the program of `j`: its bytes, or the turret fault code. -/
def State.turretRead (s : State) (j : Job) (addr n : Nat) : Option Nat × Bytes × State :=
  match s.jobRead j (0x10 + j.pa) addr n with
  | (some c, _, _, s) => (some (turretCode c), [], s)
  | (none, b, bad, s) => (if bad then some 3 else none, b, s)

/-- One conversion (R64 to R69, R92, R173): its bits and the descriptor with the outcome counted. A format the group does not hold is an
illegal instruction. -/
def State.turretConvert (s : State) (j : Job) (src dst mode policy x : Nat) (tensor : Option Nat) (row col : Nat) : Option (Nat × Job) :=
  match s.fmt j.g src, s.fmt j.g dst with
  | some f, some d =>
    if 2 < mode then none
    else
      let u := if mode = 1 then carillon j.seed j.step (tensor.getD j.tensor) (row % 2 ^ 32) (col % 2 ^ 32) 0xFFFD else 0
      let c := d.convertFrom f (f.decode false x) mode (policy % 2) u
      some (c.1, { j with counts := j.counts.zipIdx.map (fun (n : Nat × Nat) => if n.2 = c.2 then n.1 + 1 else n.1) })
  | _, _ => none

/-- A ring of a turret program: withheld in a region, else sent (R165, R176). An echo never rings. Answers false where a 33rd bell would be
withheld. -/
def State.turretRing (s : State) (j : Job) (bell count : Nat) : Bool × State :=
  if j.echo then (true, s)
  else
    match (s.ctx j.g j.c).bind (fun x => x.region), j.inReg with
    | some r, true =>
      match withhold r.withheld bell count with
      | some l => (true, s.updCtx j.g j.c (fun x => { x with region := some { r with withheld := l } }))
      | none => (false, s)
    | _, _ =>
      (true, { s with rings := s.rings ++ [{ p := j.p, bell := bell, count := count, from_ := j.p, src := 0x10 + j.pa, c := j.c }] })

/-- Carries out at most `fuel` acts of the program of `j` after those that gave `values`. -/
def State.turretRun (s : State) (j : Job) (values : List Nat) : Nat → TurretEnd × State × Job
  | 0 => (.running, s, j)
  | fuel + 1 =>
    match Config.turretNext j.progAddr j.argAddr j.step j.tensor values with
    | .done => (.done, s, j)
    | .fault code pc => (.fault (if code = 4 then 4 else 1) (pc % 2 ^ 32), s, j)
    | .debugBreak pc =>
      if s.rd F.SEC_STATUS_DEBUG_SCOPE = 0 then s.turretRun j (values ++ [0]) fuel else (.fault 5 (pc % 2 ^ 32), s, j)
    | .load pc addr n =>
      match s.turretRead j addr n with
      | (some code, _, s) => (.fault code (pc % 2 ^ 32), s, j)
      | (none, b, s) => s.turretRun j (values ++ [leNat b]) fuel
    | .store pc addr n value =>
      match s.jobWrite j (0x10 + j.pa) addr (natLe n value) with
      | (some c, s, j) => (.fault (turretCode c) (pc % 2 ^ 32), s, j)
      | (none, s, j) => s.turretRun j (values ++ [0]) fuel
    | .ring bell count =>
      match s.turretRing j (bell % 4096) (count % 2 ^ 32) with
      | (true, s) => s.turretRun j (values ++ [0]) fuel
      | (false, s) => (.limit, s, j)
    | .arith op a b c => s.turretRun j (values ++ [turretArith op a b c]) fuel
    | .convert pc src dst mode policy x tensor row col =>
      match s.turretConvert j src dst mode policy x tensor row col with
      | some (v, j) => s.turretRun j (values ++ [v]) fuel
      | none => (.fault 1 (pc % 2 ^ 32), s, j)

/-- The program of `j` from its entry: program and arguments are fetched through the page map, then at most `acts` acts are carried out
(R171). -/
def State.turretProgram (s : State) (j : Job) (acts : Nat) : TurretEnd × State × Job :=
  match s.turretRead j j.progAddr 64 with
  | (some code, _, s) => (.fault code (j.progAddr % 2 ^ 32), s, j)
  | (none, prog, s) =>
    match s.turretRead j j.argAddr 64 with
    | (some code, _, s) => (.fault code (j.progAddr % 2 ^ 32), s, j)
    | (none, arg, s) => s.turretRun j [leNat prog, leNat arg] acts

/-! ### Its end (R153, R163) -/

/-- Device cycles of a group's array clock between two times. -/
def State.cyclesSince (s : State) (g t0 : Nat) : Nat := (s.now - t0) * s.rd F.CLK_AG_MHZ g / 1000

/-- The program of `j` has ended; a staged program begins to run. -/
def State.turretDone (s : State) (g : Nat) (j : Job) : State :=
  let s := s.inc F.TUR_LANE_CYCLES_BUSY g 0 (s.cyclesSince g j.startAt)
  let s := s.putJob { j with ended := true }
  let s := match (s.turretJobs g).head? with
    | some k => s.putJob { k with startAt := s.now }
    | none => s
  s.showTurret g

/-- TURRET_PROGRAM_END (R153): within `acts` acts the program that runs on AGg's turret unit has come to its end; what it wrote and rang is
there. -/
def execTurretProgramEnd (t g acts : Nat) (s : State) : Out :=
  let s := s.tick t
  inst (g < 16)
    (match (s.turretJobs g).head? with
     | none => s
     | some j =>
       match s.turretProgram j acts with
       | (.done, s, j) => s.turretDone g j
       | (.limit, s, j) => s.turretDone g (j.fail 0x0E 0 0)
       | _ => s)

/-- TURRET_FAULT (*Turret fault codes*): within `acts` acts the program meets a fault; it ends with the fault's code and program counter,
captured in TUR_FAULT. What it wrote and rang before stays. -/
def execTurretFault (t g acts : Nat) (s : State) : Out :=
  let s := s.tick t
  inst (g < 16)
    (match (s.turretJobs g).head? with
     | none => s
     | some j =>
       match s.turretProgram j acts with
       | (.fault code pc, s, j) =>
         let s := if s.on F.TUR_FAULT_VALID g then s
           else ((s.wr F.TUR_FAULT_VALID 1 g).wr F.TUR_FAULT_CODE code g).wr F.TUR_FAULT_PC pc g
         s.turretDone g (j.fail 0x0B code pc)
       | _ => s)

end Sys2Proof.Machine
end

