-- ==== Sys2Proof/Machine/Dispatch.lean ====
section
/-!
DEFINITION. Sys2Proof/Machine/Dispatch.lean: which meaning each command has, one arm per constructor of Instr.
-/

namespace Sys2Proof.Machine

def exec (i : Instr) (s : State) : Host.Outcome State Fault Refusal :=
  match i with
  | .aux3v3Valid t sealOk => Sys2Proof.Machine.execAux3v3Valid t sealOk s
  | .aux3v3Lost t => Sys2Proof.Machine.execAux3v3Lost t s
  | .mainInValid t => Sys2Proof.Machine.execMainInValid t s
  | .mainInInvalid t => Sys2Proof.Machine.execMainInInvalid t s
  | .ana1v8Valid t => Sys2Proof.Machine.execAna1v8Valid t s
  | .ana1v8Invalid t => Sys2Proof.Machine.execAna1v8Invalid t s
  | .perstAssert t => Sys2Proof.Machine.execPerstAssert t s
  | .perstRelease t sealOk rate width => Sys2Proof.Machine.execPerstRelease t sealOk rate width s
  | .configurationRequest t fn reg wr => Sys2Proof.Machine.execConfigurationRequest t fn reg wr s
  | .firmwareAuthenticate t => Sys2Proof.Machine.execFirmwareAuthenticate t s
  | .domeApply t absentPairs failedArrays failedChannels => Sys2Proof.Machine.execDomeApply t absentPairs failedArrays failedChannels s
  | .shortFieldTest t p failedArrays => Sys2Proof.Machine.execShortFieldTest t p failedArrays s
  | .finialReached t => Sys2Proof.Machine.execFinialReached t s
  | .railSample t rail dev => Sys2Proof.Machine.execRailSample t rail dev s
  | .thermalTrip t sensor => Sys2Proof.Machine.execThermalTrip t sensor s
  | .thermalThrottleSample t die celsius => Sys2Proof.Machine.execThermalThrottleSample t die celsius s
  | .capLoopSample t watts => Sys2Proof.Machine.execCapLoopSample t watts s
  | .clockAdjustStep t => Sys2Proof.Machine.execClockAdjustStep t s
  | .pwrCapWrite t who value => Sys2Proof.Machine.execPwrCapWrite t who value s
  | .adaptiveVoltageStep t g marginBelow marginNow => Sys2Proof.Machine.execAdaptiveVoltageStep t g marginBelow marginNow s
  | .droopDetect t g => Sys2Proof.Machine.execDroopDetect t g s
  | .tripClear t hottest => Sys2Proof.Machine.execTripClear t hottest s
  | .seqViolClear t => Sys2Proof.Machine.execSeqViolClear t s
  | .railFaultClear t => Sys2Proof.Machine.execRailFaultClear t s
  | .clockGateEntry t g => Sys2Proof.Machine.execClockGateEntry t g s
  | .powerGateEntry t g => Sys2Proof.Machine.execPowerGateEntry t g s
  | .wakeEvent t g ev => Sys2Proof.Machine.execWakeEvent t g ev s
  | .wakeStart t g => Sys2Proof.Machine.execWakeStart t g s
  | .wakeComplete t g => Sys2Proof.Machine.execWakeComplete t g s
  | .elementStart t pa cyc => Sys2Proof.Machine.execElementStart t pa cyc s
  | .feedReadReturn t pa n k outcome => Sys2Proof.Machine.execFeedReadReturn t pa n k outcome s
  | .shadowRowLoad t pa cyc => Sys2Proof.Machine.execShadowRowLoad t pa cyc s
  | .drainSlot t pa cyc corrected uncorrected => Sys2Proof.Machine.execDrainSlot t pa cyc corrected uncorrected s
  | .checksumColumnVerdict t pa cyc um ue => Sys2Proof.Machine.execChecksumColumnVerdict t pa cyc um ue s
  | .checksumRowVerdict t pa cyc upsets => Sys2Proof.Machine.execChecksumRowVerdict t pa cyc upsets s
  | .contributionArrive t src => Sys2Proof.Machine.execContributionArrive t src s
  | .heldContributionApply t p handle => Sys2Proof.Machine.execHeldContributionApply t p handle s
  | .contributionStall t p handle index stale => Sys2Proof.Machine.execContributionStall t p handle index stale s
  | .stairwaySlotWritten t g e => Sys2Proof.Machine.execStairwaySlotWritten t g e s
  | .stairwaySourceError t g e check => Sys2Proof.Machine.execStairwaySourceError t g e check s
  | .doorbellWrite t fn g c word => Sys2Proof.Machine.execDoorbellWrite t fn g c word s
  | .descriptorHead t g c => Sys2Proof.Machine.execDescriptorHead t g c s
  | .descriptorStart t g c => Sys2Proof.Machine.execDescriptorStart t g c s
  | .descriptorRetire t g c k => Sys2Proof.Machine.execDescriptorRetire t g c k s
  | .levelStart t g c => Sys2Proof.Machine.execLevelStart t g c s
  | .completionRecordWrite t g c k => Sys2Proof.Machine.execCompletionRecordWrite t g c k s
  | .bellRingArrive t p ks => Sys2Proof.Machine.execBellRingArrive t p ks s
  | .waitExpire t g c ks => Sys2Proof.Machine.execWaitExpire t g c ks s
  | .belRing t who p word => Sys2Proof.Machine.execBelRing t who p word s
  | .belSet t who p word => Sys2Proof.Machine.execBelSet t who p word s
  | .contextResume t g c => Sys2Proof.Machine.execContextResume t g c s
  | .contextRetry t g c => Sys2Proof.Machine.execContextRetry t g c s
  | .turretProgramEnd t g acts => Sys2Proof.Machine.execTurretProgramEnd t g acts s
  | .turretFault t g acts => Sys2Proof.Machine.execTurretFault t g acts s
  | .watchDeposit t g l upd wgt => Sys2Proof.Machine.execWatchDeposit t g l upd wgt s
  | .agFmtWrite t g n value => Sys2Proof.Machine.execAgFmtWrite t g n value s
  | .agNumAdvanceWrite t g step => Sys2Proof.Machine.execAgNumAdvanceWrite t g step s
  | .advanceRun t p => Sys2Proof.Machine.execAdvanceRun t p s
  | .pgmInval t word => Sys2Proof.Machine.execPgmInval t word s
  | .invalidationDone t => Sys2Proof.Machine.execInvalidationDone t s
  | .cowWriteHold t p unit addr bytes => Sys2Proof.Machine.execCowWriteHold t p unit addr bytes s
  | .cowCopyDone t vpn => Sys2Proof.Machine.execCowCopyDone t vpn s
  | .dramBurstCorrected t stack chan burst syms => Sys2Proof.Machine.execDramBurstCorrected t stack chan burst syms s
  | .dramBurstUncorrected t stack chan burst master scrub syms => Sys2Proof.Machine.execDramBurstUncorrected t stack chan burst master scrub syms s
  | .patrolScrub t stack chan burst syms => Sys2Proof.Machine.execPatrolScrub t stack chan burst syms s
  | .cupolaScrub t g off finding => Sys2Proof.Machine.execCupolaScrub t g off finding s
  | .cupolaReadError t g off master corrected partWrite => Sys2Proof.Machine.execCupolaReadError t g off master corrected partWrite s
  | .refreshSample t stack celsius => Sys2Proof.Machine.execRefreshSample t stack celsius s
  | .regulatorRefill t => Sys2Proof.Machine.execRegulatorRefill t s
  | .regulatorAdmit t p r unit bytes pool => Sys2Proof.Machine.execRegulatorAdmit t p r unit bytes pool s
  | .requestReachChannel t p r unit => Sys2Proof.Machine.execRequestReachChannel t p r unit s
  | .bfyCoreReset t n who => Sys2Proof.Machine.execBfyCoreReset t n who s
  | .belfryAccessFault t n addr len wr => Sys2Proof.Machine.execBelfryAccessFault t n addr len wr s
  | .belfryRegisterDenied t n reg k1 k2 write => Sys2Proof.Machine.execBelfryRegisterDenied t n reg k1 k2 write s
  | .machineCheck t n line corrected => Sys2Proof.Machine.execMachineCheck t n line corrected s
  | .ethernetFrameReceive t port mac vlan hash dma bytes corr unc => Sys2Proof.Machine.execEthernetFrameReceive t port mac vlan hash dma bytes corr unc s
  | .ldirDataRead t => Sys2Proof.Machine.execLdirDataRead t s
  | .flrVf t n => Sys2Proof.Machine.execFlrVf t n s
  | .flrPf0 t => Sys2Proof.Machine.execFlrPf0 t s
  | .hotReset t rate width => Sys2Proof.Machine.execHotReset t rate width s
  | .bar4Access t off len wr => Sys2Proof.Machine.execBar4Access t off len wr s
  | .vfBar2Access t n off len wr => Sys2Proof.Machine.execVfBar2Access t n off len wr s
  | .pldmRequest t ty cmd => Sys2Proof.Machine.execPldmRequest t ty cmd s
  | .dirRead t path off len => Sys2Proof.Machine.execDirRead t path off len s
  | .stageAndGuaranteeStatus t path => Sys2Proof.Machine.execStageAndGuaranteeStatus t path s
  | .unknownVendorCommand t path code => Sys2Proof.Machine.execUnknownVendorCommand t path code s
  | .openSession t h req => Sys2Proof.Machine.execOpenSession t h req s
  | .closeSession t h => Sys2Proof.Machine.execCloseSession t h s
  | .statusMsg t h => Sys2Proof.Machine.execStatusMsg t h s
  | .contextOpen t h req => Sys2Proof.Machine.execContextOpen t h req s
  | .contextClose t h g c => Sys2Proof.Machine.execContextClose t h g c s
  | .contextResync t h => Sys2Proof.Machine.execContextResync t h s
  | .windowSet t h pf0 p base => Sys2Proof.Machine.execWindowSet t h pf0 p base s
  | .holdRelease t h p => Sys2Proof.Machine.execHoldRelease t h p s
  | .partitionReset t h p dump => Sys2Proof.Machine.execPartitionReset t h p dump s
  | .imageWrite t h slot off bytes => Sys2Proof.Machine.execImageWrite t h slot off bytes s
  | .imageSelect t h slot => Sys2Proof.Machine.execImageSelect t h slot s
  | .patchApply t h p addr len => Sys2Proof.Machine.execPatchApply t h p addr len s
  | .fwWrite t h off bytes => Sys2Proof.Machine.execFwWrite t h off bytes s
  | .warmReset t h sealOk => Sys2Proof.Machine.execWarmReset t h sealOk s
  | .policySet t h policy => Sys2Proof.Machine.execPolicySet t h policy s
  | .heartbeat t m fn value => Sys2Proof.Machine.execHeartbeat t m fn value s
  | .heartbeatLapse t m => Sys2Proof.Machine.execHeartbeatLapse t m s
  | .absentSessionClose t m => Sys2Proof.Machine.execAbsentSessionClose t m s
  | .watchdogKick t who => Sys2Proof.Machine.execWatchdogKick t who s
  | .watchdogExpire t => Sys2Proof.Machine.execWatchdogExpire t s
  | .mgtRestartComplete t => Sys2Proof.Machine.execMgtRestartComplete t s
  | .frameReceive t port f crcOk => Sys2Proof.Machine.execFrameReceive t port f crcOk s
  | .nakReceive t port fseq => Sys2Proof.Machine.execNakReceive t port fseq s
  | .replayTimer t port => Sys2Proof.Machine.execReplayTimer t port s
  | .retrainComplete t port ok lanes free => Sys2Proof.Machine.execRetrainComplete t port ok lanes free s
  | .silenceTimeout t port => Sys2Proof.Machine.execSilenceTimeout t port s
  | .silentExpire t port => Sys2Proof.Machine.execSilentExpire t port s
  | .downTrainingAttempt t port => Sys2Proof.Machine.execDownTrainingAttempt t port s
  | .trainingComplete t port lanes free => Sys2Proof.Machine.execTrainingComplete t port lanes free s
  | .lightLoss t fibre => Sys2Proof.Machine.execLightLoss t fibre s
  | .opticalPowerSample t port powers light => Sys2Proof.Machine.execOpticalPowerSample t port powers light s
  | .censusSend t port => Sys2Proof.Machine.execCensusSend t port s
  | .census t port credits lastRx => Sys2Proof.Machine.execCensus t port credits lastRx s
  | .reconcile t port free => Sys2Proof.Machine.execReconcile t port free s
  | .helloSend t port => Sys2Proof.Machine.execHelloSend t port s
  | .hello t port h => Sys2Proof.Machine.execHello t port h s
  | .claim t port c => Sys2Proof.Machine.execClaim t port c s
  | .addressSettle t masterTime => Sys2Proof.Machine.execAddressSettle t masterTime s
  | .packetHeadRoute t k => Sys2Proof.Machine.execPacketHeadRoute t k s
  | .escapeTimeout t k => Sys2Proof.Machine.execEscapeTimeout t k s
  | .withdraw t port ds => Sys2Proof.Machine.execWithdraw t port ds s
  | .announce t port ds => Sys2Proof.Machine.execAnnounce t port ds s
  | .writePacket t k member => Sys2Proof.Machine.execWritePacket t k member s
  | .mgmtRsp t k => Sys2Proof.Machine.execMgmtRsp t k s
  | .fabIsolateWrite t who value => Sys2Proof.Machine.execFabIsolateWrite t who value s
  | .routeEntryWrite t who a value => Sys2Proof.Machine.execRouteEntryWrite t who a value s
  | .voteCast t who p value => Sys2Proof.Machine.execVoteCast t who p value s
  | .voteCastRelease t p => Sys2Proof.Machine.execVoteCastRelease t p s
  | .voteUp t port group step verdict count first => Sys2Proof.Machine.execVoteUp t port group step verdict count first s
  | .voteReport t n => Sys2Proof.Machine.execVoteReport t n s
  | .voteDown t port group step result count first => Sys2Proof.Machine.execVoteDown t port group step result count first s
  | .vgrpEnable t who n value => Sys2Proof.Machine.execVgrpEnable t who n value s
  | .timeExchange t port t1 t2 t3 t4 masters => Sys2Proof.Machine.execTimeExchange t port t1 t2 t3 t4 masters s
  | .masterLost t => Sys2Proof.Machine.execMasterLost t s
  | .peerQuerySend t => Sys2Proof.Machine.execPeerQuerySend t s
  | .peerQuery t port answer => Sys2Proof.Machine.execPeerQuery t port answer s
  | .slotStatus t src ep p r => Sys2Proof.Machine.execSlotStatus t src ep p r s
  | .slotOpen t src ep p r slot => Sys2Proof.Machine.execSlotOpen t src ep p r slot s
  | .slotSeal t src ep p r slot header => Sys2Proof.Machine.execSlotSeal t src ep p r slot header s
  | .slotSealCheckDone t p r slot => Sys2Proof.Machine.execSlotSealCheckDone t p r slot s
  | .serveDone t src ep p => Sys2Proof.Machine.execServeDone t src ep p s
  | .alertSample t equalPairs => Sys2Proof.Machine.execAlertSample t equalPairs s
  | .brokenPathClear t source => Sys2Proof.Machine.execBrokenPathClear t source s
  | .faultReport t => Sys2Proof.Machine.execFaultReport t s
  | .fcAck t value => Sys2Proof.Machine.execFcAck t value s
  | .pendingAutoClear t c sc => Sys2Proof.Machine.execPendingAutoClear t c sc s
  | .lockstepMismatch t => Sys2Proof.Machine.execLockstepMismatch t s
  | .logMirrorCopy t => Sys2Proof.Machine.execLogMirrorCopy t s
  | .flashHistoryWrite t => Sys2Proof.Machine.execFlashHistoryWrite t s
  | .faultRead t h seqFrom count => Sys2Proof.Machine.execFaultRead t h seqFrom count s
  | .faultAck t h classes scopes => Sys2Proof.Machine.execFaultAck t h classes scopes s
  | .faultHistory t h pos count => Sys2Proof.Machine.execFaultHistory t h pos count s
  | .faultFirst t h clear => Sys2Proof.Machine.execFaultFirst t h clear s
  | .echoCompare t g c k upset => Sys2Proof.Machine.execEchoCompare t g c k upset s
  | .echoAbandon t g c => Sys2Proof.Machine.execEchoAbandon t g c s
  | .galleryKnownAnswer t p passed => Sys2Proof.Machine.execGalleryKnownAnswer t p passed s
  | .samplingRateUpdate t p => Sys2Proof.Machine.execSamplingRateUpdate t p s
  | .marginSample t cause inst value => Sys2Proof.Machine.execMarginSample t cause inst value s
  | .galleryStatus t h => Sys2Proof.Machine.execGalleryStatus t h s
  | .campanileRun t h req => Sys2Proof.Machine.execCampanileRun t h req s
  | .campanileComplete t failed charged ranges => Sys2Proof.Machine.execCampanileComplete t failed charged ranges s
  | .campanileResult t h => Sys2Proof.Machine.execCampanileResult t h s
  | .bucketRead t h pa => Sys2Proof.Machine.execBucketRead t h pa s
  | .bucketClear t h pa => Sys2Proof.Machine.execBucketClear t h pa s
  | .warnSet t h cause value => Sys2Proof.Machine.execWarnSet t h cause value s
  | .ldgDbWrite t who p value => Sys2Proof.Machine.execLdgDbWrite t who p value s
  | .ledgerResume t who p => Sys2Proof.Machine.execLedgerResume t who p s
  | .ledgerSend t p => Sys2Proof.Machine.execLedgerSend t p s
  | .ledgerBatch t p => Sys2Proof.Machine.execLedgerBatch t p s
  | .ledgerResend t p => Sys2Proof.Machine.execLedgerResend t p s
  | .ledgerAppendWaitEnd t p => Sys2Proof.Machine.execLedgerAppendWaitEnd t p s
  | .ledgerCommand t h p cmd => Sys2Proof.Machine.execLedgerCommand t h p cmd s
  | .ledgerStatus t h => Sys2Proof.Machine.execLedgerStatus t h s
  | .inboxReceive t p => Sys2Proof.Machine.execInboxReceive t p s
  | .inboxRecheck t p => Sys2Proof.Machine.execInboxRecheck t p s
  | .ldgFloorWrite t who p value => Sys2Proof.Machine.execLdgFloorWrite t who p value s
  | .cutArm t p => Sys2Proof.Machine.execCutArm t p s
  | .intervalTrigger t p => Sys2Proof.Machine.execIntervalTrigger t p s
  | .snpTriggerNow t who p => Sys2Proof.Machine.execSnpTriggerNow t who p s
  | .drainPageSend t p => Sys2Proof.Machine.execDrainPageSend t p s
  | .slotStatusPoll t p r answer => Sys2Proof.Machine.execSlotStatusPoll t p r answer s
  | .snapNow t h p => Sys2Proof.Machine.execSnapNow t h p s
  | .snapStatus t h => Sys2Proof.Machine.execSnapStatus t h s
  | .snapServe t h req => Sys2Proof.Machine.execSnapServe t h req s
  | .restore t h req => Sys2Proof.Machine.execRestore t h req s
  | .restoreComplete t p => Sys2Proof.Machine.execRestoreComplete t p s
  | .manifestSign t h header entriesDigest => Sys2Proof.Machine.execManifestSign t h header entriesDigest s
  | .hangWatchdogExpire t p => Sys2Proof.Machine.execHangWatchdogExpire t p s
  | .hngReqReset t who p value => Sys2Proof.Machine.execHngReqReset t who p value s
  | .dumpUnitRead t p record => Sys2Proof.Machine.execDumpUnitRead t p record s
  | .dumpPortTimeout t p scan => Sys2Proof.Machine.execDumpPortTimeout t p scan s
  | .collectionLimit t p => Sys2Proof.Machine.execCollectionLimit t p s
  | .partitionResetBegin t p => Sys2Proof.Machine.execPartitionResetBegin t p s
  | .partitionResetComplete t p => Sys2Proof.Machine.execPartitionResetComplete t p s
  | .hangStatus t h => Sys2Proof.Machine.execHangStatus t h s
  | .dumpRead t h slot off len => Sys2Proof.Machine.execDumpRead t h slot off len s
  | .dumpRelease t h slot => Sys2Proof.Machine.execDumpRelease t h slot s
  | .watchdogSet t h p periodMs action dumpBits => Sys2Proof.Machine.execWatchdogSet t h p periodMs action dumpBits s
  | .getIdentity t path => Sys2Proof.Machine.execGetIdentity t path s
  | .getEvidence t path nonce => Sys2Proof.Machine.execGetEvidence t path nonce s
  | .getCounters t path => Sys2Proof.Machine.execGetCounters t path s
  | .counterCommit t h kind => Sys2Proof.Machine.execCounterCommit t h kind s
  | .ownerTransfer t h token => Sys2Proof.Machine.execOwnerTransfer t h token s
  | .debugUnlock t h token => Sys2Proof.Machine.execDebugUnlock t h token s
  | .debugLock t h => Sys2Proof.Machine.execDebugLock t h s
  | .rootRevoke t h record => Sys2Proof.Machine.execRootRevoke t h record s
  | .signatureTokenRefill t => Sys2Proof.Machine.execSignatureTokenRefill t s
  | .misalignedAccess t who reg k1 k2 write => Sys2Proof.Machine.execMisalignedAccess t who reg k1 k2 write s
  | .rcCounterRead t who reg k1 k2 event => Sys2Proof.Machine.execRcCounterRead t who reg k1 k2 event s
  | .registerWrite t who reg k1 k2 value setNow => Sys2Proof.Machine.execRegisterWrite t who reg k1 k2 value setNow s
  | .pageMapWrite t vpn entry => Sys2Proof.Machine.execPageMapWrite t vpn entry s
  | .ratingsBreach t q value => Sys2Proof.Machine.execRatingsBreach t q value s
  | .frameSend t port => Sys2Proof.Machine.execFrameSend t port s
  | .memoryReplyReturn t p gen id reject => Sys2Proof.Machine.execMemoryReplyReturn t p gen id reject s
  | .portTrainingTimeout t port => Sys2Proof.Machine.execPortTrainingTimeout t port s
  | .mctpControlMessage t code eid => Sys2Proof.Machine.execMctpControlMessage t code eid s
  | .i3cDynamicAddress t static addr => Sys2Proof.Machine.execI3cDynamicAddress t static addr s
  | .doeDiscovery t index => Sys2Proof.Machine.execDoeDiscovery t index s
  | .mailboxUnknownOpcode t h opcode => Sys2Proof.Machine.execMailboxUnknownOpcode t h opcode s
  | .mbxGoIgnored t m fn => Sys2Proof.Machine.execMbxGoIgnored t m fn s

end Sys2Proof.Machine
end

