-- ==== Sys2Proof/Machine/Step.lean ====
section
/-!
DEFINITION. Sys2Proof/Machine/Step.lean: one step of the block: the command at the front of the queue runs; an empty queue idles
(notes/assumptions/1.md).
-/

namespace Sys2Proof.Machine

/-- The state with another queue of waiting commands. -/
def State.withQueue (s : State) (q : List Instr) : State := { s with pending := q }

/-- One step: the front command is taken from the queue and run with the queue's rest. -/
def step (s : State) : Host.Outcome State Fault Refusal :=
  match s.pending with
  | [] => .next s
  | c :: rest => exec c (s.withQueue rest)

/-- The state with the command a word spells put at the front of the queue; unchanged where the word spells none. -/
def State.withFetchWord (s : State) (nbits w : Nat) : State :=
  match decodeTableWord nbits w with
  | some c => s.withQueue (c :: s.pending)
  | none => s

end Sys2Proof.Machine
end

