-- ==== Sys2Proof/WellFormed.lean ====
section
/-!
DEFINITION. Sys2Proof/WellFormed.lean: which commands are well formed: those that name units the 9T has (spec/00, *Instance names*). The operands'
other values are all commands the block can meet.
-/

namespace Sys2Proof

/-- Whether the 9T has instance `i`, `j` of a register. -/
def regInst (r : Reg) (i j : Nat) : Bool := decide (i < r.axes.1) && decide (j < r.axes.2.1)

/-- Whether the 9T has the register's window: each array group, array, slice and stack has one of its own, the others are always there. -/
def regWindow (r : Reg) (i : Nat) : Bool := decide (i < r.axes.1) || decide (r.axes.2.2 ∉ [InstUnit.group, .array, .slice, .stack])

/-- Whether a PCIe function has configuration registers: PF0 and VF 1 to 16. -/
def fnHas (fn : Fn) : Bool :=
  match fn with
  | .pf0 => true
  | .vf n => decide (1 ≤ n) && decide (n ≤ 16)
  | .bfy _ => false

/-- Whether a burst number names a 128-byte burst of a channel: 16 stacks of 64 channels of 1 GiB. -/
def burstAt (stack chan burst : Nat) : Bool := decide (stack < 16) && decide (chan < 64) && decide (burst < 2 ^ 23)

/-- Whether `u` numbers an instance of warning cause `cause` (R405): stacks, stacks, ports, fibres, groups, groups or stacks. -/
def warnUnit (cause u : Nat) : Bool := decide (u < ([16, 16, 32, 8, 16, 16, 16] : List Nat).getD cause 0)

/-- Whether a quantity of *Operating ratings* that the device measures has the number `q`. -/
def measured (q : Nat) : Bool :=
  decide (q < 3) || (decide (50 ≤ q) && decide (q < 60)) || (decide (100 ≤ q) && decide (q < 116)) || (decide (200 ≤ q) && decide (q < 208))
    || (decide (300 ≤ q) && decide (q < 332))

/-- Whether every unit a command names exists. -/
def wellFormed (c : Instr) : Bool :=
  match c with
  | .aux3v3Valid _ _ => true
  | .aux3v3Lost _ => true
  | .mainInValid _ => true
  | .mainInInvalid _ => true
  | .ana1v8Valid _ => true
  | .ana1v8Invalid _ => true
  | .perstAssert _ => true
  | .perstRelease _ _ _ _ => true
  | .configurationRequest _ fn _ _ => fnHas fn
  | .firmwareAuthenticate _ => true
  | .domeApply _ _ _ _ => true
  | .shortFieldTest _ _ _ => true
  | .finialReached _ => true
  | .railSample _ rail _ => decide (rail < 39)
  | .thermalTrip _ sensor => decide (sensor < 29)
  | .thermalThrottleSample _ die _ => decide (die < 10)
  | .capLoopSample _ _ => true
  | .clockAdjustStep _ => true
  | .pwrCapWrite _ _ _ => true
  | .adaptiveVoltageStep _ g _ _ => decide (g < 17)
  | .droopDetect _ g => decide (g < 17)
  | .tripClear _ _ => true
  | .seqViolClear _ => true
  | .railFaultClear _ => true
  | .clockGateEntry _ g => decide (g < 16)
  | .powerGateEntry _ g => decide (g < 16)
  | .wakeEvent _ g _ => decide (g < 16)
  | .wakeStart _ g => decide (g < 16)
  | .wakeComplete _ g => decide (g < 16)
  | .elementStart _ pa _ => decide (pa < 272)
  | .feedReadReturn _ pa _ k _ => decide (pa < 272) && decide (k < 1024)
  | .shadowRowLoad _ pa _ => decide (pa < 272)
  | .drainSlot _ pa _ _ _ => decide (pa < 272)
  | .checksumColumnVerdict _ pa _ _ _ => decide (pa < 272)
  | .checksumRowVerdict _ pa _ _ => decide (pa < 272)
  | .contributionArrive _ _ => true
  | .heldContributionApply _ p _ => decide (p < 16)
  | .contributionStall _ p _ _ _ => decide (p < 16)
  | .stairwaySlotWritten _ g e => decide (g < 16) && decide (e < 4)
  | .stairwaySourceError _ g e check => decide (g < 16) && decide (e < 4) && decide (check < 5)
  | .doorbellWrite _ _ g c _ => decide (g < 16) && decide (c < 8)
  | .descriptorHead _ g c => decide (g < 16) && decide (c < 8)
  | .descriptorStart _ g c => decide (g < 16) && decide (c < 8)
  | .descriptorRetire _ g c _ => decide (g < 16) && decide (c < 8)
  | .levelStart _ g c => decide (g < 16) && decide (c < 8)
  | .completionRecordWrite _ g c _ => decide (g < 16) && decide (c < 8)
  | .bellRingArrive _ p _ => decide (p < 16)
  | .waitExpire _ g c _ => decide (g < 16) && decide (c < 8)
  | .belRing _ _ p _ => decide (p < 16)
  | .belSet _ _ p _ => decide (p < 16)
  | .contextResume _ g c => decide (g < 16) && decide (c < 8)
  | .contextRetry _ g c => decide (g < 16) && decide (c < 8)
  | .turretProgramEnd _ g _ => decide (g < 16)
  | .turretFault _ g _ => decide (g < 16)
  | .watchDeposit _ g l _ _ => decide (g < 16) && decide (l < 1024)
  | .agFmtWrite _ g n _ => decide (g < 16) && decide (n < 16)
  | .agNumAdvanceWrite _ g _ => decide (g < 16)
  | .advanceRun _ p => decide (p < 16)
  | .pgmInval _ _ => true
  | .invalidationDone _ => true
  | .cowWriteHold _ _ _ _ _ => true
  | .cowCopyDone _ _ => true
  | .dramBurstCorrected _ stack chan burst syms => burstAt stack chan burst && syms.all (fun x => decide (x < 72))
  | .dramBurstUncorrected _ stack chan burst _ _ syms => burstAt stack chan burst && syms.all (fun x => decide (x < 72))
  | .patrolScrub _ stack chan burst syms => burstAt stack chan burst && syms.all (fun x => decide (x < 72))
  | .cupolaScrub _ g off _ => decide (g < 16) && decide (off < 384 * 2 ^ 20)
  | .cupolaReadError _ g off _ _ _ => decide (g < 16) && decide (off < 384 * 2 ^ 20)
  | .refreshSample _ stack _ => decide (stack < 16)
  | .regulatorRefill _ => true
  | .regulatorAdmit _ p r _ _ _ => decide (p < 16) && decide (r < 3)
  | .requestReachChannel _ p r _ => decide (p < 16) && decide (r < 3)
  | .bfyCoreReset _ n _ => decide (n < 48)
  | .belfryAccessFault _ n _ _ _ => decide (n < 48)
  | .belfryRegisterDenied _ n reg i j _ => decide (n < 48) && regInst reg i j
  | .machineCheck _ n _ _ => decide (n < 48)
  | .ethernetFrameReceive _ port _ _ _ _ _ _ _ => decide (port < 2)
  | .ldirDataRead _ => true
  | .flrVf _ n => decide (1 ≤ n) && decide (n ≤ 16)
  | .flrPf0 _ => true
  | .hotReset _ _ _ => true
  | .bar4Access _ _ _ _ => true
  | .vfBar2Access _ n _ _ _ => decide (1 ≤ n) && decide (n ≤ 16)
  | .pldmRequest _ _ _ => true
  | .dirRead _ path _ _ => (match path with | .mbx h => decide (h.m < 32) | _ => true)
  | .stageAndGuaranteeStatus _ _ => true
  | .unknownVendorCommand _ _ _ => true
  | .openSession _ h _ => decide (h.m < 32)
  | .closeSession _ h => decide (h.m < 32)
  | .statusMsg _ h => decide (h.m < 32)
  | .contextOpen _ h _ => decide (h.m < 32)
  | .contextClose _ h _ _ => decide (h.m < 32)
  | .contextResync _ h => decide (h.m < 32)
  | .windowSet _ h _ _ _ => decide (h.m < 32)
  | .holdRelease _ h _ => decide (h.m < 32)
  | .partitionReset _ h _ _ => decide (h.m < 32)
  | .imageWrite _ h _ _ _ => decide (h.m < 32)
  | .imageSelect _ h _ => decide (h.m < 32)
  | .patchApply _ h _ _ _ => decide (h.m < 32)
  | .fwWrite _ h _ _ => decide (h.m < 32)
  | .warmReset _ h _ => decide (h.m < 32)
  | .policySet _ h _ => decide (h.m < 32)
  | .heartbeat _ m _ _ => decide (m < 16)
  | .heartbeatLapse _ m => decide (m < 16)
  | .absentSessionClose _ m => decide (m < 16)
  | .watchdogKick _ _ => true
  | .watchdogExpire _ => true
  | .mgtRestartComplete _ => true
  | .frameReceive _ port _ _ => decide (port < 32)
  | .nakReceive _ port _ => decide (port < 32)
  | .replayTimer _ port => decide (port < 32)
  | .retrainComplete _ port _ _ _ => decide (port < 32)
  | .silenceTimeout _ port => decide (port < 32)
  | .silentExpire _ port => decide (port < 32)
  | .downTrainingAttempt _ port => decide (port < 32)
  | .trainingComplete _ port _ _ => decide (port < 32)
  | .lightLoss _ fibre => decide (fibre < 8)
  | .opticalPowerSample _ port _ _ => decide (port < 32)
  | .censusSend _ port => decide (port < 32)
  | .census _ port _ _ => decide (port < 32)
  | .reconcile _ port _ => decide (port < 32)
  | .helloSend _ port => decide (port < 32)
  | .hello _ port _ => decide (port < 32)
  | .claim _ port _ => decide (port < 32)
  | .addressSettle _ _ => true
  | .packetHeadRoute _ _ => true
  | .escapeTimeout _ _ => true
  | .withdraw _ port _ => decide (port < 32)
  | .announce _ port _ => decide (port < 32)
  | .writePacket _ _ _ => true
  | .mgmtRsp _ _ => true
  | .fabIsolateWrite _ _ _ => true
  | .routeEntryWrite _ _ a _ => decide (a < 65536)
  | .voteCast _ _ p _ => decide (p < 16)
  | .voteCastRelease _ p => decide (p < 16)
  | .voteUp _ port _ _ _ _ _ => decide (port < 32)
  | .voteReport _ n => decide (n < 16)
  | .voteDown _ port _ _ _ _ _ => decide (port < 32)
  | .vgrpEnable _ _ n _ => decide (n < 16)
  | .timeExchange _ port _ _ _ _ _ => decide (port < 32)
  | .masterLost _ => true
  | .peerQuerySend _ => true
  | .peerQuery _ port _ => decide (port < 32)
  | .slotStatus _ _ _ _ _ => true
  | .slotOpen _ _ _ _ _ _ => true
  | .slotSeal _ _ _ _ _ _ _ => true
  | .slotSealCheckDone _ _ _ _ => true
  | .serveDone _ _ _ _ => true
  | .alertSample _ equalPairs => equalPairs.all (fun m => decide (m < 128))
  | .brokenPathClear _ source => decide (source < 128)
  | .faultReport _ => true
  | .fcAck _ _ => true
  | .pendingAutoClear _ c sc => decide (c < 7) && decide (sc < 17)
  | .lockstepMismatch _ => true
  | .logMirrorCopy _ => true
  | .flashHistoryWrite _ => true
  | .faultRead _ h _ _ => decide (h.m < 32)
  | .faultAck _ h _ _ => decide (h.m < 32)
  | .faultHistory _ h _ _ => decide (h.m < 32)
  | .faultFirst _ h _ => decide (h.m < 32)
  | .echoCompare _ g c _ _ => decide (g < 16) && decide (c < 8)
  | .echoAbandon _ g c => decide (g < 16) && decide (c < 8)
  | .galleryKnownAnswer _ p _ => decide (p < 16)
  | .samplingRateUpdate _ p => decide (p < 16)
  | .marginSample _ cause inst _ => warnUnit cause inst
  | .galleryStatus _ h => decide (h.m < 32)
  | .campanileRun _ h _ => decide (h.m < 32)
  | .campanileComplete _ _ _ _ => true
  | .campanileResult _ h => decide (h.m < 32)
  | .bucketRead _ h _ => decide (h.m < 32)
  | .bucketClear _ h _ => decide (h.m < 32)
  | .warnSet _ h _ _ => decide (h.m < 32)
  | .ldgDbWrite _ _ p _ => decide (p < 16)
  | .ledgerResume _ _ p => decide (p < 16)
  | .ledgerSend _ p => decide (p < 16)
  | .ledgerBatch _ p => decide (p < 16)
  | .ledgerResend _ p => decide (p < 16)
  | .ledgerAppendWaitEnd _ p => decide (p < 16)
  | .ledgerCommand _ h _ _ => decide (h.m < 32)
  | .ledgerStatus _ h => decide (h.m < 32)
  | .inboxReceive _ p => decide (p < 16)
  | .inboxRecheck _ p => decide (p < 16)
  | .ldgFloorWrite _ _ p _ => decide (p < 16)
  | .cutArm _ p => decide (p < 16)
  | .intervalTrigger _ p => decide (p < 16)
  | .snpTriggerNow _ _ p => decide (p < 16)
  | .drainPageSend _ p => decide (p < 16)
  | .slotStatusPoll _ p _ _ => decide (p < 16)
  | .snapNow _ h _ => decide (h.m < 32)
  | .snapStatus _ h => decide (h.m < 32)
  | .snapServe _ h _ => decide (h.m < 32)
  | .restore _ h _ => decide (h.m < 32)
  | .restoreComplete _ p => decide (p < 16)
  | .manifestSign _ h _ _ => decide (h.m < 32)
  | .hangWatchdogExpire _ p => decide (p < 16)
  | .hngReqReset _ _ p _ => decide (p < 16)
  | .dumpUnitRead _ p _ => decide (p < 16)
  | .dumpPortTimeout _ p _ => decide (p < 16)
  | .collectionLimit _ p => decide (p < 16)
  | .partitionResetBegin _ p => decide (p < 16)
  | .partitionResetComplete _ p => decide (p < 16)
  | .hangStatus _ h => decide (h.m < 32)
  | .dumpRead _ h _ _ _ => decide (h.m < 32)
  | .dumpRelease _ h _ => decide (h.m < 32)
  | .watchdogSet _ h _ _ _ _ => decide (h.m < 32)
  | .getIdentity _ path => (match path with | .mbx h => decide (h.m < 32) | _ => true)
  | .getEvidence _ path _ => (match path with | .mbx h => decide (h.m < 32) | _ => true)
  | .getCounters _ path => (match path with | .mbx h => decide (h.m < 32) | _ => true)
  | .counterCommit _ h _ => decide (h.m < 32)
  | .ownerTransfer _ h _ => decide (h.m < 32)
  | .debugUnlock _ h _ => decide (h.m < 32)
  | .debugLock _ h => decide (h.m < 32)
  | .rootRevoke _ h _ => decide (h.m < 32)
  | .signatureTokenRefill _ => true
  | .misalignedAccess _ _ reg i _ _ => regWindow reg i
  | .rcCounterRead _ _ reg i _ _ => regWindow reg i
  | .registerWrite _ _ reg i _ _ _ => regWindow reg i
  | .pageMapWrite _ vpn _ => decide (vpn < 2 ^ 24)
  | .ratingsBreach _ q _ => measured q
  | .frameSend _ port => decide (port < 32)
  | .memoryReplyReturn _ p _ _ _ => decide (p < 16)
  | .portTrainingTimeout _ port => decide (port < 32)
  | .mctpControlMessage _ _ _ => true
  | .i3cDynamicAddress _ _ _ => true
  | .doeDiscovery _ _ => true
  | .mailboxUnknownOpcode _ h _ => decide (h.m < 32)
  | .mbxGoIgnored _ m _ => decide (m < 32)

end Sys2Proof
end

