-- ==== Sys2Proof/Safety.lean ====
section
/-!
DEFINITION. Sys2Proof/Safety.lean: what counts as a safe run, in the terms the statements use.
-/

namespace Sys2Proof.Machine

/-- The invariant of the device's memory: its cells stand in canonical form. -/
def State.Inv (s : State) : Prop := Memory.wf s.mem = true

/-- Every waiting command names units that exist. -/
def State.queueOk (s : State) : Bool := s.pending.all wellFormed

/-- An outcome with a next state. -/
def goesOn (o : Out) : Bool :=
  match o with
  | .next _ => true
  | .fault _ => false
  | .refused _ => false

/-- A run of `k` steps in which every step has a next state. -/
def safeRun : Nat → State → Bool
  | 0, _ => true
  | k + 1, s =>
    match step s with
    | .next s' => safeRun k s'
    | .fault _ => false
    | .refused _ => false


/-! ### Frames: what a command leaves as it was -/

/-- The key of field `f` of instance `i`, `j` of its register. -/
def fkey (f : Fld) (i : Nat := 0) (j : Nat := 0) : FKey := ⟨f.reg, i, j, f.lsb⟩

/-- Every register field reads as before but the fields listed. -/
def sameBut (l : List FKey) (s s' : State) : Prop := ∀ (f : Fld) (i j : Nat), fkey f i j ∉ l → s'.rd f i j = s.rd f i j

/-- Every field of every register but the registers listed reads as before. -/
def sameRegsBut (l : List Reg) (s s' : State) : Prop := ∀ (f : Fld) (i j : Nat), f.reg ∉ l → s'.rd f i j = s.rd f i j

/-- Every byte of memory reads as before. -/
def sameMem (s s' : State) : Prop := ∀ a, s'.rdByte a = s.rdByte a

/-- The value of a counter field after `n` events on `v`: it saturates (R8). -/
def counted (f : Fld) (v n : Nat) : Nat := min (v + n) (2 ^ f.width - 1)

/-- What a report raised at its source leaves of the fault collector and the report ports (R367), at the later of `t` and the time of `s`. -/
def reported (s : State) (t : Nat) (r : Report) : FaultSt := ((s.tick t).raise r).fc

/-- Commands that may store to memory, or lose what memory holds: a register access or a wake may release posted writes held before it. Every other
command leaves each byte as it was. -/
def stores (c : Instr) : Bool :=
  match c with
  | .aux3v3Lost _ => true
  | .mainInValid _ => true
  | .mainInInvalid _ => true
  | .ana1v8Invalid _ => true
  | .perstAssert _ => true
  | .domeApply _ _ _ _ => true
  | .railSample _ _ _ => true
  | .thermalTrip _ _ => true
  | .drainSlot _ _ _ _ _ => true
  | .contributionArrive _ _ => true
  | .heldContributionApply _ _ _ => true
  | .contributionStall _ _ _ _ _ => true
  | .stairwaySlotWritten _ _ _ => true
  | .stairwaySourceError _ _ _ _ => true
  | .descriptorStart _ _ _ => true
  | .descriptorRetire _ _ _ _ => true
  | .completionRecordWrite _ _ _ _ => true
  | .turretProgramEnd _ _ _ => true
  | .watchDeposit _ _ _ _ _ => true
  | .advanceRun _ _ => true
  | .cowWriteHold _ _ _ _ _ => true
  | .cowCopyDone _ _ => true
  | .ethernetFrameReceive _ _ _ _ _ _ _ _ _ => true
  | .bar4Access _ _ _ _ => true
  | .vfBar2Access _ _ _ _ _ => true
  | .warmReset _ _ _ => true
  | .mgtRestartComplete _ => true
  | .writePacket _ _ _ => true
  | .slotSealCheckDone _ _ _ _ => true
  | .logMirrorCopy _ => true
  | .echoAbandon _ _ _ => true
  | .ledgerSend _ _ => true
  | .ledgerBatch _ _ => true
  | .ledgerAppendWaitEnd _ _ => true
  | .inboxReceive _ _ => true
  | .inboxRecheck _ _ => true
  | .cutArm _ _ => true
  | .restoreComplete _ _ => true
  | .dumpUnitRead _ _ _ => true
  | .dumpPortTimeout _ _ _ => true
  | .collectionLimit _ _ => true
  | .partitionResetBegin _ _ => true
  | .pageMapWrite _ _ _ => true
  | .descriptorHead _ _ _ => true
  | .turretFault _ _ _ => true
  | .bfyCoreReset _ _ _ => true
  | .belfryAccessFault _ _ _ _ _ => true
  | .machineCheck _ _ _ _ => true
  | .registerWrite _ _ _ _ _ _ _ => true
  | .rcCounterRead _ _ _ _ _ _ => true
  | .wakeEvent _ _ _ => true
  | .wakeComplete _ _ => true
  | .partitionResetComplete _ _ => true
  | _ => false

/-- Conservation of a regulator's tokens (R233). -/
def balanced (s : State) (p r : Nat) : Prop :=
  s.rd F.BWG_ISSUED_ISSUED p r
    = s.rd F.BWG_STATE_LEVEL p r + s.rd F.BWG_STATE_HELD p r + s.rd F.BWG_SPENT_SPENT p r + s.rd F.BWG_CLIPPED_CLIPPED p r

/-- Tokens asked by the requests that wait at a regulator. -/
def waitingTokens (s : State) (p r : Nat) : Nat :=
  ((s.memx.regWait.filter (fun q => decide (q.p = p) && decide (q.r = r))).map (fun q => q.need)).sum

/-- A regulator's level, depth and held tokens, with `more` further tokens asked, and one more refill fit their fields. -/
def tokensFit (s : State) (p r more : Nat) : Prop :=
  s.rd F.BWG_STATE_LEVEL p r < 2 ^ 23 ∧ s.rd F.BWG_CFG_DEPTH p r < 2 ^ 22 ∧
    s.rd F.BWG_STATE_HELD p r + waitingTokens s p r + more < 2 ^ 22 ∧ s.rd F.BWG_ISSUED_ISSUED p r + s.rd F.BWG_CFG_RATE p r < 2 ^ 64

/-- No posted write waits behind a memory write of its sender. -/
def nonePosted (s : State) : Prop := ∀ e, e ∈ s.pwr.held → e.1 ≠ 16

/-- Every array group whose window holds the register runs. -/
def ownerRuns (s : State) (reg : Reg) (i : Nat) : Prop := ∀ g, agOf reg i = some g → s.rd F.CLK_AG_STATE g = 0

/-- Registers on which a write has an effect of its own besides R7. -/
def specialRegs : List Reg :=
  [.FC_REC, .LDIR_TABLE, .AG_FMT, .AG_NUM_ADVANCE, .AG_CTX, .BEL_RING, .BEL_SET, .PGM_INVAL, .PWR_CAP, .PWR_STATUS, .PCI_DB, .MGT_BFY_CORE,
   .MGT_WDOG, .MBX_HEARTBEAT, .FAB_ROUTE, .FAB_ISOLATE, .FAB_VGRP, .FAB_VCAST, .HNG_REQ, .FC_ACK, .LDG_DB, .LDG_FLOOR, .SNP_TRIGGER, .GAL_GOAL]

/-- Memory keys an access of `n` bytes from device address `a` through cache `cache` reaches. -/
def accessKeys (s : State) (cache a n : Nat) : List Nat := (List.range n).map (fun k => s.keyOf cache (a + k))

/-- Memory keys of the page-map entries of the pages that `n` bytes from `a` touch. -/
def entryKeys (a n : Nat) : List Nat := (pagesOf a n).flatMap (fun v => (List.range 8).map (fun k => 8 * v + k))

/-- The device time a command carries. -/
def cmdTime (c : Instr) : Nat :=
  match c with
  | .aux3v3Valid t _ => t
  | .aux3v3Lost t => t
  | .mainInValid t => t
  | .mainInInvalid t => t
  | .ana1v8Valid t => t
  | .ana1v8Invalid t => t
  | .perstAssert t => t
  | .perstRelease t _ _ _ => t
  | .configurationRequest t _ _ _ => t
  | .firmwareAuthenticate t => t
  | .domeApply t _ _ _ => t
  | .shortFieldTest t _ _ => t
  | .finialReached t => t
  | .railSample t _ _ => t
  | .thermalTrip t _ => t
  | .thermalThrottleSample t _ _ => t
  | .capLoopSample t _ => t
  | .clockAdjustStep t => t
  | .pwrCapWrite t _ _ => t
  | .adaptiveVoltageStep t _ _ _ => t
  | .droopDetect t _ => t
  | .tripClear t _ => t
  | .seqViolClear t => t
  | .railFaultClear t => t
  | .clockGateEntry t _ => t
  | .powerGateEntry t _ => t
  | .wakeEvent t _ _ => t
  | .wakeStart t _ => t
  | .wakeComplete t _ => t
  | .elementStart t _ _ => t
  | .feedReadReturn t _ _ _ _ => t
  | .shadowRowLoad t _ _ => t
  | .drainSlot t _ _ _ _ => t
  | .checksumColumnVerdict t _ _ _ _ => t
  | .checksumRowVerdict t _ _ _ => t
  | .contributionArrive t _ => t
  | .heldContributionApply t _ _ => t
  | .contributionStall t _ _ _ _ => t
  | .stairwaySlotWritten t _ _ => t
  | .stairwaySourceError t _ _ _ => t
  | .doorbellWrite t _ _ _ _ => t
  | .descriptorHead t _ _ => t
  | .descriptorStart t _ _ => t
  | .descriptorRetire t _ _ _ => t
  | .levelStart t _ _ => t
  | .completionRecordWrite t _ _ _ => t
  | .bellRingArrive t _ _ => t
  | .waitExpire t _ _ _ => t
  | .belRing t _ _ _ => t
  | .belSet t _ _ _ => t
  | .contextResume t _ _ => t
  | .contextRetry t _ _ => t
  | .turretProgramEnd t _ _ => t
  | .turretFault t _ _ => t
  | .watchDeposit t _ _ _ _ => t
  | .agFmtWrite t _ _ _ => t
  | .agNumAdvanceWrite t _ _ => t
  | .advanceRun t _ => t
  | .pgmInval t _ => t
  | .invalidationDone t => t
  | .cowWriteHold t _ _ _ _ => t
  | .cowCopyDone t _ => t
  | .dramBurstCorrected t _ _ _ _ => t
  | .dramBurstUncorrected t _ _ _ _ _ _ => t
  | .patrolScrub t _ _ _ _ => t
  | .cupolaScrub t _ _ _ => t
  | .cupolaReadError t _ _ _ _ _ => t
  | .refreshSample t _ _ => t
  | .regulatorRefill t => t
  | .regulatorAdmit t _ _ _ _ _ => t
  | .requestReachChannel t _ _ _ => t
  | .bfyCoreReset t _ _ => t
  | .belfryAccessFault t _ _ _ _ => t
  | .belfryRegisterDenied t _ _ _ _ _ => t
  | .machineCheck t _ _ _ => t
  | .ethernetFrameReceive t _ _ _ _ _ _ _ _ => t
  | .ldirDataRead t => t
  | .flrVf t _ => t
  | .flrPf0 t => t
  | .hotReset t _ _ => t
  | .bar4Access t _ _ _ => t
  | .vfBar2Access t _ _ _ _ => t
  | .pldmRequest t _ _ => t
  | .dirRead t _ _ _ => t
  | .stageAndGuaranteeStatus t _ => t
  | .unknownVendorCommand t _ _ => t
  | .openSession t _ _ => t
  | .closeSession t _ => t
  | .statusMsg t _ => t
  | .contextOpen t _ _ => t
  | .contextClose t _ _ _ => t
  | .contextResync t _ => t
  | .windowSet t _ _ _ _ => t
  | .holdRelease t _ _ => t
  | .partitionReset t _ _ _ => t
  | .imageWrite t _ _ _ _ => t
  | .imageSelect t _ _ => t
  | .patchApply t _ _ _ _ => t
  | .fwWrite t _ _ _ => t
  | .warmReset t _ _ => t
  | .policySet t _ _ => t
  | .heartbeat t _ _ _ => t
  | .heartbeatLapse t _ => t
  | .absentSessionClose t _ => t
  | .watchdogKick t _ => t
  | .watchdogExpire t => t
  | .mgtRestartComplete t => t
  | .frameReceive t _ _ _ => t
  | .nakReceive t _ _ => t
  | .replayTimer t _ => t
  | .retrainComplete t _ _ _ _ => t
  | .silenceTimeout t _ => t
  | .silentExpire t _ => t
  | .downTrainingAttempt t _ => t
  | .trainingComplete t _ _ _ => t
  | .lightLoss t _ => t
  | .opticalPowerSample t _ _ _ => t
  | .censusSend t _ => t
  | .census t _ _ _ => t
  | .reconcile t _ _ => t
  | .helloSend t _ => t
  | .hello t _ _ => t
  | .claim t _ _ => t
  | .addressSettle t _ => t
  | .packetHeadRoute t _ => t
  | .escapeTimeout t _ => t
  | .withdraw t _ _ => t
  | .announce t _ _ => t
  | .writePacket t _ _ => t
  | .mgmtRsp t _ => t
  | .fabIsolateWrite t _ _ => t
  | .routeEntryWrite t _ _ _ => t
  | .voteCast t _ _ _ => t
  | .voteCastRelease t _ => t
  | .voteUp t _ _ _ _ _ _ => t
  | .voteReport t _ => t
  | .voteDown t _ _ _ _ _ _ => t
  | .vgrpEnable t _ _ _ => t
  | .timeExchange t _ _ _ _ _ _ => t
  | .masterLost t => t
  | .peerQuerySend t => t
  | .peerQuery t _ _ => t
  | .slotStatus t _ _ _ _ => t
  | .slotOpen t _ _ _ _ _ => t
  | .slotSeal t _ _ _ _ _ _ => t
  | .slotSealCheckDone t _ _ _ => t
  | .serveDone t _ _ _ => t
  | .alertSample t _ => t
  | .brokenPathClear t _ => t
  | .faultReport t => t
  | .fcAck t _ => t
  | .pendingAutoClear t _ _ => t
  | .lockstepMismatch t => t
  | .logMirrorCopy t => t
  | .flashHistoryWrite t => t
  | .faultRead t _ _ _ => t
  | .faultAck t _ _ _ => t
  | .faultHistory t _ _ _ => t
  | .faultFirst t _ _ => t
  | .echoCompare t _ _ _ _ => t
  | .echoAbandon t _ _ => t
  | .galleryKnownAnswer t _ _ => t
  | .samplingRateUpdate t _ => t
  | .marginSample t _ _ _ => t
  | .galleryStatus t _ => t
  | .campanileRun t _ _ => t
  | .campanileComplete t _ _ _ => t
  | .campanileResult t _ => t
  | .bucketRead t _ _ => t
  | .bucketClear t _ _ => t
  | .warnSet t _ _ _ => t
  | .ldgDbWrite t _ _ _ => t
  | .ledgerResume t _ _ => t
  | .ledgerSend t _ => t
  | .ledgerBatch t _ => t
  | .ledgerResend t _ => t
  | .ledgerAppendWaitEnd t _ => t
  | .ledgerCommand t _ _ _ => t
  | .ledgerStatus t _ => t
  | .inboxReceive t _ => t
  | .inboxRecheck t _ => t
  | .ldgFloorWrite t _ _ _ => t
  | .cutArm t _ => t
  | .intervalTrigger t _ => t
  | .snpTriggerNow t _ _ => t
  | .drainPageSend t _ => t
  | .slotStatusPoll t _ _ _ => t
  | .snapNow t _ _ => t
  | .snapStatus t _ => t
  | .snapServe t _ _ => t
  | .restore t _ _ => t
  | .restoreComplete t _ => t
  | .manifestSign t _ _ _ => t
  | .hangWatchdogExpire t _ => t
  | .hngReqReset t _ _ _ => t
  | .dumpUnitRead t _ _ => t
  | .dumpPortTimeout t _ _ => t
  | .collectionLimit t _ => t
  | .partitionResetBegin t _ => t
  | .partitionResetComplete t _ => t
  | .hangStatus t _ => t
  | .dumpRead t _ _ _ _ => t
  | .dumpRelease t _ _ => t
  | .watchdogSet t _ _ _ _ _ => t
  | .getIdentity t _ => t
  | .getEvidence t _ _ => t
  | .getCounters t _ => t
  | .counterCommit t _ _ => t
  | .ownerTransfer t _ _ => t
  | .debugUnlock t _ _ => t
  | .debugLock t _ => t
  | .rootRevoke t _ _ => t
  | .signatureTokenRefill t => t
  | .misalignedAccess t _ _ _ _ _ => t
  | .rcCounterRead t _ _ _ _ _ => t
  | .registerWrite t _ _ _ _ _ _ => t
  | .pageMapWrite t _ _ => t
  | .ratingsBreach t _ _ => t
  | .frameSend t _ => t
  | .memoryReplyReturn t _ _ _ _ => t
  | .portTrainingTimeout t _ => t
  | .mctpControlMessage t _ _ => t
  | .i3cDynamicAddress t _ _ => t
  | .doeDiscovery t _ => t
  | .mailboxUnknownOpcode t _ _ => t
  | .mbxGoIgnored t _ _ => t

/-- The header of a request that comes by a mailbox. -/
def mbxHdrOf (c : Instr) : Option MbxHdr :=
  match c with
  | .dirRead _ (.mbx h) _ _ => some h
  | .openSession _ h _ => some h
  | .closeSession _ h => some h
  | .statusMsg _ h => some h
  | .contextOpen _ h _ => some h
  | .contextClose _ h _ _ => some h
  | .contextResync _ h => some h
  | .windowSet _ h _ _ _ => some h
  | .holdRelease _ h _ => some h
  | .partitionReset _ h _ _ => some h
  | .imageWrite _ h _ _ _ => some h
  | .imageSelect _ h _ => some h
  | .patchApply _ h _ _ _ => some h
  | .fwWrite _ h _ _ => some h
  | .warmReset _ h _ => some h
  | .policySet _ h _ => some h
  | .faultRead _ h _ _ => some h
  | .faultAck _ h _ _ => some h
  | .faultHistory _ h _ _ => some h
  | .faultFirst _ h _ => some h
  | .galleryStatus _ h => some h
  | .campanileRun _ h _ => some h
  | .campanileResult _ h => some h
  | .bucketRead _ h _ => some h
  | .bucketClear _ h _ => some h
  | .warnSet _ h _ _ => some h
  | .ledgerCommand _ h _ _ => some h
  | .ledgerStatus _ h => some h
  | .snapNow _ h _ => some h
  | .snapStatus _ h => some h
  | .snapServe _ h _ => some h
  | .restore _ h _ => some h
  | .manifestSign _ h _ _ => some h
  | .hangStatus _ h => some h
  | .dumpRead _ h _ _ _ => some h
  | .dumpRelease _ h _ => some h
  | .watchdogSet _ h _ _ _ _ => some h
  | .getIdentity _ (.mbx h) => some h
  | .getEvidence _ (.mbx h) _ => some h
  | .getCounters _ (.mbx h) => some h
  | .counterCommit _ h _ => some h
  | .ownerTransfer _ h _ => some h
  | .debugUnlock _ h _ => some h
  | .debugLock _ h => some h
  | .rootRevoke _ h _ => some h
  | .mailboxUnknownOpcode _ h _ => some h
  | _ => none

/-- A mailbox takes a request: firmware runs, its function may write GO, and it is not BUSY (R314, R324). -/
def takes (s : State) (h : MbxHdr) : Prop :=
  h.m < 32 ∧ s.sec.fw.isSome = true ∧ s.host.fwDead = false ∧ s.mayGo h.fn h.m = true ∧ s.on F.MBX_STATUS_BUSY h.m = false ∧
    s.on F.AON_STAGE_MGT_RESTART = false

/-- The response buffer of a request's mailbox holds a response with this status and payload, and DONE reads 1 (R314, R315). -/
def answered (s' : State) (h : MbxHdr) (status : Nat) (data : Bytes) : Prop :=
  aget s'.host.resps h.m = some { status := status, seq := h.seq, session := h.session, data := data } ∧
    s'.rd F.MBX_STATUS_DONE h.m = 1 ∧ s'.rd F.MBX_STATUS_BUSY h.m = 0

end Sys2Proof.Machine
end

