-- ==== Sys2Proof/Certificates/Slice0/Obligations.lean ====
section
/-!
DEFINITION. Sys2Proof/Certificates/Slice0/Obligations.lean: the statements about the model. A statement gives, for every state and every operands
that meet its hypotheses, the next state that exec answers, by what its registers and other parts hold; `s.now` and `t` are the device times
before and of the command. Register fields are read with State.rd, memory one byte at a time with State.rdByte.
-/

open Sys2Proof Sys2Proof.Machine

/-- A step runs the front command. For every command c and state s, a step of s with c at the front of its queue is exec of c on s with the
queue's rest, and an empty queue idles (the model's choice, notes/assumptions/1.md). (00_scope.md) -/
def Obligations.StepRunsFront : Prop :=
  (∀ (c : Instr) (rest : List Instr) (s : State), step (s.withQueue (c :: rest)) = exec c (s.withQueue rest)) ∧
  (∀ s : State, step (s.withQueue []) = .next (s.withQueue []))

/-- A command completes exactly when the units it names exist. exec answers a next state for every command whose units exist and in every
state; a command that names a unit the 9T does not have ends in the fault noSuchInstance; no command is refused. (00_scope.md) -/
def Obligations.CompletesIffUnitsExist : Prop :=
  ∀ (c : Instr) (s : State),
    (wellFormed c = true → ∃ s', exec c s = .next s') ∧ (wellFormed c = false → exec c s = .fault .noSuchInstance)

/-- Only the step takes commands from the queue, and time never runs back after admission. A command leaves the queue as it was, so a step
with a next state leaves exactly the queue's rest, in order, whatever the command was. Every command leaves the device time at the later of
the time before and its own, but the one that admits the device to the fabric with the master's time: that one leaves the master's time
where it settles the address. So time never runs back but at admission. (R363, 00_scope.md) -/
def Obligations.QueueIsFifo : Prop :=
  (∀ s s' : State, step s = .next s' → s'.pending = s.pending.tail ∧
    ((∀ t m, s.pending.head? ≠ some (.addressSettle t (some m))) → s.now ≤ s'.now)) ∧
  (∀ (c : Instr) (s s' : State), exec c s = .next s' → s'.pending = s.pending ∧
    (match c with
     | .addressSettle t (some m) => s'.now = m ∨ s'.now = max s.now t
     | c => s'.now = max s.now (cmdTime c)))

/-- Every step keeps memory in canonical form. From every state whose memory cells rise strictly and list no byte 0, every step with a next
state leaves memory in that form, so equal memories are equal data. (09_memory.md) -/
def Obligations.MemoryStaysCanonical : Prop := ∀ s s' : State, s.Inv → step s = .next s' → s'.Inv

/-- The state after reset. After reset memory is canonical and reads 0, the queue is empty, every register field reads its reset value (a
value the manual does not give is the model's choice, notes/assumptions/3.md), no job runs, no context is open, and the four dump slots are
empty. (R9, R7, notes/assumptions/3.md) -/
def Obligations.ResetState : Prop :=
  State.reset.Inv ∧ State.reset.pending = [] ∧ (∀ a, State.reset.rdByte a = 0) ∧
  (∀ (f : Fld) (i j : Nat), State.reset.rd f i j = f.rst) ∧ State.reset.rd F.SPR_CREDIT_FREE 271 = 288 ∧
  State.reset.rd F.PGM_INVAL_DONE = 1 ∧ State.reset.rd F.PWR_CAP_THROTTLE_C = 105 ∧
  State.reset.jobs = [] ∧ State.reset.ctxs = [] ∧ State.reset.dumps = [{}, {}, {}, {}]

/-- Commands that store nothing leave every byte of memory as it was. For every command but those listed in stores, a next state reads every
byte of memory as before. (09_memory.md) -/
def Obligations.MemoryFrame : Prop :=
  ∀ (c : Instr) (s s' : State), stores c = false → exec c s = .next s' → sameMem s s'

/-- The supplies start the converters in sequence. AUX_3V3 valid starts Footing with supervision and the sideband up; the last of the three
supplies to become valid turns the converters on where no latch holds them; MAIN_IN valid before ANA_1V8, or ANA_1V8 lost under MAIN_IN, is
a sequencing violation that sets SEQ_VIOL with the converters off and HOLD_REASON 2; a loss of MAIN_IN turns the converters off and every
byte of memory is lost. (R279, R280, R281, R294) -/
def Obligations.SuppliesStartConverters : Prop :=
  (∀ (s : State) (t : Nat) (b : Bool), s.on F.PWR_STATUS_AUX_VALID = false →
    ∃ s', exec (.aux3v3Valid t b) s = .next s' ∧ s'.rd F.PWR_STATUS_AUX_VALID = 1 ∧ s'.rd F.AON_STAGE_SUPERVISION = 1 ∧
      s'.rd F.AON_STAGE_SIDEBAND = 1 ∧ s'.rd F.AON_STAGE_STAGE = 1 ∧ s'.on F.SEC_STATUS_ID_VALID = b ∧ s'.rd F.SEC_SIGIDX_TOKENS = 32) ∧
  (∀ (s : State) (t : Nat), s.pwr.main = false → s.pwr.ana = true → s.on F.PWR_STATUS_AUX_VALID = true → s.latched = false →
    s.on F.PWR_STATUS_CONV_ON = false →
    ∃ s', exec (.mainInValid t) s = .next s' ∧ s'.rd F.PWR_STATUS_MAIN_VALID = 1 ∧ s'.rd F.PWR_STATUS_CONV_ON = 1 ∧
      s'.rd F.AON_STAGE_HOLD_REASON = 0 ∧ s'.pwr.main = true ∧ s'.pwr.t0 = max s.now t ∧ sameMem s s') ∧
  (∀ (s : State) (t : Nat), s.pwr.main = false → s.pwr.ana = false → s.on F.PWR_STATUS_AUX_VALID = true →
    ∃ s', exec (.mainInValid t) s = .next s' ∧ s'.rd F.PWR_STATUS_SEQ_VIOL = 1 ∧ s'.rd F.PWR_STATUS_CONV_ON = 0 ∧
      s'.rd F.AON_STAGE_HOLD_REASON = 2) ∧
  (∀ (s : State) (t : Nat), s.on F.PWR_STATUS_AUX_VALID = true → s.pwr.main = true → s.latched = false →
    s.on F.PWR_STATUS_CONV_ON = false →
    ∃ s', exec (.ana1v8Valid t) s = .next s' ∧ s'.rd F.PWR_STATUS_ANA_VALID = 1 ∧ s'.rd F.PWR_STATUS_CONV_ON = 1 ∧
      s'.pwr.ana = true ∧ sameMem s s') ∧
  (∀ (s : State) (t : Nat), s.on F.PWR_STATUS_AUX_VALID = true → s.pwr.main = true →
    ∃ s', exec (.ana1v8Invalid t) s = .next s' ∧ s'.rd F.PWR_STATUS_SEQ_VIOL = 1 ∧ s'.rd F.PWR_STATUS_CONV_ON = 0 ∧
      s'.rd F.PWR_STATUS_ANA_VALID = 0 ∧ s'.pwr.ana = false) ∧
  (∀ (s : State) (t : Nat), s.on F.PWR_STATUS_CONV_ON = true →
    ∃ s', exec (.mainInInvalid t) s = .next s' ∧ s'.rd F.PWR_STATUS_MAIN_VALID = 0 ∧ s'.rd F.PWR_STATUS_CONV_ON = 0 ∧
      s'.pwr.main = false ∧ (∀ a, a < 2 ^ 60 → s'.rdByte a = 0) ∧ s'.jobs = [] ∧ s'.ctxs = [] ∧ s'.sec.flash = s.sec.flash)

/-- What a loss of AUX_3V3 and an assertion of PERST# leave. A loss of AUX_3V3 returns every register field to its reset value and empties
memory, and the flash stays. PERST# is a warm device reset: every DEV, MGT and PART register outside HNG_STATUS, SEC_STATUS, AON_STAGE and
PWR_STATUS reads its reset value, every AON register outside those four is unchanged, the device stands at Footing, debug scopes lock, the
converters stay as they were, the 512 MiB keep region keeps its bytes and every other memory byte is lost. (R9, R235, R305, R461, R477) -/
def Obligations.ResetDomains : Prop :=
  (∀ (s : State) (t : Nat), s.on F.PWR_STATUS_AUX_VALID = true →
    ∃ s', exec (.aux3v3Lost t) s = .next s' ∧ (∀ (f : Fld) (i j : Nat), s'.rd f i j = f.rst) ∧ (∀ a, s'.rdByte a = 0) ∧
      s'.sec.flash = s.sec.flash ∧ s'.fc.hist = s.fc.hist ∧ s'.pending = s.pending) ∧
  (∀ (s : State) (t : Nat), s.on F.PWR_STATUS_AUX_VALID = true →
    ∃ s', exec (.perstAssert t) s = .next s' ∧ s'.pwr.perst = true ∧ s'.rd F.AON_STAGE_STAGE = 1 ∧
      s'.rd F.SEC_STATUS_DEBUG_SCOPE = 0 ∧ s'.on F.PWR_STATUS_CONV_ON = s.on F.PWR_STATUS_CONV_ON ∧
      (∀ (f : Fld) (i j : Nat), f.reg.domain ≠ .AON → f.reg ∉ [.HNG_STATUS, .SEC_STATUS, .AON_STAGE, .PWR_STATUS] →
        s'.rd f i j = f.rst) ∧
      (∀ (f : Fld) (i j : Nat), f.reg.domain = .AON → f.reg ∉ [.HNG_STATUS, .SEC_STATUS, .AON_STAGE, .PWR_STATUS] →
        s'.rd f i j = s.rd f i j) ∧
      (∀ a, a < keepBytes → s'.rdByte a = s.rdByte a) ∧ (∀ a, keepBytes ≤ a → a < 2 ^ 60 → s'.rdByte a = 0) ∧
      s'.jobs = [] ∧ s'.sec.flash = s.sec.flash)

/-- PERST# release, configuration requests and firmware authentication. A release of PERST# that ends a warm device reset begins a warm
start, opens the identity seal, fills the token bucket and trains the link; one that ends none leaves WARM as it was; a configuration
request is answered with Retry Status until 100 ms after the release and is completed from then on, a write setting LDIR_INDEX and a read of
LDIR_DATA returning the table's dword there with LDIR_INDEX stepping on; firmware that passes the boot checks brings the device to Drum with
FIRMWARE, MAILBOX and TELEMETRY 1, and a latch or no image to run holds the stage with its HOLD_REASON. (R276, R294, R295, R296, R468, R470,
R472) -/
def Obligations.WarmStartToDrum : Prop :=
  (∀ (s : State) (t rate width : Nat) (b : Bool), s.on F.PWR_STATUS_AUX_VALID = true → s.pwr.warmHeld = true →
    ∃ s', exec (.perstRelease t b rate width) s = .next s' ∧ s'.pwr.perst = false ∧ s'.pwr.perstRel = some (max s.now t) ∧
      s'.rd F.AON_STAGE_WARM = 1 ∧ s'.on F.SEC_STATUS_ID_VALID = b ∧ s'.rd F.SEC_SIGIDX_TOKENS = 32 ∧ s'.pwr.t0 = max s.now t ∧
      (rate ≤ 5 → width ∈ [1, 2, 4] → s'.rd F.PCI_LINK_RATE = rate ∧ s'.rd F.PCI_LINK_WIDTH = width) ∧
      s'.rd F.AON_STAGE_STAGE = s.rd F.AON_STAGE_STAGE ∧ sameMem s s') ∧
  (∀ (s : State) (t rate width : Nat) (b : Bool), s.on F.PWR_STATUS_AUX_VALID = true → s.pwr.warmHeld = false →
    ∃ s', exec (.perstRelease t b rate width) s = .next s' ∧ s'.pwr.perst = false ∧ s'.pwr.perstRel = some (max s.now t) ∧
      sameRegsBut [.PCI_LINK] s s' ∧ s' = { s with now := s'.now, regs := s'.regs, pwr := s'.pwr }) ∧
  (∀ (s : State) (t r : Nat) (fn : Fn) (reg : CfgReg) (w : Option Nat), fnOk fn = true → s.on F.PWR_STATUS_AUX_VALID = true →
    s.pwr.perst = false → s.pwr.perstRel = some r → max s.now t < r + 100000000 →
    exec (.configurationRequest t fn reg w) s = .next { s.tick t with host := { s.host with cfgRetry := true } }) ∧
  (∀ (s : State) (t r v : Nat), s.on F.PWR_STATUS_AUX_VALID = true → s.pwr.perst = false → s.pwr.perstRel = some r →
    r + 100000000 ≤ max s.now t →
    ∃ s', exec (.configurationRequest t .pf0 .ldirIndex (some v)) s = .next s' ∧ s'.host.cfgRetry = false ∧
      s'.rd F.LDIR_INDEX_DWORD = bits v 2 14 ∧ sameBut [fkey F.LDIR_INDEX_DWORD] s s' ∧
      s' = { s with now := s'.now, regs := s'.regs, host := s'.host }) ∧
  (∀ (s : State) (t r : Nat), s.on F.PWR_STATUS_AUX_VALID = true → s.pwr.perst = false → s.pwr.perstRel = some r →
    r + 100000000 ≤ max s.now t →
    ∃ s', exec (.configurationRequest t .pf0 .ldirData none) s = .next s' ∧ s'.host.cfgRetry = false ∧
      s'.host.readBack = slice s.ldBytes (4 * s.rd F.LDIR_INDEX_DWORD) 4 ∧
      s'.rd F.LDIR_INDEX_DWORD = (s.rd F.LDIR_INDEX_DWORD + 1) % 2 ^ 14 ∧ sameBut [fkey F.LDIR_INDEX_DWORD] s s' ∧
      s' = { s with now := s'.now, regs := s'.regs, host := s'.host }) ∧
  (∀ (s : State) (t k v sv slot : Nat) (cos : Bool) (dig : Bytes), s.stage = stFooting → s.pwr.perst = false → s.fwUp = false →
    s.heldFor [4] = false → s.latched = false → s.on F.PWR_STATUS_CONV_ON = true → s.bootChoice = some (k, v, sv, slot, cos, dig) →
    ∃ s', exec (.firmwareAuthenticate t) s = .next s' ∧ s'.rd F.AON_STAGE_STAGE = 2 ∧ s'.rd F.AON_STAGE_FIRMWARE = 1 ∧
      s'.rd F.AON_STAGE_MAILBOX = 1 ∧ s'.rd F.AON_STAGE_TELEMETRY = 1 ∧ s'.rd F.AON_STAGE_HOLD_REASON = 0 ∧
      s'.sec.fw = some { slot := k, version := v, secVersion := sv, digest := dig } ∧
      s'.on F.SEC_STATUS_FW_OWNER = decide (slot = 128) ∧ sameMem s s') ∧
  (∀ (s : State) (t : Nat), s.stage = stFooting → s.pwr.perst = false → s.fwUp = false → s.heldFor [4] = false → s.latched = false →
    s.on F.PWR_STATUS_CONV_ON = true → s.bootChoice = none →
    ∃ s', exec (.firmwareAuthenticate t) s = .next s' ∧ s'.rd F.AON_STAGE_HOLD_REASON = 4 ∧ s'.rd F.AON_STAGE_STAGE = 1) ∧
  (∀ (s : State) (t : Nat), s.stage = stFooting → s.pwr.perst = false → s.fwUp = false → s.heldFor [4] = false → s.latched = true →
    ∃ s', exec (.firmwareAuthenticate t) s = .next s' ∧ s'.rd F.AON_STAGE_STAGE = 1 ∧
      s'.rd F.AON_STAGE_HOLD_REASON =
        if s.on F.PWR_STATUS_SEQ_VIOL then 2 else if s.on F.PWR_STATUS_TRIP then 3 else 8)

/-- Dome applies the images, the field test is recorded, Finial is reached. At Drum, with a trim image and a structure image that pass the
checks and fit the hardware, Dome is reached with IMAGE, DRAM and PARTITIONS 1, the image active and MGT_IMAGE_ID showing it; an image that
fails a check leaves the device at Drum with HOLD_REASON 5. The short field test of a partition sets its TESTED bit to whether no ACTIVE
array failed. Once every FABRIC port has trained or failed, one has trained, the address is admitted and a partition passed, the device
stands at Finial with FABRIC 1. (R40, R258, R259, R296, R297, R404) -/
def Obligations.DomeAndFinial : Prop :=
  (∀ (s : State) (t : Nat) (ab fa fc : List Nat), s.stage = stDrum → s.fwUp = true → s.heldFor [5] = false →
    s.check01to06 s.sec.flash.trim 3 = none →
    s.check01to06 (s.sec.flash.slots.getD s.sec.flash.bootSlot []) 1 = none →
    consistencyBad (parseImage (s.sec.flash.slots.getD s.sec.flash.bootSlot [])) = none →
    hardwareBad (parseImage (s.sec.flash.slots.getD s.sec.flash.bootSlot [])) ab (allFailed ab fa) fc = none →
    ∃ s', exec (.domeApply t ab fa fc) s = .next s' ∧ s'.rd F.AON_STAGE_STAGE = 3 ∧ s'.rd F.AON_STAGE_IMAGE = 1 ∧
      s'.rd F.AON_STAGE_DRAM = 1 ∧ s'.rd F.AON_STAGE_PARTITIONS = 1 ∧ s'.rd F.AON_STAGE_HOLD_REASON = 0 ∧
      s'.img.slot = s.sec.flash.bootSlot ∧ (∀ a, a < 2 ^ 27 → s'.rdByte a = 0) ∧ s'.sec = s.sec) ∧
  (∀ (s : State) (t : Nat) (ab fa fc : List Nat) (e : ImgErr), s.stage = stDrum → s.fwUp = true → s.heldFor [5] = false →
    s.check01to06 s.sec.flash.trim 3 = some e →
    ∃ s', exec (.domeApply t ab fa fc) s = .next s' ∧ s'.rd F.AON_STAGE_STAGE = 2 ∧ s'.rd F.AON_STAGE_HOLD_REASON = 5 ∧ sameMem s s') ∧
  (∀ (s : State) (t p : Nat) (fa : List Nat), s.stage = stDome → s.hasPart p = true → p ∉ s.pwr.fieldDone → p < 16 →
    ∃ s', exec (.shortFieldTest t p fa) s = .next s' ∧ p ∈ s'.pwr.fieldDone ∧
      ((s'.rd F.AON_READY_TESTED).testBit p = true ↔
        ∀ pa, pa < 272 → pa / 17 ∈ s.groupsOf p → pa ∈ fa → s.rd F.SPR_STATUS_ROLE pa ≠ 1) ∧ sameMem s s') ∧
  (∀ (s : State) (t : Nat), s.stage = stDome → s.on F.AON_STAGE_FIELD_TEST = true → s.nonePassed = false → s.heldFor [6, 7] = false →
    (∀ i, i < 32 → s.rd F.FAB_PORT_ROLE i = 1 → s.portTrained i = true ∨ s.portFailed i = true) →
    (∃ i, i < 32 ∧ s.rd F.FAB_PORT_ROLE i = 1 ∧ s.portTrained i = true) → s.on F.FAB_ADDR_ADMITTED = true →
    ∃ s', exec (.finialReached t) s = .next s' ∧ s'.rd F.AON_STAGE_STAGE = 4 ∧ s'.rd F.AON_STAGE_FABRIC = 1 ∧
      s'.rd F.AON_STAGE_HOLD_REASON = 0 ∧ sameMem s s')

/-- Rails, the thermal trip, the throttle and their latches. A rail that has lain more than 3.0 percent out for 10 µs turns the converters
off with RAIL_FAULT and HOLD_REASON 8 where it is not an array group's, and records a level 2 fault of that group's partition where it is; a
trip does so with TRIP and HOLD_REASON 3 and counts a THERMAL override; the first die sample above the threshold begins the throttle and
counts one; TRIP clears only below 100 degrees, SEQ_VIOL and RAIL_FAULT only while MAIN_IN is invalid. (R280, R282, R291, R293, R492) -/
def Obligations.RailsTripAndThrottle : Prop :=
  (∀ (s : State) (t rail dev since : Nat), 16 ≤ rail → rail < 39 → 30 < dev → s.on F.PWR_STATUS_CONV_ON = true →
    aget s.pwr.railOut rail = some since → since + 10000 ≤ max s.now t → rail ∉ s.pwr.railActed →
    ∃ s', exec (.railSample t rail dev) s = .next s' ∧ s'.rd F.PWR_STATUS_RAIL_FAULT = 1 ∧ s'.rd F.PWR_STATUS_CONV_ON = 0 ∧
      s'.rd F.AON_STAGE_HOLD_REASON = 8 ∧ (∀ a, a < 2 ^ 60 → s'.rdByte a = 0)) ∧
  (∀ (s : State) (t rail dev since : Nat), rail < 16 → 30 < dev → s.on F.PWR_STATUS_CONV_ON = true →
    aget s.pwr.railOut rail = some since → since + 10000 ≤ max s.now t → rail ∉ s.pwr.railActed →
    ∃ s', exec (.railSample t rail dev) s = .next s' ∧ s'.pwr.railActed = s.pwr.railActed ++ [rail] ∧ s'.regs = s.regs ∧
      s'.fc = reported s t { cls := 4, level := 2, master := 0x54, part := (s.partOf rail).getD 255, source := 0x54, aux := rail } ∧
      sameMem s s') ∧
  (∀ (s : State) (t rail dev : Nat), rail < 39 → dev ≤ 30 → s.on F.PWR_STATUS_CONV_ON = true →
    ∃ s', exec (.railSample t rail dev) s = .next s' ∧ aget s'.pwr.railOut rail = none ∧ s'.regs = s.regs ∧ sameMem s s') ∧
  (∀ (s : State) (t sensor : Nat), sensor < 29 → s.on F.AON_STAGE_SUPERVISION = true →
    ∃ s', exec (.thermalTrip t sensor) s = .next s' ∧ s'.rd F.PWR_STATUS_TRIP = 1 ∧ s'.rd F.PWR_STATUS_CONV_ON = 0 ∧
      s'.rd F.PWR_OVERRIDE_THERMAL = counted F.PWR_OVERRIDE_THERMAL (s.rd F.PWR_OVERRIDE_THERMAL) 1 ∧
      s'.rd F.AON_STAGE_HOLD_REASON = 3 ∧ (∀ a, a < 2 ^ 60 → s'.rdByte a = 0)) ∧
  (∀ (s : State) (t die : Nat) (c : Int), die < 10 → s.on F.PWR_STATUS_THERM_THROTTLE = false → (s.throttleC : Int) < c →
    ∃ s', exec (.thermalThrottleSample t die c) s = .next s' ∧ s'.rd F.PWR_STATUS_THERM_THROTTLE = 1 ∧
      s'.rd F.PWR_OVERRIDE_THERMAL = counted F.PWR_OVERRIDE_THERMAL (s.rd F.PWR_OVERRIDE_THERMAL) 1 ∧
      aget s'.pwr.dieTemp die = some c ∧ s'.gal.camp = none ∧ sameMem s s') ∧
  (∀ (s : State) (t : Nat) (c : Int), s.on F.PWR_STATUS_TRIP = true →
    ∃ s', exec (.tripClear t c) s = .next s' ∧ (c < 100 → s'.rd F.PWR_STATUS_TRIP = 0) ∧ (100 ≤ c → s' = s.tick t) ∧ sameMem s s') ∧
  (∀ (s : State) (t : Nat), s.on F.PWR_STATUS_SEQ_VIOL = true →
    ∃ s', exec (.seqViolClear t) s = .next s' ∧ s'.on F.PWR_STATUS_SEQ_VIOL = s.pwr.main ∧
      sameBut [fkey F.PWR_STATUS_SEQ_VIOL] s s' ∧ s' = { s with now := s'.now, regs := s'.regs, pwr := s'.pwr }) ∧
  (∀ (s : State) (t : Nat), s.on F.PWR_STATUS_RAIL_FAULT = true →
    ∃ s', exec (.railFaultClear t) s = .next s' ∧ s'.on F.PWR_STATUS_RAIL_FAULT = s.pwr.main ∧
      sameBut [fkey F.PWR_STATUS_RAIL_FAULT] s s' ∧ s' = { s with now := s'.now, regs := s'.regs, pwr := s'.pwr })

/-- The power cap, the clock loop and adaptive voltage. PF0 and the management core write PWR_CAP, a VF or a Belfry core does not; a sample
of power enters PWR_MEAS with its peak and sets FAST_LIMIT above 4,600 W; with the average above the cap and a running group above 1,000
MHz, a step lowers every running group by 50 MHz but not below 1,000 MHz, and a clock that stands lower stays; a step of adaptive voltage
with margin below lowers the rail by 5 mV, one without margin raises it by 5 mV, and at 800 mV lowers the clock by 50 MHz and counts MARGIN;
a droop counts a stretch and raises the rail by 10 mV up to 800 mV, and of the Belfry complex raises VBFY up to 950 mV. (R284, R288, R289,
R292) -/
def Obligations.PowerCapAndClocks : Prop :=
  (∀ (s : State) (t v : Nat) (who : Requester), mayWriteCap who = true →
    ∃ s', exec (.pwrCapWrite t who v) s = .next s' ∧ s'.rd F.PWR_CAP_CAP_W = bits v 0 12 ∧ s'.rd F.PWR_CAP_THROTTLE_C = bits v 16 8 ∧
      sameBut [fkey F.PWR_CAP_CAP_W, fkey F.PWR_CAP_THROTTLE_C] s s' ∧ s' = { s with now := s'.now, regs := s'.regs }) ∧
  (∀ (s : State) (t v n : Nat), exec (.pwrCapWrite t (.vf n) v) s = .next (s.tick t) ∧
    exec (.pwrCapWrite t (.bfy n) v) s = .next (s.tick t)) ∧
  (∀ (s : State) (t w : Nat), s.on F.PWR_STATUS_CONV_ON = true → w < 65536 → s.rd F.PWR_MEAS_PEAK_W < 65536 →
    ∃ s', exec (.capLoopSample t w) s = .next s' ∧ s'.rd F.PWR_MEAS_INST_W = w ∧
      s'.rd F.PWR_MEAS_PEAK_W = max (s.rd F.PWR_MEAS_PEAK_W) w ∧ s'.pwr.samples = (w :: s.pwr.samples).take 1000 ∧
      (4600 < w → s'.rd F.PWR_STATUS_FAST_LIMIT = 1) ∧
      sameBut [fkey F.PWR_MEAS_INST_W, fkey F.PWR_MEAS_AVG_W, fkey F.PWR_MEAS_PEAK_W, fkey F.PWR_STATUS_FAST_LIMIT] s s' ∧
      s' = { s with now := s'.now, regs := s'.regs, pwr := s'.pwr }) ∧
  (∀ (s : State) (t g : Nat), s.pwr.clkStep + 10000 ≤ max s.now t → s.capW < s.rd F.PWR_MEAS_AVG_W → g ∈ s.running →
    1000 < agetD s.pwr.grpMhz g 0 →
    ∃ s', exec (.clockAdjustStep t) s = .next s' ∧
      (∀ g', g' ∈ s.running → agetD s'.pwr.grpMhz g' 0 =
        if agetD s.pwr.grpMhz g' 0 ≤ 1000 then agetD s.pwr.grpMhz g' 0 else max 1000 (agetD s.pwr.grpMhz g' 0 - 50)) ∧
      s'.pwr.clkStep = max s.now t ∧ s'.pwr.grpMv = s.pwr.grpMv ∧ sameRegsBut [.CLK_AG, .MGT_BFY_CORE, .PWR_STATUS] s s' ∧
      s' = { s with now := s'.now, regs := s'.regs, pwr := s'.pwr }) ∧
  (∀ (s : State) (t g : Nat), g < 16 → s.rd F.CLK_AG_STATE g = 0 → (∀ a, aget s.pwr.mvAt g = some a → a + 10000 ≤ max s.now t) →
    agetD s.pwr.grpMv g 800 < 800 →
    ∃ s', exec (.adaptiveVoltageStep t g false false) s = .next s' ∧
      agetD s'.pwr.grpMv g 800 = min 800 (agetD s.pwr.grpMv g 800 + 5) ∧
      sameBut [fkey F.CLK_AG_MV g, fkey F.CLK_AG_MHZ g, fkey F.PWR_OVERRIDE_MARGIN] s s' ∧
      s' = { s with now := s'.now, regs := s'.regs, pwr := s'.pwr }) ∧
  (∀ (s : State) (t g : Nat), g < 16 → s.rd F.CLK_AG_STATE g = 0 → (∀ a, aget s.pwr.mvAt g = some a → a + 10000 ≤ max s.now t) →
    agetD s.pwr.grpMv g 800 = 800 →
    ∃ s', exec (.adaptiveVoltageStep t g false false) s = .next s' ∧ agetD s'.pwr.grpMhz g 0 = agetD s.pwr.grpMhz g 0 - 50 ∧
      s'.rd F.PWR_OVERRIDE_MARGIN = counted F.PWR_OVERRIDE_MARGIN (s.rd F.PWR_OVERRIDE_MARGIN) 1 ∧
      sameBut [fkey F.CLK_AG_MV g, fkey F.CLK_AG_MHZ g, fkey F.PWR_OVERRIDE_MARGIN] s s' ∧
      s' = { s with now := s'.now, regs := s'.regs, pwr := s'.pwr }) ∧
  (∀ (s : State) (t g : Nat) (m : Bool), g < 16 → s.rd F.CLK_AG_STATE g = 0 →
    (∀ a, aget s.pwr.mvAt g = some a → a + 10000 ≤ max s.now t) → 605 ≤ agetD s.pwr.grpMv g 800 →
    ∃ s', exec (.adaptiveVoltageStep t g true m) s = .next s' ∧ agetD s'.pwr.grpMv g 800 = agetD s.pwr.grpMv g 800 - 5 ∧
      s'.rd F.CLK_AG_MV g = agetD s.pwr.grpMv g 800 - 5 ∧ sameBut [fkey F.CLK_AG_MV g, fkey F.CLK_AG_MHZ g] s s' ∧
      s' = { s with now := s'.now, regs := s'.regs, pwr := s'.pwr }) ∧
  (∀ (s : State) (t : Nat), s.pwr.bfyMhz ≠ 0 → s.pwr.bfyMv ≤ 950 →
    ∃ s', exec (.droopDetect t 16) s = .next s' ∧ s'.pwr.bfyMv = min 950 (s.pwr.bfyMv + 10) ∧ s'.pwr.grpMv = s.pwr.grpMv ∧
      sameBut [fkey F.PWR_OVERRIDE_MARGIN] s s' ∧ s' = { s with now := s'.now, regs := s'.regs, pwr := s'.pwr }) ∧
  (∀ (s : State) (t g : Nat), g < 16 → s.rd F.CLK_AG_STATE g = 0 → agetD s.pwr.grpMv g 800 ≤ 800 →
    ∃ s', exec (.droopDetect t g) s = .next s' ∧ s'.rd F.CLK_AG_STRETCHES g = counted F.CLK_AG_STRETCHES (s.rd F.CLK_AG_STRETCHES g) 1 ∧
      agetD s'.pwr.grpMv g 800 = min 800 (agetD s.pwr.grpMv g 800 + 10) ∧
      sameBut [fkey F.CLK_AG_MV g, fkey F.CLK_AG_MHZ g, fkey F.CLK_AG_STRETCHES g, fkey F.PWR_OVERRIDE_MARGIN] s s' ∧
      s' = { s with now := s'.now, regs := s'.regs, pwr := s'.pwr })

/-- Array groups sleep when idle and wake with their held events. An idle group whose timer has reached the limit is clock gated; one that
is no partition's home group and whose wake does not wait is power gated and loses its stationary tiles. An event for a sleeping group is
held and asks for a wake; an event for a running group, with no posted write of its sender held before it, is taken at once. A wake begins
under the limits on concurrent wakes, 40 µs from POWER_GATED and 200 ns from CLOCK_GATED, and when its time has passed the group runs and
the events held for it arrive in their order. (R285, R286, R287) -/
def Obligations.SleepAndWake : Prop :=
  (∀ (s : State) (t g : Nat), g < 16 → s.rd F.CLK_AG_STATE g = 0 → s.groupIdle g = true →
    (s.tick t).idleFor g (fun c => c.cgIdleUs) = true →
    ∃ s', exec (.clockGateEntry t g) s = .next s' ∧ s'.rd F.CLK_AG_STATE g = 1 ∧ s'.rd F.CLK_AG_MHZ g = 0 ∧
      sameBut [fkey F.CLK_AG_STATE g, fkey F.CLK_AG_MHZ g, fkey F.CLK_AG_MV g] s s' ∧ s' = { s with now := s'.now, regs := s'.regs }) ∧
  (∀ (s : State) (t g : Nat), g < 16 → (s.rd F.CLK_AG_STATE g = 0 ∨ s.rd F.CLK_AG_STATE g = 1) → s.groupIdle g = true →
    (s.tick t).idleFor g (fun c => c.pgIdleUs) = true → (∀ p, p ∈ s.partNums → s.homeOf p ≠ some g) →
    (∀ w, w ∈ s.pwr.wakeQ → w.g ≠ g) →
    ∃ s', exec (.powerGateEntry t g) s = .next s' ∧ s'.rd F.CLK_AG_STATE g = 2 ∧ s'.rd F.CLK_AG_MHZ g = 0 ∧ s'.rd F.CLK_AG_MV g = 0 ∧
      (∀ j, j < 17 → (s'.pa (17 * g + j)).shadow = none ∧ (s'.pa (17 * g + j)).active = none ∧
        s'.rd F.SPR_STATUS_SHADOW_READY (17 * g + j) = 0) ∧
      sameRegsBut [.CLK_AG, .SPR_STATUS] s s' ∧ s' = { s with now := s'.now, regs := s'.regs, pas := s'.pas }) ∧
  (∀ (s : State) (t g : Nat) (ev : HeldEvent), g < 16 → s.safe = false → s.groupsFor ev = [g] → s.behind ev = none →
    (s.rd F.CLK_AG_STATE g = 1 ∨ s.rd F.CLK_AG_STATE g = 2) →
    ∃ s', exec (.wakeEvent t g ev) s = .next s' ∧ s'.pwr.held = s.pwr.held ++ [(g, ev)] ∧
      (∃ w, w ∈ s'.pwr.wakeQ ∧ w.g = g) ∧ s' = { s with now := s'.now, pwr := s'.pwr }) ∧
  (∀ (s : State) (t g : Nat) (ev : HeldEvent), g < 16 → s.safe = false → s.groupsFor ev = [g] → s.behind ev = none →
    s.rd F.CLK_AG_STATE g = 0 → exec (.wakeEvent t g ev) s = .next ((s.tick t).deliver ev)) ∧
  (∀ (s : State) (t g : Nat) (w : WakeReq), g < 16 → s.pwr.wakeQ = [w] → w.g = g → s.safe = false →
    (s.tick t).wakeFits (decide (s.rd F.CLK_AG_STATE g = 2)) = true →
    ∃ s', exec (.wakeStart t g) s = .next s' ∧ s'.rd F.CLK_AG_STATE g = 3 ∧ s'.pwr.wakeQ = [] ∧
      aget s'.pwr.waking g = some (max s.now t + if s.rd F.CLK_AG_STATE g = 2 then 40000 else 200) ∧
      s'.rd F.CLK_AG_PG_WAKES g =
        (if s.rd F.CLK_AG_STATE g = 2 then counted F.CLK_AG_PG_WAKES (s.rd F.CLK_AG_PG_WAKES g) 1 else s.rd F.CLK_AG_PG_WAKES g) ∧
      sameRegsBut [.CLK_AG] s s' ∧ s' = { s with now := s'.now, regs := s'.regs, pwr := s'.pwr }) ∧
  (∀ (s : State) (t g due : Nat), g < 16 → aget s.pwr.waking g = some due → due ≤ max s.now t → s.rd F.CLK_AG_STATE g = 3 →
    exec (.wakeComplete t g) s = .next ((((((({ s.tick t with pwr := { s.pwr with waking := adel s.pwr.waking g } } : State).stirred
      g).wr F.CLK_AG_STATE 0 g).showClock g).releaseKey g).releasePosted))) ∧
  (∀ (s : State) (t g due : Nat), g < 16 → aget s.pwr.waking g = some due → due ≤ max s.now t → s.rd F.CLK_AG_STATE g = 3 →
    s.pwr.held = [] →
    ∃ s', exec (.wakeComplete t g) s = .next s' ∧ s'.rd F.CLK_AG_STATE g = 0 ∧ aget s'.pwr.idleSince g = some (max s.now t) ∧
      sameRegsBut [.CLK_AG] s s' ∧ s' = { s with now := s'.now, regs := s'.regs, pwr := s'.pwr })

/-- A register write acts on each field by its type. A write by the management core to a register without an effect of its own, in a window
that is present and awake: an RW field takes the bits written; in an RW1C field a 1 clears its bit and a bit the device sets in the same
cycle stays 1; RO, RC and WO fields keep their value; bits outside the fields are stored nowhere, and nothing else changes. VALID of word 2
of a collector record is RW1C. (R6, R7) -/
def Obligations.RegisterWriteTypes : Prop :=
  (∀ (s : State) (t : Nat) (reg : Reg) (i j v setNow : Nat), i < reg.axes.1 → j < reg.axes.2.1 → reg ∉ specialRegs →
    s.closedReg reg i = false → ownerRuns s reg i → nonePosted s →
    ∃ s', exec (.registerWrite t .mgt reg i j v setNow) s = .next s' ∧
      (∀ f, f ∈ reg.fields → f.ty = .RW → s'.rd f i j = bits v f.lsb f.width) ∧
      (∀ f, f ∈ reg.fields → f.ty = .RW1C →
        s'.rd f i j = ((s.rd f i j &&& (2 ^ f.width - 1 - bits v f.lsb f.width)) ||| bits setNow f.lsb f.width) % 2 ^ f.width) ∧
      (∀ f, f ∈ reg.fields → f.ty ≠ .RW → f.ty ≠ .RW1C → s'.rd f i j = s.rd f i j) ∧
      (∀ (f : Fld) (i' j' : Nat), f.reg ≠ reg ∨ i' ≠ i ∨ j' ≠ j ∨ (∀ g, g ∈ reg.fields → g.lsb ≠ f.lsb) → s'.rd f i' j' = s.rd f i' j') ∧
      s' = { s with now := s'.now, regs := s'.regs }) ∧
  (∀ (s : State) (t i v : Nat), i < Reg.FC_REC.axes.1 → v.testBit 63 = true → nonePosted s →
    ∃ s', exec (.registerWrite t .mgt .FC_REC i 2 v 0) s = .next s' ∧ s'.rd F.FC_REC_HI i 2 = 0 ∧
      sameBut [fkey F.FC_REC_HI i 2] s s' ∧ s' = { s with now := s'.now, regs := s'.regs })

/-- A read returns the register and clears its RC fields. A read, by a requester that reaches it, of a register whose window is present and
awake returns the value at the start of the cycle, then every RC field of it reads 0, except that a field that counted an event in the read
cycle reads 1; every other field of every register is unchanged, but that a read of LDIR_DATA steps LDIR_INDEX. A write leaves RC and RO
fields alone, sets RW fields, and in RW1C a 1 clears its bit while the device's set wins. (R7) -/
def Obligations.RegisterReadClears : Prop :=
  (∀ (s : State) (t : Nat) (who : Requester) (reg : Reg) (i j : Nat) (event : Option Nat), i < reg.axes.1 → j < reg.axes.2.1 →
    reg ≠ .LDIR_DATA → s.fate who reg i false = .acts → s.closedReg reg i = false → ownerRuns s reg i → nonePosted s →
    ∃ s', exec (.rcCounterRead t who reg i j event) s = .next s' ∧
      (reg ≠ .LDIR_TABLE → reg ≠ .FC_LOG → s'.host.readBack = natLe (reg.width / 8) ((s.tick t).shown reg i j)) ∧
      (reg = .LDIR_TABLE → j = 0 → s'.host.readBack = slice s.ldBytes (8 * i) 8) ∧
      (∀ f, f ∈ reg.fields → f.ty = .RC → s'.rd f i j = if event = some f.lsb then 1 else 0) ∧
      (∀ f, f ∈ reg.fields → f.ty ≠ .RC → s'.rd f i j = s.rd f i j) ∧ sameRegsBut [reg] s s' ∧
      s' = { s with now := s'.now, regs := s'.regs, host := { s.host with readBack := s'.host.readBack } }) ∧
  (∀ (s : State) (t : Nat) (who : Requester) (event : Option Nat), s.fate who .LDIR_DATA 0 false = .acts →
    s.closedReg .LDIR_DATA 0 = false → nonePosted s →
    ∃ s', exec (.rcCounterRead t who .LDIR_DATA 0 0 event) s = .next s' ∧
      s'.host.readBack = slice s.ldBytes (4 * s.rd F.LDIR_INDEX_DWORD) 4 ∧
      s'.rd F.LDIR_INDEX_DWORD = (s.rd F.LDIR_INDEX_DWORD + 1) % 2 ^ 14 ∧ sameBut [fkey F.LDIR_INDEX_DWORD] s s' ∧
      s' = { s with now := s'.now, regs := s'.regs, host := { s.host with readBack := s'.host.readBack } }) ∧
  (∀ (s : State) (f : Fld) (i j v n : Nat),
    (f.ty = .RO ∨ f.ty = .RC ∨ f.ty = .WO → (s.fieldWrite f i j v n).rd f i j = s.rd f i j) ∧
    (f.ty = .RW → (s.fieldWrite f i j v n).rd f i j = bits v f.lsb f.width) ∧
    (f.ty = .RW1C → s.rd f i j < 2 ^ f.width → ∀ b, b < f.width →
      ((s.fieldWrite f i j v n).rd f i j).testBit b =
        (((s.rd f i j).testBit b && !v.testBit (f.lsb + b)) || n.testBit (f.lsb + b))))

/-- Misaligned accesses, undefined offsets, closed blocks, sleeping groups and requesters without the right. An access not naturally aligned
or not of full width, a write to the directory, and one to a block the directory does not show present, reads all ones, writes nothing and
raises a level 0 fault in the class of the block that owns the register. An undefined offset of a window reads 0 and ignores a write. A
write to a sleeping group is held for it. A Belfry core that writes a register outside its reach changes no register and raises a level 1
security fault. A VF writes no register but doorbells and its own mailbox, and reads all ones elsewhere (the model's choice where the manual
is silent, notes/assumptions/70.md). (R5, R6, R239, R266, R270, R286, R288, R301, notes/assumptions/70.md, notes/assumptions/71.md) -/
def Obligations.BadAccessesAndDenials : Prop :=
  (∀ (s : State) (t : Nat) (who : Requester) (reg : Reg) (i j : Nat), hasWindow reg i = true → s.fate who reg i false = .acts →
    ∃ s' r, exec (.misalignedAccess t who reg i j false) s = .next s' ∧ s'.host.readBack = List.replicate (reg.width / 8) 255 ∧
      r.cls = reg.faultClass ∧ r.level = 0 ∧ s'.fc = reported s t r ∧ s'.regs = s.regs ∧ sameMem s s') ∧
  (∀ (s : State) (t : Nat) (who : Requester) (reg : Reg) (i j : Nat), hasWindow reg i = true → s.fate who reg i true = .acts →
    ∃ s' r, exec (.misalignedAccess t who reg i j true) s = .next s' ∧ r.cls = reg.faultClass ∧ r.level = 0 ∧ s'.fc = reported s t r ∧
      s' = { s with now := s'.now, fc := s'.fc }) ∧
  (∀ (s : State) (t : Nat) (who : Requester) (reg : Reg) (i j v n : Nat), hasWindow reg i = true → s.fate who reg i true = .acts →
    (reg = .LDIR_TABLE ∨ s.closedReg reg i = true) → nonePosted s →
    ∃ s' r, exec (.registerWrite t who reg i j v n) s = .next s' ∧ r.cls = reg.faultClass ∧ r.level = 0 ∧ s'.fc = reported s t r ∧
      s' = { s with now := s'.now, fc := s'.fc }) ∧
  (∀ (s : State) (t : Nat) (reg : Reg) (i j v n : Nat), hasWindow reg i = true → hasInst reg i j = false → reg ≠ .LDIR_TABLE →
    s.closedReg reg i = false → ownerRuns s reg i → nonePosted s →
    exec (.registerWrite t .mgt reg i j v n) s = .next (s.tick t) ∧
    exec (.rcCounterRead t .mgt reg i j none) s =
      .next { s.tick t with host := { s.host with readBack := natLe (reg.width / 8) 0 } }) ∧
  (∀ (s : State) (t g : Nat) (who : Requester) (reg : Reg) (i j v n : Nat), hasWindow reg i = true →
    s.fate who reg i true = .acts → s.closedReg reg i = false → agOf reg i = some g → s.safe = false → nonePosted s →
    s.behind (.access who reg i j (some (v, n))) = none → (s.rd F.CLK_AG_STATE g = 1 ∨ s.rd F.CLK_AG_STATE g = 2) →
    ∃ s', exec (.registerWrite t who reg i j v n) s = .next s' ∧
      s'.pwr.held = s.pwr.held ++ [(g, .access who reg i j (some (v, n)))] ∧ s' = { s with now := s'.now, pwr := s'.pwr }) ∧
  (∀ (s : State) (t n p : Nat) (reg : Reg) (i j : Nat) (w : Bool), n < 48 → i < reg.axes.1 → j < reg.axes.2.1 → s.corePart n = some p →
    (bfyClosed reg = true ∨ s.foreignInst p reg i = true) →
    ∃ s' r, exec (.belfryRegisterDenied t n reg i j w) s = .next s' ∧ r.cls = 5 ∧ r.level = 1 ∧ r.part = p ∧ s'.fc = reported s t r ∧
      (w = false → s'.host.readBack = List.replicate (reg.width / 8) 255) ∧ s'.regs = s.regs ∧ sameMem s s') ∧
  (∀ (s : State) (t p : Nat) (reg : Reg) (i j v n : Nat), hasWindow reg i = true →
    (bfyClosed reg = true ∨ s.foreignInst p reg i = true) → nonePosted s →
    ∃ s' r, exec (.registerWrite t (.bfy p) reg i j v n) s = .next s' ∧ r.cls = 5 ∧ r.level = 1 ∧ r.part = p ∧ s'.fc = reported s t r ∧
      s' = { s with now := s'.now, fc := s'.fc }) ∧
  (∀ (s : State) (t k : Nat) (reg : Reg) (i j v n : Nat), hasWindow reg i = true → reg ≠ .PCI_DB → s.ownPage (.vf k) reg i = false →
    nonePosted s → exec (.registerWrite t (.vf k) reg i j v n) s = .next (s.tick t) ∧
    exec (.rcCounterRead t (.vf k) reg i j none) s =
      .next { s.tick t with host := { s.host with readBack := List.replicate (reg.width / 8) 255 } })

/-- A measured quantity outside its rating lapses the guarantees. The first measurement outside the operating rating clears every HOLD bit,
sets the LAPSED bit of each that held, and raises one level 1 power/thermal fault; a further one of the same breach changes nothing more,
and a measurement inside ends the breach. (R15, R304, R486, R487) -/
def Obligations.RatingsBreachLapses : Prop :=
  (∀ (s : State) (t q : Nat) (v : Int), q ≠ 0 → ratingOk q v = some false → q ∉ s.pwr.breaches →
    ∃ s' r, exec (.ratingsBreach t q v) s = .next s' ∧ q ∈ s'.pwr.breaches ∧ s'.on F.MGT_GUARANTEE_HOLD_CONSERVE = false ∧
      s'.on F.MGT_GUARANTEE_HOLD_REPLAY = false ∧ s'.on F.MGT_GUARANTEE_HOLD_RECOVERY = false ∧
      s'.on F.MGT_GUARANTEE_HOLD_SILENT = false ∧ s'.on F.MGT_GUARANTEE_HOLD_VECTORS = false ∧
      (s.on F.MGT_GUARANTEE_HOLD_CONSERVE = true → s'.on F.MGT_GUARANTEE_LAPSED_CONSERVE = true) ∧
      (s.on F.MGT_GUARANTEE_HOLD_VECTORS = true → s'.on F.MGT_GUARANTEE_LAPSED_VECTORS = true) ∧
      r.cls = 4 ∧ r.level = 1 ∧ r.aux = q ∧ s'.fc = reported s t r ∧ sameRegsBut [.MGT_GUARANTEE] s s' ∧
      s' = { s with now := s'.now, regs := s'.regs, pwr := s'.pwr, host := s'.host, fc := s'.fc }) ∧
  (∀ (s : State) (t q : Nat) (v : Int), q ≠ 0 → ratingOk q v = some false → q ∈ s.pwr.breaches →
    exec (.ratingsBreach t q v) s = .next (s.tick t)) ∧
  (∀ (s : State) (t q : Nat) (v : Int), ratingOk q v = some true →
    ∃ s', exec (.ratingsBreach t q v) s = .next s' ∧ q ∉ s'.pwr.breaches ∧ sameBut [fkey F.PWR_MEAS_MAIN_CV] s s' ∧
      s' = { s with now := s'.now, regs := s'.regs, pwr := s'.pwr })

/-- Page-map writes and invalidation. From Dome on, with firmware running, a page-map write of an entry that is invalid or may be mapped
stores it with its reserved bits 0 and changes no other byte; one that may not be mapped stores nothing, and one that arrives while the
management core restarts waits. A write to PGM_INVAL while DONE is 1 begins an invalidation with DONE 0; while DONE is 0 it has no effect;
its end, once no held write has used a named entry, removes the named entries from every translation cache and sets DONE. (R204, R205, R207,
R210, R323) -/
def Obligations.PageMapAndInvalidation : Prop :=
  (∀ (s : State) (t v e : Nat), s.Inv → v < 2 ^ 24 → s.fwUp = true → s.atLeast stDome = true →
    (pmValid (cleanEntry e) = false ∨ (s.mapOk v (cleanEntry e) = true ∧ s.mirrorOk v (cleanEntry e) = true)) →
    ∃ s', exec (.pageMapWrite t v e) s = .next s' ∧ s'.pmEntry v = cleanEntry e ∧
      (∀ a, a < 8 * v ∨ 8 * v + 8 ≤ a → s'.rdByte a = s.rdByte a) ∧ s' = { s with now := s'.now, mem := s'.mem }) ∧
  (∀ (s : State) (t v e : Nat), v < 2 ^ 24 → s.fwUp = true → pmValid (cleanEntry e) = true →
    (s.mapOk v (cleanEntry e) = false ∨ s.mirrorOk v (cleanEntry e) = false) →
    exec (.pageMapWrite t v e) s = .next (s.tick t)) ∧
  (∀ (s : State) (t v e : Nat), v < 2 ^ 24 → s.on F.AON_STAGE_MGT_RESTART = true → s.host.fwDead = false →
    exec (.pageMapWrite t v e) s = .next { s.tick t with host := { s.host with heldGo := s.host.heldGo ++ [.pageMapWrite t v e] } }) ∧
  (∀ (s : State) (t w : Nat), s.on F.PGM_INVAL_DONE = true →
    ∃ s', exec (.pgmInval t w) s = .next s' ∧ s'.rd F.PGM_INVAL_DONE = 0 ∧ s'.memx.inval = some w ∧
      sameBut [fkey F.PGM_INVAL_DONE] s s' ∧ s' = { s with now := s'.now, regs := s'.regs, memx := s'.memx }) ∧
  (∀ (s : State) (t w : Nat), s.on F.PGM_INVAL_DONE = false → exec (.pgmInval t w) s = .next (s.tick t)) ∧
  (∀ (s : State) (t w : Nat), s.memx.inval = some w → s.invalUsed w = false →
    ∃ s', exec (.invalidationDone t) s = .next s' ∧ s'.rd F.PGM_INVAL_DONE = 1 ∧ s'.memx.inval = none ∧
      (∀ e, e ∈ s'.memx.tcache ↔ e ∈ s.memx.tcache ∧ invalNames w e.2.1 e.2.2 = false) ∧
      sameBut [fkey F.PGM_INVAL_DONE] s s' ∧ s' = { s with now := s'.now, regs := s'.regs, memx := s'.memx }) ∧
  (∀ (s : State) (t w : Nat), s.memx.inval = some w → s.invalUsed w = true → exec (.invalidationDone t) s = .next (s.tick t))

/-- A write under an active cut waits for its page copy. A write that passes the checks to a page under the active cut is held and begins a
page copy into the next copy frame, storing nothing yet; one to a page with a copy in progress, or to one that waits, joins the held writes;
with no copy frame left the cut aborts with ABORTED 1; a write that finds no cut in force stores its bytes and nothing outside them and the
page's own entry. The end of a copy counts it, makes the copy frame hold the page's bytes, clears COW and sets DIRTY, and the write held for
the page is held no more. (R205, R212, R213, R214, R223, R429) -/
def Obligations.CopyOnWrite : Prop :=
  (∀ (s s₁ : State) (t p unit addr f : Nat) (b : Bytes),
    (s.tick t).checkAccess 4 unit p addr b.length true false = (none, s₁) → pagesOf addr b.length = [addr / 65536] →
    s₁.copying (addr / 65536) = false → s₁.writeWaits addr b.length = false →
    s₁.cowInForce (s₁.pmEntry (addr / 65536)) = true → s₁.nextCopyFrame (pmOwner (s₁.pmEntry (addr / 65536))) = some f →
    ∃ s', exec (.cowWriteHold t p unit addr b) s = .next s' ∧
      s'.memx.cowHolds = s₁.memx.cowHolds ++ [{ p := p, unit := unit, addr := addr, bytes := b }] ∧
      s'.memx.cowCopies = s₁.memx.cowCopies ++
        [{ vpn := addr / 65536, p := pmOwner (s₁.pmEntry (addr / 65536)), frame := f }] ∧
      s' = { s₁ with memx := s'.memx } ∧ sameMem s s') ∧
  (∀ (s s₁ : State) (t p unit addr : Nat) (b : Bytes),
    (s.tick t).checkAccess 4 unit p addr b.length true false = (none, s₁) →
    ((∃ v, v ∈ pagesOf addr b.length ∧ s₁.copying v = true) ∨ s₁.writeWaits addr b.length = true) →
    ∃ s', exec (.cowWriteHold t p unit addr b) s = .next s' ∧ s'.memx.cowCopies = s₁.memx.cowCopies ∧
      s'.memx.cowHolds = s₁.memx.cowHolds ++ [{ p := p, unit := unit, addr := addr, bytes := b }] ∧
      s' = { s₁ with memx := s'.memx } ∧ sameMem s s') ∧
  (∀ (s s₁ : State) (t p unit addr : Nat) (b : Bytes),
    (s.tick t).checkAccess 4 unit p addr b.length true false = (none, s₁) → pagesOf addr b.length = [addr / 65536] →
    s₁.copying (addr / 65536) = false → s₁.writeWaits addr b.length = false →
    s₁.cowInForce (s₁.pmEntry (addr / 65536)) = true → s₁.nextCopyFrame (pmOwner (s₁.pmEntry (addr / 65536))) = none →
    ∃ s', exec (.cowWriteHold t p unit addr b) s = .next s' ∧ s'.rd F.PGM_CUT_ABORTED (pmOwner (s₁.pmEntry (addr / 65536))) = 1 ∧
      s'.rd F.PGM_CUT_ACTIVE (pmOwner (s₁.pmEntry (addr / 65536))) = 0 ∧ s'.memx.cowHolds = s₁.memx.cowHolds ∧
      (∀ a, a ∉ accessKeys s₁ 4 addr b.length → a ∉ entryKeys addr b.length → s'.rdByte a = s.rdByte a)) ∧
  (∀ (s s₁ : State) (t p unit addr : Nat) (b : Bytes),
    (s.tick t).checkAccess 4 unit p addr b.length true false = (none, s₁) → s₁.writeWaits addr b.length = false →
    (∀ v, v ∈ pagesOf addr b.length → s₁.copying v = false ∧ s₁.cowInForce (s₁.pmEntry v) = false) →
    ∃ s', exec (.cowWriteHold t p unit addr b) s = .next s' ∧
      (∀ a, a ∉ accessKeys s₁ 4 addr b.length → a ∉ entryKeys addr b.length → s'.rdByte a = s.rdByte a) ∧
      s'.memx.cowHolds = s₁.memx.cowHolds ∧ s'.memx.cowCopies = s₁.memx.cowCopies) ∧
  (∀ (s s₁ : State) (t p unit addr k : Nat) (b : Bytes), s.Inv →
    (s.tick t).checkAccess 4 unit p addr b.length true false = (none, s₁) → pagesOf addr b.length = [addr / 65536] →
    s₁.writeWaits addr b.length = false → s₁.copying (addr / 65536) = false →
    s₁.cowInForce (s₁.pmEntry (addr / 65536)) = false → pmLoc (s₁.pmLookup 4 (addr / 65536)).1 = 0 →
    2048 ≤ pmFrame (s₁.pmLookup 4 (addr / 65536)).1 → addr / 65536 < 2 ^ 24 → k < b.length →
    ∃ s', exec (.cowWriteHold t p unit addr b) s = .next s' ∧ s'.rdByte (s₁.keyOf 4 (addr + k)) = b.getD k 0) ∧
  (∀ (s : State) (t v k : Nat) (c : CowCopy), s.memx.cowCopies.find? (fun x => x.vpn = v) = some c → s.memx.cowHolds = [] →
    nonePosted s → s.Inv → v < 2 ^ 24 → 2048 ≤ c.frame → 2048 ≤ s.rd F.PGM_RESERVE_BASE_FRAME c.p →
    s.rd F.PGM_RESERVE_BASE_FRAME c.p * 65536 + 16 * s.rd F.PGM_CUT_COPIES c.p + 16 ≤ c.frame * 65536 → k < 65536 →
    ∃ s', exec (.cowCopyDone t v) s = .next s' ∧ s'.rdByte (c.frame * 65536 + k) = s.rdByte (pageKey (s.pmEntry v) k) ∧
      pmCow (s'.pmEntry v) = false ∧ pmDirty (s'.pmEntry v) = true ∧
      s'.rd F.PGM_CUT_COPIES c.p = counted F.PGM_CUT_COPIES (s.rd F.PGM_CUT_COPIES c.p) 1 ∧
      s'.memx.cowCopies = s.memx.cowCopies.filter (fun x => x.vpn ≠ v)) ∧
  (∀ (s : State) (t v : Nat) (c : CowCopy) (h : CowHold), s.memx.cowCopies = [c] → c.vpn = v → s.memx.cowHolds = [h] →
    pagesOf h.addr h.bytes.length = [v] → s.pageWaits v = false → nonePosted s → s.Inv → v < 2 ^ 24 → 2048 ≤ c.frame →
    2048 ≤ s.rd F.PGM_RESERVE_BASE_FRAME c.p →
    ∃ s', exec (.cowCopyDone t v) s = .next s' ∧ s'.memx.cowHolds = [] ∧ s'.memx.cowCopies = [])

/-- Corrected and uncorrected errors are counted, poison follows. A DRAM burst with at most 4 symbols in error is corrected, one of a
channel with a lane erased with at most 2 further ones; a corrected burst is counted and reported at level 0; with the sixteenth correction
on one lane of a channel within a second the lane is erased. An uncorrected burst is counted, marked poisoned and reported at level 1; one
that already holds poison counts as a poisoned read. Patrol scrub advances its pass. A cupola word's single-bit error is counted; an
uncorrected one is counted and poisoned. After a temperature sample the stack shows the temperature and the refresh rate of the temperature
or, within 3 degrees below a threshold, the rate before; a rise counts in RISES, and LIMITED shows the rate above 105 degrees. No byte of
memory changes. (R219, R224, R225, R226, R227, R228, R229) -/
def Obligations.DramErrorCorrection : Prop :=
  (∀ (s : State) (st ch : Nat) (syms : List Nat), (∀ l, (st, ch, l) ∉ s.memx.erased) →
    (s.corrects st ch syms = true ↔ syms.dedup.length ≤ 4)) ∧
  (∀ (s : State) (st ch l : Nat) (syms : List Nat), s.memx.erased = [(st, ch, l)] →
    (s.corrects st ch syms = true ↔ (syms.dedup.filter (fun x => x / 4 ≠ l)).length ≤ 2)) ∧
  (∀ (s : State) (t st ch b : Nat) (syms : List Nat), chanOk st ch b = true → symsOk syms = true → syms ≠ [] →
    s.corrects st ch syms = true → oneLane syms = none →
    ∃ s' r, exec (.dramBurstCorrected t st ch b syms) s = .next s' ∧
      s'.rd F.MEM_ECC_CORRECTED st = counted F.MEM_ECC_CORRECTED (s.rd F.MEM_ECC_CORRECTED st) 1 ∧
      r.cls = 0 ∧ r.level = 0 ∧ r.aux = ch ∧ r.addr = b * 128 ∧ s'.fc = reported s t r ∧
      sameBut [fkey F.MEM_ECC_CORRECTED st] s s' ∧ s' = { s with now := s'.now, regs := s'.regs, fc := s'.fc }) ∧
  (∀ (s : State) (t st ch b l : Nat) (syms : List Nat), chanOk st ch b = true → symsOk syms = true → s.corrects st ch syms = true →
    oneLane syms = some l → (st, ch, l) ∉ s.memx.erased →
    15 ≤ (s.memx.laneCorr.filter (fun e => decide (max s.now t ≤ e.2.2.2 + 1000000000) && decide (e.1 = st) && decide (e.2.1 = ch)
      && decide (e.2.2.1 = l))).length →
    ∃ s', exec (.dramBurstCorrected t st ch b syms) s = .next s' ∧ s'.memx.erased = s.memx.erased ++ [(st, ch, l)] ∧
      s'.rd F.MEM_ECC_CORRECTED st = counted F.MEM_ECC_CORRECTED (s.rd F.MEM_ECC_CORRECTED st) 1 ∧ s'.rd F.MEM_ECC_FIRST_VALID st ≠ 0 ∧
      sameMem s s') ∧
  (∀ (s : State) (t st ch b m k : Nat) (scrub : Bool) (syms : List Nat), chanOk st ch b = true → symsOk syms = true →
    s.corrects st ch syms = false → s.burstKey st ch b = k → k ∉ s.memx.poison →
    ∃ s' r, exec (.dramBurstUncorrected t st ch b m scrub syms) s = .next s' ∧ s'.memx.poison = s.memx.poison ++ [k] ∧
      s'.rd F.MEM_ECC_UNCORRECTED st = counted F.MEM_ECC_UNCORRECTED (s.rd F.MEM_ECC_UNCORRECTED st) 1 ∧
      s'.rd F.MEM_ECC_FIRST_VALID st ≠ 0 ∧ r.cls = 0 ∧ r.level = 1 ∧ r.part = s.chanPart st ch ∧ s'.fc = reported s t r ∧
      sameRegsBut [.MEM_ECC, .MEM_ECC_FIRST] s s' ∧ sameMem s s') ∧
  (∀ (s : State) (t st ch b m : Nat) (scrub : Bool) (syms : List Nat), chanOk st ch b = true → symsOk syms = true →
    s.burstKey st ch b ∈ s.memx.poison →
    ∃ s', exec (.dramBurstUncorrected t st ch b m scrub syms) s = .next s' ∧
      s'.rd F.MEM_ECC_POISON_READS st = counted F.MEM_ECC_POISON_READS (s.rd F.MEM_ECC_POISON_READS st) 1 ∧
      sameBut [fkey F.MEM_ECC_POISON_READS st] s s' ∧ s' = { s with now := s'.now, regs := s'.regs }) ∧
  (∀ (s : State) (t st ch b : Nat), chanOk st ch b = true → s.burstKey st ch b ∉ s.memx.poison → s.corrects st ch [] = true →
    agetD s.memx.scrubbed st 0 + 1 < s.stackBursts st →
    ∃ s', exec (.patrolScrub t st ch b []) s = .next s' ∧ agetD s'.memx.scrubbed st 0 = agetD s.memx.scrubbed st 0 + 1 ∧
      s'.regs = s.regs ∧ sameMem s s') ∧
  (∀ (s : State) (t st ch b : Nat), chanOk st ch b = true → s.burstKey st ch b ∉ s.memx.poison → s.corrects st ch [] = true →
    s.stackBursts st ≤ agetD s.memx.scrubbed st 0 + 1 →
    ∃ s', exec (.patrolScrub t st ch b []) s = .next s' ∧ agetD s'.memx.scrubbed st 0 = 0 ∧
      s'.rd F.MEM_SCRUB_PASSES st = counted F.MEM_SCRUB_PASSES (s.rd F.MEM_SCRUB_PASSES st) 1 ∧ sameMem s s') ∧
  (∀ (s : State) (t g off : Nat), cupOk g off = true →
    ∃ s', exec (.cupolaScrub t g off .corrected) s = .next s' ∧
      s'.rd F.CUP_ECC_CORRECTED g = counted F.CUP_ECC_CORRECTED (s.rd F.CUP_ECC_CORRECTED g) 1 ∧
      sameBut [fkey F.CUP_ECC_CORRECTED g] s s' ∧ s' = { s with now := s'.now, regs := s'.regs }) ∧
  (∀ (s : State) (t g off m : Nat), cupOk g off = true →
    ∃ s' r, exec (.cupolaReadError t g off m false false) s = .next s' ∧ granule (cupKey g off) ∈ s'.memx.poison ∧
      s'.rd F.CUP_ECC_UNCORRECTED g = counted F.CUP_ECC_UNCORRECTED (s.rd F.CUP_ECC_UNCORRECTED g) 1 ∧ r.level = 1 ∧ r.cls = 0 ∧
      r.master = m ∧ s'.fc = reported s t r ∧ sameBut [fkey F.CUP_ECC_UNCORRECTED g] s s' ∧ sameMem s s') ∧
  (∀ (s : State) (t g off m : Nat), cupOk g off = true →
    ∃ s', exec (.cupolaReadError t g off m false true) s = .next s' ∧ granule (cupKey g off) ∈ s'.memx.poison ∧ s'.regs = s.regs ∧
      sameMem s s') ∧
  (∀ (s : State) (t st : Nat) (c : Int), st < 16 → s.rd F.MEM_STACK_RATE st < 4 →
      ∃ s', exec (.refreshSample t st c) s = .next s' ∧
        s'.rd F.MEM_STACK_RATE st = max (refreshFor c) (min (s.rd F.MEM_STACK_RATE st) (refreshFor (c + 3))) ∧
        refreshFor c ≤ s'.rd F.MEM_STACK_RATE st ∧ s'.rd F.MEM_STACK_RATE st ≤ max (refreshFor c) (s.rd F.MEM_STACK_RATE st) ∧
        s'.rd F.MEM_STACK_TEMP st = unsigned c 8 ∧ s'.on F.MEM_STACK_LIMITED st = decide (s'.rd F.MEM_STACK_RATE st = 3) ∧
        s'.rd F.MEM_STACK_RISES st =
          (if s.rd F.MEM_STACK_RATE st < s'.rd F.MEM_STACK_RATE st then counted F.MEM_STACK_RISES (s.rd F.MEM_STACK_RISES st) 1
           else s.rd F.MEM_STACK_RISES st) ∧ sameMem s s')

/-- Bandwidth regulators conserve their tokens. Refill, admission, a draw of tokens by an access and the arrival of a request at its channel
keep ISSUED equal to LEVEL + HELD + SPENT + CLIPPED wherever it was, as long as the fields have room. A request at an empty regulator with
enough tokens takes 1 token for each 64 bytes begun; without enough it waits; one that reaches its channel moves its tokens from HELD to
SPENT, and waits where the channels retrain. (R230, R231, R232, R233) -/
def Obligations.RegulatorsConserveTokens : Prop :=
  (∀ (s : State) (t p r : Nat), balanced s p r → tokensFit s p r 0 → s.partNums.Nodup →
    ∃ s', exec (.regulatorRefill t) s = .next s' ∧ balanced s' p r ∧ sameRegsBut [.BWG_STATE, .BWG_ISSUED, .BWG_CLIPPED] s s' ∧
      s' = { s with now := s'.now, regs := s'.regs, memx := s'.memx }) ∧
  (∀ (s : State) (t p r unit n : Nat) (pool : Bool), p < 16 → r < 3 → 0 < n → n ≤ 4096 → balanced s p r →
    tokensFit s p r (ceilDiv n 64) →
    ∃ s', exec (.regulatorAdmit t p r unit n pool) s = .next s' ∧ balanced s' p r ∧
      sameBut [fkey F.BWG_STATE_LEVEL p r, fkey F.BWG_STATE_HELD p r] s s' ∧
      s' = { s with now := s'.now, regs := s'.regs, memx := s'.memx }) ∧
  (∀ (s : State) (t p r unit n : Nat) (pool : Bool), p < 16 → r < 3 → 0 < n → n ≤ 4096 → s.memx.regWait = [] →
    tokensFit s p r (ceilDiv n 64) →
    ∃ s', exec (.regulatorAdmit t p r unit n pool) s = .next s' ∧
      (ceilDiv n 64 ≤ s.rd F.BWG_STATE_LEVEL p r →
        s'.rd F.BWG_STATE_LEVEL p r = s.rd F.BWG_STATE_LEVEL p r - ceilDiv n 64 ∧
        s'.rd F.BWG_STATE_HELD p r = s.rd F.BWG_STATE_HELD p r + ceilDiv n 64 ∧ s'.memx.regWait = []) ∧
      (s.rd F.BWG_STATE_LEVEL p r < ceilDiv n 64 →
        s'.regs = s.regs ∧ s'.memx.regWait = [{ p := p, r := r, unit := unit, need := ceilDiv n 64, pool := pool }])) ∧
  (∀ (s : State) (p r unit need : Nat) (pool : Bool), balanced s p r → tokensFit s p r 0 →
    balanced (s.draw p r unit need pool) p r) ∧
  (∀ (s : State) (t p r unit need : Nat) (pool : Bool), p < 16 → r < 3 → (r < 2 → pool = false → s.hngState p ≠ 3) →
    s.memx.regHeld = [{ p := p, r := r, unit := unit, need := need, pool := pool }] → need ≤ s.rd F.BWG_STATE_HELD p r →
    tokensFit s p r 0 → balanced s p r →
    ∃ s', exec (.requestReachChannel t p r unit) s = .next s' ∧ s'.rd F.BWG_STATE_HELD p r = s.rd F.BWG_STATE_HELD p r - need ∧
      s'.rd F.BWG_SPENT_SPENT p r = s.rd F.BWG_SPENT_SPENT p r + need ∧ s'.memx.regHeld = [] ∧ balanced s' p r ∧
      sameBut [fkey F.BWG_STATE_HELD p r, fkey F.BWG_SPENT_SPENT p r] s s' ∧
      s' = { s with now := s'.now, regs := s'.regs, memx := s'.memx }) ∧
  (∀ (s : State) (t p r unit need : Nat), p < 16 → r < 2 → s.hngState p = 3 →
    s.memx.regHeld = [{ p := p, r := r, unit := unit, need := need }] →
    exec (.requestReachChannel t p r unit) s = .next (s.tick t))

/-- Belfry resets, access faults, cache errors and Ethernet receive. The management core resets an assigned core, whose cache is discarded
with its modified lines counted, and which starts again; a Belfry core's attempt is a level 1 security fault, and no other requester resets
one. A running core's access to an unmapped page or to another partition's page is captured in PGM_FAULT, reaches the core as its outcome,
and stores nothing. A corrected cache error is counted; an uncorrected one is counted and reported at level 1, its line leaves the cache and
the core gets a machine check. A frame that matches no image record is dropped and counted; one that matches is written through the checks
of its partition; one with an uncorrected codeword is no frame. (R208, R236, R238, R239, R240, R247, R248, R249) -/
def Obligations.BelfryEvents : Prop :=
  (∀ (s : State) (t n : Nat), n < 48 → s.on F.MGT_BFY_CORE_ASSIGNED n = true → s.safe = false →
    ∃ s', exec (.bfyCoreReset t n .mgt) s = .next s' ∧ s'.rd F.MGT_BFY_CORE_STATE n = 1 ∧
      s'.rd F.MGT_BFY_CORE_LOST_LINES n = counted F.MGT_BFY_CORE_LOST_LINES (s.rd F.MGT_BFY_CORE_LOST_LINES n) (s.modified n) ∧
      s'.memx.priv = s.memx.priv.filter (fun l => l.core ≠ n) ∧ (s.modified n = 0 → sameMem s s') ∧
      sameBut [fkey F.MGT_BFY_CORE_STATE n, fkey F.MGT_BFY_CORE_LOST_LINES n, fkey F.MGT_BFY_CORE_FREQ_MHZ n] s s') ∧
  (∀ (s : State) (t n p : Nat), n < 48 →
    exec (.bfyCoreReset t n .pf0) s = .next (s.tick t) ∧ exec (.bfyCoreReset t n (.vf p)) s = .next (s.tick t) ∧
    (∃ s' r, exec (.bfyCoreReset t n (.bfy p)) s = .next s' ∧ r.cls = 5 ∧ r.level = 1 ∧ r.part = p ∧ s'.fc = reported s t r ∧
      s' = { s with now := s'.now, fc := s'.fc })) ∧
  (∀ (s : State) (t n p addr len : Nat) (wr : Option Bytes), n < 48 → s.corePart n = some p → p < 16 →
    s.rd F.MGT_BFY_CORE_STATE n = 1 → addr < 2 ^ 40 → 0 < (wr.map (fun b => b.length)).getD len →
    (∀ v, v ∈ pagesOf addr len → s.retrains (s.pmEntry v) = false) →
    pmValid (s.pmLookup 4 (addr / 65536)).1 = false → s.on F.PGM_FAULT_VALID = false →
    ∃ s', exec (.belfryAccessFault t n addr len wr) s = .next s' ∧ s'.rd F.PGM_FAULT_VALID = 1 ∧ s'.rd F.PGM_FAULT_CODE = 1 ∧
      s'.rd F.PGM_FAULT_PARTITION = p ∧ s'.rd F.PGM_FAULT_UNIT = 0x59 ∧ s'.on F.PGM_FAULT_WRITE = wr.isSome ∧
      s'.rd F.PGM_FAULT_ADDRESS = addr ∧ aget s'.host.coreGot n = some { code := 1, data := [] } ∧
      sameRegsBut [.PGM_FAULT] s s' ∧ sameMem s s') ∧
  (∀ (s : State) (t n p addr len : Nat) (wr : Option Bytes), n < 48 → s.corePart n = some p → s.rd F.MGT_BFY_CORE_STATE n = 1 →
    addr < 2 ^ 40 → 0 < (wr.map (fun b => b.length)).getD len → (∀ v, v ∈ pagesOf addr len → s.retrains (s.pmEntry v) = false) →
    pmValid (s.pmLookup 4 (addr / 65536)).1 = true → pmLoc (s.pmLookup 4 (addr / 65536)).1 = 1 →
    pmOwner (s.pmLookup 4 (addr / 65536)).1 ≠ p → s.on F.PGM_FAULT_VALID = false →
    ∃ s' r, exec (.belfryAccessFault t n addr len wr) s = .next s' ∧ s'.rd F.PGM_FAULT_VALID = 1 ∧ s'.rd F.PGM_FAULT_CODE = 2 ∧
      aget s'.host.coreGot n = some { code := 2, data := [] } ∧ r.cls = 5 ∧ r.level = 1 ∧ r.part = p ∧ s'.fc = reported s t r ∧
      sameMem s s') ∧
  (∀ (s : State) (t n p line : Nat) (l : PLine), n < 48 → s.corePart n = some p →
    s.memx.priv.find? (fun l => decide (l.core = n) && decide (l.line = line / 128 * 128)) = some l →
    ∃ s' r, exec (.machineCheck t n line false) s = .next s' ∧
      s'.rd F.MGT_BFY_CORE_CACHE_UNCORR n = counted F.MGT_BFY_CORE_CACHE_UNCORR (s.rd F.MGT_BFY_CORE_CACHE_UNCORR n) 1 ∧
      r.cls = 0 ∧ r.level = 1 ∧ r.part = p ∧ s'.fc = reported s t r ∧ l ∉ s'.memx.priv ∧ (n, 3) ∈ s'.host.coreIrq ∧
      (l.below = none → sameMem s s') ∧ sameBut [fkey F.MGT_BFY_CORE_CACHE_UNCORR n] s s') ∧
  (∀ (s : State) (t n p line : Nat) (l : PLine), n < 48 → s.corePart n = some p →
    s.memx.priv.find? (fun l => decide (l.core = n) && decide (l.line = line / 128 * 128)) = some l →
    ∃ s', exec (.machineCheck t n line true) s = .next s' ∧
      s'.rd F.MGT_BFY_CORE_CACHE_CORR n = counted F.MGT_BFY_CORE_CACHE_CORR (s.rd F.MGT_BFY_CORE_CACHE_CORR n) 1 ∧
      sameBut [fkey F.MGT_BFY_CORE_CACHE_CORR n] s s' ∧ s' = { s with now := s'.now, regs := s'.regs }) ∧
  (∀ (s : State) (t port mac hash dma corr : Nat) (vlan : Option Nat) (b : Bytes), port < 2 → b.length ≤ 9216 →
    s.on F.PWR_STATUS_CONV_ON = true → s.ethMatch port mac vlan = none →
    ∃ s', exec (.ethernetFrameReceive t port mac vlan hash dma b corr 0) s = .next s' ∧
      s'.rd F.MGT_ETH_RX_UNMATCHED port = counted F.MGT_ETH_RX_UNMATCHED (s.rd F.MGT_ETH_RX_UNMATCHED port) 1 ∧
      s'.rd F.MGT_ETH_LINK port = 1 ∧
      s'.rd F.MGT_ETH_FEC_CORR port = counted F.MGT_ETH_FEC_CORR (s.rd F.MGT_ETH_FEC_CORR port) corr ∧
      sameRegsBut [.MGT_ETH] s s' ∧ s' = { s with now := s'.now, regs := s'.regs }) ∧
  (∀ (s : State) (t port mac hash dma corr unc : Nat) (vlan : Option Nat) (b : Bytes), port < 2 → 0 < unc →
    s.on F.PWR_STATUS_CONV_ON = true →
    ∃ s', exec (.ethernetFrameReceive t port mac vlan hash dma b corr unc) s = .next s' ∧
      s'.rd F.MGT_ETH_FEC_UNCORR port = counted F.MGT_ETH_FEC_UNCORR (s.rd F.MGT_ETH_FEC_UNCORR port) unc ∧
      sameRegsBut [.MGT_ETH] s s' ∧ s' = { s with now := s'.now, regs := s'.regs }) ∧
  (∀ (s : State) (t port mac hash dma corr : Nat) (vlan : Option Nat) (b : Bytes) (r : EthRec), port < 2 → b.length ≤ 9216 →
    s.on F.PWR_STATUS_CONV_ON = true → s.ethMatch port mac vlan = some r → r.qpFirst + hash % r.qpCount < 64 →
    let q := 64 * port + (r.qpFirst + hash % r.qpCount)
    let s₁ := (((s.tick t).wr F.MGT_ETH_LINK 1 port).inc F.MGT_ETH_FEC_CORR port 0 corr).inc F.MGT_ETH_FEC_UNCORR port 0 0
    let s₂ : State := { s₁ with host := { s.host with ethQ := aset s.host.ethQ q (agetD s.host.ethQ q 0 + 1) } }
    exec (.ethernetFrameReceive t port mac vlan hash dma b corr 0) s = .next (s₂.devWrite 4 0x5C r.p dma b).2)

/-- An element start takes a credit and a slot. When the running descriptor of an array has its next tile, its group runs, a credit is free,
its spacing has passed and its operands are ready, the element starts: FREE falls by 1 and IN_FLIGHT rises by 1, the slot counts as valid,
it joins the slots in flight last, and a SWAP element moves the shadow tile into the active registers. With no credit free, or before its
spacing has passed, nothing starts. No byte of memory changes. (R31, R33, R34, R36, R141) -/
def Obligations.ElementStartTakesCredit : Prop :=
  (∀ (s s₁ : State) (t pa cyc ext ready st tsc : Nat) (j : Job) (tile : TileSt) (swap : Bool), pa < 272 →
    (s.paJobs pa).head? = some j → s.nextTile pa j = some (tile, swap) → j.stopped = false → s.rd F.CLK_AG_STATE (pa / 17) = 0 →
    0 < s.rd F.SPR_CREDIT_FREE pa → s.rd F.SPR_CREDIT_FREE pa + s.rd F.SPR_CREDIT_IN_FLIGHT pa = 288 → s.mayStart pa ≤ cyc →
    (s.tick t).tileReady j (j.xTile tile.pass) = (.good ext ready st tsc, s₁) → j.slot < ready → (j.slot + 1 ≠ j.m ∨ st = 1) →
    ∃ (s' : State) (f : SlotFl), exec (.elementStart t pa cyc) s = .next s' ∧ s'.rd F.SPR_CREDIT_FREE pa = s.rd F.SPR_CREDIT_FREE pa - 1 ∧
      s'.rd F.SPR_CREDIT_FREE pa + s'.rd F.SPR_CREDIT_IN_FLIGHT pa = 288 ∧
      s'.rd F.SPR_SLOTS_VALID_SLOTS pa = counted F.SPR_SLOTS_VALID_SLOTS (s.rd F.SPR_SLOTS_VALID_SLOTS pa) 1 ∧
      (s'.pa pa).slots = (s.pa pa).slots ++ [f] ∧ f.job = j.id ∧ f.pass = tile.pass ∧ f.slot = (if swap then 0 else j.slot) ∧
      f.start = cyc ∧ f.judged = false ∧ f.drained = false ∧ (s'.pa pa).active = some tile ∧ (s'.pa pa).lastStart = cyc ∧
      (s'.pa pa).gap = j.gap tile.pass ∧
      (swap = true → (s'.pa pa).shadow = none ∧ s'.rd F.SPR_STATUS_SHADOW_READY pa = 0 ∧ s'.rd F.SPR_STATUS_PASS_ACTIVE pa = 1 ∧
        s'.rd F.SPR_STATUS_W pa = j.w % 16) ∧
      sameRegsBut [.SPR_CREDIT, .SPR_SLOTS, .SPR_STATUS, .PGM_FAULT, .MEM_ECC, .CUP_ECC, .BWG_STATE, .BWG_SPENT] s s' ∧ sameMem s s') ∧
  (∀ (s : State) (t pa cyc : Nat), pa < 272 → s.rd F.SPR_CREDIT_FREE pa = 0 → exec (.elementStart t pa cyc) s = .next (s.tick t)) ∧
  (∀ (s : State) (t pa cyc : Nat), pa < 272 → cyc < s.mayStart pa → exec (.elementStart t pa cyc) s = .next (s.tick t))

/-- Shadow rows load in order, and a bad feed read spoils its slot. The next row of the shadow tile that loads, when its group runs, the
SWAP element has passed it, the port has had time for it, its tile has been checked and covers it and its bytes read without error, is added
to the shadow registers, and SHADOW_READY reads 1 exactly after row 255. A read that returns data changes nothing; one for a slot in flight
that returns an uncorrected error marks the element as NaN, raises a level 1 memory fault and ends the descriptor POISONED; one that fails a
page check is recorded at the element's address and ends it TILE_FAILED. (R31, R35, R37, R137, R497) -/
def Obligations.ShadowRowsLoadInOrder : Prop :=
  (∀ (s s₀ s₁ s₂ : State) (t pa cyc q m n ext ready st tsc : Nat) (j : Job) (tile : TileSt) (row : List Val) (sc : Option (List Nat)),
    pa < 272 → s.loadTarget pa = some (j, q) →
    tile = ((s.pa pa).shadow.filter (fun x => decide (x.job = j.id ∧ x.pass = q))).getD { job := j.id, pass := q, rows := [], scales := [] } →
    tile.rows.length < 256 → s.rd F.CLK_AG_STATE (pa / 17) = 0 →
    ((s.pa pa).active = none ∨ (s.pa pa).swapAt + tile.rows.length + 256 ≤ cyc) →
    (tile.rows.length = 0 ∨ (s.pa pa).rowFits tile.wroteAt cyc (j.rowBytes tile.rows.length) = true) →
    (if tile.rows.length = 0 ∧ q % j.perChunk = 0 then (s.tick t).checkChunk j q j.m j.n else (none, j.m, j.n, s.tick t)) = (none, m, n, s₀) →
    s₀.tileReady j (j.yTile q) = (.good ext ready st tsc, s₁) → tile.rows.length < ready →
    s₁.readRow j q tile.rows.length tsc tile.scales = (row, sc, none, s₂) →
    ∃ s', exec (.shadowRowLoad t pa cyc) s = .next s' ∧
      (s'.pa pa).shadow = some { tile with rows := tile.rows ++ [row], scales := tile.scales ++ sc.toList, wroteAt := cyc } ∧
      s'.on F.SPR_STATUS_SHADOW_READY pa = decide (tile.rows.length = 255) ∧
      sameRegsBut [.SPR_STATUS, .PGM_FAULT, .MEM_ECC, .CUP_ECC, .BWG_STATE, .BWG_SPENT] s s' ∧ sameMem s s') ∧
  (∀ (s : State) (t pa n k : Nat), pa < 272 → k < 1024 → exec (.feedReadReturn t pa n k .data) s = .next (s.tick t)) ∧
  (∀ (s : State) (t pa n k : Nat) (f : SlotFl) (j : Job), pa < 272 → k < 1024 → (s.pa pa).slots[n]? = some f → f.judged = false →
    f.drained = false → s.job f.job = some j → k < shapeK j.shape →
    ∃ s' r, exec (.feedReadReturn t pa n k .uncorrected) s = .next s' ∧
      (s'.pa pa).slots = ((s.pa pa).putSlot (f.spoil j.shape k)).slots ∧ s'.job f.job = some (j.fail 7 0 f.pass) ∧
      r.cls = 0 ∧ r.level = 1 ∧ r.master = 0x30 + j.g ∧ r.part = j.p ∧ s'.fc = reported s t r ∧ s'.regs = s.regs ∧ sameMem s s') ∧
  (∀ (s : State) (t pa n k c : Nat) (f : SlotFl) (j : Job), pa < 272 → k < 1024 → (s.pa pa).slots[n]? = some f → f.judged = false →
    f.drained = false → s.job f.job = some j → k < shapeK j.shape → 1 ≤ c → c ≤ 4 → s.on F.PGM_FAULT_VALID = false →
    ∃ s', exec (.feedReadReturn t pa n k (.failed c)) s = .next s' ∧
      (s'.pa pa).slots = ((s.pa pa).putSlot (f.spoil j.shape k)).slots ∧
      s'.job f.job = some (j.fail 4 (stwCode c) (j.passInfo f.pass).chunk) ∧ s'.on F.PGM_FAULT_VALID = true ∧
      s'.rd F.PGM_FAULT_CODE = c ∧ s'.rd F.PGM_FAULT_ADDRESS = j.elemAddr f.pass f.slot k % 2 ^ 48 ∧
      sameRegsBut [.PGM_FAULT] s s' ∧ sameMem s s')

/-- A checksum that fails marks the step bad, one that holds leaves no mark. The verdict on the oldest unjudged slot: where the sum of
results agrees with E within the tolerance no register changes; where it does not, ROW_MISMATCH counts, the step of the partition is marked
bad, a level 1 array fault is raised and the descriptor carries the mark; a special result is skipped and counted. The verdict on a pass
whose slots have all been judged counts the pass, mismatch or not, and removes it. (R38, R39, R386, R388, R389) -/
def Obligations.ChecksumVerdicts : Prop :=
  (∀ (s : State) (t pa cyc : Nat) (um ue : Int) (f : SlotFl) (j : Job), pa < 272 →
    (s.pa pa).slots.find? (fun x => !x.judged) = some f → s.job f.job = some j → j.footAt f.start + 4 ≤ cyc →
    f.special = false → f.phys.any ColRes.special = false → j.columnFails f um ue = false →
    ∃ s', exec (.checksumColumnVerdict t pa cyc um ue) s = .next s' ∧
      (∀ x, x ∈ (s'.pa pa).slots → x.job = f.job → x.pass = f.pass → x.slot = f.slot → x.judged = true) ∧
      s' = { s with now := s'.now, pas := s'.pas }) ∧
  (∀ (s : State) (t pa cyc : Nat) (um ue : Int) (f : SlotFl) (j : Job), pa < 272 →
    (s.pa pa).slots.find? (fun x => !x.judged) = some f → s.job f.job = some j → j.footAt f.start + 4 ≤ cyc →
    f.special = false → f.phys.any ColRes.special = false → j.columnFails f um ue = true →
    ∃ s', exec (.checksumColumnVerdict t pa cyc um ue) s = .next s' ∧
      s'.rd F.SPR_CHK_CNT_ROW_MISMATCH pa = counted F.SPR_CHK_CNT_ROW_MISMATCH (s.rd F.SPR_CHK_CNT_ROW_MISMATCH pa) 1 ∧
      s'.on F.GAL_GOAL_BAD j.p = true ∧ s'.on F.SPR_CHK_FIRST_VALID pa = true ∧ s'.on F.GAL_FIRST_VALID = true ∧
      s'.job f.job = some { j with chk := true } ∧ sameMem s s') ∧
  (∀ (s : State) (t pa cyc : Nat) (um ue : Int) (f : SlotFl) (j : Job), pa < 272 →
    (s.pa pa).slots.find? (fun x => !x.judged) = some f → s.job f.job = some j → j.footAt f.start + 4 ≤ cyc → f.special = true →
    ∃ s', exec (.checksumColumnVerdict t pa cyc um ue) s = .next s' ∧
      s'.rd F.GAL_CNT_SKIPPED_SPECIAL j.p = counted F.GAL_CNT_SKIPPED_SPECIAL (s.rd F.GAL_CNT_SKIPPED_SPECIAL j.p) 1 ∧
      sameBut [fkey F.GAL_CNT_SKIPPED_SPECIAL j.p] s s' ∧ s' = { s with now := s'.now, regs := s'.regs, pas := s'.pas }) ∧
  (∀ (s : State) (t pa cyc : Nat) (ups : List (Nat × Int × Int)) (k : PassChk) (j : Job), pa < 272 →
    (s.pa pa).checks.head? = some k → s.job k.job = some j → j.m ≤ k.judged → j.footAt k.lastStart + 48 ≤ cyc →
    ∃ s', exec (.checksumRowVerdict t pa cyc ups) s = .next s' ∧
      s'.rd F.SPR_PASS_CNT_PASSES pa = counted F.SPR_PASS_CNT_PASSES (s.rd F.SPR_PASS_CNT_PASSES pa) 1 ∧
      (s'.pa pa).checks = (s.pa pa).checks.drop 1 ∧ (∃ x, s'.job k.job = some x ∧ x.done = j.done + 1) ∧ sameMem s s')

/-- The drain of a slot returns its credit and writes its accumulator words. When the time of the oldest slot not yet drained has come, the
drain takes it, whether or not its checks have been judged: its credit returns (FREE + IN_FLIGHT stays 288), except that with block scales
along m a row of the last pass keeps its credit while the drain holds it, and the 32nd returns all 32. Of a pass that is not the last into
its sum, it writes no byte outside the accumulator words of the slot's row. Before its time it does nothing. (R34, R99, R100, R101, R112) -/
def Obligations.DrainReturnsCredit : Prop :=
  (∀ (s : State) (t pa cyc k : Nat) (cor unc : List Nat) (f : SlotFl) (j : Job), pa < 272 →
    (s.pa pa).slots.find? (fun x => !x.drained) = some f → s.job f.job = some j →
    f.start + j.w + (if j.strict then 4098 else 258) + (if j.shape = 3 then 255 else shapeN j.shape - 1) + shapeExtra j.shape
      + j.drainLag f.pass ≤ cyc → j.held.length < 32 →
    k = (if j.final ∧ j.lastInto f.pass ∧ j.exports = false ∧ j.outKind = 2 ∧ j.axisM then
        (if j.held.length = 31 then 32 else 0) else 1) →
    s.rd F.SPR_CREDIT_FREE pa + s.rd F.SPR_CREDIT_IN_FLIGHT pa = 288 → k ≤ s.rd F.SPR_CREDIT_IN_FLIGHT pa →
    ∃ s', exec (.drainSlot t pa cyc cor unc) s = .next s' ∧ s'.rd F.SPR_CREDIT_FREE pa = s.rd F.SPR_CREDIT_FREE pa + k ∧
      s'.rd F.SPR_CREDIT_FREE pa + s'.rd F.SPR_CREDIT_IN_FLIGHT pa = 288 ∧
      (s'.pa pa).slots = ((s.pa pa).putSlot { f with drained := true }).slots ∧
      (∃ x, s'.job f.job = some x ∧ x.drained = j.drained + 1)) ∧
  (∀ (s : State) (t pa cyc : Nat) (cor unc : List Nat) (f : SlotFl) (j : Job), pa < 272 →
    (s.pa pa).slots.find? (fun x => !x.drained) = some f → s.job f.job = some j → (j.final && j.lastInto f.pass) = false →
    f.start + j.w + (if j.strict then 4098 else 258) + (if j.shape = 3 then 255 else shapeN j.shape - 1) + shapeExtra j.shape + 8 ≤ cyc →
    ∃ s', exec (.drainSlot t pa cyc cor unc) s = .next s' ∧
      ∀ a, (∀ n, n < j.n →
          a < accKey j.pa (4 * accWord j.accum (j.slotNo + (if (j.passInfo f.pass).imagOut then 1 else 0)) (f.slot * j.n + n)) ∨
          accKey j.pa (4 * accWord j.accum (j.slotNo + (if (j.passInfo f.pass).imagOut then 1 else 0)) (f.slot * j.n + n))
            + 4 * accWords j.accum ≤ a) →
        s'.rdByte a = s.rdByte a) ∧
  (∀ (s : State) (t pa cyc : Nat) (cor unc : List Nat) (f : SlotFl) (j : Job), pa < 272 →
    (s.pa pa).slots.find? (fun x => !x.drained) = some f → s.job f.job = some j →
    cyc < f.start + j.w + (if j.strict then 4098 else 258) + (if j.shape = 3 then 255 else shapeN j.shape - 1) + shapeExtra j.shape
      + j.drainLag f.pass →
    exec (.drainSlot t pa cyc cor unc) s = .next (s.tick t))

/-- Contributions arrive beat by beat, stall, or are rejected. Outside the safe state: a first beat whose handle lies at or above COUNT is
taken and rejected NOT_OPEN at the unit under the partition's home group, storing nothing. A further beat of a contribution in progress,
applied without error and not the last, is taken and advances it. A contribution that stalls fails the entry, which closes and counts
FAILED, and every contribution in progress there is rejected NOT_OPEN, unless it was being copied into a hold slot, which is freed. A held
contribution whose index is next is applied and its slot freed. (R114, R116, R117, R118, R119, R499, R500) -/
def Obligations.Contributions : Prop :=
  (∀ (s : State) (t k : Nat) (b : Beat), s.safe = false → s.beats[k]? = some b → (s.beats.take k).any (fun a => sameStream a b) = false →
    b.first = 0 → aget s.atu (redKey b.p b.hdr.handle) = none → s.rd F.MEM_REDTAB_COUNT b.p ≤ b.hdr.handle →
    ∃ s', exec (.contributionArrive t (.drain k)) s = .next s' ∧ s'.beats = s.beats.erase b ∧
      s'.rd F.CUP_ATU_REJECT_NOT_OPEN ((s.homeOf b.p).getD 0)
        = counted F.CUP_ATU_REJECT_NOT_OPEN (s.rd F.CUP_ATU_REJECT_NOT_OPEN ((s.homeOf b.p).getD 0)) 1 ∧ sameMem s s') ∧
  (∀ (s s₀ s₁ s₂ : State) (t k : Nat) (b : Beat) (e : Bytes) (x : AtuEntry) (i i₂ : PartIn), s.safe = false → s.beats[k]? = some b →
    (s.beats.take k).any (fun a => sameStream a b) = false → aget s.atu (redKey b.p b.hdr.handle) = some x →
    x.ins.find? (fun y => decide (y.dev = s.fabAddr) && decide (y.job = b.job) && decide (y.index = b.hdr.index)
      && decide (y.gen = b.gen)) = some i →
    b.first = i.got → i.dead = false → i.hold = none → s₀ = { s.tick t with beats := s.beats.erase b } →
    s₀.devRead 4 (unitMaster x.unit) b.p (s₀.redAddr b.p b.hdr.handle) 64 = (none, e, false, s₁) →
    i₂ = { i with got := b.first + b.vals.length, lastAt := s₁.now } →
    (s₁.setAtu b.p b.hdr.handle { x with ins := x.ins.map (fun z => if z = i then i₂ else z) }).applyVals b.p x.unit e i.index b.first b.vals
      = (true, s₂) → b.first + b.vals.length < redElems e →
    ∃ s', exec (.contributionArrive t (.drain k)) s = .next s' ∧ s'.beats = s.beats.erase b ∧
      aget s'.atu (redKey b.p b.hdr.handle) = some { x with ins := x.ins.map (fun z => if z = i then i₂ else z) } ∧ sameMem s₂ s') ∧
  (∀ (s : State) (t p h index : Nat) (stale : Bool) (x : AtuEntry) (i : PartIn), p < 16 → s.safe = false →
    aget s.atu (redKey p h) = some x →
    x.ins.find? (fun y => decide (y.index = index) && !y.dead) = some i → (stale = true ∨ i.lastAt + 1000000 ≤ max s.now t) →
    i.hold = none →
    ∃ s' x', exec (.contributionStall t p h index stale) s = .next s' ∧ aget s'.atu (redKey p h) = some x' ∧ x'.opened = false ∧
      x'.holds = [] ∧ (∀ y, y ∈ x'.ins → y.dead = true) ∧
      s'.rd (rejectFld x.unit 1).1 (rejectFld x.unit 1).2
        = counted (rejectFld x.unit 1).1 (s.rd (rejectFld x.unit 1).1 (rejectFld x.unit 1).2) (x.ins.filter (fun y => !y.dead)).length ∧
      s'.rd (atuFld x.unit F.MEM_ATU_STATUS_FAILED F.CUP_ATU_STATUS_FAILED).1 (atuFld x.unit F.MEM_ATU_STATUS_FAILED F.CUP_ATU_STATUS_FAILED).2
        = counted (atuFld x.unit F.MEM_ATU_STATUS_FAILED F.CUP_ATU_STATUS_FAILED).1
            (s.rd (atuFld x.unit F.MEM_ATU_STATUS_FAILED F.CUP_ATU_STATUS_FAILED).1
              (atuFld x.unit F.MEM_ATU_STATUS_FAILED F.CUP_ATU_STATUS_FAILED).2) 1) ∧
  (∀ (s : State) (t p h index k : Nat) (x : AtuEntry) (i : PartIn), p < 16 → s.safe = false → aget s.atu (redKey p h) = some x →
    x.ins.find? (fun y => decide (y.index = index) && !y.dead) = some i → i.hold = some k →
    ∃ s', exec (.contributionStall t p h index true) s = .next s' ∧
      aget s'.atu (redKey p h) = some { x with ins := x.ins.filter (fun z => z ≠ i) } ∧ sameMem s s') ∧
  (∀ (s s₀ s₁ s₂ s₃ : State) (t p h : Nat) (e d : Bytes) (x : AtuEntry) (y : PartIn), p < 16 → s.safe = false →
    aget s.atu (redKey p h) = some x → x.opened = true → x.holds.find? (fun z => z.index = x.next) = some y →
    s₀ = (s.tick t).setAtu p h { x with holds := x.holds.filter (fun z => z ≠ y), ins := x.ins ++ [{ y with hold := none, lastAt := max s.now t }] } →
    s₀.devRead 4 (unitMaster x.unit) p (s.redAddr p h) 64 = (none, e, false, s₁) →
    s₁.devRead 4 (unitMaster x.unit) p (holdAddr e (y.hold.getD 0) 0) (redWidth e * redElems e) = (none, d, false, s₂) →
    s₂.applyVals p x.unit e y.index 0 ((List.range (redElems e)).map (fun i => leAt d (redWidth e * i) (redWidth e))) = (true, s₃) →
    redClass e = 1 →
    ∃ s' x', exec (.heldContributionApply t p h) s = .next s' ∧ aget s'.atu (redKey p h) = some x' ∧ y ∉ x'.holds ∧
      (x'.next = x.next + 1 ∨ x'.opened = false))

/-- Stairway copies raise READY row by row and stop at a bad source. A slot or row of an active copy that is read, converted and written
without error raises READY by 1 where the copy goes on. An uncorrected source error of a LINEAR copy that is its engine's only command ends
it with code 05h and a level 1 memory fault; a failed page check ends it with 06h, or 05h for a poisoned page; the first failure is
captured. (R127, R128, R133, R448) -/
def Obligations.StairwayCopies : Prop :=
  (∀ (s s₁ : State) (t g e : Nat) (j j₁ : Job), g < 16 → e < 4 → s.copyOn g e = some j → s.on F.STW_CMD_ACTIVE g e = true →
    (s.tick t).copyRow j = (none, s₁, j₁) → j₁.g = g → j₁.engine = e → (s₁.copyRaise j₁).on F.STW_CMD_ACTIVE g e = true →
    ∃ s', exec (.stairwaySlotWritten t g e) s = .next s' ∧ s'.rd F.STW_PROG_READY g e = (j₁.rows + 1) % 2048 ∧
      s'.on F.STW_CMD_ACTIVE g e = true ∧ (s'.hang j₁.p).progress = max s.now t) ∧
  (∀ (s : State) (t g e : Nat) (j : Job), g < 16 → e < 4 → s.jobs = [j] → s.copyOn g e = some j → j.engine = e → j.layKind = 0 →
    s.on F.STW_CMD_ACTIVE g e = true → s.on F.STW_FIRST_VALID g = false →
    ∃ s' r, exec (.stairwaySourceError t g e 0) s = .next s' ∧ s'.rd F.STW_PROG_LAST_CODE g e = 5 ∧ s'.rd F.STW_CMD_ACTIVE g e = 0 ∧
      s'.rd F.STW_FIRST_VALID g = 1 ∧ s'.rd F.STW_FIRST_CODE g = 5 ∧ (∀ x, x ∈ s'.jobs → x.ended = true ∧ x.bad.isSome = true) ∧
      r.cls = 0 ∧ r.level = 1 ∧ r.part = j.p ∧ s'.fc = reported s t r ∧ sameMem s s') ∧
  (∀ (s : State) (t g e check : Nat) (j : Job), g < 16 → e < 4 → 1 ≤ check → check ≤ 4 → s.jobs = [j] → s.copyOn g e = some j →
    j.engine = e → j.layKind = 0 → s.on F.STW_CMD_ACTIVE g e = true → s.on F.PGM_FAULT_VALID = false →
    ∃ s', exec (.stairwaySourceError t g e check) s = .next s' ∧
      s'.rd F.STW_PROG_LAST_CODE g e = (if check = 4 then 5 else 6) ∧ s'.rd F.STW_CMD_ACTIVE g e = 0 ∧
      s'.rd F.PGM_FAULT_CODE = check ∧ sameMem s s')

/-- Doorbells move the tail and the completion head, or are refused. A doorbell to an open context of a running group, with a tail at most
one ring ahead of the head and not behind the tail before, and a completion head not behind the one before, sets both and arms the interrupt
as its ARM bit says; where records wait already the interrupt is raised at once instead. A word outside those bounds, and a doorbell to a
context that is not open, is refused: BAD_DB counts and a level 1 turret/sequencer fault is raised. A sleeping group's doorbell is held, one
behind an earlier posted write of its sender waits behind it, one from a Belfry core to another partition's page is a level 1 security
fault, and one from a VF reaches nothing. (R239, R286, R301, R303, R309, R311) -/
def Obligations.Doorbells : Prop :=
  (∀ (s : State) (t g c w : Nat) (fn : Fn) (x : CtxSt), g < 16 → c < 8 → s.fnReaches fn g = true → s.safe = false →
    s.behind (.doorbell fn g c w) = none → s.groupRuns g = true → s.ctx g c = some x →
    ahead (bits w 0 16) (s.rd F.PCI_RING_SQ_HEAD g c) ≤ 2 ^ x.sqLog2 →
    ahead x.sqTail (s.rd F.PCI_RING_SQ_HEAD g c) ≤ ahead (bits w 0 16) (s.rd F.PCI_RING_SQ_HEAD g c) →
    ahead (s.rd F.PCI_RING_CQ_TAIL g c) (bits w 16 16) ≤ ahead (s.rd F.PCI_RING_CQ_TAIL g c) x.cqHead →
    ∃ s', exec (.doorbellWrite t fn g c w) s = .next s' ∧
      s'.ctx g c = some { x with sqTail := bits w 0 16, cqHead := bits w 16 16 } ∧
      (w.testBit 32 = false → s'.on F.PCI_RING_ARMED g c = false ∧ s'.host = s.host) ∧
      (w.testBit 32 = true → s.rd F.PCI_RING_CQ_TAIL g c = bits w 16 16 → s'.on F.PCI_RING_ARMED g c = true) ∧
      (w.testBit 32 = true → s.rd F.PCI_RING_CQ_TAIL g c ≠ bits w 16 16 → s'.on F.PCI_RING_ARMED g c = false ∧
        (x.irqFn = some .pf0 → (Fn.pf0, 64 + 8 * g + c) ∈ s'.host.vecs) ∧
        (x.irqCore.isSome = true → (x.irqCore.getD 0, 64 + 8 * g + c) ∈ s'.host.coreIrq)) ∧
      sameBut [fkey F.PCI_RING_ARMED g c, fkey F.AG_CTX_STATE g c, fkey F.AG_CTX_LEVEL g c, fkey F.AG_CTX_IN_REGION g c] s s' ∧
      s' = { s with now := s'.now, regs := s'.regs, ctxs := s'.ctxs, host := s'.host, pwr := s'.pwr }) ∧
  (∀ (s : State) (t g c w : Nat) (fn : Fn), g < 16 → c < 8 → s.fnReaches fn g = true → s.safe = false →
    s.behind (.doorbell fn g c w) = none → s.groupRuns g = true → s.ctx g c = none →
    ∃ s' r, exec (.doorbellWrite t fn g c w) s = .next s' ∧
      s'.rd F.PCI_RING_BAD_DB g c = counted F.PCI_RING_BAD_DB (s.rd F.PCI_RING_BAD_DB g c) 1 ∧ r.cls = 2 ∧ r.level = 1 ∧ r.source = g ∧
      s'.fc = reported s t r ∧ sameBut [fkey F.PCI_RING_BAD_DB g c] s s' ∧ s' = { s with now := s'.now, regs := s'.regs, fc := s'.fc }) ∧
  (∀ (s : State) (t g c w : Nat) (fn : Fn) (x : CtxSt), g < 16 → c < 8 → s.fnReaches fn g = true → s.safe = false →
    s.behind (.doorbell fn g c w) = none → s.groupRuns g = true → s.ctx g c = some x →
    (2 ^ x.sqLog2 < ahead (bits w 0 16) (s.rd F.PCI_RING_SQ_HEAD g c) ∨
     ahead (bits w 0 16) (s.rd F.PCI_RING_SQ_HEAD g c) < ahead x.sqTail (s.rd F.PCI_RING_SQ_HEAD g c) ∨
     ahead (s.rd F.PCI_RING_CQ_TAIL g c) x.cqHead < ahead (s.rd F.PCI_RING_CQ_TAIL g c) (bits w 16 16)) →
    ∃ s' r, exec (.doorbellWrite t fn g c w) s = .next s' ∧
      s'.rd F.PCI_RING_BAD_DB g c = counted F.PCI_RING_BAD_DB (s.rd F.PCI_RING_BAD_DB g c) 1 ∧ r.cls = 2 ∧ r.level = 1 ∧
      s'.fc = reported s t r ∧ s'.ctxs = s.ctxs ∧ sameMem s s') ∧
  (∀ (s : State) (t g c w : Nat) (fn : Fn), g < 16 → c < 8 → s.fnReaches fn g = true → s.safe = false →
    s.behind (.doorbell fn g c w) = none → (s.rd F.CLK_AG_STATE g = 1 ∨ s.rd F.CLK_AG_STATE g = 2) →
    ∃ s', exec (.doorbellWrite t fn g c w) s = .next s' ∧ s'.pwr.held = s.pwr.held ++ [(g, .doorbell fn g c w)] ∧
      (∃ q, q ∈ s'.pwr.wakeQ ∧ q.g = g) ∧ s' = { s with now := s'.now, pwr := s'.pwr }) ∧
  (∀ (s : State) (t g c w k : Nat) (fn : Fn), g < 16 → c < 8 → s.fnReaches fn g = true → s.safe = false →
    s.behind (.doorbell fn g c w) = some k →
    exec (.doorbellWrite t fn g c w) s = .next { s.tick t with pwr := { s.pwr with held := s.pwr.held ++ [(k, .doorbell fn g c w)] } }) ∧
  (∀ (s : State) (t g c w p : Nat), g < 16 → c < 8 → s.fnReaches (.bfy p) g = false →
    ∃ s' r, exec (.doorbellWrite t (.bfy p) g c w) s = .next s' ∧ r.cls = 5 ∧ r.level = 1 ∧ r.part = p ∧ s'.fc = reported s t r ∧
      s' = { s with now := s'.now, fc := s'.fc }) ∧
  (∀ (s : State) (t g c w n : Nat), g < 16 → c < 8 → s.fnReaches (.vf n) g = false →
    exec (.doorbellWrite t (.vf n) g c w) s = .next (s.tick t))

/-- A descriptor reaches the head of its context. A posted descriptor, with its extension and, of a COPY, its command, read without error,
that validates and does not wait becomes its context's head, one completion slot reserved and no byte of memory changed. One that fails
validation ends REJECTED with its detail: the context halts with HALT_STATUS 01h and a level 1 turret/sequencer fault. (R155, R156, R161,
R163, R310) -/
def Obligations.DescriptorHeads : Prop :=
  (∀ (s s₁ s₂ s₃ : State) (t g c p addr next idx avail : Nat) (alt : Bool) (x : CtxSt) (b e cmd : Bytes) (j : Job), g < 16 → c < 8 →
    nonePosted s → p = s.rd F.AG_CONFIG_PARTITION g → s.ctx g c = some x → s.rd F.AG_CTX_STATE g c ≠ 2 → x.head = none →
    x.region.bind (fun r => r.stop) = none → x.ends.any (fun e => e.op = 6 && decide (e.status = 0)) = false → s.canReserve g c = true →
    s.seqUp p g = true → s.headSlot g c x = some (addr, next, idx, alt, avail) →
    (s.tick t).devRead (dieOf g) g p addr 64 = (none, b, false, s₁) →
    j = { id := s₁.jobCtr + 1, g := g, c := c, p := p, idx := idx, alt := alt, level := (x.region.map (fun r => r.level)).getD 0,
          inReg := decide (leAt b 0 1 = 5) || (x.region.isSome && decide (leAt b 0 1 ≠ 6)), desc := b, ext := e,
          unit := unitOf (leAt b 0 1) (leAt b 9 1) } →
    ((leAt b 0 1 ≠ 1 ∨ j.hasExt = false) ∧ e = [] ∧ s₂ = s₁ ∨
      leAt b 0 1 = 1 ∧ j.hasExt = true ∧ 2 ≤ avail ∧ s₁.devRead (dieOf g) g p next 64 = (none, e, false, s₂)) →
    ((leAt b 0 1 ≠ 2 ∨ j.bad01 = true ∨ 3 < j.target) ∧ cmd = [] ∧ s₃ = ({ s₂ with jobCtr := j.id } : State).reserve g c ∨
      leAt b 0 1 = 2 ∧ j.bad01 = false ∧ j.target ≤ 3 ∧
        (({ s₂ with jobCtr := j.id } : State).reserve g c).devRead (dieOf g) g p (leAt b 16 6) 64 = (none, cmd, false, s₃)) →
    s₃.validate { j with cmd := cmd } = 0 → j.waits = false → s.rd F.PCI_RING_RESERVED_SLOTS g c < 4095 →
    ∃ s', exec (.descriptorHead t g c) s = .next s' ∧ s'.ctx g c = some { x with head := some { job := { j with cmd := cmd }, waits := false } } ∧
      s'.rd F.PCI_RING_RESERVED_SLOTS g c = s.rd F.PCI_RING_RESERVED_SLOTS g c + 1 ∧ s'.rd F.AG_CTX_STATE g c = 1 ∧
      s'.jobCtr = s.jobCtr + 1 ∧ sameRegsBut [.PCI_RING, .AG_CTX, .MEM_ECC, .CUP_ECC, .BWG_STATE, .BWG_SPENT] s s' ∧ sameMem s s') ∧
  (∀ (s s₁ s₂ s₃ : State) (t g c p addr next idx avail : Nat) (alt : Bool) (x : CtxSt) (b e cmd : Bytes) (j : Job), g < 16 → c < 8 →
    nonePosted s → p = s.rd F.AG_CONFIG_PARTITION g → s.ctx g c = some x → s.rd F.AG_CTX_STATE g c ≠ 2 → x.head = none →
    x.region.bind (fun r => r.stop) = none → x.ends.any (fun e => e.op = 6 && decide (e.status = 0)) = false → s.canReserve g c = true →
    s.seqUp p g = true → s.headSlot g c x = some (addr, next, idx, alt, avail) →
    (s.tick t).devRead (dieOf g) g p addr 64 = (none, b, false, s₁) →
    j = { id := s₁.jobCtr + 1, g := g, c := c, p := p, idx := idx, alt := alt, level := (x.region.map (fun r => r.level)).getD 0,
          inReg := decide (leAt b 0 1 = 5) || (x.region.isSome && decide (leAt b 0 1 ≠ 6)), desc := b, ext := e,
          unit := unitOf (leAt b 0 1) (leAt b 9 1) } →
    ((leAt b 0 1 ≠ 1 ∨ j.hasExt = false) ∧ e = [] ∧ s₂ = s₁ ∨
      leAt b 0 1 = 1 ∧ j.hasExt = true ∧ 2 ≤ avail ∧ s₁.devRead (dieOf g) g p next 64 = (none, e, false, s₂)) →
    ((leAt b 0 1 ≠ 2 ∨ j.bad01 = true ∨ 3 < j.target) ∧ cmd = [] ∧ s₃ = ({ s₂ with jobCtr := j.id } : State).reserve g c ∨
      leAt b 0 1 = 2 ∧ j.bad01 = false ∧ j.target ≤ 3 ∧
        (({ s₂ with jobCtr := j.id } : State).reserve g c).devRead (dieOf g) g p (leAt b 16 6) 64 = (none, cmd, false, s₃)) →
    s₃.validate { j with cmd := cmd } ≠ 0 →
    ∃ s' r e' x', exec (.descriptorHead t g c) s = .next s' ∧ s'.rd F.AG_CTX_STATE g c = 2 ∧ s'.rd F.AG_CTX_HALT_STATUS g c = 1 ∧
      s'.ctx g c = some x' ∧ x'.head = none ∧ x'.ends = x.ends ++ [e'] ∧ e'.status = 1 ∧ e'.job = j.id ∧ e'.tag = j.tag ∧
      e'.detail = s₃.validate { j with cmd := cmd } ∧
      r.cls = 2 ∧ r.level = 1 ∧ r.code = 1 ∧ s'.fc = (s₃.raise r).fc ∧ sameMem s s')

/-- The head of a context starts in round-robin order. Where its context is next, a NOP ends at once and its head leaves; a REGION_BEGIN
opens its region; a REGION_END closes it and its withheld rings leave in order; a COPY, a TURRET and a prepared MATMUL that are not sampled
join the started descriptors, the head leaves and the ring's head moves past them. Where no context can start nothing does. (R151, R152,
R153, R176) -/
def Obligations.DescriptorStarts : Prop :=
  (∀ (s : State) (t g c : Nat) (x : CtxSt) (h : Head), g < 16 → c < 8 → (∀ k, k ∈ s.jobs → k.echo = false) → s.nextCtx g = some c →
    s.ctx g c = some x → x.head = some h → h.job.g = g → h.job.c = c → h.job.op = 0 → h.job.alt = false → x.region = none →
    h.job.ringBell.testBit 15 = false → h.job.flags.testBit 1 = false →
    ∃ s', exec (.descriptorStart t g c) s = .next s' ∧ s'.ctx g c = some { x with head := none } ∧
      s'.rd F.PCI_RING_SQ_HEAD g c = (h.job.idx + h.job.slots) % 65536 ∧ s'.rings = s.rings ∧
      s'.jobs = s.jobs.filter (fun k => k.id ≠ h.job.id) ∧ sameMem s s') ∧
  (∀ (s : State) (t g c : Nat) (x : CtxSt) (h : Head), g < 16 → c < 8 → (∀ k, k ∈ s.jobs → k.echo = false) → s.nextCtx g = some c →
    s.ctx g c = some x → x.head = some h → h.job.g = g → h.job.c = c → h.job.op = 5 → x.region = none →
    ∃ s' x' r, exec (.descriptorStart t g c) s = .next s' ∧ s'.ctx g c = some x' ∧ x'.head = none ∧ x'.region = some r ∧
      r.start = h.job.idx ∧ r.span = h.job.span ∧ r.levelMax = h.job.levelMax ∧ r.altAddr = h.job.altAddr ∧ r.level = 0) ∧
  (∀ (s : State) (t g c : Nat) (x : CtxSt) (h : Head) (r : RegionSt), g < 16 → c < 8 → (∀ k, k ∈ s.jobs → k.echo = false) →
    s.nextCtx g = some c → s.ctx g c = some x → x.head = some h → h.job.g = g → h.job.c = c → h.job.op = 6 → h.job.inReg = false →
    h.job.ringBell.testBit 15 = false → x.region = some r →
    ∃ s' x', exec (.descriptorStart t g c) s = .next s' ∧ s'.ctx g c = some x' ∧ x'.head = none ∧ x'.region = none ∧
      s'.rings = s.rings ++ r.withheld.map (fun e => { p := h.job.p, bell := e.1, count := e.2, from_ := h.job.p, src := g, c := c }) ∧
      (0 < r.level → s'.rd F.PCI_RING_SQ_HEAD g c = (r.start + r.span) % 65536) ∧ sameMem s s') ∧
  (∀ (s : State) (t g c : Nat) (x : CtxSt) (h : Head), g < 16 → c < 8 → (∀ k, k ∈ s.jobs → k.echo = false) → s.nextCtx g = some c →
    s.ctx g c = some x → x.head = some h → h.echoed = false → h.job.g = g → h.job.c = c → h.job.op = 3 → h.job.alt = false →
    s.on F.GAL_GOAL_GALLERY h.job.p = false →
    ∃ s' j, exec (.descriptorStart t g c) s = .next s' ∧ s'.jobs = s.jobs ++ [j] ∧ j.id = h.job.id ∧ j.desc = h.job.desc ∧ j.pa = g ∧
      j.gen = s.rd F.HNG_STATUS_GEN h.job.p ∧ j.startAt = max s.now t ∧
      s'.rd F.PCI_RING_SQ_HEAD g c = (h.job.idx + h.job.slots) % 65536 ∧ sameMem s s') ∧
  (∀ (s : State) (t g c : Nat) (x : CtxSt) (h : Head), g < 16 → c < 8 → (∀ k, k ∈ s.jobs → k.echo = false) → s.nextCtx g = some c →
    s.ctx g c = some x → x.head = some h → h.echoed = false → h.job.g = g → h.job.c = c → h.job.op = 2 → h.job.alt = false →
    s.on F.GAL_GOAL_GALLERY h.job.p = false →
    ∃ s' j, exec (.descriptorStart t g c) s = .next s' ∧ j ∈ s'.jobs ∧ j.id = h.job.id ∧ j.desc = h.job.desc ∧
      j.gen = s.rd F.HNG_STATUS_GEN h.job.p ∧ s'.rd F.PCI_RING_SQ_HEAD g c = (h.job.idx + h.job.slots) % 65536) ∧
  (∀ (s s₁ : State) (t g c : Nat) (x : CtxSt) (h : Head) (j : Job), g < 16 → c < 8 → (∀ k, k ∈ s.jobs → k.echo = false) →
    s.nextCtx g = some c → s.ctx g c = some x → x.head = some h → h.echoed = false → h.job.echo = false → h.job.g = g → h.job.c = c →
    h.job.op = 1 →
    s.on F.GAL_GOAL_GALLERY h.job.p = false →
    ({ s.tick t with lastCtx := aset s.lastCtx g c } : State).prepareMatmul { s.latch h.job with
      startAt := (s.tick t).now, pa := 17 * g + s.mapField g h.job.target % 32 } = (none, j, s₁) →
    ∃ s', exec (.descriptorStart t g c) s = .next s' ∧ j ∈ s'.jobs ∧ s'.rd F.SPR_AMAX_AMAX j.pa = 0 ∧
      s'.rd F.SPR_CENSUS_A_NORMAL j.pa = 0 ∧ (∀ x', s'.ctx g c = some x' → x'.head = none)) ∧
  (∀ (s : State) (t g c : Nat), g < 16 → c < 8 → (∀ k, k ∈ s.jobs → k.echo = false) → s.nextCtx g ≠ some c →
    exec (.descriptorStart t g c) s = .next (s.tick t))

/-- Descriptors retire, levels start, completion records are written. A started descriptor whose outcome stands and that was not sampled
retires: it leaves the started descriptors, is a progress event, and, outside a region, where a record is asked for, waits for it with its
status and tag. A promoted region starts its next level from a sound level-table entry. A record whose page takes it is written at the
completion tail through the checks of the group's partition; the tail moves on by 1, a reserved slot is released, and an armed interrupt is
raised once. (R153, R160, R162, R178, R245, R310, R311, R448) -/
def Obligations.DescriptorsRetire : Prop :=
  (∀ (s : State) (t g c k : Nat) (x : CtxSt) (j : Job) (o : Nat × Nat × Nat), g < 16 → c < 8 → (s.jobsOf g c)[k]? = some j →
    s.jobOutcome j = some o → j.sampled = false → s.ctx g c = some x →
    ∃ s' x', exec (.descriptorRetire t g c k) s = .next s' ∧ (∀ y, y ∈ s'.jobs → y.id ≠ j.id) ∧ (s'.hang j.p).progress = max s.now t ∧
      s'.ctx g c = some x' ∧ (x.region = none → j.flags.testBit 1 = true → j.inReg = false →
        ∃ e, x'.ends = x.ends ++ [e] ∧ e.job = j.id ∧ e.status = o.1 ∧ e.detail = o.2.1 ∧ e.info = o.2.2 ∧ e.tag = j.tag ∧ e.write = true)) ∧
  (∀ (s s₁ : State) (t g c : Nat) (x : CtxSt) (r : RegionSt) (b : Bytes), g < 16 → c < 8 → s.ctx g c = some x → x.region = some r →
    r.due = true → s.rd F.AG_CTX_STATE g c ≠ 2 → s.seqUp (s.rd F.AG_CONFIG_PARTITION g) g = true →
    (s.tick t).devRead (dieOf g) g (s.rd F.AG_CONFIG_PARTITION g) (r.altAddr + 16 * r.level) 16 = (none, b, false, s₁) →
    leAt b 0 6 % 64 = 0 → leAt b 6 2 ≠ 0 → allZero (slice b 8 8) = true →
    ∃ s', exec (.levelStart t g c) s = .next s' ∧ s'.ctx g c = some { x with region := some { r with
        level := r.level + 1, segAddr := leAt b 0 6, segCount := leAt b 6 2, pos := 0, stop := none, due := false, ovf := [] } } ∧
      s'.rd F.AG_CTX_LEVEL g c = (r.level + 1) % 8 ∧ s'.on F.AG_CTX_IN_REGION g c = true ∧
      sameRegsBut [.AG_CTX, .MEM_ECC, .CUP_ECC, .BWG_STATE, .BWG_SPENT] s s' ∧ sameMem s s') ∧
  (∀ (s : State) (t g c k : Nat) (x : CtxSt) (e : EndRec), g < 16 → c < 8 → s.ctx g c = some x →
    (x.ends.filter (fun e => !e.ringDue))[k]? = some e → 0 < s.rd F.PCI_RING_RESERVED_SLOTS g c →
    s.rd F.PCI_RING_RESERVED_SLOTS g c < 4096 →
    s.writeWaits (x.cqBase + 16 * (s.rd F.PCI_RING_CQ_TAIL g c % 2 ^ x.cqLog2)) 16 = false →
    ∃ s', exec (.completionRecordWrite t g c k) s = .next s' ∧
      s'.mem = ((s.tick t).devWrite (dieOf g) g (s.rd F.AG_CONFIG_PARTITION g)
        (x.cqBase + 16 * (s.rd F.PCI_RING_CQ_TAIL g c % 2 ^ x.cqLog2)) (e.bytes g c (s.rd F.PCI_RING_CQ_TAIL g c) x.cqLog2)).2.mem ∧
      s'.rd F.PCI_RING_CQ_TAIL g c = (s.rd F.PCI_RING_CQ_TAIL g c + 1) % 65536 ∧
      s'.rd F.PCI_RING_RESERVED_SLOTS g c = s.rd F.PCI_RING_RESERVED_SLOTS g c - 1 ∧ s'.on F.PCI_RING_ARMED g c = false ∧
      s'.ctx g c = some { x with ends := x.ends.filter (fun z => z ≠ e) } ∧
      (s.on F.PCI_RING_ARMED g c = true → (x.irqFn = some .pf0 → (Fn.pf0, 64 + 8 * g + c) ∈ s'.host.vecs) ∧
        (x.irqCore.isSome = true → (x.irqCore.getD 0, 64 + 8 * g + c) ∈ s'.host.coreIrq)))

/-- Bells count rings, waits take counts or expire. Rings of the partition that arrive in one cycle and fit add their counts at the home
block where no wait stands on their bells; one that overflows 32 bits or comes from another partition is refused and counted and leaves the
count, the latter with a level 1 security fault. A software ring with a count sets off, one of 0 has no effect. A write to BEL_SET sets the
count of a bell without a wait, and is refused and counted otherwise. A wait whose time has come ends its descriptor WAIT_TIMEOUT and takes
nothing, unless a ring of the same cycle satisfies it. (R165, R166, R167, R168, R169) -/
def Obligations.BellsAndWaits : Prop :=
  (∀ (s : State) (t p h : Nat) (ks : List Nat) (rs : List Ring), p < 16 → rs = (s.takeRings p ks).1 → rs ≠ [] → s.hngState p ≠ 3 →
    s.homeOf p = some h → s.groupRuns h = true → (∀ r, r ∈ rs → r.from_ = p) → (∀ r, r ∈ rs → r.job = none) →
    (∀ w, w ∈ s.waits → w.p = p → ∀ r, r ∈ rs → w.bell ≠ r.bell) →
    (∀ b, b < 4096 → s.rd F.BEL_STATE_COUNT h b + ((rs.filter (fun r => r.bell = b)).map (fun r => r.count)).sum < 2 ^ 32) →
    (∀ r, r ∈ rs → r.bell < 4096) →
    ∃ s', exec (.bellRingArrive t p ks) s = .next s' ∧
      (∀ b, b < 4096 → s'.rd F.BEL_STATE_COUNT h b = s.rd F.BEL_STATE_COUNT h b + ((rs.filter (fun r => r.bell = b)).map (fun r => r.count)).sum) ∧
      (s'.rings.filter (fun r => r.p = p)).length + rs.length = (s.rings.filter (fun r => r.p = p)).length ∧
      sameRegsBut [.BEL_STATE] s s' ∧ s' = { s with now := s'.now, regs := s'.regs, rings := s'.rings }) ∧
  (∀ (s : State) (t p k h : Nat) (r : Ring), p < 16 → (s.rings.filter (fun r => r.p = p))[k]? = some r → s.hngState p ≠ 3 →
    s.homeOf p = some h → s.groupRuns h = true → r.from_ ≠ p → r.job = none → (∀ w, w ∈ s.waits → w.p = p → w.bell ≠ r.bell) →
    ∃ (s' : State) (f : Report), exec (.bellRingArrive t p [k]) s = .next s' ∧ s'.rd F.BEL_STATE_COUNT h r.bell = s.rd F.BEL_STATE_COUNT h r.bell ∧
      s'.rd F.BEL_EVENTS_RING_REFUSED h = counted F.BEL_EVENTS_RING_REFUSED (s.rd F.BEL_EVENTS_RING_REFUSED h) 1 ∧
      f.cls = 5 ∧ f.level = 1 ∧ f.code = 3 ∧ f.aux = r.bell ∧ s'.fc = reported s t f ∧ sameMem s s') ∧
  (∀ (s : State) (t p k h : Nat) (r : Ring), p < 16 → (s.rings.filter (fun r => r.p = p))[k]? = some r → s.hngState p ≠ 3 →
    s.homeOf p = some h → s.groupRuns h = true → r.from_ = p → r.job = none → 2 ^ 32 ≤ s.rd F.BEL_STATE_COUNT h r.bell + r.count →
    (∀ w, w ∈ s.waits → w.p = p → w.bell ≠ r.bell) →
    ∃ s', exec (.bellRingArrive t p [k]) s = .next s' ∧ s'.rd F.BEL_STATE_COUNT h r.bell = s.rd F.BEL_STATE_COUNT h r.bell ∧
      s'.rd F.BEL_EVENTS_RING_REFUSED h = counted F.BEL_EVENTS_RING_REFUSED (s.rd F.BEL_EVENTS_RING_REFUSED h) 1) ∧
  (∀ (s : State) (t p w : Nat) (who : Requester), p < 16 → (who = .mgt ∨ who = .pf0 ∨ who = .bfy p) → bits w 0 32 ≠ 0 →
    (s.homeOf p).isSome = true → s.hngState p ≠ 3 →
    exec (.belRing t who p w) s = .next { s.tick t with rings := s.rings ++
      [{ p := p, bell := bits w 32 12, count := bits w 0 32, from_ := p, src := reqMaster who }] }) ∧
  (∀ (s : State) (t p w : Nat) (who : Requester), p < 16 → (who = .mgt ∨ who = .pf0 ∨ who = .bfy p) → bits w 0 32 = 0 →
    exec (.belRing t who p w) s = .next (s.tick t)) ∧
  (∀ (s : State) (t p q w : Nat), p < 16 → q ≠ p →
    ∃ s' r, exec (.belRing t (.bfy q) p w) s = .next s' ∧ r.cls = 5 ∧ r.level = 1 ∧ r.part = q ∧ s'.fc = reported s t r ∧
      s' = { s with now := s'.now, fc := s'.fc }) ∧
  (∀ (s : State) (t p w h : Nat) (who : Requester), p < 16 → s.homeOf p = some h → (who = .mgt ∨ who = .pf0 ∨ who = .bfy p) →
    s.closedReg .BEL_SET h = false → s.groupRuns h = true → s.behind (.access who .BEL_SET h 0 (some (w, 0))) = none → s.hngState p ≠ 3 →
    ∃ s', exec (.belSet t who p w) s = .next s' ∧
      ((∀ x, x ∈ s.waits → x.p = p → x.bell ≠ bits w 32 12) →
        s'.rd F.BEL_STATE_COUNT h (bits w 32 12) = bits w 0 32 ∧ sameBut [fkey F.BEL_STATE_COUNT h (bits w 32 12)] s s') ∧
      ((∃ x, x ∈ s.waits ∧ x.p = p ∧ x.bell = bits w 32 12) →
        s'.rd F.BEL_EVENTS_SET_REFUSED h = counted F.BEL_EVENTS_SET_REFUSED (s.rd F.BEL_EVENTS_SET_REFUSED h) 1 ∧
        sameBut [fkey F.BEL_EVENTS_SET_REFUSED h] s s') ∧ s' = { s with now := s'.now, regs := s'.regs }) ∧
  (∀ (s : State) (t g c hg : Nat) (w : Wait) (x : CtxSt) (h : Head), g < 16 → c < 8 → s.waits = [w] → w.g = g → w.c = c →
    w.due ≤ max s.now t → s.free_ w.p = true → s.homeOf w.p = some hg → s.ctx g c = some x → x.head = some h → h.job.g = g → h.job.c = c →
    ∃ s' x', exec (.waitExpire t g c []) s = .next s' ∧ s'.waits = [] ∧
      s'.rd F.BEL_STATE_COUNT hg w.bell = s.rd F.BEL_STATE_COUNT hg w.bell ∧
      s'.rd F.BEL_EVENTS_TIMEOUTS hg = counted F.BEL_EVENTS_TIMEOUTS (s.rd F.BEL_EVENTS_TIMEOUTS hg) 1 ∧
      s'.ctx g c = some x' ∧ x'.head = none ∧
      (∃ e, e ∈ x'.ends ∧ e.job = h.job.id ∧ e.status = 2 ∧ e.info = s.rd F.BEL_STATE_COUNT hg w.bell) ∧
      s'.rd F.AG_CTX_STATE g c = 2 ∧ sameMem s s') ∧
  (∀ (s : State) (t g c k hg : Nat) (w : Wait) (r : Ring), g < 16 → c < 8 → s.waits = [w] → w.g = g → w.c = c →
    w.due ≤ max s.now t → s.free_ w.p = true → s.homeOf w.p = some hg → (s.rings.filter (fun r => r.p = w.p))[k]? = some r →
    r.from_ = w.p → r.job = none → r.bell = w.bell → s.rd F.BEL_STATE_COUNT hg w.bell + r.count < 2 ^ 32 →
    w.n ≤ s.rd F.BEL_STATE_COUNT hg w.bell + r.count →
    ∃ s', exec (.waitExpire t g c [k]) s = .next s' ∧ s'.waits = [] ∧
      s'.rd F.BEL_STATE_COUNT hg w.bell = s.rd F.BEL_STATE_COUNT hg w.bell + r.count - w.n ∧
      s'.rd F.BEL_EVENTS_TIMEOUTS hg = s.rd F.BEL_EVENTS_TIMEOUTS hg ∧
      s'.ctx g c = (s.ctx g c).map (fun x => { x with head := x.head.map (fun h => { h with waits := false }) }) ∧ sameMem s s')

/-- RESUME and RETRY leave HALTED. In a window that is present and awake, for a halted context: outside a region RESUME leaves HALTED where
it stood and RETRY with the ring's head back at the halted descriptor and no head fetched; inside one RESUME goes on after the region and
RETRY starts the region's present level again; a REGION_END whose own ring was refused is retried in its region. A context that is not
halted is unchanged. (R164, R179) -/
def Obligations.LeavingHalted : Prop :=
  (∀ (s : State) (t g c : Nat) (x : CtxSt), g < 16 → c < 8 → s.closedReg .AG_CTX g = false → s.groupRuns g = true → s.ctx g c = some x →
    x.region = none → s.rd F.AG_CTX_STATE g c = 2 →
    ∃ s', exec (.contextResume t g c) s = .next s' ∧ s'.rd F.AG_CTX_STATE g c ≠ 2 ∧
      s'.ctx g c = some { x with closed := none, endRefused := false } ∧
      s'.rd F.PCI_RING_SQ_HEAD g c = s.rd F.PCI_RING_SQ_HEAD g c ∧ sameRegsBut [.AG_CTX] s s' ∧
      s' = { s with now := s'.now, regs := s'.regs, ctxs := s'.ctxs, pwr := s'.pwr }) ∧
  (∀ (s : State) (t g c : Nat) (x : CtxSt), g < 16 → c < 8 → s.closedReg .AG_CTX g = false → s.groupRuns g = true → s.ctx g c = some x →
    x.region = none → (x.closed = none ∨ x.endRefused = false) → s.rd F.AG_CTX_STATE g c = 2 →
    ∃ s' x', exec (.contextRetry t g c) s = .next s' ∧ s'.rd F.AG_CTX_STATE g c ≠ 2 ∧ s'.ctx g c = some x' ∧ x'.head = none ∧
      x'.region = none ∧ s'.rd F.PCI_RING_SQ_HEAD g c = x.haltAt % 65536 ∧ sameRegsBut [.AG_CTX, .PCI_RING] s s' ∧ sameMem s s') ∧
  (∀ (s : State) (t g c : Nat) (x : CtxSt) (r : RegionSt), g < 16 → c < 8 → s.closedReg .AG_CTX g = false → s.groupRuns g = true →
    s.ctx g c = some x → x.region = some r → s.rd F.AG_CTX_STATE g c = 2 →
    ∃ s' x', exec (.contextResume t g c) s = .next s' ∧ s'.rd F.AG_CTX_STATE g c ≠ 2 ∧ s'.ctx g c = some x' ∧ x'.head = none ∧
      x'.region = none ∧ s'.rd F.PCI_RING_SQ_HEAD g c = (r.start + r.span) % 65536 ∧ sameRegsBut [.AG_CTX, .PCI_RING] s s' ∧ sameMem s s') ∧
  (∀ (s : State) (t g c : Nat) (x : CtxSt) (r : RegionSt), g < 16 → c < 8 → s.closedReg .AG_CTX g = false → s.groupRuns g = true →
    s.ctx g c = some x → x.region = some r → s.rd F.AG_CTX_STATE g c = 2 →
    ∃ s' x', exec (.contextRetry t g c) s = .next s' ∧ s'.rd F.AG_CTX_STATE g c ≠ 2 ∧ s'.ctx g c = some x' ∧ x'.head = none ∧
      x'.region = some { r with withheld := [], stop := none, due := false, ovf := [], pos := 0 } ∧
      s'.rd F.PCI_RING_SQ_HEAD g c = (if r.level = 0 then (r.start + 1) % 65536 else s.rd F.PCI_RING_SQ_HEAD g c) ∧
      sameRegsBut [.AG_CTX, .PCI_RING] s s' ∧ sameMem s s') ∧
  (∀ (s : State) (t g c : Nat) (x : CtxSt) (r : RegionSt), g < 16 → c < 8 → s.closedReg .AG_CTX g = false → s.groupRuns g = true →
    s.ctx g c = some x → x.region = none → x.closed = some r → x.endRefused = true → s.rd F.AG_CTX_STATE g c = 2 →
    ∃ s' x', exec (.contextRetry t g c) s = .next s' ∧ s'.rd F.AG_CTX_STATE g c ≠ 2 ∧ s'.ctx g c = some x' ∧ x'.head = none ∧
      x'.region = some { r with withheld := [], stop := none, due := false, ovf := [], pos := r.segCount - 1 } ∧
      s'.rd F.PCI_RING_SQ_HEAD g c = (if r.level = 0 then x.haltAt % 65536 else s.rd F.PCI_RING_SQ_HEAD g c) ∧
      sameRegsBut [.AG_CTX, .PCI_RING] s s' ∧ sameMem s s') ∧
  (∀ (s : State) (t g c : Nat), g < 16 → c < 8 → s.closedReg .AG_CTX g = false → s.groupRuns g = true → s.rd F.AG_CTX_STATE g c ≠ 2 →
    exec (.contextResume t g c) s = .next (s.tick t) ∧ exec (.contextRetry t g c) s = .next (s.tick t))

/-- Turret programs end, fault and deposit. Whatever acts the turret reference (not part of the manual) gives a program: when it has come to
its end within the acts allowed it has ended, and one that would withhold a 33rd bell ends with status 0Eh; until then nothing changes. A
program that meets a fault ends TURRET_FAULT with the code and program counter, captured first, and one whose first bytes the page map does
not let it read faults with that code at its entry. A deposit to an enabled watch entry writes the two binary64 sums, each rounded once, at
the entry's first 16 bytes, and one to an entry that is not enabled writes nothing. (R153, R163, R171, R176, R198) -/
def Obligations.TurretPrograms : Prop :=
  (∀ (s : State) (t g acts : Nat) (j : Job), g < 16 → (s.turretJobs g).head? = some j →
    ∃ s', exec (.turretProgramEnd t g acts) s = .next s' ∧
      (((s.tick t).turretProgram j acts).1 = .done →
        s'.job j.id = some { ((s.tick t).turretProgram j acts).2.2 with ended := true } ∧
        s'.rings = ((s.tick t).turretProgram j acts).2.1.rings ∧
        sameRegsBut [.TUR_STATUS, .TUR_LANE_CYCLES] ((s.tick t).turretProgram j acts).2.1 s') ∧
      (((s.tick t).turretProgram j acts).1 = .limit →
        s'.job j.id = some { (((s.tick t).turretProgram j acts).2.2).fail 0x0E 0 0 with ended := true }) ∧
      (((s.tick t).turretProgram j acts).1 ≠ .done → ((s.tick t).turretProgram j acts).1 ≠ .limit → s' = s.tick t)) ∧
  (∀ (s s₁ : State) (t g acts code pc : Nat) (j j₁ : Job), g < 16 → (s.turretJobs g).head? = some j → s.on F.TUR_FAULT_VALID g = false →
    (s.tick t).turretProgram j acts = (.fault code pc, s₁, j₁) →
    ∃ s', exec (.turretFault t g acts) s = .next s' ∧ s'.rd F.TUR_FAULT_VALID g = 1 ∧ s'.rd F.TUR_FAULT_CODE g = code % 256 ∧
      s'.rd F.TUR_FAULT_PC g = pc % 2 ^ 32 ∧ s'.job j.id = some { j₁.fail 0x0B code pc with ended := true } ∧
      sameRegsBut [.TUR_STATUS, .TUR_LANE_CYCLES, .TUR_FAULT] s₁ s' ∧ sameMem s₁ s') ∧
  (∀ (s s₁ : State) (t g acts code : Nat) (j : Job) (b : Bytes), g < 16 → (s.turretJobs g).head? = some j →
    s.on F.TUR_FAULT_VALID g = false → (s.tick t).turretRead j j.progAddr 64 = (some code, b, s₁) →
    ∃ s', exec (.turretFault t g acts) s = .next s' ∧ s'.rd F.TUR_FAULT_CODE g = code % 256 ∧
      s'.rd F.TUR_FAULT_PC g = j.progAddr % 2 ^ 32 ∧ s'.job j.id = some { j.fail 0x0B code (j.progAddr % 2 ^ 32) with ended := true } ∧
      sameMem s s') ∧
  (∀ (s s₁ : State) (t g l upd wgt : Nat) (j : Job) (e : Bytes), g < 16 → l < 1024 →
    s.jobs.find? (fun j => decide (j.pa = g) && decide (j.unit = 20) && !j.ended) = some j → j.echo = false → s.numOn j.g = true →
    (s.tick t).tabRead j.g j.p (watchOff l) 64 = (some (some e), s₁) →
    ∃ s', exec (.watchDeposit t g l upd wgt) s = .next s' ∧
      ((leAt e 32 1).testBit 0 = true → s' = s₁.tabWrite j.g j.p (watchOff l)
        (natLe 8 (accRound true ((fp64.decode false (leAt e 0 8)).add (fp64.decode false upd)) 0 0) ++
         natLe 8 (accRound true ((fp64.decode false (leAt e 8 8)).add (fp64.decode false wgt)) 0 0))) ∧
      ((leAt e 32 1).testBit 0 = false → s' = s₁))

/-- Custom formats validate, advances run when the step's work is done. A write to AG_FMTn stores its named fields and shows the
validation's code in ERROR and VALID exactly when the code is 0, in that slot alone. A write to AG_NUM_ADVANCE of a home group with the
table on starts an advance, is without effect while BUSY, starts none with the table off, and is held while a cut is arming. Once the
partition's started descriptors have retired the advance ends with BUSY 0, the step becomes current, and a hold at the step takes effect.
(R55, R56, R186, R187, R321, R429) -/
def Obligations.FormatsAndAdvance : Prop :=
  (∀ (s : State) (t g n v : Nat), g < 16 → n < 16 → s.closedReg .AG_FMT g = false → s.groupRuns g = true →
    ∃ s', exec (.agFmtWrite t g n v) s = .next s' ∧ s'.rd F.AG_FMT_EW g n = bits v 0 4 ∧ s'.rd F.AG_FMT_PW g n = bits v 4 4 ∧
      s'.rd F.AG_FMT_BIAS g n = bits v 8 8 ∧ s'.rd F.AG_FMT_SPECIAL g n = bits v 16 2 ∧ s'.rd F.AG_FMT_SUBN g n = bits v 18 1 ∧
      s'.rd F.AG_FMT_SCALE g n = bits v 20 2 ∧ s'.rd F.AG_FMT_ERROR g n = fmtError v % 256 ∧
      s'.on F.AG_FMT_VALID g n = decide (fmtError v = 0) ∧
      (∀ (f : Fld) (i k : Nat), f.reg ≠ .AG_FMT ∨ i ≠ g ∨ k ≠ n → s'.rd f i k = s.rd f i k) ∧ s' = { s with now := s'.now, regs := s'.regs }) ∧
  (∀ (s : State) (t g p step : Nat), g < 16 → s.closedReg .AG_NUM_ADVANCE g = false → s.groupRuns g = true → s.partOf g = some p →
    s.homeOf p = some g → s.hngState p ≠ 3 → (s.snap p).arming = false →
    ∃ s', exec (.agNumAdvanceWrite t g step) s = .next s' ∧
      (s.on F.AG_NUM_ADVANCE_BUSY g = false → s.numOn g = true → s'.rd F.AG_NUM_ADVANCE_BUSY g = 1 ∧
        s'.rd F.AG_NUM_ADVANCE_STEP g = step % 2 ^ 32 ∧ s'.advances = s.advances ++ [(p, step % 2 ^ 32)]) ∧
      (s.on F.AG_NUM_ADVANCE_BUSY g = false → s.numOn g = false → s'.rd F.AG_NUM_ADVANCE_BUSY g = s.rd F.AG_NUM_ADVANCE_BUSY g ∧
        s'.rd F.AG_NUM_ADVANCE_STEP g = step % 2 ^ 32 ∧ s'.advances = s.advances) ∧
      (s.on F.AG_NUM_ADVANCE_BUSY g = true → s' = s.tick t) ∧
      sameBut [fkey F.AG_NUM_ADVANCE_BUSY g, fkey F.AG_NUM_ADVANCE_STEP g] s s' ∧ sameMem s s') ∧
  (∀ (s : State) (t g p step : Nat), g < 16 → s.closedReg .AG_NUM_ADVANCE g = false → s.groupRuns g = true → s.partOf g = some p →
    s.homeOf p = some g → s.hngState p ≠ 3 → (s.snap p).arming = true →
    ∃ s', exec (.agNumAdvanceWrite t g step) s = .next s' ∧ (s'.snap p).heldAdv = (s.snap p).heldAdv ++ [step % 2 ^ 32] ∧
      s' = { s with now := s'.now, snp := s'.snp }) ∧
  (∀ (s : State) (t p g step : Nat), p < 16 → s.advances.find? (fun a => a.1 = p) = some (p, step) → s.homeOf p = some g →
    s.advanceReady p = true → s.safe = false →
    ∃ s', exec (.advanceRun t p) s = .next s' ∧ s'.rd F.AG_NUM_ADVANCE_BUSY g = 0 ∧ agetD s'.curSteps p 0 = step ∧
      (∀ a, a ∈ s'.advances → a.1 ≠ p) ∧ (s'.snap p).lastAdvance = max s.now t ∧
      (p ∈ s.host.holdArmed → (s'.rd F.MGT_HOST_HELD).testBit p = true ∧ p ∉ s'.host.holdArmed))

/-- What becomes of a mailbox request before it is served. For every request that comes by a mailbox: a GO from a function that may not
write it, or while BUSY, is counted in IGNORED and changes nothing else; with no firmware running nothing happens; during a restart of the
management core the request is held in order with BUSY 1; a payload longer than 4,064 bytes is answered BAD_LENGTH and has no other effect.
An unknown opcode is answered UNSUPPORTED; an ignored GO write counts. (R312, R314, R316, R324) -/
def Obligations.MailboxRequests : Prop :=
  (∀ (c : Instr) (s : State) (h : MbxHdr), mbxHdrOf c = some h → h.m < 32 → s.mayGo h.fn h.m = true → s.on F.MBX_STATUS_BUSY h.m = false →
    (s.sec.fw = none ∨ s.host.fwDead = true) → exec c s = .next (s.tick (cmdTime c))) ∧
  (∀ (c : Instr) (s : State) (h : MbxHdr), mbxHdrOf c = some h → h.m < 32 →
    (s.mayGo h.fn h.m = false ∨ s.on F.MBX_STATUS_BUSY h.m = true) →
    ∃ s', exec c s = .next s' ∧ s'.rd F.MBX_STATUS_IGNORED h.m = counted F.MBX_STATUS_IGNORED (s.rd F.MBX_STATUS_IGNORED h.m) 1 ∧
      sameBut [fkey F.MBX_STATUS_IGNORED h.m] s s' ∧ s' = { s with now := s'.now, regs := s'.regs }) ∧
  (∀ (c : Instr) (s : State) (h : MbxHdr), mbxHdrOf c = some h → h.m < 32 → s.sec.fw.isSome = true → s.host.fwDead = false →
    s.mayGo h.fn h.m = true → s.on F.MBX_STATUS_BUSY h.m = false → s.on F.AON_STAGE_MGT_RESTART = true →
    ∃ s', exec c s = .next s' ∧ s'.host.heldGo = s.host.heldGo ++ [c] ∧ s'.rd F.MBX_STATUS_BUSY h.m = 1 ∧
      sameBut [fkey F.MBX_STATUS_BUSY h.m] s s' ∧ s'.host.resps = s.host.resps ∧ sameMem s s') ∧
  (∀ (c : Instr) (s : State) (h : MbxHdr), mbxHdrOf c = some h → takes s h → 4064 < h.len →
    ∃ s', exec c s = .next s' ∧ answered s' h 3 [] ∧ sameRegsBut [.MBX_STATUS] s s' ∧
      s' = { s with now := s'.now, regs := s'.regs, host := s'.host }) ∧
  (∀ (s : State) (t code : Nat) (h : MbxHdr), takes s h → h.len ≤ 4064 →
    ∃ s', exec (.mailboxUnknownOpcode t h code) s = .next s' ∧ answered s' h 1 [] ∧ sameRegsBut [.MBX_STATUS] s s' ∧
      s' = { s with now := s'.now, regs := s'.regs, host := s'.host }) ∧
  (∀ (s : State) (t m : Nat) (fn : Fn), m < 32 → (s.on F.MBX_STATUS_BUSY m = true ∨ s.mayGo fn m = false) →
    ∃ s', exec (.mbxGoIgnored t m fn) s = .next s' ∧
      s'.rd F.MBX_STATUS_IGNORED m = counted F.MBX_STATUS_IGNORED (s.rd F.MBX_STATUS_IGNORED m) 1 ∧
      sameBut [fkey F.MBX_STATUS_IGNORED m] s s' ∧ s' = { s with now := s'.now, regs := s'.regs }) ∧
  (∀ (s : State) (t m : Nat) (fn : Fn), m < 32 → s.on F.MBX_STATUS_BUSY m = false → s.mayGo fn m = true →
    exec (.mbxGoIgnored t m fn) s = .next (s.tick t))

/-- Sessions open, report, close and set their policy. An OPEN without REATTACH on an unowned mailbox, or through an attach mailbox while a
mailbox is unowned, of a protocol range that holds version 1.0 and with fields in range, opens the session with the next identifier and the
features both sides know, and is answered OK; on an owned mailbox it is answered BUSY. An OPEN with REATTACH of a session that may be taken
over replaces it and takes its contexts. STATUS answers the stage, readiness, guarantee and host registers. POLICY_SET sets the session's
policy. CLOSE closes the session and its contexts, or answers BUSY while a context has a started descriptor or a record due. (R304, R312,
R313, R317, R318, R319, R321, R322) -/
def Obligations.Sessions : Prop :=
  (∀ (s : State) (t m p : Nat) (h : MbxHdr) (q : OpenReq), takes s h → h.lenOk = true → h.len ≤ 4064 → h.resOk = true →
    h.session = 0 →
    q.lowest ≤ 256 * h.verMajor + h.verMinor → 256 * h.verMajor + h.verMinor ≤ q.highest → q.lowest ≤ Config.protoVersion →
    Config.protoVersion ≤ q.highest → q.policy ≤ 2 →
    (q.bfyCore = none ∨ (h.fn = .bfy p ∧ q.bfyCore.any (fun n => decide (n ∈ s.coresOf p)) = true)) → q.reattach = false →
    q.previous = 0 → s.session h.m = none → s.bindFor h.m = some m →
    ∃ s' x r, exec (.openSession t h q) s = .next s' ∧ s'.host.sessions = s.host.sessions.filter (fun y => y.m ≠ m) ++ [x] ∧ x.m = m ∧
      x.id = s.host.nextSid ∧
      x.fn = h.fn ∧ x.feats = q.features &&& Config.features ∧ x.policy = q.policy ∧ x.lastBeat = max s.now t ∧ x.absentAt = none ∧
      x.bfyCore = q.bfyCore ∧
      s'.host.nextSid = s.host.nextSid + 1 ∧ (m < 16 → s'.rd F.MBX_STATUS_OWNER m = ownerCode h.fn) ∧ aget s'.host.resps m = some r ∧
      r.status = 0 ∧ r.seq = h.seq ∧ r.session = s.host.nextSid ∧ sameRegsBut [.MBX_STATUS, .MGT_HOST] s s' ∧ sameMem s s') ∧
  (∀ (s : State) (t : Nat) (h : MbxHdr) (q : OpenReq), takes s h → h.lenOk = true → h.len ≤ 4064 → h.resOk = true → h.session = 0 →
    q.lowest ≤ 256 * h.verMajor + h.verMinor → 256 * h.verMajor + h.verMinor ≤ q.highest → q.lowest ≤ Config.protoVersion →
    Config.protoVersion ≤ q.highest → q.policy ≤ 2 → q.bfyCore = none → q.reattach = false → q.previous = 0 → (s.session h.m).isSome = true →
    ∃ s', exec (.openSession t h q) s = .next s' ∧ answered s' h 7 [] ∧ s'.host.sessions = s.host.sessions ∧ sameMem s s') ∧
  (∀ (s : State) (t : Nat) (h : MbxHdr) (q : OpenReq), takes s h → h.m < 16 → h.lenOk = true → h.len ≤ 4064 → h.resOk = true →
    h.session = 0 → q.lowest ≤ 256 * h.verMajor + h.verMinor → 256 * h.verMajor + h.verMinor ≤ q.highest → q.lowest ≤ Config.protoVersion →
    Config.protoVersion ≤ q.highest → q.policy ≤ 2 → q.bfyCore = none → q.reattach = true → s.reattachOk h.fn h.m q.previous = true →
    ∃ s' x, exec (.openSession t h q) s = .next s' ∧ s'.session h.m = some x ∧ x.id = s.host.nextSid ∧ x.absentAt = none ∧
      s'.ctxs = s.ctxs.map (fun e => (e.1, if e.2.session = q.previous then { e.2 with session := s.host.nextSid } else e.2)) ∧
      s'.rd F.MBX_STATUS_ABSENT h.m = 0 ∧ sameRegsBut [.MBX_STATUS, .MGT_HOST] s s' ∧ sameMem s s') ∧
  (∀ (s : State) (t : Nat) (h : MbxHdr), takes s h → s.mbxCheck h { safeOk := true } = none →
    ∃ s', exec (.statusMsg t h) s = .next s' ∧
      answered s' h 0 (s.regBytes .AON_STAGE ++ s.regBytes .AON_READY ++ s.regBytes .MGT_GUARANTEE ++ s.regBytes .MGT_HOST) ∧
      sameRegsBut [.MBX_STATUS] s s' ∧ s' = { s with now := s'.now, regs := s'.regs, host := s'.host }) ∧
  (∀ (s : State) (t policy : Nat) (h : MbxHdr) (x : Session), takes s h → policy ≤ 2 → s.mbxCheck h {} = none → s.session h.m = some x →
    ∃ s', exec (.policySet t h policy) s = .next s' ∧ answered s' h 0 [] ∧ s'.session h.m = some { x with policy := policy } ∧ sameMem s s') ∧
  (∀ (s : State) (t : Nat) (h : MbxHdr), takes s h → s.mbxCheck h { safeOk := true } = none →
    (∀ k, k ∈ s.ctxsOf h.session → s.ctxBusy (k / 8) (k % 8) = false) →
    ∃ s', exec (.closeSession t h) s = .next s' ∧ answered s' h 0 [] ∧
      s'.host.sessions = s.host.sessions.filter (fun x => x.m ≠ h.m) ∧
      (∀ k, k ∈ s.ctxsOf h.session → aget s'.ctxs k = none) ∧ sameMem s s') ∧
  (∀ (s : State) (t k : Nat) (h : MbxHdr), takes s h → s.mbxCheck h { safeOk := true } = none → k ∈ s.ctxsOf h.session →
    s.ctxBusy (k / 8) (k % 8) = true →
    ∃ s', exec (.closeSession t h) s = .next s' ∧ answered s' h 7 [] ∧ s'.host.sessions = s.host.sessions ∧ s'.ctxs = s.ctxs)

/-- Contexts open, resync and close; windows and holds. CONTEXT_OPEN of a closed context, with its fields in range and its rings in the
partition's pages, opens it with empty rings and the next generation; of an open one it answers BUSY. CONTEXT_CLOSE closes a context that is
not busy and answers BUSY for one that is. CONTEXT_RESYNC answers 12 bytes for each context of the session. WINDOW_SET sets a VF's window
base or PCI_WIN. HOLD_RELEASE clears the partition's holds where no absent session's policy holds it again. (R302, R308, R317, R322) -/
def Obligations.ContextsAndWindows : Prop :=
  (∀ (s : State) (t p n : Nat) (h : MbxHdr) (r : CtxOpenReq), takes s h → s.partOf r.g = some p → r.g < 16 → r.c < 8 → 4 ≤ r.sqLog2 →
    r.sqLog2 ≤ 15 → 4 ≤ r.cqLog2 → r.cqLog2 ≤ 15 →
    (r.irqCore = none ∨ (r.irqCore.any (fun k => decide (k ∈ s.coresOf p)) = true ∧ (s.session h.m).any (fun x => x.feats.testBit 4) = true)) →
    s.ringOk p r.sqBase (64 * 2 ^ r.sqLog2) = true →
    s.ringOk p r.cqBase (16 * 2 ^ r.cqLog2) = true → s.mbxCheck h { parts := [p], stage := stDome } = none → s.ctx r.g r.c = none →
    ∃ s' x, exec (.contextOpen t h r) s = .next s' ∧ answered s' h 0 [] ∧ s'.ctx r.g r.c = some x ∧ x.sqBase = r.sqBase ∧
      x.sqLog2 = r.sqLog2 ∧ x.cqBase = r.cqBase ∧ x.cqLog2 = r.cqLog2 ∧ x.session = h.session ∧ x.head = none ∧
      x.irqFn = (if r.irqFn then some h.fn else none) ∧ x.irqCore = r.irqCore ∧
      s'.rd F.PCI_RING_OPEN r.g r.c = 1 ∧ s'.rd F.PCI_RING_GEN r.g r.c = (s.rd F.PCI_RING_GEN r.g r.c + 1) % 256 ∧
      s'.rd F.PCI_RING_SQ_HEAD r.g r.c = 0 ∧ s'.rd F.PCI_RING_CQ_TAIL r.g r.c = 0 ∧
      (h.fn = .vf n → agetD s'.host.vfBase n 0 = r.vfBase) ∧
      sameRegsBut [.PCI_RING, .AG_CTX, .MBX_STATUS] s s' ∧ sameMem s s') ∧
  (∀ (s : State) (t p : Nat) (h : MbxHdr) (r : CtxOpenReq), takes s h → s.partOf r.g = some p → r.g < 16 → r.c < 8 → 4 ≤ r.sqLog2 →
    r.sqLog2 ≤ 15 → 4 ≤ r.cqLog2 → r.cqLog2 ≤ 15 → r.irqCore = none → s.ringOk p r.sqBase (64 * 2 ^ r.sqLog2) = true →
    s.ringOk p r.cqBase (16 * 2 ^ r.cqLog2) = true → s.mbxCheck h { parts := [p], stage := stDome } = none → (s.ctx r.g r.c).isSome = true →
    ∃ s', exec (.contextOpen t h r) s = .next s' ∧ answered s' h 7 [] ∧ s'.ctxs = s.ctxs) ∧
  (∀ (s : State) (t g c : Nat) (h : MbxHdr), takes s h → g < 16 → c < 8 → (s.ctx g c).isSome = true →
    s.mbxCheck h { parts := (s.partOf g).toList, stage := stDome } = none → s.ctxBusy g c = false →
    ∃ s', exec (.contextClose t h g c) s = .next s' ∧ answered s' h 0 [] ∧ s'.ctx g c = none ∧ s'.rd F.PCI_RING_OPEN g c = 0 ∧
      s'.rd F.AG_CTX_STATE g c = 0 ∧ sameMem s s') ∧
  (∀ (s : State) (t g c : Nat) (h : MbxHdr), takes s h → g < 16 → c < 8 → (s.ctx g c).isSome = true →
    s.mbxCheck h { parts := (s.partOf g).toList, stage := stDome } = none → s.ctxBusy g c = true →
    ∃ s', exec (.contextClose t h g c) s = .next s' ∧ answered s' h 7 [] ∧ s'.ctxs = s.ctxs) ∧
  (∀ (s : State) (t : Nat) (h : MbxHdr), takes s h → s.mbxCheck h { stage := stDome } = none →
    ∃ s', exec (.contextResync t h) s = .next s' ∧ answered s' h 0 ((s.ctxsOf h.session).flatMap s.resyncBytes) ∧
      sameRegsBut [.MBX_STATUS] s s' ∧ s' = { s with now := s'.now, regs := s'.regs, host := s'.host }) ∧
  (∀ (s : State) (t p base : Nat) (h : MbxHdr), takes s h → p < 16 → base < 2 ^ 48 → s.mbxCheck h { parts := [p] } = none →
    ∃ s', exec (.windowSet t h false p base) s = .next s' ∧ answered s' h 0 [] ∧ agetD s'.host.vfBase (p + 1) 0 = base ∧
      sameRegsBut [.MBX_STATUS] s s' ∧ s' = { s with now := s'.now, regs := s'.regs, host := s'.host }) ∧
  (∀ (s : State) (t p base : Nat) (h : MbxHdr), takes s h → p < 16 → base < 2 ^ 48 → base % 2 ^ 32 = 0 →
    s.mbxCheck h { mgmt := true, parts := [p] } = none →
    ∃ s', exec (.windowSet t h true p base) s = .next s' ∧ answered s' h 0 [] ∧ s'.rd F.PCI_WIN_PARTITION = p ∧
      s'.rd F.PCI_WIN_BASE = base / 2 ^ 32 ∧ sameRegsBut [.MBX_STATUS, .PCI_WIN] s s' ∧
      s' = { s with now := s'.now, regs := s'.regs, host := s'.host }) ∧
  (∀ (s : State) (t p : Nat) (h : MbxHdr), takes s h → p < 16 → s.mbxCheck h { parts := [p], stage := stDome } = none → s.absentPolicy p = 0 →
    ∃ s', exec (.holdRelease t h p) s = .next s' ∧ answered s' h 0 [] ∧ (s'.rd F.MGT_HOST_HELD).testBit p = false ∧
      (s'.rd F.MGT_HOST_STOPPED).testBit p = false ∧ p ∉ s'.host.holdArmed ∧ sameRegsBut [.MBX_STATUS, .MGT_HOST] s s' ∧ sameMem s s')

/-- Image and firmware writes, image selection and WARM_RESET. With management scope and the feature granted, IMAGE_WRITE patches the named
flash slot, or the trim image, and no other, FW_WRITE the firmware image that is not running, and IMAGE_SELECT of a slot whose image passes
codes 01h to 06h selects it for the next start; a failing image is answered FAILED with its code and the selection stays. WARM_RESET resets
the device and begins a warm start. (R257, R265, R305, R317, R384) -/
def Obligations.ImagesAndWarmReset : Prop :=
  (∀ (s : State) (t slot off : Nat) (b : Bytes) (h : MbxHdr), takes s h → slot < 4 → b.length ≤ 4032 → off + b.length ≤ imageSlotBytes →
    s.sec.flash.slots.length = 4 →
    s.mbxCheck h { feat := some 0, mgmt := true } = none →
    ∃ s', exec (.imageWrite t h slot off b) s = .next s' ∧ answered s' h 0 [] ∧
      s'.sec.flash.slots.getD slot [] = patchBytes (s.sec.flash.slots.getD slot []) off b ∧
      (∀ k, k ≠ slot → s'.sec.flash.slots.getD k [] = s.sec.flash.slots.getD k []) ∧
      s'.sec.flash.trim = s.sec.flash.trim ∧ s'.sec.flash.fwA = s.sec.flash.fwA ∧ s'.sec.flash.bootSlot = s.sec.flash.bootSlot ∧
      sameRegsBut [.MBX_STATUS] s s' ∧ sameMem s s') ∧
  (∀ (s : State) (t off : Nat) (b : Bytes) (h : MbxHdr), takes s h → b.length ≤ 4032 → off + b.length ≤ imageSlotBytes →
    s.mbxCheck h { feat := some 0, mgmt := true } = none →
    ∃ s', exec (.imageWrite t h 4 off b) s = .next s' ∧ answered s' h 0 [] ∧
      s'.sec.flash = { s.sec.flash with trim := patchBytes s.sec.flash.trim off b } ∧ sameRegsBut [.MBX_STATUS] s s' ∧ sameMem s s') ∧
  (∀ (s : State) (t off : Nat) (b : Bytes) (h : MbxHdr), takes s h → b.length ≤ 4032 → off + b.length ≤ flashBytes →
    s.mbxCheck h { feat := some 0, mgmt := true } = none →
    ∃ s', exec (.fwWrite t h off b) s = .next s' ∧ answered s' h 0 [] ∧ s'.sec.fw = s.sec.fw ∧
      (s.sec.fw.any (fun x => x.slot = 0) = true →
        s'.sec.flash.fwB = patchBytes s.sec.flash.fwB off b ∧ s'.sec.flash.fwA = s.sec.flash.fwA) ∧
      (s.sec.fw.any (fun x => x.slot = 0) = false →
        s'.sec.flash.fwA = patchBytes s.sec.flash.fwA off b ∧ s'.sec.flash.fwB = s.sec.flash.fwB) ∧
      sameRegsBut [.MBX_STATUS] s s' ∧ sameMem s s') ∧
  (∀ (s : State) (t slot : Nat) (h : MbxHdr), takes s h → slot ≤ 3 → s.mbxCheck h { feat := some 0, mgmt := true } = none →
    s.check01to06 (s.sec.flash.slots.getD slot []) 1 = none →
    ∃ s', exec (.imageSelect t h slot) s = .next s' ∧ answered s' h 0 [] ∧ s'.sec.flash.bootSlot = slot ∧
      s'.rd F.MGT_IMAGE_STATUS_RESULT = 0 ∧ sameRegsBut [.MBX_STATUS, .MGT_IMAGE_STATUS] s s' ∧ sameMem s s') ∧
  (∀ (s : State) (t slot : Nat) (h : MbxHdr) (e : ImgErr), takes s h → slot ≤ 3 → s.mbxCheck h { feat := some 0, mgmt := true } = none →
    s.check01to06 (s.sec.flash.slots.getD slot []) 1 = some e →
    ∃ s', exec (.imageSelect t h slot) s = .next s' ∧ answered s' h 9 (natLe 4 e.1) ∧ s'.sec.flash = s.sec.flash ∧ sameMem s s') ∧
  (∀ (s : State) (t : Nat) (b : Bool) (h : MbxHdr), takes s h → s.mbxCheck h { mgmt := true, safeOk := true } = none →
    ∃ s', exec (.warmReset t h b) s = .next s' ∧ s'.rd F.AON_STAGE_STAGE = 1 ∧ s'.rd F.AON_STAGE_WARM = 1 ∧
      s'.rd F.SEC_STATUS_DEBUG_SCOPE = 0 ∧ s'.sec.fw = none ∧ s'.sec.flash = s.sec.flash ∧ s'.on F.SEC_STATUS_ID_VALID = b ∧ s'.jobs = [] ∧
      aget s'.host.resps h.m = some { status := 0, seq := h.seq, session := h.session, data := [] } ∧
      (∀ a, a < keepBytes → s'.rdByte a = s.rdByte a) ∧ (∀ a, keepBytes ≤ a → a < 2 ^ 60 → s'.rdByte a = 0))

/-- Heartbeats, absent sessions and the management watchdog. A heartbeat from the owner restarts its session's timer and shows in COUNT; 1 s
without one makes the session absent, though not before 1 s after a restart, and 10 minutes later it closes while its contexts stay. A kick
by the management core restarts the watchdog, a Belfry core's is denied; its expiry restarts the core: MGT registers outside MBX_STATUS and
MGT_WDOG return to reset, PART, DEV and AON registers outside AON_STAGE stay, mailboxes show FW_DOWN; a fourth restart within 60 s is a
level 3 fault with firmware down. When the restart completes firmware runs again and FW_DOWN clears. (R9, R298, R320, R321, R322, R323,
R324, R325) -/
def Obligations.HeartbeatsAndWatchdog : Prop :=
  (∀ (s : State) (t m v : Nat) (fn : Fn) (x : Session), m < 16 → s.session m = some x → x.fn = fn →
    ∃ s', exec (.heartbeat t m fn v) s = .next s' ∧ s'.session m = some { x with lastBeat := max s.now t } ∧
      s'.rd F.MBX_HEARTBEAT_COUNT m = v % 2 ^ 32 ∧ sameRegsBut [.MBX_HEARTBEAT, .MBX_STATUS, .MGT_HOST] s s' ∧ sameMem s s') ∧
  (∀ (s : State) (t m v : Nat) (fn : Fn) (x : Session), m < 16 → s.session m = some x → x.fn ≠ fn →
    exec (.heartbeat t m fn v) s = .next (s.tick t)) ∧
  (∀ (s : State) (t m : Nat) (x : Session), m < 16 → s.session m = some x → x.absentAt = none → s.fwUp = true →
    x.lastBeat + 1000000000 ≤ max s.now t → (s.host.restarts = [] ∨ s.host.restartEnd + 1000000000 ≤ max s.now t) →
    ∃ s', exec (.heartbeatLapse t m) s = .next s' ∧ s'.session m = some { x with absentAt := some (max s.now t) } ∧
      s'.rd F.MBX_STATUS_ABSENT m = 1 ∧ s'.ctxs = s.ctxs ∧ sameMem s s') ∧
  (∀ (s : State) (t m a : Nat) (x : Session), m < 16 → s.session m = some x → x.absentAt = some a → s.fwUp = true →
    a + 600000000000 ≤ max s.now t →
    ∃ s', exec (.absentSessionClose t m) s = .next s' ∧ s'.session m = none ∧ s'.rd F.MBX_STATUS_OWNER m = 0 ∧ s'.ctxs = s.ctxs ∧ sameMem s s') ∧
  (∀ (s : State) (t : Nat), s.fwUp = true →
    ∃ s', exec (.watchdogKick t .mgt) s = .next s' ∧ s'.host.kickAt = max s.now t ∧ s'.regs = s.regs ∧ sameMem s s') ∧
  (∀ (s : State) (t n : Nat), exec (.watchdogKick t .pf0) s = .next (s.tick t) ∧ exec (.watchdogKick t (.vf n)) s = .next (s.tick t)) ∧
  (∀ (s : State) (t p : Nat),
    ∃ s' r, exec (.watchdogKick t (.bfy p)) s = .next s' ∧ r.cls = 5 ∧ r.level = 1 ∧ r.part = p ∧ s'.fc = reported s t r ∧
      s' = { s with now := s'.now, fc := s'.fc }) ∧
  (∀ (s : State) (t : Nat), s.fwUp = true → s.host.kickAt + 100000000 ≤ max s.now t → (s.tick t).recentRestarts < 3 →
    ∃ s', exec (.watchdogExpire t) s = .next s' ∧ s'.rd F.AON_STAGE_MGT_RESTART = 1 ∧ s'.rd F.AON_STAGE_MAILBOX = 0 ∧
      s'.rd F.AON_STAGE_FIRMWARE = 0 ∧ (∀ m, m < 32 → s'.rd F.MBX_STATUS_FW_DOWN m = 1) ∧
      (∀ (f : Fld) (i j : Nat), f.reg.domain = .MGT → f.reg ≠ .MBX_STATUS → f.reg ≠ .MGT_WDOG → f.reg ≠ .AON_STAGE → s'.rd f i j = f.rst) ∧
      (∀ (f : Fld) (i j : Nat), f.reg.domain ≠ .MGT → f.reg ≠ .AON_STAGE → f.reg ≠ .MBX_STATUS → f.reg ≠ .MGT_WDOG →
        s'.rd f i j = s.rd f i j) ∧ s'.ctxs = s.ctxs ∧ s'.jobs = s.jobs ∧ sameMem s s') ∧
  (∀ (s : State) (t : Nat), s.fwUp = true → s.host.kickAt + 100000000 ≤ max s.now t → 3 ≤ (s.tick t).recentRestarts →
    ∃ s' r, exec (.watchdogExpire t) s = .next s' ∧ s'.host.fwDead = true ∧ r.cls = 2 ∧ r.level = 3 ∧ s'.fc = reported s t r ∧
      s'.regs = s.regs ∧ sameMem s s') ∧
  (∀ (s : State) (t : Nat), s.on F.AON_STAGE_MGT_RESTART = true → s.host.fwDead = false → s.safe = false → s.host.heldGo = [] →
    ∃ s', exec (.mgtRestartComplete t) s = .next s' ∧ s'.rd F.AON_STAGE_MGT_RESTART = 0 ∧ s'.rd F.AON_STAGE_MAILBOX = 1 ∧
      s'.rd F.AON_STAGE_TELEMETRY = 1 ∧ s'.rd F.AON_STAGE_FIRMWARE = 1 ∧ (∀ m, m < 32 → s'.rd F.MBX_STATUS_FW_DOWN m = 0) ∧
      s'.host.kickAt = max s.now t ∧ s'.host.owedRestarted = [])

/-- Function resets and the device windows. A function-level reset clears the function's window and pending vectors (the notice of a lapsed
session follows on vector 2) and makes its sessions absent at once, leaving memory and contexts; a hot reset does so for every function and
counts a retrain. A read through a window whose channels do not retrain returns the bytes of its partition, or all ones with a Completer
Abort logged where a check or the data fails; a write goes through the checks of its partition, and one behind an earlier posted write that
waits is held behind it. (R223, R302, R303, R305, R320) -/
def Obligations.PcieResetsAndWindows : Prop :=
  (∀ (s : State) (t n : Nat), 1 ≤ n → n ≤ 16 →
    ∃ s', exec (.flrVf t n) s = .next s' ∧ agetD s'.host.vfBase n 0 = 0 ∧ (∀ v, v < 192 → v ≠ 2 → (Fn.vf n, v) ∉ s'.host.vecs) ∧
      (∀ x, x ∈ s.host.sessions → x.fn = .vf n → ∀ y, s'.session x.m = some y → y.fn = .vf n → y.absentAt.isSome = true) ∧
      s'.rd F.PCI_WIN_BASE = s.rd F.PCI_WIN_BASE ∧ s'.ctxs = s.ctxs ∧ s'.jobs = s.jobs ∧ sameMem s s') ∧
  (∀ (s : State) (t : Nat),
    ∃ s', exec (.flrPf0 t) s = .next s' ∧ s'.rd F.PCI_WIN_BASE = 0 ∧ s'.rd F.PCI_WIN_PARTITION = 0 ∧
      (∀ x, x ∈ s.host.sessions → x.fn = .pf0 → ∀ y, s'.session x.m = some y → y.fn = .pf0 → y.absentAt.isSome = true) ∧
      s'.ctxs = s.ctxs ∧ s'.jobs = s.jobs ∧ sameMem s s') ∧
  (∀ (s : State) (t rate width : Nat),
    ∃ s', exec (.hotReset t rate width) s = .next s' ∧ s'.rd F.PCI_LINK_RETRAINS = counted F.PCI_LINK_RETRAINS (s.rd F.PCI_LINK_RETRAINS) 1 ∧
      s'.rd F.PCI_WIN_BASE = 0 ∧ (∀ n, 1 ≤ n → n ≤ 16 → agetD s'.host.vfBase n 0 = 0) ∧
      (rate ≤ 5 → width ∈ [1, 2, 4] → s'.rd F.PCI_LINK_RATE = rate ∧ s'.rd F.PCI_LINK_WIDTH = width) ∧
      s'.ctxs = s.ctxs ∧ s'.jobs = s.jobs ∧ sameMem s s') ∧
  (∀ (s s₁ : State) (t off n : Nat) (b : Bytes), s.safe = false → off + n ≤ 2 ^ 32 → nonePosted s →
    (pagesOf (s.rd F.PCI_WIN_BASE * 2 ^ 32 + off) n).any (fun v => s.retrains (s.pmEntry v)) = false →
    (s.tick t).devRead 4 0x5B (s.rd F.PCI_WIN_PARTITION) (s.rd F.PCI_WIN_BASE * 2 ^ 32 + off) n = (none, b, false, s₁) →
    ∃ s', exec (.bar4Access t off n none) s = .next s' ∧ s'.host.readBack = b ∧ s'.host.aerAborts = s.host.aerAborts ∧ sameMem s s') ∧
  (∀ (s s₁ : State) (t off n : Nat) (code : Option Nat) (b : Bytes) (bad : Bool), s.safe = false → off + n ≤ 2 ^ 32 → nonePosted s →
    (pagesOf (s.rd F.PCI_WIN_BASE * 2 ^ 32 + off) n).any (fun v => s.retrains (s.pmEntry v)) = false →
    (s.tick t).devRead 4 0x5B (s.rd F.PCI_WIN_PARTITION) (s.rd F.PCI_WIN_BASE * 2 ^ 32 + off) n = (code, b, bad, s₁) →
    (code.isSome = true ∨ bad = true) →
    ∃ s', exec (.bar4Access t off n none) s = .next s' ∧ s'.host.readBack = List.replicate n 255 ∧
      s'.host.aerAborts = s.host.aerAborts + 1 ∧ sameMem s s') ∧
  (∀ (s : State) (t off n : Nat) (b : Bytes), s.safe = false → off + b.length ≤ 2 ^ 32 → nonePosted s →
    s.behind (.window .pf0 off b) = none →
    exec (.bar4Access t off n (some b)) s =
      .next ((s.tick t).devWrite 4 0x5B (s.rd F.PCI_WIN_PARTITION) (s.rd F.PCI_WIN_BASE * 2 ^ 32 + off) b false (some .pf0)).2) ∧
  (∀ (s s₁ : State) (t n off len : Nat) (b : Bytes), 1 ≤ n → n ≤ 16 → s.safe = false → off + len ≤ 2 ^ 30 → nonePosted s →
    (pagesOf (agetD s.host.vfBase n 0 + off) len).any (fun v => s.retrains (s.pmEntry v)) = false →
    (s.tick t).devRead 4 0x5B (n - 1) (agetD s.host.vfBase n 0 + off) len = (none, b, false, s₁) →
    ∃ s', exec (.vfBar2Access t n off len none) s = .next s' ∧ s'.host.readBack = b ∧ sameMem s s') ∧
  (∀ (s : State) (t n off len : Nat) (b : Bytes), 1 ≤ n → n ≤ 16 → s.safe = false → off + b.length ≤ 2 ^ 30 → nonePosted s →
    s.behind (.window (.vf n) off b) = none →
    exec (.vfBar2Access t n off len (some b)) s =
      .next ((s.tick t).devWrite 4 0x5B (n - 1) (agetD s.host.vfBase n 0 + off) b false (some (.vf n))).2) ∧
  (∀ (s : State) (t off n k : Nat) (b : Bytes), s.safe = false → off + b.length ≤ 2 ^ 32 → nonePosted s →
    s.behind (.window .pf0 off b) = some k →
    exec (.bar4Access t off n (some b)) s =
      .next { s.tick t with pwr := { s.pwr with held := s.pwr.held ++ [(k, .window .pf0 off b)] } })

/-- Sideband, DOE and directory reads. Once configuration requests are completed the directory data register returns the dword at
LDIR_INDEX, 0 beyond the table, and the index moves on by 1, wrapping at 14 bits; before, the request is told to retry. A directory read,
the stage and guarantee status, and an unknown vendor command are answered on their path from Footing onward, a directory read outside its
ranges with RANGE. PLDM, MCTP control and DOE discovery are answered; a dynamic address is taken once, by ENTDAA or by SETDASA to 3Ah. None
of them writes memory. (R267, R276, R277, R295, R299, R306, R307, R353) -/
def Obligations.SidebandAndDirectory : Prop :=
  (∀ (s : State) (t : Nat), (s.tick t).configUp = true →
    ∃ s', exec (.ldirDataRead t) s = .next s' ∧ s'.rd F.LDIR_INDEX_DWORD = (s.rd F.LDIR_INDEX_DWORD + 1) % 2 ^ 14 ∧
      s'.host.readBack = (if 4 * s.rd F.LDIR_INDEX_DWORD < 64 + 32 * s.ldir.length
        then slice s.ldBytes (4 * s.rd F.LDIR_INDEX_DWORD) 4 else [0, 0, 0, 0]) ∧
      sameBut [fkey F.LDIR_INDEX_DWORD] s s' ∧ sameMem s s') ∧
  (∀ (s : State) (t : Nat), (s.tick t).configUp = false → s.on F.PWR_STATUS_AUX_VALID = true →
    exec (.ldirDataRead t) s = .next { s.tick t with host := { s.host with cfgRetry := true } }) ∧
  (∀ (s : State) (t off len : Nat) (p : Path), (p = .mctp ∨ p = .doe) → (s.tick t).aonUp p = true → dirReadOk off len = true →
    ∃ s', exec (.dirRead t p off len) s = .next s' ∧ s'.host.answers = (p, s.dirReadData off len) :: s.host.answers ∧
      s' = { s with now := s'.now, host := s'.host }) ∧
  (∀ (s : State) (t off len : Nat) (p : Path), (p = .mctp ∨ p = .doe) → (s.tick t).aonUp p = true → dirReadOk off len = false →
    ∃ s', exec (.dirRead t p off len) s = .next s' ∧
      s'.host.answers = (p, natLe 1 1 ++ natLe 3 0 ++ natLe 4 (s.rd F.LDIR_GEN_GENERATION)) :: s.host.answers ∧
      s' = { s with now := s'.now, host := s'.host }) ∧
  (∀ (s : State) (t off len src ep port : Nat), s.on F.AON_STAGE_SUPERVISION = true → dirReadOk off len = true →
    exec (.dirRead t (.fabric src ep port) off len) s = .next ((s.tick t).sendPkt 0 0xFE src ep 4 0 0 false (s.dirReadData off len))) ∧
  (∀ (s : State) (t off len : Nat) (h : MbxHdr), takes s h → dirReadOk off len = true → s.mbxCheck h { safeOk := true } = none →
    ∃ s', exec (.dirRead t (.mbx h) off len) s = .next s' ∧ answered s' h 0 (s.dirReadData off len) ∧ sameRegsBut [.MBX_STATUS] s s' ∧
      sameMem s s') ∧
  (∀ (s : State) (t : Nat) (p : Path), (p = .mctp ∨ p = .doe) → (s.tick t).aonUp p = true →
    ∃ s', exec (.stageAndGuaranteeStatus t p) s = .next s' ∧
      s'.host.answers = (p, natLe 1 0 ++ s.regBytes .AON_STAGE ++ s.regBytes .AON_READY ++ s.regBytes .MGT_GUARANTEE) :: s.host.answers ∧
      s' = { s with now := s'.now, host := s'.host }) ∧
  (∀ (s : State) (t src ep port : Nat), s.on F.AON_STAGE_SUPERVISION = true →
    exec (.stageAndGuaranteeStatus t (.fabric src ep port)) s = .next ((s.tick t).sendPkt 0 0xFE src ep 4 0 0 false
      (natLe 1 0 ++ s.regBytes .AON_STAGE ++ s.regBytes .AON_READY ++ s.regBytes .MGT_GUARANTEE))) ∧
  (∀ (s : State) (t code : Nat) (p : Path), (p = .mctp ∨ p = .doe) → (s.tick t).aonUp p = true → vendorKnown p code = false →
    ∃ s', exec (.unknownVendorCommand t p code) s = .next s' ∧ s'.host.answers = (p, [255]) :: s.host.answers ∧
      s' = { s with now := s'.now, host := s'.host }) ∧
  (∀ (s : State) (t : Nat), s.on F.AON_STAGE_SIDEBAND = true → s.fwUp = true →
    ∃ s', exec (.pldmRequest t 2 .readStage) s = .next s' ∧ s'.host.answers = (.mctp, natLe 1 0 ++ natLe 1 s.stage) :: s.host.answers ∧
      s' = { s with now := s'.now, host := s'.host }) ∧
  (∀ (s : State) (t k v : Nat), s.on F.AON_STAGE_SIDEBAND = true → s.fwUp = true → s.sensor k = some v →
    ∃ s', exec (.pldmRequest t 2 (.readSensor k)) s = .next s' ∧ s'.host.answers = (.mctp, natLe 1 0 ++ natLe 2 v) :: s.host.answers ∧
      s' = { s with now := s'.now, host := s'.host }) ∧
  (∀ (s : State) (t ty : Nat) (cmd : PldmCmd), s.on F.AON_STAGE_SIDEBAND = true → s.fwUp = true → (ty = 0 ∨ ty = 2 ∨ ty = 5) →
    pldmTypeOf cmd ≠ ty →
    ∃ s', exec (.pldmRequest t ty cmd) s = .next s' ∧ s'.host.answers = (.mctp, [5]) :: s.host.answers ∧
      s' = { s with now := s'.now, host := s'.host }) ∧
  (∀ (s : State) (t off : Nat) (b : Bytes), s.on F.AON_STAGE_SIDEBAND = true → s.fwUp = true →
    ∃ s', exec (.pldmRequest t 5 (.update 5 off b)) s = .next s' ∧ s'.host.answers = (.mctp, [0]) :: s.host.answers ∧
      s'.sec.flash = { s.sec.flash with trim := patchBytes s.sec.flash.trim off b } ∧ s'.regs = s.regs ∧ sameMem s s') ∧
  (∀ (s : State) (t ty : Nat) (cmd : PldmCmd), s.on F.AON_STAGE_SIDEBAND = true → s.fwUp = false → (ty = 0 ∨ ty = 2 ∨ ty = 5) →
    ∃ s', exec (.pldmRequest t ty cmd) s = .next s' ∧ s'.host.answers = (.mctp, [4]) :: s.host.answers ∧
      s' = { s with now := s'.now, host := s'.host }) ∧
  (∀ (s : State) (t eid : Nat), s.on F.AON_STAGE_SIDEBAND = true →
    ∃ s', exec (.mctpControlMessage t 1 eid) s = .next s' ∧ s'.host.mctpEid = some (eid % 256) ∧ s' = { s with now := s'.now, host := s'.host }) ∧
  (∀ (s : State) (t a : Nat), s.on F.AON_STAGE_SIDEBAND = true → a < 128 → s.host.i3cAddr = none →
    ∃ s', exec (.i3cDynamicAddress t none a) s = .next s' ∧ s'.host.i3cAddr = some a ∧ s' = { s with now := s'.now, host := s'.host }) ∧
  (∀ (s : State) (t a st : Nat), s.on F.AON_STAGE_SIDEBAND = true → a < 128 → s.host.i3cAddr = none →
    ∃ s', exec (.i3cDynamicAddress t (some st) a) s = .next s' ∧ s'.host.i3cAddr = (if st = 0x3A then some a else none) ∧
      s' = { s with now := s'.now, host := s'.host }) ∧
  (∀ (s : State) (t : Nat), (s.tick t).configUp = true →
    ∃ s', exec (.doeDiscovery t 0) s = .next s' ∧ s'.host.answers = (.doe, [1, 0, 0, 1]) :: s.host.answers ∧
      s' = { s with now := s'.now, host := s'.host })

/-- Frames are sent, received in order, acknowledged and replayed. An UP port sends a frame of its replay before anything else, with the
receive sequence it has reached as ACK, then a LINK message under the next FSEQ (a CENSUS with the credits held, a RECONCILE only with an
empty replay buffer, with the slots free), then a flit that takes one credit, then IDLE; with 2,048 frames in the replay buffer it sends
IDLE alone. A data frame in order takes one slot and its whole packet waits at the router; a bad CRC (which is counted) or another FSEQ
leaves the receive sequence and queues a NAK. An ACK empties the replay buffer up to its frame; credits return unless the port waits for a
RECONCILE. A NAK, or 1 µs without an ACK, replays from its frame; the eighth replay from one FSEQ enters RETRAIN, the third retrain within 1
s takes the port DOWN with reason 2. (That an IDLE frame is expected under the last FSEQ received is the model's reading:
notes/assumptions/108.md.) (R329, R330, R331, R332, R333) -/
def Obligations.FramesAndRetry : Prop :=
  (∀ (s : State) (t i : Nat) (f : Frame) (l : List Frame), i < 32 → s.pstate i = 2 → (s.port i).resend = f :: l →
    ∃ s', exec (.frameSend t i) s = .next s' ∧ (s'.port i).last = some { f with ack := (s.port i).rxSeq } ∧ (s'.port i).resend = l ∧
      (s'.port i).txSeq = (s.port i).txSeq ∧ (s'.port i).replay = (s.port i).replay ∧ s' = { s with now := s'.now, fab := s'.fab }) ∧
  (∀ (s : State) (t i : Nat), i < 32 → s.pstate i = 2 → (s.port i).resend = [] →
    (2048 ≤ (s.port i).replay.length ∨ ((s.port i).linkQ = [] ∧ (s.port i).dataQ = [])) →
    ∃ (s' : State) (f : Frame), exec (.frameSend t i) s = .next s' ∧ (s'.port i).last = some f ∧ f.body = .idle ∧ f.fseq = (s.port i).txSeq ∧
      f.ack = (s.port i).rxSeq ∧ (s'.port i).replay = (s.port i).replay ∧ (s'.port i).linkQ = (s.port i).linkQ ∧
      (s'.port i).dataQ = (s.port i).dataQ ∧ s' = { s with now := s'.now, fab := s'.fab }) ∧
  (∀ (s : State) (t i : Nat) (m : LinkMsg) (l : List LinkMsg), i < 32 → s.pstate i = 2 → (s.port i).resend = [] →
    (s.port i).replay.length < 2048 → (s.port i).linkQ = m :: l → (∀ c r, m ≠ .census c r) → (∀ r, m ≠ .reconcile r) →
    ∃ (s' : State) (f : Frame), exec (.frameSend t i) s = .next s' ∧ (s'.port i).last = some f ∧ f.body = .link m ∧
      f.fseq = ((s.port i).txSeq + 1) % 65536 ∧ (s'.port i).txSeq = f.fseq ∧ (s'.port i).linkQ = l ∧
      (s'.port i).replay = (s.port i).replay ++ [f] ∧ s' = { s with now := s'.now, fab := s'.fab }) ∧
  (∀ (s : State) (t i r : Nat) (c : List Nat) (l : List LinkMsg), i < 32 → s.pstate i = 2 → (s.port i).resend = [] →
    (s.port i).replay.length < 2048 → (s.port i).linkQ = .census c r :: l →
    ∃ (s' : State) (f : Frame), exec (.frameSend t i) s = .next s' ∧ (s'.port i).last = some f ∧
      f.body = .link (.census (s.port i).credits (s.port i).rxSeq) ∧ (s'.port i).linkQ = l ∧
      (s'.port i).replay = (s.port i).replay ++ [f] ∧ s' = { s with now := s'.now, fab := s'.fab }) ∧
  (∀ (s : State) (t i : Nat) (c : List Nat) (l : List LinkMsg), i < 32 → s.pstate i = 2 → (s.port i).resend = [] →
    (s.port i).replay = [] → (s.port i).linkQ = .reconcile c :: l →
    ∃ (s' : State) (f : Frame), exec (.frameSend t i) s = .next s' ∧ (s'.port i).last = some f ∧
      f.body = .link (.reconcile ((s.port i).occ.mapIdx (fun v o => vcSlots v - o))) ∧ (s'.port i).linkQ = l ∧ (s'.port i).replay = [f] ∧
      (s'.port i).retDue = [0, 0, 0, 0, 0, 0, 0, 0] ∧ (s'.port i).paused = ((s.port i).paused && !(s.port i).answering) ∧
      s' = { s with now := s'.now, fab := s'.fab }) ∧
  (∀ (s : State) (t i : Nat) (q : OutPkt), i < 32 → s.pstate i = 2 → (s.port i).resend = [] → (s.port i).replay.length < 2048 →
    (s.port i).linkQ = [] → (s.port i).dataQ = [q] → q.vc < 8 → (s.port i).paused = false → 0 < (s.port i).credits.getD q.vc 0 →
    ∃ (s' : State) (f : Frame), exec (.frameSend t i) s = .next s' ∧ (s'.port i).last = some f ∧
      f.body = .data q.vc (decide (q.sent = 0)) (decide (q.sent + 1 = pktFlits q.pkt)) q.pkt ∧
      f.fseq = ((s.port i).txSeq + 1) % 65536 ∧ (s'.port i).replay = (s.port i).replay ++ [f] ∧
      (s'.port i).credits = dent (s.port i).credits q.vc 1 ∧
      (s'.port i).dataQ = (if q.sent + 1 = pktFlits q.pkt then [] else [{ q with sent := q.sent + 1 }]) ∧
      s' = { s with now := s'.now, fab := s'.fab, outBeats := s'.outBeats }) ∧
  (∀ (s : State) (t i : Nat) (f : Frame), i < 32 → s.pstate i = 2 →
    ∃ s', exec (.frameReceive t i f false) s = .next s' ∧ s'.rd F.FAB_LINK_CRC_ERR i = counted F.FAB_LINK_CRC_ERR (s.rd F.FAB_LINK_CRC_ERR i) 1 ∧
      (s'.port i).linkQ = (s.port i).linkQ ++ [.nak (((s.port i).rxSeq + 1) % 65536)] ∧ (s'.port i).rxSeq = (s.port i).rxSeq ∧
      s'.fab.heads = s.fab.heads ∧ sameBut [fkey F.FAB_LINK_CRC_ERR i] s s' ∧ s' = { s with now := s'.now, regs := s'.regs, fab := s'.fab }) ∧
  (∀ (s : State) (t i : Nat) (f : Frame), i < 32 → s.pstate i = 2 →
    (f.body ≠ .idle ∧ f.fseq ≠ ((s.port i).rxSeq + 1) % 65536 ∨ f.body = .idle ∧ f.fseq ≠ (s.port i).rxSeq) →
    ∃ s', exec (.frameReceive t i f true) s = .next s' ∧ (s'.port i).linkQ = (s.port i).linkQ ++ [.nak (((s.port i).rxSeq + 1) % 65536)] ∧
      (s'.port i).rxSeq = (s.port i).rxSeq ∧ (s'.port i).credits = (s.port i).credits ∧ (s'.port i).replay = (s.port i).replay ∧
      s'.fab.heads = s.fab.heads ∧ s' = { s with now := s'.now, fab := s'.fab }) ∧
  (∀ (s : State) (t i v : Nat) (f : Frame) (hd : Bool) (k : Pkt), i < 32 → s.pstate i = 2 → f.body = .data v hd true k →
    f.fseq = ((s.port i).rxSeq + 1) % 65536 →
    ∃ s', exec (.frameReceive t i f true) s = .next s' ∧ (s'.port i).rxSeq = f.fseq ∧ (s'.port i).occ = bump (s.port i).occ v 1 ∧
      (s'.port i).credits = (if (s.port i).paused then (s.port i).credits else bump (s.port i).credits f.crVc f.crCount) ∧
      s'.fab.heads = s.fab.heads ++ [{ pkt := k, from_ := some (i, v), since := max s.now t }] ∧ (s'.port i).lastRx = max s.now t ∧
      s' = { s with now := s'.now, fab := s'.fab }) ∧
  (∀ (s : State) (t i n : Nat) (f : Frame), i < 32 → s.pstate i = 2 → f.body = .idle → f.fseq = (s.port i).rxSeq →
    (s.port i).replay.findIdx? (fun g => g.fseq = f.ack) = some n →
    ∃ s', exec (.frameReceive t i f true) s = .next s' ∧ (s'.port i).replay = (s.port i).replay.drop (n + 1) ∧ (s'.port i).acked = f.ack ∧
      (s'.port i).credits = (if (s.port i).paused then (s.port i).credits else bump (s.port i).credits f.crVc f.crCount) ∧
      (s'.port i).rxSeq = (s.port i).rxSeq ∧ s' = { s with now := s'.now, fab := s'.fab }) ∧
  (∀ (s : State) (t i q n : Nat), i < 32 → s.pstate i = 2 → (s.port i).replay.findIdx? (fun g => g.fseq = q) = some n →
    ((s.port i).replayRun < 7 ∨ (s.port i).replayFrom ≠ q) →
    ∃ s', exec (.nakReceive t i q) s = .next s' ∧ (s'.port i).resend = (s.port i).replay.drop n ∧
      s'.rd F.FAB_LINK_REPLAYS i = counted F.FAB_LINK_REPLAYS (s.rd F.FAB_LINK_REPLAYS i) 1 ∧ sameBut [fkey F.FAB_LINK_REPLAYS i] s s' ∧
      s' = { s with now := s'.now, regs := s'.regs, fab := s'.fab }) ∧
  (∀ (s : State) (t i q n : Nat), i < 32 → s.pstate i = 2 → (s.port i).replay.findIdx? (fun g => g.fseq = q) = some n →
    7 ≤ (s.port i).replayRun → (s.port i).replayFrom = q →
    ∃ s', exec (.nakReceive t i q) s = .next s' ∧ s'.rd F.FAB_LINK_RETRAINS i = counted F.FAB_LINK_RETRAINS (s.rd F.FAB_LINK_RETRAINS i) 1 ∧
      (((s.port i).retrains.filter (fun a => max s.now t < a + 1000000000)).length < 2 → s'.pstate i = 3) ∧
      (2 ≤ ((s.port i).retrains.filter (fun a => max s.now t < a + 1000000000)).length →
        s'.pstate i = 6 ∧ s'.rd F.FAB_PORT_REASON i = 2) ∧ sameMem s s') ∧
  (∀ (s : State) (t i : Nat) (f : Frame) (l : List Frame), i < 32 → s.pstate i = 2 → (s.port i).replay = f :: l →
    (s.port i).ackAt + 1000 ≤ max s.now t → ((s.port i).replayRun < 7 ∨ (s.port i).replayFrom ≠ f.fseq) →
    ∃ s', exec (.replayTimer t i) s = .next s' ∧ (s'.port i).resend = f :: l ∧
      s'.rd F.FAB_LINK_REPLAYS i = counted F.FAB_LINK_REPLAYS (s.rd F.FAB_LINK_REPLAYS i) 1 ∧ sameBut [fkey F.FAB_LINK_REPLAYS i] s s' ∧
      s' = { s with now := s'.now, regs := s'.regs, fab := s'.fab })

/-- Ports train, fall silent, go down and take their credit census. Training with 8 or more wavelengths takes a FABRIC port in TRAINING, a
SILENT one that heard a HELLO, or a DOWN one whose attempt is under way, to UP, or to ISOLATE, with fresh sequence numbers and the partner's
free slots as credits; with fewer it goes DOWN with reason 4. A retrain completed in time takes the partner's credits and replays; a failed
one goes DOWN. A port silent for 4 µs goes SILENT with reason 1 and loses its queues, one SILENT for 1 s or untrained at its limit goes
DOWN, and loss of light takes the fibre's four ports DOWN. A census that balances changes nothing but its log; one that does not is counted
and reported, stops DATA and asks for a RECONCILE. A RECONCILE gives a stopped port its credits and lets DATA go on; a port that had not
stopped takes what its unacknowledged flits leave, stops and answers (the model's reading of how the two ends meet:
notes/assumptions/108.md). (R327, R328, R332, R333, R334, R335, R338, R339, R340, R346) -/
def Obligations.PortStates : Prop :=
  (∀ (s : State) (t i lanes : Nat) (free : List Nat), i < 32 → s.rd F.FAB_PORT_ROLE i = 1 →
    (s.pstate i = 1 ∨ (s.pstate i = 4 ∧ (s.port i).since ≤ (s.port i).heardAt) ∨
      (s.pstate i = 6 ∧ (s.port i).trying = true ∧ max s.now t < (s.port i).tryAt + 100000000)) →
    8 ≤ (below 16 (fun w => lanes.testBit w && (s.port i).lanesOk.testBit w)).length →
    ∃ s', exec (.trainingComplete t i lanes free) s = .next s' ∧ s'.pstate i = (if s.isolated i then 5 else 2) ∧
      s'.rd F.FAB_PORT_LANE_MASK i = ((below 16 (fun w => lanes.testBit w && (s.port i).lanesOk.testBit w)).map (fun w => 2 ^ w)).sum ∧
      (s'.port i).txSeq = 0 ∧ (s'.port i).rxSeq = 0 ∧ (s'.port i).credits = (List.range 8).map (fun v => free.getD v 0) ∧ (s'.port i).replay = [] ∧
      (s'.port i).paused = false ∧ sameBut [fkey F.FAB_PORT_STATE i, fkey F.FAB_PORT_LANE_MASK i] s s' ∧ sameMem s s') ∧
  (∀ (s : State) (t i lanes : Nat) (free : List Nat), i < 32 → s.rd F.FAB_PORT_ROLE i = 1 → s.pstate i = 1 →
    (below 16 (fun w => lanes.testBit w && (s.port i).lanesOk.testBit w)).length < 8 →
    ∃ s', exec (.trainingComplete t i lanes free) s = .next s' ∧ s'.pstate i = 6 ∧ s'.rd F.FAB_PORT_REASON i = 4 ∧ sameMem s s') ∧
  (∀ (s : State) (t i lanes : Nat) (free : List Nat), i < 32 → s.pstate i = 3 → max s.now t ≤ (s.port i).since + 100000 →
    8 ≤ (below 16 (fun w => lanes.testBit w && (s.port i).lanesOk.testBit w)).length →
    ∃ s', exec (.retrainComplete t i true lanes free) s = .next s' ∧ s'.pstate i = (if s.isolated i then 5 else 2) ∧
      (s'.port i).credits = (List.range 8).map (fun v => free.getD v 0) ∧ (s'.port i).resend = (s.port i).replay ∧
      (s'.port i).replay = (s.port i).replay ∧ (s'.port i).retDue = [0, 0, 0, 0, 0, 0, 0, 0] ∧ (s'.port i).paused = false ∧
      sameBut [fkey F.FAB_PORT_STATE i, fkey F.FAB_PORT_LANE_MASK i] s s' ∧ sameMem s s') ∧
  (∀ (s : State) (t i lanes : Nat) (free : List Nat), i < 32 → s.pstate i = 3 →
    ∃ s', exec (.retrainComplete t i false lanes free) s = .next s' ∧ s'.pstate i = 6 ∧ s'.rd F.FAB_PORT_REASON i = 2 ∧ sameMem s s') ∧
  (∀ (s : State) (t i : Nat), i < 32 → (s.pstate i = 2 ∨ s.pstate i = 3 ∨ s.pstate i = 5) → (s.port i).lastRx + 4000 ≤ max s.now t →
    ∃ s', exec (.silenceTimeout t i) s = .next s' ∧ s'.pstate i = 4 ∧ s'.rd F.FAB_PORT_REASON i = 1 ∧ (s'.port i).replay = [] ∧
      (s'.port i).dataQ = [] ∧ (s'.port i).linkQ = [] ∧
      s'.rd F.FAB_LINK_DROPPED i = counted F.FAB_LINK_DROPPED (s.rd F.FAB_LINK_DROPPED i)
        ((s.port i).replay.countP (fun f => match f.body with | .data _ _ true _ => true | _ => false) + (s.port i).dataQ.length) ∧
      sameBut [fkey F.FAB_PORT_STATE i, fkey F.FAB_PORT_REASON i, fkey F.FAB_LINK_DROPPED i] s s' ∧ sameMem s s') ∧
  (∀ (s : State) (t i : Nat), i < 32 → s.pstate i = 4 → (s.port i).since + 1000000000 ≤ max s.now t →
    ∃ s', exec (.silentExpire t i) s = .next s' ∧ s'.pstate i = 6 ∧ s'.rd F.FAB_PORT_REASON i = s.rd F.FAB_PORT_REASON i % 16 ∧ sameMem s s') ∧
  (∀ (s : State) (t i : Nat), i < 32 → s.pstate i = 6 → (s.port i).tryAt + 100000000 ≤ max s.now t →
    ∃ s', exec (.downTrainingAttempt t i) s = .next s' ∧ (s'.port i).tryAt = max s.now t ∧ (s'.port i).trying = true ∧
      s' = { s with now := s'.now, fab := s'.fab }) ∧
  (∀ (s : State) (t i : Nat), i < 32 → s.pstate i = 1 →
    (s.port i).since + (if s.on F.AON_STAGE_WARM then 1000000000 else 8000000000) ≤ max s.now t →
    ∃ s', exec (.portTrainingTimeout t i) s = .next s' ∧ s'.pstate i = 6 ∧ s'.rd F.FAB_PORT_REASON i = 3 ∧ sameMem s s') ∧
  (∀ (s : State) (t fibre : Nat), fibre < 8 →
    ∃ s', exec (.lightLoss t fibre) s = .next s' ∧
      (∀ k, k < 4 → s.pstate (4 * fibre + k) ≠ 0 → s'.pstate (4 * fibre + k) = 6 ∧ s'.rd F.FAB_PORT_REASON (4 * fibre + k) = 5) ∧
      (∀ i, i / 4 ≠ fibre → s'.pstate i = s.pstate i) ∧ sameMem s s') ∧
  (∀ (s : State) (t i : Nat) (powers : List Int) (light : Int), i < 32 → s.rd F.FAB_PORT_ROLE i = 1 → powers.length = 16 →
    ∃ s', exec (.opticalPowerSample t i powers light) s = .next s' ∧ s'.rd F.FAB_OPT_LIGHT_IN i = unsigned light 16 ∧
      s'.rd F.FAB_OPT_RX_AVG i = unsigned (powers.sum / 16) 16 ∧
      s'.rd F.FAB_OPT_RX_MIN i = unsigned (powers.getD (s'.rd F.FAB_OPT_RX_MIN_LANE i) 0) 16 ∧
      (∀ w, w < 16 → powers.getD (s'.rd F.FAB_OPT_RX_MIN_LANE i) 0 ≤ powers.getD w 0) ∧
      (∀ w, w < 16 → (s'.port i).lanesOk.testBit w = decide (-100 ≤ powers.getD w 0)) ∧ s'.pstate i = s.pstate i ∧ sameMem s s') ∧
  (∀ (s : State) (t i : Nat), i < 32 → s.pstate i = 2 →
    ∃ s', exec (.censusSend t i) s = .next s' ∧ (s'.port i).linkQ = (s.port i).linkQ ++ [.census [] 0] ∧
      s' = { s with now := s'.now, fab := s'.fab }) ∧
  (∀ (s : State) (t i lastRx : Nat) (credits : List Nat), i < 32 → s.pstate i = 2 → (s.port i).retLog = [] →
    (∀ v, v < 8 → credits.getD v 0 + (s.port i).occ.getD v 0 + (s.port i).retDue.getD v 0 = vcSlots v) →
    ∃ s', exec (.census t i credits lastRx) s = .next s' ∧ s'.port i = s.port i ∧ s' = { s with now := s'.now, fab := s'.fab }) ∧
  (∀ (s : State) (t i lastRx v : Nat) (credits : List Nat), i < 32 → s.pstate i = 2 → (s.port i).retLog = [] → v < 8 →
    credits.getD v 0 + (s.port i).occ.getD v 0 + (s.port i).retDue.getD v 0 ≠ vcSlots v → (s.port i).censusBad = none →
    ∃ s' r, exec (.census t i credits lastRx) s = .next s' ∧
      s'.rd F.FAB_LINK_CENSUS_FAIL i = counted F.FAB_LINK_CENSUS_FAIL (s.rd F.FAB_LINK_CENSUS_FAIL i) 1 ∧ r.cls = 3 ∧ r.level = 1 ∧ r.code = 1 ∧
      s'.fc = reported s t r ∧ (s'.port i).paused = true ∧ (s'.port i).linkQ = (s.port i).linkQ ++ [.reconcile []] ∧
      sameBut [fkey F.FAB_LINK_CENSUS_FAIL i] s s' ∧ sameMem s s') ∧
  (∀ (s : State) (t i : Nat) (free : List Nat), i < 32 → (s.pstate i = 2 ∨ s.pstate i = 5) → (s.port i).paused = true →
    ∃ s', exec (.reconcile t i free) s = .next s' ∧ (s'.port i).credits = (List.range 8).map (fun v => free.getD v 0) ∧
      (s'.port i).paused = false ∧ (s'.port i).linkQ = (s.port i).linkQ ∧ s' = { s with now := s'.now, fab := s'.fab }) ∧
  (∀ (s : State) (t i : Nat) (free : List Nat), i < 32 → (s.pstate i = 2 ∨ s.pstate i = 5) → (s.port i).paused = false →
    ∃ s', exec (.reconcile t i free) s = .next s' ∧ (s'.port i).paused = true ∧ (s'.port i).linkQ = (s.port i).linkQ ++ [.reconcile []] ∧
      (s'.port i).credits = (List.range 8).map (fun v => free.getD v 0 - (s.port i).inFlight v) ∧ s' = { s with now := s'.now, fab := s'.fab })

/-- HELLO, claims, the settled address and the route table. A port that is not OFF or DOWN sends what the device says of itself; a HELLO is
recorded, and one with another digest removes every candidate through the port, with reason 6. A claim not heard before is recorded with one
hop more, forwarded on the other UP ports and gives its destination a route entry; a claim of the device's own proposal by a lower digest
makes an unadmitted device in mode 0 propose the next address. At Dome the device first proposes the low 16 bits of its digest; after 10 ms
without a change or conflict the address is settled and admitted; in mode 1 a conflict then sets CONFLICT and holds Dome with reason 06h.
WITHDRAW sets the WD bits of the candidates through its port, ANNOUNCE clears them, and a write to a route entry by the management core or
PF0 sets it with WD 0; a VF's does nothing, a Belfry core's is a level 1 security fault. (R343, R344, R345, R346, R347, R348, R350, R363) -/
def Obligations.Discovery : Prop :=
  (∀ (s : State) (t i : Nat), i < 32 → s.pstate i ≠ 0 → s.pstate i ≠ 6 →
    ∃ s' h, exec (.helloSend t i) s = .next s' ∧ (s'.port i).linkQ = (s.port i).linkQ ++ [.hello h] ∧ h.version = 1 ∧ h.digest = s.idDigest ∧
      h.addr = s.rd F.FAB_ADDR_ADDRESS ∧ h.admitted = s.on F.FAB_ADDR_ADMITTED ∧ h.isolate = decide (s.pstate i = 5) ∧ h.port = i ∧
      h.stage = s.stage ∧ s' = { s with now := s'.now, fab := s'.fab }) ∧
  (∀ (s : State) (t i : Nat) (h : HelloMsg), i < 32 → s.pstate i ≠ 0 → s.pstate i ≠ 6 → h.addr < 2 ^ 16 → h.port < 32 →
    ∃ s', exec (.hello t i h) s = .next s' ∧ s'.rd F.FAB_PORT_NBR_ADDR i = h.addr ∧ s'.rd F.FAB_PORT_NBR_PORT i = h.port ∧
      s'.on F.FAB_PORT_NBR_ISOLATE i = h.isolate ∧ (s'.port i).nbr = some h ∧ (s'.port i).heardAt = max s.now t ∧
      ((∀ n, (s.port i).nbr = some n → n.digest = h.digest) →
        sameBut [fkey F.FAB_PORT_NBR_ADDR i, fkey F.FAB_PORT_NBR_PORT i, fkey F.FAB_PORT_NBR_ISOLATE i] s s') ∧
      (∀ n, (s.port i).nbr = some n → n.digest ≠ h.digest → s'.rd F.FAB_PORT_REASON i = 6 ∧ (∀ d, s'.candsVia d i = [])) ∧ sameMem s s') ∧
  (∀ (s : State) (t i : Nat) (c : ClaimMsg), i < 32 → s.pstate i = 2 → c.digest ≠ s.idDigest →
    s.fab.claims.find? (fun r => r.digest = c.digest) = none →
    ∃ s', exec (.claim t i c) s = .next s' ∧
      (∃ r ok, r ∈ s'.fab.claims ∧ r.digest = c.digest ∧ r.addr = c.addr ∧ r.seq = c.seq ∧ r.paths = [(i, c.hops + 1, ok)]) ∧
      (∀ j, j ∈ s.upPorts → j ≠ i → ∃ m : ClaimMsg, .claim m ∈ (s'.port j).linkQ ∧ m.addr = c.addr ∧ m.digest = c.digest ∧ m.hops = c.hops + 1) ∧
      s'.on F.FAB_ROUTE_VALID c.addr = true ∧ s'.rd F.FAB_ROUTE_WD c.addr = 0 ∧ sameRegsBut [.FAB_ROUTE] s s' ∧ sameMem s s') ∧
  (∀ (s : State) (t i : Nat) (c : ClaimMsg), i < 32 → s.pstate i = 2 → c.digest ≠ s.idDigest → s.fab.proposal = some c.addr →
    s.on F.FAB_ADDR_ADMITTED = false → s.on F.FAB_ADDR_MODE = false → digestLt c.digest s.idDigest = true →
    ∃ s', exec (.claim t i c) s = .next s' ∧ s'.fab.proposal = some ((c.addr + 1) % 0xFFFF) ∧ s'.fab.changeAt = max s.now t ∧ sameMem s s') ∧
  (∀ (s : State) (t : Nat) (m : Option Nat), s.stage = stDome → s.on F.FAB_ADDR_ADMITTED = false → s.rd F.AON_STAGE_HOLD_REASON ≠ 6 →
    s.upPorts ≠ [] → s.fab.proposal = none → s.on F.FAB_ADDR_MODE = false → leAt s.idDigest 0 2 ≠ 0xFFFF →
    ∃ s', exec (.addressSettle t m) s = .next s' ∧ s'.fab.proposal = some (leAt s.idDigest 0 2) ∧ s'.regs = s.regs ∧ sameMem s s') ∧
  (∀ (s : State) (t a : Nat), s.stage = stDome → s.on F.FAB_ADDR_ADMITTED = false → s.rd F.AON_STAGE_HOLD_REASON ≠ 6 → s.upPorts ≠ [] →
    s.fab.proposal = some a → a < 2 ^ 16 → s.fab.changeAt + 10000000 ≤ max s.now t → s.fab.claims.any (fun c => c.addr = a) = false →
    ∃ s', exec (.addressSettle t none) s = .next s' ∧ s'.rd F.FAB_ADDR_ADDRESS = a ∧ s'.rd F.FAB_ADDR_VALID = 1 ∧
      s'.rd F.FAB_ADDR_ADMITTED = 1 ∧ s'.rd F.AON_STAGE_FABRIC = 1 ∧ s'.rd F.LDIR_CAUSE_CAUSE = 5 ∧ sameRegsBut [.FAB_ADDR, .FAB_ROUTE, .AON_STAGE, .LDIR_GEN, .LDIR_LAST_NS, .LDIR_CAUSE] s s' ∧ sameMem s s') ∧
  (∀ (s : State) (t a : Nat) (m : Option Nat), s.stage = stDome → s.on F.FAB_ADDR_ADMITTED = false → s.rd F.AON_STAGE_HOLD_REASON ≠ 6 →
    s.upPorts ≠ [] → s.fab.proposal = some a → s.on F.FAB_ADDR_MODE = true → s.fab.changeAt + 10000000 ≤ max s.now t →
    s.fab.claims.any (fun c => c.addr = a) = true →
    ∃ s' r, exec (.addressSettle t m) s = .next s' ∧ s'.rd F.FAB_ADDR_CONFLICT = 1 ∧ s'.rd F.AON_STAGE_HOLD_REASON = 6 ∧ r.cls = 4 ∧
      r.level = 1 ∧ r.code = 6 ∧ s'.fc = reported s t r ∧ sameBut [fkey F.FAB_ADDR_CONFLICT, fkey F.AON_STAGE_HOLD_REASON] s s' ∧ sameMem s s') ∧
  (∀ (s : State) (t i : Nat) (ds : List Nat), i < 32 → s.pstate i ≠ 0 → s.pstate i ≠ 6 →
    ∃ s', exec (.withdraw t i ds) s = .next s' ∧ (∀ d k, d ∈ ds → k ∈ s.candsVia d i → (s'.rd F.FAB_ROUTE_WD d).testBit k = true) ∧
      (∀ d, d ∉ ds → s'.rd F.FAB_ROUTE_WD d = s.rd F.FAB_ROUTE_WD d) ∧
      (∀ (f : Fld) (a b : Nat), (f.reg ≠ .FAB_ROUTE ∨ f.lsb ≠ 58) → s'.rd f a b = s.rd f a b) ∧ sameMem s s') ∧
  (∀ (s : State) (t i : Nat) (ds : List Nat), i < 32 → s.pstate i ≠ 0 → s.pstate i ≠ 6 →
    ∃ s', exec (.announce t i ds) s = .next s' ∧ (∀ d k, d ∈ ds → k ∈ s.candsVia d i → (s'.rd F.FAB_ROUTE_WD d).testBit k = false) ∧
      (∀ d, d ∉ ds → s'.rd F.FAB_ROUTE_WD d = s.rd F.FAB_ROUTE_WD d) ∧
      (∀ (f : Fld) (a b : Nat), (f.reg ≠ .FAB_ROUTE ∨ f.lsb ≠ 58) → s'.rd f a b = s.rd f a b) ∧ sameMem s s') ∧
  (∀ (s : State) (t a value : Nat) (who : Requester), a < 65536 → (who = .mgt ∨ who = .pf0) →
    ∃ s', exec (.routeEntryWrite t who a value) s = .next s' ∧ s'.rd F.FAB_ROUTE_VALID a = bits value 63 1 ∧
      s'.rd F.FAB_ROUTE_PIN a = bits value 62 1 ∧ s'.rd F.FAB_ROUTE_MIN a = bits value 55 3 ∧ s'.rd F.FAB_ROUTE_PRIMARY a = bits value 0 6 ∧
      s'.rd F.FAB_ROUTE_ALT1 a = bits value 6 6 ∧ s'.rd F.FAB_ROUTE_ALT2 a = bits value 12 6 ∧ s'.rd F.FAB_ROUTE_ALT3 a = bits value 18 6 ∧
      s'.rd F.FAB_ROUTE_WD a = 0 ∧ sameRegsBut [.FAB_ROUTE] s s' ∧ sameMem s s') ∧
  (∀ (s : State) (t a value v : Nat), a < 65536 → exec (.routeEntryWrite t (.vf v) a value) s = .next (s.tick t)) ∧
  (∀ (s : State) (t a value p : Nat), a < 65536 →
    ∃ s' r, exec (.routeEntryWrite t (.bfy p) a value) s = .next s' ∧ r.cls = 5 ∧ r.level = 1 ∧ r.part = p ∧ s'.fc = reported s t r ∧
      s' = { s with now := s'.now, fc := s'.fc })

/-- Packets are routed, detoured, dropped and delivered. A head that no earlier packet of its order holds back is routed: one of a reserved
operation, or for an endpoint this device does not have, is dropped and counted in BAD_OP; one at its last hop in LIMIT; one with no
candidate live or in retrain, or at its third detour, in UNREACHABLE. A head with one live minimal candidate whose channel holds the
credits, and whose egress regulator admits it, goes to its port with one hop less; with none minimal it takes a detour, at most two. After 1
µs a waiting head with no adaptive credit may take an escape channel. A packet for this device is delivered: a WRITE of a member is checked
and stored in its partition or joins the inbox ring, that of a twin's device is stored in its mirror pages, that of a non-member is dropped,
counted and reported; a management answer reaches its reader. A memory reply with a stale tag is dropped and counted. (R208, R331, R342,
R348, R349, R351, R352, R456) -/
def Obligations.RoutingAndDelivery : Prop :=
  (∀ (s : State) (t k : Nat) (h : RouteWait), s.fab.heads[k]? = some h → (s.fab.heads.take k).any (fun g => behind g.pkt h.pkt) = false →
    (h.pkt.op = 0 ∨ 4 < h.pkt.op ∨ (h.pkt.dst = s.fabAddr ∧ s.endpointOk h.pkt = false)) →
    ∃ s', exec (.packetHeadRoute t k) s = .next s' ∧ s'.fab.heads = s.fab.heads.erase h ∧ s'.fab.delivered = s.fab.delivered ∧
      s'.rd F.FAB_DROP_BAD_OP = counted F.FAB_DROP_BAD_OP (s.rd F.FAB_DROP_BAD_OP) 1 ∧ sameBut [fkey F.FAB_DROP_BAD_OP] s s' ∧ sameMem s s') ∧
  (∀ (s : State) (t k : Nat) (h : RouteWait), s.fab.heads[k]? = some h → (s.fab.heads.take k).any (fun g => behind g.pkt h.pkt) = false →
    1 ≤ h.pkt.op → h.pkt.op ≤ 4 → h.pkt.dst ≠ s.fabAddr → h.pkt.hops ≤ 1 →
    ∃ s', exec (.packetHeadRoute t k) s = .next s' ∧ s'.fab.heads = s.fab.heads.erase h ∧
      s'.rd F.FAB_DROP_LIMIT = counted F.FAB_DROP_LIMIT (s.rd F.FAB_DROP_LIMIT) 1 ∧ sameBut [fkey F.FAB_DROP_LIMIT] s s' ∧ sameMem s s') ∧
  (∀ (s : State) (t k vc : Nat) (h : RouteWait), s.fab.heads[k]? = some h → (s.fab.heads.take k).any (fun g => behind g.pkt h.pkt) = false →
    1 ≤ h.pkt.op → h.pkt.op ≤ 4 → h.pkt.dst ≠ s.fabAddr → 2 ≤ h.pkt.hops →
    vc = opVc h.pkt.op + (if h.escapes || h.pkt.ordered then 1 else 0) →
    ((∀ c, c < 4 → s.liveFor h.pkt vc c = none ∧ s.kept h.pkt.dst c = false) ∨
     (2 ≤ h.pkt.detours ∧ s.liveMinimal h.pkt vc = [] ∧ (∃ c, c < 4 ∧ (s.liveFor h.pkt vc c).isSome = true) ∧
       ∀ c, c < 4 → s.minimal h.pkt.dst c = true → s.kept h.pkt.dst c = false)) →
    ∃ s', exec (.packetHeadRoute t k) s = .next s' ∧ s'.fab.heads = s.fab.heads.erase h ∧
      s'.rd F.FAB_DROP_UNREACHABLE = counted F.FAB_DROP_UNREACHABLE (s.rd F.FAB_DROP_UNREACHABLE) 1 ∧
      sameBut [fkey F.FAB_DROP_UNREACHABLE] s s' ∧ sameMem s s') ∧
  (∀ (s : State) (t k c i vc : Nat) (h : RouteWait), s.fab.heads[k]? = some h →
    (s.fab.heads.take k).any (fun g => behind g.pkt h.pkt) = false → 1 ≤ h.pkt.op → h.pkt.op ≤ 4 → h.pkt.dst ≠ s.fabAddr →
    2 ≤ h.pkt.hops → vc = opVc h.pkt.op + (if h.escapes || h.pkt.ordered then 1 else 0) → s.liveMinimal h.pkt vc = [c] →
    s.liveFor h.pkt vc c = some i → pktFlits h.pkt ≤ s.freeCredits i vc →
    (s.egressNeed h h.pkt = 0 ∨ s.mayDraw h.pkt.srcEp 2 (s.egressNeed h h.pkt) = true) →
    ∃ s', exec (.packetHeadRoute t k) s = .next s' ∧ s'.fab.heads = s.fab.heads.erase h ∧
      (s'.port i).dataQ = (s.port i).dataQ ++
        [{ pkt := { h.pkt with hops := h.pkt.hops - 1 }, vc := vc, from_ := h.from_, tag := h.tag }] ∧
      (s.egressNeed h h.pkt = 0 → s' = { s with now := s'.now, fab := s'.fab }) ∧
      (s.egressNeed h h.pkt ≠ 0 →
        s'.rd F.BWG_STATE_LEVEL h.pkt.srcEp 2 = (s.rd F.BWG_STATE_LEVEL h.pkt.srcEp 2 - s.egressNeed h h.pkt) % 2 ^ F.BWG_STATE_LEVEL.width ∧
        s'.rd F.BWG_SPENT_SPENT h.pkt.srcEp 2 =
          counted F.BWG_SPENT_SPENT (s.rd F.BWG_SPENT_SPENT h.pkt.srcEp 2) (s.egressNeed h h.pkt) ∧
        sameBut [fkey F.BWG_STATE_LEVEL h.pkt.srcEp 2, fkey F.BWG_SPENT_SPENT h.pkt.srcEp 2] s s') ∧ sameMem s s') ∧
  (∀ (s : State) (t k c i vc : Nat) (h : RouteWait), s.fab.heads[k]? = some h →
    (s.fab.heads.take k).any (fun g => behind g.pkt h.pkt) = false → 1 ≤ h.pkt.op → h.pkt.op ≤ 4 → h.pkt.dst ≠ s.fabAddr →
    2 ≤ h.pkt.hops → vc = opVc h.pkt.op + (if h.escapes || h.pkt.ordered then 1 else 0) → s.liveMinimal h.pkt vc = [] →
    (∀ b, b < 4 → s.minimal h.pkt.dst b = true → s.kept h.pkt.dst b = false) → c < 4 →
    s.liveFor h.pkt vc c = some i → (∀ b, b < c → s.liveFor h.pkt vc b = none) → h.pkt.detours < 2 → pktFlits h.pkt ≤ s.freeCredits i vc →
    s.egressNeed h h.pkt = 0 →
    ∃ s', exec (.packetHeadRoute t k) s = .next s' ∧ s'.fab.heads = s.fab.heads.erase h ∧
      (s'.port i).dataQ = (s.port i).dataQ ++
        [{ pkt := { h.pkt with hops := h.pkt.hops - 1, detours := h.pkt.detours + 1 }, vc := vc, from_ := h.from_, tag := h.tag }] ∧
      s' = { s with now := s'.now, fab := s'.fab }) ∧
  (∀ (s : State) (t k : Nat) (h : RouteWait), s.fab.heads[k]? = some h → (s.fab.heads.take k).any (fun g => behind g.pkt h.pkt) = false →
    h.pkt.dst = s.fabAddr → s.endpointOk h.pkt = true →
    ∃ s', exec (.packetHeadRoute t k) s = .next s' ∧ s'.fab.heads = s.fab.heads.erase h ∧
      s'.fab.delivered = s.fab.delivered ++ (if h.pkt.op = 3 then [] else [h.pkt]) ∧ s' = { s with now := s'.now, fab := s'.fab }) ∧
  (∀ (s : State) (t k : Nat) (h : RouteWait), s.fab.heads[k]? = some h → h.escapes = false → h.pkt.ordered = false →
    h.since + 1000 ≤ max s.now t → s.adaptive h.pkt ≠ [] →
    ((s.adaptive h.pkt).filterMap (s.liveFor h.pkt (opVc h.pkt.op))).all (fun i => decide (s.freeCredits i (opVc h.pkt.op) < pktFlits h.pkt)) = true →
    ∃ s', exec (.escapeTimeout t k) s = .next s' ∧ s'.fab.heads = s.fab.heads.set k { h with escape := true } ∧
      s' = { s with now := s'.now, fab := s'.fab }) ∧
  (∀ (s : State) (t k : Nat) (x : Pkt), s.fab.delivered[k]? = some x → (s.fab.delivered.take k).any (fun y => behind y x) = false →
    x.op = 1 → aget s.restores x.dstEp = none → s.mirrorWrite x = false → s.localMember x.dstEp = true → s.toInboxPage x.dstEp x.arg = false →
    exec (.writePacket t k true) s =
      .next (({ s.tick t with fab := { s.fab with delivered := s.fab.delivered.eraseIdx k } } : State).devWrite 4 0x5A x.dstEp x.arg x.data).2) ∧
  (∀ (s : State) (t k : Nat) (member : Bool) (x : Pkt), s.fab.delivered[k]? = some x → (s.fab.delivered.take k).any (fun y => behind y x) = false →
    x.op = 1 → aget s.restores x.dstEp = none → s.mirrorWrite x = true →
    exec (.writePacket t k member) s =
      .next (({ s.tick t with fab := { s.fab with delivered := s.fab.delivered.eraseIdx k } } : State).devWrite 4 0x5A x.dstEp x.arg x.data true).2) ∧
  (∀ (s : State) (t k : Nat) (x : Pkt), s.fab.delivered[k]? = some x → (s.fab.delivered.take k).any (fun y => behind y x) = false →
    x.op = 1 → aget s.restores x.dstEp = none → s.mirrorWrite x = false → s.localMember x.dstEp = true → s.toInboxPage x.dstEp x.arg = true →
    (s.checkAccess 4 0x5A x.dstEp x.arg x.data.length true false).1 = none →
    ∃ s', exec (.writePacket t k true) s = .next s' ∧
      (s'.ledger x.dstEp).inQ = (s.ledger x.dstEp).inQ ++ (List.range (x.data.length / 64)).map (fun j => slice x.data (64 * j) 64) ∧
      s'.fab.delivered = s.fab.delivered.eraseIdx k ∧ s'.regs = s.regs ∧ sameMem s s') ∧
  (∀ (s : State) (t k : Nat) (x : Pkt), s.fab.delivered[k]? = some x → (s.fab.delivered.take k).any (fun y => behind y x) = false →
    x.op = 1 → aget s.restores x.dstEp = none → s.mirrorWrite x = false →
    ∃ s' r, exec (.writePacket t k false) s = .next s' ∧ s'.fab.delivered = s.fab.delivered.eraseIdx k ∧
      s'.rd F.FAB_DROP_NOT_PERMITTED = counted F.FAB_DROP_NOT_PERMITTED (s.rd F.FAB_DROP_NOT_PERMITTED) 1 ∧ r.cls = 5 ∧ r.level = 1 ∧
      r.part = x.dstEp ∧ r.addr = x.arg ∧ s'.fc = reported s t r ∧ sameBut [fkey F.FAB_DROP_NOT_PERMITTED] s s' ∧ sameMem s s') ∧
  (∀ (s : State) (t k : Nat) (x : Pkt), s.fab.delivered[k]? = some x → (s.fab.delivered.take k).any (fun y => behind y x) = false → x.op = 4 →
    ∃ s', exec (.mgmtRsp t k) s = .next s' ∧ s'.host.readBack = x.data ∧ s'.fab.delivered = s.fab.delivered.eraseIdx k ∧
      s' = { s with now := s'.now, fab := s'.fab, host := s'.host }) ∧
  (∀ (s : State) (t p gen id : Nat) (reject : Option Nat), p < 16 → gen ≠ s.genOf p →
    ∃ s', exec (.memoryReplyReturn t p gen id reject) s = .next s' ∧
      s'.rd F.HNG_STALE_REPLIES p = counted F.HNG_STALE_REPLIES (s.rd F.HNG_STALE_REPLIES p) 1 ∧ sameBut [fkey F.HNG_STALE_REPLIES p] s s' ∧
      s' = { s with now := s'.now, regs := s'.regs }) ∧
  (∀ (s : State) (t p id : Nat) (j : Job), p < 16 → j ∈ s.jobs → j.p = p → j.id = id →
    ∃ s', exec (.memoryReplyReturn t p (s.genOf p) id none) s = .next s' ∧ s' = { s with now := s'.now }) ∧
  (∀ (s : State) (t p id code : Nat), p < 16 →
    ∃ s' r, exec (.memoryReplyReturn t p (s.genOf p) id (some code)) s = .next s' ∧ r.level = 1 ∧ r.part = p ∧ r.code = code ∧
      s'.fc = reported s t r ∧ s' = { s with now := s'.now, fc := s'.fc })

/-- Isolation, device time and neighbour queries. A write to FAB_ISOLATE by the management core or PF0 outside the safe state takes every UP
FABRIC port that its bits isolate to ISOLATE and every other isolated one back to UP with its DATA stopped until RECONCILE; in the safe
state, or by a VF, it does nothing, and by a Belfry core it is a level 1 security fault. A time exchange with the neighbour toward the
master shows the offset, with SYNCED where it is within 20 ns, and holds the link delay; with the master out of reach MASTER_LOST reads 1
and SYNCED clears after 10 s. A neighbour query goes out on every UP port and is answered on its port; a second answer in succession older
than 1 s sets NBR_FW_STALE. (R340, R354, R362, R363, R364) -/
def Obligations.IsolationTimeAndPeers : Prop :=
  (∀ (s : State) (t value : Nat) (who : Requester), (who = .mgt ∨ who = .pf0) → s.safe = false →
    ∃ s', exec (.fabIsolateWrite t who value) s = .next s' ∧ s'.rd F.FAB_ISOLATE_DEVICE = bits value 63 1 ∧
      s'.rd F.FAB_ISOLATE_PORTS = bits value 0 32 ∧
      (∀ i, i < 32 → s.rd F.FAB_PORT_ROLE i = 1 → s.pstate i = 2 → (value.testBit 63 || value.testBit i) = true → s'.pstate i = 5) ∧
      (∀ i, i < 32 → s.rd F.FAB_PORT_ROLE i = 1 → s.pstate i = 5 → (value.testBit 63 || value.testBit i) = false →
        s'.pstate i = 2 ∧ (s'.port i).paused = true) ∧
      (∀ i, s.rd F.FAB_PORT_ROLE i ≠ 1 → s'.pstate i = s.pstate i) ∧ (∀ i, s.pstate i ≠ 2 → s.pstate i ≠ 5 → s'.pstate i = s.pstate i) ∧
      sameRegsBut [.FAB_ISOLATE, .FAB_PORT] s s' ∧ sameMem s s') ∧
  (∀ (s : State) (t value : Nat) (who : Requester), (who = .mgt ∨ who = .pf0) → s.safe = true →
    exec (.fabIsolateWrite t who value) s = .next (s.tick t)) ∧
  (∀ (s : State) (t value v : Nat), exec (.fabIsolateWrite t (.vf v) value) s = .next (s.tick t)) ∧
  (∀ (s : State) (t value p : Nat),
    ∃ s' r, exec (.fabIsolateWrite t (.bfy p) value) s = .next s' ∧ r.cls = 5 ∧ r.level = 1 ∧ r.part = p ∧ s'.fc = reported s t r ∧
      s' = { s with now := s'.now, fc := s'.fc }) ∧
  (∀ (s s1 : State) (t i t1 t2 t3 t4 : Nat) (ms : List Nat) (off : Int), i < 32 →
    s1 = { s with fab := { s.fab with masters := ms.filter (fun a => decide (a ≠ s.fabAddr)) } } → s1.timeMaster ≠ s.fabAddr →
    s1.masterPort = some i → off = (((t1 : Int) - t2) + ((t4 : Int) - t3)) / 2 →
    ∃ s', exec (.timeExchange t i t1 t2 t3 t4 ms) s = .next s' ∧ s'.rd F.FAB_TIME_OFFSET_PS = unsigned off 32 ∧
      s'.on F.FAB_TIME_SYNCED = decide (-20000 ≤ off ∧ off ≤ 20000) ∧ s'.rd F.FAB_TIME_MASTER_LOST = 0 ∧
      s'.rd F.FAB_TIME_MASTER_ADDR = s1.timeMaster % 2 ^ 16 ∧ (s'.port i).delayPs = (((t4 : Int) - t1) - ((t3 : Int) - t2)) / 2 ∧
      sameBut [fkey F.FAB_TIME_OFFSET_PS, fkey F.FAB_TIME_SYNCED, fkey F.FAB_TIME_MASTER_LOST, fkey F.FAB_TIME_MASTER_ADDR] s s' ∧
      s' = { s with now := s'.now, regs := s'.regs, fab := s'.fab }) ∧
  (∀ (s s1 : State) (t i t1 t2 t3 t4 : Nat) (ms : List Nat), i < 32 →
    s1 = { s with fab := { s.fab with masters := ms.filter (fun a => decide (a ≠ s.fabAddr)) } } → s1.timeMaster = s.fabAddr →
    ∃ s', exec (.timeExchange t i t1 t2 t3 t4 ms) s = .next s' ∧ s'.rd F.FAB_TIME_MASTER_ADDR = s.rd F.FAB_ADDR_ADDRESS % 2 ^ 16 ∧
      sameBut [fkey F.FAB_TIME_MASTER_ADDR] s s' ∧ s' = { s with now := s'.now, regs := s'.regs, fab := s'.fab }) ∧
  (∀ (s : State) (t since : Nat), s.timeMaster ≠ s.fabAddr → s.reachable s.timeMaster = false → since = s.fab.masterGone.getD (max s.now t) →
    ∃ s', exec (.masterLost t) s = .next s' ∧ s'.rd F.FAB_TIME_MASTER_LOST = 1 ∧ s'.fab.masterGone = some since ∧
      (since + 10000000000 ≤ max s.now t → s'.rd F.FAB_TIME_SYNCED = 0) ∧
      (max s.now t < since + 10000000000 → s'.rd F.FAB_TIME_SYNCED = s.rd F.FAB_TIME_SYNCED) ∧
      sameBut [fkey F.FAB_TIME_MASTER_LOST, fkey F.FAB_TIME_SYNCED] s s' ∧ s' = { s with now := s'.now, regs := s'.regs, fab := s'.fab }) ∧
  (∀ (s : State) (t : Nat),
    ∃ s', exec (.peerQuerySend t) s = .next s' ∧ (∀ i, i ∈ s.upPorts → (s'.port i).linkQ = (s.port i).linkQ ++ [.peerQuery]) ∧
      (∀ i, i ∉ s.upPorts → s'.port i = s.port i) ∧ s' = { s with now := s'.now, fab := s'.fab }) ∧
  (∀ (s : State) (t i : Nat), i < 32 → (s.pstate i = 2 ∨ s.pstate i = 5) →
    ∃ s' stg gua, exec (.peerQuery t i none) s = .next s' ∧
      (s'.port i).linkQ = (s.port i).linkQ ++ [.peerAnswer stg gua (min (s.tick t).recentRestarts 255) (s.tick t).fwAge] ∧
      stg = (s.tick t).stored .AON_STAGE 0 0 ∧ gua = (s.tick t).stored .MGT_GUARANTEE 0 0 ∧ s' = { s with now := s'.now, fab := s'.fab }) ∧
  (∀ (s : State) (t i age : Nat), i < 32 → (s.pstate i = 2 ∨ s.pstate i = 5) → 1000000 < age → 1 ≤ (s.port i).fwOld →
    s.on F.FAB_PORT_NBR_FW_STALE i = false →
    ∃ s' r, exec (.peerQuery t i (some age)) s = .next s' ∧ s'.rd F.FAB_PORT_NBR_FW_STALE i = 1 ∧ r.cls = 3 ∧ r.level = 0 ∧ r.code = 5 ∧
      s'.fc = reported s t r ∧ sameBut [fkey F.FAB_PORT_NBR_FW_STALE i] s s' ∧ sameMem s s') ∧
  (∀ (s : State) (t i age : Nat), i < 32 → (s.pstate i = 2 ∨ s.pstate i = 5) → age ≤ 1000000 →
    ∃ s', exec (.peerQuery t i (some age)) s = .next s' ∧ (s'.port i).fwOld = 0 ∧ s'.regs = s.regs ∧ sameMem s s')

/-- The step vote: casts, reports, results. A cast of a local member for the current step is held; any other is counted in REFUSED and
reported; a VF's write does nothing, and another partition's Belfry core is denied with a level 1 security fault. A held cast whose step's
work has ended enters the vote, its verdict forced to 0 and counted where the partition has a bad step at or before it. A child's report is
kept; one for another step is dropped and counted. Once every member has reported, the root writes the result (1, or 2 where a verdict is
0), which sets LAST_COMMIT of its members; another node passes its report to its parent. At the timeout missing members are excluded and the
result is 3. A result from the parent is written and passed to every child. Enabling a slot, which management alone may do, clears its
result and votes. (R356, R357, R358, R359, R389, R408, R409, R410) -/
def Obligations.StepVote : Prop :=
  (∀ (s : State) (t p value : Nat) (who : Requester), p < 16 → (who = .mgt ∨ who = .pf0 ∨ who = .bfy p) →
    s.castOk (bits value 32 4) p (bits value 0 32) = true →
    ∃ s', exec (.voteCast t who p value) s = .next s' ∧
      s'.fab.casts = s.fab.casts ++ [{ p := p, slot := bits value 32 4, step := bits value 0 32, verdict := value.testBit 63 }] ∧
      s' = { s with now := s'.now, fab := s'.fab }) ∧
  (∀ (s : State) (t p value : Nat) (who : Requester), p < 16 → (who = .mgt ∨ who = .pf0 ∨ who = .bfy p) →
    s.castOk (bits value 32 4) p (bits value 0 32) = false →
    ∃ s' r, exec (.voteCast t who p value) s = .next s' ∧ s'.rd F.FAB_VEXCL_REFUSED (bits value 32 4) =
        counted F.FAB_VEXCL_REFUSED (s.rd F.FAB_VEXCL_REFUSED (bits value 32 4)) 1 ∧ r.cls = 3 ∧ r.level = 1 ∧ r.code = 2 ∧ r.part = p ∧
      s'.fc = reported s t r ∧ s'.fab.casts = s.fab.casts ∧ sameBut [fkey F.FAB_VEXCL_REFUSED (bits value 32 4)] s s' ∧ sameMem s s') ∧
  (∀ (s : State) (t p value v : Nat), p < 16 → exec (.voteCast t (.vf v) p value) s = .next (s.tick t)) ∧
  (∀ (s : State) (t p q value : Nat), p < 16 → q ≠ p →
    ∃ s' r, exec (.voteCast t (.bfy q) p value) s = .next s' ∧ r.cls = 5 ∧ r.level = 1 ∧ r.part = q ∧ s'.fc = reported s t r ∧
      s' = { s with now := s'.now, fc := s'.fc }) ∧
  (∀ (s : State) (t p : Nat) (c : HeldCast) (bad : Bool), p < 16 →
    s.fab.casts.find? (fun c => decide (c.p = p) && s.stepEnded p c.step) = some c → s.castOk c.slot p c.step = true →
    bad = (s.on F.GAL_GOAL_BAD p && decide (s.rd F.GAL_STEP_BAD_STEP p ≤ c.step)) →
    ∃ s' v, exec (.voteCastRelease t p) s = .next s' ∧ s'.fab.casts = s.fab.casts.erase c ∧ s'.vote c.slot = some v ∧
      aget v.locals p = some (c.verdict && !bad) ∧
      s'.rd F.GAL_CNT_FORCED p = (if c.verdict && bad then counted F.GAL_CNT_FORCED (s.rd F.GAL_CNT_FORCED p) 1 else s.rd F.GAL_CNT_FORCED p) ∧
      sameBut [fkey F.GAL_CNT_FORCED p] s s' ∧ s' = { s with now := s'.now, regs := s'.regs, fab := s'.fab }) ∧
  (∀ (s : State) (t i n group step count first : Nat) (verdict : Bool), i < 32 → s.pstate i = 2 →
    s.groupSlot group (fun n => (s.rd F.FAB_VGRP_CHILD_MASK n).testBit i) = some n → (s.voteStep n).all (fun x => x = step) = true →
    ∃ s' v, exec (.voteUp t i group step verdict count first) s = .next s' ∧ s'.vote n = some v ∧
      aget v.kids i = some (verdict, count, first) ∧ s' = { s with now := s'.now, fab := s'.fab }) ∧
  (∀ (s : State) (t i n group step count first : Nat) (verdict : Bool), i < 32 → s.pstate i = 2 →
    s.groupSlot group (fun n => (s.rd F.FAB_VGRP_CHILD_MASK n).testBit i) = some n → (s.voteStep n).any (fun x => x ≠ step) = true →
    ∃ s', exec (.voteUp t i group step verdict count first) s = .next s' ∧
      s'.rd F.FAB_DROP_BAD_OP = counted F.FAB_DROP_BAD_OP (s.rd F.FAB_DROP_BAD_OP) 1 ∧ sameBut [fkey F.FAB_DROP_BAD_OP] s s' ∧
      s' = { s with now := s'.now, regs := s'.regs }) ∧
  (∀ (s : State) (t n : Nat) (v : VoteSt) (ok : Bool), n < 16 → s.vote n = some v → v.reported = false → s.on F.FAB_VGRP_ENABLE n = true →
    s.rd F.FAB_VGRP_CHILD_MASK n = 0 → v.kids = [] → s.rd F.FAB_VEXCL_LOCAL n = 0 → s.on F.FAB_VGRP_HAS_PARENT n = false → v.step < 2 ^ 32 →
    (∀ p, p < 16 → (s.rd F.FAB_VGRP_LOCAL_MASK n).testBit p = true → (aget v.locals p).isSome = true) →
    ok = v.locals.all (fun e => e.2) →
    ∃ s', exec (.voteReport t n) s = .next s' ∧ s'.rd F.FAB_VRES_RESULT n = (if ok then 1 else 2) ∧ s'.rd F.FAB_VRES_STEP n = v.step ∧
      s'.rd F.FAB_VRES_EXCL_COUNT n = 0 ∧ s'.rd F.FAB_VRES_FIRST_EXCL n = 0 ∧ s'.vote n = none ∧
      (s.rd F.FAB_VRES_STEP n ≠ v.step → ok = true → ∀ p, p < 16 → s.voteSlot p = some n → s'.rd F.LDG_FLOOR_LAST_COMMIT p = v.step) ∧
      sameRegsBut [.FAB_VRES, .LDG_FLOOR] s s' ∧ sameMem s s') ∧
  (∀ (s : State) (t n : Nat) (v : VoteSt), n < 16 → s.vote n = some v → v.reported = false → s.on F.FAB_VGRP_ENABLE n = true →
    s.rd F.FAB_VGRP_CHILD_MASK n = 0 → v.kids = [] → s.rd F.FAB_VEXCL_LOCAL n = 0 → s.on F.FAB_VGRP_HAS_PARENT n = true →
    (∀ p, p < 16 → (s.rd F.FAB_VGRP_LOCAL_MASK n).testBit p = true → (aget v.locals p).isSome = true) →
    ∃ s', exec (.voteReport t n) s = .next s' ∧
      (s'.port (s.rd F.FAB_VCFG_PARENT_PORT n)).linkQ = (s.port (s.rd F.FAB_VCFG_PARENT_PORT n)).linkQ ++
        [.voteUp (s.rd F.FAB_VGRP_GROUP n) v.step (v.locals.all (fun e => e.2)) 0 0] ∧
      s'.vote n = some { v with reported := true } ∧ s' = { s with now := s'.now, fab := s'.fab }) ∧
  (∀ (s : State) (t n p : Nat) (v : VoteSt), n < 16 → s.vote n = some v → v.reported = false → s.on F.FAB_VGRP_ENABLE n = true →
    s.rd F.FAB_VGRP_CHILD_MASK n = 0 → v.kids = [] → s.on F.FAB_VGRP_HAS_PARENT n = false → v.step < 2 ^ 32 → p < 16 →
    (s.rd F.FAB_VGRP_LOCAL_MASK n).testBit p = true → aget v.locals p = none → v.locals.all (fun e => e.2) = true →
    v.begun + max 1 (s.rd F.FAB_VCFG_WAIT_US n) * 1000 ≤ max s.now t →
    ∃ s', exec (.voteReport t n) s = .next s' ∧ (s'.rd F.FAB_VEXCL_LOCAL n).testBit p = true ∧ s'.rd F.FAB_VRES_RESULT n = 3 ∧
      s'.rd F.FAB_VRES_STEP n = v.step ∧ 1 ≤ s'.rd F.FAB_VRES_EXCL_COUNT n ∧ sameMem s s') ∧
  (∀ (s : State) (t i n group step result count first : Nat), i < 32 → s.pstate i = 2 →
    s.groupSlot group (fun n => s.on F.FAB_VGRP_HAS_PARENT n && decide (s.rd F.FAB_VCFG_PARENT_PORT n = i)) = some n →
    (s.voteStep n).all (fun x => x = step) = true → 1 ≤ result → result ≤ 3 → step < 2 ^ 32 →
    ∃ s', exec (.voteDown t i group step result count first) s = .next s' ∧ s'.rd F.FAB_VRES_RESULT n = result ∧
      s'.rd F.FAB_VRES_STEP n = step ∧ s'.vote n = none ∧
      (∀ j, j ∈ s.children n → .voteDown (s.rd F.FAB_VGRP_GROUP n) step result count first ∈ (s'.port j).linkQ) ∧
      sameRegsBut [.FAB_VRES, .LDG_FLOOR] s s' ∧ sameMem s s') ∧
  (∀ (s : State) (t n value : Nat) (who : Requester), n < 16 → (who = .mgt ∨ who = .pf0) → s.on F.FAB_VGRP_ENABLE n = false →
    value.testBit 0 = true →
    ∃ s', exec (.vgrpEnable t who n value) s = .next s' ∧ s'.rd F.FAB_VGRP_ENABLE n = 1 ∧ s'.rd F.FAB_VGRP_GROUP n = bits value 4 12 ∧
      s'.rd F.FAB_VGRP_LOCAL_MASK n = bits value 16 16 ∧ s'.rd F.FAB_VGRP_CHILD_MASK n = bits value 32 32 ∧ s'.rd F.FAB_VRES_RESULT n = 0 ∧
      s'.rd F.FAB_VRES_STEP n = 0 ∧ s'.vote n = none ∧ (∀ p, p < 16 → s'.rd F.LDG_VOTE_SLOT_VALID p = if (s'.voteSlot p).isSome then 1 else 0) ∧
      sameRegsBut [.FAB_VGRP, .FAB_VRES, .LDG_VOTE] s s' ∧ sameMem s s') ∧
  (∀ (s : State) (t n value v : Nat), n < 16 → exec (.vgrpEnable t (.vf v) n value) s = .next (s.tick t)) ∧
  (∀ (s : State) (t n value q : Nat), n < 16 →
    ∃ s' r, exec (.vgrpEnable t (.bfy q) n value) s = .next s' ∧ r.cls = 5 ∧ r.level = 1 ∧ r.part = q ∧ s'.fc = reported s t r ∧
      s' = { s with now := s'.now, fc := s'.fc })

/-- Slots of a mirror run are opened, sealed, checked, served and restored from. SLOT_STATUS is answered with both slots to any device.
SLOT_OPEN from the run's sender makes a slot OPEN, and SLOT_SEAL an OPEN one sealing; from another device, or of a slot pinned or served,
each is refused and changes nothing. A passing check makes the slot COMPLETE with the manifest's step and its header stored; a second
failing one makes it FAILED, with a memory fault. SNAP_SERVE sends a COMPLETE slot, and answers BUSY while it is being served. SERVE_DONE is
taken from a source that the restore names. (R433, R435, R437, R440, R442) -/
def Obligations.MirrorSlots : Prop :=
  (∀ (s : State) (t src ep p r : Nat), s.on F.AON_STAGE_SUPERVISION = true → s.runHas p r 0 = true →
    exec (.slotStatus t src ep p r) s = .next ((s.tick t).slotAnswer src ep 0 (s.slotInfo p r 0 ++ s.slotInfo p r 1 ++
      natLe 4 (s.rd F.SNP_MIRROR_BASE_FRAME p (r - 1)) ++ natLe 4 (s.rd F.SNP_MIRROR_L p (r - 1)) ++
      natLe 1 (s.rd F.SNP_MIRROR_TWO_SLOTS p (r - 1))))) ∧
  (∀ (s : State) (t src ep p r k : Nat), s.on F.AON_STAGE_SUPERVISION = true → s.runHas p r k = true → s.runSender p r = some src →
    s.on (pinFld k) p (r - 1) = false → s.slotServing p r k = false →
    ∃ s', exec (.slotOpen t src ep p r k) s = .next s' ∧ s'.rd (stateFld k) p (r - 1) = 1 ∧ s'.slot p r k = {} ∧
      s'.fab = ((s.tick t).slotAnswer src ep 0 []).fab ∧ sameBut [fkey (stateFld k) p (r - 1)] s s' ∧
      s' = { s with now := s'.now, regs := s'.regs, slots := s'.slots, fab := s'.fab }) ∧
  (∀ (s : State) (t src ep p r k : Nat), s.on F.AON_STAGE_SUPERVISION = true →
    (s.runHas p r k = false ∨ s.runSender p r ≠ some src ∨ s.on (pinFld k) p (r - 1) = true ∨ s.slotServing p r k = true) →
    exec (.slotOpen t src ep p r k) s = .next ((s.tick t).slotAnswer src ep 1 [])) ∧
  (∀ (s : State) (t src ep p r k : Nat) (h : Bytes), s.on F.AON_STAGE_SUPERVISION = true → s.runHas p r k = true →
    s.runSender p r = some src → s.rd (stateFld k) p (r - 1) = 1 → h.length = 128 →
    ∃ s', exec (.slotSeal t src ep p r k h) s = .next s' ∧ s'.slot p r k = { sealing := some h, readAt := max s.now t } ∧
      s'.fab = ((s.tick t).slotAnswer src ep 0 []).fab ∧ s' = { s with now := s'.now, slots := s'.slots, fab := s'.fab }) ∧
  (∀ (s : State) (t src ep p r k : Nat) (h : Bytes), s.on F.AON_STAGE_SUPERVISION = true →
    (s.runHas p r k = false ∨ s.runSender p r ≠ some src ∨ s.rd (stateFld k) p (r - 1) ≠ 1 ∨ h.length ≠ 128) →
    exec (.slotSeal t src ep p r k h) s = .next ((s.tick t).slotAnswer src ep 1 [])) ∧
  (∀ (s : State) (t p r k : Nat) (h : Bytes), s.Inv → s.runHas p r k = true → (s.slot p r k).sealing = some h → s.rd (stateFld k) p (r - 1) = 1 →
    (s.slot p r k).tries = 0 → h.length = 128 → s.safe = false → (s.slotPasses p r k h).1 = true →
    ∃ s', exec (.slotSealCheckDone t p r k) s = .next s' ∧ s'.rd (stateFld k) p (r - 1) = 2 ∧
      s'.rd (stepFld k) p (r - 1) = mfStep h % 2 ^ 32 ∧ s'.slot p r k = { cutId := mfCutId h } ∧
      (∀ (f : Fld) (i j : Nat), f.reg ≠ .BWG_STATE → f.reg ≠ .BWG_SPENT → fkey f i j ≠ fkey (stateFld k) p (r - 1) →
        fkey f i j ≠ fkey (stepFld k) p (r - 1) → s'.rd f i j = s.rd f i j) ∧ s'.rdBytes (s.slotBase p r k + s.runPages p * 65536) 128 = h ∧
      (∀ a, (a < s.slotBase p r k + s.runPages p * 65536 ∨ s.slotBase p r k + s.runPages p * 65536 + 128 ≤ a) → s'.rdByte a = s.rdByte a)) ∧
  (∀ (s : State) (t p r k : Nat) (h : Bytes), s.runHas p r k = true → (s.slot p r k).sealing = some h → s.rd (stateFld k) p (r - 1) = 1 →
    (s.slot p r k).tries = 0 → s.safe = false → (s.slotPasses p r k h).1 = false →
    ∃ s', exec (.slotSealCheckDone t p r k) s = .next s' ∧ (s'.slot p r k).tries = 1 ∧ (s'.slot p r k).readAt = max s.now t ∧
      sameRegsBut [.MEM_ECC, .CUP_ECC, .BWG_STATE, .BWG_SPENT] s s' ∧ sameMem s s') ∧
  (∀ (s : State) (t p r k : Nat) (h : Bytes), s.runHas p r k = true → (s.slot p r k).sealing = some h → s.rd (stateFld k) p (r - 1) = 1 →
    (s.slot p r k).tries = 1 → (s.slot p r k).readAt + 1000000 ≤ max s.now t → s.safe = false → (s.slotPasses p r k h).1 = false →
    ∃ s', exec (.slotSealCheckDone t p r k) s = .next s' ∧ s'.rd (stateFld k) p (r - 1) = 3 ∧ s'.slot p r k = {} ∧
      sameRegsBut [.MEM_ECC, .CUP_ECC, .SNP_MIRROR, .BWG_STATE, .BWG_SPENT] s s' ∧ sameMem s s' ∧
      (((s.tick t).slotPasses p r k h).2.fc = s.fc → ∃ x, x.cls = 0 ∧ x.level = 1 ∧ x.part = p ∧ s'.fc = reported s t x)) ∧
  (∀ (s : State) (t : Nat) (h : MbxHdr) (q : ServeReq), takes s h → q.p < 16 → s.runHas q.p q.r q.slot = true → q.part < 16 →
    q.stage % 65536 = 0 → q.stage < 2 ^ 40 → s.mbxCheck h { feat := some 2, mgmt := true, stage := stFinial } = none →
    s.slotServing q.p q.r q.slot = false → s.rd (stateFld q.slot) q.p (q.r - 1) = 2 →
    ∃ s', exec (.snapServe t h q) s = .next s' ∧ answered s' h 0 [] ∧ (s'.slot q.p q.r q.slot).serving = some (s.fab.tagCtr + 1) ∧
      s'.slotServing q.p q.r q.slot = true ∧
      (∃ l, l ≠ [] ∧ s'.fab.heads = s.fab.heads ++ l ∧ ∀ x, x ∈ l → x.pkt.dst = q.dev ∧ x.tag = s.fab.tagCtr + 1) ∧ sameRegsBut [.MBX_STATUS, .BWG_STATE, .BWG_SPENT] s s' ∧
      s' = { s with now := s'.now, regs := s'.regs, host := s'.host, slots := s'.slots, fab := s'.fab, memx := s'.memx }) ∧
  (∀ (s : State) (t : Nat) (h : MbxHdr) (q : ServeReq), takes s h → q.p < 16 → s.runHas q.p q.r q.slot = true → q.part < 16 →
    q.stage % 65536 = 0 → q.stage < 2 ^ 40 → s.mbxCheck h { feat := some 2, mgmt := true, stage := stFinial } = none →
    s.slotServing q.p q.r q.slot = true →
    ∃ s', exec (.snapServe t h q) s = .next s' ∧ answered s' h 7 [] ∧ s'.fab = s.fab ∧ s'.slots = s.slots ∧ sameMem s s') ∧
  (∀ (s : State) (t src ep p : Nat) (r : RestoreRun), aget s.restores p = some r → r.req.sources.any (fun x => x.dev = some src) = true →
    ∃ s' r', exec (.serveDone t src ep p) s = .next s' ∧ aget s'.restores p = some r' ∧ aget r'.served src = some (max s.now t) ∧
      aget r'.heard src = some (max s.now t) ∧ s'.fab = ((s.tick t).slotAnswer src ep 0 []).fab ∧
      s' = { s with now := s'.now, restores := s'.restores, fab := s'.fab }) ∧
  (∀ (s : State) (t src ep p : Nat), aget s.restores p = none →
    exec (.serveDone t src ep p) s = .next ((s.tick t).slotAnswer src ep 1 []))

/-- Every fault is counted once, at its final level, in its class. Whenever the collector serves a report, in every mode and merged or not,
the FC_CNT_c counter of the report's class at its final level counts one more, and no other counter of any class changes. (R379) -/
def Obligations.FaultsAreCounted : Prop :=
  ∀ (s : State) (t : Nat) (r : Report) (rest : List Report), s.fc.coll = r :: rest → r.level ≤ 3 →
    ∃ s', exec (.faultReport t) s = .next s' ∧ (s.judge r).1 ≤ 3 ∧
      ∀ (k c : Nat) (f : Fld), [F.FC_CNT_LO_LEVEL0, F.FC_CNT_LO_LEVEL1, F.FC_CNT_HI_LEVEL2, F.FC_CNT_HI_LEVEL3][k]? = some f →
        s'.rd f c = if c = r.cls ∧ k = (s.judge r).1 then counted f (s.rd f c) 1 else s.rd f c

/-- Alerts are sampled, reports judged, escalated and acted on. A sample reads one report of every alerting source, and marks the path of a
source whose wires are equal in two samples broken, with a level 2 report. A level 0 fault sets no pending bit. A level 1 fault is recorded
with the next sequence number, sets its pending bit and raises vector 48; with the bit already set it becomes level 2, ESCALATED, and
requests the reset of its partition; the first fault of any class is captured. A level 3 fault takes the device to the safe state, where
every fault is logged at its own level. A broken path clears after its idle time; a lockstep mismatch is level 3; pending bits clear at
their time or by FC_ACK. Firmware copies new entries to the mirror, and due entries go to the flash history. (R365, R366, R369, R370, R371,
R372, R375, R376, R377, R380, R381, R382) -/
def Obligations.FaultCollection : Prop :=
  (∀ (s : State) (t m : Nat) (r : Report) (l : List Report), m < 128 → s.broken m = false → agetD s.fc.srcQ m [] = r :: l →
    ∃ s', exec (.alertSample t []) s = .next s' ∧ r ∈ s'.fc.coll ∧ agetD s'.fc.srcQ m [] = l ∧ s'.fc.self = [] ∧
      (∀ x, x ∈ s.fc.self → x ∈ s'.fc.coll) ∧ sameRegsBut [.AON_READY, .AON_STAGE] s s' ∧ sameMem s s') ∧
  (∀ (s : State) (t m : Nat) (x : PairSt), m < 128 → s.broken m = false → aget s.fc.pairs m = some x → 1 ≤ x.equalRun →
    ∃ s' r, exec (.alertSample t [m]) s = .next s' ∧ s'.broken m = true ∧ r ∈ s'.fc.coll ∧ r.level = 2 ∧ r.master = m ∧ r.source = m ∧
      r.cls = classOfMaster m ∧ r.flags = 2 ∧ agetD s'.fc.srcQ m [] = agetD s.fc.srcQ m [] ∧
      sameRegsBut [.FC_BROKEN_LO, .FC_BROKEN_HI, .AON_READY, .AON_STAGE] s s' ∧ sameMem s s') ∧
  (∀ (s : State) (t m : Nat) (x : PairSt), m < 128 → s.broken m = true → aget s.fc.pairs m = some x → x.lastBad + 10000 ≤ max s.now t →
    ∃ s' r, exec (.brokenPathClear t m) s = .next s' ∧ s'.broken m = false ∧ s'.fc.coll = s.fc.coll ++ [r] ∧ r.level = 0 ∧ r.code = 1 ∧
      r.source = m ∧ sameRegsBut [.FC_BROKEN_LO, .FC_BROKEN_HI, .AON_READY, .AON_STAGE] s s' ∧ sameMem s s') ∧
  (∀ (s : State) (t : Nat) (r : Report) (rest : List Report), s.fc.coll = r :: rest → r.level = 0 →
    ∃ s', exec (.faultReport t) s = .next s' ∧ s'.fc.coll = rest ∧ (∀ c sc, s'.pendingBit c sc = s.pendingBit c sc) ∧ s'.host = s.host ∧
      (s.on F.FC_FIRST_INFO_VALID = false → s'.rd F.FC_FIRST_INFO_VALID = 1 ∧ s'.rd F.FC_FIRST_INFO_CLASS = r.cls % 256 ∧
        s'.rd F.FC_FIRST_ADDR_ADDRESS = r.addr % 2 ^ 64) ∧
      (s.on F.FC_FIRST_INFO_VALID = true → s'.rd F.FC_FIRST_INFO_CLASS = s.rd F.FC_FIRST_INFO_CLASS) ∧
      sameRegsBut [.FC_CNT_LO, .FC_REC, .FC_FIRST_ADDR, .FC_FIRST_TIME, .FC_FIRST_INFO, .FC_STATUS] s s' ∧ sameMem s s') ∧
  (∀ (s : State) (t : Nat) (r : Report) (rest : List Report), s.fc.coll = r :: rest → r.level = 1 → r.cls < 6 → s.safe = false →
    (r.part < 16 → s.resetting r.part = false) → s.pendingBit r.cls r.scope = false →
    ∃ s' e l, exec (.faultReport t) s = .next s' ∧ s'.fc.coll = rest ∧ s'.fc.ring = e :: l ∧ e.final = 1 ∧ e.level = 1 ∧ e.cls = r.cls ∧
      e.addr = r.addr ∧ e.code = r.code ∧ e.seq = nextSeq s.fc.seq ∧ s'.pendingBit r.cls r.scope = true ∧ (.pf0, 48) ∈ s'.host.vecs ∧
      (r.part < 16 → (.vf (r.part + 1), 3) ∈ s'.host.vecs) ∧
      sameRegsBut [.FC_CNT_LO, .FC_PEND, .FC_REC, .FC_FIRST_ADDR, .FC_FIRST_TIME, .FC_FIRST_INFO, .FC_STATUS] s s' ∧ sameMem s s') ∧
  (∀ (s : State) (t : Nat) (r : Report) (rest : List Report), s.fc.coll = r :: rest → r.level = 1 → r.cls < 6 → s.safe = false →
    r.part < 16 → s.hngState r.part = 0 → s.gal.camp = none → s.pendingBit r.cls r.part = true →
    ∃ s' e l, exec (.faultReport t) s = .next s' ∧ s'.fc.ring = e :: l ∧ e.final = 2 ∧ e.level = 1 ∧ e.flags = r.flags + 1 ∧
      s'.hngState r.part = 1 ∧ (s'.hang r.part).req = some (2, max s.now t) ∧ (s'.hang r.part).resetAfter = true ∧
      (s'.hang r.part).dump = s.on F.HNG_CFG_DUMP_FAULT r.part ∧ (.pf0, 32 + r.part) ∈ s'.host.vecs ∧ sameMem s s') ∧
  (∀ (s : State) (t : Nat) (r : Report) (rest : List Report), s.fc.coll = r :: rest → r.level = 3 → s.safe = false →
    ∃ s', exec (.faultReport t) s = .next s' ∧ s'.safe = true ∧ s'.rd F.AON_READY_READY = 0 ∧ s'.rd F.FAB_ISOLATE_DEVICE = 1 ∧
      s'.rd F.SEC_STATUS_DEBUG_SCOPE = 0 ∧ s'.jobs = [] ∧ s'.memx.selfRefresh = true ∧ s'.rd F.MGT_GUARANTEE_HOLD_CONSERVE = 0 ∧
      s'.rd F.MGT_GUARANTEE_HOLD_REPLAY = 0 ∧ s'.rd F.MGT_GUARANTEE_HOLD_RECOVERY = 0 ∧ s'.rd F.MGT_GUARANTEE_HOLD_SILENT = 0 ∧
      s'.rd F.MGT_GUARANTEE_HOLD_VECTORS = 0 ∧ (∀ pa, pa < 272 → s'.rd F.SPR_CREDIT_FREE pa = 288) ∧ sameMem s s') ∧
  (∀ (s : State) (t : Nat) (r : Report) (rest : List Report), s.fc.coll = r :: rest → 1 ≤ r.level → s.safe = true →
    ∃ s' e l, exec (.faultReport t) s = .next s' ∧ s'.fc.ring = e :: l ∧ e.final = r.level ∧ e.flags = r.flags ∧
      (∀ c sc, s'.pendingBit c sc = s.pendingBit c sc) ∧ s'.host = s.host ∧ s'.stage = s.stage ∧ sameMem s s') ∧
  (∀ (s : State) (t : Nat),
    ∃ s' r, exec (.lockstepMismatch t) s = .next s' ∧ s'.fc.self = s.fc.self ++ [r] ∧ r.level = 3 ∧ r.cls = 6 ∧
      s' = { s with now := s'.now, fc := s'.fc }) ∧
  (∀ (s : State) (t c sc due : Nat), c < 7 → sc < 17 → (c, sc, due) ∈ s.fc.autoClr → due ≤ max s.now t →
    ∃ s', exec (.pendingAutoClear t c sc) s = .next s' ∧ s'.pendingBit c sc = false ∧
      (∀ c' sc', c' < 7 → sc' < 17 → (c', sc') ≠ (c, sc) → s'.pendingBit c' sc' = s.pendingBit c' sc') ∧ sameRegsBut [.FC_PEND] s s' ∧
      sameMem s s') ∧
  (∀ (s : State) (t value : Nat),
    ∃ s', exec (.fcAck t value) s = .next s' ∧
      (∀ c sc, c < 7 → sc < 17 → s'.pendingBit c sc =
        (s.pendingBit c sc && !((ackClasses value).testBit c && value.testBit sc))) ∧ sameRegsBut [.FC_PEND] s s' ∧ sameMem s s') ∧
  (∀ (s : State) (t : Nat) (e : FEntry) (l : List FEntry), s.Inv → s.fwUp = true → s.fc.ring = e :: l → (∀ x, l.head? = some x → x.seq = s.fc.mirrored) →
    e.seq ≠ s.fc.mirrored → e.seq = nextSeq s.fc.mirrored →
    ∃ s', exec (.logMirrorCopy t) s = .next s' ∧ s'.rdBytes (mirrorBase + 64 * (e.seq % 16384)) 64 = e.bytes ∧
      (∀ a, (a < mirrorBase + 64 * (e.seq % 16384) ∨ mirrorBase + 64 * (e.seq % 16384) + 64 ≤ a) → s'.rdByte a = s.rdByte a) ∧
      s'.fc.mirrored = s.fc.seq ∧ s' = { s with now := s'.now, mem := s'.mem, fc := s'.fc }) ∧
  (∀ (s : State) (t : Nat),
    ∃ s', exec (.flashHistoryWrite t) s = .next s' ∧ s'.fc.hist = (s.fc.histDue.reverse ++ s.fc.hist).take 8192 ∧ s'.fc.histDue = [] ∧
      s' = { s with now := s'.now, fc := s'.fc })

/-- The mailbox serves fault records and acknowledgements. FAULT_READ answers the newest sequence number and the entries from a number
onward in the session's scope; FAULT_ACK clears exactly the pending bits named; FAULT_HISTORY answers entries of the flash history, newest
first; FAULT_FIRST answers the seven first-error records and clears the VALID bits that management scope names. None of them writes memory.
(R372, R376, R381, R385) -/
def Obligations.FaultMessages : Prop :=
  (∀ (s : State) (t from_ n : Nat) (h : MbxHdr), takes s h → 1 ≤ from_ → from_ < 2 ^ 32 → n ≤ 63 →
    s.mbxCheck h { feat := some 2, safeOk := true } = none →
    ∃ s', exec (.faultRead t h from_ n) s = .next s' ∧
      answered s' h 0 (natLe 4 s.fc.seq ++ (s.faultsFrom h.fn 16384 from_ n).flatten) ∧ sameRegsBut [.MBX_STATUS] s s' ∧
      s' = { s with now := s'.now, regs := s'.regs, host := s'.host }) ∧
  (∀ (s : State) (t classes scopes : Nat) (h : MbxHdr), takes s h → classes < 128 → scopes < 2 ^ 17 →
    s.mbxCheck h { feat := some 2, safeOk := true, parts := below 17 (fun k => scopes.testBit k) } = none →
    ∃ s', exec (.faultAck t h classes scopes) s = .next s' ∧ answered s' h 0 [] ∧
      (∀ c sc, c < 7 → sc < 17 → s'.pendingBit c sc = (s.pendingBit c sc && !(classes.testBit c && scopes.testBit sc))) ∧
      sameRegsBut [.MBX_STATUS, .FC_PEND] s s' ∧ sameMem s s') ∧
  (∀ (s : State) (t pos n : Nat) (h : MbxHdr), takes s h → pos < 8192 → n ≤ 63 → s.mbxCheck h { feat := some 2, safeOk := true } = none →
    ∃ s', exec (.faultHistory t h pos n) s = .next s' ∧
      answered s' h 0 (((((s.fc.hist.map FEntry.bytes).filter (seesRecord h.fn)).drop pos).take n).flatten) ∧ sameRegsBut [.MBX_STATUS] s s' ∧
      s' = { s with now := s'.now, regs := s'.regs, host := s'.host }) ∧
  (∀ (s : State) (t clear : Nat) (h : MbxHdr), takes s h → clear < 128 →
    s.mbxCheck h { feat := some 2, safeOk := true, mgmt := decide (clear ≠ 0) } = none →
    ∃ s', exec (.faultFirst t h clear) s = .next s' ∧
      answered s' h 0 ((List.range 7).flatMap (fun c => if seesRecord h.fn (s.firstRecord c) then s.firstRecord c else natLe 64 0)) ∧
      (∀ c, c < 7 → s'.rd F.FC_REC_HI c 2 = if clear.testBit c then 0 else s.rd F.FC_REC_HI c 2) ∧
      (∀ (f : Fld) (i j : Nat), f.reg ≠ .MBX_STATUS → (f.reg ≠ .FC_REC ∨ j ≠ 2 ∨ f.lsb ≠ F.FC_REC_HI.lsb) → s'.rd f i j = s.rd f i j) ∧
      sameMem s s')

/-- Echo comparison, charges, the sampling rate, warnings and the Campanile test. When a sampled descriptor and its echo have ended with
equal digests the echo goes and nothing is marked; a difference is counted, reported and marks the step bad. A known answer charges the
mismatch to the descriptor's unit where the echo unit passes, else to the echo unit, which then serves no echoes. An echo that outgrows its
buffer is abandoned and counted. Firmware's rate update keeps the rate at or below the ceiling. A margin beyond its threshold raises its
warning, at most one in 10 minutes. A Campanile test takes its array to TEST (once its group runs and an echo on it is over), or is refused
where the array is not quiesced, and returns it to its role with its result. The messages answer the Gallery's registers and buckets. (R389,
R392, R393, R396, R397, R400, R401, R402, R403, R405, R406) -/
def Obligations.GalleryAndCampanile : Prop :=
  (∀ (s : State) (t g c k : Nat) (j e : Job), g < 16 → c < 8 → (s.jobsOf g c)[k]? = some j → j.sampled = true → (s.jobOutcome j).isSome = true →
    s.echoes.find? (fun e => decide (e.g = g) && decide (e.c = c) && decide (e.idx = j.idx) && (e.alt == j.alt)) = some e →
    s.writeDigest j = s.writeDigest e →
    ∃ s', exec (.echoCompare t g c k false) s = .next s' ∧ e ∉ s'.echoes ∧ (∀ x, x ∈ s'.jobs → x.id = j.id → x.sampled = false) ∧
      s'.gal = s.gal ∧ s' = { s with now := s'.now, echoes := s'.echoes, jobs := s'.jobs }) ∧
  (∀ (s : State) (t g c k : Nat) (j e : Job), g < 16 → c < 8 → (s.jobsOf g c)[k]? = some j → j.sampled = true → (s.jobOutcome j).isSome = true →
    s.echoes.find? (fun e => decide (e.g = g) && decide (e.c = c) && decide (e.idx = j.idx) && (e.alt == j.alt)) = some e → j.step < 2 ^ 32 →
    ∃ (s' : State) (r : Report) (x : Mismatch), exec (.echoCompare t g c k true) s = .next s' ∧
      s'.rd F.GAL_CNT_MISMATCHES j.p = counted F.GAL_CNT_MISMATCHES (s.rd F.GAL_CNT_MISMATCHES j.p) 1 ∧ s'.rd F.GAL_GOAL_BAD j.p = 1 ∧
      s'.rd F.GAL_STEP_BAD_STEP j.p = (if s.on F.GAL_GOAL_BAD j.p then min j.step (s.rd F.GAL_STEP_BAD_STEP j.p) else j.step) ∧
      r.level = 1 ∧ r.code = 0x110 ∧ r.part = j.p ∧ s'.fc = reported s t r ∧ s'.gal.mism = s.gal.mism ++ [x] ∧ x.p = j.p ∧ x.step = j.step ∧
      sameRegsBut [.GAL_CNT, .GAL_GOAL, .GAL_STEP] s s' ∧ sameMem s s') ∧
  (∀ (s : State) (t g c : Nat) (e : Job), g < 16 → c < 8 → s.jobs.find? (fun k => k.echo && decide (k.g = g) && decide (k.c = c)) = some e →
    e.dropped = false → divertBytes < e.divert.length →
    ∃ s', exec (.echoAbandon t g c) s = .next s' ∧
      (e.op = 1 → ∃ x, x ∈ s'.jobs ∧ x.id = e.id ∧ x.stopped = true ∧ x.dropped = true ∧ x.divert = []) ∧
      s'.rd F.GAL_CNT_SKIPPED_SIZE e.p = counted F.GAL_CNT_SKIPPED_SIZE (s.rd F.GAL_CNT_SKIPPED_SIZE e.p) 1 ∧
      s'.gal.abandoned = s.gal.abandoned ++ [(e.p, e.step)]) ∧
  (∀ (s : State) (t p : Nat) (x : Mismatch), p < 16 → s.gal.mism.find? (fun x => x.p = p) = some x →
    ∃ s', exec (.galleryKnownAnswer t p true) s = .next s' ∧ s'.gal.charges = s.gal.charges ++ [(p, pathOf x.unit, max s.now t)] ∧
      aget s'.sec.flash.cleanNs p = some 0 ∧
      (x.unitPa < 272 → agetD s'.sec.flash.buckets (800 * x.unitPa + x.bucketU) 0 =
        min 15 (agetD s.sec.flash.buckets (800 * x.unitPa + x.bucketU) 0 + 1)) ∧ sameMem s s') ∧
  (∀ (s : State) (t p : Nat) (x : Mismatch), p < 16 → s.gal.mism.find? (fun x => x.p = p) = some x →
    ∃ s', exec (.galleryKnownAnswer t p false) s = .next s' ∧ s'.gal.charges = s.gal.charges ++ [(p, pathOf x.echo, max s.now t)] ∧
      x.echoPa ∈ s'.gal.noEcho ∧ sameMem s s') ∧
  (∀ (s : State) (t p : Nat), p < 16 → s.fwUp = true → s.on F.GAL_GOAL_GALLERY p = true → s.on F.GAL_GOAL_GOAL p = true →
    (∀ x, aget s.gal.rateAt p = some x → x + 60000000000 ≤ max s.now t) →
    ∃ s' want, exec (.samplingRateUpdate t p) s = .next s' ∧ 1000 ≤ want ∧ want ≤ 1000000 ∧
      s'.rd F.GAL_GOAL_RATE_PPM p = min (10000 * s.rd F.GAL_GOAL_ECHO_CEIL p) want ∧
      (s'.on F.GAL_GOAL_CLAMPED p = true → 10000 * s.rd F.GAL_GOAL_ECHO_CEIL p < want ∧ s'.on F.GAL_GOAL_MET p = false) ∧
      aget s'.gal.rateAt p = some (max s.now t) ∧ sameRegsBut [.GAL_GOAL, .MGT_GUARANTEE] s s' ∧ sameMem s s') ∧
  (∀ (s : State) (t cause i : Nat) (v : Int), i < warnInstances cause → s.fwUp = true → s.crosses cause i v = true →
    (∀ w, w ∈ s.gal.warned → w.1 = cause → w.2.1 = i → w.2.2 + 600000000000 ≤ max s.now t) →
    ∃ s', exec (.marginSample t cause i v) s = .next s' ∧ (s'.rd F.GAL_WARN_CAUSE).testBit cause = true ∧ s'.rd F.GAL_WARN_LAST_CAUSE = cause ∧
      s'.rd F.GAL_WARN_INSTANCE = i ∧ (cause, i, max s.now t) ∈ s'.gal.warned ∧ sameRegsBut [.GAL_WARN, .SNP_STATUS] s s' ∧ sameMem s s') ∧
  (∀ (s : State) (t cause i at_ : Nat) (v : Int), i < warnInstances cause → (cause, i, at_) ∈ s.gal.warned → max s.now t < at_ + 600000000000 →
    exec (.marginSample t cause i v) s = .next (s.tick t)) ∧
  (∀ (s : State) (t : Nat) (h : MbxHdr), takes s h → s.mbxCheck h { feat := some 2 } = none →
    ∃ s', exec (.galleryStatus t h) s = .next s' ∧
      answered s' h 0 ((s.tick t).readRegs ((s.scopeOf h.fn).flatMap (fun p =>
        [(.GAL_GOAL, p, 0), (.GAL_CNT, p, 0), (.GAL_STEP, p, 0), (.GAL_QUAR, p, 0)]))).1 ∧
      (∀ p, p ∈ s.scopeOf h.fn → s'.rd F.GAL_CNT_MISMATCHES p = 0 ∧ s'.rd F.GAL_CNT_ECHOES p = 0) ∧
      sameRegsBut [.MBX_STATUS, .GAL_CNT] s s' ∧ sameMem s s') ∧
  (∀ (s : State) (t pa : Nat) (h : MbxHdr), takes s h → pa < 272 → s.mbxCheck h { feat := some 2, parts := (s.partOf (pa / 17)).toList } = none →
    ∃ s', exec (.bucketRead t h pa) s = .next s' ∧
      answered s' h 0 ((List.range 800).flatMap (fun b => natLe 1 (agetD s.sec.flash.buckets (800 * pa + b) 0))) ∧
      sameRegsBut [.MBX_STATUS] s s' ∧ s' = { s with now := s'.now, regs := s'.regs, host := s'.host }) ∧
  (∀ (s : State) (t pa : Nat) (h : MbxHdr), takes s h → pa < 272 → s.mbxCheck h { feat := some 2, mgmt := true } = none →
    ∃ s', exec (.bucketClear t h pa) s = .next s' ∧ answered s' h 0 [] ∧ (∀ b, b < 800 → aget s'.sec.flash.buckets (800 * pa + b) = none) ∧
      (∀ k, k / 800 ≠ pa → aget s'.sec.flash.buckets k = aget s.sec.flash.buckets k) ∧ pa ∉ s'.gal.noEcho ∧
      sameRegsBut [.MBX_STATUS, .GAL_QUAR] s s' ∧ sameMem s s') ∧
  (∀ (s : State) (t cause : Nat) (v : Int) (h : MbxHdr), takes s h → cause < 7 → s.mbxCheck h { feat := some 2, mgmt := true } = none →
    ∃ s', exec (.warnSet t h cause v) s = .next s' ∧ answered s' h 0 [] ∧ s'.threshold cause = v ∧
      (∀ k, k ≠ cause → s'.threshold k = s.threshold k) ∧ sameRegsBut [.MBX_STATUS] s s' ∧ sameMem s s') ∧
  (∀ (s : State) (t pa p : Nat) (q : CampReq) (h : MbxHdr), takes s h → q.target = some pa → s.campFields q = true → s.partOf (pa / 17) = some p →
    s.mbxCheck h { feat := some 2, mgmt := true, stage := stDome } = none → s.gal.camp = none →
    (s.rd F.SPR_STATUS_ROLE pa = 1 → s.quiesced p = true) →
    ∃ s' c, exec (.campanileRun t h q) s = .next s' ∧ answered s' h 0 [] ∧
      s'.rd F.SPR_STATUS_ROLE pa =
        (if s.rd F.CLK_AG_STATE (pa / 17) ≠ 0 then s.rd F.SPR_STATUS_ROLE pa else if s.echoOn pa then 3 else 4) ∧
      s'.gal.camp = some c ∧ c.p = p ∧
      c.roles = [(pa, if s.rd F.SPR_STATUS_ROLE pa = 3 then 2 else s.rd F.SPR_STATUS_ROLE pa)] ∧ s'.rd F.GAL_CAMP_RUNNING = 1 ∧ s'.rd F.GAL_CAMP_PHYS = pa ∧ s'.rd F.GAL_CAMP_RESULT = 0 ∧
      sameRegsBut [.MBX_STATUS, .GAL_CAMP, .SPR_STATUS, .MGT_GUARANTEE] s s' ∧ sameMem s s') ∧
  (∀ (s : State) (t pa p : Nat) (q : CampReq) (h : MbxHdr), takes s h → q.target = some pa → s.campFields q = true → s.partOf (pa / 17) = some p →
    s.mbxCheck h { feat := some 2, mgmt := true, stage := stDome } = none → s.gal.camp = none → s.rd F.SPR_STATUS_ROLE pa = 1 →
    s.quiesced p = false →
    ∃ s', exec (.campanileRun t h q) s = .next s' ∧ answered s' h 9 (natLe 4 3) ∧ s'.rd F.GAL_CAMP_RESULT = 3 ∧ s'.gal.camp = none ∧
      sameRegsBut [.MBX_STATUS, .GAL_CAMP] s s' ∧ sameMem s s') ∧
  (∀ (s : State) (t failed pa role : Nat) (c : CampRun) (ranges : List (Nat × Nat × Nat)), s.gal.camp = some c → c.target = some pa →
    s.rd F.SPR_STATUS_ROLE pa = 4 → c.roles = [(pa, role)] → role < 8 →
    ∃ s', exec (.campanileComplete t failed [] ranges) s = .next s' ∧ s'.rd F.SPR_STATUS_ROLE pa = role ∧ s'.gal.camp = none ∧
      s'.rd F.GAL_CAMP_RUNNING = 0 ∧ s'.rd F.GAL_CAMP_FAILED = (failed &&& c.parts) % 32 ∧
      s'.rd F.GAL_CAMP_RESULT = (if failed &&& c.parts = 0 then 0 else 1) ∧ sameRegsBut [.GAL_CAMP, .SPR_STATUS] s s' ∧ sameMem s s') ∧
  (∀ (s : State) (t : Nat) (h : MbxHdr), takes s h → s.mbxCheck h { feat := some 2, mgmt := true } = none →
    ∃ s', exec (.campanileResult t h) s = .next s' ∧
      answered s' h 0 (natLe 8 ((s.tick t).shown .GAL_CAMP 0 0) ++ s.gal.ranges.flatMap (fun r => natLe 1 r.1 ++ natLe 1 r.2.1 ++ natLe 1 r.2.2)) ∧
      sameRegsBut [.MBX_STATUS] s s' ∧ s' = { s with now := s'.now, regs := s'.regs, host := s'.host })

/-- The ledger takes commands, appends records, takes in the inbox and releases behind FLOOR. A doorbell's TAIL is taken where it lies in
the ring and not behind the last, else reported; RESUME clears HALTED; another partition's Belfry core is denied with a level 1 security
fault. A command that breaks its layout fails with code 01h, halts the engine and appends nothing. While no append waits, a SEND appends a
record with the digest of its data at HEAD, in one step, and ends once its packets have left, its record alone going to the inbox that it
names; a BATCH appends its record and ends; a RESEND appends nothing. No byte outside the area changes. A waiting append sets FULL until
room returns. An inbox record of a BATCH is appended VERIFIED; a mismatch compared again is counted in MISSING. FLOOR rises to at most
LAST_COMMIT + 1 and releases the record at TAIL below it. (R413, R414, R416, R417, R418, R419, R421, R423, R426) -/
def Obligations.LedgerEngine : Prop :=
  (∀ (s : State) (t p value : Nat) (who : Requester), p < 16 → (who = .mgt ∨ who = .pf0 ∨ who = .bfy p) → value.testBit 31 = false →
    ahead (bits value 0 16) (s.rd F.LDG_STATUS_SQ_HEAD p) ≤ 2 ^ max 4 (s.rd F.LDG_SQ_LOG2 p) →
    ahead (s.ledger p).sqTail (s.rd F.LDG_STATUS_SQ_HEAD p) ≤ ahead (bits value 0 16) (s.rd F.LDG_STATUS_SQ_HEAD p) →
    ∃ s', exec (.ldgDbWrite t who p value) s = .next s' ∧ (s'.ledger p).sqTail = bits value 0 16 ∧
      s' = { s with now := s'.now, led := s'.led }) ∧
  (∀ (s : State) (t p value : Nat) (who : Requester), p < 16 → (who = .mgt ∨ who = .pf0 ∨ who = .bfy p) → value.testBit 31 = false →
    (2 ^ max 4 (s.rd F.LDG_SQ_LOG2 p) < ahead (bits value 0 16) (s.rd F.LDG_STATUS_SQ_HEAD p) ∨
      ahead (bits value 0 16) (s.rd F.LDG_STATUS_SQ_HEAD p) < ahead (s.ledger p).sqTail (s.rd F.LDG_STATUS_SQ_HEAD p)) →
    ∃ s' r, exec (.ldgDbWrite t who p value) s = .next s' ∧ r.level = 1 ∧ r.cls = 2 ∧ r.part = p ∧ s'.fc = reported s t r ∧
      s' = { s with now := s'.now, fc := s'.fc }) ∧
  (∀ (s : State) (t p value : Nat) (who : Requester), p < 16 → (who = .mgt ∨ who = .pf0 ∨ who = .bfy p) → value.testBit 31 = true →
    ∃ s', exec (.ldgDbWrite t who p value) s = .next s' ∧ s'.rd F.LDG_STATUS_HALTED p = 0 ∧ sameBut [fkey F.LDG_STATUS_HALTED p] s s' ∧
      sameMem s s') ∧
  (∀ (s : State) (t p : Nat) (who : Requester), p < 16 → (who = .mgt ∨ who = .pf0 ∨ who = .bfy p) →
    ∃ s', exec (.ledgerResume t who p) s = .next s' ∧ s'.rd F.LDG_STATUS_HALTED p = 0 ∧ sameBut [fkey F.LDG_STATUS_HALTED p] s s' ∧
      s' = { s with now := s'.now, regs := s'.regs }) ∧
  (∀ (s : State) (t p : Nat) (c : Bytes) (l : List Bytes), p < 16 → s.on F.LDG_SQ_ENABLE p = true →
    s.on F.LDG_STATUS_HALTED p = false → s.on F.LDG_STATUS_FULL p = false → (s.ledger p).run = none → s.free_ p = true →
    (s.ledger p).extra = c :: l → leAt c 0 1 ≠ 2 → leAt c 0 1 ≠ 3 → (s.ledUnits p = 0 ∨ cmdBad c = true) →
    ∃ s' r, exec (.ledgerSend t p) s = .next s' ∧ s'.rd F.LDG_STATUS_LAST_CODE p = 1 ∧ s'.rd F.LDG_STATUS_HALTED p = 1 ∧
      (s'.ledger p).extra = l ∧ r.cls = 0 ∧ r.level = 1 ∧ r.code = 1 ∧ r.part = p ∧ s'.fc = reported s t r ∧
      (s.on F.LDG_FIRST_VALID p = false → s'.rd F.LDG_FIRST_CODE p = 1 ∧ s'.rd F.LDG_FIRST_STEP p = cmdStep c % 2 ^ 32) ∧
      sameRegsBut [.LDG_STATUS, .LDG_FIRST] s s' ∧ sameMem s s') ∧
  (∀ (s s₁ : State) (t p n : Nat) (c b : Bytes) (l : List Bytes), s.Inv → p < 16 → s.on F.LDG_SQ_ENABLE p = true → s.on F.LDG_STATUS_HALTED p = false →
    s.on F.LDG_STATUS_FULL p = false → (s.ledger p).run = none → s.free_ p = true → (s.ledger p).extra = c :: l → leAt c 0 1 = 1 → cmdBad c = false → n = leAt c 20 2 + 1 →
    ((s.tick t).setLedger p { s.ledger p with extra := l }).devRead 4 0x56 p (leAt c 8 6) (64 * n) = (none, b, false, s₁) →
    s.ledUsed p + 1 + n ≤ s.ledUnits p → s.ledUnits p ≤ 2 ^ 36 →
    ∃ (s' : State) (r : LedRun), exec (.ledgerSend t p) s = .next s' ∧ s'.rd F.LDG_HEAD_HEAD p = (s.rd F.LDG_HEAD_HEAD p + 1 + n) % s.ledUnits p ∧
      s'.rd F.LDG_APPENDED_APPENDED p = counted F.LDG_APPENDED_APPENDED (s.rd F.LDG_APPENDED_APPENDED p) 1 ∧
      recKind (s'.ledRead p (s.rd F.LDG_HEAD_HEAD p) 1) = 1 ∧ recStep (s'.ledRead p (s.rd F.LDG_HEAD_HEAD p) 1) = cmdStep c ∧
      recDigest (s'.ledRead p (s.rd F.LDG_HEAD_HEAD p) 1) = slice (shake256 b) 0 32 ∧
      (s'.ledger p).run = some r ∧ r.cmd = c ∧ r.sent = true ∧ r.tag = s.fab.tagCtr + 1 ∧
      r.record = s'.ledRead p (s.rd F.LDG_HEAD_HEAD p) 1 ∧ sameRegsBut [.LDG_HEAD, .LDG_APPENDED, .BWG_STATE, .BWG_SPENT] s s' ∧
      (∀ a, (a < 65536 * s.rd F.LDG_AREA_BASE_FRAME p ∨ 65536 * s.rd F.LDG_AREA_BASE_FRAME p + 64 * s.ledUnits p ≤ a) →
        s'.rdByte a = s.rdByte a)) ∧
  (∀ (s : State) (t p : Nat) (r : LedRun), p < 16 → (s.ledger p).run = some r → r.sent = true → leAt r.cmd 0 1 = 1 → s.tagBusy r.tag = false →
    ∃ s', exec (.ledgerSend t p) s = .next s' ∧ (s'.ledger p).run = none ∧ s'.rd F.LDG_STATUS_LAST_CODE p = 0 ∧
      s'.fab.heads.length = s.fab.heads.length + (if leAt r.cmd 40 6 = 0 then 0 else 1) ∧
      sameRegsBut [.LDG_STATUS, .LDG_TAIL, .LDG_RELEASED] s s' ∧ sameMem s s') ∧
  (∀ (s : State) (t p : Nat) (c : Bytes) (l : List Bytes), s.Inv → p < 16 → s.on F.LDG_SQ_ENABLE p = true → s.on F.LDG_STATUS_HALTED p = false →
    s.on F.LDG_STATUS_FULL p = false → (s.ledger p).run = none → s.free_ p = true → (s.ledger p).extra = c :: l → leAt c 0 1 = 2 → cmdBad c = false → leAt c 4 2 = 0xFFFF →
    s.ledUsed p + 1 ≤ s.ledUnits p → s.ledUnits p ≤ 2 ^ 36 →
    ∃ s', exec (.ledgerBatch t p) s = .next s' ∧ s'.rd F.LDG_HEAD_HEAD p = (s.rd F.LDG_HEAD_HEAD p + 1) % s.ledUnits p ∧
      s'.rd F.LDG_APPENDED_APPENDED p = counted F.LDG_APPENDED_APPENDED (s.rd F.LDG_APPENDED_APPENDED p) 1 ∧
      recKind (s'.ledRead p (s.rd F.LDG_HEAD_HEAD p) 1) = 3 ∧ recDigest (s'.ledRead p (s.rd F.LDG_HEAD_HEAD p) 1) = slice c 32 32 ∧
      (s'.ledger p).run = none ∧ s'.rd F.LDG_STATUS_LAST_CODE p = 0 ∧ 
      sameRegsBut [.LDG_HEAD, .LDG_APPENDED, .LDG_STATUS, .LDG_TAIL, .LDG_RELEASED, .BWG_STATE, .BWG_SPENT] s s' ∧
      (∀ a, (a < 65536 * s.rd F.LDG_AREA_BASE_FRAME p ∨ 65536 * s.rd F.LDG_AREA_BASE_FRAME p + 64 * s.ledUnits p ≤ a) →
        s'.rdByte a = s.rdByte a)) ∧
  (∀ (s : State) (t p : Nat) (c : Bytes) (l : List Bytes), p < 16 → s.on F.LDG_SQ_ENABLE p = true → s.on F.LDG_STATUS_HALTED p = false →
    (s.ledger p).run = none → s.free_ p = true → (s.ledger p).extra = c :: l → leAt c 0 1 = 3 → cmdBad c = false → 0 < s.ledUnits p →
    ∃ s', exec (.ledgerResend t p) s = .next s' ∧ (s'.ledger p).run = none ∧ (s'.ledger p).extra = l ∧ s'.rd F.LDG_STATUS_LAST_CODE p = 0 ∧
      s'.rd F.LDG_APPENDED_APPENDED p = s.rd F.LDG_APPENDED_APPENDED p ∧
      sameRegsBut [.LDG_STATUS, .LDG_TAIL, .LDG_RELEASED, .BWG_STATE, .BWG_SPENT] s s' ∧ sameMem s s') ∧
  (∀ (s : State) (t p : Nat), p < 16 → s.on F.LDG_STATUS_FULL p = true → (s.ledger p).run = none → (s.ledger p).exports = [] →
    ∃ s', exec (.ledgerAppendWaitEnd t p) s = .next s' ∧ s'.rd F.LDG_STATUS_FULL p = 0 ∧ sameBut [fkey F.LDG_STATUS_FULL p] s s' ∧
      sameMem s s') ∧
  (∀ (s : State) (t p : Nat) (r : Bytes) (l : List Bytes), s.Inv → p < 16 → (s.ledger p).inQ = r :: l → r.length = 64 →
    (recFlags r).testBit 0 = false → recKind r = 3 →
    s.ledUsed p + 1 ≤ s.ledUnits p → s.ledUnits p ≤ 2 ^ 36 →
    ∃ s', exec (.inboxReceive t p) s = .next s' ∧ (s'.ledger p).inQ = l ∧
      s'.rd F.LDG_HEAD_HEAD p = (s.rd F.LDG_HEAD_HEAD p + 1) % s.ledUnits p ∧
      s'.rd F.LDG_INBOX_CNT_VERIFIED p = counted F.LDG_INBOX_CNT_VERIFIED (s.rd F.LDG_INBOX_CNT_VERIFIED p) 1 ∧
      recKind (s'.ledRead p (s.rd F.LDG_HEAD_HEAD p) 1) = 4 ∧ (recFlags (s'.ledRead p (s.rd F.LDG_HEAD_HEAD p) 1)).testBit 2 = true ∧
      sameRegsBut [.LDG_HEAD, .LDG_APPENDED, .LDG_INBOX_CNT, .LDG_TAIL, .LDG_RELEASED, .BWG_STATE, .BWG_SPENT] s s' ∧
      (∀ a, (a < 65536 * s.rd F.LDG_AREA_BASE_FRAME p ∨ 65536 * s.rd F.LDG_AREA_BASE_FRAME p + 64 * s.ledUnits p ≤ a) →
        s'.rdByte a = s.rdByte a)) ∧
  (∀ (s : State) (t p : Nat) (r : Bytes) (l : List Bytes), p < 16 → (s.ledger p).inQ = r :: l → (recFlags r).testBit 0 = false →
    s.ledUnits p < s.ledUsed p + 1 → s.on F.LDG_STATUS_FULL p = false →
    ∃ s' x, exec (.inboxReceive t p) s = .next s' ∧ (s'.ledger p).inQ = r :: l ∧ s'.rd F.LDG_STATUS_FULL p = 1 ∧ x.level = 1 ∧ x.cls = 0 ∧
      x.part = p ∧ s'.fc = reported s t x ∧ sameBut [fkey F.LDG_STATUS_FULL p] s s' ∧ sameMem s s') ∧
  (∀ (s : State) (t p : Nat) (c : Nat × Nat), p < 16 → (s.ledger p).checks = [c] → c.2 ≤ max s.now t →
    (((s.tick t).setLedger p { s.ledger p with checks := [] }).inboxMatches p (s.ledRead p c.1 1)).1 = true →
    ∃ s', exec (.inboxRecheck t p) s = .next s' ∧ (s'.ledger p).checks = [] ∧
      s'.rd F.LDG_INBOX_CNT_VERIFIED p = counted F.LDG_INBOX_CNT_VERIFIED (s.rd F.LDG_INBOX_CNT_VERIFIED p) 1 ∧
      sameRegsBut [.LDG_INBOX_CNT, .BWG_STATE, .BWG_SPENT] s s' ∧ (∀ a, a ≠ s.ledKey p c.1 + 1 → s'.rdByte a = s.rdByte a)) ∧
  (∀ (s : State) (t p : Nat) (c : Nat × Nat), p < 16 → (s.ledger p).checks = [c] → c.2 ≤ max s.now t →
    (((s.tick t).setLedger p { s.ledger p with checks := [] }).inboxMatches p (s.ledRead p c.1 1)).1 = false →
    ∃ s', exec (.inboxRecheck t p) s = .next s' ∧ (s'.ledger p).checks = [] ∧
      s'.rd F.LDG_INBOX_CNT_MISSING p = counted F.LDG_INBOX_CNT_MISSING (s.rd F.LDG_INBOX_CNT_MISSING p) 1 ∧
      sameRegsBut [.LDG_INBOX_CNT, .MEM_ECC, .CUP_ECC, .PGM_FAULT, .BWG_STATE, .BWG_SPENT] s s' ∧ sameMem s s') ∧
  (∀ (s : State) (t p value v : Nat) (who : Requester), p < 16 → (who = .mgt ∨ who = .pf0 ∨ who = .bfy p) →
    v = min (value % 2 ^ 32) (s.rd F.LDG_FLOOR_LAST_COMMIT p + 1) → v < 2 ^ 32 → s.rd F.LDG_FLOOR_FLOOR p < v →
    s.ledLive p = 1 → (s.ledger p).holes = [] → recStep (s.ledRead p (s.rd F.LDG_TAIL_TAIL p) 1) < v → 0 < s.ledUnits p →
    s.ledUnits p ≤ 2 ^ 36 →
    ∃ s', exec (.ldgFloorWrite t who p value) s = .next s' ∧ s'.rd F.LDG_FLOOR_FLOOR p = v ∧
      s'.rd F.LDG_RELEASED_RELEASED p = counted F.LDG_RELEASED_RELEASED (s.rd F.LDG_RELEASED_RELEASED p) 1 ∧
      s'.rd F.LDG_TAIL_TAIL p = (s.rd F.LDG_TAIL_TAIL p + recUnits (s.ledRead p (s.rd F.LDG_TAIL_TAIL p) 1)) % s.ledUnits p ∧
      sameBut [fkey F.LDG_FLOOR_FLOOR p, fkey F.LDG_RELEASED_RELEASED p, fkey F.LDG_TAIL_TAIL p] s s' ∧ sameMem s s') ∧
  (∀ (s : State) (t p value : Nat) (who : Requester), p < 16 →
    (who = .mgt ∨ who = .pf0 ∨ who = .bfy p) → (min (value % 2 ^ 32) (s.rd F.LDG_FLOOR_LAST_COMMIT p + 1) ≤ s.rd F.LDG_FLOOR_FLOOR p) →
    exec (.ldgFloorWrite t who p value) s = .next (s.tick t)) ∧
  (∀ (s : State) (t p v value : Nat) (c : Instr), p < 16 →
    (c = .ldgFloorWrite t (.vf v) p value ∨ c = .ldgDbWrite t (.vf v) p value ∨ c = .ledgerResume t (.vf v) p) →
    exec c s = .next (s.tick t)) ∧
  (∀ (s : State) (t p q value : Nat) (c : Instr), p < 16 → q ≠ p →
    (c = .ldgFloorWrite t (.bfy q) p value ∨ c = .ldgDbWrite t (.bfy q) p value ∨ c = .ledgerResume t (.bfy q) p) →
    ∃ s' r, exec c s = .next s' ∧ r.cls = 5 ∧ r.level = 1 ∧ r.part = q ∧ s'.fc = reported s t r ∧ s' = { s with now := s'.now, fc := s'.fc }) ∧
  (∀ (s : State) (t p : Nat) (c : Bytes) (h : MbxHdr), takes s h → p < 16 → s.hasPart p = true → c.length = 64 →
    s.mbxCheck h { feat := some 2, parts := [p], stage := stDome } = none →
    ∃ s', exec (.ledgerCommand t h p c) s = .next s' ∧ answered s' h 0 [] ∧ (s'.ledger p).extra = (s.ledger p).extra ++ [c] ∧
      sameRegsBut [.MBX_STATUS] s s' ∧ s' = { s with now := s'.now, regs := s'.regs, host := s'.host, led := s'.led }) ∧
  (∀ (s : State) (t : Nat) (h : MbxHdr), takes s h → s.mbxCheck h { feat := some 2 } = none →
    ∃ s', exec (.ledgerStatus t h) s = .next s' ∧
      answered s' h 0 ((s.tick t).readRegs ((s.scopeOf h.fn).flatMap (fun p =>
        [(.LDG_AREA, p, 0), (.LDG_SQ, p, 0), (.LDG_HEAD, p, 0), (.LDG_TAIL, p, 0), (.LDG_APPENDED, p, 0), (.LDG_RELEASED, p, 0),
         (.LDG_FLOOR, p, 0), (.LDG_REPLAY, p, 0), (.LDG_INBOX, p, 0), (.LDG_INBOX_CNT, p, 0), (.LDG_VOTE, p, 0), (.LDG_STATUS, p, 0),
         (.LDG_FIRST, p, 0)]))).1 ∧
      (∀ p, p ∈ s.scopeOf h.fn → s'.rd F.LDG_INBOX_CNT_VERIFIED p = 0 ∧ s'.rd F.LDG_INBOX_CNT_MISSING p = 0) ∧
      sameRegsBut [.MBX_STATUS, .LDG_INBOX_CNT] s s' ∧ sameMem s s')

/-- Triggers, arming, draining and the end of a cut; a restore. Triggers set their PENDING bit. Arming ends with code 01h where the shard
table fails its check, and else arms the cut at the step before, marks every SNAP page with COW 1 and DIRTY 0 and clears every trigger. The
engine sends the next page as 16 packets, and after the last the seal; the cut ends with code 00h once the mirror reports COMPLETE, 05h
where it reports FAILED, 04h where it does not answer the open. A restore of a quiesced partition begins and stays BUSY, of another it is
answered with code 16h; at its end SNP_RESTORE shows how it ended. (R428, R429, R430, R432, R435, R438, R441, R442, R443, R444) -/
def Obligations.SnapshotsAndRestore : Prop :=
  (∀ (s : State) (t p : Nat), p < 16 → s.stage = stFinial → s.cuts p = true →
    (s.snap p).armedAt + s.rd F.SNP_CFG_INTERVAL_MS p * 1000000 ≤ max s.now t →
    ∃ s', exec (.intervalTrigger t p) s = .next s' ∧ (s'.rd F.SNP_STATUS_PENDING p).testBit 0 = true ∧
      sameBut [fkey F.SNP_STATUS_PENDING p] s s' ∧ s' = { s with now := s'.now, regs := s'.regs }) ∧
  (∀ (s : State) (t p : Nat) (who : Requester), p < 16 → (who = .mgt ∨ who = .pf0 ∨ who = .bfy p) →
    ∃ s', exec (.snpTriggerNow t who p) s = .next s' ∧ (s'.rd F.SNP_STATUS_PENDING p).testBit 3 = true ∧
      sameBut [fkey F.SNP_STATUS_PENDING p] s s' ∧ s' = { s with now := s'.now, regs := s'.regs }) ∧
  (∀ (s : State) (t p v : Nat), p < 16 → exec (.snpTriggerNow t (.vf v) p) s = .next (s.tick t)) ∧
  (∀ (s : State) (t p q : Nat), p < 16 → q ≠ p →
    ∃ s' r, exec (.snpTriggerNow t (.bfy q) p) s = .next s' ∧ r.cls = 5 ∧ r.level = 1 ∧ r.part = q ∧ s'.fc = reported s t r ∧
      s' = { s with now := s'.now, fc := s'.fc }) ∧
  (∀ (s : State) (t p : Nat) (h : MbxHdr), takes s h → p < 16 → s.hasPart p = true →
    s.mbxCheck h { feat := some 2, parts := [p], stage := stDome } = none →
    ∃ s', exec (.snapNow t h p) s = .next s' ∧ answered s' h 0 [] ∧ (s'.rd F.SNP_STATUS_PENDING p).testBit 3 = true ∧
      sameRegsBut [.MBX_STATUS, .SNP_STATUS] s s' ∧ s' = { s with now := s'.now, regs := s'.regs, host := s'.host }) ∧
  (∀ (s : State) (t p : Nat), p < 16 → (s.snap p).arming = true → s.tableOk p = false → (s.snap p).heldAdv = [] → s.memx.cowHolds = [] →
    ∃ s', exec (.cutArm t p) s = .next s' ∧ s'.rd F.SNP_STATUS_LAST_CODE p = 1 ∧ s'.rd F.SNP_STATUS_STATE p = 0 ∧
      s'.rd F.PGM_CUT_ACTIVE p = 0 ∧ (s'.snap p).arming = false ∧ 
      sameRegsBut [.SNP_STATUS, .PGM_CUT, .MEM_ECC, .CUP_ECC, .PGM_FAULT, .BWG_STATE, .BWG_SPENT] s s' ∧
      sameMem s s') ∧
  (∀ (s : State) (t p : Nat), s.Inv → p < 16 → (s.snap p).arming = true → s.tableOk p = true → (s.snap p).heldAdv = [] → s.memx.cowHolds = [] →
    ∃ s', exec (.cutArm t p) s = .next s' ∧ s'.rd F.PGM_CUT_ACTIVE p = 1 ∧ s'.rd F.PGM_CUT_COPIES p = 0 ∧
      s'.rd F.PGM_CUT_CUT p = (s.rd F.PGM_CUT_CUT p + 1) % 4 ∧ s'.rd F.SNP_STATUS_PENDING p = 0 ∧ s'.rd F.SNP_STATUS_OVERDUE p = 0 ∧
      s'.rd F.SNP_STATUS_STATE p = 2 ∧ s'.rd F.SNP_STATUS_CUT_STEP p = (agetD s.curSteps p 0 - 1) % 2 ^ 32 ∧
      s'.rd F.SNP_SEQ_CUT_SEQ p = counted F.SNP_SEQ_CUT_SEQ (s.rd F.SNP_SEQ_CUT_SEQ p) 1 ∧
      s'.rd F.SNP_DRAIN_TOTAL p = (s.snapPages p).length % 2 ^ 24 ∧ s'.rd F.SNP_DRAIN_SENT p = 0 ∧ (s'.snap p).arming = false ∧
      (s'.snap p).pages = s.snapPages p ∧
      (∀ v, v ∈ s.snapPages p → pmCow (s'.pmEntry v) = true ∧ pmDirty (s'.pmEntry v) = false ∧ pmCut (s'.pmEntry v) = s'.rd F.PGM_CUT_CUT p) ∧
      sameRegsBut [.SNP_STATUS, .PGM_CUT, .SNP_SEQ, .SNP_DRAIN, .BWG_STATE, .BWG_SPENT] s s' ∧ (∀ a, 2 ^ 27 ≤ a → s'.rdByte a = s.rdByte a)) ∧
  (∀ (s : State) (t p : Nat) (d : MirrorDrain), p < 16 → s.safe = false → s.on F.PGM_CUT_ACTIVE p = true → (s.snap p).drains = [d] → d.ended = none →
    d.opened = true → d.sealed = false → d.sent < (s.snap p).pages.length →
    ∃ s' l, exec (.drainPageSend t p) s = .next s' ∧ (s'.snap p).drains = [{ d with sent := d.sent + 1 }] ∧
      s'.fab.heads = s.fab.heads ++ l ∧ l.length = 16 ∧ (∀ x, x ∈ l → x.pkt.dst = d.dev ∧ x.pkt.op = 1 ∧ x.pkt.data.length = 4096) ∧
      s'.rd F.SNP_DRAIN_SENT p = min (s.snap p).pages.length (d.sent + 1) % 2 ^ 24 ∧ sameRegsBut [.SNP_DRAIN, .BWG_STATE, .BWG_SPENT] s s' ∧
      s' = { s with now := s'.now, regs := s'.regs, snp := s'.snp, fab := s'.fab, memx := s'.memx }) ∧
  (∀ (s : State) (t p : Nat) (d : MirrorDrain), p < 16 → s.safe = false → s.on F.PGM_CUT_ACTIVE p = true → (s.snap p).drains = [d] → d.ended = none →
    d.opened = true → d.sealed = false → d.sent = (s.snap p).pages.length →
    ∃ s', exec (.drainPageSend t p) s = .next s' ∧ (s'.snap p).drains = [{ d with sent := d.sent + 1, sealed := true }] ∧
      s'.rd F.SNP_STATUS_STATE p = 3 ∧ sameRegsBut [.SNP_STATUS, .SNP_DRAIN] s s' ∧
      s' = { s with now := s'.now, regs := s'.regs, snp := s'.snp, fab := s'.fab }) ∧
  (∀ (s : State) (t p r st : Nat) (m : Nat × Nat × Nat) (d : MirrorDrain) (a : SlotAns), p < 16 → (s.mirrors p).find? (fun m => m.1 = r) = some m →
    (s.snap p).drains = [d] → d.r = r → d.ended = none → d.opened = true → d.sealed = true → st = (if d.slot = 0 then a.a else a.b).state →
    (st = 2 ∨ st = 3) →
    ∃ s', exec (.slotStatusPoll t p r (some a)) s = .next s' ∧ s'.rd F.SNP_STATUS_LAST_CODE p = (if st = 2 then 0 else 5) ∧
      s'.rd F.SNP_STATUS_STATE p = 0 ∧ s'.rd F.PGM_CUT_ACTIVE p = 0 ∧ (s'.snap p).drains = [] ∧
      (st = 2 → (s'.snap p).newest = some ((s.snap p).pages.length, (s.snap p).armedAt)) ∧
      sameRegsBut [.SNP_STATUS, .PGM_CUT, .MGT_GUARANTEE] s s' ∧ sameMem s s') ∧
  (∀ (s : State) (t p r : Nat) (m : Nat × Nat × Nat) (d : MirrorDrain), p < 16 → (s.mirrors p).find? (fun m => m.1 = r) = some m →
    (s.snap p).drains = [d] → d.r = r → d.ended = none → d.opened = false →
    ∃ s', exec (.slotStatusPoll t p r none) s = .next s' ∧ s'.rd F.SNP_STATUS_LAST_CODE p = 4 ∧ s'.rd F.PGM_CUT_ACTIVE p = 0 ∧
      sameRegsBut [.SNP_STATUS, .PGM_CUT, .MGT_GUARANTEE] s s' ∧ sameMem s s') ∧
  (∀ (s : State) (t : Nat) (h : MbxHdr), takes s h → s.mbxCheck h { feat := some 2 } = none →
    ∃ s', exec (.snapStatus t h) s = .next s' ∧
      answered s' h 0 ((s.tick t).readRegs ((s.scopeOf h.fn).flatMap (fun p =>
        [(.SNP_CFG, p, 0), (.SNP_TABLE, p, 0), (.SNP_STATUS, p, 0), (.SNP_SEQ, p, 0), (.SNP_DRAIN, p, 0), (.SNP_MIRROR, p, 0),
         (.SNP_MIRROR, p, 1), (.SNP_STEPS, p, 0), (.SNP_STEPS, p, 1), (.SNP_RESTORE, p, 0), (.SNP_AGE, p, 0)]))).1 ∧
      sameRegsBut [.MBX_STATUS] s s' ∧ sameMem s s') ∧
  (∀ (s : State) (t : Nat) (h : MbxHdr) (q : RestoreReq), takes s h → q.p < 16 → s.hasPart q.p = true →
    s.mbxCheck h { feat := some 2, mgmt := true, stage := stFinial } = none → aget s.restores q.p = none → s.quiesced q.p = true →
    q.dryRun = false →
    ∃ s' run, exec (.restore t h q) s = .next s' ∧ aget s'.restores q.p = some run ∧ run.req = q ∧ run.begun = max s.now t ∧
      s'.rd F.SNP_RESTORE_STATE q.p = 1 ∧ s'.rd F.SNP_RESTORE_CODE q.p = 0 ∧ s'.host.resps = s.host.resps ∧
      s'.rd F.MBX_STATUS_BUSY h.m = 1 ∧ sameRegsBut [.MBX_STATUS, .SNP_RESTORE, .AON_READY, .AON_STAGE] s s' ∧ sameMem s s') ∧
  (∀ (s : State) (t : Nat) (h : MbxHdr) (q : RestoreReq), takes s h → q.p < 16 → s.hasPart q.p = true →
    s.mbxCheck h { feat := some 2, mgmt := true, stage := stFinial } = none → aget s.restores q.p = none → s.quiesced q.p = false →
    ∃ s', exec (.restore t h q) s = .next s' ∧ answered s' h 9 (natLe 4 0x16) ∧ s'.rd F.SNP_RESTORE_CODE q.p = 0x16 ∧
      s'.restores = s.restores ∧ sameMem s s') ∧
  (∀ (s s₁ : State) (t p : Nat) (r : RestoreRun) (e : RestoreEnd), p < 16 → s.safe = false → aget s.restores p = some r →
    r.req.sources.all (fun x => r.ready (max s.now t) x || r.lost (max s.now t) x) = true →
    (∀ a, r.failedAt = some a → a + 1000000 ≤ max s.now t) → (s.tick t).restoreEnd r = (e, s₁) → (e.soft = false ∨ r.failedAt.isSome = true) →
    r.req.dryRun = false → e.code < 256 →
    ∃ s', exec (.restoreComplete t p) s = .next s' ∧ aget s'.restores p = none ∧ s'.rd F.SNP_RESTORE_CODE p = e.code ∧
      s'.rd F.SNP_RESTORE_STATE p = (if e.code = 0 then 2 else 3) ∧ s'.rd F.SNP_RESTORE_STEP p = e.step % 2 ^ 32 ∧
      (e.writes = [] → sameMem s s'))

/-- Watchdogs, reset requests, dump collection and the partition reset. An expired watchdog reports CODE 0200h and acts by ACTION; a request
by register or message freezes the partition with cause MAILBOX, and one that arrives meanwhile merges, keeps the first cause and is
counted. The collector reads the units in order, by port, by scan path, or marks them unreadable; the first read takes the slot; the last
writes the dump, and a collection past its limit ends with LIMIT. The reset advances the generation tag, stops the partition's work, zeroes
accumulators and bells and empties the translation cache; its end leaves the partition running, counts the reset, clears its pending bits
and answers the request. The four hang messages answer from the registers and the slots. (R43, R102, R170, R211, R372, R448, R449, R450,
R451, R453, R454, R458) -/
def Obligations.HangsDumpsAndResets : Prop :=
  (∀ (s : State) (t p : Nat), p < 16 → s.outstanding p = true → s.stillNow p = false → s.hngState p = 0 → s.safe = false → s.hasPart p = true →
    s.watchNs p ≤ (s.tick t).ranNow p →
    ∃ s' r, exec (.hangWatchdogExpire t p) s = .next s' ∧ r.code = 0x200 ∧ r.cls = 2 ∧ r.level = 1 ∧ r.part = p ∧
      s'.fc = reported s t r ∧
      (s.rd F.HNG_CFG_ACTION p = 0 → s'.hngState p = 1 ∧ (s'.hang p).req = some (1, max s.now t) ∧ (s'.hang p).resetAfter = true ∧
        (s'.hang p).dump = s.on F.HNG_CFG_DUMP_HANG p ∧ (.pf0, 32 + p) ∈ s'.host.vecs) ∧
      (s.rd F.HNG_CFG_ACTION p = 1 → s'.hngState p = 1 ∧ (s'.hang p).resetAfter = false ∧ (s'.hang p).dump = true) ∧
      (2 ≤ s.rd F.HNG_CFG_ACTION p → s'.hngState p = 0 ∧ (s'.hang p).ran = 0 ∧ (s'.hang p).mark = max s.now t ∧ s'.host = s.host) ∧
      sameBut [fkey F.HNG_STATUS_STATE p] s s' ∧
      s' = { s with now := s'.now, regs := s'.regs, fc := s'.fc, hng := s'.hng, host := s'.host }) ∧
  (∀ (s : State) (t p value : Nat) (who : Requester), p < 16 → (who = .pf0 ∨ who = .mgt) → s.hasPart p = true → s.safe = false →
    value.testBit 0 = true → s.hngState p = 0 →
    ∃ s', exec (.hngReqReset t who p value) s = .next s' ∧ s'.hngState p = 1 ∧ (s'.hang p).req = some (3, max s.now t) ∧
      (s'.hang p).resetAfter = true ∧ (s'.hang p).dump = value.testBit 1 ∧ (.pf0, 32 + p) ∈ s'.host.vecs ∧
      sameRegsBut [.HNG_STATUS, .GAL_CAMP, .SPR_STATUS] s s' ∧ sameMem s s') ∧
  (∀ (s : State) (t p value : Nat) (who : Requester), p < 16 → (who = .pf0 ∨ who = .mgt) → s.hasPart p = true → s.safe = false →
    value.testBit 0 = true → s.hngState p ≠ 0 →
    ∃ s', exec (.hngReqReset t who p value) s = .next s' ∧
      s'.rd F.HNG_STATUS_MERGED p = counted F.HNG_STATUS_MERGED (s.rd F.HNG_STATUS_MERGED p) 1 ∧ (s'.hang p).req = (s.hang p).req ∧
      (s'.hang p).dump = (s.hang p).dump ∧ (s'.hang p).resetAfter = true ∧ sameBut [fkey F.HNG_STATUS_MERGED p] s s' ∧
      s' = { s with now := s'.now, regs := s'.regs, hng := s'.hng }) ∧
  (∀ (s : State) (t p value : Nat) (who : Requester), p < 16 → who ≠ .pf0 → who ≠ .mgt →
    ∃ s', exec (.hngReqReset t who p value) s = .next s' ∧ s' = { s with now := s'.now }) ∧
  (∀ (s : State) (t p : Nat) (dump : Bool) (h : MbxHdr), takes s h → p < 16 → s.hasPart p = true → s.hngState p = 0 →
    s.mbxCheck h { feat := some 1, parts := [p], stage := stDome } = none →
    ∃ s', exec (.partitionReset t h p dump) s = .next s' ∧ s'.host.busy = s.host.busy ++ [{ h := h, p := p }] ∧
      s'.host.resps = s.host.resps ∧ s'.rd F.MBX_STATUS_BUSY h.m = 1 ∧ s'.hngState p = 1 ∧
      (s'.hang p).req = some (3, max s.now t) ∧ (s'.hang p).resetAfter = true ∧ (s'.hang p).dump = dump ∧
      sameRegsBut [.MBX_STATUS, .HNG_STATUS, .GAL_CAMP, .SPR_STATUS] s s' ∧ sameMem s s') ∧
  (∀ (s : State) (t p : Nat) (record : Bytes) (u : Nat × Nat) (rest : List (Nat × Nat)), p < 16 → s.collecting.head? = some p →
    s.hngState p = 1 → s.dumpUnits p = u :: rest → rest ≠ [] →
    ∃ s' d, exec (.dumpUnitRead t p record) s = .next s' ∧ s'.hngState p = 2 ∧ (s'.hang p).slot = s.freeDump ∧ (s'.hang p).todo = rest ∧
      (s'.hang p).done = [d] ∧ d.master = u.1 ∧ d.inst = u.2 ∧ d.method = 0 ∧ d.record = record.take (dumpCap u) ∧
      s'.rd F.HNG_SLOT_VALID s.freeDump = 0 ∧
      s'.rd F.HNG_DUMP_LOST = (if (s.dumps.getD s.freeDump {}).held then counted F.HNG_DUMP_LOST (s.rd F.HNG_DUMP_LOST) 1
        else s.rd F.HNG_DUMP_LOST) ∧
      sameRegsBut [.HNG_STATUS, .HNG_SLOT, .HNG_DUMP] s s' ∧
      (∀ a, (a < dumpBase s.freeDump ∨ dumpBase s.freeDump + 256 ≤ a) → s'.rdByte a = s.rdByte a)) ∧
  (∀ (s : State) (t p : Nat) (record : Bytes) (u v : Nat × Nat) (rest : List (Nat × Nat)), p < 16 → s.collecting.head? = some p →
    s.hngState p = 2 → (s.hang p).todo = u :: v :: rest →
    ∃ s' d, exec (.dumpUnitRead t p record) s = .next s' ∧ (s'.hang p).todo = v :: rest ∧ (s'.hang p).done = d :: (s.hang p).done ∧
      d.master = u.1 ∧ d.inst = u.2 ∧ d.method = 0 ∧ d.record = record.take (dumpCap u) ∧
      s' = { s with now := s'.now, hng := s'.hng }) ∧
  (∀ (s : State) (t p : Nat) (scan : Option Bytes) (u v : Nat × Nat) (rest : List (Nat × Nat)), p < 16 → s.collecting.head? = some p →
    s.hngState p = 2 → (s.hang p).todo = u :: v :: rest →
    ∃ s' d, exec (.dumpPortTimeout t p scan) s = .next s' ∧ (s'.hang p).todo = v :: rest ∧ (s'.hang p).done = d :: (s.hang p).done ∧
      d.master = u.1 ∧ d.inst = u.2 ∧ d.method = (if scan.isSome then 1 else 2) ∧ d.record = (scan.getD []).take (dumpCap u) ∧
      s' = { s with now := s'.now, hng := s'.hng }) ∧
  (∀ (s : State) (t p : Nat) (record : Bytes) (u : Nat × Nat), s.Inv → p < 16 → s.collecting.head? = some p → s.hngState p = 2 →
    (s.hang p).todo = [u] → (s.hang p).slot < 4 → s.dumps.length = 4 →
    ∃ s', exec (.dumpUnitRead t p record) s = .next s' ∧ (s'.hang p).todo = [] ∧ (s'.hang p).dump = false ∧
      s'.dumps[(s.hang p).slot]? = some { held := true, valid := true } ∧ s'.rd F.HNG_SLOT_VALID (s.hang p).slot = 1 ∧
      s'.dumpSeq = s.dumpSeq + 1 ∧ s'.rdBytes (dumpBase (s.hang p).slot) 4 = ascii "VDMP" ∧
      ((s.hang p).resetAfter = true → s'.hngState p = 2 ∧ (s'.hang p).req = (s.hang p).req) ∧
      ((s.hang p).resetAfter = false → s'.hngState p = 0 ∧ (s'.hang p).req = none) ∧ sameRegsBut [.HNG_STATUS, .HNG_SLOT] s s' ∧
      (∀ a, (a < dumpBase (s.hang p).slot ∨ dumpBase (s.hang p).slot + 256 + 16 * ((s.hang p).done.length + 1)
        + (((s.hang p).done.map (fun d => d.record.length)).sum + (record.take (dumpCap u)).length) ≤ a) → s'.rdByte a = s.rdByte a)) ∧
  (∀ (s : State) (t p : Nat), s.Inv → p < 16 → s.collecting.head? = some p → s.hngState p = 2 → s.collFrom p + 2000000000 ≤ max s.now t →
    (s.hang p).slot < 4 → s.dumps.length = 4 →
    ∃ s', exec (.collectionLimit t p) s = .next s' ∧ (s'.hang p).todo = [] ∧ (s'.hang p).dump = false ∧
      s'.dumps[(s.hang p).slot]? = some { held := true, valid := true } ∧ s'.rd F.HNG_SLOT_VALID (s.hang p).slot = 1 ∧
      s'.rd F.HNG_SLOT_LIMIT (s.hang p).slot = 1 ∧ s'.rdByte (dumpBase (s.hang p).slot + 29) = 1 ∧ s'.dumpSeq = s.dumpSeq + 1 ∧
      sameRegsBut [.HNG_STATUS, .HNG_SLOT] s s' ∧ 
      (∀ a, (a < dumpBase (s.hang p).slot ∨ dumpBase (s.hang p).slot + 256 + 16 * ((s.hang p).done.length + (s.hang p).todo.length)
        + ((s.hang p).done.map (fun d => d.record.length)).sum ≤ a) → s'.rdByte a = s.rdByte a)) ∧
  (∀ (s : State) (t p : Nat), p < 16 → (s.hngState p = 1 ∨ s.hngState p = 2) → (s.hang p).resetAfter = true →
    (s.tick t).resetWaits p = false →
    ∃ s', exec (.partitionResetBegin t p) s = .next s' ∧ s'.rd F.HNG_STATUS_GEN p = (s.genOf p + 1) % 256 ∧ s'.hngState p = 3 ∧
      (∀ j, j ∈ s'.jobs → j.p ≠ p) ∧ (∀ w, w ∈ s'.waits → w.p ≠ p) ∧ (∀ e, e ∈ s'.memx.tcache → pmOwner e.2.2 ≠ p) ∧
      (∀ g j, g ∈ s.groupsOf p → j < 17 → s'.rd F.SPR_CREDIT_FREE (17 * g + j) = 288) ∧
      (∀ g e, g ∈ s.groupsOf p → e < 4 → s'.rd F.STW_CMD_ACTIVE g e = 0) ∧
      (∀ g b, g ∈ s.groupsOf p → s'.rd F.BEL_STATE_COUNT g b = 0) ∧
      (∀ g a, g ∈ s.groupsOf p → accKey (17 * g) 0 ≤ a → a < accKey (17 * g + 17) 0 → s'.rdByte a = 0)) ∧
  (∀ (s : State) (t p : Nat) (h : MbxHdr), p < 16 → s.hngState p = 3 → s.host.busy = [{ h := h, p := p }] → s.memx.cowHolds = [] →
    ∃ s', exec (.partitionResetComplete t p) s = .next s' ∧ s'.hngState p = 0 ∧
      s'.rd F.HNG_STATUS_RESETS p = counted F.HNG_STATUS_RESETS (s.rd F.HNG_STATUS_RESETS p) 1 ∧
      s'.rd F.HNG_STATUS_LAST_CAUSE p = (((s.hang p).req.map (fun r => r.1)).getD 0) % 256 ∧ (s'.hang p).req = none ∧
      (∀ c, c < 7 → s'.pendingBit c p = false) ∧
      (∀ c sc, c < 7 → sc < 17 → sc ≠ p → s'.pendingBit c sc = s.pendingBit c sc) ∧ (.pf0, 32 + p) ∈ s'.host.vecs ∧
      s'.host.busy = [] ∧ answered s' h 0 [] ∧ sameRegsBut [.HNG_STATUS, .FC_PEND, .MBX_STATUS, .AON_READY, .AON_STAGE] s s' ∧
      s'.ctxs = s.ctxs ∧ s'.jobs = s.jobs ∧ sameMem s s') ∧
  (∀ (s : State) (t : Nat) (h : MbxHdr), takes s h → s.mbxCheck h { feat := some 2 } = none →
    ∃ s', exec (.hangStatus t h) s = .next s' ∧
      answered s' h 0 ((s.tick t).readRegs ((s.scopeOf h.fn).flatMap (fun p => [(.HNG_CFG, p, 0), (.HNG_STATUS, p, 0)])
        ++ [(.HNG_SLOT, 0, 0), (.HNG_SLOT, 1, 0), (.HNG_SLOT, 2, 0), (.HNG_SLOT, 3, 0)])).1 ∧
      sameRegsBut [.MBX_STATUS, .HNG_STATUS] s s' ∧ sameMem s s') ∧
  (∀ (s : State) (t slot off len : Nat) (h : MbxHdr), takes s h → slot < 4 → len ≤ 4032 → off + len ≤ 0x03000000 →
    s.mbxCheck h { feat := some 2, parts := [if s.on F.HNG_SLOT_VALID slot then s.rd F.HNG_SLOT_PARTITION slot else 16] } = none →
    ∃ s', exec (.dumpRead t h slot off len) s = .next s' ∧ answered s' h 0 (s.rdBytes (dumpBase slot + off) len) ∧
      sameRegsBut [.MBX_STATUS] s s' ∧ s' = { s with now := s'.now, regs := s'.regs, host := s'.host }) ∧
  (∀ (s : State) (t slot : Nat) (h : MbxHdr), takes s h → slot < 4 → s.dumps.length = 4 →
    s.mbxCheck h { feat := some 2, mgmt := true } = none →
    ∃ s', exec (.dumpRelease t h slot) s = .next s' ∧ answered s' h 0 [] ∧ (s'.dumps.getD slot {}).held = false ∧
      (∀ k, k ≠ slot → s'.dumps[k]? = s.dumps[k]?) ∧ sameRegsBut [.MBX_STATUS] s s' ∧
      s' = { s with now := s'.now, regs := s'.regs, host := s'.host, dumps := s'.dumps }) ∧
  (∀ (s : State) (t p periodMs action dumpBits : Nat) (h : MbxHdr), takes s h → p < 16 → periodMs < 65536 → action < 4 → dumpBits < 4 →
    s.mbxCheck h { feat := some 2, parts := [p] } = none →
    ∃ s', exec (.watchdogSet t h p periodMs action dumpBits) s = .next s' ∧ answered s' h 0 [] ∧ s'.rd F.HNG_CFG_PERIOD_MS p = periodMs ∧
      s'.rd F.HNG_CFG_ACTION p = action ∧ s'.rd F.HNG_CFG_DUMP_HANG p = dumpBits % 2 ∧ s'.rd F.HNG_CFG_DUMP_FAULT p = dumpBits / 2 ∧
      (∀ (f : Fld) (q : Nat), f.reg = .HNG_CFG → q ≠ p → s'.rd f q = s.rd f q) ∧ sameRegsBut [.MBX_STATUS, .HNG_CFG] s s' ∧
      s' = { s with now := s'.now, regs := s'.regs, host := s'.host })

/-- A partition reset leaves every context open, idle and empty. After a reset, every context of the partition stays open, its GEN in
PCI_RING advances by 1, SQ_HEAD equals SQ_TAIL, its reservations are released and STATE reads idle; descriptors posted and not started are
discarded, those that had started write no record, and no byte of memory below the accumulator memory changes, so the completion ring in
memory stays as it was. The hypothesis on held writes only rules out writes of other units that wait for the arming of a cut, which end with
the reset. (R459) -/
def Obligations.ContextsSurviveReset : Prop :=
  ∀ (s : State) (t p g c : Nat) (x : CtxSt), p < 16 → (s.hngState p = 1 ∨ s.hngState p = 2) → (s.hang p).resetAfter = true →
    (s.tick t).resetWaits p = false → g ∈ s.groupsOf p → c < 8 → s.ctx g c = some x →
    ∃ s' y, exec (.partitionResetBegin t p) s = .next s' ∧ s'.ctx g c = some y ∧ s'.rd F.PCI_RING_OPEN g c = 1 ∧
      s'.rd F.PCI_RING_GEN g c = (s.rd F.PCI_RING_GEN g c + 1) % 256 ∧ y.sqTail = x.sqTail ∧
      s'.rd F.PCI_RING_SQ_HEAD g c = y.sqTail % 2 ^ 16 ∧ s'.rd F.PCI_RING_RESERVED_SLOTS g c = 0 ∧ s'.rd F.AG_CTX_STATE g c = 0 ∧
      y.head = none ∧ y.ends = [] ∧ y.sqBase = x.sqBase ∧ y.sqLog2 = x.sqLog2 ∧ y.cqBase = x.cqBase ∧ y.cqLog2 = x.cqLog2 ∧
      (∀ j, j ∈ s'.jobs → j.g = g → j.c = c → j.p ≠ p) ∧
      (((s.snap p).arming = true → s.memx.cowHolds = []) → ∀ a, a < 2 ^ 48 → s'.rdByte a = s.rdByte a)

/-- Signatures, evidence, counters, ownership, debug scopes, root revocation and patches. Identity and counters are answered by mailbox and
by the always-on paths. Evidence and a manifest signature use the next index, reserve the next block when the held one is spent, take one
token and answer the message with the signature; they fail with detail 01h, 02h or 03h. A commit raises its counter to the version in force;
a token that passes its checks transfers ownership or unlocks scopes and raises its counter, one that fails changes nothing; the lock clears
every scope; a revocation adds its mask. The bucket refills one token at its time. A patch that passes its checks becomes part of the image
and sets its sequence number, after its sleeping groups have woken; one that fails, or that cannot be read, answers the code and leaves the
image. (R261, R262, R447, R465, R466, R467, R470, R472, R473, R474, R476, R477) -/
def Obligations.SecurityAndPatches : Prop :=
  (∀ (s : State) (t : Nat) (h : MbxHdr), takes s h → s.mbxCheck h { feat := some 3 } = none →
    ∃ s', exec (.getIdentity t (.mbx h)) s = .next s' ∧
      answered s' h 0 (slice s.sec.flash.idKey 0 64 ++ shake256 s.sec.flash.idKey ++ s.sec.flash.endorsement) ∧
      sameRegsBut [.MBX_STATUS] s s' ∧ s' = { s with now := s'.now, regs := s'.regs, host := s'.host }) ∧
  (∀ (s : State) (t : Nat) (path : Path), path = .mctp ∨ path = .doe → (s.tick t).aonUp path = true →
    ∃ s', exec (.getIdentity t path) s = .next s' ∧
      s'.host.answers = (path, natLe 1 0 ++ slice s.sec.flash.idKey 0 64 ++ shake256 s.sec.flash.idKey ++ s.sec.flash.endorsement)
        :: s.host.answers ∧
      s' = { s with now := s'.now, host := s'.host }) ∧
  (∀ (s : State) (t : Nat) (h : MbxHdr), takes s h → s.mbxCheck h { feat := some 3 } = none →
    ∃ s', exec (.getCounters t (.mbx h)) s = .next s' ∧ answered s' h 0 s.counters ∧ sameRegsBut [.MBX_STATUS] s s' ∧
      s' = { s with now := s'.now, regs := s'.regs, host := s'.host }) ∧
  (∀ (s : State) (t : Nat) (path : Path), path = .mctp ∨ path = .doe → (s.tick t).aonUp path = true →
    ∃ s', exec (.getCounters t path) s = .next s' ∧ s'.host.answers = (path, natLe 1 0 ++ s.counters) :: s.host.answers ∧
      s' = { s with now := s'.now, host := s'.host }) ∧
  (∀ (s : State) (t n : Nat) (m nonce : Bytes) (h : MbxHdr), takes s h → nonce.length = 32 → s.mbxCheck h { feat := some 3 } = none →
    s.on F.SEC_STATUS_ID_VALID = true → s.exhausted = false → 1 ≤ s.rd F.SEC_SIGIDX_TOKENS → s.rd F.SEC_SIGIDX_TOKENS ≤ 32 →
    n = (if s.rd F.SEC_SIGIDX_NEXT_INDEX = 0xFFFFFFFF ∨ s.rd F.SEC_SIGIDX_NEXT_INDEX = 64 * s.sec.flash.sigBlock
      then 64 * s.sec.flash.sigBlock else s.rd F.SEC_SIGIDX_NEXT_INDEX) → m = (s.tick t).evidence nonce n →
    ∃ s', exec (.getEvidence t (.mbx h) nonce) s = .next s' ∧ answered s' h 0 (m ++ slice (Config.xmssSign n m) 0 2820) ∧
      s'.rd F.SEC_SIGIDX_NEXT_INDEX = (n + 1) % 2 ^ 32 ∧ s'.rd F.SEC_SIGIDX_TOKENS = s.rd F.SEC_SIGIDX_TOKENS - 1 ∧
      s'.sec.flash.sigBlock = (if s.rd F.SEC_SIGIDX_NEXT_INDEX = 0xFFFFFFFF ∨ s.rd F.SEC_SIGIDX_NEXT_INDEX = 64 * s.sec.flash.sigBlock
        then s.sec.flash.sigBlock + 1 else s.sec.flash.sigBlock) ∧
      s'.sec.flash = { s.sec.flash with sigBlock := s'.sec.flash.sigBlock } ∧ sameRegsBut [.MBX_STATUS, .SEC_SIGIDX] s s' ∧
      s' = { s with now := s'.now, regs := s'.regs, host := s'.host, sec := s'.sec }) ∧
  (∀ (s : State) (t code : Nat) (nonce : Bytes) (h : MbxHdr), takes s h → nonce.length = 32 → s.mbxCheck h { feat := some 3 } = none →
    ((code = 1 ∧ s.on F.SEC_STATUS_ID_VALID = false) ∨ (code = 2 ∧ s.on F.SEC_STATUS_ID_VALID = true ∧ s.exhausted = true) ∨
      (code = 3 ∧ s.on F.SEC_STATUS_ID_VALID = true ∧ s.exhausted = false ∧ s.rd F.SEC_SIGIDX_TOKENS = 0)) →
    ∃ s', exec (.getEvidence t (.mbx h) nonce) s = .next s' ∧
      answered s' h 9 (natLe 4 code ++ (if code = 3 then natLe 4 (s.tick t).tokenWait else [])) ∧ sameRegsBut [.MBX_STATUS] s s' ∧
      s' = { s with now := s'.now, regs := s'.regs, host := s'.host }) ∧
  (∀ (s : State) (t n : Nat) (m header digest : Bytes) (h : MbxHdr), takes s h → header.length = 128 → digest.length = 32 →
    slice header 0 4 = ascii "VMNF" → leAt header 4 1 = 1 → s.mbxCheck h { feat := some 2 } = none →
    s.on F.SEC_STATUS_ID_VALID = true → s.exhausted = false → 1 ≤ s.rd F.SEC_SIGIDX_TOKENS → s.rd F.SEC_SIGIDX_TOKENS ≤ 32 →
    n = (if s.rd F.SEC_SIGIDX_NEXT_INDEX = 0xFFFFFFFF ∨ s.rd F.SEC_SIGIDX_NEXT_INDEX = 64 * s.sec.flash.sigBlock
      then 64 * s.sec.flash.sigBlock else s.rd F.SEC_SIGIDX_NEXT_INDEX) →
    m = header.take 5 ++ natLe 1 (leAt header 5 1 ||| 2) ++ header.drop 6 →
    ∃ s', exec (.manifestSign t h header digest) s = .next s' ∧
      answered s' h 0 (m ++ slice (Config.xmssSign n (m ++ digest)) 0 2820 ++ s.idDigest) ∧
      s'.rd F.SEC_SIGIDX_NEXT_INDEX = (n + 1) % 2 ^ 32 ∧ s'.rd F.SEC_SIGIDX_TOKENS = s.rd F.SEC_SIGIDX_TOKENS - 1 ∧
      sameRegsBut [.MBX_STATUS, .SEC_SIGIDX] s s' ∧ s' = { s with now := s'.now, regs := s'.regs, host := s'.host, sec := s'.sec }) ∧
  (∀ (s : State) (t : Nat), s.rd F.SEC_SIGIDX_TOKENS < 32 → s.sec.tokenAt + 360000000000 ≤ max s.now t →
    ∃ s', exec (.signatureTokenRefill t) s = .next s' ∧ s'.rd F.SEC_SIGIDX_TOKENS = s.rd F.SEC_SIGIDX_TOKENS + 1 ∧
      s'.sec = { s.sec with tokenAt := s.sec.tokenAt + 360000000000 } ∧ sameBut [fkey F.SEC_SIGIDX_TOKENS] s s' ∧
      s' = { s with now := s'.now, regs := s'.regs, sec := s'.sec }) ∧
  (∀ (s : State) (t : Nat), (32 ≤ s.rd F.SEC_SIGIDX_TOKENS ∨ max s.now t < s.sec.tokenAt + 360000000000) →
    exec (.signatureTokenRefill t) s = .next (s.tick t)) ∧
  (∀ (s : State) (t kind : Nat) (h : MbxHdr), takes s h → kind < 4 → s.mbxCheck h { feat := some 3, mgmt := true } = none →
    ∃ s', exec (.counterCommit t h kind) s = .next s' ∧ answered s' h 0 [] ∧
      s'.sec.flash = { s.sec.flash with
        fwSv := (if kind = 0 then max s.sec.flash.fwSv ((s.sec.fw.map (fun x => x.secVersion)).getD 0) else s.sec.flash.fwSv),
        imgSv := (if kind = 1 then max s.sec.flash.imgSv ((s.img.act.map (fun x => x.hdr.secVersion)).getD 0) else s.sec.flash.imgSv),
        patchSv := (if kind = 2 then max s.sec.flash.patchSv s.img.patchSv else s.sec.flash.patchSv),
        trimSv := (if kind = 3 then max s.sec.flash.trimSv s.img.trimSv else s.sec.flash.trimSv) } ∧
      sameRegsBut [.MBX_STATUS] s s' ∧ s' = { s with now := s'.now, regs := s'.regs, host := s'.host, sec := s'.sec }) ∧
  (∀ (s : State) (t code : Nat) (token : Bytes) (h : MbxHdr), takes s h → token.length = 2960 →
    s.mbxCheck h { feat := some 3, mgmt := true } = none →
    code = s.tokenFault token "VOWN" s.sec.flash.ownerEpoch 3 112 (fun k => decide (k < 4)) →
    ∃ s', exec (.ownerTransfer t h token) s = .next s' ∧
      (code = 0 → answered s' h 0 [] ∧ s'.rd F.SEC_STATUS_DEBUG_SCOPE = 0 ∧ s'.sec.flash.ownerEpoch = s.sec.flash.ownerEpoch + 1 ∧
        s'.sec.flash.ownerKey = (if allZero (slice token 48 64) then none else some (slice token 48 64)) ∧
        s'.sec.flash.ownerPolicy = (if allZero (slice token 48 64) then 0 else leAt token 44 1) ∧
        s'.sec.flash = { s.sec.flash with
          ownerKey := s'.sec.flash.ownerKey, ownerPolicy := s'.sec.flash.ownerPolicy, ownerEpoch := s'.sec.flash.ownerEpoch } ∧
        sameRegsBut [.MBX_STATUS, .SEC_STATUS] s s') ∧
      (code ≠ 0 → answered s' h 9 (natLe 4 code) ∧ s'.sec = s.sec ∧ sameRegsBut [.MBX_STATUS] s s') ∧
      s' = { s with now := s'.now, regs := s'.regs, host := s'.host, sec := s'.sec }) ∧
  (∀ (s : State) (t code : Nat) (token : Bytes) (h : MbxHdr), takes s h → token.length = 2960 →
    s.mbxCheck h { feat := some 3, mgmt := true } = none →
    code = s.tokenFault token "VDBG" s.sec.flash.debugCtr 15 48
      (fun k => if s.sec.flash.ownerKey.isSome then decide (k = 128) else decide (k < 4)) →
    ∃ s', exec (.debugUnlock t h token) s = .next s' ∧
      (code = 0 → answered s' h 0 [] ∧ s'.sec.flash = { s.sec.flash with debugCtr := s.sec.flash.debugCtr + 1 } ∧
        s'.rd F.SEC_STATUS_DEBUG_SCOPE = (s.rd F.SEC_STATUS_DEBUG_SCOPE ||| leAt token 44 1) % 16 ∧
        (leAt token 44 1 ≠ 0 → s'.rd F.MGT_GUARANTEE_HOLD_CONSERVE = 0 ∧ s'.rd F.MGT_GUARANTEE_HOLD_REPLAY = 0 ∧
          s'.rd F.MGT_GUARANTEE_HOLD_RECOVERY = 0 ∧ s'.rd F.MGT_GUARANTEE_HOLD_SILENT = 0 ∧ s'.rd F.MGT_GUARANTEE_HOLD_VECTORS = 0 ∧
          (∃ r, r.cls = 5 ∧ r.level = 1 ∧ s'.fc = reported s t r)) ∧
        sameRegsBut [.MBX_STATUS, .SEC_STATUS, .MGT_GUARANTEE] s s') ∧
      (code ≠ 0 → answered s' h 9 (natLe 4 code) ∧ s'.sec = s.sec ∧ s'.fc = s.fc ∧ sameRegsBut [.MBX_STATUS] s s') ∧
      s' = { s with now := s'.now, regs := s'.regs, host := s'.host, sec := s'.sec, fc := s'.fc }) ∧
  (∀ (s : State) (t : Nat) (h : MbxHdr), takes s h → s.mbxCheck h { feat := some 3, mgmt := true } = none →
    ∃ s', exec (.debugLock t h) s = .next s' ∧ answered s' h 0 [] ∧ s'.rd F.SEC_STATUS_DEBUG_SCOPE = 0 ∧
      (∀ (f : Fld) (i j : Nat), f.reg ≠ .MBX_STATUS → fkey f i j ≠ fkey F.SEC_STATUS_DEBUG_SCOPE → s'.rd f i j = s.rd f i j) ∧
      s' = { s with now := s'.now, regs := s'.regs, host := s'.host }) ∧
  (∀ (s : State) (t mask : Nat) (record : Bytes) (h : MbxHdr), takes s h → record.length = 2833 →
    s.mbxCheck h { feat := some 3, mgmt := true } = none → mask = leAt record 0 1 → mask < 16 → allZero (slice record 5 8) = true →
    s.blockVerifies record 1 (fun k => decide (k < 4) && !mask.testBit k) = true → (s.sec.flash.revoked ||| mask) % 16 ≠ 15 →
    ∃ s', exec (.rootRevoke t h record) s = .next s' ∧ answered s' h 0 [] ∧
      s'.sec = { s.sec with flash := { s.sec.flash with revoked := s.sec.flash.revoked ||| mask } } ∧ sameRegsBut [.MBX_STATUS] s s' ∧
      s' = { s with now := s'.now, regs := s'.regs, host := s'.host, sec := s'.sec }) ∧
  (∀ (s : State) (t mask code : Nat) (record : Bytes) (h : MbxHdr), takes s h → record.length = 2833 →
    s.mbxCheck h { feat := some 3, mgmt := true } = none → mask = leAt record 0 1 →
    ((code = 4 ∧ s.blockVerifies record 1 (fun k => decide (k < 4) && !mask.testBit k) = false) ∨
      (code = 7 ∧ s.blockVerifies record 1 (fun k => decide (k < 4) && !mask.testBit k) = true ∧ (s.sec.flash.revoked ||| mask) % 16 = 15) ∨
      (code = 8 ∧ s.blockVerifies record 1 (fun k => decide (k < 4) && !mask.testBit k) = true ∧ (s.sec.flash.revoked ||| mask) % 16 ≠ 15 ∧
        (16 ≤ mask ∨ allZero (slice record 5 8) = false))) →
    ∃ s', exec (.rootRevoke t h record) s = .next s' ∧ answered s' h 9 (natLe 4 code) ∧ sameRegsBut [.MBX_STATUS] s s' ∧
      s' = { s with now := s'.now, regs := s'.regs, host := s'.host }) ∧
  (∀ (s s₁ : State) (t p addr len : Nat) (b : Bytes) (h : MbxHdr), takes s h → p < 16 → len ≤ 262144 →
    s.mbxCheck h { feat := some 0, mgmt := true, stage := stDome } = none → (s.tick t).devRead 4 0x58 p addr len = (none, b, false, s₁) →
    s₁.patchCheck b = none → s₁.asleepOf (leAt b 14 1) = none →
    ∃ s', exec (.patchApply t h p addr len) s = .next s' ∧ answered s' h 0 [] ∧
      s'.img.act = some ((s.img.act.getD (parseImage b)).patched (parseImage b)) ∧
      s'.rd F.MGT_PATCH_SEQ_SEQ (parseImage b).hdr.patchPart = (parseImage b).hdr.patchSeq % 2 ^ 32 ∧
      s'.rd F.MGT_PATCH_SEQ_APPLIED (parseImage b).hdr.patchPart =
        counted F.MGT_PATCH_SEQ_APPLIED (s.rd F.MGT_PATCH_SEQ_APPLIED (parseImage b).hdr.patchPart) 1 ∧
      s'.rd F.MGT_IMAGE_STATUS_RESULT = 0 ∧ s'.img.patchChain = shake256 (s.img.patchChain ++ shake256 (imgMsg b)) ∧ s'.sec = s.sec ∧
      sameMem s s') ∧
  (∀ (s s₁ : State) (t p addr len : Nat) (b : Bytes) (e : ImgErr) (h : MbxHdr), takes s h → p < 16 → len ≤ 262144 →
    s.mbxCheck h { feat := some 0, mgmt := true, stage := stDome } = none → (s.tick t).devRead 4 0x58 p addr len = (none, b, false, s₁) →
    s₁.patchCheck b = some e →
    ∃ s', exec (.patchApply t h p addr len) s = .next s' ∧ answered s' h 9 (natLe 4 e.1) ∧ s'.img = s.img ∧
      s'.rd F.MGT_IMAGE_STATUS_RESULT = e.1 % 256 ∧ sameRegsBut [.MBX_STATUS, .MGT_IMAGE_STATUS] s₁ s' ∧ sameMem s s') ∧
  (∀ (s s₁ : State) (t p addr len g : Nat) (b : Bytes) (h : MbxHdr), takes s h → p < 16 → len ≤ 262144 →
    s.mbxCheck h { feat := some 0, mgmt := true, stage := stDome } = none → (s.tick t).devRead 4 0x58 p addr len = (none, b, false, s₁) →
    s₁.patchCheck b = none → s₁.asleepOf (leAt b 14 1) = some g →
    ∃ s', exec (.patchApply t h p addr len) s = .next s' ∧ s'.rd F.MBX_STATUS_BUSY h.m = 1 ∧ s'.img = s.img ∧
      aget s'.host.resps h.m = aget s.host.resps h.m ∧ s'.pwr.held = s.pwr.held ++ [(g, .patch h p addr len)] ∧ sameMem s s') ∧
  (∀ (s s₁ : State) (t p addr len : Nat) (b : Bytes) (c : Option Nat) (bad : Bool) (h : MbxHdr), takes s h → p < 16 → len ≤ 262144 →
    s.mbxCheck h { feat := some 0, mgmt := true, stage := stDome } = none → (s.tick t).devRead 4 0x58 p addr len = (c, b, bad, s₁) →
    (c ≠ none ∨ bad = true) →
    ∃ s', exec (.patchApply t h p addr len) s = .next s' ∧ answered s' h 9 (natLe 4 1) ∧ s'.img = s.img ∧
      s'.rd F.MGT_IMAGE_STATUS_RESULT = 1 ∧ sameMem s s')

/-- No counter in flash ever decreases. Whatever the command and the state, a next state holds no smaller FW_SV, IMG_SV, PATCH_SV, TRIM_SV,
OWNER_EPOCH, DEBUG_CTR or SIG_BLOCK, and every root that was revoked stays revoked. (R465) -/
def Obligations.MonotonicCounters : Prop :=
  ∀ (c : Instr) (s s' : State), exec c s = .next s' →
    s.sec.flash.fwSv ≤ s'.sec.flash.fwSv ∧ s.sec.flash.imgSv ≤ s'.sec.flash.imgSv ∧ s.sec.flash.patchSv ≤ s'.sec.flash.patchSv ∧
    s.sec.flash.trimSv ≤ s'.sec.flash.trimSv ∧ s.sec.flash.ownerEpoch ≤ s'.sec.flash.ownerEpoch ∧
    s.sec.flash.debugCtr ≤ s'.sec.flash.debugCtr ∧ s.sec.flash.sigBlock ≤ s'.sec.flash.sigBlock ∧
    (∀ k, s.sec.flash.revoked.testBit k = true → s'.sec.flash.revoked.testBit k = true)
end

