-- ==== Sys2Proof/Laws/Regs.lean ====
section
/-!
SUPPORT. Sys2Proof/Laws/Regs.lean: what a write of a register field does to every field, and to the rest of the state.
-/

namespace Sys2Proof.Machine

/-! ### The field map -/

theorem fget_fset_same (m : List (FKey × Nat)) (k : FKey) (v : Nat) : fget (fset m k v) k = some v := by
  induction m with
  | nil => simp [fset, fget]
  | cons e m ih =>
    unfold fset
    split
    · simp [fget]
    · split
      · simp [fget]
      · simp [fget, *]

theorem fget_fset_other (m : List (FKey × Nat)) (k k' : FKey) (v : Nat) (h : k' ≠ k) : fget (fset m k v) k' = fget m k' := by
  induction m with
  | nil => simp [fset, fget, Ne.symm h]
  | cons e m ih =>
    obtain ⟨ke, ve⟩ := e
    unfold fset
    split
    · rename_i he; subst he; simp [fget, Ne.symm h]
    · split
      · simp [fget, Ne.symm h]
      · simp [fget, ih]

theorem fget_fdel_same (m : List (FKey × Nat)) (k : FKey) : fget (fdel m k) k = none := by
  induction m with
  | nil => rfl
  | cons e m ih =>
    obtain ⟨ke, ve⟩ := e
    unfold fdel at ih ⊢
    by_cases he : ke = k <;> simp_all [fget]

theorem fget_fdel_other (m : List (FKey × Nat)) (k k' : FKey) (h : k' ≠ k) : fget (fdel m k) k' = fget m k' := by
  induction m with
  | nil => rfl
  | cons e m ih =>
    obtain ⟨ke, ve⟩ := e
    unfold fdel at ih ⊢
    by_cases he : ke = k
    · subst he; simp_all [fget, Ne.symm h]
    · simp_all [fget]

/-! ### Fields -/

/-- A field reads back what was written to it, cut to its width. -/
theorem State.rd_wr_same (s : State) (f : Fld) (v i j : Nat) : (s.wr f v i j).rd f i j = v % 2 ^ f.width := by
  unfold State.wr State.rd
  by_cases h : v % 2 ^ f.width = f.rst
  · simp [h, fget_fdel_same]
  · simp [h, fget_fset_same]

/-- A write of one field leaves every field at another place unchanged. -/
theorem State.rd_wr_other (s : State) (f g : Fld) (v i j i' j' : Nat)
    (h : (⟨g.reg, i', j', g.lsb⟩ : FKey) ≠ ⟨f.reg, i, j, f.lsb⟩) : (s.wr f v i j).rd g i' j' = s.rd g i' j' := by
  unfold State.wr State.rd
  split
  · simp [fget_fdel_other _ _ _ h]
  · simp [fget_fset_other _ _ _ _ h]

/-- A write of one field leaves every field of another register unchanged. -/
theorem State.rd_wr_reg (s : State) (f g : Fld) (v i j i' j' : Nat) (h : g.reg ≠ f.reg) :
    (s.wr f v i j).rd g i' j' = s.rd g i' j' :=
  s.rd_wr_other f g v i j i' j' (fun e => h (congrArg FKey.reg e))

/-- A write of one field leaves every other field of its instance unchanged. -/
theorem State.rd_wr_lsb (s : State) (f g : Fld) (v i j i' j' : Nat) (h : g.lsb ≠ f.lsb) :
    (s.wr f v i j).rd g i' j' = s.rd g i' j' :=
  s.rd_wr_other f g v i j i' j' (fun e => h (congrArg FKey.lsb e))

/-- A write of a field leaves the fields of other instances unchanged. -/
theorem State.rd_wr_inst (s : State) (f g : Fld) (v i j i' j' : Nat) (h : i' ≠ i ∨ j' ≠ j) :
    (s.wr f v i j).rd g i' j' = s.rd g i' j' := by
  apply State.rd_wr_other
  intro e
  have h1 := congrArg FKey.i e
  have h2 := congrArg FKey.j e
  simp at h1 h2
  omega

/-- A field of one bit reads 1 after a write of a truth value exactly where it is true. -/
theorem State.on_wrB_same (s : State) (f : Fld) (v : Bool) (i j : Nat) (h : f.width = 1) : (s.wrB f v i j).on f i j = v := by
  unfold State.wrB State.on
  rw [State.rd_wr_same, h]
  cases v <;> simp

/-- A counter field after an event: one more, saturating (R8). -/
theorem State.rd_inc_same (s : State) (f : Fld) (i j n : Nat) :
    (s.inc f i j n).rd f i j = min (s.rd f i j + n) (2 ^ f.width - 1) := by
  unfold State.inc
  rw [State.rd_wr_same]
  apply Nat.mod_eq_of_lt
  have : 0 < 2 ^ f.width := Nat.two_pow_pos _
  omega

theorem State.rd_inc_reg (s : State) (f g : Fld) (i j n i' j' : Nat) (h : g.reg ≠ f.reg) :
    (s.inc f i j n).rd g i' j' = s.rd g i' j' := s.rd_wr_reg f g _ i j i' j' h

end Sys2Proof.Machine
end

