-- ==== Sys2Proof/Laws/Mailbox.lean ====
section
/-!
SUPPORT. Sys2Proof/Laws/Mailbox.lean: what a mailbox does with a request that it takes, and what a response leaves.
-/

namespace Sys2Proof.Machine

/-- A command whose units exist answers a next state. -/
@[simp] theorem inst_true (s : State) : inst true s = .next s := rfl

/-- A command that names a unit the 9T does not have faults. -/
@[simp] theorem inst_false (s : State) : inst false s = .fault .noSuchInstance := rfl

/-- A mailbox that takes a request serves it (R314, R324). -/
theorem State.mbx_takes {s : State} {h : MbxHdr} (w : takes s h) (i : Instr) (serve : State → State) : s.mbx i h serve = serve s := by
  obtain ⟨_, fw, dead, go, busy, restart⟩ := w
  have e : s.sec.fw.isNone = false := by
    cases x : s.sec.fw <;> simp [x] at fw ⊢
  unfold State.mbx
  simp [go, busy, restart, dead, e]

/-- Raising interrupt vectors changes no register field. -/
@[simp] theorem State.rd_vec (s : State) (fn : Fn) (v : Nat) (f : Fld) (i j : Nat) : (s.vec fn v).rd f i j = s.rd f i j := rfl

@[simp] theorem State.rd_mbxVector (s : State) (fn : Fn) (m : Nat) (f : Fld) (i j : Nat) : (s.mbxVector fn m).rd f i j = s.rd f i j := by
  unfold State.mbxVector
  split <;> split <;> rfl

/-- An association list reads what was last set. -/
theorem aget_aset_same {α : Type} (l : List (Nat × α)) (k : Nat) (v : α) : aget (aset l k v) k = some v := by
  induction l with
  | nil => simp [aset, aget]
  | cons e l ih =>
    unfold aset
    split
    · simp [aget]
    · split
      · simp [aget]
      · next h _ => simp [aget, ih]; omega

/-- Setting one key leaves every other. -/
theorem aget_aset_other {α : Type} (l : List (Nat × α)) (k k' : Nat) (v : α) (h : k' ≠ k) : aget (aset l k v) k' = aget l k' := by
  induction l with
  | nil => simp [aset, aget, Ne.symm h]
  | cons e l ih =>
    unfold aset
    split
    · next e => simp [aget, e, Ne.symm h]
    · split
      · simp [aget, Ne.symm h]
      · simp [aget, ih]

/-- Raising interrupt vectors leaves every response. -/
@[simp] theorem State.resps_vec (s : State) (fn : Fn) (v : Nat) : (s.vec fn v).host.resps = s.host.resps := by
  unfold State.vec HostSt.raised
  dsimp only
  split <;> rfl

@[simp] theorem State.resps_mbxVector (s : State) (fn : Fn) (m : Nat) : (s.mbxVector fn m).host.resps = s.host.resps := by
  unfold State.mbxVector
  split <;> split <;> simp

/-- What a response leaves: its status and payload in the buffer, DONE set and BUSY clear (R314, R315). -/
theorem State.answered_respond (s : State) (h : MbxHdr) (status : Nat) (data : Bytes) : answered (s.respond h status data) h status data := by
  refine ⟨?_, ?_, ?_⟩
  · simp [State.respond, State.wr, aget_aset_same]
  · simp only [State.respond, State.rd_mbxVector]
    exact State.rd_wr_same _ F.MBX_STATUS_DONE _ _ _
  · simp only [State.respond, State.rd_mbxVector]
    rw [State.rd_wr_lsb _ _ _ _ _ _ _ _ (by decide)]
    exact State.rd_wr_same _ F.MBX_STATUS_BUSY _ _ _

end Sys2Proof.Machine
end

