-- ==== Sys2Proof/Laws/Memory.lean ====
section
/-!
SUPPORT. Sys2Proof/Laws/Memory.lean: the canonical form of memory is kept by every memory operation, and a byte reads as it was last written.
-/

namespace Sys2Proof.Machine

/-! ### The canonical form -/

theorem memSorted_mono {m : List Host.Cell} {lo lo' : Nat} (h : lo ≤ lo') (w : memSorted lo' m = true) : memSorted lo m = true := by
  cases m with
  | nil => rfl
  | cons c m =>
    obtain ⟨a, v⟩ := c
    simp only [memSorted, Bool.and_eq_true, decide_eq_true_eq] at w ⊢
    exact ⟨⟨by omega, w.1.2⟩, w.2⟩

theorem memSorted_memPut (m : List Host.Cell) (a : Nat) (v : Byte) (lo : Nat) (h : lo ≤ a) (w : memSorted lo m = true) :
    memSorted lo (memPut m a v) = true := by
  induction m generalizing lo with
  | nil =>
    unfold memPut
    split <;> simp_all [memSorted]
  | cons c m ih =>
    obtain ⟨a', v'⟩ := c
    simp only [memSorted, Bool.and_eq_true, decide_eq_true_eq] at w
    unfold memPut
    split
    · split
      · exact memSorted_mono (by omega) w.2
      · subst_vars
        simp only [memSorted, Bool.and_eq_true, decide_eq_true_eq]
        exact ⟨⟨h, by assumption⟩, w.2⟩
    · split
      · split
        · simp only [memSorted, Bool.and_eq_true, decide_eq_true_eq]
          exact w
        · simp only [memSorted, Bool.and_eq_true, decide_eq_true_eq]
          exact ⟨⟨h, by assumption⟩, ⟨⟨by omega, w.1.2⟩, w.2⟩⟩
      · simp only [memSorted, Bool.and_eq_true, decide_eq_true_eq]
        exact ⟨w.1, ih (a' + 1) (by omega) w.2⟩

/-- Storing a byte keeps the canonical form. -/
theorem wf_memPut {m : List Host.Cell} (a : Nat) (v : Byte) (w : Memory.wf m = true) : Memory.wf (memPut m a v) = true :=
  memSorted_memPut m a v 0 (Nat.zero_le _) w

/-- Storing bytes one after another keeps the canonical form. -/
theorem wf_memPutAll {m : List Host.Cell} (a : Nat) (b : Bytes) (w : Memory.wf m = true) : Memory.wf (memPutAll m a b) = true := by
  induction b generalizing m a with
  | nil => exact w
  | cons x b ih => exact ih (a + 1) (wf_memPut a x w)

/-- Storing a list of keyed bytes keeps the canonical form. -/
theorem wf_foldl_memPut {m : List Host.Cell} (l : List (Nat × Byte)) (w : Memory.wf m = true) :
    Memory.wf (l.foldl (fun m e => memPut m e.1 e.2) m) = true := by
  induction l generalizing m with
  | nil => exact w
  | cons e l ih => exact ih (wf_memPut e.1 e.2 w)

theorem memSorted_filter (p : Host.Cell → Bool) (m : List Host.Cell) (lo : Nat) (w : memSorted lo m = true) :
    memSorted lo (m.filter p) = true := by
  induction m generalizing lo with
  | nil => rfl
  | cons c m ih =>
    obtain ⟨a, v⟩ := c
    simp only [memSorted, Bool.and_eq_true, decide_eq_true_eq] at w
    rw [List.filter_cons]
    split
    · simp only [memSorted, Bool.and_eq_true, decide_eq_true_eq]
      exact ⟨w.1, ih (a + 1) w.2⟩
    · exact ih lo (memSorted_mono (by omega) w.2)

/-- Forgetting cells keeps the canonical form. -/
theorem wf_filter {m : List Host.Cell} (p : Host.Cell → Bool) (w : Memory.wf m = true) : Memory.wf (m.filter p) = true :=
  memSorted_filter p m 0 w

theorem State.wf_wrByte {s : State} (a : Nat) (v : Byte) (w : Memory.wf s.mem = true) : Memory.wf (s.wrByte a v).mem = true := wf_memPut a v w

theorem State.wf_wrBytes {s : State} (a : Nat) (b : Bytes) (w : Memory.wf s.mem = true) : Memory.wf (s.wrBytes a b).mem = true :=
  wf_memPutAll a b w

theorem State.wf_wrNat {s : State} (a n v : Nat) (w : Memory.wf s.mem = true) : Memory.wf (s.wrNat a n v).mem = true := wf_memPutAll a _ w

theorem State.wf_forget {s : State} (lo hi : Nat) (w : Memory.wf s.mem = true) : Memory.wf (s.forget lo hi).mem = true := wf_filter _ w

/-! ### Reads after writes -/

theorem memGet_memPut_other (m : List Host.Cell) (a a' : Nat) (v : Byte) (h : a' ≠ a) : memGet (memPut m a v) a' = memGet m a' := by
  induction m with
  | nil =>
    unfold memPut
    split <;> simp [memGet, Ne.symm h]
  | cons c m ih =>
    obtain ⟨x, y⟩ := c
    unfold memPut
    split
    · subst_vars
      split <;> simp [memGet, Ne.symm h]
    · split
      · split <;> simp [memGet, Ne.symm h]
      · simp [memGet, ih]

/-- Nothing below `lo` is listed in a memory whose addresses rise from `lo`. -/
theorem memGet_low (m : List Host.Cell) (lo a : Nat) (w : memSorted lo m = true) (h : a < lo) : memGet m a = 0 := by
  induction m generalizing lo with
  | nil => rfl
  | cons c m ih =>
    obtain ⟨x, y⟩ := c
    simp only [memSorted, Bool.and_eq_true, decide_eq_true_eq] at w
    have hx : x ≠ a := by omega
    simp only [memGet, hx, if_false]
    exact ih (x + 1) w.2 (by omega)

theorem memGet_memPut_sorted (m : List Host.Cell) (a : Nat) (v : Byte) (lo : Nat) (w : memSorted lo m = true) :
    memGet (memPut m a v) a = v := by
  induction m generalizing lo with
  | nil =>
    unfold memPut
    split <;> simp_all [memGet]
  | cons c m ih =>
    obtain ⟨x, y⟩ := c
    simp only [memSorted, Bool.and_eq_true, decide_eq_true_eq] at w
    unfold memPut
    split
    · subst_vars
      split
      · rename_i hv; rw [memGet_low m (x + 1) x w.2 (by omega), hv]
      · simp [memGet]
    · rename_i hne
      split
      · split
        · rename_i hv
          simp only [memGet, hne, if_false]
          rw [memGet_low m (x + 1) a w.2 (by omega), hv]
        · simp [memGet]
      · simp only [memGet, hne, if_false]
        exact ih (x + 1) w.2

/-- A byte reads as it was stored. -/
theorem memGet_memPut_same {m : List Host.Cell} (a : Nat) (v : Byte) (w : Memory.wf m = true) : memGet (memPut m a v) a = v :=
  memGet_memPut_sorted m a v 0 w

/-- Bytes stored from `a` on leave every byte outside them unchanged. -/
theorem memGet_memPutAll_other (m : List Host.Cell) (a : Nat) (b : Bytes) (a' : Nat) (h : a' < a ∨ a + b.length ≤ a') :
    memGet (memPutAll m a b) a' = memGet m a' := by
  induction b generalizing m a with
  | nil => rfl
  | cons x b ih =>
    simp only [List.length_cons] at h
    unfold memPutAll
    rw [ih _ (a + 1) (by omega), memGet_memPut_other _ _ _ _ (by omega)]

theorem State.rdByte_wrBytes_other (s : State) (a : Nat) (b : Bytes) (a' : Nat) (h : a' < a ∨ a + b.length ≤ a') :
    (s.wrBytes a b).rdByte a' = s.rdByte a' := memGet_memPutAll_other s.mem a b a' h

theorem length_natLe (n v : Nat) : (natLe n v).length = n := by
  induction n generalizing v with
  | zero => rfl
  | succ n ih => simp [natLe, ih]

theorem leNat_natLe (n v : Nat) : leNat (natLe n v) = v % 256 ^ n := by
  induction n generalizing v with
  | zero => simp [natLe, leNat, Nat.mod_one]
  | succ n ih =>
    simp only [natLe, leNat, ih, BitVec.toNat_ofNat]
    have h : (256 : Nat) ^ (n + 1) = 256 * 256 ^ n := by rw [pow_succ, Nat.mul_comm]
    rw [h, Nat.mod_mul]

/-! ### The operations over device memory -/

/-- A page-map update keeps the canonical form. -/
theorem State.wf_pmUpdate {s : State} (v : Nat) (f : Nat → Nat) (w : Memory.wf s.mem = true) : Memory.wf (s.pmUpdate v f).mem = true :=
  State.wf_wrNat _ _ _ w

end Sys2Proof.Machine
end

