-- ==== Sys2Proof/Laws/State.lean ====
section
/-!
SUPPORT. Sys2Proof/Laws/State.lean: what each update of the state leaves unchanged, field by field.
-/

namespace Sys2Proof.Machine

/-! ### State.wr -/

@[simp] theorem State.wr_pending (s : State) (f : Fld) (v i j : Nat) : (s.wr f v i j).pending = s.pending := rfl
@[simp] theorem State.wr_now (s : State) (f : Fld) (v i j : Nat) : (s.wr f v i j).now = s.now := rfl
@[simp] theorem State.wr_mem (s : State) (f : Fld) (v i j : Nat) : (s.wr f v i j).mem = s.mem := rfl
@[simp] theorem State.wr_freeCtr (s : State) (f : Fld) (v i j : Nat) : (s.wr f v i j).freeCtr = s.freeCtr := rfl
@[simp] theorem State.wr_memx (s : State) (f : Fld) (v i j : Nat) : (s.wr f v i j).memx = s.memx := rfl
@[simp] theorem State.wr_fc (s : State) (f : Fld) (v i j : Nat) : (s.wr f v i j).fc = s.fc := rfl
@[simp] theorem State.wr_pwr (s : State) (f : Fld) (v i j : Nat) : (s.wr f v i j).pwr = s.pwr := rfl
@[simp] theorem State.wr_gal (s : State) (f : Fld) (v i j : Nat) : (s.wr f v i j).gal = s.gal := rfl
@[simp] theorem State.wr_snp (s : State) (f : Fld) (v i j : Nat) : (s.wr f v i j).snp = s.snp := rfl
@[simp] theorem State.wr_slots (s : State) (f : Fld) (v i j : Nat) : (s.wr f v i j).slots = s.slots := rfl
@[simp] theorem State.wr_restores (s : State) (f : Fld) (v i j : Nat) : (s.wr f v i j).restores = s.restores := rfl
@[simp] theorem State.wr_img (s : State) (f : Fld) (v i j : Nat) : (s.wr f v i j).img = s.img := rfl
@[simp] theorem State.wr_sec (s : State) (f : Fld) (v i j : Nat) : (s.wr f v i j).sec = s.sec := rfl
@[simp] theorem State.wr_host (s : State) (f : Fld) (v i j : Nat) : (s.wr f v i j).host = s.host := rfl
@[simp] theorem State.wr_ldir (s : State) (f : Fld) (v i j : Nat) : (s.wr f v i j).ldir = s.ldir := rfl
@[simp] theorem State.wr_ctxs (s : State) (f : Fld) (v i j : Nat) : (s.wr f v i j).ctxs = s.ctxs := rfl
@[simp] theorem State.wr_lastCtx (s : State) (f : Fld) (v i j : Nat) : (s.wr f v i j).lastCtx = s.lastCtx := rfl
@[simp] theorem State.wr_jobs (s : State) (f : Fld) (v i j : Nat) : (s.wr f v i j).jobs = s.jobs := rfl
@[simp] theorem State.wr_jobCtr (s : State) (f : Fld) (v i j : Nat) : (s.wr f v i j).jobCtr = s.jobCtr := rfl
@[simp] theorem State.wr_echoes (s : State) (f : Fld) (v i j : Nat) : (s.wr f v i j).echoes = s.echoes := rfl
@[simp] theorem State.wr_pas (s : State) (f : Fld) (v i j : Nat) : (s.wr f v i j).pas = s.pas := rfl
@[simp] theorem State.wr_rings (s : State) (f : Fld) (v i j : Nat) : (s.wr f v i j).rings = s.rings := rfl
@[simp] theorem State.wr_waits (s : State) (f : Fld) (v i j : Nat) : (s.wr f v i j).waits = s.waits := rfl
@[simp] theorem State.wr_beats (s : State) (f : Fld) (v i j : Nat) : (s.wr f v i j).beats = s.beats := rfl
@[simp] theorem State.wr_outBeats (s : State) (f : Fld) (v i j : Nat) : (s.wr f v i j).outBeats = s.outBeats := rfl
@[simp] theorem State.wr_atu (s : State) (f : Fld) (v i j : Nat) : (s.wr f v i j).atu = s.atu := rfl
@[simp] theorem State.wr_fab (s : State) (f : Fld) (v i j : Nat) : (s.wr f v i j).fab = s.fab := rfl
@[simp] theorem State.wr_led (s : State) (f : Fld) (v i j : Nat) : (s.wr f v i j).led = s.led := rfl
@[simp] theorem State.wr_curSteps (s : State) (f : Fld) (v i j : Nat) : (s.wr f v i j).curSteps = s.curSteps := rfl
@[simp] theorem State.wr_advances (s : State) (f : Fld) (v i j : Nat) : (s.wr f v i j).advances = s.advances := rfl
@[simp] theorem State.wr_hng (s : State) (f : Fld) (v i j : Nat) : (s.wr f v i j).hng = s.hng := rfl
@[simp] theorem State.wr_dumps (s : State) (f : Fld) (v i j : Nat) : (s.wr f v i j).dumps = s.dumps := rfl
@[simp] theorem State.wr_dumpSeq (s : State) (f : Fld) (v i j : Nat) : (s.wr f v i j).dumpSeq = s.dumpSeq := rfl

/-! ### State.wrB -/

@[simp] theorem State.wrB_pending (s : State) (f : Fld) (v : Bool) (i j : Nat) : (s.wrB f v i j).pending = s.pending := rfl
@[simp] theorem State.wrB_now (s : State) (f : Fld) (v : Bool) (i j : Nat) : (s.wrB f v i j).now = s.now := rfl
@[simp] theorem State.wrB_mem (s : State) (f : Fld) (v : Bool) (i j : Nat) : (s.wrB f v i j).mem = s.mem := rfl
@[simp] theorem State.wrB_freeCtr (s : State) (f : Fld) (v : Bool) (i j : Nat) : (s.wrB f v i j).freeCtr = s.freeCtr := rfl
@[simp] theorem State.wrB_memx (s : State) (f : Fld) (v : Bool) (i j : Nat) : (s.wrB f v i j).memx = s.memx := rfl
@[simp] theorem State.wrB_fc (s : State) (f : Fld) (v : Bool) (i j : Nat) : (s.wrB f v i j).fc = s.fc := rfl
@[simp] theorem State.wrB_pwr (s : State) (f : Fld) (v : Bool) (i j : Nat) : (s.wrB f v i j).pwr = s.pwr := rfl
@[simp] theorem State.wrB_gal (s : State) (f : Fld) (v : Bool) (i j : Nat) : (s.wrB f v i j).gal = s.gal := rfl
@[simp] theorem State.wrB_snp (s : State) (f : Fld) (v : Bool) (i j : Nat) : (s.wrB f v i j).snp = s.snp := rfl
@[simp] theorem State.wrB_slots (s : State) (f : Fld) (v : Bool) (i j : Nat) : (s.wrB f v i j).slots = s.slots := rfl
@[simp] theorem State.wrB_restores (s : State) (f : Fld) (v : Bool) (i j : Nat) : (s.wrB f v i j).restores = s.restores := rfl
@[simp] theorem State.wrB_img (s : State) (f : Fld) (v : Bool) (i j : Nat) : (s.wrB f v i j).img = s.img := rfl
@[simp] theorem State.wrB_sec (s : State) (f : Fld) (v : Bool) (i j : Nat) : (s.wrB f v i j).sec = s.sec := rfl
@[simp] theorem State.wrB_host (s : State) (f : Fld) (v : Bool) (i j : Nat) : (s.wrB f v i j).host = s.host := rfl
@[simp] theorem State.wrB_ldir (s : State) (f : Fld) (v : Bool) (i j : Nat) : (s.wrB f v i j).ldir = s.ldir := rfl
@[simp] theorem State.wrB_ctxs (s : State) (f : Fld) (v : Bool) (i j : Nat) : (s.wrB f v i j).ctxs = s.ctxs := rfl
@[simp] theorem State.wrB_lastCtx (s : State) (f : Fld) (v : Bool) (i j : Nat) : (s.wrB f v i j).lastCtx = s.lastCtx := rfl
@[simp] theorem State.wrB_jobs (s : State) (f : Fld) (v : Bool) (i j : Nat) : (s.wrB f v i j).jobs = s.jobs := rfl
@[simp] theorem State.wrB_jobCtr (s : State) (f : Fld) (v : Bool) (i j : Nat) : (s.wrB f v i j).jobCtr = s.jobCtr := rfl
@[simp] theorem State.wrB_echoes (s : State) (f : Fld) (v : Bool) (i j : Nat) : (s.wrB f v i j).echoes = s.echoes := rfl
@[simp] theorem State.wrB_pas (s : State) (f : Fld) (v : Bool) (i j : Nat) : (s.wrB f v i j).pas = s.pas := rfl
@[simp] theorem State.wrB_rings (s : State) (f : Fld) (v : Bool) (i j : Nat) : (s.wrB f v i j).rings = s.rings := rfl
@[simp] theorem State.wrB_waits (s : State) (f : Fld) (v : Bool) (i j : Nat) : (s.wrB f v i j).waits = s.waits := rfl
@[simp] theorem State.wrB_beats (s : State) (f : Fld) (v : Bool) (i j : Nat) : (s.wrB f v i j).beats = s.beats := rfl
@[simp] theorem State.wrB_outBeats (s : State) (f : Fld) (v : Bool) (i j : Nat) : (s.wrB f v i j).outBeats = s.outBeats := rfl
@[simp] theorem State.wrB_atu (s : State) (f : Fld) (v : Bool) (i j : Nat) : (s.wrB f v i j).atu = s.atu := rfl
@[simp] theorem State.wrB_fab (s : State) (f : Fld) (v : Bool) (i j : Nat) : (s.wrB f v i j).fab = s.fab := rfl
@[simp] theorem State.wrB_led (s : State) (f : Fld) (v : Bool) (i j : Nat) : (s.wrB f v i j).led = s.led := rfl
@[simp] theorem State.wrB_curSteps (s : State) (f : Fld) (v : Bool) (i j : Nat) : (s.wrB f v i j).curSteps = s.curSteps := rfl
@[simp] theorem State.wrB_advances (s : State) (f : Fld) (v : Bool) (i j : Nat) : (s.wrB f v i j).advances = s.advances := rfl
@[simp] theorem State.wrB_hng (s : State) (f : Fld) (v : Bool) (i j : Nat) : (s.wrB f v i j).hng = s.hng := rfl
@[simp] theorem State.wrB_dumps (s : State) (f : Fld) (v : Bool) (i j : Nat) : (s.wrB f v i j).dumps = s.dumps := rfl
@[simp] theorem State.wrB_dumpSeq (s : State) (f : Fld) (v : Bool) (i j : Nat) : (s.wrB f v i j).dumpSeq = s.dumpSeq := rfl

/-! ### State.inc -/

@[simp] theorem State.inc_pending (s : State) (f : Fld) (i j n : Nat) : (s.inc f i j n).pending = s.pending := rfl
@[simp] theorem State.inc_now (s : State) (f : Fld) (i j n : Nat) : (s.inc f i j n).now = s.now := rfl
@[simp] theorem State.inc_mem (s : State) (f : Fld) (i j n : Nat) : (s.inc f i j n).mem = s.mem := rfl
@[simp] theorem State.inc_freeCtr (s : State) (f : Fld) (i j n : Nat) : (s.inc f i j n).freeCtr = s.freeCtr := rfl
@[simp] theorem State.inc_memx (s : State) (f : Fld) (i j n : Nat) : (s.inc f i j n).memx = s.memx := rfl
@[simp] theorem State.inc_fc (s : State) (f : Fld) (i j n : Nat) : (s.inc f i j n).fc = s.fc := rfl
@[simp] theorem State.inc_pwr (s : State) (f : Fld) (i j n : Nat) : (s.inc f i j n).pwr = s.pwr := rfl
@[simp] theorem State.inc_gal (s : State) (f : Fld) (i j n : Nat) : (s.inc f i j n).gal = s.gal := rfl
@[simp] theorem State.inc_snp (s : State) (f : Fld) (i j n : Nat) : (s.inc f i j n).snp = s.snp := rfl
@[simp] theorem State.inc_slots (s : State) (f : Fld) (i j n : Nat) : (s.inc f i j n).slots = s.slots := rfl
@[simp] theorem State.inc_restores (s : State) (f : Fld) (i j n : Nat) : (s.inc f i j n).restores = s.restores := rfl
@[simp] theorem State.inc_img (s : State) (f : Fld) (i j n : Nat) : (s.inc f i j n).img = s.img := rfl
@[simp] theorem State.inc_sec (s : State) (f : Fld) (i j n : Nat) : (s.inc f i j n).sec = s.sec := rfl
@[simp] theorem State.inc_host (s : State) (f : Fld) (i j n : Nat) : (s.inc f i j n).host = s.host := rfl
@[simp] theorem State.inc_ldir (s : State) (f : Fld) (i j n : Nat) : (s.inc f i j n).ldir = s.ldir := rfl
@[simp] theorem State.inc_ctxs (s : State) (f : Fld) (i j n : Nat) : (s.inc f i j n).ctxs = s.ctxs := rfl
@[simp] theorem State.inc_lastCtx (s : State) (f : Fld) (i j n : Nat) : (s.inc f i j n).lastCtx = s.lastCtx := rfl
@[simp] theorem State.inc_jobs (s : State) (f : Fld) (i j n : Nat) : (s.inc f i j n).jobs = s.jobs := rfl
@[simp] theorem State.inc_jobCtr (s : State) (f : Fld) (i j n : Nat) : (s.inc f i j n).jobCtr = s.jobCtr := rfl
@[simp] theorem State.inc_echoes (s : State) (f : Fld) (i j n : Nat) : (s.inc f i j n).echoes = s.echoes := rfl
@[simp] theorem State.inc_pas (s : State) (f : Fld) (i j n : Nat) : (s.inc f i j n).pas = s.pas := rfl
@[simp] theorem State.inc_rings (s : State) (f : Fld) (i j n : Nat) : (s.inc f i j n).rings = s.rings := rfl
@[simp] theorem State.inc_waits (s : State) (f : Fld) (i j n : Nat) : (s.inc f i j n).waits = s.waits := rfl
@[simp] theorem State.inc_beats (s : State) (f : Fld) (i j n : Nat) : (s.inc f i j n).beats = s.beats := rfl
@[simp] theorem State.inc_outBeats (s : State) (f : Fld) (i j n : Nat) : (s.inc f i j n).outBeats = s.outBeats := rfl
@[simp] theorem State.inc_atu (s : State) (f : Fld) (i j n : Nat) : (s.inc f i j n).atu = s.atu := rfl
@[simp] theorem State.inc_fab (s : State) (f : Fld) (i j n : Nat) : (s.inc f i j n).fab = s.fab := rfl
@[simp] theorem State.inc_led (s : State) (f : Fld) (i j n : Nat) : (s.inc f i j n).led = s.led := rfl
@[simp] theorem State.inc_curSteps (s : State) (f : Fld) (i j n : Nat) : (s.inc f i j n).curSteps = s.curSteps := rfl
@[simp] theorem State.inc_advances (s : State) (f : Fld) (i j n : Nat) : (s.inc f i j n).advances = s.advances := rfl
@[simp] theorem State.inc_hng (s : State) (f : Fld) (i j n : Nat) : (s.inc f i j n).hng = s.hng := rfl
@[simp] theorem State.inc_dumps (s : State) (f : Fld) (i j n : Nat) : (s.inc f i j n).dumps = s.dumps := rfl
@[simp] theorem State.inc_dumpSeq (s : State) (f : Fld) (i j n : Nat) : (s.inc f i j n).dumpSeq = s.dumpSeq := rfl

/-! ### State.wrBit -/

@[simp] theorem State.wrBit_pending (s : State) (f : Fld) (b : Nat) (v : Bool) (i j : Nat) : (s.wrBit f b v i j).pending = s.pending := rfl
@[simp] theorem State.wrBit_now (s : State) (f : Fld) (b : Nat) (v : Bool) (i j : Nat) : (s.wrBit f b v i j).now = s.now := rfl
@[simp] theorem State.wrBit_mem (s : State) (f : Fld) (b : Nat) (v : Bool) (i j : Nat) : (s.wrBit f b v i j).mem = s.mem := rfl
@[simp] theorem State.wrBit_freeCtr (s : State) (f : Fld) (b : Nat) (v : Bool) (i j : Nat) : (s.wrBit f b v i j).freeCtr = s.freeCtr := rfl
@[simp] theorem State.wrBit_memx (s : State) (f : Fld) (b : Nat) (v : Bool) (i j : Nat) : (s.wrBit f b v i j).memx = s.memx := rfl
@[simp] theorem State.wrBit_fc (s : State) (f : Fld) (b : Nat) (v : Bool) (i j : Nat) : (s.wrBit f b v i j).fc = s.fc := rfl
@[simp] theorem State.wrBit_pwr (s : State) (f : Fld) (b : Nat) (v : Bool) (i j : Nat) : (s.wrBit f b v i j).pwr = s.pwr := rfl
@[simp] theorem State.wrBit_gal (s : State) (f : Fld) (b : Nat) (v : Bool) (i j : Nat) : (s.wrBit f b v i j).gal = s.gal := rfl
@[simp] theorem State.wrBit_snp (s : State) (f : Fld) (b : Nat) (v : Bool) (i j : Nat) : (s.wrBit f b v i j).snp = s.snp := rfl
@[simp] theorem State.wrBit_slots (s : State) (f : Fld) (b : Nat) (v : Bool) (i j : Nat) : (s.wrBit f b v i j).slots = s.slots := rfl
@[simp] theorem State.wrBit_restores (s : State) (f : Fld) (b : Nat) (v : Bool) (i j : Nat) : (s.wrBit f b v i j).restores = s.restores := rfl
@[simp] theorem State.wrBit_img (s : State) (f : Fld) (b : Nat) (v : Bool) (i j : Nat) : (s.wrBit f b v i j).img = s.img := rfl
@[simp] theorem State.wrBit_sec (s : State) (f : Fld) (b : Nat) (v : Bool) (i j : Nat) : (s.wrBit f b v i j).sec = s.sec := rfl
@[simp] theorem State.wrBit_host (s : State) (f : Fld) (b : Nat) (v : Bool) (i j : Nat) : (s.wrBit f b v i j).host = s.host := rfl
@[simp] theorem State.wrBit_ldir (s : State) (f : Fld) (b : Nat) (v : Bool) (i j : Nat) : (s.wrBit f b v i j).ldir = s.ldir := rfl
@[simp] theorem State.wrBit_ctxs (s : State) (f : Fld) (b : Nat) (v : Bool) (i j : Nat) : (s.wrBit f b v i j).ctxs = s.ctxs := rfl
@[simp] theorem State.wrBit_lastCtx (s : State) (f : Fld) (b : Nat) (v : Bool) (i j : Nat) : (s.wrBit f b v i j).lastCtx = s.lastCtx := rfl
@[simp] theorem State.wrBit_jobs (s : State) (f : Fld) (b : Nat) (v : Bool) (i j : Nat) : (s.wrBit f b v i j).jobs = s.jobs := rfl
@[simp] theorem State.wrBit_jobCtr (s : State) (f : Fld) (b : Nat) (v : Bool) (i j : Nat) : (s.wrBit f b v i j).jobCtr = s.jobCtr := rfl
@[simp] theorem State.wrBit_echoes (s : State) (f : Fld) (b : Nat) (v : Bool) (i j : Nat) : (s.wrBit f b v i j).echoes = s.echoes := rfl
@[simp] theorem State.wrBit_pas (s : State) (f : Fld) (b : Nat) (v : Bool) (i j : Nat) : (s.wrBit f b v i j).pas = s.pas := rfl
@[simp] theorem State.wrBit_rings (s : State) (f : Fld) (b : Nat) (v : Bool) (i j : Nat) : (s.wrBit f b v i j).rings = s.rings := rfl
@[simp] theorem State.wrBit_waits (s : State) (f : Fld) (b : Nat) (v : Bool) (i j : Nat) : (s.wrBit f b v i j).waits = s.waits := rfl
@[simp] theorem State.wrBit_beats (s : State) (f : Fld) (b : Nat) (v : Bool) (i j : Nat) : (s.wrBit f b v i j).beats = s.beats := rfl
@[simp] theorem State.wrBit_outBeats (s : State) (f : Fld) (b : Nat) (v : Bool) (i j : Nat) : (s.wrBit f b v i j).outBeats = s.outBeats := rfl
@[simp] theorem State.wrBit_atu (s : State) (f : Fld) (b : Nat) (v : Bool) (i j : Nat) : (s.wrBit f b v i j).atu = s.atu := rfl
@[simp] theorem State.wrBit_fab (s : State) (f : Fld) (b : Nat) (v : Bool) (i j : Nat) : (s.wrBit f b v i j).fab = s.fab := rfl
@[simp] theorem State.wrBit_led (s : State) (f : Fld) (b : Nat) (v : Bool) (i j : Nat) : (s.wrBit f b v i j).led = s.led := rfl
@[simp] theorem State.wrBit_curSteps (s : State) (f : Fld) (b : Nat) (v : Bool) (i j : Nat) : (s.wrBit f b v i j).curSteps = s.curSteps := rfl
@[simp] theorem State.wrBit_advances (s : State) (f : Fld) (b : Nat) (v : Bool) (i j : Nat) : (s.wrBit f b v i j).advances = s.advances := rfl
@[simp] theorem State.wrBit_hng (s : State) (f : Fld) (b : Nat) (v : Bool) (i j : Nat) : (s.wrBit f b v i j).hng = s.hng := rfl
@[simp] theorem State.wrBit_dumps (s : State) (f : Fld) (b : Nat) (v : Bool) (i j : Nat) : (s.wrBit f b v i j).dumps = s.dumps := rfl
@[simp] theorem State.wrBit_dumpSeq (s : State) (f : Fld) (b : Nat) (v : Bool) (i j : Nat) : (s.wrBit f b v i j).dumpSeq = s.dumpSeq := rfl

/-! ### State.dropFields -/

@[simp] theorem State.dropFields_pending (s : State) (p : FKey → Bool) : (s.dropFields p).pending = s.pending := rfl
@[simp] theorem State.dropFields_now (s : State) (p : FKey → Bool) : (s.dropFields p).now = s.now := rfl
@[simp] theorem State.dropFields_mem (s : State) (p : FKey → Bool) : (s.dropFields p).mem = s.mem := rfl
@[simp] theorem State.dropFields_freeCtr (s : State) (p : FKey → Bool) : (s.dropFields p).freeCtr = s.freeCtr := rfl
@[simp] theorem State.dropFields_memx (s : State) (p : FKey → Bool) : (s.dropFields p).memx = s.memx := rfl
@[simp] theorem State.dropFields_fc (s : State) (p : FKey → Bool) : (s.dropFields p).fc = s.fc := rfl
@[simp] theorem State.dropFields_pwr (s : State) (p : FKey → Bool) : (s.dropFields p).pwr = s.pwr := rfl
@[simp] theorem State.dropFields_gal (s : State) (p : FKey → Bool) : (s.dropFields p).gal = s.gal := rfl
@[simp] theorem State.dropFields_snp (s : State) (p : FKey → Bool) : (s.dropFields p).snp = s.snp := rfl
@[simp] theorem State.dropFields_slots (s : State) (p : FKey → Bool) : (s.dropFields p).slots = s.slots := rfl
@[simp] theorem State.dropFields_restores (s : State) (p : FKey → Bool) : (s.dropFields p).restores = s.restores := rfl
@[simp] theorem State.dropFields_img (s : State) (p : FKey → Bool) : (s.dropFields p).img = s.img := rfl
@[simp] theorem State.dropFields_sec (s : State) (p : FKey → Bool) : (s.dropFields p).sec = s.sec := rfl
@[simp] theorem State.dropFields_host (s : State) (p : FKey → Bool) : (s.dropFields p).host = s.host := rfl
@[simp] theorem State.dropFields_ldir (s : State) (p : FKey → Bool) : (s.dropFields p).ldir = s.ldir := rfl
@[simp] theorem State.dropFields_ctxs (s : State) (p : FKey → Bool) : (s.dropFields p).ctxs = s.ctxs := rfl
@[simp] theorem State.dropFields_lastCtx (s : State) (p : FKey → Bool) : (s.dropFields p).lastCtx = s.lastCtx := rfl
@[simp] theorem State.dropFields_jobs (s : State) (p : FKey → Bool) : (s.dropFields p).jobs = s.jobs := rfl
@[simp] theorem State.dropFields_jobCtr (s : State) (p : FKey → Bool) : (s.dropFields p).jobCtr = s.jobCtr := rfl
@[simp] theorem State.dropFields_echoes (s : State) (p : FKey → Bool) : (s.dropFields p).echoes = s.echoes := rfl
@[simp] theorem State.dropFields_pas (s : State) (p : FKey → Bool) : (s.dropFields p).pas = s.pas := rfl
@[simp] theorem State.dropFields_rings (s : State) (p : FKey → Bool) : (s.dropFields p).rings = s.rings := rfl
@[simp] theorem State.dropFields_waits (s : State) (p : FKey → Bool) : (s.dropFields p).waits = s.waits := rfl
@[simp] theorem State.dropFields_beats (s : State) (p : FKey → Bool) : (s.dropFields p).beats = s.beats := rfl
@[simp] theorem State.dropFields_outBeats (s : State) (p : FKey → Bool) : (s.dropFields p).outBeats = s.outBeats := rfl
@[simp] theorem State.dropFields_atu (s : State) (p : FKey → Bool) : (s.dropFields p).atu = s.atu := rfl
@[simp] theorem State.dropFields_fab (s : State) (p : FKey → Bool) : (s.dropFields p).fab = s.fab := rfl
@[simp] theorem State.dropFields_led (s : State) (p : FKey → Bool) : (s.dropFields p).led = s.led := rfl
@[simp] theorem State.dropFields_curSteps (s : State) (p : FKey → Bool) : (s.dropFields p).curSteps = s.curSteps := rfl
@[simp] theorem State.dropFields_advances (s : State) (p : FKey → Bool) : (s.dropFields p).advances = s.advances := rfl
@[simp] theorem State.dropFields_hng (s : State) (p : FKey → Bool) : (s.dropFields p).hng = s.hng := rfl
@[simp] theorem State.dropFields_dumps (s : State) (p : FKey → Bool) : (s.dropFields p).dumps = s.dumps := rfl
@[simp] theorem State.dropFields_dumpSeq (s : State) (p : FKey → Bool) : (s.dropFields p).dumpSeq = s.dumpSeq := rfl

/-! ### State.wrByte -/

@[simp] theorem State.wrByte_pending (s : State) (a : Nat) (v : Byte) : (s.wrByte a v).pending = s.pending := rfl
@[simp] theorem State.wrByte_now (s : State) (a : Nat) (v : Byte) : (s.wrByte a v).now = s.now := rfl
@[simp] theorem State.wrByte_regs (s : State) (a : Nat) (v : Byte) : (s.wrByte a v).regs = s.regs := rfl
@[simp] theorem State.wrByte_freeCtr (s : State) (a : Nat) (v : Byte) : (s.wrByte a v).freeCtr = s.freeCtr := rfl
@[simp] theorem State.wrByte_memx (s : State) (a : Nat) (v : Byte) : (s.wrByte a v).memx = s.memx := rfl
@[simp] theorem State.wrByte_fc (s : State) (a : Nat) (v : Byte) : (s.wrByte a v).fc = s.fc := rfl
@[simp] theorem State.wrByte_pwr (s : State) (a : Nat) (v : Byte) : (s.wrByte a v).pwr = s.pwr := rfl
@[simp] theorem State.wrByte_gal (s : State) (a : Nat) (v : Byte) : (s.wrByte a v).gal = s.gal := rfl
@[simp] theorem State.wrByte_snp (s : State) (a : Nat) (v : Byte) : (s.wrByte a v).snp = s.snp := rfl
@[simp] theorem State.wrByte_slots (s : State) (a : Nat) (v : Byte) : (s.wrByte a v).slots = s.slots := rfl
@[simp] theorem State.wrByte_restores (s : State) (a : Nat) (v : Byte) : (s.wrByte a v).restores = s.restores := rfl
@[simp] theorem State.wrByte_img (s : State) (a : Nat) (v : Byte) : (s.wrByte a v).img = s.img := rfl
@[simp] theorem State.wrByte_sec (s : State) (a : Nat) (v : Byte) : (s.wrByte a v).sec = s.sec := rfl
@[simp] theorem State.wrByte_host (s : State) (a : Nat) (v : Byte) : (s.wrByte a v).host = s.host := rfl
@[simp] theorem State.wrByte_ldir (s : State) (a : Nat) (v : Byte) : (s.wrByte a v).ldir = s.ldir := rfl
@[simp] theorem State.wrByte_ctxs (s : State) (a : Nat) (v : Byte) : (s.wrByte a v).ctxs = s.ctxs := rfl
@[simp] theorem State.wrByte_lastCtx (s : State) (a : Nat) (v : Byte) : (s.wrByte a v).lastCtx = s.lastCtx := rfl
@[simp] theorem State.wrByte_jobs (s : State) (a : Nat) (v : Byte) : (s.wrByte a v).jobs = s.jobs := rfl
@[simp] theorem State.wrByte_jobCtr (s : State) (a : Nat) (v : Byte) : (s.wrByte a v).jobCtr = s.jobCtr := rfl
@[simp] theorem State.wrByte_echoes (s : State) (a : Nat) (v : Byte) : (s.wrByte a v).echoes = s.echoes := rfl
@[simp] theorem State.wrByte_pas (s : State) (a : Nat) (v : Byte) : (s.wrByte a v).pas = s.pas := rfl
@[simp] theorem State.wrByte_rings (s : State) (a : Nat) (v : Byte) : (s.wrByte a v).rings = s.rings := rfl
@[simp] theorem State.wrByte_waits (s : State) (a : Nat) (v : Byte) : (s.wrByte a v).waits = s.waits := rfl
@[simp] theorem State.wrByte_beats (s : State) (a : Nat) (v : Byte) : (s.wrByte a v).beats = s.beats := rfl
@[simp] theorem State.wrByte_outBeats (s : State) (a : Nat) (v : Byte) : (s.wrByte a v).outBeats = s.outBeats := rfl
@[simp] theorem State.wrByte_atu (s : State) (a : Nat) (v : Byte) : (s.wrByte a v).atu = s.atu := rfl
@[simp] theorem State.wrByte_fab (s : State) (a : Nat) (v : Byte) : (s.wrByte a v).fab = s.fab := rfl
@[simp] theorem State.wrByte_led (s : State) (a : Nat) (v : Byte) : (s.wrByte a v).led = s.led := rfl
@[simp] theorem State.wrByte_curSteps (s : State) (a : Nat) (v : Byte) : (s.wrByte a v).curSteps = s.curSteps := rfl
@[simp] theorem State.wrByte_advances (s : State) (a : Nat) (v : Byte) : (s.wrByte a v).advances = s.advances := rfl
@[simp] theorem State.wrByte_hng (s : State) (a : Nat) (v : Byte) : (s.wrByte a v).hng = s.hng := rfl
@[simp] theorem State.wrByte_dumps (s : State) (a : Nat) (v : Byte) : (s.wrByte a v).dumps = s.dumps := rfl
@[simp] theorem State.wrByte_dumpSeq (s : State) (a : Nat) (v : Byte) : (s.wrByte a v).dumpSeq = s.dumpSeq := rfl

/-! ### State.wrBytes -/

@[simp] theorem State.wrBytes_pending (s : State) (a : Nat) (b : Bytes) : (s.wrBytes a b).pending = s.pending := rfl
@[simp] theorem State.wrBytes_now (s : State) (a : Nat) (b : Bytes) : (s.wrBytes a b).now = s.now := rfl
@[simp] theorem State.wrBytes_regs (s : State) (a : Nat) (b : Bytes) : (s.wrBytes a b).regs = s.regs := rfl
@[simp] theorem State.wrBytes_freeCtr (s : State) (a : Nat) (b : Bytes) : (s.wrBytes a b).freeCtr = s.freeCtr := rfl
@[simp] theorem State.wrBytes_memx (s : State) (a : Nat) (b : Bytes) : (s.wrBytes a b).memx = s.memx := rfl
@[simp] theorem State.wrBytes_fc (s : State) (a : Nat) (b : Bytes) : (s.wrBytes a b).fc = s.fc := rfl
@[simp] theorem State.wrBytes_pwr (s : State) (a : Nat) (b : Bytes) : (s.wrBytes a b).pwr = s.pwr := rfl
@[simp] theorem State.wrBytes_gal (s : State) (a : Nat) (b : Bytes) : (s.wrBytes a b).gal = s.gal := rfl
@[simp] theorem State.wrBytes_snp (s : State) (a : Nat) (b : Bytes) : (s.wrBytes a b).snp = s.snp := rfl
@[simp] theorem State.wrBytes_slots (s : State) (a : Nat) (b : Bytes) : (s.wrBytes a b).slots = s.slots := rfl
@[simp] theorem State.wrBytes_restores (s : State) (a : Nat) (b : Bytes) : (s.wrBytes a b).restores = s.restores := rfl
@[simp] theorem State.wrBytes_img (s : State) (a : Nat) (b : Bytes) : (s.wrBytes a b).img = s.img := rfl
@[simp] theorem State.wrBytes_sec (s : State) (a : Nat) (b : Bytes) : (s.wrBytes a b).sec = s.sec := rfl
@[simp] theorem State.wrBytes_host (s : State) (a : Nat) (b : Bytes) : (s.wrBytes a b).host = s.host := rfl
@[simp] theorem State.wrBytes_ldir (s : State) (a : Nat) (b : Bytes) : (s.wrBytes a b).ldir = s.ldir := rfl
@[simp] theorem State.wrBytes_ctxs (s : State) (a : Nat) (b : Bytes) : (s.wrBytes a b).ctxs = s.ctxs := rfl
@[simp] theorem State.wrBytes_lastCtx (s : State) (a : Nat) (b : Bytes) : (s.wrBytes a b).lastCtx = s.lastCtx := rfl
@[simp] theorem State.wrBytes_jobs (s : State) (a : Nat) (b : Bytes) : (s.wrBytes a b).jobs = s.jobs := rfl
@[simp] theorem State.wrBytes_jobCtr (s : State) (a : Nat) (b : Bytes) : (s.wrBytes a b).jobCtr = s.jobCtr := rfl
@[simp] theorem State.wrBytes_echoes (s : State) (a : Nat) (b : Bytes) : (s.wrBytes a b).echoes = s.echoes := rfl
@[simp] theorem State.wrBytes_pas (s : State) (a : Nat) (b : Bytes) : (s.wrBytes a b).pas = s.pas := rfl
@[simp] theorem State.wrBytes_rings (s : State) (a : Nat) (b : Bytes) : (s.wrBytes a b).rings = s.rings := rfl
@[simp] theorem State.wrBytes_waits (s : State) (a : Nat) (b : Bytes) : (s.wrBytes a b).waits = s.waits := rfl
@[simp] theorem State.wrBytes_beats (s : State) (a : Nat) (b : Bytes) : (s.wrBytes a b).beats = s.beats := rfl
@[simp] theorem State.wrBytes_outBeats (s : State) (a : Nat) (b : Bytes) : (s.wrBytes a b).outBeats = s.outBeats := rfl
@[simp] theorem State.wrBytes_atu (s : State) (a : Nat) (b : Bytes) : (s.wrBytes a b).atu = s.atu := rfl
@[simp] theorem State.wrBytes_fab (s : State) (a : Nat) (b : Bytes) : (s.wrBytes a b).fab = s.fab := rfl
@[simp] theorem State.wrBytes_led (s : State) (a : Nat) (b : Bytes) : (s.wrBytes a b).led = s.led := rfl
@[simp] theorem State.wrBytes_curSteps (s : State) (a : Nat) (b : Bytes) : (s.wrBytes a b).curSteps = s.curSteps := rfl
@[simp] theorem State.wrBytes_advances (s : State) (a : Nat) (b : Bytes) : (s.wrBytes a b).advances = s.advances := rfl
@[simp] theorem State.wrBytes_hng (s : State) (a : Nat) (b : Bytes) : (s.wrBytes a b).hng = s.hng := rfl
@[simp] theorem State.wrBytes_dumps (s : State) (a : Nat) (b : Bytes) : (s.wrBytes a b).dumps = s.dumps := rfl
@[simp] theorem State.wrBytes_dumpSeq (s : State) (a : Nat) (b : Bytes) : (s.wrBytes a b).dumpSeq = s.dumpSeq := rfl

/-! ### State.wrNat -/

@[simp] theorem State.wrNat_pending (s : State) (a n v : Nat) : (s.wrNat a n v).pending = s.pending := rfl
@[simp] theorem State.wrNat_now (s : State) (a n v : Nat) : (s.wrNat a n v).now = s.now := rfl
@[simp] theorem State.wrNat_regs (s : State) (a n v : Nat) : (s.wrNat a n v).regs = s.regs := rfl
@[simp] theorem State.wrNat_freeCtr (s : State) (a n v : Nat) : (s.wrNat a n v).freeCtr = s.freeCtr := rfl
@[simp] theorem State.wrNat_memx (s : State) (a n v : Nat) : (s.wrNat a n v).memx = s.memx := rfl
@[simp] theorem State.wrNat_fc (s : State) (a n v : Nat) : (s.wrNat a n v).fc = s.fc := rfl
@[simp] theorem State.wrNat_pwr (s : State) (a n v : Nat) : (s.wrNat a n v).pwr = s.pwr := rfl
@[simp] theorem State.wrNat_gal (s : State) (a n v : Nat) : (s.wrNat a n v).gal = s.gal := rfl
@[simp] theorem State.wrNat_snp (s : State) (a n v : Nat) : (s.wrNat a n v).snp = s.snp := rfl
@[simp] theorem State.wrNat_slots (s : State) (a n v : Nat) : (s.wrNat a n v).slots = s.slots := rfl
@[simp] theorem State.wrNat_restores (s : State) (a n v : Nat) : (s.wrNat a n v).restores = s.restores := rfl
@[simp] theorem State.wrNat_img (s : State) (a n v : Nat) : (s.wrNat a n v).img = s.img := rfl
@[simp] theorem State.wrNat_sec (s : State) (a n v : Nat) : (s.wrNat a n v).sec = s.sec := rfl
@[simp] theorem State.wrNat_host (s : State) (a n v : Nat) : (s.wrNat a n v).host = s.host := rfl
@[simp] theorem State.wrNat_ldir (s : State) (a n v : Nat) : (s.wrNat a n v).ldir = s.ldir := rfl
@[simp] theorem State.wrNat_ctxs (s : State) (a n v : Nat) : (s.wrNat a n v).ctxs = s.ctxs := rfl
@[simp] theorem State.wrNat_lastCtx (s : State) (a n v : Nat) : (s.wrNat a n v).lastCtx = s.lastCtx := rfl
@[simp] theorem State.wrNat_jobs (s : State) (a n v : Nat) : (s.wrNat a n v).jobs = s.jobs := rfl
@[simp] theorem State.wrNat_jobCtr (s : State) (a n v : Nat) : (s.wrNat a n v).jobCtr = s.jobCtr := rfl
@[simp] theorem State.wrNat_echoes (s : State) (a n v : Nat) : (s.wrNat a n v).echoes = s.echoes := rfl
@[simp] theorem State.wrNat_pas (s : State) (a n v : Nat) : (s.wrNat a n v).pas = s.pas := rfl
@[simp] theorem State.wrNat_rings (s : State) (a n v : Nat) : (s.wrNat a n v).rings = s.rings := rfl
@[simp] theorem State.wrNat_waits (s : State) (a n v : Nat) : (s.wrNat a n v).waits = s.waits := rfl
@[simp] theorem State.wrNat_beats (s : State) (a n v : Nat) : (s.wrNat a n v).beats = s.beats := rfl
@[simp] theorem State.wrNat_outBeats (s : State) (a n v : Nat) : (s.wrNat a n v).outBeats = s.outBeats := rfl
@[simp] theorem State.wrNat_atu (s : State) (a n v : Nat) : (s.wrNat a n v).atu = s.atu := rfl
@[simp] theorem State.wrNat_fab (s : State) (a n v : Nat) : (s.wrNat a n v).fab = s.fab := rfl
@[simp] theorem State.wrNat_led (s : State) (a n v : Nat) : (s.wrNat a n v).led = s.led := rfl
@[simp] theorem State.wrNat_curSteps (s : State) (a n v : Nat) : (s.wrNat a n v).curSteps = s.curSteps := rfl
@[simp] theorem State.wrNat_advances (s : State) (a n v : Nat) : (s.wrNat a n v).advances = s.advances := rfl
@[simp] theorem State.wrNat_hng (s : State) (a n v : Nat) : (s.wrNat a n v).hng = s.hng := rfl
@[simp] theorem State.wrNat_dumps (s : State) (a n v : Nat) : (s.wrNat a n v).dumps = s.dumps := rfl
@[simp] theorem State.wrNat_dumpSeq (s : State) (a n v : Nat) : (s.wrNat a n v).dumpSeq = s.dumpSeq := rfl

/-! ### State.forget -/

@[simp] theorem State.forget_pending (s : State) (lo hi : Nat) : (s.forget lo hi).pending = s.pending := rfl
@[simp] theorem State.forget_now (s : State) (lo hi : Nat) : (s.forget lo hi).now = s.now := rfl
@[simp] theorem State.forget_regs (s : State) (lo hi : Nat) : (s.forget lo hi).regs = s.regs := rfl
@[simp] theorem State.forget_freeCtr (s : State) (lo hi : Nat) : (s.forget lo hi).freeCtr = s.freeCtr := rfl
@[simp] theorem State.forget_memx (s : State) (lo hi : Nat) : (s.forget lo hi).memx = s.memx := rfl
@[simp] theorem State.forget_fc (s : State) (lo hi : Nat) : (s.forget lo hi).fc = s.fc := rfl
@[simp] theorem State.forget_pwr (s : State) (lo hi : Nat) : (s.forget lo hi).pwr = s.pwr := rfl
@[simp] theorem State.forget_gal (s : State) (lo hi : Nat) : (s.forget lo hi).gal = s.gal := rfl
@[simp] theorem State.forget_snp (s : State) (lo hi : Nat) : (s.forget lo hi).snp = s.snp := rfl
@[simp] theorem State.forget_slots (s : State) (lo hi : Nat) : (s.forget lo hi).slots = s.slots := rfl
@[simp] theorem State.forget_restores (s : State) (lo hi : Nat) : (s.forget lo hi).restores = s.restores := rfl
@[simp] theorem State.forget_img (s : State) (lo hi : Nat) : (s.forget lo hi).img = s.img := rfl
@[simp] theorem State.forget_sec (s : State) (lo hi : Nat) : (s.forget lo hi).sec = s.sec := rfl
@[simp] theorem State.forget_host (s : State) (lo hi : Nat) : (s.forget lo hi).host = s.host := rfl
@[simp] theorem State.forget_ldir (s : State) (lo hi : Nat) : (s.forget lo hi).ldir = s.ldir := rfl
@[simp] theorem State.forget_ctxs (s : State) (lo hi : Nat) : (s.forget lo hi).ctxs = s.ctxs := rfl
@[simp] theorem State.forget_lastCtx (s : State) (lo hi : Nat) : (s.forget lo hi).lastCtx = s.lastCtx := rfl
@[simp] theorem State.forget_jobs (s : State) (lo hi : Nat) : (s.forget lo hi).jobs = s.jobs := rfl
@[simp] theorem State.forget_jobCtr (s : State) (lo hi : Nat) : (s.forget lo hi).jobCtr = s.jobCtr := rfl
@[simp] theorem State.forget_echoes (s : State) (lo hi : Nat) : (s.forget lo hi).echoes = s.echoes := rfl
@[simp] theorem State.forget_pas (s : State) (lo hi : Nat) : (s.forget lo hi).pas = s.pas := rfl
@[simp] theorem State.forget_rings (s : State) (lo hi : Nat) : (s.forget lo hi).rings = s.rings := rfl
@[simp] theorem State.forget_waits (s : State) (lo hi : Nat) : (s.forget lo hi).waits = s.waits := rfl
@[simp] theorem State.forget_beats (s : State) (lo hi : Nat) : (s.forget lo hi).beats = s.beats := rfl
@[simp] theorem State.forget_outBeats (s : State) (lo hi : Nat) : (s.forget lo hi).outBeats = s.outBeats := rfl
@[simp] theorem State.forget_atu (s : State) (lo hi : Nat) : (s.forget lo hi).atu = s.atu := rfl
@[simp] theorem State.forget_fab (s : State) (lo hi : Nat) : (s.forget lo hi).fab = s.fab := rfl
@[simp] theorem State.forget_led (s : State) (lo hi : Nat) : (s.forget lo hi).led = s.led := rfl
@[simp] theorem State.forget_curSteps (s : State) (lo hi : Nat) : (s.forget lo hi).curSteps = s.curSteps := rfl
@[simp] theorem State.forget_advances (s : State) (lo hi : Nat) : (s.forget lo hi).advances = s.advances := rfl
@[simp] theorem State.forget_hng (s : State) (lo hi : Nat) : (s.forget lo hi).hng = s.hng := rfl
@[simp] theorem State.forget_dumps (s : State) (lo hi : Nat) : (s.forget lo hi).dumps = s.dumps := rfl
@[simp] theorem State.forget_dumpSeq (s : State) (lo hi : Nat) : (s.forget lo hi).dumpSeq = s.dumpSeq := rfl

/-! ### State.tick -/

@[simp] theorem State.tick_pending (s : State) (t : Nat) : (s.tick t).pending = s.pending := rfl
@[simp] theorem State.tick_regs (s : State) (t : Nat) : (s.tick t).regs = s.regs := rfl
@[simp] theorem State.tick_mem (s : State) (t : Nat) : (s.tick t).mem = s.mem := rfl
@[simp] theorem State.tick_freeCtr (s : State) (t : Nat) : (s.tick t).freeCtr = s.freeCtr := rfl
@[simp] theorem State.tick_memx (s : State) (t : Nat) : (s.tick t).memx = s.memx := rfl
@[simp] theorem State.tick_fc (s : State) (t : Nat) : (s.tick t).fc = s.fc := rfl
@[simp] theorem State.tick_pwr (s : State) (t : Nat) : (s.tick t).pwr = s.pwr := rfl
@[simp] theorem State.tick_gal (s : State) (t : Nat) : (s.tick t).gal = s.gal := rfl
@[simp] theorem State.tick_snp (s : State) (t : Nat) : (s.tick t).snp = s.snp := rfl
@[simp] theorem State.tick_slots (s : State) (t : Nat) : (s.tick t).slots = s.slots := rfl
@[simp] theorem State.tick_restores (s : State) (t : Nat) : (s.tick t).restores = s.restores := rfl
@[simp] theorem State.tick_img (s : State) (t : Nat) : (s.tick t).img = s.img := rfl
@[simp] theorem State.tick_sec (s : State) (t : Nat) : (s.tick t).sec = s.sec := rfl
@[simp] theorem State.tick_host (s : State) (t : Nat) : (s.tick t).host = s.host := rfl
@[simp] theorem State.tick_ldir (s : State) (t : Nat) : (s.tick t).ldir = s.ldir := rfl
@[simp] theorem State.tick_ctxs (s : State) (t : Nat) : (s.tick t).ctxs = s.ctxs := rfl
@[simp] theorem State.tick_lastCtx (s : State) (t : Nat) : (s.tick t).lastCtx = s.lastCtx := rfl
@[simp] theorem State.tick_jobs (s : State) (t : Nat) : (s.tick t).jobs = s.jobs := rfl
@[simp] theorem State.tick_jobCtr (s : State) (t : Nat) : (s.tick t).jobCtr = s.jobCtr := rfl
@[simp] theorem State.tick_echoes (s : State) (t : Nat) : (s.tick t).echoes = s.echoes := rfl
@[simp] theorem State.tick_pas (s : State) (t : Nat) : (s.tick t).pas = s.pas := rfl
@[simp] theorem State.tick_rings (s : State) (t : Nat) : (s.tick t).rings = s.rings := rfl
@[simp] theorem State.tick_waits (s : State) (t : Nat) : (s.tick t).waits = s.waits := rfl
@[simp] theorem State.tick_beats (s : State) (t : Nat) : (s.tick t).beats = s.beats := rfl
@[simp] theorem State.tick_outBeats (s : State) (t : Nat) : (s.tick t).outBeats = s.outBeats := rfl
@[simp] theorem State.tick_atu (s : State) (t : Nat) : (s.tick t).atu = s.atu := rfl
@[simp] theorem State.tick_fab (s : State) (t : Nat) : (s.tick t).fab = s.fab := rfl
@[simp] theorem State.tick_led (s : State) (t : Nat) : (s.tick t).led = s.led := rfl
@[simp] theorem State.tick_curSteps (s : State) (t : Nat) : (s.tick t).curSteps = s.curSteps := rfl
@[simp] theorem State.tick_advances (s : State) (t : Nat) : (s.tick t).advances = s.advances := rfl
@[simp] theorem State.tick_hng (s : State) (t : Nat) : (s.tick t).hng = s.hng := rfl
@[simp] theorem State.tick_dumps (s : State) (t : Nat) : (s.tick t).dumps = s.dumps := rfl
@[simp] theorem State.tick_dumpSeq (s : State) (t : Nat) : (s.tick t).dumpSeq = s.dumpSeq := rfl
@[simp] theorem State.tick_now (s : State) (t : Nat) : (s.tick t).now = max s.now t := rfl

/-! ### State.freeTaken -/

@[simp] theorem State.freeTaken_pending (s : State) : (s.freeTaken).pending = s.pending := rfl
@[simp] theorem State.freeTaken_now (s : State) : (s.freeTaken).now = s.now := rfl
@[simp] theorem State.freeTaken_regs (s : State) : (s.freeTaken).regs = s.regs := rfl
@[simp] theorem State.freeTaken_mem (s : State) : (s.freeTaken).mem = s.mem := rfl
@[simp] theorem State.freeTaken_memx (s : State) : (s.freeTaken).memx = s.memx := rfl
@[simp] theorem State.freeTaken_fc (s : State) : (s.freeTaken).fc = s.fc := rfl
@[simp] theorem State.freeTaken_pwr (s : State) : (s.freeTaken).pwr = s.pwr := rfl
@[simp] theorem State.freeTaken_gal (s : State) : (s.freeTaken).gal = s.gal := rfl
@[simp] theorem State.freeTaken_snp (s : State) : (s.freeTaken).snp = s.snp := rfl
@[simp] theorem State.freeTaken_slots (s : State) : (s.freeTaken).slots = s.slots := rfl
@[simp] theorem State.freeTaken_restores (s : State) : (s.freeTaken).restores = s.restores := rfl
@[simp] theorem State.freeTaken_img (s : State) : (s.freeTaken).img = s.img := rfl
@[simp] theorem State.freeTaken_sec (s : State) : (s.freeTaken).sec = s.sec := rfl
@[simp] theorem State.freeTaken_host (s : State) : (s.freeTaken).host = s.host := rfl
@[simp] theorem State.freeTaken_ldir (s : State) : (s.freeTaken).ldir = s.ldir := rfl
@[simp] theorem State.freeTaken_ctxs (s : State) : (s.freeTaken).ctxs = s.ctxs := rfl
@[simp] theorem State.freeTaken_lastCtx (s : State) : (s.freeTaken).lastCtx = s.lastCtx := rfl
@[simp] theorem State.freeTaken_jobs (s : State) : (s.freeTaken).jobs = s.jobs := rfl
@[simp] theorem State.freeTaken_jobCtr (s : State) : (s.freeTaken).jobCtr = s.jobCtr := rfl
@[simp] theorem State.freeTaken_echoes (s : State) : (s.freeTaken).echoes = s.echoes := rfl
@[simp] theorem State.freeTaken_pas (s : State) : (s.freeTaken).pas = s.pas := rfl
@[simp] theorem State.freeTaken_rings (s : State) : (s.freeTaken).rings = s.rings := rfl
@[simp] theorem State.freeTaken_waits (s : State) : (s.freeTaken).waits = s.waits := rfl
@[simp] theorem State.freeTaken_beats (s : State) : (s.freeTaken).beats = s.beats := rfl
@[simp] theorem State.freeTaken_outBeats (s : State) : (s.freeTaken).outBeats = s.outBeats := rfl
@[simp] theorem State.freeTaken_atu (s : State) : (s.freeTaken).atu = s.atu := rfl
@[simp] theorem State.freeTaken_fab (s : State) : (s.freeTaken).fab = s.fab := rfl
@[simp] theorem State.freeTaken_led (s : State) : (s.freeTaken).led = s.led := rfl
@[simp] theorem State.freeTaken_curSteps (s : State) : (s.freeTaken).curSteps = s.curSteps := rfl
@[simp] theorem State.freeTaken_advances (s : State) : (s.freeTaken).advances = s.advances := rfl
@[simp] theorem State.freeTaken_hng (s : State) : (s.freeTaken).hng = s.hng := rfl
@[simp] theorem State.freeTaken_dumps (s : State) : (s.freeTaken).dumps = s.dumps := rfl
@[simp] theorem State.freeTaken_dumpSeq (s : State) : (s.freeTaken).dumpSeq = s.dumpSeq := rfl

/-! ### State.vec -/

@[simp] theorem State.vec_pending (s : State) (fn : Fn) (v : Nat) : (s.vec fn v).pending = s.pending := rfl
@[simp] theorem State.vec_now (s : State) (fn : Fn) (v : Nat) : (s.vec fn v).now = s.now := rfl
@[simp] theorem State.vec_regs (s : State) (fn : Fn) (v : Nat) : (s.vec fn v).regs = s.regs := rfl
@[simp] theorem State.vec_mem (s : State) (fn : Fn) (v : Nat) : (s.vec fn v).mem = s.mem := rfl
@[simp] theorem State.vec_freeCtr (s : State) (fn : Fn) (v : Nat) : (s.vec fn v).freeCtr = s.freeCtr := rfl
@[simp] theorem State.vec_memx (s : State) (fn : Fn) (v : Nat) : (s.vec fn v).memx = s.memx := rfl
@[simp] theorem State.vec_fc (s : State) (fn : Fn) (v : Nat) : (s.vec fn v).fc = s.fc := rfl
@[simp] theorem State.vec_pwr (s : State) (fn : Fn) (v : Nat) : (s.vec fn v).pwr = s.pwr := rfl
@[simp] theorem State.vec_gal (s : State) (fn : Fn) (v : Nat) : (s.vec fn v).gal = s.gal := rfl
@[simp] theorem State.vec_snp (s : State) (fn : Fn) (v : Nat) : (s.vec fn v).snp = s.snp := rfl
@[simp] theorem State.vec_slots (s : State) (fn : Fn) (v : Nat) : (s.vec fn v).slots = s.slots := rfl
@[simp] theorem State.vec_restores (s : State) (fn : Fn) (v : Nat) : (s.vec fn v).restores = s.restores := rfl
@[simp] theorem State.vec_img (s : State) (fn : Fn) (v : Nat) : (s.vec fn v).img = s.img := rfl
@[simp] theorem State.vec_sec (s : State) (fn : Fn) (v : Nat) : (s.vec fn v).sec = s.sec := rfl
@[simp] theorem State.vec_ldir (s : State) (fn : Fn) (v : Nat) : (s.vec fn v).ldir = s.ldir := rfl
@[simp] theorem State.vec_ctxs (s : State) (fn : Fn) (v : Nat) : (s.vec fn v).ctxs = s.ctxs := rfl
@[simp] theorem State.vec_lastCtx (s : State) (fn : Fn) (v : Nat) : (s.vec fn v).lastCtx = s.lastCtx := rfl
@[simp] theorem State.vec_jobs (s : State) (fn : Fn) (v : Nat) : (s.vec fn v).jobs = s.jobs := rfl
@[simp] theorem State.vec_jobCtr (s : State) (fn : Fn) (v : Nat) : (s.vec fn v).jobCtr = s.jobCtr := rfl
@[simp] theorem State.vec_echoes (s : State) (fn : Fn) (v : Nat) : (s.vec fn v).echoes = s.echoes := rfl
@[simp] theorem State.vec_pas (s : State) (fn : Fn) (v : Nat) : (s.vec fn v).pas = s.pas := rfl
@[simp] theorem State.vec_rings (s : State) (fn : Fn) (v : Nat) : (s.vec fn v).rings = s.rings := rfl
@[simp] theorem State.vec_waits (s : State) (fn : Fn) (v : Nat) : (s.vec fn v).waits = s.waits := rfl
@[simp] theorem State.vec_beats (s : State) (fn : Fn) (v : Nat) : (s.vec fn v).beats = s.beats := rfl
@[simp] theorem State.vec_outBeats (s : State) (fn : Fn) (v : Nat) : (s.vec fn v).outBeats = s.outBeats := rfl
@[simp] theorem State.vec_atu (s : State) (fn : Fn) (v : Nat) : (s.vec fn v).atu = s.atu := rfl
@[simp] theorem State.vec_fab (s : State) (fn : Fn) (v : Nat) : (s.vec fn v).fab = s.fab := rfl
@[simp] theorem State.vec_led (s : State) (fn : Fn) (v : Nat) : (s.vec fn v).led = s.led := rfl
@[simp] theorem State.vec_curSteps (s : State) (fn : Fn) (v : Nat) : (s.vec fn v).curSteps = s.curSteps := rfl
@[simp] theorem State.vec_advances (s : State) (fn : Fn) (v : Nat) : (s.vec fn v).advances = s.advances := rfl
@[simp] theorem State.vec_hng (s : State) (fn : Fn) (v : Nat) : (s.vec fn v).hng = s.hng := rfl
@[simp] theorem State.vec_dumps (s : State) (fn : Fn) (v : Nat) : (s.vec fn v).dumps = s.dumps := rfl
@[simp] theorem State.vec_dumpSeq (s : State) (fn : Fn) (v : Nat) : (s.vec fn v).dumpSeq = s.dumpSeq := rfl

/-! ### State.inBand -/

@[simp] theorem State.inBand_pending (s : State) : (s.inBand).pending = s.pending := rfl
@[simp] theorem State.inBand_now (s : State) : (s.inBand).now = s.now := rfl
@[simp] theorem State.inBand_regs (s : State) : (s.inBand).regs = s.regs := rfl
@[simp] theorem State.inBand_mem (s : State) : (s.inBand).mem = s.mem := rfl
@[simp] theorem State.inBand_freeCtr (s : State) : (s.inBand).freeCtr = s.freeCtr := rfl
@[simp] theorem State.inBand_memx (s : State) : (s.inBand).memx = s.memx := rfl
@[simp] theorem State.inBand_fc (s : State) : (s.inBand).fc = s.fc := rfl
@[simp] theorem State.inBand_pwr (s : State) : (s.inBand).pwr = s.pwr := rfl
@[simp] theorem State.inBand_gal (s : State) : (s.inBand).gal = s.gal := rfl
@[simp] theorem State.inBand_snp (s : State) : (s.inBand).snp = s.snp := rfl
@[simp] theorem State.inBand_slots (s : State) : (s.inBand).slots = s.slots := rfl
@[simp] theorem State.inBand_restores (s : State) : (s.inBand).restores = s.restores := rfl
@[simp] theorem State.inBand_img (s : State) : (s.inBand).img = s.img := rfl
@[simp] theorem State.inBand_sec (s : State) : (s.inBand).sec = s.sec := rfl
@[simp] theorem State.inBand_ldir (s : State) : (s.inBand).ldir = s.ldir := rfl
@[simp] theorem State.inBand_ctxs (s : State) : (s.inBand).ctxs = s.ctxs := rfl
@[simp] theorem State.inBand_lastCtx (s : State) : (s.inBand).lastCtx = s.lastCtx := rfl
@[simp] theorem State.inBand_jobs (s : State) : (s.inBand).jobs = s.jobs := rfl
@[simp] theorem State.inBand_jobCtr (s : State) : (s.inBand).jobCtr = s.jobCtr := rfl
@[simp] theorem State.inBand_echoes (s : State) : (s.inBand).echoes = s.echoes := rfl
@[simp] theorem State.inBand_pas (s : State) : (s.inBand).pas = s.pas := rfl
@[simp] theorem State.inBand_rings (s : State) : (s.inBand).rings = s.rings := rfl
@[simp] theorem State.inBand_waits (s : State) : (s.inBand).waits = s.waits := rfl
@[simp] theorem State.inBand_beats (s : State) : (s.inBand).beats = s.beats := rfl
@[simp] theorem State.inBand_outBeats (s : State) : (s.inBand).outBeats = s.outBeats := rfl
@[simp] theorem State.inBand_atu (s : State) : (s.inBand).atu = s.atu := rfl
@[simp] theorem State.inBand_fab (s : State) : (s.inBand).fab = s.fab := rfl
@[simp] theorem State.inBand_led (s : State) : (s.inBand).led = s.led := rfl
@[simp] theorem State.inBand_curSteps (s : State) : (s.inBand).curSteps = s.curSteps := rfl
@[simp] theorem State.inBand_advances (s : State) : (s.inBand).advances = s.advances := rfl
@[simp] theorem State.inBand_hng (s : State) : (s.inBand).hng = s.hng := rfl
@[simp] theorem State.inBand_dumps (s : State) : (s.inBand).dumps = s.dumps := rfl
@[simp] theorem State.inBand_dumpSeq (s : State) : (s.inBand).dumpSeq = s.dumpSeq := rfl

/-! ### State.vecBoth -/

@[simp] theorem State.vecBoth_pending (s : State) (v w p : Nat) : (s.vecBoth v w p).pending = s.pending := rfl
@[simp] theorem State.vecBoth_now (s : State) (v w p : Nat) : (s.vecBoth v w p).now = s.now := rfl
@[simp] theorem State.vecBoth_regs (s : State) (v w p : Nat) : (s.vecBoth v w p).regs = s.regs := rfl
@[simp] theorem State.vecBoth_mem (s : State) (v w p : Nat) : (s.vecBoth v w p).mem = s.mem := rfl
@[simp] theorem State.vecBoth_freeCtr (s : State) (v w p : Nat) : (s.vecBoth v w p).freeCtr = s.freeCtr := rfl
@[simp] theorem State.vecBoth_memx (s : State) (v w p : Nat) : (s.vecBoth v w p).memx = s.memx := rfl
@[simp] theorem State.vecBoth_fc (s : State) (v w p : Nat) : (s.vecBoth v w p).fc = s.fc := rfl
@[simp] theorem State.vecBoth_pwr (s : State) (v w p : Nat) : (s.vecBoth v w p).pwr = s.pwr := rfl
@[simp] theorem State.vecBoth_gal (s : State) (v w p : Nat) : (s.vecBoth v w p).gal = s.gal := rfl
@[simp] theorem State.vecBoth_snp (s : State) (v w p : Nat) : (s.vecBoth v w p).snp = s.snp := rfl
@[simp] theorem State.vecBoth_slots (s : State) (v w p : Nat) : (s.vecBoth v w p).slots = s.slots := rfl
@[simp] theorem State.vecBoth_restores (s : State) (v w p : Nat) : (s.vecBoth v w p).restores = s.restores := rfl
@[simp] theorem State.vecBoth_img (s : State) (v w p : Nat) : (s.vecBoth v w p).img = s.img := rfl
@[simp] theorem State.vecBoth_sec (s : State) (v w p : Nat) : (s.vecBoth v w p).sec = s.sec := rfl
@[simp] theorem State.vecBoth_ldir (s : State) (v w p : Nat) : (s.vecBoth v w p).ldir = s.ldir := rfl
@[simp] theorem State.vecBoth_ctxs (s : State) (v w p : Nat) : (s.vecBoth v w p).ctxs = s.ctxs := rfl
@[simp] theorem State.vecBoth_lastCtx (s : State) (v w p : Nat) : (s.vecBoth v w p).lastCtx = s.lastCtx := rfl
@[simp] theorem State.vecBoth_jobs (s : State) (v w p : Nat) : (s.vecBoth v w p).jobs = s.jobs := rfl
@[simp] theorem State.vecBoth_jobCtr (s : State) (v w p : Nat) : (s.vecBoth v w p).jobCtr = s.jobCtr := rfl
@[simp] theorem State.vecBoth_echoes (s : State) (v w p : Nat) : (s.vecBoth v w p).echoes = s.echoes := rfl
@[simp] theorem State.vecBoth_pas (s : State) (v w p : Nat) : (s.vecBoth v w p).pas = s.pas := rfl
@[simp] theorem State.vecBoth_rings (s : State) (v w p : Nat) : (s.vecBoth v w p).rings = s.rings := rfl
@[simp] theorem State.vecBoth_waits (s : State) (v w p : Nat) : (s.vecBoth v w p).waits = s.waits := rfl
@[simp] theorem State.vecBoth_beats (s : State) (v w p : Nat) : (s.vecBoth v w p).beats = s.beats := rfl
@[simp] theorem State.vecBoth_outBeats (s : State) (v w p : Nat) : (s.vecBoth v w p).outBeats = s.outBeats := rfl
@[simp] theorem State.vecBoth_atu (s : State) (v w p : Nat) : (s.vecBoth v w p).atu = s.atu := rfl
@[simp] theorem State.vecBoth_fab (s : State) (v w p : Nat) : (s.vecBoth v w p).fab = s.fab := rfl
@[simp] theorem State.vecBoth_led (s : State) (v w p : Nat) : (s.vecBoth v w p).led = s.led := rfl
@[simp] theorem State.vecBoth_curSteps (s : State) (v w p : Nat) : (s.vecBoth v w p).curSteps = s.curSteps := rfl
@[simp] theorem State.vecBoth_advances (s : State) (v w p : Nat) : (s.vecBoth v w p).advances = s.advances := rfl
@[simp] theorem State.vecBoth_hng (s : State) (v w p : Nat) : (s.vecBoth v w p).hng = s.hng := rfl
@[simp] theorem State.vecBoth_dumps (s : State) (v w p : Nat) : (s.vecBoth v w p).dumps = s.dumps := rfl
@[simp] theorem State.vecBoth_dumpSeq (s : State) (v w p : Nat) : (s.vecBoth v w p).dumpSeq = s.dumpSeq := rfl

/-! ### State.raiseSelf -/

@[simp] theorem State.raiseSelf_pending (s : State) (level code aux : Nat) : (s.raiseSelf level code aux).pending = s.pending := rfl
@[simp] theorem State.raiseSelf_now (s : State) (level code aux : Nat) : (s.raiseSelf level code aux).now = s.now := rfl
@[simp] theorem State.raiseSelf_regs (s : State) (level code aux : Nat) : (s.raiseSelf level code aux).regs = s.regs := rfl
@[simp] theorem State.raiseSelf_mem (s : State) (level code aux : Nat) : (s.raiseSelf level code aux).mem = s.mem := rfl
@[simp] theorem State.raiseSelf_freeCtr (s : State) (level code aux : Nat) : (s.raiseSelf level code aux).freeCtr = s.freeCtr := rfl
@[simp] theorem State.raiseSelf_memx (s : State) (level code aux : Nat) : (s.raiseSelf level code aux).memx = s.memx := rfl
@[simp] theorem State.raiseSelf_pwr (s : State) (level code aux : Nat) : (s.raiseSelf level code aux).pwr = s.pwr := rfl
@[simp] theorem State.raiseSelf_gal (s : State) (level code aux : Nat) : (s.raiseSelf level code aux).gal = s.gal := rfl
@[simp] theorem State.raiseSelf_snp (s : State) (level code aux : Nat) : (s.raiseSelf level code aux).snp = s.snp := rfl
@[simp] theorem State.raiseSelf_slots (s : State) (level code aux : Nat) : (s.raiseSelf level code aux).slots = s.slots := rfl
@[simp] theorem State.raiseSelf_restores (s : State) (level code aux : Nat) : (s.raiseSelf level code aux).restores = s.restores := rfl
@[simp] theorem State.raiseSelf_img (s : State) (level code aux : Nat) : (s.raiseSelf level code aux).img = s.img := rfl
@[simp] theorem State.raiseSelf_sec (s : State) (level code aux : Nat) : (s.raiseSelf level code aux).sec = s.sec := rfl
@[simp] theorem State.raiseSelf_host (s : State) (level code aux : Nat) : (s.raiseSelf level code aux).host = s.host := rfl
@[simp] theorem State.raiseSelf_ldir (s : State) (level code aux : Nat) : (s.raiseSelf level code aux).ldir = s.ldir := rfl
@[simp] theorem State.raiseSelf_ctxs (s : State) (level code aux : Nat) : (s.raiseSelf level code aux).ctxs = s.ctxs := rfl
@[simp] theorem State.raiseSelf_lastCtx (s : State) (level code aux : Nat) : (s.raiseSelf level code aux).lastCtx = s.lastCtx := rfl
@[simp] theorem State.raiseSelf_jobs (s : State) (level code aux : Nat) : (s.raiseSelf level code aux).jobs = s.jobs := rfl
@[simp] theorem State.raiseSelf_jobCtr (s : State) (level code aux : Nat) : (s.raiseSelf level code aux).jobCtr = s.jobCtr := rfl
@[simp] theorem State.raiseSelf_echoes (s : State) (level code aux : Nat) : (s.raiseSelf level code aux).echoes = s.echoes := rfl
@[simp] theorem State.raiseSelf_pas (s : State) (level code aux : Nat) : (s.raiseSelf level code aux).pas = s.pas := rfl
@[simp] theorem State.raiseSelf_rings (s : State) (level code aux : Nat) : (s.raiseSelf level code aux).rings = s.rings := rfl
@[simp] theorem State.raiseSelf_waits (s : State) (level code aux : Nat) : (s.raiseSelf level code aux).waits = s.waits := rfl
@[simp] theorem State.raiseSelf_beats (s : State) (level code aux : Nat) : (s.raiseSelf level code aux).beats = s.beats := rfl
@[simp] theorem State.raiseSelf_outBeats (s : State) (level code aux : Nat) : (s.raiseSelf level code aux).outBeats = s.outBeats := rfl
@[simp] theorem State.raiseSelf_atu (s : State) (level code aux : Nat) : (s.raiseSelf level code aux).atu = s.atu := rfl
@[simp] theorem State.raiseSelf_fab (s : State) (level code aux : Nat) : (s.raiseSelf level code aux).fab = s.fab := rfl
@[simp] theorem State.raiseSelf_led (s : State) (level code aux : Nat) : (s.raiseSelf level code aux).led = s.led := rfl
@[simp] theorem State.raiseSelf_curSteps (s : State) (level code aux : Nat) : (s.raiseSelf level code aux).curSteps = s.curSteps := rfl
@[simp] theorem State.raiseSelf_advances (s : State) (level code aux : Nat) : (s.raiseSelf level code aux).advances = s.advances := rfl
@[simp] theorem State.raiseSelf_hng (s : State) (level code aux : Nat) : (s.raiseSelf level code aux).hng = s.hng := rfl
@[simp] theorem State.raiseSelf_dumps (s : State) (level code aux : Nat) : (s.raiseSelf level code aux).dumps = s.dumps := rfl
@[simp] theorem State.raiseSelf_dumpSeq (s : State) (level code aux : Nat) : (s.raiseSelf level code aux).dumpSeq = s.dumpSeq := rfl

/-! ### State.raise -/

/-- A report changes the fault collector's side of the state and nothing else. -/
theorem State.raise_eq (s : State) (r : Report) : ∃ x, s.raise r = { s with fc := x } := by
  unfold State.raise
  dsimp only
  split
  · exact ⟨_, rfl⟩
  · exact ⟨_, rfl⟩

@[simp] theorem State.raise_pending (s : State) (r : Report) : (s.raise r).pending = s.pending := by
  obtain ⟨x, h⟩ := s.raise_eq r; rw [h]
@[simp] theorem State.raise_now (s : State) (r : Report) : (s.raise r).now = s.now := by
  obtain ⟨x, h⟩ := s.raise_eq r; rw [h]
@[simp] theorem State.raise_regs (s : State) (r : Report) : (s.raise r).regs = s.regs := by
  obtain ⟨x, h⟩ := s.raise_eq r; rw [h]
@[simp] theorem State.raise_mem (s : State) (r : Report) : (s.raise r).mem = s.mem := by
  obtain ⟨x, h⟩ := s.raise_eq r; rw [h]
@[simp] theorem State.raise_freeCtr (s : State) (r : Report) : (s.raise r).freeCtr = s.freeCtr := by
  obtain ⟨x, h⟩ := s.raise_eq r; rw [h]
@[simp] theorem State.raise_memx (s : State) (r : Report) : (s.raise r).memx = s.memx := by
  obtain ⟨x, h⟩ := s.raise_eq r; rw [h]
@[simp] theorem State.raise_pwr (s : State) (r : Report) : (s.raise r).pwr = s.pwr := by
  obtain ⟨x, h⟩ := s.raise_eq r; rw [h]
@[simp] theorem State.raise_gal (s : State) (r : Report) : (s.raise r).gal = s.gal := by
  obtain ⟨x, h⟩ := s.raise_eq r; rw [h]
@[simp] theorem State.raise_snp (s : State) (r : Report) : (s.raise r).snp = s.snp := by
  obtain ⟨x, h⟩ := s.raise_eq r; rw [h]
@[simp] theorem State.raise_slots (s : State) (r : Report) : (s.raise r).slots = s.slots := by
  obtain ⟨x, h⟩ := s.raise_eq r; rw [h]
@[simp] theorem State.raise_restores (s : State) (r : Report) : (s.raise r).restores = s.restores := by
  obtain ⟨x, h⟩ := s.raise_eq r; rw [h]
@[simp] theorem State.raise_img (s : State) (r : Report) : (s.raise r).img = s.img := by
  obtain ⟨x, h⟩ := s.raise_eq r; rw [h]
@[simp] theorem State.raise_sec (s : State) (r : Report) : (s.raise r).sec = s.sec := by
  obtain ⟨x, h⟩ := s.raise_eq r; rw [h]
@[simp] theorem State.raise_host (s : State) (r : Report) : (s.raise r).host = s.host := by
  obtain ⟨x, h⟩ := s.raise_eq r; rw [h]
@[simp] theorem State.raise_ldir (s : State) (r : Report) : (s.raise r).ldir = s.ldir := by
  obtain ⟨x, h⟩ := s.raise_eq r; rw [h]
@[simp] theorem State.raise_ctxs (s : State) (r : Report) : (s.raise r).ctxs = s.ctxs := by
  obtain ⟨x, h⟩ := s.raise_eq r; rw [h]
@[simp] theorem State.raise_lastCtx (s : State) (r : Report) : (s.raise r).lastCtx = s.lastCtx := by
  obtain ⟨x, h⟩ := s.raise_eq r; rw [h]
@[simp] theorem State.raise_jobs (s : State) (r : Report) : (s.raise r).jobs = s.jobs := by
  obtain ⟨x, h⟩ := s.raise_eq r; rw [h]
@[simp] theorem State.raise_jobCtr (s : State) (r : Report) : (s.raise r).jobCtr = s.jobCtr := by
  obtain ⟨x, h⟩ := s.raise_eq r; rw [h]
@[simp] theorem State.raise_echoes (s : State) (r : Report) : (s.raise r).echoes = s.echoes := by
  obtain ⟨x, h⟩ := s.raise_eq r; rw [h]
@[simp] theorem State.raise_pas (s : State) (r : Report) : (s.raise r).pas = s.pas := by
  obtain ⟨x, h⟩ := s.raise_eq r; rw [h]
@[simp] theorem State.raise_rings (s : State) (r : Report) : (s.raise r).rings = s.rings := by
  obtain ⟨x, h⟩ := s.raise_eq r; rw [h]
@[simp] theorem State.raise_waits (s : State) (r : Report) : (s.raise r).waits = s.waits := by
  obtain ⟨x, h⟩ := s.raise_eq r; rw [h]
@[simp] theorem State.raise_beats (s : State) (r : Report) : (s.raise r).beats = s.beats := by
  obtain ⟨x, h⟩ := s.raise_eq r; rw [h]
@[simp] theorem State.raise_outBeats (s : State) (r : Report) : (s.raise r).outBeats = s.outBeats := by
  obtain ⟨x, h⟩ := s.raise_eq r; rw [h]
@[simp] theorem State.raise_atu (s : State) (r : Report) : (s.raise r).atu = s.atu := by
  obtain ⟨x, h⟩ := s.raise_eq r; rw [h]
@[simp] theorem State.raise_fab (s : State) (r : Report) : (s.raise r).fab = s.fab := by
  obtain ⟨x, h⟩ := s.raise_eq r; rw [h]
@[simp] theorem State.raise_led (s : State) (r : Report) : (s.raise r).led = s.led := by
  obtain ⟨x, h⟩ := s.raise_eq r; rw [h]
@[simp] theorem State.raise_curSteps (s : State) (r : Report) : (s.raise r).curSteps = s.curSteps := by
  obtain ⟨x, h⟩ := s.raise_eq r; rw [h]
@[simp] theorem State.raise_advances (s : State) (r : Report) : (s.raise r).advances = s.advances := by
  obtain ⟨x, h⟩ := s.raise_eq r; rw [h]
@[simp] theorem State.raise_hng (s : State) (r : Report) : (s.raise r).hng = s.hng := by
  obtain ⟨x, h⟩ := s.raise_eq r; rw [h]
@[simp] theorem State.raise_dumps (s : State) (r : Report) : (s.raise r).dumps = s.dumps := by
  obtain ⟨x, h⟩ := s.raise_eq r; rw [h]
@[simp] theorem State.raise_dumpSeq (s : State) (r : Report) : (s.raise r).dumpSeq = s.dumpSeq := by
  obtain ⟨x, h⟩ := s.raise_eq r; rw [h]

/-! ### Register fields through updates that do not touch them -/

@[simp] theorem State.tick_rd (s : State) (t : Nat) (f : Fld) (i j : Nat) : (s.tick t).rd f i j = s.rd f i j := rfl
@[simp] theorem State.tick_on (s : State) (t : Nat) (f : Fld) (i j : Nat) : (s.tick t).on f i j = s.on f i j := rfl
@[simp] theorem State.vec_rd (s : State) (fn : Fn) (v : Nat) (f : Fld) (i j : Nat) : (s.vec fn v).rd f i j = s.rd f i j := rfl
@[simp] theorem State.vecBoth_rd (s : State) (v w p : Nat) (f : Fld) (i j : Nat) : (s.vecBoth v w p).rd f i j = s.rd f i j := rfl
@[simp] theorem State.inBand_rd (s : State) (f : Fld) (i j : Nat) : s.inBand.rd f i j = s.rd f i j := rfl
@[simp] theorem State.raise_rd (s : State) (r : Report) (f : Fld) (i j : Nat) : (s.raise r).rd f i j = s.rd f i j := by
  unfold State.rd; rw [State.raise_regs]
@[simp] theorem State.raise_on (s : State) (r : Report) (f : Fld) (i j : Nat) : (s.raise r).on f i j = s.on f i j := by
  unfold State.on; rw [State.raise_rd]
@[simp] theorem State.wrBytes_rd (s : State) (a : Nat) (b : Bytes) (f : Fld) (i j : Nat) : (s.wrBytes a b).rd f i j = s.rd f i j := rfl
@[simp] theorem State.wr_rdByte (s : State) (f : Fld) (v i j a : Nat) : (s.wr f v i j).rdByte a = s.rdByte a := rfl

end Sys2Proof.Machine
end

