-- ==== Sys2Proof/Tests/Slice0.lean ====
section
/-!
SUPPORT. Sys2Proof/Tests/Slice0.lean: the manual's worked examples, ill-formed commands, and for every statement with hypotheses a state and
operands that meet them, clause by clause.
-/

namespace Sys2Proof.Tests

open Sys2Proof Sys2Proof.Machine

set_option maxRecDepth 100000
set_option Elab.async false
set_option synthInstance.maxSize 4000
set_option synthInstance.maxHeartbeats 200000
set_option linter.unusedVariables false

/-- Bytes of the numbers given. -/
def bs (l : List Nat) : Bytes := l.map (BitVec.ofNat 8)

/-- The `n` bytes a hexadecimal numeral spells, first digits first. -/
def hexBytes (n v : Nat) : Bytes := (natLe n v).reverse

/-- Bytes in memory from key `a`, above every key the state lists. -/
def atTop (s : State) (a : Nat) (b : Bytes) : State :=
  { s with mem := s.mem ++ (b.zipIdx.filter (fun x => decide (x.1 ≠ 0))).map (fun x => (a + x.2, x.1)) }

/-! ### Small images -/

/-- A section's length in bytes. -/
def secLen (s : Section) : Nat := (s.2.map (fun r => r.length)).sum

/-- Directory entries and bodies of sections from offset `off`, each body a multiple of 16 bytes. -/
def secBytes : List Section → Nat → Bytes × Bytes
  | [], _ => ([], [])
  | s :: l, off =>
    let n := secLen s
    let pad := (16 - n % 16) % 16
    let r := secBytes l (off + n + pad)
    (natLe 2 s.1 ++ natLe 1 1 ++ natLe 1 0 ++ natLe 4 off ++ natLe 4 n ++ natLe 2 s.2.length ++ natLe 2 0 ++ r.1,
     s.2.flatten ++ natLe pad 0 ++ r.2)

/-- An image of a kind with the sections given, its signature all zeros. -/
def mkImage (kind part seq base : Nat) (digest : Bytes) (ss : List Section) : Bytes :=
  let b := secBytes ss (128 + 16 * ss.length)
  let total := 128 + b.1.length + b.2.length + 2832
  ascii "DNVS" ++ natLe 1 1 ++ natLe 1 0 ++ natLe 1 kind ++ natLe 1 0 ++ natLe 4 total ++ natLe 2 ss.length ++ natLe 1 part ++ natLe 1 0
    ++ ascii "VGL-IL9T" ++ ascii "B0" ++ natLe 2 0 ++ natLe 4 0 ++ natLe 4 0 ++ natLe 4 seq ++ natLe 8 (if kind = 2 then 0 else 7)
    ++ natLe 8 base ++ digest ++ natLe 40 0 ++ b.1 ++ b.2 ++ natLe 2832 0

/-- The structure image of one partition on group 0, port L0 in the fabric. -/
def structImage : Bytes :=
  mkImage 1 0 0 0 (natLe 32 0)
    [(1, [natLe 2 0 ++ natLe 2 1 ++ natLe 12 0]),
     (2, [bs [0, 16, 0, 0, 128, 129, 130, 131, 132, 133, 134, 135, 136, 137, 138, 139, 140, 141, 142, 143] ++ natLe 12 0]),
     (3, [natLe 4 0]),
     (4, [natLe 8 0 ++ natLe 128 0xF0]),
     (5, [natLe 8 0 ++ (List.replicate 3 (natLe 4 100 ++ natLe 4 1600)).flatten]),
     (6, [natLe 2 1000 ++ natLe 30 0 ++ natLe 2 400 ++ natLe 2 1500 ++ natLe 4 1 ++ natLe 4 2 ++ natLe 20 0]),
     (7, [natLe 2 1 ++ natLe 10 0 ++ natLe 8 1 ++ natLe 44 0]),
     (9, [bs [0, 15, 1, 0, 0, 0, 0, 0]]),
     (13, [bs [0, 1, 1, 0, 3, 5] ++ natLe 10 0])]

/-- A trim image of one record. -/
def trimImage (idKey : Bytes) : Bytes := mkImage 3 0 0 0 (shake256 idKey) [(14, [natLe 8 0])]

/-- The active image of the states below. -/
def im0 : Image := parseImage structImage

/-! ### Small states -/

def wAux : State := State.reset.wr F.PWR_STATUS_AUX_VALID 1 |>.wr F.AON_STAGE_SUPERVISION 1
def wMain : State := { wAux with pwr := { main := true } }
def wOn : State := { wAux.wr F.PWR_STATUS_CONV_ON 1 with pwr := { main := true, ana := true, perstRel := some 0 } }
def wFoot : State := wOn.wr F.AON_STAGE_STAGE 1

/-- A firmware image for root 0. -/
def fwImage : Bytes :=
  ascii "VFWI" ++ natLe 4 0x10004 ++ natLe 4 0 ++ natLe 4 2896 ++ natLe 8 0 ++ ascii "VGL-IL9T" ++ ascii "B0" ++ natLe 30 0 ++ natLe 2832 0
def wBoot : State := { wFoot with sec := { flash := { fwA := fwImage }, genuine := [(.root 0, fwImage.take 64, natLe 2820 0)] } }
def wDrum : State :=
  { wOn.wr F.AON_STAGE_STAGE 2 with
    sec := { fw := some { slot := 0, version := 0x10004, secVersion := 0, digest := [] },
             flash := { slots := [structImage, [], [], []], trim := trimImage [] },
             genuine := [(.root 0, imgMsg structImage, natLe 2820 0), (.root 0, imgMsg (trimImage []), natLe 2820 0)] } }
def fw0 : FwRun := { slot := 0, version := 0x10004, secVersion := 3, digest := [] }
/-- Partition 0 on group 0 at Finial, a session of PF0 on mailbox 0 with every feature. -/
def wUp : State :=
  { (((wOn.wr F.AON_STAGE_STAGE 4).wr F.AON_STAGE_FIRMWARE 1).wr F.AON_STAGE_SIDEBAND 1).wr F.CLK_AG_STATE 0 0 with
    img := { act := some im0 }, sec := { fw := some fw0 },
    pwr := { main := true, ana := true, perstRel := some 0, grpMhz := [(0, 1000)], grpMv := [(0, 800)], bfyMhz := 400 },
    host := { nextSid := 6, sessions := [{ m := 0, id := 5, fn := .pf0, verMajor := 1, verMinor := 0, feats := 31, policy := 0, lastBeat := 0,
                                           absentAt := none, bfyCore := none }] } }
def wDome : State := wUp.wr F.AON_STAGE_STAGE 3
/-- A request of PF0 on mailbox 0. -/
def h0 : MbxHdr := { m := 0, fn := .pf0, verMajor := 1, verMinor := 0, seq := 9, len := 0, session := 5, lenOk := true, resOk := true }

/-- A valid writable DRAM page-map entry of partition `p` for frame `f`, with further bits. -/
def eD (p f : Nat) (bits_ : List Nat := []) : Nat := (bits_.map (fun b => 2 ^ b)).sum + 2 ^ 63 + p * 2 ^ 59 + 2 ^ 54 + f
/-- Page `v` of the page map set to `e`. -/
def page (s : State) (v e : Nat) : State := s.wrNat (8 * v) 8 e
/-- Pages 100 (plain) and 101 (SNAP, COW) of partition 0, a cut in force with a reserve of 10 frames. -/
def wPg : State :=
  (page (page wUp 100 (eD 0 8200)) 101 (eD 0 8201 [52, 51])).wr F.PGM_CUT_ACTIVE 1 |>.wr F.PGM_RESERVE_FRAMES 10
    |>.wr F.PGM_RESERVE_BASE_FRAME 8300

/-- Bytes of a record: numbers (offset, bytes, value) over zeros. -/
def fields (n : Nat) (l : List (Nat × Nat × Nat)) : Bytes :=
  l.foldl (fun b x => patchBytes b x.1 (natLe x.2.1 x.2.2)) (natLe n 0)
/-- Device address of page 100 and key of its frame. -/
def A : Nat := 100 * 65536
def K : Nat := 8200 * 65536
def fI4 : Fmt := ⟨true, 0, 4, 0, 0, true⟩
/-- A started MATMUL of partition 0 on array 0: two slots of INT4, one chunk. -/
def jM : Job :=
  { id := 1, g := 0, c := 0, p := 0, idx := 0, alt := false, level := 0, inReg := false, ext := [], unit := 0, xf := fI4, yf := fI4,
    of_ := fI4, m := 2, n := 256,
    desc := fields 64 [(0, 1, 1), (16, 6, A), (22, 6, A + 16384), (28, 6, A + 32768), (40, 1, 8), (41, 1, 8), (42, 1, 8)] }
/-- Its tiles complete in page 100. -/
def wMat : State :=
  let s := ({ page wUp 100 (eD 0 8200) with jobs := [jM] } : State)
  (s.wrBytes K (fields 64 [(0, 1, 1), (1, 1, 8), (3, 1, 4), (4, 2, 1), (6, 2, 255), (24, 2, 2), (26, 1, 1), (29, 1, 127)])).wrBytes (K + 16384)
    (fields 64 [(0, 1, 2), (1, 1, 8), (4, 2, 255), (6, 2, 255), (24, 2, 256), (26, 1, 1), (29, 1, 127)])
def tM : TileSt := { job := 1, pass := 0, rows := [], scales := [] }
/-- A slot of `jM` in flight. -/
def fM : SlotFl :=
  { job := 1, pass := 0, slot := 0, start := 0, w := 4, phys := List.replicate 256 ColRes.start, chains := [], em := 0, ee := 0,
    special := false, tops := [], cmin := [], judged := false }
/-- A contribution held in slot 0 of its entry. -/
def yH : PartIn := { dev := 9, job := 1, index := 0, gen := 0, got := 4, hold := some 0, lastAt := 0 }
/-- `jM` with a block-scaled output along m, 31 rows of it held in the drain. -/
def jB : Job := { jM with desc := patchBytes jM.desc 44 (natLe 1 96 ++ natLe 1 32), held := List.replicate 31 [] }
/-- Reduction entry 2 of partition 0: four elements, two contributors, class `c`. -/
def redE (c : Nat) : Bytes :=
  fields 64 [(0, 8, A + 4096), (8, 8, A + 8192), (40, 2, 3), (42, 2, 3), (44, 2, 1), (48, 1, c), (49, 1, 18), (51, 1, c), (54, 1, 128)]
/-- That entry open at unit 3, its table at the start of page 100. -/
def wRed (c : Nat) (x : AtuEntry) : State :=
  let s := ((page wUp 100 (eD 0 8200)).wr F.MEM_REDTAB_BASE 1600 |>.wr F.MEM_REDTAB_COUNT 16).wrBytes (K + 128) (redE c)
  { s with atu := [(redKey 0 2, x)] }
/-- A stairway copy of two rows of 32 INT4 elements on engine 1 of AG0. -/
def jC : Job :=
  { id := 7, g := 0, c := 0, p := 0, idx := 0, alt := false, level := 0, inReg := false, ext := [], unit := 17, xf := fI4, of_ := fI4,
    desc := fields 64 [(0, 1, 2), (16, 6, A + 64)],
    cmd := fields 64 [(0, 8, A + 1024), (8, 8, A + 2048), (24, 4, 16), (28, 2, 1), (30, 2, 31), (33, 1, 8), (34, 1, 8), (36, 1, 127), (37, 1, 127)] }
def wCopy : State := ({ page wUp 100 (eD 0 8200) with jobs := [jC] } : State).wr F.STW_CMD_ACTIVE 1 0 1

/-- Context 0 of AG0, its rings of 16 slots in page 100. -/
def x0 : CtxSt :=
  { sqBase := A, sqLog2 := 4, cqBase := A + 4096, cqLog2 := 4, irqFn := some .pf0, irqCore := none, session := 5, sqTail := 1 }
def wSeq (x : CtxSt) : State := { page wUp 100 (eD 0 8200) with ctxs := [(0, x)] }
/-- A descriptor of context 0 with the header bytes given. -/
def jD (l : List (Nat × Nat × Nat)) : Job :=
  { id := 3, g := 0, c := 0, p := 0, idx := 0, alt := false, level := 0, inReg := false, desc := fields 64 l, ext := [], unit := 31 }
def e0 : EndRec :=
  { ringIdx := 0, job := 3, index := 0, alt := false, level := 0, op := 0, tag := 77, status := 0, detail := 0, info := 0, chk := false,
    ringDue := false, write := true }
def withHeld (s : State) (l : List (Nat × HeldEvent)) : State := { s with pwr := { s.pwr with held := l } }
/-- A region of context 0, its fallback level 2 in force. -/
def rR : RegionSt := { start := 0, span := 3, levelMax := 2, altAddr := A + 8192, level := 2, segAddr := A + 8256, segCount := 3, withheld := [(7, 3)] }
/-- A COPY descriptor in slot 0 of the ring, its command `jC.cmd` at A + 1024. -/
def dCopy : Bytes := fields 64 [(0, 1, 2), (9, 1, 1), (16, 6, A + 1024)]
def wSeqCopy : State := ((wSeq x0).wrBytes K dCopy).wrBytes (K + 1024) jC.cmd
/-- A turret program of context 0. -/
def jT : Job := { jD [(0, 1, 3)] with unit := 20, pa := 0 }

/-- Sessions of the functions given, number k on mailbox k with id 10 + k, version 1.0, every feature. -/
def sess (m : Nat) (fn : Fn) : Session :=
  { m := m, id := 10 + m, fn := fn, verMajor := 1, verMinor := 0, feats := 31, policy := 0, lastBeat := 0, absentAt := none, bfyCore := none }
def withSess (s : State) (l : List Session) : State := { s with host := { s.host with sessions := l } }
/-- A request of function `fn` on mailbox `m` in its session. -/
def hM (m : Nat) (fn : Fn) : MbxHdr :=
  { m := m, fn := fn, verMajor := 1, verMinor := 0, seq := 9, len := 0, session := 10 + m, lenOk := true, resOk := true }

/-- Port L0 up, address 1 of a fabric with a route to address 7 through it. -/
def wFab : State :=
  (((((wUp.wr F.FAB_PORT_ROLE 1 0 |>.wr F.FAB_PORT_STATE 2 0).wr F.FAB_ADDR_ADDRESS 1).wr F.FAB_ADDR_VALID 1).wr F.FAB_ADDR_ADMITTED 1).wr F.FAB_ROUTE_VALID 1 7).wr
    F.FAB_ROUTE_PRIMARY 32 7
def withPort (s : State) (i : Nat) (x : FPort) : State := { s with fab := { s.fab with ports := aset s.fab.ports i x } }
/-- A WRITE of two bytes for endpoint 0 of address `dst`. -/
def kW (dst : Nat) : Pkt :=
  { src := 7, srcEp := 0, dst := dst, dstEp := 0, op := 1, arg := A, gen := 0, hops := 2, detours := 0, ordered := false, data := bs [3, 4], beat := none }
def withHeads (s : State) (l : List RouteWait) : State := { s with fab := { s.fab with heads := l } }
def withDeliv (s : State) (l : List Pkt) : State := { s with fab := { s.fab with delivered := l } }
def fIdle : Frame := { fseq := 5, ack := 0, crVc := 0, crCount := 0, body := .idle }
def hello7 : HelloMsg :=
  { version := 1, digest := bs [1], addr := 7, admitted := true, isolate := true, root := 7, level := 0, port := 31, stage := 4 }
def claim7 : ClaimMsg := { addr := 7, digest := bs [1], seq := 3, admitted := true, hops := 0, legal := true, down := true }

/-- Vote group 9 in slot 3, member partition 0. -/
def wVote : State := ((wFab.wr F.FAB_VGRP_ENABLE 1 3).wr F.FAB_VGRP_GROUP 9 3).wr F.FAB_VGRP_LOCAL_MASK 1 3
def withVote (s : State) (n : Nat) (v : VoteSt) : State := { s with fab := { s.fab with votes := [(n, v)] } }
/-- A mirror run of one page for partition 0, sent by device 7. -/
def twin0 : TwinRec :=
  { p := 0, mirrors := 1, twinDev := 7, twinPart := 0, secDev := 0, secPart := 0, srcDev := 0, srcPart := 0, partnerPages := 1, mirFrames := 40,
    mir1 := 8300, mir2 := 0 }
def wTwin : State :=
  let s : State := { wFab with img := { act := some { im0 with twins := [twin0] } } }
  ((s.wr F.SNP_MIRROR_BASE_FRAME 8300 0 0).wr F.SNP_MIRROR_L 36 0 0).wr F.SNP_MIRROR_STATE_A 1 0 0
def KS : Nat := 8300 * 65536
/-- Digests written out: SHAKE256 of nothing, of 512 zero bytes, of `me0`. -/
def shakeEmpty : Bytes := hexBytes 32 0x46b9dd2b0ba88d13233b3feb743eeb243fcd52ea62b81b82b50c27646ed5762f
def shakeZeros : Bytes := hexBytes 32 0x3351dd8fcaa76dfd641c75171d72c75476eaffaba68a990b2fb00bfda7a6527a
def shakeMe0 : Bytes := hexBytes 32 0x61f78acc8c05c8de11effddeb8530e9a3ec6b8879d34e26b0a2015f47db5b9ef
/-- A manifest entry of a shard without data, and a manifest header of one shard and no pages. -/
def me0 : Bytes := natLe 32 0 ++ shakeEmpty ++ shakeZeros ++ natLe 32 0
def mf0 : Bytes := ascii "VMNF" ++ fields 44 [(0, 1, 1), (4, 4, 41), (8, 4, 1), (20, 8, 6)] ++ shakeMe0 ++ shakeEmpty ++ natLe 16 0
/-- The slot under check, the entry in place. -/
def wSeal (tries : Nat) : State :=
  ({ wTwin with slots := [(slotKey 0 1 0, { sealing := some mf0, tries := tries })] } : State).wrBytes (KS + 65536 + 128) me0

/-- The slot under check, its manifest all zeros. -/
def wUnsealed (tries : Nat) : State := { wTwin with slots := [(slotKey 0 1 0, { sealing := some (natLe 128 0), tries := tries })] }

/-- A report of class 0 for partition 0 at a level. -/
def rp (level : Nat) : Report := { cls := 0, level := level, master := 0x30, part := 0, source := 0x30, code := 7, addr := A }
def withColl (s : State) (l : List Report) : State := { s with fc := { s.fc with coll := l } }
/-- A fault record. -/
def fe (seq : Nat) : FEntry :=
  { time := 1, addr := 2, cls := 0, level := 1, final := 1, master := 3, access := 0, part := 255, source := 3, code := 0, flags := 0, seq := seq,
    aux := 0, rep := 0, stage := 4, mode := 0 }
/-- A mismatch of partition 0 between arrays 0 and 16. -/
def mm0 : Mismatch := { p := 0, unit := 0x30, unitPa := 0, echo := 0x30, echoPa := 16, step := 41, bucketU := 3, bucketE := 4 }

/-- A ledger area of one frame for partition 0, its queue enabled; `x` is the engine's state. -/
def wLed (x : LedSt) : State :=
  { (((page wFab 100 (eD 0 8200)).wr F.LDG_AREA_BASE_FRAME 8400 0).wr F.LDG_AREA_FRAMES 1 0).wr F.LDG_SQ_ENABLE 1 0 with led := [(0, x)] }
/-- A SEND of step 41, 64 bytes from page 100 to device 7. -/
def cSend : Bytes := fields 64 [(0, 1, 1), (4, 2, 7), (8, 6, A), (14, 6, A), (24, 4, 41)]
/-- A BATCH record of step 41 for no device. -/
def cBatch : Bytes := fields 64 [(0, 1, 2), (4, 2, 0xFFFF), (24, 4, 41), (40, 1, 9)]
def cResend : Bytes := fields 64 [(0, 1, 3), (4, 2, 7), (24, 4, 41)]
def withSnap (s : State) (x : SnapSt) : State := { s with snp := [(0, x)] }
def snap0 : SnapRec :=
  { p := 0, minCut := 1, maxCut := 2, intervalMs := 1, drainRate := 1, shardPages := 1, resBase := 8300, resFrames := 10, stepUsMin := 1 }
/-- Cuts of partition 0: page 101 in SNAP, the shard table in it with one shard, one mirror. -/
def wCut (x : SnapSt) : State :=
  let s : State := { page wFab 101 (eD 0 8201 [52]) with img := { act := some { im0 with twins := [twin0], snaps := [snap0] } } }
  withSnap (((s.wr F.SNP_TABLE_BASE 101 0).wr F.SNP_TABLE_SHARDS 1 0).wrBytes (8201 * 65536)
    (ascii "VSHD" ++ fields 60 [(0, 1, 1), (2, 1, 3), (3, 1, 1), (20, 8, 101 * 65536 + 4096), (28, 8, 64)])) x
def dr0 : MirrorDrain := { r := 1, slot := 0, dev := 7, base := 8300, len := 36, opened := true }
def si0 : SlotInfo := { state := 2, step := 41, cutId := 6, pinned := false, serving := false }
def req0 : RestoreReq := { p := 0, exact := false, step := 0, reslice := false, dryRun := false, sources := [] }
/-- Partition 0 in state `n` of its hang machinery. -/
def wHang (n : Nat) (x : HangSt) : State := { wUp.wr F.HNG_STATUS_STATE n 0 with hng := [(0, x)] }
def du0 : DumpUnit := { master := 0, inst := 0, method := 0, record := bs [1, 2, 3], atUs := 4 }

/-- The seal open, the next index, the reserved block and the tokens as given. -/
def wTok (next blk tokens : Nat) : State :=
  { ((wUp.wr F.SEC_STATUS_ID_VALID 1).wr F.SEC_SIGIDX_NEXT_INDEX next).wr F.SEC_SIGIDX_TOKENS tokens with
    sec := { wUp.sec with flash := { sigBlock := blk } } }
/-- Signatures that verify, beside the state's own. -/
def wGen (l : List (VKey × Bytes × Bytes)) (s : State) : State := { s with sec := { s.sec with genuine := l } }
/-- An unsigned-for token with the counter, the byte at 44, the key slot and the bytes from 48 given, its signature all zeros. -/
def tokB (magic : String) (counter mask slot : Nat) (rest : Bytes) : Bytes :=
  ascii magic ++ natLe 4 1 ++ shake256 [] ++ natLe 4 counter ++ natLe 4 mask ++ rest ++ natLe (80 - rest.length) 0 ++ natLe 4 slot ++ natLe 2828 0
/-- A patch of partition 0 on image 7 with a NUMERICS record. -/
def patchB (seq : Nat) : Bytes := mkImage 2 0 seq 7 (natLe 32 0) [(9, [bs [0, 14, 1, 0, 0, 0, 0, 0]])]
/-- A signed patch in page 100, every array of group 0 present and the partition idle. -/
def wPatch (b : Bytes) : State :=
  let s := (List.range 17).foldl (fun (s : State) j => s.wr F.SPR_STATUS_ROLE (if j = 16 then 2 else 1) j) (page wUp 100 (eD 0 8200))
  wGen [(.root 0, imgMsg b, natLe 2820 0)] (atTop (s.wr F.MGT_IMAGE_ID_IMAGE_ID 7) K b)

/-- A four-part answer by its third part. -/
theorem third_is {α β γ δ : Type} {x : α × β × γ × δ} {c : γ} (h : x.2.2.1 = c) : x = (x.1, x.2.1, c, x.2.2.2) := by
  subst h; rfl

/-- A read without a fault is what its parts say. -/
theorem good_read {x : Option Nat × Bytes × Bool × State} {b : Bytes} (h : x.1 = none) (h1 : x.2.1 = b) (h2 : x.2.2.1 = false) :
    x = (none, b, false, x.2.2.2) := by
  obtain ⟨_, _, _, d⟩ := x; subst h; subst h1; subst h2; rfl

/-! ### The manual's worked examples -/

/-- FP8 E4M3, FP4 E2M1 and the custom E3M4 of the manual's examples. -/
def e4m3 : Fmt := ⟨false, 4, 4, 7, 1, true⟩
def e2m1 : Fmt := ⟨false, 2, 2, 1, 0, true⟩
def e3m4 : Fmt := ⟨false, 3, 5, 3, 1, true⟩
/-- Small dyadic numbers. -/
def dy (m u : Int) : Val := Val.ofInt m u

/-- spec/03, example of FP8 E4M3 encodings under RNE. -/
theorem test_e4m3_rne :
    fixedFmt 4 = some e4m3 ∧ e4m3.convert false (dy 7 (-2)) 0 0 0 = (0x3E, ocNormal)
      ∧ e4m3.convert false (fp32.decode false 0xBDCCCCCD) 0 0 0 = (0x9D, ocNormal) ∧ e4m3.convert false (dy 460 0) 0 0 0 = (0x7E, ocNormal)
      ∧ e4m3.convert false (dy 464 0) 0 0 0 = (0x7E, ocNormal) ∧ e4m3.convert false (dy (-500) 0) 0 0 0 = (0xFE, ocOverflow)
      ∧ e4m3.convert false (dy (-500) 0) 0 1 0 = (0x7F, ocOverflow) := by decide +kernel

/-- spec/03, example of stochastic rounding: 9Dh exactly where u is at least 13,108. -/
theorem test_e4m3_sr :
    (e4m3.convert false (fp32.decode false 0xBDCCCCCD) 1 0 13107).1 = 0x9C
      ∧ (e4m3.convert false (fp32.decode false 0xBDCCCCCD) 1 0 13108).1 = 0x9D := by decide +kernel

/-- spec/03, example of an FP4 E2M1 block on drain. -/
theorem test_fp4_block :
    e2m1.blockScale ([dy 12 0, dy (-3) 0, fp32.decode false 0x3ECCCCCD, dy 5 0] ++ List.replicate 28 (Val.zero false)) = 0x80
      ∧ e2m1.blockElem 0x80 (dy 12 0) 0 0 0 = (7, ocNormal) ∧ e2m1.blockElem 0x80 (dy (-3) 0) 0 0 0 = (0xB, ocNormal)
      ∧ e2m1.blockElem 0x80 (fp32.decode false 0x3ECCCCCD) 0 0 0 = (0, ocVanished) ∧ e2m1.blockElem 0x80 (dy 5 0) 0 0 0 = (4, ocNormal) := by
  decide +kernel

/-- spec/03, example of the custom E3M4 descriptor: the write, the values, and the write that reads back ERROR 05h. -/
theorem test_custom_format :
    fmtError 0x00250353 = 0 ∧ fmtError 0x00010011 = 5 ∧ e3m4.b = 8 ∧ e3m4.decode false 0x7E = dy 30 0 ∧ e3m4.emaxElem = 4 ∧ e3m4.nanBits = 0x7F
      ∧ e3m4.decode false 0x01 = dy 1 (-6) ∧ (e3m4.convert false (dy 3 0) 0 0 0).1 = 0x48 ∧ e3m4.span = 11 ∧ e3m4.exact = true
      ∧ (⟨false, 5, 12, 15, 2, true⟩ : Fmt).span = 41 ∧ (⟨false, 5, 12, 15, 2, true⟩ : Fmt).exact = false := by decide +kernel

/-- AG_FMT_WRITE of that descriptor to slot 3 of AG0: AG_FMT3 then reads 8000_0000_0025_0353h. -/
theorem test_custom_format_write :
    (match exec (.agFmtWrite 100 0 3 0x00250353) wUp with
     | .next s => s.shown .AG_FMT 0 3
     | _ => 0) = 0x8000000000250353 := by decide +kernel

/-- spec/02, *Slot period examples*: S and P of the five rows. -/
theorem test_slot_periods :
    (slotBytes 0 8 1, slotPeriod 0 8 4 1) = (256, 4) ∧ (slotBytes 1 8 1, slotPeriod 1 8 4 1) = (512, 4) ∧ (slotBytes 2 8 1, slotPeriod 2 8 4 1) = (1024, 6)
      ∧ (slotBytes 2 4 2, slotPeriod 2 4 2 2) = (544, 3) ∧ (slotBytes 1 4 2, slotPeriod 1 4 2 2) = (272, 2) := by decide

/-- spec/06, example of R135: bytes 1,154 and 6,795 from DST_ADDR, and 81,664 bytes of lines. -/
theorem test_stream_layout :
    (let g := streamGeom 0 4 e4m3 1 256; let e := g.elem 0 8 2 9; (g.period, g.q, g.line, 64 + e.1 + e.2 / 8, g.sumOff)) = (4, 64, 64, 1154, 81664)
      ∧ (let g := streamGeom 1 4 e4m3 1 256; let e := g.elem 1 8 2 300; (g.line, 64 + e.1 + e.2 / 8)) = (128, 6795) := by decide

/-- spec/04, *Worked example: one Square column*: the exact result, its rounding, and the draws that round it up. -/
theorem test_square_column :
    (let r := columnRun [([(e4m3.decode false 0x7E).mul (e4m3.decode false 0x7E), (e4m3.decode false 1).mul (e4m3.decode false 1)], 0),
                         ([(e4m3.decode false 0x38).mul (e4m3.decode false 0x38)], 13)] 8
     r.value = dy ((208896 * 2 ^ 18 + 1) * 2 ^ 604) (-622) ∧ r.special = false ∧ r.anchor = 18 ∧ accRound false r.value 0 0 = 0x484C0000
       ∧ accRound false r.value 1 65519 = 0x484C0000 ∧ accRound false r.value 1 65520 = 0x484C0001) := by decide +kernel

/-- spec/09, *Worked example: from a device address to a burst*: the entry's value and the channel address of 80_1234h * 64 KiB + 7890h in a window of
512 channels from S8.C0 at 512 GiB with granule 2 KiB. -/
def wBurst : State :=
  { ((State.reset.wr F.PGM_WINDOW_CHANNELS 512 1).wr F.PGM_WINDOW_GRANULE 1 1).wr F.PGM_WINDOW_BASE_GIB 512 1 with
    img := { act := some { im0 with chans := [{ p := 1, granule := 1, chans := (2 ^ 512 - 1) * 2 ^ 512 }] } } }
theorem test_burst_address :
    eD 1 0x801234 = 0x8840000000801234 ∧ pageKey (eD 1 0x801234) 0x7890 = 0x8012347890
      ∧ wBurst.chanOf 0x8012347890 = some (10, 15, 596112) ∧ wBurst.chanKey 10 15 596112 = some (0x8012347890, 1) ∧ 596112 / 128 = 4657 := by
  decide +kernel

/-- spec/11, *Worked example: checking retention*: 1,966,561 reserve frames and 1,795,200 ledger frames pass, one fewer of either does not. -/
def imRet (ledger : Nat) : Image :=
  { im0 with dets := [{ p := 0, goal := 1, horizon := 16, targetExp := 0, echoCeil := 0 }],
             leds := [{ p := 0, base := 0, frames := ledger, bytesPerStep := 209715200 }] }
def snRet (reserve : Nat) : SnapRec :=
  { p := 0, minCut := 17, maxCut := 240, intervalMs := 60000, drainRate := 50, shardPages := 1966080, resBase := 0, resFrames := reserve,
    stepUsMin := 500000 }
theorem test_retention :
    (imRet 1795200).retention (snRet 1966561) = true ∧ (imRet 1795199).retention (snRet 1966561) = false
      ∧ (imRet 1795200).retention (snRet 1966560) = false := by decide +kernel

/-- Known answers of FIPS 202 and of CRC-32C. -/
theorem test_digests : shake256 [] = shakeEmpty ∧ crc32c (ascii "123456789") = 0xE3069283 := by decide +kernel

/-! ### The queue, and words -/

/-- The state after a command. -/
def after (c : Instr) (s : State) : State := match exec c s with | .next s' => s' | _ => s

/-- No word spells a command; an empty queue idles; the command in front leaves it. -/
theorem test_queue :
    decodeTableWord 16 0x1234 = none ∧ State.reset.withFetchWord 16 0x1234 = State.reset
      ∧ step wAux = .next wAux ∧ step { State.reset with pending := [.mainInValid 5, .seqViolClear 6] } = exec (.mainInValid 5) { State.reset with pending := [.seqViolClear 6] } := by
  refine ⟨rfl, rfl, rfl, rfl⟩

/-- Hypotheses of CompletesIffUnitsExist, QueueIsFifo, MemoryStaysCanonical and MemoryFrame: commands and states that meet them. -/
theorem met_CompletesIffUnitsExist : (∃ c, wellFormed c = true) ∧ (∃ c, wellFormed c = false) :=
  ⟨⟨.mainInValid 5, rfl⟩, ⟨.shadowRowLoad 0 272 0, rfl⟩⟩
theorem met_QueueIsFifo :
    (∃ s s' : State, step s = .next s' ∧ (∀ t m, s.pending.head? ≠ some (.addressSettle t (some m)))) ∧
    (∃ (c : Instr) (s s' : State), exec c s = .next s') ∧ (∃ (t m : Nat) (s s' : State), exec (.addressSettle t (some m)) s = .next s') :=
  ⟨⟨{ wAux with pending := [.mainInValid 5] }, after (.mainInValid 5) wAux, rfl, nofun⟩, ⟨.mainInValid 5, wAux, after (.mainInValid 5) wAux, rfl⟩,
   ⟨5, 7, wDome, after (.addressSettle 5 (some 7)) wDome, rfl⟩⟩
theorem met_MemoryStaysCanonical : ∃ s s' : State, s.Inv ∧ step s = .next s' :=
  ⟨{ wPg with pending := [.mainInValid 5] }, after (.mainInValid 5) wPg, by unfold State.Inv; decide +kernel, rfl⟩
theorem met_MemoryFrame : ∃ (c : Instr) (s s' : State), stores c = false ∧ exec c s = .next s' :=
  ⟨.debugLock 5 h0, wPg, after (.debugLock 5 h0) wPg, rfl, rfl⟩

/-! ### Ill-formed commands, one for each check -/

def illFormed0 : List Instr :=
  [.configurationRequest 0 (.vf 0) .dvsec1 none,
   .configurationRequest 0 (.vf 17) .dvsec1 none,
   .configurationRequest 0 (.bfy 0) .dvsec1 none,
   .railSample 0 39 0,
   .thermalTrip 0 29,
   .thermalThrottleSample 0 10 0,
   .adaptiveVoltageStep 0 17 false false,
   .droopDetect 0 17,
   .clockGateEntry 0 16,
   .powerGateEntry 0 16,
   .wakeEvent 0 16 (.test 0),
   .wakeStart 0 16,
   .wakeComplete 0 16,
   .elementStart 0 272 0,
   .feedReadReturn 0 272 0 0 .data,
   .feedReadReturn 0 0 0 1024 .data,
   .shadowRowLoad 0 272 0,
   .drainSlot 0 272 0 [] [],
   .checksumColumnVerdict 0 272 0 0 0,
   .checksumRowVerdict 0 272 0 [],
   .heldContributionApply 0 16 0,
   .contributionStall 0 16 0 0 false,
   .stairwaySlotWritten 0 16 0,
   .stairwaySlotWritten 0 0 4,
   .stairwaySourceError 0 16 0 0,
   .stairwaySourceError 0 0 4 0,
   .stairwaySourceError 0 0 0 5,
   .doorbellWrite 0 .pf0 16 0 0,
   .doorbellWrite 0 .pf0 0 8 0,
   .descriptorHead 0 16 0,
   .descriptorHead 0 0 8,
   .descriptorStart 0 16 0,
   .descriptorStart 0 0 8,
   .descriptorRetire 0 16 0 0,
   .descriptorRetire 0 0 8 0,
   .levelStart 0 16 0,
   .levelStart 0 0 8,
   .completionRecordWrite 0 16 0 0,
   .completionRecordWrite 0 0 8 0,
   .bellRingArrive 0 16 []]
def illFormed1 : List Instr :=
  [.waitExpire 0 16 0 [],
   .waitExpire 0 0 8 [],
   .belRing 0 .mgt 16 0,
   .belSet 0 .mgt 16 0,
   .contextResume 0 16 0,
   .contextResume 0 0 8,
   .contextRetry 0 16 0,
   .contextRetry 0 0 8,
   .turretProgramEnd 0 16 0,
   .turretFault 0 16 0,
   .watchDeposit 0 16 0 0 0,
   .watchDeposit 0 0 1024 0 0,
   .agFmtWrite 0 16 0 0,
   .agFmtWrite 0 0 16 0,
   .agNumAdvanceWrite 0 16 0,
   .advanceRun 0 16,
   .dramBurstCorrected 0 16 0 0 [],
   .dramBurstCorrected 0 0 64 0 [],
   .dramBurstCorrected 0 0 0 (2 ^ 23) [],
   .dramBurstCorrected 0 0 0 0 [72],
   .dramBurstUncorrected 0 16 0 0 0 false [],
   .dramBurstUncorrected 0 0 64 0 0 false [],
   .dramBurstUncorrected 0 0 0 (2 ^ 23) 0 false [],
   .dramBurstUncorrected 0 0 0 0 0 false [72],
   .patrolScrub 0 16 0 0 [],
   .patrolScrub 0 0 64 0 [],
   .patrolScrub 0 0 0 (2 ^ 23) [],
   .patrolScrub 0 0 0 0 [72],
   .cupolaScrub 0 16 0 .clean,
   .cupolaScrub 0 0 (384 * 2 ^ 20) .clean,
   .cupolaReadError 0 16 0 0 false false,
   .cupolaReadError 0 0 (384 * 2 ^ 20) 0 false false,
   .refreshSample 0 16 0,
   .regulatorAdmit 0 16 0 0 0 false,
   .regulatorAdmit 0 0 3 0 0 false,
   .requestReachChannel 0 16 0 0,
   .requestReachChannel 0 0 3 0,
   .bfyCoreReset 0 48 .mgt,
   .belfryAccessFault 0 48 0 0 none,
   .belfryRegisterDenied 0 48 .AG_FMT 0 0 false]
def illFormed2 : List Instr :=
  [.belfryRegisterDenied 0 0 .AG_FMT 17 0 false,
   .belfryRegisterDenied 0 0 .AG_FMT 0 16 false,
   .machineCheck 0 48 0 false,
   .ethernetFrameReceive 0 2 0 none 0 0 [] 0 0,
   .flrVf 0 0,
   .flrVf 0 17,
   .vfBar2Access 0 0 0 0 none,
   .vfBar2Access 0 17 0 0 none,
   .dirRead 0 (.mbx { h0 with m := 32 }) 0 0,
   .openSession 0 { h0 with m := 32 } (⟨0, 0, 0, 0, false, none, 0⟩),
   .closeSession 0 { h0 with m := 32 },
   .statusMsg 0 { h0 with m := 32 },
   .contextOpen 0 { h0 with m := 32 } (⟨0, 0, 0, 0, 0, 0, false, none, 0⟩),
   .contextClose 0 { h0 with m := 32 } 0 0,
   .contextResync 0 { h0 with m := 32 },
   .windowSet 0 { h0 with m := 32 } false 0 0,
   .holdRelease 0 { h0 with m := 32 } 0,
   .partitionReset 0 { h0 with m := 32 } 0 false,
   .imageWrite 0 { h0 with m := 32 } 0 0 [],
   .imageSelect 0 { h0 with m := 32 } 0,
   .patchApply 0 { h0 with m := 32 } 0 0 0,
   .fwWrite 0 { h0 with m := 32 } 0 [],
   .warmReset 0 { h0 with m := 32 } false,
   .policySet 0 { h0 with m := 32 } 0,
   .heartbeat 0 16 .pf0 0,
   .heartbeatLapse 0 16,
   .absentSessionClose 0 16,
   .frameReceive 0 32 (⟨0, 0, 0, 0, .idle⟩) false,
   .nakReceive 0 32 0,
   .replayTimer 0 32,
   .retrainComplete 0 32 false 0 [],
   .silenceTimeout 0 32,
   .silentExpire 0 32,
   .downTrainingAttempt 0 32,
   .trainingComplete 0 32 0 [],
   .lightLoss 0 8,
   .opticalPowerSample 0 32 [] 0,
   .censusSend 0 32,
   .census 0 32 [] 0,
   .reconcile 0 32 []]
def illFormed3 : List Instr :=
  [.helloSend 0 32,
   .hello 0 32 (⟨0, [], 0, false, false, 0, 0, 0, 0⟩),
   .claim 0 32 (⟨0, [], 0, false, 0, false, false⟩),
   .withdraw 0 32 [],
   .announce 0 32 [],
   .routeEntryWrite 0 .mgt 65536 0,
   .voteCast 0 .mgt 16 0,
   .voteCastRelease 0 16,
   .voteUp 0 32 0 0 false 0 0,
   .voteReport 0 16,
   .voteDown 0 32 0 0 0 0 0,
   .vgrpEnable 0 .mgt 16 0,
   .timeExchange 0 32 0 0 0 0 [],
   .peerQuery 0 32 none,
   .alertSample 0 [128],
   .brokenPathClear 0 128,
   .pendingAutoClear 0 7 0,
   .pendingAutoClear 0 0 17,
   .faultRead 0 { h0 with m := 32 } 0 0,
   .faultAck 0 { h0 with m := 32 } 0 0,
   .faultHistory 0 { h0 with m := 32 } 0 0,
   .faultFirst 0 { h0 with m := 32 } 0,
   .echoCompare 0 16 0 0 false,
   .echoCompare 0 0 8 0 false,
   .echoAbandon 0 16 0,
   .echoAbandon 0 0 8,
   .galleryKnownAnswer 0 16 false,
   .samplingRateUpdate 0 16,
   .marginSample 0 0 16 0,
   .marginSample 0 7 0 0,
   .galleryStatus 0 { h0 with m := 32 },
   .campanileRun 0 { h0 with m := 32 } (⟨none, 0, 0, 0⟩),
   .campanileResult 0 { h0 with m := 32 },
   .bucketRead 0 { h0 with m := 32 } 0,
   .bucketClear 0 { h0 with m := 32 } 0,
   .warnSet 0 { h0 with m := 32 } 0 0,
   .ldgDbWrite 0 .mgt 16 0,
   .ledgerResume 0 .mgt 16,
   .ledgerSend 0 16,
   .ledgerBatch 0 16]
def illFormed4 : List Instr :=
  [.ledgerResend 0 16,
   .ledgerAppendWaitEnd 0 16,
   .ledgerCommand 0 { h0 with m := 32 } 0 [],
   .ledgerStatus 0 { h0 with m := 32 },
   .inboxReceive 0 16,
   .inboxRecheck 0 16,
   .ldgFloorWrite 0 .mgt 16 0,
   .cutArm 0 16,
   .intervalTrigger 0 16,
   .snpTriggerNow 0 .mgt 16,
   .drainPageSend 0 16,
   .slotStatusPoll 0 16 0 none,
   .snapNow 0 { h0 with m := 32 } 0,
   .snapStatus 0 { h0 with m := 32 },
   .snapServe 0 { h0 with m := 32 } (⟨0, 0, 0, 0, 0, 0, false⟩),
   .restore 0 { h0 with m := 32 } (⟨0, false, 0, false, false, []⟩),
   .restoreComplete 0 16,
   .manifestSign 0 { h0 with m := 32 } [] [],
   .hangWatchdogExpire 0 16,
   .hngReqReset 0 .mgt 16 0,
   .dumpUnitRead 0 16 [],
   .dumpPortTimeout 0 16 none,
   .collectionLimit 0 16,
   .partitionResetBegin 0 16,
   .partitionResetComplete 0 16,
   .hangStatus 0 { h0 with m := 32 },
   .dumpRead 0 { h0 with m := 32 } 0 0 0,
   .dumpRelease 0 { h0 with m := 32 } 0,
   .watchdogSet 0 { h0 with m := 32 } 0 0 0 0,
   .getIdentity 0 (.mbx { h0 with m := 32 }),
   .getEvidence 0 (.mbx { h0 with m := 32 }) [],
   .getCounters 0 (.mbx { h0 with m := 32 }),
   .counterCommit 0 { h0 with m := 32 } 0,
   .ownerTransfer 0 { h0 with m := 32 } [],
   .debugUnlock 0 { h0 with m := 32 } [],
   .debugLock 0 { h0 with m := 32 },
   .rootRevoke 0 { h0 with m := 32 } [],
   .misalignedAccess 0 .mgt .AG_FMT 17 0 false,
   .rcCounterRead 0 .mgt .AG_FMT 17 0 none,
   .registerWrite 0 .mgt .AG_FMT 17 0 0 0]
def illFormed5 : List Instr :=
  [.pageMapWrite 0 (2 ^ 24) 0,
   .ratingsBreach 0 3 0,
   .ratingsBreach 0 60 0,
   .ratingsBreach 0 116 0,
   .ratingsBreach 0 208 0,
   .ratingsBreach 0 332 0,
   .frameSend 0 32,
   .memoryReplyReturn 0 16 0 0 none,
   .portTrainingTimeout 0 32,
   .mailboxUnknownOpcode 0 { h0 with m := 32 } 0,
   .mbxGoIgnored 0 32 .pf0]

/-- A unit beyond the last of its kind, or a function without configuration registers, makes a command ill formed. -/
theorem test_ill_formed :
    (illFormed0 ++ illFormed1 ++ illFormed2 ++ illFormed3 ++ illFormed4 ++ illFormed5).all (fun c => !wellFormed c) = true := by decide +kernel

/-! ### Hypotheses of the statements are met -/

def xSuppliesStartConverters_2 : State := { wAux with pwr := { ana := true } }

/-- Hypotheses of SuppliesStartConverters: for each clause, a state and operands that meet them. -/
theorem met_SuppliesStartConverters :
    (∃ (s : State) (t : Nat) (b : Bool),
      s.on F.PWR_STATUS_AUX_VALID = false) ∧
    (∃ (s : State) (t : Nat),
      s.pwr.main = false ∧ s.pwr.ana = true ∧ s.on F.PWR_STATUS_AUX_VALID = true ∧ s.latched = false ∧ s.on F.PWR_STATUS_CONV_ON = false) ∧
    (∃ (s : State) (t : Nat),
      s.pwr.main = false ∧ s.pwr.ana = false ∧ s.on F.PWR_STATUS_AUX_VALID = true) ∧
    (∃ (s : State) (t : Nat),
      s.on F.PWR_STATUS_AUX_VALID = true ∧ s.pwr.main = true ∧ s.latched = false ∧ s.on F.PWR_STATUS_CONV_ON = false) ∧
    (∃ (s : State) (t : Nat),
      s.on F.PWR_STATUS_AUX_VALID = true ∧ s.pwr.main = true) ∧
    (∃ (s : State) (t : Nat),
      s.on F.PWR_STATUS_CONV_ON = true) :=
  ⟨⟨State.reset, 100, true, by decide +kernel⟩,
   ⟨xSuppliesStartConverters_2, 100, by decide +kernel, by decide +kernel, by decide +kernel, by decide +kernel, by decide +kernel⟩,
   ⟨wAux, 100, by decide +kernel, by decide +kernel, by decide +kernel⟩,
   ⟨wMain, 100, by decide +kernel, by decide +kernel, by decide +kernel, by decide +kernel⟩,
   ⟨wOn, 100, by decide +kernel, by decide +kernel⟩,
   ⟨wUp, 100, by decide +kernel⟩⟩

/-- Hypotheses of ResetDomains: for each clause, a state and operands that meet them. -/
theorem met_ResetDomains :
    (∃ (s : State) (t : Nat),
      s.on F.PWR_STATUS_AUX_VALID = true) ∧
    (∃ (s : State) (t : Nat),
      s.on F.PWR_STATUS_AUX_VALID = true) :=
  ⟨⟨wUp, 100, by decide +kernel⟩,
   ⟨wUp, 100, by decide +kernel⟩⟩

def xWarmStartToDrum_1 : State := { wOn with pwr := { wOn.pwr with perst := true, warmHeld := true } }
def xWarmStartToDrum_2 : State := { wOn with pwr := { wOn.pwr with perst := true } }
def xWarmStartToDrum_5 : State := wOn.wr F.LDIR_INDEX_DWORD 16383

/-- Hypotheses of WarmStartToDrum: for each clause, a state and operands that meet them. -/
theorem met_WarmStartToDrum :
    (∃ (s : State) (t rate width : Nat) (b : Bool),
      s.on F.PWR_STATUS_AUX_VALID = true ∧ s.pwr.warmHeld = true) ∧
    (∃ (s : State) (t rate width : Nat) (b : Bool),
      s.on F.PWR_STATUS_AUX_VALID = true ∧ s.pwr.warmHeld = false) ∧
    (∃ (s : State) (t r : Nat) (fn : Fn) (reg : CfgReg) (w : Option Nat),
      fnOk fn = true ∧ s.on F.PWR_STATUS_AUX_VALID = true ∧ s.pwr.perst = false ∧ s.pwr.perstRel = some r ∧ max s.now t < r + 100000000) ∧
    (∃ (s : State) (t r v : Nat),
      s.on F.PWR_STATUS_AUX_VALID = true ∧ s.pwr.perst = false ∧ s.pwr.perstRel = some r ∧ r + 100000000 ≤ max s.now t) ∧
    (∃ (s : State) (t r : Nat),
      s.on F.PWR_STATUS_AUX_VALID = true ∧ s.pwr.perst = false ∧ s.pwr.perstRel = some r ∧ r + 100000000 ≤ max s.now t) ∧
    (∃ (s : State) (t k v sv slot : Nat) (cos : Bool) (dig : Bytes),
      s.stage = stFooting ∧ s.pwr.perst = false ∧ s.fwUp = false ∧ s.heldFor [4] = false ∧ s.latched = false ∧
      s.on F.PWR_STATUS_CONV_ON = true ∧ s.bootChoice = some (k, v, sv, slot, cos, dig)) ∧
    (∃ (s : State) (t : Nat),
      s.stage = stFooting ∧ s.pwr.perst = false ∧ s.fwUp = false ∧ s.heldFor [4] = false ∧ s.latched = false ∧
      s.on F.PWR_STATUS_CONV_ON = true ∧ s.bootChoice = none) ∧
    (∃ (s : State) (t : Nat),
      s.stage = stFooting ∧ s.pwr.perst = false ∧ s.fwUp = false ∧ s.heldFor [4] = false ∧ s.latched = true) :=
  ⟨⟨xWarmStartToDrum_1, 100, 5, 4, true, by decide +kernel, by decide +kernel⟩,
   ⟨xWarmStartToDrum_2, 100, 6, 4, false, by decide +kernel, by decide +kernel⟩,
   ⟨wOn, 99999999, 0, (.vf 3), .aer, none, by decide +kernel, by decide +kernel, by decide +kernel, by decide +kernel, by decide +kernel⟩,
   ⟨wOn, 100000000, 0, 0x14, by decide +kernel, by decide +kernel, by decide +kernel, by decide +kernel⟩,
   ⟨xWarmStartToDrum_5, 100000000, 0, by decide +kernel, by decide +kernel, by decide +kernel, by decide +kernel⟩,
   ⟨wBoot, 100, 0, 0x10004, 0, 0, false, (shake256 (fwImage.take 64)), by decide +kernel, by decide +kernel, by decide +kernel, by decide +kernel,
    by decide +kernel, by decide +kernel, by decide +kernel⟩,
   ⟨wFoot, 100, by decide +kernel, by decide +kernel, by decide +kernel, by decide +kernel, by decide +kernel, by decide +kernel, by decide +kernel⟩,
   ⟨(wFoot.wr F.PWR_STATUS_TRIP 1), 100, by decide +kernel, by decide +kernel, by decide +kernel, by decide +kernel, by decide +kernel⟩⟩

def xDomeAndFinial_2 : State := { wDrum with sec := { wDrum.sec with flash := {} } }
def xDomeAndFinial_4 : State :=
  (((wDome.wr F.AON_STAGE_FIELD_TEST 1).wr F.AON_READY_TESTED 1).wr F.FAB_PORT_ROLE 1 0).wr F.FAB_PORT_STATE 2 0 |>.wr F.FAB_ADDR_ADMITTED 1

/-- Hypotheses of DomeAndFinial: for each clause, a state and operands that meet them. -/
theorem met_DomeAndFinial :
    (∃ (s : State) (t : Nat) (ab fa fc : List Nat),
      s.stage = stDrum ∧ s.fwUp = true ∧ s.heldFor [5] = false ∧ s.check01to06 s.sec.flash.trim 3 = none ∧
      s.check01to06 (s.sec.flash.slots.getD s.sec.flash.bootSlot []) 1 = none ∧
      consistencyBad (parseImage (s.sec.flash.slots.getD s.sec.flash.bootSlot [])) = none ∧
      hardwareBad (parseImage (s.sec.flash.slots.getD s.sec.flash.bootSlot [])) ab (allFailed ab fa) fc = none) ∧
    (∃ (s : State) (t : Nat) (ab fa fc : List Nat) (e : ImgErr),
      s.stage = stDrum ∧ s.fwUp = true ∧ s.heldFor [5] = false ∧ s.check01to06 s.sec.flash.trim 3 = some e) ∧
    (∃ (s : State) (t p : Nat) (fa : List Nat),
      s.stage = stDome ∧ s.hasPart p = true ∧ p ∉ s.pwr.fieldDone ∧ p < 16) ∧
    (∃ (s : State) (t : Nat),
      s.stage = stDome ∧ s.on F.AON_STAGE_FIELD_TEST = true ∧ s.nonePassed = false ∧ s.heldFor [6, 7] = false ∧
      ((∀ i, i < 32 → s.rd F.FAB_PORT_ROLE i = 1 → s.portTrained i = true ∨ s.portFailed i = true)) ∧
      ((∃ i, i < 32 ∧ s.rd F.FAB_PORT_ROLE i = 1 ∧ s.portTrained i = true)) ∧ s.on F.FAB_ADDR_ADMITTED = true) :=
  ⟨⟨wDrum, 100, ([1]), ([20]), ([900]), by decide +kernel, by decide +kernel, by decide +kernel, by decide +kernel, by decide +kernel,
    by decide +kernel, by decide +kernel⟩,
   ⟨xDomeAndFinial_2, 100, ([]), ([]), ([]), ((1, 0, 0)), by decide +kernel, by decide +kernel, by decide +kernel, by decide +kernel⟩,
   ⟨wDome, 100, 0, ([]), by decide +kernel, by decide +kernel, by decide +kernel, by decide +kernel⟩,
   ⟨xDomeAndFinial_4, 100, by decide +kernel, by decide +kernel, by decide +kernel, by decide +kernel, by decide +kernel, by decide +kernel,
    by decide +kernel⟩⟩

def xRailsTripAndThrottle_1 : State := { wUp with pwr := { wUp.pwr with railOut := [(16, 5)] } }
def xRailsTripAndThrottle_2 : State := { wUp with pwr := { wUp.pwr with railOut := [(0, 5)] } }
def xRailsTripAndThrottle_3 : State := { wUp with pwr := { wUp.pwr with railOut := [(16, 5)] } }
def xRailsTripAndThrottle_8 : State := wAux.wr F.PWR_STATUS_RAIL_FAULT 1

/-- Hypotheses of RailsTripAndThrottle: for each clause, a state and operands that meet them. -/
theorem met_RailsTripAndThrottle :
    (∃ (s : State) (t rail dev since : Nat),
      16 ≤ rail ∧ rail < 39 ∧ 30 < dev ∧ s.on F.PWR_STATUS_CONV_ON = true ∧ aget s.pwr.railOut rail = some since ∧
      since + 10000 ≤ max s.now t ∧ rail ∉ s.pwr.railActed) ∧
    (∃ (s : State) (t rail dev since : Nat),
      rail < 16 ∧ 30 < dev ∧ s.on F.PWR_STATUS_CONV_ON = true ∧ aget s.pwr.railOut rail = some since ∧ since + 10000 ≤ max s.now t ∧
      rail ∉ s.pwr.railActed) ∧
    (∃ (s : State) (t rail dev : Nat),
      rail < 39 ∧ dev ≤ 30 ∧ s.on F.PWR_STATUS_CONV_ON = true) ∧
    (∃ (s : State) (t sensor : Nat),
      sensor < 29 ∧ s.on F.AON_STAGE_SUPERVISION = true) ∧
    (∃ (s : State) (t die : Nat) (c : Int),
      die < 10 ∧ s.on F.PWR_STATUS_THERM_THROTTLE = false ∧ (s.throttleC : Int) < c) ∧
    (∃ (s : State) (t : Nat) (c : Int),
      s.on F.PWR_STATUS_TRIP = true) ∧
    (∃ (s : State) (t : Nat),
      s.on F.PWR_STATUS_SEQ_VIOL = true) ∧
    (∃ (s : State) (t : Nat),
      s.on F.PWR_STATUS_RAIL_FAULT = true) :=
  ⟨⟨xRailsTripAndThrottle_1, 10005, 16, 31, 5, by decide +kernel, by decide +kernel, by decide +kernel, by decide +kernel, by decide +kernel,
    by decide +kernel, by decide +kernel⟩,
   ⟨xRailsTripAndThrottle_2, 10005, 0, 31, 5, by decide +kernel, by decide +kernel, by decide +kernel, by decide +kernel, by decide +kernel,
    by decide +kernel⟩,
   ⟨xRailsTripAndThrottle_3, 100, 16, 30, by decide +kernel, by decide +kernel, by decide +kernel⟩,
   ⟨wUp, 100, 28, by decide +kernel, by decide +kernel⟩,
   ⟨wUp, 100, 9, 106, by decide +kernel, by decide +kernel, by decide +kernel⟩,
   ⟨(wOn.wr F.PWR_STATUS_TRIP 1), 100, 99, by decide +kernel⟩,
   ⟨(wOn.wr F.PWR_STATUS_SEQ_VIOL 1), 100, by decide +kernel⟩,
   ⟨xRailsTripAndThrottle_8, 100, by decide +kernel⟩⟩

def xPowerCapAndClocks_4 : State :=
  { wUp.wr F.PWR_MEAS_AVG_W 65535 with pwr := { wUp.pwr with grpMhz := [(0, 1500)] }, img := { act := some { im0 with clocks := [{ agMhz := [2000], bfyMhz := 400, capW := 1500, cgIdleUs := 1, pgIdleUs := 2 }] } } }
def xPowerCapAndClocks_5 : State := { wUp with pwr := { wUp.pwr with grpMv := [(0, 799)] } }

/-- Hypotheses of PowerCapAndClocks: for each clause, a state and operands that meet them. -/
theorem met_PowerCapAndClocks :
    (∃ (s : State) (t v : Nat) (who : Requester),
      mayWriteCap who = true) ∧
    (∃ (s : State) (t w : Nat),
      s.on F.PWR_STATUS_CONV_ON = true ∧ w < 65536 ∧ s.rd F.PWR_MEAS_PEAK_W < 65536) ∧
    (∃ (s : State) (t g : Nat),
      s.pwr.clkStep + 10000 ≤ max s.now t ∧ s.capW < s.rd F.PWR_MEAS_AVG_W ∧ g ∈ s.running ∧ 1000 < agetD s.pwr.grpMhz g 0) ∧
    (∃ (s : State) (t g : Nat),
      g < 16 ∧ s.rd F.CLK_AG_STATE g = 0 ∧ ((∀ a, aget s.pwr.mvAt g = some a → a + 10000 ≤ max s.now t)) ∧ agetD s.pwr.grpMv g 800 < 800) ∧
    (∃ (s : State) (t g : Nat),
      g < 16 ∧ s.rd F.CLK_AG_STATE g = 0 ∧ ((∀ a, aget s.pwr.mvAt g = some a → a + 10000 ≤ max s.now t)) ∧ agetD s.pwr.grpMv g 800 = 800) ∧
    (∃ (s : State) (t g : Nat) (m : Bool),
      g < 16 ∧ s.rd F.CLK_AG_STATE g = 0 ∧ ((∀ a, aget s.pwr.mvAt g = some a → a + 10000 ≤ max s.now t)) ∧ 605 ≤ agetD s.pwr.grpMv g 800) ∧
    (∃ (s : State) (t : Nat),
      s.pwr.bfyMhz ≠ 0 ∧ s.pwr.bfyMv ≤ 950) ∧
    (∃ (s : State) (t g : Nat),
      g < 16 ∧ s.rd F.CLK_AG_STATE g = 0 ∧ agetD s.pwr.grpMv g 800 ≤ 800) :=
  ⟨⟨wUp, 100, (0x5DC + 2 ^ 17), .mgt, by decide +kernel⟩,
   ⟨wUp, 100, 65535, by decide +kernel, by decide +kernel, by decide +kernel⟩,
   ⟨xPowerCapAndClocks_4, 10000, 0, by decide +kernel, by decide +kernel, by decide +kernel, by decide +kernel⟩,
   ⟨xPowerCapAndClocks_5, 100, 0, by decide +kernel, by decide +kernel, by decide +kernel, by decide +kernel⟩,
   ⟨wUp, 100, 0, by decide +kernel, by decide +kernel, by decide +kernel, by decide +kernel⟩,
   ⟨wUp, 100, 0, true, by decide +kernel, by decide +kernel, by decide +kernel, by decide +kernel⟩,
   ⟨wUp, 100, by decide +kernel, by decide +kernel⟩,
   ⟨(wUp.wr F.CLK_AG_STATE 0 15), 100, 15, by decide +kernel, by decide +kernel, by decide +kernel⟩⟩

def xSleepAndWake_5 : State := { wUp.wr F.CLK_AG_STATE 2 0 with pwr := { wUp.pwr with wakeQ := [{ g := 0, at_ := 3 }] } }
def xSleepAndWake_5_w : WakeReq := { g := 0, at_ := 3 }
def xSleepAndWake_6 : State :=
  { wUp.wr F.CLK_AG_STATE 3 0 with pwr := { wUp.pwr with waking := [(0, 100)], held := [(0, .ring 0 1 1), (1, .test 2)] } }
def xSleepAndWake_7 : State := { wUp.wr F.CLK_AG_STATE 3 0 with pwr := { wUp.pwr with waking := [(0, 100)] } }

/-- Hypotheses of SleepAndWake: for each clause, a state and operands that meet them. -/
theorem met_SleepAndWake :
    (∃ (s : State) (t g : Nat),
      g < 16 ∧ s.rd F.CLK_AG_STATE g = 0 ∧ s.groupIdle g = true ∧ (s.tick t).idleFor g (fun c => c.cgIdleUs) = true) ∧
    (∃ (s : State) (t g : Nat),
      g < 16 ∧ ((s.rd F.CLK_AG_STATE g = 0 ∨ s.rd F.CLK_AG_STATE g = 1)) ∧ s.groupIdle g = true ∧
      (s.tick t).idleFor g (fun c => c.pgIdleUs) = true ∧ ((∀ p, p ∈ s.partNums → s.homeOf p ≠ some g)) ∧ ((∀ w, w ∈ s.pwr.wakeQ → w.g ≠ g))) ∧
    (∃ (s : State) (t g : Nat) (ev : HeldEvent),
      g < 16 ∧ s.safe = false ∧ s.groupsFor ev = [g] ∧ s.behind ev = none ∧ ((s.rd F.CLK_AG_STATE g = 1 ∨ s.rd F.CLK_AG_STATE g = 2))) ∧
    (∃ (s : State) (t g : Nat) (ev : HeldEvent),
      g < 16 ∧ s.safe = false ∧ s.groupsFor ev = [g] ∧ s.behind ev = none ∧ s.rd F.CLK_AG_STATE g = 0) ∧
    (∃ (s : State) (t g : Nat) (w : WakeReq),
      g < 16 ∧ s.pwr.wakeQ = [w] ∧ w.g = g ∧ s.safe = false ∧ (s.tick t).wakeFits (decide (s.rd F.CLK_AG_STATE g = 2)) = true) ∧
    (∃ (s : State) (t g due : Nat),
      g < 16 ∧ aget s.pwr.waking g = some due ∧ due ≤ max s.now t ∧ s.rd F.CLK_AG_STATE g = 3) ∧
    (∃ (s : State) (t g due : Nat),
      g < 16 ∧ aget s.pwr.waking g = some due ∧ due ≤ max s.now t ∧ s.rd F.CLK_AG_STATE g = 3 ∧ s.pwr.held = []) :=
  ⟨⟨wUp, 1000, 0, by decide +kernel, by decide +kernel, by decide +kernel, by decide +kernel⟩,
   ⟨(wUp.wr F.CLK_AG_STATE 1 1), 2000, 1, by decide +kernel, by decide +kernel, by decide +kernel, by decide +kernel, by decide +kernel,
    by decide +kernel⟩,
   ⟨(wUp.wr F.CLK_AG_STATE 1 0), 100, 0, (.test 3), by decide +kernel, by decide +kernel, by decide +kernel, by decide +kernel, by decide +kernel⟩,
   ⟨wUp, 100, 0, (.doorbell .pf0 0 1 5), by decide +kernel, by decide +kernel, by decide +kernel, by decide +kernel, by decide +kernel⟩,
   ⟨xSleepAndWake_5, 100, 0, xSleepAndWake_5_w, by decide +kernel, by decide +kernel, by decide +kernel, by decide +kernel, by decide +kernel⟩,
   ⟨xSleepAndWake_6, 100, 0, 100, by decide +kernel, by decide +kernel, by decide +kernel, by decide +kernel⟩,
   ⟨xSleepAndWake_7, 100, 0, 100, by decide +kernel, by decide +kernel, by decide +kernel, by decide +kernel, by decide +kernel⟩⟩

/-- Hypotheses of RegisterWriteTypes: for each clause, a state and operands that meet them. -/
theorem met_RegisterWriteTypes :
    (∃ (s : State) (t : Nat) (reg : Reg) (i j v setNow : Nat),
      i < reg.axes.1 ∧ j < reg.axes.2.1 ∧ reg ∉ specialRegs ∧ s.closedReg reg i = false ∧ ownerRuns s reg i ∧ nonePosted s) ∧
    (∃ (s : State) (t i v : Nat),
      i < Reg.FC_REC.axes.1 ∧ v.testBit 63 = true ∧ nonePosted s) :=
  ⟨⟨wUp, 100, .FC_CFG, 0, 0, (2 ^ 64 - 1), 0, by decide +kernel, by decide +kernel, by decide +kernel, by decide +kernel,
    by unfold ownerRuns; decide +kernel, by unfold nonePosted; decide +kernel⟩,
   ⟨(wUp.wr F.FC_REC_HI 1 0 2), 100, 0, (2 ^ 63), by decide +kernel, by decide +kernel, by unfold nonePosted; decide +kernel⟩⟩

def xRegisterReadClears_2 : State := wUp.wr F.LDIR_INDEX_DWORD 16383

/-- Hypotheses of RegisterReadClears: for each clause, a state and operands that meet them. -/
theorem met_RegisterReadClears :
    (∃ (s : State) (t : Nat) (who : Requester) (reg : Reg) (i j : Nat) (event : Option Nat),
      i < reg.axes.1 ∧ j < reg.axes.2.1 ∧ reg ≠ .LDIR_DATA ∧ s.fate who reg i false = .acts ∧ s.closedReg reg i = false ∧ ownerRuns s reg i ∧
      nonePosted s) ∧
    (∃ (s : State) (t : Nat) (who : Requester) (event : Option Nat),
      s.fate who .LDIR_DATA 0 false = .acts ∧ s.closedReg .LDIR_DATA 0 = false ∧ nonePosted s) :=
  ⟨⟨(wUp.wr F.MEM_STACK_RISES 7 15), 100, .mgt, .MEM_STACK, 15, 0, none, by decide +kernel, by decide +kernel, by decide +kernel, by decide +kernel,
    by decide +kernel, by unfold ownerRuns; decide +kernel, by unfold nonePosted; decide +kernel⟩,
   ⟨xRegisterReadClears_2, 100, .pf0, none, by decide +kernel, by decide +kernel, by unfold nonePosted; decide +kernel⟩⟩

def xBadAccessesAndDenials_3 : State :=
  { wUp with ldir := [{ type := 0x40, inst := 3, state := 0, part := 0, parent := 0, window := 0, windowBytes := 0, count0 := 0, count1 := 0, caps := 0 }] }
def xBadAccessesAndDenials_6 : State := wUp.wr F.MGT_BFY_CORE_ASSIGNED 1 47

/-- Hypotheses of BadAccessesAndDenials: for each clause, a state and operands that meet them. -/
theorem met_BadAccessesAndDenials :
    (∃ (s : State) (t : Nat) (who : Requester) (reg : Reg) (i j : Nat),
      hasWindow reg i = true ∧ s.fate who reg i false = .acts) ∧
    (∃ (s : State) (t : Nat) (who : Requester) (reg : Reg) (i j : Nat),
      hasWindow reg i = true ∧ s.fate who reg i true = .acts) ∧
    (∃ (s : State) (t : Nat) (who : Requester) (reg : Reg) (i j v n : Nat),
      hasWindow reg i = true ∧ s.fate who reg i true = .acts ∧ ((reg = .LDIR_TABLE ∨ s.closedReg reg i = true)) ∧ nonePosted s) ∧
    (∃ (s : State) (t : Nat) (reg : Reg) (i j v n : Nat),
      hasWindow reg i = true ∧ hasInst reg i j = false ∧ reg ≠ .LDIR_TABLE ∧ s.closedReg reg i = false ∧ ownerRuns s reg i ∧ nonePosted s) ∧
    (∃ (s : State) (t g : Nat) (who : Requester) (reg : Reg) (i j v n : Nat),
      hasWindow reg i = true ∧ s.fate who reg i true = .acts ∧ s.closedReg reg i = false ∧ agOf reg i = some g ∧ s.safe = false ∧
      nonePosted s ∧ s.behind (.access who reg i j (some (v, n))) = none ∧ ((s.rd F.CLK_AG_STATE g = 1 ∨ s.rd F.CLK_AG_STATE g = 2))) ∧
    (∃ (s : State) (t n p : Nat) (reg : Reg) (i j : Nat) (w : Bool),
      n < 48 ∧ i < reg.axes.1 ∧ j < reg.axes.2.1 ∧ s.corePart n = some p ∧ ((bfyClosed reg = true ∨ s.foreignInst p reg i = true))) ∧
    (∃ (s : State) (t p : Nat) (reg : Reg) (i j v n : Nat),
      hasWindow reg i = true ∧ ((bfyClosed reg = true ∨ s.foreignInst p reg i = true)) ∧ nonePosted s) ∧
    (∃ (s : State) (t k : Nat) (reg : Reg) (i j v n : Nat),
      hasWindow reg i = true ∧ reg ≠ .PCI_DB ∧ s.ownPage (.vf k) reg i = false ∧ nonePosted s) :=
  ⟨⟨wUp, 100, .mgt, .SPR_CREDIT, 271, 0, by decide +kernel, by decide +kernel⟩,
   ⟨wUp, 100, .pf0, .SPR_CREDIT, 271, 0, by decide +kernel, by decide +kernel⟩,
   ⟨xBadAccessesAndDenials_3, 100, .pf0, .MEM_STACK, 3, 0, 1, 0, by decide +kernel, by decide +kernel, by decide +kernel,
    by unfold nonePosted; decide +kernel⟩,
   ⟨wUp, 100, .FAB_PORT, 32, 0, 1, 0, by decide +kernel, by decide +kernel, by decide +kernel, by decide +kernel, by unfold ownerRuns; decide +kernel,
    by unfold nonePosted; decide +kernel⟩,
   ⟨(wUp.wr F.CLK_AG_STATE 2 0), 100, 0, .pf0, .SPR_STATUS, 16, 0, 1, 0, by decide +kernel, by decide +kernel, by decide +kernel, by decide +kernel,
    by decide +kernel, by unfold nonePosted; decide +kernel, by decide +kernel, by decide +kernel⟩,
   ⟨xBadAccessesAndDenials_6, 100, 47, 0, .FC_CFG, 0, 0, false, by decide +kernel, by decide +kernel, by decide +kernel, by decide +kernel,
    by decide +kernel⟩,
   ⟨wUp, 100, 0, .SPR_STATUS, 17, 0, 0, 0, by decide +kernel, by decide +kernel, by unfold nonePosted; decide +kernel⟩,
   ⟨wUp, 100, 1, .FC_CFG, 0, 0, 0, 0, by decide +kernel, by decide +kernel, by decide +kernel, by unfold nonePosted; decide +kernel⟩⟩

def xRatingsBreachLapses_1 : State := wUp.wr F.MGT_GUARANTEE_HOLD_CONSERVE 1
def xRatingsBreachLapses_2 : State := { wUp with pwr := { wUp.pwr with breaches := [50] } }
def xRatingsBreachLapses_3 : State := { wUp with pwr := { wUp.pwr with breaches := [50] } }

/-- Hypotheses of RatingsBreachLapses: for each clause, a state and operands that meet them. -/
theorem met_RatingsBreachLapses :
    (∃ (s : State) (t q : Nat) (v : Int),
      q ≠ 0 ∧ ratingOk q v = some false ∧ q ∉ s.pwr.breaches) ∧
    (∃ (s : State) (t q : Nat) (v : Int),
      q ≠ 0 ∧ ratingOk q v = some false ∧ q ∈ s.pwr.breaches) ∧
    (∃ (s : State) (t q : Nat) (v : Int),
      ratingOk q v = some true) :=
  ⟨⟨xRatingsBreachLapses_1, 100, 50, 106, by decide +kernel, by decide +kernel, by decide +kernel⟩,
   ⟨xRatingsBreachLapses_2, 100, 50, 106, by decide +kernel, by decide +kernel, by decide +kernel⟩,
   ⟨xRatingsBreachLapses_3, 100, 50, 105, by decide +kernel⟩⟩

def xPageMapAndInvalidation_3 : State := wUp.wr F.AON_STAGE_MGT_RESTART 1
def xPageMapAndInvalidation_6 : State := { wUp.wr F.PGM_INVAL_DONE 0 with memx := { inval := some 3, tcache := [(0, 3, eD 0 8192)] } }
def xPageMapAndInvalidation_7 : State :=
  { wUp.wr F.PGM_INVAL_DONE 0 with memx := { inval := some (100 * 2 ^ 24), tcache := [(4, 100, eD 0 8200)], cowHolds := [{ p := 0, unit := 1, addr := 100 * 65536, bytes := [3] }] } }

/-- Hypotheses of PageMapAndInvalidation: for each clause, a state and operands that meet them. -/
theorem met_PageMapAndInvalidation :
    (∃ (s : State) (t v e : Nat),
      s.Inv ∧ v < 2 ^ 24 ∧ s.fwUp = true ∧ s.atLeast stDome = true ∧
      ((pmValid (cleanEntry e) = false ∨ (s.mapOk v (cleanEntry e) = true ∧ s.mirrorOk v (cleanEntry e) = true)))) ∧
    (∃ (s : State) (t v e : Nat),
      v < 2 ^ 24 ∧ s.fwUp = true ∧ pmValid (cleanEntry e) = true ∧ ((s.mapOk v (cleanEntry e) = false ∨ s.mirrorOk v (cleanEntry e) = false))) ∧
    (∃ (s : State) (t v e : Nat),
      v < 2 ^ 24 ∧ s.on F.AON_STAGE_MGT_RESTART = true ∧ s.host.fwDead = false) ∧
    (∃ (s : State) (t w : Nat),
      s.on F.PGM_INVAL_DONE = true) ∧
    (∃ (s : State) (t w : Nat),
      s.on F.PGM_INVAL_DONE = false) ∧
    (∃ (s : State) (t w : Nat),
      s.memx.inval = some w ∧ s.invalUsed w = false) ∧
    (∃ (s : State) (t w : Nat),
      s.memx.inval = some w ∧ s.invalUsed w = true) :=
  ⟨⟨wUp, 100, (2 ^ 24 - 1), (eD 0 8192), by unfold State.Inv; decide +kernel, by decide +kernel, by decide +kernel, by decide +kernel,
    by decide +kernel⟩,
   ⟨wUp, 100, 100, (eD 0 8191), by decide +kernel, by decide +kernel, by decide +kernel, by decide +kernel⟩,
   ⟨xPageMapAndInvalidation_3, 100, 100, 5, by decide +kernel, by decide +kernel, by decide +kernel⟩,
   ⟨wUp, 100, 3, by decide +kernel⟩,
   ⟨(wUp.wr F.PGM_INVAL_DONE 0), 100, 3, by decide +kernel⟩,
   ⟨xPageMapAndInvalidation_6, 100, 3, by decide +kernel, by decide +kernel⟩,
   ⟨xPageMapAndInvalidation_7, 100, (100 * 2 ^ 24), by decide +kernel, by decide +kernel⟩⟩

def xCopyOnWrite_1_s₁ : State := (((wPg).tick (100)).checkAccess 4 0x40 0 (101 * 65536) 2 true false).2
def xCopyOnWrite_2 : State := { wPg with memx := { cowCopies := [{ vpn := 101, p := 0, frame := 8301 }] } }
def xCopyOnWrite_2_s₁ : State := (((xCopyOnWrite_2).tick (100)).checkAccess 4 0x40 0 (101 * 65536) 2 true false).2
def xCopyOnWrite_3_s₁ : State := (((wPg.wr F.PGM_CUT_COPIES 9).tick (100)).checkAccess 4 0x40 0 (101 * 65536) 2 true false).2
def xCopyOnWrite_4_s₁ : State := (((wPg).tick (100)).checkAccess 4 0x40 0 (100 * 65536 + 65535) 1 true false).2
def xCopyOnWrite_5_s₁ : State := (((wPg).tick (100)).checkAccess 4 0x40 0 (100 * 65536 + 65535) 1 true false).2
def xCopyOnWrite_6 : State := { wPg.wrByte (8201 * 65536) 9 with memx := { cowCopies := [{ vpn := 101, p := 0, frame := 8301 }] } }
def xCopyOnWrite_6_c : CowCopy := { vpn := 101, p := 0, frame := 8301 }
def xCopyOnWrite_7 : State :=
  { wPg.wrByte (8201 * 65536) 9 with memx := { cowCopies := [{ vpn := 101, p := 0, frame := 8301 }], cowHolds := [{ p := 0, unit := 1, addr := 101 * 65536, bytes := [3] }] } }
def xCopyOnWrite_7_c : CowCopy := { vpn := 101, p := 0, frame := 8301 }
def xCopyOnWrite_7_h : CowHold := { p := 0, unit := 1, addr := 101 * 65536, bytes := [3] }

/-- Hypotheses of CopyOnWrite: for each clause, a state and operands that meet them. -/
theorem met_CopyOnWrite :
    (∃ (s s₁ : State) (t p unit addr f : Nat) (b : Bytes),
      (s.tick t).checkAccess 4 unit p addr b.length true false = (none, s₁) ∧ pagesOf addr b.length = [addr / 65536] ∧
      s₁.copying (addr / 65536) = false ∧ s₁.writeWaits addr b.length = false ∧ s₁.cowInForce (s₁.pmEntry (addr / 65536)) = true ∧
      s₁.nextCopyFrame (pmOwner (s₁.pmEntry (addr / 65536))) = some f) ∧
    (∃ (s s₁ : State) (t p unit addr : Nat) (b : Bytes),
      (s.tick t).checkAccess 4 unit p addr b.length true false = (none, s₁) ∧
      (((∃ v, v ∈ pagesOf addr b.length ∧ s₁.copying v = true) ∨ s₁.writeWaits addr b.length = true))) ∧
    (∃ (s s₁ : State) (t p unit addr : Nat) (b : Bytes),
      (s.tick t).checkAccess 4 unit p addr b.length true false = (none, s₁) ∧ pagesOf addr b.length = [addr / 65536] ∧
      s₁.copying (addr / 65536) = false ∧ s₁.writeWaits addr b.length = false ∧ s₁.cowInForce (s₁.pmEntry (addr / 65536)) = true ∧
      s₁.nextCopyFrame (pmOwner (s₁.pmEntry (addr / 65536))) = none) ∧
    (∃ (s s₁ : State) (t p unit addr : Nat) (b : Bytes),
      (s.tick t).checkAccess 4 unit p addr b.length true false = (none, s₁) ∧ s₁.writeWaits addr b.length = false ∧
      ((∀ v, v ∈ pagesOf addr b.length → s₁.copying v = false ∧ s₁.cowInForce (s₁.pmEntry v) = false))) ∧
    (∃ (s s₁ : State) (t p unit addr k : Nat) (b : Bytes),
      s.Inv ∧ (s.tick t).checkAccess 4 unit p addr b.length true false = (none, s₁) ∧ pagesOf addr b.length = [addr / 65536] ∧
      s₁.writeWaits addr b.length = false ∧ s₁.copying (addr / 65536) = false ∧ s₁.cowInForce (s₁.pmEntry (addr / 65536)) = false ∧
      pmLoc (s₁.pmLookup 4 (addr / 65536)).1 = 0 ∧ 2048 ≤ pmFrame (s₁.pmLookup 4 (addr / 65536)).1 ∧ addr / 65536 < 2 ^ 24 ∧ k < b.length) ∧
    (∃ (s : State) (t v k : Nat) (c : CowCopy),
      s.memx.cowCopies.find? (fun x => x.vpn = v) = some c ∧ s.memx.cowHolds = [] ∧ nonePosted s ∧ s.Inv ∧ v < 2 ^ 24 ∧ 2048 ≤ c.frame ∧
      2048 ≤ s.rd F.PGM_RESERVE_BASE_FRAME c.p ∧
      s.rd F.PGM_RESERVE_BASE_FRAME c.p * 65536 + 16 * s.rd F.PGM_CUT_COPIES c.p + 16 ≤ c.frame * 65536 ∧ k < 65536) ∧
    (∃ (s : State) (t v : Nat) (c : CowCopy) (h : CowHold),
      s.memx.cowCopies = [c] ∧ c.vpn = v ∧ s.memx.cowHolds = [h] ∧ pagesOf h.addr h.bytes.length = [v] ∧ s.pageWaits v = false ∧ nonePosted s ∧
      s.Inv ∧ v < 2 ^ 24 ∧ 2048 ≤ c.frame ∧ 2048 ≤ s.rd F.PGM_RESERVE_BASE_FRAME c.p) :=
  ⟨⟨wPg, xCopyOnWrite_1_s₁, 100, 0, 0x40, (101 * 65536), 8301, ([1, 2]), by decide +kernel, by decide +kernel, by decide +kernel, by decide +kernel,
    by decide +kernel, by decide +kernel⟩,
   ⟨xCopyOnWrite_2, xCopyOnWrite_2_s₁, 100, 0, 0x40, (101 * 65536), ([1, 2]), by decide +kernel, by decide +kernel⟩,
   ⟨(wPg.wr F.PGM_CUT_COPIES 9), xCopyOnWrite_3_s₁, 100, 0, 0x40, (101 * 65536), ([1, 2]), by decide +kernel, by decide +kernel, by decide +kernel,
    by decide +kernel, by decide +kernel, by decide +kernel⟩,
   ⟨wPg, xCopyOnWrite_4_s₁, 100, 0, 0x40, (100 * 65536 + 65535), ([7]), by decide +kernel, by decide +kernel, by decide +kernel⟩,
   ⟨wPg, xCopyOnWrite_5_s₁, 100, 0, 0x40, (100 * 65536 + 65535), 0, ([7]), by unfold State.Inv; decide +kernel, by decide +kernel, by decide +kernel,
    by decide +kernel, by decide +kernel, by decide +kernel, by decide +kernel, by decide +kernel, by decide +kernel, by decide +kernel⟩,
   ⟨xCopyOnWrite_6, 100, 101, 0, xCopyOnWrite_6_c, by decide +kernel, by decide +kernel, by unfold nonePosted; decide +kernel,
    by unfold State.Inv; decide +kernel, by decide +kernel, by decide +kernel, by decide +kernel, by decide +kernel, by decide +kernel⟩,
   ⟨xCopyOnWrite_7, 100, 101, xCopyOnWrite_7_c, xCopyOnWrite_7_h, by decide +kernel, by decide +kernel, by decide +kernel, by decide +kernel,
    by decide +kernel, by unfold nonePosted; decide +kernel, by unfold State.Inv; decide +kernel, by decide +kernel, by decide +kernel,
    by decide +kernel⟩⟩

def xDramErrorCorrection_2 : State := { wUp with memx := { erased := [(0, 0, 1)] } }
def xDramErrorCorrection_4 : State := { wUp with memx := { laneCorr := List.replicate 15 (0, 4, 17, 0) } }
def xDramErrorCorrection_6 : State := { wUp with memx := { poison := [640] } }

/-- Hypotheses of DramErrorCorrection: for each clause, a state and operands that meet them. -/
theorem met_DramErrorCorrection_1 :
    (∃ (s : State) (st ch : Nat) (syms : List Nat),
      ((∀ l, (st, ch, l) ∉ s.memx.erased))) ∧
    (∃ (s : State) (st ch l : Nat) (syms : List Nat),
      s.memx.erased = [(st, ch, l)]) ∧
    (∃ (s : State) (t st ch b : Nat) (syms : List Nat),
      chanOk st ch b = true ∧ symsOk syms = true ∧ syms ≠ [] ∧ s.corrects st ch syms = true ∧ oneLane syms = none) ∧
    (∃ (s : State) (t st ch b l : Nat) (syms : List Nat),
      chanOk st ch b = true ∧ symsOk syms = true ∧ s.corrects st ch syms = true ∧ oneLane syms = some l ∧ (st, ch, l) ∉ s.memx.erased ∧
      15 ≤ (s.memx.laneCorr.filter (fun e => decide (max s.now t ≤ e.2.2.2 + 1000000000) && decide (e.1 = st) && decide (e.2.1 = ch) && decide (e.2.2.1 = l))).length) ∧
    (∃ (s : State) (t st ch b m k : Nat) (scrub : Bool) (syms : List Nat),
      chanOk st ch b = true ∧ symsOk syms = true ∧ s.corrects st ch syms = false ∧ s.burstKey st ch b = k ∧ k ∉ s.memx.poison) ∧
    (∃ (s : State) (t st ch b m : Nat) (scrub : Bool) (syms : List Nat),
      chanOk st ch b = true ∧ symsOk syms = true ∧ s.burstKey st ch b ∈ s.memx.poison) :=
  ⟨⟨wUp, 0, 0, ([1, 5, 9, 71]), fun _ => List.not_mem_nil⟩,
   ⟨xDramErrorCorrection_2, 0, 0, 1, ([4, 5, 6, 7, 9, 71]), by decide +kernel⟩,
   ⟨wUp, 100, 15, 63, (2 ^ 23 - 1), ([3, 71]), by decide +kernel, by decide +kernel, by decide +kernel, by decide +kernel, by decide +kernel⟩,
   ⟨xDramErrorCorrection_4, 1000000000, 0, 4, 0, 17, ([68, 71]), by decide +kernel, by decide +kernel, by decide +kernel, by decide +kernel,
    by decide +kernel, by decide +kernel⟩,
   ⟨wUp, 100, 0, 0, 5, 0x40, 640, false, ([0, 1, 2, 3, 71]), by decide +kernel, by decide +kernel, by decide +kernel, by decide +kernel,
    by decide +kernel⟩,
   ⟨xDramErrorCorrection_6, 100, 0, 0, 5, 0x40, false, ([]), by decide +kernel, by decide +kernel, by decide +kernel⟩⟩

def xDramErrorCorrection_8 : State := { wUp with memx := { scrubbed := [(3, 2 ^ 29 - 1)] } }

/-- Hypotheses of DramErrorCorrection: for each clause, a state and operands that meet them. -/
theorem met_DramErrorCorrection_2 :
    (∃ (s : State) (t st ch b : Nat),
      chanOk st ch b = true ∧ s.burstKey st ch b ∉ s.memx.poison ∧ s.corrects st ch [] = true ∧
      agetD s.memx.scrubbed st 0 + 1 < s.stackBursts st) ∧
    (∃ (s : State) (t st ch b : Nat),
      chanOk st ch b = true ∧ s.burstKey st ch b ∉ s.memx.poison ∧ s.corrects st ch [] = true ∧
      s.stackBursts st ≤ agetD s.memx.scrubbed st 0 + 1) ∧
    (∃ (s : State) (t g off : Nat),
      cupOk g off = true) ∧
    (∃ (s : State) (t g off m : Nat),
      cupOk g off = true) ∧
    (∃ (s : State) (t g off m : Nat),
      cupOk g off = true) ∧
    (∃ (s : State) (t st : Nat) (c : Int),
      st < 16 ∧ s.rd F.MEM_STACK_RATE st < 4) :=
  ⟨⟨wUp, 100, 15, 63, 0, by decide +kernel, by decide +kernel, by decide +kernel, by decide +kernel⟩,
   ⟨xDramErrorCorrection_8, 100, 3, 63, 0, by decide +kernel, by decide +kernel, by decide +kernel, by decide +kernel⟩,
   ⟨wUp, 100, 15, (384 * 2 ^ 20 - 1), by decide +kernel⟩,
   ⟨wUp, 100, 15, (384 * 2 ^ 20 - 1), 0x33, by decide +kernel⟩,
   ⟨wUp, 100, 0, 9, 0x33, by decide +kernel⟩,
   ⟨(wUp.wr F.MEM_STACK_RATE 1 15), 100, 15, 82, by decide +kernel, by decide +kernel⟩⟩

def xRegulatorsConserveTokens_1 : State :=
  (((wUp.wr F.BWG_CFG_RATE 100 15 2).wr F.BWG_CFG_DEPTH 200 15 2).wr F.BWG_STATE_LEVEL 150 15 2).wr F.BWG_ISSUED_ISSUED 150 15 2
def xRegulatorsConserveTokens_2 : State := ((wUp.wr F.BWG_CFG_DEPTH 200 15 2).wr F.BWG_STATE_LEVEL 64 15 2).wr F.BWG_ISSUED_ISSUED 64 15 2
def xRegulatorsConserveTokens_3 : State := ((wUp.wr F.BWG_CFG_DEPTH 200 15 2).wr F.BWG_STATE_LEVEL 64 15 2).wr F.BWG_ISSUED_ISSUED 64 15 2
def xRegulatorsConserveTokens_4 : State := ((wUp.wr F.BWG_CFG_DEPTH 200 15 2).wr F.BWG_STATE_LEVEL 64 15 2).wr F.BWG_ISSUED_ISSUED 64 15 2
def xRegulatorsConserveTokens_5 : State :=
  { ((wUp.wr F.BWG_STATE_LEVEL 63 15 2).wr F.BWG_STATE_HELD 4 15 2).wr F.BWG_ISSUED_ISSUED 67 15 2 with memx := { regHeld := [{ p := 15, r := 2, unit := 5, need := 4 }] } }
def xRegulatorsConserveTokens_6 : State := { wUp.wr F.HNG_STATUS_STATE 3 with memx := { regHeld := [{ p := 0, r := 1, unit := 5, need := 4 }] } }

/-- Hypotheses of RegulatorsConserveTokens: for each clause, a state and operands that meet them. -/
theorem met_RegulatorsConserveTokens :
    (∃ (s : State) (t p r : Nat),
      balanced s p r ∧ tokensFit s p r 0 ∧ s.partNums.Nodup) ∧
    (∃ (s : State) (t p r unit n : Nat) (pool : Bool),
      p < 16 ∧ r < 3 ∧ 0 < n ∧ n ≤ 4096 ∧ balanced s p r ∧ tokensFit s p r (ceilDiv n 64)) ∧
    (∃ (s : State) (t p r unit n : Nat) (pool : Bool),
      p < 16 ∧ r < 3 ∧ 0 < n ∧ n ≤ 4096 ∧ s.memx.regWait = [] ∧ tokensFit s p r (ceilDiv n 64)) ∧
    (∃ (s : State) (p r unit need : Nat) (pool : Bool),
      balanced s p r ∧ tokensFit s p r 0) ∧
    (∃ (s : State) (t p r unit need : Nat) (pool : Bool),
      p < 16 ∧ r < 3 ∧ ((r < 2 → pool = false → s.hngState p ≠ 3)) ∧
      s.memx.regHeld = [{ p := p, r := r, unit := unit, need := need, pool := pool }] ∧ need ≤ s.rd F.BWG_STATE_HELD p r ∧ tokensFit s p r 0 ∧
      balanced s p r) ∧
    (∃ (s : State) (t p r unit need : Nat),
      p < 16 ∧ r < 2 ∧ s.hngState p = 3 ∧ s.memx.regHeld = [{ p := p, r := r, unit := unit, need := need }]) :=
  ⟨⟨xRegulatorsConserveTokens_1, 5000, 15, 2, by unfold balanced; decide +kernel, by unfold tokensFit; decide +kernel, by decide +kernel⟩,
   ⟨xRegulatorsConserveTokens_2, 100, 15, 2, 5, 4096, false, by decide +kernel, by decide +kernel, by decide +kernel, by decide +kernel,
    by unfold balanced; decide +kernel, by unfold tokensFit; decide +kernel⟩,
   ⟨xRegulatorsConserveTokens_3, 100, 15, 2, 5, 4096, false, by decide +kernel, by decide +kernel, by decide +kernel, by decide +kernel,
    by decide +kernel, by unfold tokensFit; decide +kernel⟩,
   ⟨xRegulatorsConserveTokens_4, 15, 2, 5, 64, true, by unfold balanced; decide +kernel, by unfold tokensFit; decide +kernel⟩,
   ⟨xRegulatorsConserveTokens_5, 100, 15, 2, 5, 4, false, by decide +kernel, by decide +kernel, by decide +kernel, by decide +kernel,
    by decide +kernel, by unfold tokensFit; decide +kernel, by unfold balanced; decide +kernel⟩,
   ⟨xRegulatorsConserveTokens_6, 100, 0, 1, 5, 4, by decide +kernel, by decide +kernel, by decide +kernel, by decide +kernel⟩⟩

def xBelfryEvents_1 : State := wUp.wr F.MGT_BFY_CORE_ASSIGNED 1 47
def xBelfryEvents_3 : State := wUp.wr F.MGT_BFY_CORE_ASSIGNED 1 47 |>.wr F.MGT_BFY_CORE_STATE 1 47
def xBelfryEvents_4 : State := (page wUp 100 (eD 3 8200 [57])).wr F.MGT_BFY_CORE_ASSIGNED 1 47 |>.wr F.MGT_BFY_CORE_STATE 1 47
def xBelfryEvents_5 : State := { wUp.wr F.MGT_BFY_CORE_ASSIGNED 1 47 with memx := { priv := [{ core := 47, line := 8200 * 65536, below := none }] } }
def xBelfryEvents_5_l : PLine := { core := 47, line := 8200 * 65536, below := none }
def xBelfryEvents_6 : State := { wUp.wr F.MGT_BFY_CORE_ASSIGNED 1 47 with memx := { priv := [{ core := 47, line := 8200 * 65536, below := none }] } }
def xBelfryEvents_6_l : PLine := { core := 47, line := 8200 * 65536, below := none }
def xBelfryEvents_9 : State :=
  { wPg with img := { act := some { im0 with eths := [{ port := 1, p := 0, qpFirst := 60, qpCount := 4, mac := 5, vlan := 3 }] } } }
def xBelfryEvents_9_r : EthRec := { port := 1, p := 0, qpFirst := 60, qpCount := 4, mac := 5, vlan := 3 }

/-- Hypotheses of BelfryEvents: for each clause, a state and operands that meet them. -/
theorem met_BelfryEvents :
    (∃ (s : State) (t n : Nat),
      n < 48 ∧ s.on F.MGT_BFY_CORE_ASSIGNED n = true ∧ s.safe = false) ∧
    (∃ (s : State) (t n p : Nat),
      n < 48) ∧
    (∃ (s : State) (t n p addr len : Nat) (wr : Option Bytes),
      n < 48 ∧ s.corePart n = some p ∧ p < 16 ∧ s.rd F.MGT_BFY_CORE_STATE n = 1 ∧ addr < 2 ^ 40 ∧ 0 < (wr.map (fun b => b.length)).getD len ∧
      ((∀ v, v ∈ pagesOf addr len → s.retrains (s.pmEntry v) = false)) ∧ pmValid (s.pmLookup 4 (addr / 65536)).1 = false ∧
      s.on F.PGM_FAULT_VALID = false) ∧
    (∃ (s : State) (t n p addr len : Nat) (wr : Option Bytes),
      n < 48 ∧ s.corePart n = some p ∧ s.rd F.MGT_BFY_CORE_STATE n = 1 ∧ addr < 2 ^ 40 ∧ 0 < (wr.map (fun b => b.length)).getD len ∧
      ((∀ v, v ∈ pagesOf addr len → s.retrains (s.pmEntry v) = false)) ∧ pmValid (s.pmLookup 4 (addr / 65536)).1 = true ∧
      pmLoc (s.pmLookup 4 (addr / 65536)).1 = 1 ∧ pmOwner (s.pmLookup 4 (addr / 65536)).1 ≠ p ∧ s.on F.PGM_FAULT_VALID = false) ∧
    (∃ (s : State) (t n p line : Nat) (l : PLine),
      n < 48 ∧ s.corePart n = some p ∧ s.memx.priv.find? (fun l => decide (l.core = n) && decide (l.line = line / 128 * 128)) = some l) ∧
    (∃ (s : State) (t n p line : Nat) (l : PLine),
      n < 48 ∧ s.corePart n = some p ∧ s.memx.priv.find? (fun l => decide (l.core = n) && decide (l.line = line / 128 * 128)) = some l) ∧
    (∃ (s : State) (t port mac hash dma corr : Nat) (vlan : Option Nat) (b : Bytes),
      port < 2 ∧ b.length ≤ 9216 ∧ s.on F.PWR_STATUS_CONV_ON = true ∧ s.ethMatch port mac vlan = none) ∧
    (∃ (s : State) (t port mac hash dma corr unc : Nat) (vlan : Option Nat) (b : Bytes),
      port < 2 ∧ 0 < unc ∧ s.on F.PWR_STATUS_CONV_ON = true) ∧
    (∃ (s : State) (t port mac hash dma corr : Nat) (vlan : Option Nat) (b : Bytes) (r : EthRec),
      port < 2 ∧ b.length ≤ 9216 ∧ s.on F.PWR_STATUS_CONV_ON = true ∧ s.ethMatch port mac vlan = some r ∧ r.qpFirst + hash % r.qpCount < 64) :=
  ⟨⟨xBelfryEvents_1, 100, 47, by decide +kernel, by decide +kernel, by decide +kernel⟩,
   ⟨wUp, 100, 47, 3, by decide +kernel⟩,
   ⟨xBelfryEvents_3, 100, 47, 0, (2 ^ 40 - 1), 3, (some [1]), by decide +kernel, by decide +kernel, by decide +kernel, by decide +kernel,
    by decide +kernel, by decide +kernel, by decide +kernel, by decide +kernel, by decide +kernel⟩,
   ⟨xBelfryEvents_4, 100, 47, 0, (100 * 65536), 3, none, by decide +kernel, by decide +kernel, by decide +kernel, by decide +kernel, by decide +kernel,
    by decide +kernel, by decide +kernel, by decide +kernel, by decide +kernel, by decide +kernel⟩,
   ⟨xBelfryEvents_5, 100, 47, 0, (8200 * 65536 + 5), xBelfryEvents_5_l, by decide +kernel, by decide +kernel, by decide +kernel⟩,
   ⟨xBelfryEvents_6, 100, 47, 0, (8200 * 65536 + 5), xBelfryEvents_6_l, by decide +kernel, by decide +kernel, by decide +kernel⟩,
   ⟨wUp, 100, 1, 5, 0, 0, 3, (some 3), ([1]), by decide +kernel, by decide +kernel, by decide +kernel, by decide +kernel⟩,
   ⟨wUp, 100, 1, 5, 0, 0, 3, 1, (some 3), ([1]), by decide +kernel, by decide +kernel, by decide +kernel⟩,
   ⟨xBelfryEvents_9, 100, 1, 5, 3, (100 * 65536), 0, (some 3), ([1]), xBelfryEvents_9_r, by decide +kernel, by decide +kernel, by decide +kernel,
    by decide +kernel, by decide +kernel⟩⟩

def xElementStartTakesCredit_1 : State :=
  ({ wMat with pas := [(0, { shadow := some tM })] }.wr F.SPR_STATUS_SHADOW_READY 1 0).wr F.SPR_CREDIT_FREE 1 0 |>.wr F.SPR_CREDIT_IN_FLIGHT 287 0
def xElementStartTakesCredit_1_s₁ : State := (((xElementStartTakesCredit_1).tick (100)).tileReady (jM) ((jM).xTile (tM).pass)).2
def xElementStartTakesCredit_2 : State := wMat.wr F.SPR_CREDIT_FREE 0 271
def xElementStartTakesCredit_3 : State := { wMat with pas := [(0, { active := some tM, lastStart := 5, gap := 4 })] }

/-- Hypotheses of ElementStartTakesCredit: for each clause, a state and operands that meet them. -/
theorem met_ElementStartTakesCredit :
    (∃ (s s₁ : State) (t pa cyc ext ready st tsc : Nat) (j : Job) (tile : TileSt) (swap : Bool),
      pa < 272 ∧ (s.paJobs pa).head? = some j ∧ s.nextTile pa j = some (tile, swap) ∧ j.stopped = false ∧ s.rd F.CLK_AG_STATE (pa / 17) = 0 ∧
      0 < s.rd F.SPR_CREDIT_FREE pa ∧ s.rd F.SPR_CREDIT_FREE pa + s.rd F.SPR_CREDIT_IN_FLIGHT pa = 288 ∧ s.mayStart pa ≤ cyc ∧
      (s.tick t).tileReady j (j.xTile tile.pass) = (.good ext ready st tsc, s₁) ∧ j.slot < ready ∧ ((j.slot + 1 ≠ j.m ∨ st = 1))) ∧
    (∃ (s : State) (t pa cyc : Nat),
      pa < 272 ∧ s.rd F.SPR_CREDIT_FREE pa = 0) ∧
    (∃ (s : State) (t pa cyc : Nat),
      pa < 272 ∧ cyc < s.mayStart pa) :=
  ⟨⟨xElementStartTakesCredit_1, xElementStartTakesCredit_1_s₁, 100, 0, 10, 2, 2, 1, 127, jM, tM, true, by decide +kernel, by decide +kernel,
    by decide +kernel, by decide +kernel, by decide +kernel, by decide +kernel, by decide +kernel, by decide +kernel, by decide +kernel,
    by decide +kernel, by decide +kernel⟩,
   ⟨xElementStartTakesCredit_2, 100, 271, 10, by decide +kernel, by decide +kernel⟩,
   ⟨xElementStartTakesCredit_3, 100, 0, 8, by decide +kernel, by decide +kernel⟩⟩

def xShadowRowsLoadInOrder_1_tile : TileSt := { job := 1, pass := 0, rows := [], scales := [] }
def xShadowRowsLoadInOrder_1_s₀ : State := (((wMat).tick (100)).checkChunk (jM) (0) (jM).m (jM).n).2.2.2
def xShadowRowsLoadInOrder_1_s₂ : State :=
  ((((xShadowRowsLoadInOrder_1_s₀).tileReady (jM) ((jM).yTile (0))).2).readRow (jM) (0) (xShadowRowsLoadInOrder_1_tile).rows.length (127) (xShadowRowsLoadInOrder_1_tile).scales).2.2.2
def xShadowRowsLoadInOrder_2 : State := { wMat with pas := [(271, { slots := [fM] })] }
def xShadowRowsLoadInOrder_3 : State := { wMat with pas := [(0, { slots := [fM] })] }
def xShadowRowsLoadInOrder_4 : State := { wMat with pas := [(0, { slots := [fM, { fM with slot := 1 }] })] }

/-- Hypotheses of ShadowRowsLoadInOrder: for each clause, a state and operands that meet them. -/
theorem met_ShadowRowsLoadInOrder :
    (∃ (s s₀ s₁ s₂ : State) (t pa cyc q m n ext ready st tsc : Nat) (j : Job) (tile : TileSt) (row : List Val) (sc : Option (List Nat)),
      pa < 272 ∧ s.loadTarget pa = some (j, q) ∧
      (tile = ((s.pa pa).shadow.filter (fun x => decide (x.job = j.id ∧ x.pass = q))).getD { job := j.id, pass := q, rows := [], scales := [] }) ∧
      tile.rows.length < 256 ∧ s.rd F.CLK_AG_STATE (pa / 17) = 0 ∧
      (((s.pa pa).active = none ∨ (s.pa pa).swapAt + tile.rows.length + 256 ≤ cyc)) ∧
      ((tile.rows.length = 0 ∨ (s.pa pa).rowFits tile.wroteAt cyc (j.rowBytes tile.rows.length) = true)) ∧
      ((if tile.rows.length = 0 ∧ q % j.perChunk = 0 then (s.tick t).checkChunk j q j.m j.n else (none, j.m, j.n, s.tick t)) = (none, m, n, s₀)) ∧
      s₀.tileReady j (j.yTile q) = (.good ext ready st tsc, s₁) ∧ tile.rows.length < ready ∧
      s₁.readRow j q tile.rows.length tsc tile.scales = (row, sc, none, s₂)) ∧
    (∃ (s : State) (t pa n k : Nat),
      pa < 272 ∧ k < 1024) ∧
    (∃ (s : State) (t pa n k : Nat) (f : SlotFl) (j : Job),
      pa < 272 ∧ k < 1024 ∧ (s.pa pa).slots[n]? = some f ∧ f.judged = false ∧ f.drained = false ∧ s.job f.job = some j ∧ k < shapeK j.shape) ∧
    (∃ (s : State) (t pa n k c : Nat) (f : SlotFl) (j : Job),
      pa < 272 ∧ k < 1024 ∧ (s.pa pa).slots[n]? = some f ∧ f.judged = false ∧ f.drained = false ∧ s.job f.job = some j ∧ k < shapeK j.shape ∧
      1 ≤ c ∧ c ≤ 4 ∧ s.on F.PGM_FAULT_VALID = false) :=
  ⟨⟨wMat, xShadowRowsLoadInOrder_1_s₀, (((xShadowRowsLoadInOrder_1_s₀).tileReady (jM) ((jM).yTile (0))).2), xShadowRowsLoadInOrder_1_s₂, 100, 0, 0, 0,
    2, 256, 256, 256, 1, 127, jM, xShadowRowsLoadInOrder_1_tile,
    (((((xShadowRowsLoadInOrder_1_s₀).tileReady (jM) ((jM).yTile (0))).2).readRow (jM) (0) (xShadowRowsLoadInOrder_1_tile).rows.length (127) (xShadowRowsLoadInOrder_1_tile).scales).1),
    (((((xShadowRowsLoadInOrder_1_s₀).tileReady (jM) ((jM).yTile (0))).2).readRow (jM) (0) (xShadowRowsLoadInOrder_1_tile).rows.length (127) (xShadowRowsLoadInOrder_1_tile).scales).2.1),
    by decide +kernel, by decide +kernel, by decide +kernel, by decide +kernel, by decide +kernel, by decide +kernel, by decide +kernel,
    by decide +kernel, by decide +kernel, by decide +kernel, third_is (by decide +kernel)⟩,
   ⟨xShadowRowsLoadInOrder_2, 100, 271, 0, 1023, by decide +kernel, by decide +kernel⟩,
   ⟨xShadowRowsLoadInOrder_3, 100, 0, 0, 255, fM, jM, by decide +kernel, by decide +kernel, by decide +kernel, by decide +kernel, by decide +kernel,
    by decide +kernel, by decide +kernel⟩,
   ⟨xShadowRowsLoadInOrder_4, 100, 0, 0, 255, 4, fM, jM, by decide +kernel, by decide +kernel, by decide +kernel, by decide +kernel, by decide +kernel,
    by decide +kernel, by decide +kernel, by decide +kernel, by decide +kernel, by decide +kernel⟩⟩

def xChecksumVerdicts_1 : State := { wMat with pas := [(0, { slots := [fM, { fM with judged := true }] })] }
def xChecksumVerdicts_2 : State := { wMat with pas := [(0, { slots := [fM] })] }
def xChecksumVerdicts_3 : State := { wMat with pas := [(0, { slots := [{ fM with special := true }] })] }
def xChecksumVerdicts_3_f : SlotFl := { fM with special := true }
def xChecksumVerdicts_4 : State :=
  { wMat with pas := [(0, { checks := [{ job := 1, pass := 0, tile := tM, lastStart := 0, judged := 2, sums := [] }] })] }
def xChecksumVerdicts_4_k : PassChk := { job := 1, pass := 0, tile := tM, lastStart := 0, judged := 2, sums := [] }

/-- Hypotheses of ChecksumVerdicts: for each clause, a state and operands that meet them. -/
theorem met_ChecksumVerdicts :
    (∃ (s : State) (t pa cyc : Nat) (um ue : Int) (f : SlotFl) (j : Job),
      pa < 272 ∧ (s.pa pa).slots.find? (fun x => !x.judged) = some f ∧ s.job f.job = some j ∧ j.footAt f.start + 4 ≤ cyc ∧ f.special = false ∧
      f.phys.any ColRes.special = false ∧ j.columnFails f um ue = false) ∧
    (∃ (s : State) (t pa cyc : Nat) (um ue : Int) (f : SlotFl) (j : Job),
      pa < 272 ∧ (s.pa pa).slots.find? (fun x => !x.judged) = some f ∧ s.job f.job = some j ∧ j.footAt f.start + 4 ≤ cyc ∧ f.special = false ∧
      f.phys.any ColRes.special = false ∧ j.columnFails f um ue = true) ∧
    (∃ (s : State) (t pa cyc : Nat) (um ue : Int) (f : SlotFl) (j : Job),
      pa < 272 ∧ (s.pa pa).slots.find? (fun x => !x.judged) = some f ∧ s.job f.job = some j ∧ j.footAt f.start + 4 ≤ cyc ∧ f.special = true) ∧
    (∃ (s : State) (t pa cyc : Nat) (ups : List (Nat × Int × Int)) (k : PassChk) (j : Job),
      pa < 272 ∧ (s.pa pa).checks.head? = some k ∧ s.job k.job = some j ∧ j.m ≤ k.judged ∧ j.footAt k.lastStart + 48 ≤ cyc) :=
  ⟨⟨xChecksumVerdicts_1, 100, 0, 10000, 0, 0, fM, jM, by decide +kernel, by decide +kernel, by decide +kernel, by decide +kernel, by decide +kernel,
    by decide +kernel, by decide +kernel⟩,
   ⟨xChecksumVerdicts_2, 100, 0, 10000, 1, (-640), fM, jM, by decide +kernel, by decide +kernel, by decide +kernel, by decide +kernel,
    by decide +kernel, by decide +kernel, by decide +kernel⟩,
   ⟨xChecksumVerdicts_3, 100, 0, 10000, 0, 0, xChecksumVerdicts_3_f, jM, by decide +kernel, by decide +kernel, by decide +kernel, by decide +kernel,
    by decide +kernel⟩,
   ⟨xChecksumVerdicts_4, 100, 0, 10000, ([]), xChecksumVerdicts_4_k, jM, by decide +kernel, by decide +kernel, by decide +kernel, by decide +kernel,
    by decide +kernel⟩⟩

def xDrainReturnsCredit_1 : State :=
  ({ wMat with pas := [(0, { slots := [{ fM with drained := true }, { fM with slot := 1 }] })] }.wr F.SPR_CREDIT_FREE 287 0).wr F.SPR_CREDIT_IN_FLIGHT 1 0
def xDrainReturnsCredit_1_f : SlotFl := { fM with slot := 1 }
def xDrainReturnsCredit_2 : State := { wMat with jobs := [jM], pas := [(0, { slots := [{ fM with judged := true }] })] }
def xDrainReturnsCredit_2_f : SlotFl := { fM with judged := true }
def xDrainReturnsCredit_3 : State := { wMat with pas := [(0, { slots := [fM] })] }

/-- Hypotheses of DrainReturnsCredit: for each clause, a state and operands that meet them. -/
theorem met_DrainReturnsCredit :
    (∃ (s : State) (t pa cyc k : Nat) (cor unc : List Nat) (f : SlotFl) (j : Job),
      pa < 272 ∧ (s.pa pa).slots.find? (fun x => !x.drained) = some f ∧ s.job f.job = some j ∧
      f.start + j.w + (if j.strict then 4098 else 258) + (if j.shape = 3 then 255 else shapeN j.shape - 1) + shapeExtra j.shape + j.drainLag f.pass ≤ cyc ∧
      j.held.length < 32 ∧
      (k = (if j.final ∧ j.lastInto f.pass ∧ j.exports = false ∧ j.outKind = 2 ∧ j.axisM then (if j.held.length = 31 then 32 else 0) else 1)) ∧
      s.rd F.SPR_CREDIT_FREE pa + s.rd F.SPR_CREDIT_IN_FLIGHT pa = 288 ∧ k ≤ s.rd F.SPR_CREDIT_IN_FLIGHT pa) ∧
    (∃ (s : State) (t pa cyc : Nat) (cor unc : List Nat) (f : SlotFl) (j : Job),
      pa < 272 ∧ (s.pa pa).slots.find? (fun x => !x.drained) = some f ∧ s.job f.job = some j ∧ (j.final && j.lastInto f.pass) = false ∧
      f.start + j.w + (if j.strict then 4098 else 258) + (if j.shape = 3 then 255 else shapeN j.shape - 1) + shapeExtra j.shape + 8 ≤ cyc) ∧
    (∃ (s : State) (t pa cyc : Nat) (cor unc : List Nat) (f : SlotFl) (j : Job),
      pa < 272 ∧ (s.pa pa).slots.find? (fun x => !x.drained) = some f ∧ s.job f.job = some j ∧
      cyc < f.start + j.w + (if j.strict then 4098 else 258) + (if j.shape = 3 then 255 else shapeN j.shape - 1) + shapeExtra j.shape + j.drainLag f.pass) :=
  ⟨⟨xDrainReturnsCredit_1, 100, 0, 10000, 1, ([]), ([]), xDrainReturnsCredit_1_f, jM, by decide +kernel, by decide +kernel, by decide +kernel,
    by decide +kernel, by decide +kernel, by decide +kernel, by decide +kernel, by decide +kernel⟩,
   ⟨xDrainReturnsCredit_2, 100, 0, 10000, ([1]), ([2]), xDrainReturnsCredit_2_f, jM, by decide +kernel, by decide +kernel, by decide +kernel,
    by decide +kernel, by decide +kernel⟩,
   ⟨xDrainReturnsCredit_3, 100, 0, 10, ([]), ([]), fM, jM, by decide +kernel, by decide +kernel, by decide +kernel, by decide +kernel⟩⟩

def xContributions_1 : State := { wRed 0 { unit := 3 } with beats := [⟨0, 0, ⟨16, 0, 0, false, 0, 4⟩, 0, [1, 2], 1⟩] }
def xContributions_1_b : Beat := ⟨0, 0, ⟨16, 0, 0, false, 0, 4⟩, 0, [1, 2], 1⟩
def xContributions_2 : State :=
  { wRed 0 { unit := 3, ins := [{ dev := wUp.fabAddr, job := 1, index := 1, gen := 0, got := 1, hold := none, lastAt := 0 }] } with beats := [⟨0, 0, ⟨2, 1, 0, false, 0, 4⟩, 1, [1, 2], 1⟩] }
def xContributions_2_b : Beat := ⟨0, 0, ⟨2, 1, 0, false, 0, 4⟩, 1, [1, 2], 1⟩
def xContributions_2_x : AtuEntry :=
  { unit := 3, ins := [{ dev := wUp.fabAddr, job := 1, index := 1, gen := 0, got := 1, hold := none, lastAt := 0 }] }
def xContributions_2_i : PartIn := { dev := wUp.fabAddr, job := 1, index := 1, gen := 0, got := 1, hold := none, lastAt := 0 }
def xContributions_2_s₀ : State := { (xContributions_2).tick (100) with beats := (xContributions_2).beats.erase (xContributions_2_b) }
def xContributions_2_s₁ : State :=
  ((xContributions_2_s₀).devRead 4 (unitMaster (xContributions_2_x).unit) (xContributions_2_b).p ((xContributions_2_s₀).redAddr (xContributions_2_b).p (xContributions_2_b).hdr.handle) 64).2.2.2
def xContributions_2_i₂ : PartIn :=
  { (xContributions_2_i) with got := (xContributions_2_b).first + (xContributions_2_b).vals.length, lastAt := (xContributions_2_s₁).now }
def xContributions_2_s₂ : State :=
  (((xContributions_2_s₁).setAtu (xContributions_2_b).p (xContributions_2_b).hdr.handle { (xContributions_2_x) with ins := (xContributions_2_x).ins.map (fun z => if z = (xContributions_2_i) then (xContributions_2_i₂) else z) }).applyVals (xContributions_2_b).p (xContributions_2_x).unit (redE 0) (xContributions_2_i).index (xContributions_2_b).first (xContributions_2_b).vals).2
def xContributions_3 : State := wRed 0 { unit := 3, ins := [{ dev := 9, job := 1, index := 1, gen := 0, got := 1, hold := none, lastAt := 0 }] }
def xContributions_3_x : AtuEntry := { unit := 3, ins := [{ dev := 9, job := 1, index := 1, gen := 0, got := 1, hold := none, lastAt := 0 }] }
def xContributions_3_i : PartIn := { dev := 9, job := 1, index := 1, gen := 0, got := 1, hold := none, lastAt := 0 }
def xContributions_4 : State := wRed 1 { unit := 3, ins := [{ dev := 9, job := 1, index := 1, gen := 0, got := 1, hold := some 0, lastAt := 0 }] }
def xContributions_4_x : AtuEntry := { unit := 3, ins := [{ dev := 9, job := 1, index := 1, gen := 0, got := 1, hold := some 0, lastAt := 0 }] }
def xContributions_4_i : PartIn := { dev := 9, job := 1, index := 1, gen := 0, got := 1, hold := some 0, lastAt := 0 }
def xContributions_5 : State := wRed 1 { unit := 3, holds := [yH] }
def xContributions_5_x : AtuEntry := { unit := 3, holds := [yH] }
def xContributions_5_s₀ : State :=
  ((xContributions_5).tick (100)).setAtu (0) (2) { (xContributions_5_x) with holds := (xContributions_5_x).holds.filter (fun z => z ≠ (yH)), ins := (xContributions_5_x).ins ++ [{ (yH) with hold := none, lastAt := max (xContributions_5).now (100) }] }
def xContributions_5_s₁ : State :=
  ((xContributions_5_s₀).devRead 4 (unitMaster (xContributions_5_x).unit) (0) ((xContributions_5).redAddr (0) (2)) 64).2.2.2
def xContributions_5_s₂ : State :=
  ((xContributions_5_s₁).devRead 4 (unitMaster (xContributions_5_x).unit) (0) (holdAddr (redE 1) ((yH).hold.getD 0) 0) (redWidth (redE 1) * redElems (redE 1))).2.2.2
def xContributions_5_s₃ : State :=
  ((xContributions_5_s₂).applyVals (0) (xContributions_5_x).unit (redE 1) (yH).index 0 ((List.range (redElems (redE 1))).map (fun i => leAt (((xContributions_5_s₁).devRead 4 (unitMaster (xContributions_5_x).unit) (0) (holdAddr (redE 1) ((yH).hold.getD 0) 0) (redWidth (redE 1) * redElems (redE 1))).2.1) (redWidth (redE 1) * i) (redWidth (redE 1))))).2

/-- Hypotheses of Contributions: for each clause, a state and operands that meet them. -/
theorem met_Contributions :
    (∃ (s : State) (t k : Nat) (b : Beat),
      s.safe = false ∧ s.beats[k]? = some b ∧ (s.beats.take k).any (fun a => sameStream a b) = false ∧ b.first = 0 ∧
      aget s.atu (redKey b.p b.hdr.handle) = none ∧ s.rd F.MEM_REDTAB_COUNT b.p ≤ b.hdr.handle) ∧
    (∃ (s s₀ s₁ s₂ : State) (t k : Nat) (b : Beat) (e : Bytes) (x : AtuEntry) (i i₂ : PartIn),
      s.safe = false ∧ s.beats[k]? = some b ∧ (s.beats.take k).any (fun a => sameStream a b) = false ∧
      aget s.atu (redKey b.p b.hdr.handle) = some x ∧
      x.ins.find? (fun y => decide (y.dev = s.fabAddr) && decide (y.job = b.job) && decide (y.index = b.hdr.index) && decide (y.gen = b.gen)) = some i ∧
      b.first = i.got ∧ i.dead = false ∧ i.hold = none ∧ s₀ = { s.tick t with beats := s.beats.erase b } ∧
      s₀.devRead 4 (unitMaster x.unit) b.p (s₀.redAddr b.p b.hdr.handle) 64 = (none, e, false, s₁) ∧
      i₂ = { i with got := b.first + b.vals.length, lastAt := s₁.now } ∧
      (s₁.setAtu b.p b.hdr.handle { x with ins := x.ins.map (fun z => if z = i then i₂ else z) }).applyVals b.p x.unit e i.index b.first b.vals = (true, s₂) ∧
      b.first + b.vals.length < redElems e) ∧
    (∃ (s : State) (t p h index : Nat) (stale : Bool) (x : AtuEntry) (i : PartIn),
      p < 16 ∧ s.safe = false ∧ aget s.atu (redKey p h) = some x ∧ x.ins.find? (fun y => decide (y.index = index) && !y.dead) = some i ∧
      ((stale = true ∨ i.lastAt + 1000000 ≤ max s.now t)) ∧ i.hold = none) ∧
    (∃ (s : State) (t p h index k : Nat) (x : AtuEntry) (i : PartIn),
      p < 16 ∧ s.safe = false ∧ aget s.atu (redKey p h) = some x ∧ x.ins.find? (fun y => decide (y.index = index) && !y.dead) = some i ∧
      i.hold = some k) ∧
    (∃ (s s₀ s₁ s₂ s₃ : State) (t p h : Nat) (e d : Bytes) (x : AtuEntry) (y : PartIn),
      p < 16 ∧ s.safe = false ∧ aget s.atu (redKey p h) = some x ∧ x.opened = true ∧ x.holds.find? (fun z => z.index = x.next) = some y ∧
      s₀ = (s.tick t).setAtu p h { x with holds := x.holds.filter (fun z => z ≠ y), ins := x.ins ++ [{ y with hold := none, lastAt := max s.now t }] } ∧
      s₀.devRead 4 (unitMaster x.unit) p (s.redAddr p h) 64 = (none, e, false, s₁) ∧
      s₁.devRead 4 (unitMaster x.unit) p (holdAddr e (y.hold.getD 0) 0) (redWidth e * redElems e) = (none, d, false, s₂) ∧
      s₂.applyVals p x.unit e y.index 0 ((List.range (redElems e)).map (fun i => leAt d (redWidth e * i) (redWidth e))) = (true, s₃) ∧
      redClass e = 1) :=
  ⟨⟨xContributions_1, 100, 0, xContributions_1_b, by decide +kernel, by decide +kernel, by decide +kernel, by decide +kernel, by decide +kernel,
    by decide +kernel⟩,
   ⟨xContributions_2, xContributions_2_s₀, xContributions_2_s₁, xContributions_2_s₂, 100, 0, xContributions_2_b, (redE 0), xContributions_2_x,
    xContributions_2_i, xContributions_2_i₂, by decide +kernel, by decide +kernel, by decide +kernel, by decide +kernel, by decide +kernel,
    by decide +kernel, by decide +kernel, by decide +kernel, by decide +kernel, by decide +kernel, by decide +kernel, by decide +kernel,
    by decide +kernel⟩,
   ⟨xContributions_3, 1000000, 0, 2, 1, false, xContributions_3_x, xContributions_3_i, by decide +kernel, by decide +kernel, by decide +kernel,
    by decide +kernel, by decide +kernel, by decide +kernel⟩,
   ⟨xContributions_4, 100, 0, 2, 1, 0, xContributions_4_x, xContributions_4_i, by decide +kernel, by decide +kernel, by decide +kernel,
    by decide +kernel, by decide +kernel⟩,
   ⟨xContributions_5, xContributions_5_s₀, xContributions_5_s₁, xContributions_5_s₂, xContributions_5_s₃, 100, 0, 2, (redE 1),
    (((xContributions_5_s₁).devRead 4 (unitMaster (xContributions_5_x).unit) (0) (holdAddr (redE 1) ((yH).hold.getD 0) 0) (redWidth (redE 1) * redElems (redE 1))).2.1),
    xContributions_5_x, yH, by decide +kernel, by decide +kernel, by decide +kernel, by decide +kernel, by decide +kernel, by decide +kernel,
    by decide +kernel, by decide +kernel, by decide +kernel, by decide +kernel⟩⟩

/-- Hypotheses of StairwayCopies: for each clause, a state and operands that meet them. -/
theorem met_StairwayCopies :
    (∃ (s s₁ : State) (t g e : Nat) (j j₁ : Job),
      g < 16 ∧ e < 4 ∧ s.copyOn g e = some j ∧ s.on F.STW_CMD_ACTIVE g e = true ∧ (s.tick t).copyRow j = (none, s₁, j₁) ∧ j₁.g = g ∧
      j₁.engine = e ∧ (s₁.copyRaise j₁).on F.STW_CMD_ACTIVE g e = true) ∧
    (∃ (s : State) (t g e : Nat) (j : Job),
      g < 16 ∧ e < 4 ∧ s.jobs = [j] ∧ s.copyOn g e = some j ∧ j.engine = e ∧ j.layKind = 0 ∧ s.on F.STW_CMD_ACTIVE g e = true ∧
      s.on F.STW_FIRST_VALID g = false) ∧
    (∃ (s : State) (t g e check : Nat) (j : Job),
      g < 16 ∧ e < 4 ∧ 1 ≤ check ∧ check ≤ 4 ∧ s.jobs = [j] ∧ s.copyOn g e = some j ∧ j.engine = e ∧ j.layKind = 0 ∧
      s.on F.STW_CMD_ACTIVE g e = true ∧ s.on F.PGM_FAULT_VALID = false) :=
  ⟨⟨wCopy, ((((wCopy).tick (100)).copyRow (jC)).2.1), 100, 0, 1, jC, ((((wCopy).tick (100)).copyRow (jC)).2.2), by decide +kernel, by decide +kernel,
    by decide +kernel, by decide +kernel, by decide +kernel, by decide +kernel, by decide +kernel, by decide +kernel⟩,
   ⟨wCopy, 100, 0, 1, jC, by decide +kernel, by decide +kernel, by decide +kernel, by decide +kernel, by decide +kernel, by decide +kernel,
    by decide +kernel, by decide +kernel⟩,
   ⟨wCopy, 100, 0, 1, 4, jC, by decide +kernel, by decide +kernel, by decide +kernel, by decide +kernel, by decide +kernel, by decide +kernel,
    by decide +kernel, by decide +kernel, by decide +kernel, by decide +kernel⟩⟩

def xDoorbells_1 : State := (wSeq x0).wr F.PCI_RING_CQ_TAIL 1 0 0
def xDoorbells_4 : State := (wSeq x0).wr F.CLK_AG_STATE 2 0 0
def xDoorbells_5 : State := withHeld (wSeq x0) [(16, .doorbell .pf0 0 1 5)]

/-- Hypotheses of Doorbells: for each clause, a state and operands that meet them. -/
theorem met_Doorbells :
    (∃ (s : State) (t g c w : Nat) (fn : Fn) (x : CtxSt),
      g < 16 ∧ c < 8 ∧ s.fnReaches fn g = true ∧ s.safe = false ∧ s.behind (.doorbell fn g c w) = none ∧ s.groupRuns g = true ∧
      s.ctx g c = some x ∧ ahead (bits w 0 16) (s.rd F.PCI_RING_SQ_HEAD g c) ≤ 2 ^ x.sqLog2 ∧
      ahead x.sqTail (s.rd F.PCI_RING_SQ_HEAD g c) ≤ ahead (bits w 0 16) (s.rd F.PCI_RING_SQ_HEAD g c) ∧
      ahead (s.rd F.PCI_RING_CQ_TAIL g c) (bits w 16 16) ≤ ahead (s.rd F.PCI_RING_CQ_TAIL g c) x.cqHead) ∧
    (∃ (s : State) (t g c w : Nat) (fn : Fn),
      g < 16 ∧ c < 8 ∧ s.fnReaches fn g = true ∧ s.safe = false ∧ s.behind (.doorbell fn g c w) = none ∧ s.groupRuns g = true ∧ s.ctx g c = none) ∧
    (∃ (s : State) (t g c w : Nat) (fn : Fn) (x : CtxSt),
      g < 16 ∧ c < 8 ∧ s.fnReaches fn g = true ∧ s.safe = false ∧ s.behind (.doorbell fn g c w) = none ∧ s.groupRuns g = true ∧
      s.ctx g c = some x ∧
      ((2 ^ x.sqLog2 < ahead (bits w 0 16) (s.rd F.PCI_RING_SQ_HEAD g c) ∨ ahead (bits w 0 16) (s.rd F.PCI_RING_SQ_HEAD g c) < ahead x.sqTail (s.rd F.PCI_RING_SQ_HEAD g c) ∨ ahead (s.rd F.PCI_RING_CQ_TAIL g c) x.cqHead < ahead (s.rd F.PCI_RING_CQ_TAIL g c) (bits w 16 16)))) ∧
    (∃ (s : State) (t g c w : Nat) (fn : Fn),
      g < 16 ∧ c < 8 ∧ s.fnReaches fn g = true ∧ s.safe = false ∧ s.behind (.doorbell fn g c w) = none ∧
      ((s.rd F.CLK_AG_STATE g = 1 ∨ s.rd F.CLK_AG_STATE g = 2))) ∧
    (∃ (s : State) (t g c w k : Nat) (fn : Fn),
      g < 16 ∧ c < 8 ∧ s.fnReaches fn g = true ∧ s.safe = false ∧ s.behind (.doorbell fn g c w) = some k) ∧
    (∃ (s : State) (t g c w p : Nat),
      g < 16 ∧ c < 8 ∧ s.fnReaches (.bfy p) g = false) ∧
    (∃ (s : State) (t g c w n : Nat),
      g < 16 ∧ c < 8 ∧ s.fnReaches (.vf n) g = false) :=
  ⟨⟨xDoorbells_1, 100, 0, 0, (2 ^ 32 + 2), .pf0, x0, by decide +kernel, by decide +kernel, by decide +kernel, by decide +kernel, by decide +kernel,
    by decide +kernel, by decide +kernel, by decide +kernel, by decide +kernel, by decide +kernel⟩,
   ⟨(wSeq x0), 100, 0, 7, 1, .pf0, by decide +kernel, by decide +kernel, by decide +kernel, by decide +kernel, by decide +kernel, by decide +kernel,
    by decide +kernel⟩,
   ⟨(wSeq x0), 100, 0, 0, 17, .pf0, x0, by decide +kernel, by decide +kernel, by decide +kernel, by decide +kernel, by decide +kernel,
    by decide +kernel, by decide +kernel, by decide +kernel⟩,
   ⟨xDoorbells_4, 100, 0, 0, 17, .pf0, by decide +kernel, by decide +kernel, by decide +kernel, by decide +kernel, by decide +kernel,
    by decide +kernel⟩,
   ⟨xDoorbells_5, 100, 0, 0, 17, 16, .pf0, by decide +kernel, by decide +kernel, by decide +kernel, by decide +kernel, by decide +kernel⟩,
   ⟨(wSeq x0), 100, 0, 0, 1, 3, by decide +kernel, by decide +kernel, by decide +kernel⟩,
   ⟨(wSeq x0), 100, 0, 0, 1, 9, by decide +kernel, by decide +kernel, by decide +kernel⟩⟩

def xDescriptorHeads_1_s₁ : State := (((wSeq x0).tick (100)).devRead 0 0 0 A 64).2.2.2
def xDescriptorHeads_1_j : Job :=
  { id := (xDescriptorHeads_1_s₁).jobCtr + 1, g := (0), c := (0), p := 0, idx := (0), alt := (false), level := 0, inReg := false, desc := (natLe 64 0), ext := [], unit := 31 }
def xDescriptorHeads_1_s₃ : State := ({ ((xDescriptorHeads_1_s₁)) with jobCtr := (xDescriptorHeads_1_j).id } : State).reserve (0) (0)
def xDescriptorHeads_2_s₁ : State := ((((wSeq x0).wrNat K 1 9).tick (100)).devRead 0 0 0 A 64).2.2.2
def xDescriptorHeads_2_j : Job :=
  { id := (xDescriptorHeads_2_s₁).jobCtr + 1, g := (0), c := (0), p := 0, idx := (0), alt := (false), level := 0, inReg := false, desc := (natLe 64 9), ext := [], unit := 31 }
def xDescriptorHeads_2_s₃ : State := ({ ((xDescriptorHeads_2_s₁)) with jobCtr := (xDescriptorHeads_2_j).id } : State).reserve (0) (0)

/-- Hypotheses of DescriptorHeads: for each clause, a state and operands that meet them. -/
theorem met_DescriptorHeads :
    (∃ (s s₁ s₂ s₃ : State) (t g c p addr next idx avail : Nat) (alt : Bool) (x : CtxSt) (b e cmd : Bytes) (j : Job),
      g < 16 ∧ c < 8 ∧ nonePosted s ∧ p = s.rd F.AG_CONFIG_PARTITION g ∧ s.ctx g c = some x ∧ s.rd F.AG_CTX_STATE g c ≠ 2 ∧ x.head = none ∧
      x.region.bind (fun r => r.stop) = none ∧ x.ends.any (fun e => e.op = 6 && decide (e.status = 0)) = false ∧ s.canReserve g c = true ∧
      s.seqUp p g = true ∧ s.headSlot g c x = some (addr, next, idx, alt, avail) ∧
      (s.tick t).devRead (dieOf g) g p addr 64 = (none, b, false, s₁) ∧
      j = { id := s₁.jobCtr + 1, g := g, c := c, p := p, idx := idx, alt := alt, level := (x.region.map (fun r => r.level)).getD 0, inReg := decide (leAt b 0 1 = 5) || (x.region.isSome && decide (leAt b 0 1 ≠ 6)), desc := b, ext := e, unit := unitOf (leAt b 0 1) (leAt b 9 1) } ∧
      (((leAt b 0 1 ≠ 1 ∨ j.hasExt = false) ∧ e = [] ∧ s₂ = s₁ ∨ leAt b 0 1 = 1 ∧ j.hasExt = true ∧ 2 ≤ avail ∧ s₁.devRead (dieOf g) g p next 64 = (none, e, false, s₂))) ∧
      (((leAt b 0 1 ≠ 2 ∨ j.bad01 = true ∨ 3 < j.target) ∧ cmd = [] ∧ s₃ = ({ s₂ with jobCtr := j.id } : State).reserve g c ∨ leAt b 0 1 = 2 ∧ j.bad01 = false ∧ j.target ≤ 3 ∧ (({ s₂ with jobCtr := j.id } : State).reserve g c).devRead (dieOf g) g p (leAt b 16 6) 64 = (none, cmd, false, s₃))) ∧
      s₃.validate { j with cmd := cmd } = 0 ∧ j.waits = false ∧ s.rd F.PCI_RING_RESERVED_SLOTS g c < 4095) ∧
    (∃ (s s₁ s₂ s₃ : State) (t g c p addr next idx avail : Nat) (alt : Bool) (x : CtxSt) (b e cmd : Bytes) (j : Job),
      g < 16 ∧ c < 8 ∧ nonePosted s ∧ p = s.rd F.AG_CONFIG_PARTITION g ∧ s.ctx g c = some x ∧ s.rd F.AG_CTX_STATE g c ≠ 2 ∧ x.head = none ∧
      x.region.bind (fun r => r.stop) = none ∧ x.ends.any (fun e => e.op = 6 && decide (e.status = 0)) = false ∧ s.canReserve g c = true ∧
      s.seqUp p g = true ∧ s.headSlot g c x = some (addr, next, idx, alt, avail) ∧
      (s.tick t).devRead (dieOf g) g p addr 64 = (none, b, false, s₁) ∧
      j = { id := s₁.jobCtr + 1, g := g, c := c, p := p, idx := idx, alt := alt, level := (x.region.map (fun r => r.level)).getD 0, inReg := decide (leAt b 0 1 = 5) || (x.region.isSome && decide (leAt b 0 1 ≠ 6)), desc := b, ext := e, unit := unitOf (leAt b 0 1) (leAt b 9 1) } ∧
      (((leAt b 0 1 ≠ 1 ∨ j.hasExt = false) ∧ e = [] ∧ s₂ = s₁ ∨ leAt b 0 1 = 1 ∧ j.hasExt = true ∧ 2 ≤ avail ∧ s₁.devRead (dieOf g) g p next 64 = (none, e, false, s₂))) ∧
      (((leAt b 0 1 ≠ 2 ∨ j.bad01 = true ∨ 3 < j.target) ∧ cmd = [] ∧ s₃ = ({ s₂ with jobCtr := j.id } : State).reserve g c ∨ leAt b 0 1 = 2 ∧ j.bad01 = false ∧ j.target ≤ 3 ∧ (({ s₂ with jobCtr := j.id } : State).reserve g c).devRead (dieOf g) g p (leAt b 16 6) 64 = (none, cmd, false, s₃))) ∧
      s₃.validate { j with cmd := cmd } ≠ 0) :=
  ⟨⟨(wSeq x0), xDescriptorHeads_1_s₁, ((xDescriptorHeads_1_s₁)), xDescriptorHeads_1_s₃, 100, 0, 0, 0, A, (A + 64), 0, 1, false, x0, (natLe 64 0), ([]),
    ([]), xDescriptorHeads_1_j, by decide +kernel, by decide +kernel, by unfold nonePosted; decide +kernel, by decide +kernel, by decide +kernel,
    by decide +kernel, by decide +kernel, by decide +kernel, by decide +kernel, by decide +kernel, by decide +kernel, by decide +kernel,
    by decide +kernel, by decide +kernel, by decide +kernel, by decide +kernel, by decide +kernel, by decide +kernel, by decide +kernel⟩,
   ⟨((wSeq x0).wrNat K 1 9), xDescriptorHeads_2_s₁, ((xDescriptorHeads_2_s₁)), xDescriptorHeads_2_s₃, 100, 0, 0, 0, A, (A + 64), 0, 1, false, x0,
    (natLe 64 9), ([]), ([]), xDescriptorHeads_2_j, by decide +kernel, by decide +kernel, by unfold nonePosted; decide +kernel, by decide +kernel,
    by decide +kernel, by decide +kernel, by decide +kernel, by decide +kernel, by decide +kernel, by decide +kernel, by decide +kernel,
    by decide +kernel, by decide +kernel, by decide +kernel, by decide +kernel, by decide +kernel, by decide +kernel⟩⟩

def xDescriptorStarts_1 : State := wSeq { x0 with head := some { job := jD [], waits := false } }
def xDescriptorStarts_1_x : CtxSt := { x0 with head := some { job := jD [], waits := false } }
def xDescriptorStarts_1_h : Head := { job := jD [], waits := false }
def xDescriptorStarts_2 : State := wSeq { x0 with head := some { job := jD [(0, 1, 5), (20, 2, 3)], waits := false } }
def xDescriptorStarts_2_x : CtxSt := { x0 with head := some { job := jD [(0, 1, 5), (20, 2, 3)], waits := false } }
def xDescriptorStarts_2_h : Head := { job := jD [(0, 1, 5), (20, 2, 3)], waits := false }
def xDescriptorStarts_3 : State :=
  { wSeq { x0 with region := some { start := 0, span := 3, levelMax := 2, altAddr := A + 8192, level := 1, withheld := [(7, 3), (9, 1)] }, head := some { job := jD [(0, 1, 6)], waits := false } } with rings := [{ p := 0, bell := 1, count := 1, from_ := 0, src := 0 }] }
def xDescriptorStarts_3_x : CtxSt :=
  { x0 with region := some { start := 0, span := 3, levelMax := 2, altAddr := A + 8192, level := 1, withheld := [(7, 3), (9, 1)] }, head := some { job := jD [(0, 1, 6)], waits := false } }
def xDescriptorStarts_3_h : Head := { job := jD [(0, 1, 6)], waits := false }
def xDescriptorStarts_3_r : RegionSt := { start := 0, span := 3, levelMax := 2, altAddr := A + 8192, level := 1, withheld := [(7, 3), (9, 1)] }
def xDescriptorStarts_4 : State := wSeq { x0 with head := some { job := jT, waits := false } }
def xDescriptorStarts_4_x : CtxSt := { x0 with head := some { job := jT, waits := false } }
def xDescriptorStarts_4_h : Head := { job := jT, waits := false }
def xDescriptorStarts_5 : State := { wCopy with jobs := [], ctxs := [(0, { x0 with head := some { job := jC, waits := false } })] }
def xDescriptorStarts_5_x : CtxSt := { x0 with head := some { job := jC, waits := false } }
def xDescriptorStarts_5_h : Head := { job := jC, waits := false }
def xDescriptorStarts_6 : State := { wMat with jobs := [], ctxs := [(0, { x0 with head := some { job := jM, waits := false } })] }
def xDescriptorStarts_6_x : CtxSt := { x0 with head := some { job := jM, waits := false } }
def xDescriptorStarts_6_h : Head := { job := jM, waits := false }
def xDescriptorStarts_6_j : Job :=
  (({ (xDescriptorStarts_6).tick (100) with lastCtx := aset (xDescriptorStarts_6).lastCtx (0) (0) } : State).prepareMatmul { (xDescriptorStarts_6).latch (xDescriptorStarts_6_h).job with startAt := ((xDescriptorStarts_6).tick (100)).now, pa := 17 * (0) + (xDescriptorStarts_6).mapField (0) (xDescriptorStarts_6_h).job.target % 32 }).2.1
def xDescriptorStarts_6_s₁ : State :=
  (({ (xDescriptorStarts_6).tick (100) with lastCtx := aset (xDescriptorStarts_6).lastCtx (0) (0) } : State).prepareMatmul { (xDescriptorStarts_6).latch (xDescriptorStarts_6_h).job with startAt := ((xDescriptorStarts_6).tick (100)).now, pa := 17 * (0) + (xDescriptorStarts_6).mapField (0) (xDescriptorStarts_6_h).job.target % 32 }).2.2

/-- Hypotheses of DescriptorStarts: for each clause, a state and operands that meet them. -/
theorem met_DescriptorStarts :
    (∃ (s : State) (t g c : Nat) (x : CtxSt) (h : Head),
      g < 16 ∧ c < 8 ∧ ((∀ k, k ∈ s.jobs → k.echo = false)) ∧ s.nextCtx g = some c ∧ s.ctx g c = some x ∧ x.head = some h ∧ h.job.g = g ∧
      h.job.c = c ∧ h.job.op = 0 ∧ h.job.alt = false ∧ x.region = none ∧ h.job.ringBell.testBit 15 = false ∧ h.job.flags.testBit 1 = false) ∧
    (∃ (s : State) (t g c : Nat) (x : CtxSt) (h : Head),
      g < 16 ∧ c < 8 ∧ ((∀ k, k ∈ s.jobs → k.echo = false)) ∧ s.nextCtx g = some c ∧ s.ctx g c = some x ∧ x.head = some h ∧ h.job.g = g ∧
      h.job.c = c ∧ h.job.op = 5 ∧ x.region = none) ∧
    (∃ (s : State) (t g c : Nat) (x : CtxSt) (h : Head) (r : RegionSt),
      g < 16 ∧ c < 8 ∧ ((∀ k, k ∈ s.jobs → k.echo = false)) ∧ s.nextCtx g = some c ∧ s.ctx g c = some x ∧ x.head = some h ∧ h.job.g = g ∧
      h.job.c = c ∧ h.job.op = 6 ∧ h.job.inReg = false ∧ h.job.ringBell.testBit 15 = false ∧ x.region = some r) ∧
    (∃ (s : State) (t g c : Nat) (x : CtxSt) (h : Head),
      g < 16 ∧ c < 8 ∧ ((∀ k, k ∈ s.jobs → k.echo = false)) ∧ s.nextCtx g = some c ∧ s.ctx g c = some x ∧ x.head = some h ∧ h.echoed = false ∧
      h.job.g = g ∧ h.job.c = c ∧ h.job.op = 3 ∧ h.job.alt = false ∧ s.on F.GAL_GOAL_GALLERY h.job.p = false) ∧
    (∃ (s : State) (t g c : Nat) (x : CtxSt) (h : Head),
      g < 16 ∧ c < 8 ∧ ((∀ k, k ∈ s.jobs → k.echo = false)) ∧ s.nextCtx g = some c ∧ s.ctx g c = some x ∧ x.head = some h ∧ h.echoed = false ∧
      h.job.g = g ∧ h.job.c = c ∧ h.job.op = 2 ∧ h.job.alt = false ∧ s.on F.GAL_GOAL_GALLERY h.job.p = false) ∧
    (∃ (s s₁ : State) (t g c : Nat) (x : CtxSt) (h : Head) (j : Job),
      g < 16 ∧ c < 8 ∧ ((∀ k, k ∈ s.jobs → k.echo = false)) ∧ s.nextCtx g = some c ∧ s.ctx g c = some x ∧ x.head = some h ∧ h.echoed = false ∧
      h.job.echo = false ∧ h.job.g = g ∧ h.job.c = c ∧ h.job.op = 1 ∧ s.on F.GAL_GOAL_GALLERY h.job.p = false ∧
      ({ s.tick t with lastCtx := aset s.lastCtx g c } : State).prepareMatmul { s.latch h.job with startAt := (s.tick t).now, pa := 17 * g + s.mapField g h.job.target % 32 } = (none, j, s₁)) ∧
    (∃ (s : State) (t g c : Nat),
      g < 16 ∧ c < 8 ∧ ((∀ k, k ∈ s.jobs → k.echo = false)) ∧ s.nextCtx g ≠ some c) :=
  ⟨⟨xDescriptorStarts_1, 100, 0, 0, xDescriptorStarts_1_x, xDescriptorStarts_1_h, by decide +kernel, by decide +kernel, by decide +kernel,
    by decide +kernel, by decide +kernel, by decide +kernel, by decide +kernel, by decide +kernel, by decide +kernel, by decide +kernel,
    by decide +kernel, by decide +kernel, by decide +kernel⟩,
   ⟨xDescriptorStarts_2, 100, 0, 0, xDescriptorStarts_2_x, xDescriptorStarts_2_h, by decide +kernel, by decide +kernel, by decide +kernel,
    by decide +kernel, by decide +kernel, by decide +kernel, by decide +kernel, by decide +kernel, by decide +kernel, by decide +kernel⟩,
   ⟨xDescriptorStarts_3, 100, 0, 0, xDescriptorStarts_3_x, xDescriptorStarts_3_h, xDescriptorStarts_3_r, by decide +kernel, by decide +kernel,
    by decide +kernel, by decide +kernel, by decide +kernel, by decide +kernel, by decide +kernel, by decide +kernel, by decide +kernel,
    by decide +kernel, by decide +kernel, by decide +kernel⟩,
   ⟨xDescriptorStarts_4, 100, 0, 0, xDescriptorStarts_4_x, xDescriptorStarts_4_h, by decide +kernel, by decide +kernel, by decide +kernel,
    by decide +kernel, by decide +kernel, by decide +kernel, by decide +kernel, by decide +kernel, by decide +kernel, by decide +kernel,
    by decide +kernel, by decide +kernel⟩,
   ⟨xDescriptorStarts_5, 100, 0, 0, xDescriptorStarts_5_x, xDescriptorStarts_5_h, by decide +kernel, by decide +kernel, by decide +kernel,
    by decide +kernel, by decide +kernel, by decide +kernel, by decide +kernel, by decide +kernel, by decide +kernel, by decide +kernel,
    by decide +kernel, by decide +kernel⟩,
   ⟨xDescriptorStarts_6, xDescriptorStarts_6_s₁, 100, 0, 0, xDescriptorStarts_6_x, xDescriptorStarts_6_h, xDescriptorStarts_6_j, by decide +kernel,
    by decide +kernel, by decide +kernel, by decide +kernel, by decide +kernel, by decide +kernel, by decide +kernel, by decide +kernel,
    by decide +kernel, by decide +kernel, by decide +kernel, by decide +kernel, by decide +kernel⟩,
   ⟨(wSeq x0), 100, 0, 0, by decide +kernel, by decide +kernel, by decide +kernel, by decide +kernel⟩⟩

def xDescriptorsRetire_1 : State := { wSeq x0 with jobs := [{ jC with ended := true, desc := fields 64 [(0, 1, 2), (1, 1, 2), (12, 4, 99)] }] }
def xDescriptorsRetire_1_j : Job := { jC with ended := true, desc := fields 64 [(0, 1, 2), (1, 1, 2), (12, 4, 99)] }
def xDescriptorsRetire_2 : State :=
  (wSeq { x0 with region := some { start := 0, span := 3, levelMax := 2, altAddr := A + 8192, due := true } }).wrBytes (K + 8192) (fields 16 [(0, 6, A + 64), (6, 2, 3)])
def xDescriptorsRetire_2_x : CtxSt := { x0 with region := some { start := 0, span := 3, levelMax := 2, altAddr := A + 8192, due := true } }
def xDescriptorsRetire_2_r : RegionSt := { start := 0, span := 3, levelMax := 2, altAddr := A + 8192, due := true }
def xDescriptorsRetire_2_s₁ : State := (((xDescriptorsRetire_2).tick (100)).devRead 0 0 0 (A + 8192) 16).2.2.2
def xDescriptorsRetire_3 : State :=
  (wSeq { x0 with ends := [e0] }).wr F.PCI_RING_RESERVED_SLOTS 1 0 0 |>.wr F.PCI_RING_ARMED 1 0 0 |>.wr F.PCI_RING_CQ_TAIL 65535 0 0
def xDescriptorsRetire_3_x : CtxSt := { x0 with ends := [e0] }

/-- Hypotheses of DescriptorsRetire: for each clause, a state and operands that meet them. -/
theorem met_DescriptorsRetire :
    (∃ (s : State) (t g c k : Nat) (x : CtxSt) (j : Job) (o : Nat × Nat × Nat),
      g < 16 ∧ c < 8 ∧ (s.jobsOf g c)[k]? = some j ∧ s.jobOutcome j = some o ∧ j.sampled = false ∧ s.ctx g c = some x) ∧
    (∃ (s s₁ : State) (t g c : Nat) (x : CtxSt) (r : RegionSt) (b : Bytes),
      g < 16 ∧ c < 8 ∧ s.ctx g c = some x ∧ x.region = some r ∧ r.due = true ∧ s.rd F.AG_CTX_STATE g c ≠ 2 ∧
      s.seqUp (s.rd F.AG_CONFIG_PARTITION g) g = true ∧
      (s.tick t).devRead (dieOf g) g (s.rd F.AG_CONFIG_PARTITION g) (r.altAddr + 16 * r.level) 16 = (none, b, false, s₁) ∧
      leAt b 0 6 % 64 = 0 ∧ leAt b 6 2 ≠ 0 ∧ allZero (slice b 8 8) = true) ∧
    (∃ (s : State) (t g c k : Nat) (x : CtxSt) (e : EndRec),
      g < 16 ∧ c < 8 ∧ s.ctx g c = some x ∧ (x.ends.filter (fun e => !e.ringDue))[k]? = some e ∧ 0 < s.rd F.PCI_RING_RESERVED_SLOTS g c ∧
      s.rd F.PCI_RING_RESERVED_SLOTS g c < 4096 ∧ s.writeWaits (x.cqBase + 16 * (s.rd F.PCI_RING_CQ_TAIL g c % 2 ^ x.cqLog2)) 16 = false) :=
  ⟨⟨xDescriptorsRetire_1, 100, 0, 0, 0, x0, xDescriptorsRetire_1_j, ((0, 0, 0)), by decide +kernel, by decide +kernel, by decide +kernel,
    by decide +kernel, by decide +kernel, by decide +kernel⟩,
   ⟨xDescriptorsRetire_2, xDescriptorsRetire_2_s₁, 100, 0, 0, xDescriptorsRetire_2_x, xDescriptorsRetire_2_r, (fields 16 [(0, 6, A + 64), (6, 2, 3)]),
    by decide +kernel, by decide +kernel, by decide +kernel, by decide +kernel, by decide +kernel, by decide +kernel, by decide +kernel,
    by decide +kernel, by decide +kernel, by decide +kernel, by decide +kernel⟩,
   ⟨xDescriptorsRetire_3, 100, 0, 0, 0, xDescriptorsRetire_3_x, e0, by decide +kernel, by decide +kernel, by decide +kernel, by decide +kernel,
    by decide +kernel, by decide +kernel, by decide +kernel⟩⟩

def xBellsAndWaits_1 : State :=
  { wUp with rings := [{ p := 0, bell := 4095, count := 3, from_ := 0, src := 0 }, { p := 1, bell := 4095, count := 3, from_ := 0, src := 0 }, { p := 0, bell := 1, count := 2, from_ := 0, src := 0x58 }, { p := 0, bell := 1, count := 2, from_ := 0, src := 1 }] }.wr F.BEL_STATE_COUNT (2 ^ 32 - 4) 0 4095
def xBellsAndWaits_1_rs : List Ring :=
  [{ p := 0, bell := 4095, count := 3, from_ := 0, src := 0 }, { p := 0, bell := 1, count := 2, from_ := 0, src := 0x58 }, { p := 0, bell := 1, count := 2, from_ := 0, src := 1 }]
theorem bells_count_fits : ∀ b, b < 4096 → xBellsAndWaits_1.rd F.BEL_STATE_COUNT 0 b
    + ((xBellsAndWaits_1_rs.filter (fun r => r.bell = b)).map (fun r => r.count)).sum < 2 ^ 32 := by
  intro b _
  by_cases h : b = 4095
  · subst h; decide +kernel
  by_cases h1 : b = 1
  · subst h1; decide +kernel
  have e : xBellsAndWaits_1.rd F.BEL_STATE_COUNT 0 b = 0 := by
    unfold xBellsAndWaits_1
    rw [State.rd_wr_inst _ _ _ _ _ _ _ _ (Or.inr h)]
    show wUp.rd F.BEL_STATE_COUNT 0 b = 0
    rfl
  have n : xBellsAndWaits_1_rs.filter (fun r => r.bell = b) = [] := by
    simp [xBellsAndWaits_1_rs]; omega
  rw [e, n]; decide

def xBellsAndWaits_2 : State := { wUp with rings := [{ p := 0, bell := 5, count := 3, from_ := 1, src := 0 }] }
def xBellsAndWaits_2_r : Ring := { p := 0, bell := 5, count := 3, from_ := 1, src := 0 }
def xBellsAndWaits_3 : State := { wUp with rings := [{ p := 0, bell := 5, count := 3, from_ := 0, src := 0 }] }.wr F.BEL_STATE_COUNT (2 ^ 32 - 3) 0 5
def xBellsAndWaits_3_r : Ring := { p := 0, bell := 5, count := 3, from_ := 0, src := 0 }
def xBellsAndWaits_8 : State :=
  { wSeq { x0 with head := some { job := jD [], waits := true } } with waits := [{ p := 0, bell := 5, g := 0, c := 0, n := 1, due := 100 }] }
def xBellsAndWaits_8_w : Wait := { p := 0, bell := 5, g := 0, c := 0, n := 1, due := 100 }
def xBellsAndWaits_8_x : CtxSt := { x0 with head := some { job := jD [], waits := true } }
def xBellsAndWaits_8_h : Head := { job := jD [], waits := true }
def xBellsAndWaits_9 : State :=
  { wSeq { x0 with head := some { job := jD [], waits := true } } with waits := [{ p := 0, bell := 5, g := 0, c := 0, n := 3, due := 100 }], rings := [{ p := 0, bell := 5, count := 4, from_ := 0, src := 0 }] }
def xBellsAndWaits_9_w : Wait := { p := 0, bell := 5, g := 0, c := 0, n := 3, due := 100 }
def xBellsAndWaits_9_r : Ring := { p := 0, bell := 5, count := 4, from_ := 0, src := 0 }

/-- Hypotheses of BellsAndWaits: for each clause, a state and operands that meet them. -/
theorem met_BellsAndWaits :
    (∃ (s : State) (t p h : Nat) (ks : List Nat) (rs : List Ring),
      p < 16 ∧ rs = (s.takeRings p ks).1 ∧ rs ≠ [] ∧ s.hngState p ≠ 3 ∧ s.homeOf p = some h ∧ s.groupRuns h = true ∧
      ((∀ r, r ∈ rs → r.from_ = p)) ∧ ((∀ r, r ∈ rs → r.job = none)) ∧ ((∀ w, w ∈ s.waits → w.p = p → ∀ r, r ∈ rs → w.bell ≠ r.bell)) ∧
      ((∀ b, b < 4096 → s.rd F.BEL_STATE_COUNT h b + ((rs.filter (fun r => r.bell = b)).map (fun r => r.count)).sum < 2 ^ 32)) ∧
      ((∀ r, r ∈ rs → r.bell < 4096))) ∧
    (∃ (s : State) (t p k h : Nat) (r : Ring),
      p < 16 ∧ (s.rings.filter (fun r => r.p = p))[k]? = some r ∧ s.hngState p ≠ 3 ∧ s.homeOf p = some h ∧ s.groupRuns h = true ∧ r.from_ ≠ p ∧
      r.job = none ∧ ((∀ w, w ∈ s.waits → w.p = p → w.bell ≠ r.bell))) ∧
    (∃ (s : State) (t p k h : Nat) (r : Ring),
      p < 16 ∧ (s.rings.filter (fun r => r.p = p))[k]? = some r ∧ s.hngState p ≠ 3 ∧ s.homeOf p = some h ∧ s.groupRuns h = true ∧ r.from_ = p ∧
      r.job = none ∧ 2 ^ 32 ≤ s.rd F.BEL_STATE_COUNT h r.bell + r.count ∧ ((∀ w, w ∈ s.waits → w.p = p → w.bell ≠ r.bell))) ∧
    (∃ (s : State) (t p w : Nat) (who : Requester),
      p < 16 ∧ ((who = .mgt ∨ who = .pf0 ∨ who = .bfy p)) ∧ bits w 0 32 ≠ 0 ∧ (s.homeOf p).isSome = true ∧ s.hngState p ≠ 3) ∧
    (∃ (s : State) (t p w : Nat) (who : Requester),
      p < 16 ∧ ((who = .mgt ∨ who = .pf0 ∨ who = .bfy p)) ∧ bits w 0 32 = 0) ∧
    (∃ (s : State) (t p q w : Nat),
      p < 16 ∧ q ≠ p) ∧
    (∃ (s : State) (t p w h : Nat) (who : Requester),
      p < 16 ∧ s.homeOf p = some h ∧ ((who = .mgt ∨ who = .pf0 ∨ who = .bfy p)) ∧ s.closedReg .BEL_SET h = false ∧ s.groupRuns h = true ∧
      s.behind (.access who .BEL_SET h 0 (some (w, 0))) = none ∧ s.hngState p ≠ 3) ∧
    (∃ (s : State) (t g c hg : Nat) (w : Wait) (x : CtxSt) (h : Head),
      g < 16 ∧ c < 8 ∧ s.waits = [w] ∧ w.g = g ∧ w.c = c ∧ w.due ≤ max s.now t ∧ s.free_ w.p = true ∧ s.homeOf w.p = some hg ∧
      s.ctx g c = some x ∧ x.head = some h ∧ h.job.g = g ∧ h.job.c = c) ∧
    (∃ (s : State) (t g c k hg : Nat) (w : Wait) (r : Ring),
      g < 16 ∧ c < 8 ∧ s.waits = [w] ∧ w.g = g ∧ w.c = c ∧ w.due ≤ max s.now t ∧ s.free_ w.p = true ∧ s.homeOf w.p = some hg ∧
      (s.rings.filter (fun r => r.p = w.p))[k]? = some r ∧ r.from_ = w.p ∧ r.job = none ∧ r.bell = w.bell ∧
      s.rd F.BEL_STATE_COUNT hg w.bell + r.count < 2 ^ 32 ∧ w.n ≤ s.rd F.BEL_STATE_COUNT hg w.bell + r.count) :=
  ⟨⟨xBellsAndWaits_1, 100, 0, 0, ([0, 1, 2]), xBellsAndWaits_1_rs, by decide +kernel, by decide +kernel, by decide +kernel, by decide +kernel,
    by decide +kernel, by decide +kernel, by decide +kernel, by decide +kernel, by decide +kernel, bells_count_fits, by decide +kernel⟩,
   ⟨xBellsAndWaits_2, 100, 0, 0, 0, xBellsAndWaits_2_r, by decide +kernel, by decide +kernel, by decide +kernel, by decide +kernel, by decide +kernel,
    by decide +kernel, by decide +kernel, by decide +kernel⟩,
   ⟨xBellsAndWaits_3, 100, 0, 0, 0, xBellsAndWaits_3_r, by decide +kernel, by decide +kernel, by decide +kernel, by decide +kernel, by decide +kernel,
    by decide +kernel, by decide +kernel, by decide +kernel, by decide +kernel⟩,
   ⟨wUp, 100, 0, (5 * 2 ^ 32 + 1), .pf0, by decide +kernel, by decide +kernel, by decide +kernel, by decide +kernel, by decide +kernel⟩,
   ⟨wUp, 100, 0, (5 * 2 ^ 32), .pf0, by decide +kernel, by decide +kernel, by decide +kernel⟩,
   ⟨wUp, 100, 0, 3, (5 * 2 ^ 32 + 1), by decide +kernel, by decide +kernel⟩,
   ⟨wUp, 100, 0, (5 * 2 ^ 32 + 7), 0, (.bfy 0), by decide +kernel, by decide +kernel, by decide +kernel, by decide +kernel, by decide +kernel,
    by decide +kernel, by decide +kernel⟩,
   ⟨xBellsAndWaits_8, 100, 0, 0, 0, xBellsAndWaits_8_w, xBellsAndWaits_8_x, xBellsAndWaits_8_h, by decide +kernel, by decide +kernel,
    by decide +kernel, by decide +kernel, by decide +kernel, by decide +kernel, by decide +kernel, by decide +kernel, by decide +kernel,
    by decide +kernel, by decide +kernel, by decide +kernel⟩,
   ⟨xBellsAndWaits_9, 100, 0, 0, 0, 0, xBellsAndWaits_9_w, xBellsAndWaits_9_r, by decide +kernel, by decide +kernel, by decide +kernel,
    by decide +kernel, by decide +kernel, by decide +kernel, by decide +kernel, by decide +kernel, by decide +kernel, by decide +kernel,
    by decide +kernel, by decide +kernel, by decide +kernel, by decide +kernel⟩⟩

def xLeavingHalted_1 : State := (wSeq x0).wr F.AG_CTX_STATE 2 0 0
def xLeavingHalted_2 : State := (wSeq { x0 with haltAt := 65535, head := some { job := jD [], waits := false } }).wr F.AG_CTX_STATE 2 0 0
def xLeavingHalted_2_x : CtxSt := { x0 with haltAt := 65535, head := some { job := jD [], waits := false } }
def xLeavingHalted_3 : State := (wSeq { x0 with region := some rR, haltAt := 3 }).wr F.AG_CTX_STATE 2 0 0
def xLeavingHalted_3_x : CtxSt := { x0 with region := some rR, haltAt := 3 }
def xLeavingHalted_4 : State := (wSeq { x0 with region := some rR, haltAt := 3 }).wr F.AG_CTX_STATE 2 0 0
def xLeavingHalted_4_x : CtxSt := { x0 with region := some rR, haltAt := 3 }
def xLeavingHalted_5 : State := (wSeq { x0 with closed := some rR, endRefused := true, haltAt := 3 }).wr F.AG_CTX_STATE 2 0 0
def xLeavingHalted_5_x : CtxSt := { x0 with closed := some rR, endRefused := true, haltAt := 3 }

/-- Hypotheses of LeavingHalted: for each clause, a state and operands that meet them. -/
theorem met_LeavingHalted :
    (∃ (s : State) (t g c : Nat) (x : CtxSt),
      g < 16 ∧ c < 8 ∧ s.closedReg .AG_CTX g = false ∧ s.groupRuns g = true ∧ s.ctx g c = some x ∧ x.region = none ∧ s.rd F.AG_CTX_STATE g c = 2) ∧
    (∃ (s : State) (t g c : Nat) (x : CtxSt),
      g < 16 ∧ c < 8 ∧ s.closedReg .AG_CTX g = false ∧ s.groupRuns g = true ∧ s.ctx g c = some x ∧ x.region = none ∧
      ((x.closed = none ∨ x.endRefused = false)) ∧ s.rd F.AG_CTX_STATE g c = 2) ∧
    (∃ (s : State) (t g c : Nat) (x : CtxSt) (r : RegionSt),
      g < 16 ∧ c < 8 ∧ s.closedReg .AG_CTX g = false ∧ s.groupRuns g = true ∧ s.ctx g c = some x ∧ x.region = some r ∧
      s.rd F.AG_CTX_STATE g c = 2) ∧
    (∃ (s : State) (t g c : Nat) (x : CtxSt) (r : RegionSt),
      g < 16 ∧ c < 8 ∧ s.closedReg .AG_CTX g = false ∧ s.groupRuns g = true ∧ s.ctx g c = some x ∧ x.region = some r ∧
      s.rd F.AG_CTX_STATE g c = 2) ∧
    (∃ (s : State) (t g c : Nat) (x : CtxSt) (r : RegionSt),
      g < 16 ∧ c < 8 ∧ s.closedReg .AG_CTX g = false ∧ s.groupRuns g = true ∧ s.ctx g c = some x ∧ x.region = none ∧ x.closed = some r ∧
      x.endRefused = true ∧ s.rd F.AG_CTX_STATE g c = 2) ∧
    (∃ (s : State) (t g c : Nat),
      g < 16 ∧ c < 8 ∧ s.closedReg .AG_CTX g = false ∧ s.groupRuns g = true ∧ s.rd F.AG_CTX_STATE g c ≠ 2) :=
  ⟨⟨xLeavingHalted_1, 100, 0, 0, x0, by decide +kernel, by decide +kernel, by decide +kernel, by decide +kernel, by decide +kernel, by decide +kernel,
    by decide +kernel⟩,
   ⟨xLeavingHalted_2, 100, 0, 0, xLeavingHalted_2_x, by decide +kernel, by decide +kernel, by decide +kernel, by decide +kernel, by decide +kernel,
    by decide +kernel, by decide +kernel, by decide +kernel⟩,
   ⟨xLeavingHalted_3, 100, 0, 0, xLeavingHalted_3_x, rR, by decide +kernel, by decide +kernel, by decide +kernel, by decide +kernel, by decide +kernel,
    by decide +kernel, by decide +kernel⟩,
   ⟨xLeavingHalted_4, 100, 0, 0, xLeavingHalted_4_x, rR, by decide +kernel, by decide +kernel, by decide +kernel, by decide +kernel, by decide +kernel,
    by decide +kernel, by decide +kernel⟩,
   ⟨xLeavingHalted_5, 100, 0, 0, xLeavingHalted_5_x, rR, by decide +kernel, by decide +kernel, by decide +kernel, by decide +kernel, by decide +kernel,
    by decide +kernel, by decide +kernel, by decide +kernel, by decide +kernel⟩,
   ⟨(wSeq x0), 100, 0, 0, by decide +kernel, by decide +kernel, by decide +kernel, by decide +kernel, by decide +kernel⟩⟩

def xTurretPrograms_1 : State := { wSeq x0 with jobs := [jT] }
def xTurretPrograms_2 : State := { wSeq x0 with jobs := [jT] }
def xTurretPrograms_2_s₁ : State := (((xTurretPrograms_2).tick (100)).turretProgram (jT) (0)).2.1
def xTurretPrograms_3 : State := { wSeq x0 with jobs := [jT] }
def xTurretPrograms_3_s₁ : State := (((xTurretPrograms_3).tick (100)).turretRead (jT) (jT).progAddr 64).2.2
def xTurretPrograms_4 : State :=
  ((page (wSeq x0) 116 (eD 0 8201)).wr F.AG_NUMTAB_ENABLE 1 0).wr F.AG_NUMTAB_BASE 1600 0 |>.wrNat (8201 * 65536 + 0x800 + 32) 1 1 |> fun s => { s with jobs := [jT] }
def xTurretPrograms_4_s₁ : State := (((xTurretPrograms_4).tick (100)).tabRead 0 0 (watchOff (0)) 64).2

/-- Hypotheses of TurretPrograms: for each clause, a state and operands that meet them. -/
theorem met_TurretPrograms :
    (∃ (s : State) (t g acts : Nat) (j : Job),
      g < 16 ∧ (s.turretJobs g).head? = some j) ∧
    (∃ (s s₁ : State) (t g acts code pc : Nat) (j j₁ : Job),
      g < 16 ∧ (s.turretJobs g).head? = some j ∧ s.on F.TUR_FAULT_VALID g = false ∧ (s.tick t).turretProgram j acts = (.fault code pc, s₁, j₁)) ∧
    (∃ (s s₁ : State) (t g acts code : Nat) (j : Job) (b : Bytes),
      g < 16 ∧ (s.turretJobs g).head? = some j ∧ s.on F.TUR_FAULT_VALID g = false ∧ (s.tick t).turretRead j j.progAddr 64 = (some code, b, s₁)) ∧
    (∃ (s s₁ : State) (t g l upd wgt : Nat) (j : Job) (e : Bytes),
      g < 16 ∧ l < 1024 ∧ s.jobs.find? (fun j => decide (j.pa = g) && decide (j.unit = 20) && !j.ended) = some j ∧ j.echo = false ∧
      s.numOn j.g = true ∧ (s.tick t).tabRead j.g j.p (watchOff l) 64 = (some (some e), s₁)) :=
  ⟨⟨xTurretPrograms_1, 100, 0, 1000, jT, by decide +kernel, by decide +kernel⟩,
   ⟨xTurretPrograms_2, xTurretPrograms_2_s₁, 100, 0, 0, 2, 0, jT, ((((xTurretPrograms_2).tick (100)).turretProgram (jT) (0)).2.2), by decide +kernel,
    by decide +kernel, by decide +kernel, by decide +kernel⟩,
   ⟨xTurretPrograms_3, xTurretPrograms_3_s₁, 100, 0, 3, 2, jT, ([]), by decide +kernel, by decide +kernel, by decide +kernel, by decide +kernel⟩,
   ⟨xTurretPrograms_4, xTurretPrograms_4_s₁, 100, 0, 0, 0x3FF0000000000000, 0x4000000000000000, jT, (fields 64 [(32, 1, 1)]), by decide +kernel,
    by decide +kernel, by decide +kernel, by decide +kernel, by decide +kernel, by decide +kernel⟩⟩

def xFormatsAndAdvance_3 : State := { wUp with snp := [(0, { arming := true })] }
def xFormatsAndAdvance_4 : State := { wUp with advances := [(0, 41)], host := { wUp.host with holdArmed := [0] } }

/-- Hypotheses of FormatsAndAdvance: for each clause, a state and operands that meet them. -/
theorem met_FormatsAndAdvance :
    (∃ (s : State) (t g n v : Nat),
      g < 16 ∧ n < 16 ∧ s.closedReg .AG_FMT g = false ∧ s.groupRuns g = true) ∧
    (∃ (s : State) (t g p step : Nat),
      g < 16 ∧ s.closedReg .AG_NUM_ADVANCE g = false ∧ s.groupRuns g = true ∧ s.partOf g = some p ∧ s.homeOf p = some g ∧ s.hngState p ≠ 3 ∧
      (s.snap p).arming = false) ∧
    (∃ (s : State) (t g p step : Nat),
      g < 16 ∧ s.closedReg .AG_NUM_ADVANCE g = false ∧ s.groupRuns g = true ∧ s.partOf g = some p ∧ s.homeOf p = some g ∧ s.hngState p ≠ 3 ∧
      (s.snap p).arming = true) ∧
    (∃ (s : State) (t p g step : Nat),
      p < 16 ∧ s.advances.find? (fun a => a.1 = p) = some (p, step) ∧ s.homeOf p = some g ∧ s.advanceReady p = true ∧ s.safe = false) :=
  ⟨⟨wUp, 100, 0, 15, 0x130F57, by decide +kernel, by decide +kernel, by decide +kernel, by decide +kernel⟩,
   ⟨(wUp.wr F.AG_NUMTAB_ENABLE 1 0), 100, 0, 0, (2 ^ 32 + 1), by decide +kernel, by decide +kernel, by decide +kernel, by decide +kernel,
    by decide +kernel, by decide +kernel, by decide +kernel⟩,
   ⟨xFormatsAndAdvance_3, 100, 0, 0, (2 ^ 32 + 1), by decide +kernel, by decide +kernel, by decide +kernel, by decide +kernel, by decide +kernel,
    by decide +kernel, by decide +kernel⟩,
   ⟨xFormatsAndAdvance_4, 100, 0, 0, 41, by decide +kernel, by decide +kernel, by decide +kernel, by decide +kernel, by decide +kernel⟩⟩

def xMailboxRequests_1 : State := wDrum.setStage 4 |> fun s => { s with sec := { s.sec with fw := none } }
def xMailboxRequests_3 : State := wUp.wr F.AON_STAGE_MGT_RESTART 1
def xMailboxRequests_4_c : Instr := .statusMsg 100 { h0 with len := 4065 }
def xMailboxRequests_4_h : MbxHdr := { h0 with len := 4065 }
def xMailboxRequests_5_h : MbxHdr := { h0 with len := 4064 }

/-- Hypotheses of MailboxRequests: for each clause, a state and operands that meet them. -/
theorem met_MailboxRequests :
    (∃ (c : Instr) (s : State) (h : MbxHdr),
      mbxHdrOf c = some h ∧ h.m < 32 ∧ s.mayGo h.fn h.m = true ∧ s.on F.MBX_STATUS_BUSY h.m = false ∧ ((s.sec.fw = none ∨ s.host.fwDead = true))) ∧
    (∃ (c : Instr) (s : State) (h : MbxHdr),
      mbxHdrOf c = some h ∧ h.m < 32 ∧ ((s.mayGo h.fn h.m = false ∨ s.on F.MBX_STATUS_BUSY h.m = true))) ∧
    (∃ (c : Instr) (s : State) (h : MbxHdr),
      mbxHdrOf c = some h ∧ h.m < 32 ∧ s.sec.fw.isSome = true ∧ s.host.fwDead = false ∧ s.mayGo h.fn h.m = true ∧
      s.on F.MBX_STATUS_BUSY h.m = false ∧ s.on F.AON_STAGE_MGT_RESTART = true) ∧
    (∃ (c : Instr) (s : State) (h : MbxHdr),
      mbxHdrOf c = some h ∧ takes s h ∧ 4064 < h.len) ∧
    (∃ (s : State) (t code : Nat) (h : MbxHdr),
      takes s h ∧ h.len ≤ 4064) ∧
    (∃ (s : State) (t m : Nat) (fn : Fn),
      m < 32 ∧ ((s.on F.MBX_STATUS_BUSY m = true ∨ s.mayGo fn m = false))) ∧
    (∃ (s : State) (t m : Nat) (fn : Fn),
      m < 32 ∧ s.on F.MBX_STATUS_BUSY m = false ∧ s.mayGo fn m = true) :=
  ⟨⟨(.statusMsg 100 h0), xMailboxRequests_1, h0, by decide +kernel, by decide +kernel, by decide +kernel, by decide +kernel, by decide +kernel⟩,
   ⟨(.statusMsg 100 h0), (wUp.wr F.MBX_STATUS_BUSY 1 0), h0, by decide +kernel, by decide +kernel, by decide +kernel⟩,
   ⟨(.statusMsg 100 h0), xMailboxRequests_3, h0, by decide +kernel, by decide +kernel, by decide +kernel, by decide +kernel, by decide +kernel,
    by decide +kernel, by decide +kernel⟩,
   ⟨xMailboxRequests_4_c, wUp, xMailboxRequests_4_h, by decide +kernel, by unfold takes; decide +kernel, by decide +kernel⟩,
   ⟨wUp, 100, 0xFF, xMailboxRequests_5_h, by unfold takes; decide +kernel, by decide +kernel⟩,
   ⟨wUp, 100, 15, (.vf 1), by decide +kernel, by decide +kernel⟩,
   ⟨wUp, 100, 0, .pf0, by decide +kernel, by decide +kernel, by decide +kernel⟩⟩

def xSessions_1_h : MbxHdr := { h0 with m := 15, session := 0 }
def xSessions_1_q : OpenReq := ⟨256, 256, 0xFF, 2, false, none, 0⟩
def xSessions_2_h : MbxHdr := { h0 with session := 0 }
def xSessions_2_q : OpenReq := ⟨0, 512, 0xFF, 2, false, none, 0⟩
def xSessions_3 : State := withSess (wSeq { x0 with session := 10 }) [{ sess 0 .pf0 with absentAt := some 3 }]
def xSessions_3_h : MbxHdr := { h0 with session := 0 }
def xSessions_3_q : OpenReq := ⟨256, 256, 0xFF, 0, true, none, 10⟩
def xSessions_5_x : Session :=
  { m := 0, id := 5, fn := .pf0, verMajor := 1, verMinor := 0, feats := 31, policy := 0, lastBeat := 0, absentAt := none, bfyCore := none }
def xSessions_6 : State := wSeq { x0 with head := some { job := jD [], waits := false } }
def xSessions_7 : State := { wSeq x0 with jobs := [jD []] }

/-- Hypotheses of Sessions: for each clause, a state and operands that meet them. -/
theorem met_Sessions :
    (∃ (s : State) (t m p : Nat) (h : MbxHdr) (q : OpenReq),
      takes s h ∧ h.lenOk = true ∧ h.len ≤ 4064 ∧ h.resOk = true ∧ h.session = 0 ∧ q.lowest ≤ 256 * h.verMajor + h.verMinor ∧
      256 * h.verMajor + h.verMinor ≤ q.highest ∧ q.lowest ≤ Config.protoVersion ∧ Config.protoVersion ≤ q.highest ∧ q.policy ≤ 2 ∧
      ((q.bfyCore = none ∨ (h.fn = .bfy p ∧ q.bfyCore.any (fun n => decide (n ∈ s.coresOf p)) = true))) ∧ q.reattach = false ∧ q.previous = 0 ∧
      s.session h.m = none ∧ s.bindFor h.m = some m) ∧
    (∃ (s : State) (t : Nat) (h : MbxHdr) (q : OpenReq),
      takes s h ∧ h.lenOk = true ∧ h.len ≤ 4064 ∧ h.resOk = true ∧ h.session = 0 ∧ q.lowest ≤ 256 * h.verMajor + h.verMinor ∧
      256 * h.verMajor + h.verMinor ≤ q.highest ∧ q.lowest ≤ Config.protoVersion ∧ Config.protoVersion ≤ q.highest ∧ q.policy ≤ 2 ∧
      q.bfyCore = none ∧ q.reattach = false ∧ q.previous = 0 ∧ (s.session h.m).isSome = true) ∧
    (∃ (s : State) (t : Nat) (h : MbxHdr) (q : OpenReq),
      takes s h ∧ h.m < 16 ∧ h.lenOk = true ∧ h.len ≤ 4064 ∧ h.resOk = true ∧ h.session = 0 ∧ q.lowest ≤ 256 * h.verMajor + h.verMinor ∧
      256 * h.verMajor + h.verMinor ≤ q.highest ∧ q.lowest ≤ Config.protoVersion ∧ Config.protoVersion ≤ q.highest ∧ q.policy ≤ 2 ∧
      q.bfyCore = none ∧ q.reattach = true ∧ s.reattachOk h.fn h.m q.previous = true) ∧
    (∃ (s : State) (t : Nat) (h : MbxHdr),
      takes s h ∧ s.mbxCheck h { safeOk := true } = none) ∧
    (∃ (s : State) (t policy : Nat) (h : MbxHdr) (x : Session),
      takes s h ∧ policy ≤ 2 ∧ s.mbxCheck h {} = none ∧ s.session h.m = some x) ∧
    (∃ (s : State) (t : Nat) (h : MbxHdr),
      takes s h ∧ s.mbxCheck h { safeOk := true } = none ∧ ((∀ k, k ∈ s.ctxsOf h.session → s.ctxBusy (k / 8) (k % 8) = false))) ∧
    (∃ (s : State) (t k : Nat) (h : MbxHdr),
      takes s h ∧ s.mbxCheck h { safeOk := true } = none ∧ k ∈ s.ctxsOf h.session ∧ s.ctxBusy (k / 8) (k % 8) = true) :=
  ⟨⟨wUp, 100, 15, 0, xSessions_1_h, xSessions_1_q, by unfold takes; decide +kernel, by decide +kernel, by decide +kernel, by decide +kernel,
    by decide +kernel, by decide +kernel, by decide +kernel, by decide +kernel, by decide +kernel, by decide +kernel, by decide +kernel,
    by decide +kernel, by decide +kernel, by decide +kernel, by decide +kernel⟩,
   ⟨wUp, 100, xSessions_2_h, xSessions_2_q, by unfold takes; decide +kernel, by decide +kernel, by decide +kernel, by decide +kernel,
    by decide +kernel, by decide +kernel, by decide +kernel, by decide +kernel, by decide +kernel, by decide +kernel, by decide +kernel,
    by decide +kernel, by decide +kernel, by decide +kernel⟩,
   ⟨xSessions_3, 100, xSessions_3_h, xSessions_3_q, by unfold takes; decide +kernel, by decide +kernel, by decide +kernel, by decide +kernel,
    by decide +kernel, by decide +kernel, by decide +kernel, by decide +kernel, by decide +kernel, by decide +kernel, by decide +kernel,
    by decide +kernel, by decide +kernel, by decide +kernel⟩,
   ⟨wUp, 100, h0, by unfold takes; decide +kernel, by decide +kernel⟩,
   ⟨wUp, 100, 2, h0, xSessions_5_x, by unfold takes; decide +kernel, by decide +kernel, by decide +kernel, by decide +kernel⟩,
   ⟨xSessions_6, 100, h0, by unfold takes; decide +kernel, by decide +kernel, by decide +kernel⟩,
   ⟨xSessions_7, 100, 0, h0, by unfold takes; decide +kernel, by decide +kernel, by decide +kernel, by decide +kernel⟩⟩

def xContextsAndWindows_1 : State := withSess (page wUp 100 (eD 0 8200)) [sess 1 (.vf 1)]
def xContextsAndWindows_1_r : CtxOpenReq :=
  { g := 0, c := 7, sqBase := A, sqLog2 := 4, cqBase := A + 4096, cqLog2 := 4, irqFn := true, irqCore := none, vfBase := A }
def xContextsAndWindows_2_r : CtxOpenReq :=
  { g := 0, c := 0, sqBase := A, sqLog2 := 4, cqBase := A + 4096, cqLog2 := 4, irqFn := true, irqCore := none, vfBase := A }
def xContextsAndWindows_3 : State := wSeq { x0 with head := some { job := jD [], waits := false } }
def xContextsAndWindows_4 : State := { wSeq x0 with jobs := [jD []] }
def xContextsAndWindows_8 : State := ({ wUp with host := { wUp.host with holdArmed := [0] } } : State).wr F.MGT_HOST_HELD 1

/-- Hypotheses of ContextsAndWindows: for each clause, a state and operands that meet them. -/
theorem met_ContextsAndWindows :
    (∃ (s : State) (t p n : Nat) (h : MbxHdr) (r : CtxOpenReq),
      takes s h ∧ s.partOf r.g = some p ∧ r.g < 16 ∧ r.c < 8 ∧ 4 ≤ r.sqLog2 ∧ r.sqLog2 ≤ 15 ∧ 4 ≤ r.cqLog2 ∧ r.cqLog2 ≤ 15 ∧
      ((r.irqCore = none ∨ (r.irqCore.any (fun k => decide (k ∈ s.coresOf p)) = true ∧ (s.session h.m).any (fun x => x.feats.testBit 4) = true))) ∧
      s.ringOk p r.sqBase (64 * 2 ^ r.sqLog2) = true ∧ s.ringOk p r.cqBase (16 * 2 ^ r.cqLog2) = true ∧
      s.mbxCheck h { parts := [p], stage := stDome } = none ∧ s.ctx r.g r.c = none) ∧
    (∃ (s : State) (t p : Nat) (h : MbxHdr) (r : CtxOpenReq),
      takes s h ∧ s.partOf r.g = some p ∧ r.g < 16 ∧ r.c < 8 ∧ 4 ≤ r.sqLog2 ∧ r.sqLog2 ≤ 15 ∧ 4 ≤ r.cqLog2 ∧ r.cqLog2 ≤ 15 ∧ r.irqCore = none ∧
      s.ringOk p r.sqBase (64 * 2 ^ r.sqLog2) = true ∧ s.ringOk p r.cqBase (16 * 2 ^ r.cqLog2) = true ∧
      s.mbxCheck h { parts := [p], stage := stDome } = none ∧ (s.ctx r.g r.c).isSome = true) ∧
    (∃ (s : State) (t g c : Nat) (h : MbxHdr),
      takes s h ∧ g < 16 ∧ c < 8 ∧ (s.ctx g c).isSome = true ∧ s.mbxCheck h { parts := (s.partOf g).toList, stage := stDome } = none ∧
      s.ctxBusy g c = false) ∧
    (∃ (s : State) (t g c : Nat) (h : MbxHdr),
      takes s h ∧ g < 16 ∧ c < 8 ∧ (s.ctx g c).isSome = true ∧ s.mbxCheck h { parts := (s.partOf g).toList, stage := stDome } = none ∧
      s.ctxBusy g c = true) ∧
    (∃ (s : State) (t : Nat) (h : MbxHdr),
      takes s h ∧ s.mbxCheck h { stage := stDome } = none) ∧
    (∃ (s : State) (t p base : Nat) (h : MbxHdr),
      takes s h ∧ p < 16 ∧ base < 2 ^ 48 ∧ s.mbxCheck h { parts := [p] } = none) ∧
    (∃ (s : State) (t p base : Nat) (h : MbxHdr),
      takes s h ∧ p < 16 ∧ base < 2 ^ 48 ∧ base % 2 ^ 32 = 0 ∧ s.mbxCheck h { mgmt := true, parts := [p] } = none) ∧
    (∃ (s : State) (t p : Nat) (h : MbxHdr),
      takes s h ∧ p < 16 ∧ s.mbxCheck h { parts := [p], stage := stDome } = none ∧ s.absentPolicy p = 0) :=
  ⟨⟨xContextsAndWindows_1, 100, 0, 1, (hM 1 (.vf 1)), xContextsAndWindows_1_r, by unfold takes; decide +kernel, by decide +kernel, by decide +kernel,
    by decide +kernel, by decide +kernel, by decide +kernel, by decide +kernel, by decide +kernel, by decide +kernel, by decide +kernel,
    by decide +kernel, by decide +kernel, by decide +kernel⟩,
   ⟨(wSeq x0), 100, 0, h0, xContextsAndWindows_2_r, by unfold takes; decide +kernel, by decide +kernel, by decide +kernel, by decide +kernel,
    by decide +kernel, by decide +kernel, by decide +kernel, by decide +kernel, by decide +kernel, by decide +kernel, by decide +kernel,
    by decide +kernel, by decide +kernel⟩,
   ⟨xContextsAndWindows_3, 100, 0, 0, h0, by unfold takes; decide +kernel, by decide +kernel, by decide +kernel, by decide +kernel, by decide +kernel,
    by decide +kernel⟩,
   ⟨xContextsAndWindows_4, 100, 0, 0, h0, by unfold takes; decide +kernel, by decide +kernel, by decide +kernel, by decide +kernel, by decide +kernel,
    by decide +kernel⟩,
   ⟨(wSeq x0), 100, h0, by unfold takes; decide +kernel, by decide +kernel⟩,
   ⟨wUp, 100, 15, (2 ^ 48 - 1), h0, by unfold takes; decide +kernel, by decide +kernel, by decide +kernel, by decide +kernel⟩,
   ⟨wUp, 100, 15, (2 ^ 48 - 2 ^ 32), h0, by unfold takes; decide +kernel, by decide +kernel, by decide +kernel, by decide +kernel, by decide +kernel⟩,
   ⟨xContextsAndWindows_8, 100, 0, h0, by unfold takes; decide +kernel, by decide +kernel, by decide +kernel, by decide +kernel⟩⟩

def xImagesAndWarmReset_1 : State := { wUp with sec := { wUp.sec with flash := { slots := [[], [], [], []] } } }
def xImagesAndWarmReset_4 : State :=
  { wUp with sec := { wDrum.sec with fw := wUp.sec.fw, flash := { wDrum.sec.flash with slots := [[], [], [], structImage] } } }
def xImagesAndWarmReset_5 : State := { wUp with sec := { wUp.sec with flash := { slots := [[], [], [], []] } } }
def xImagesAndWarmReset_6 : State := { wMat with mem := wMat.mem ++ [(keepBytes - 1, 3), (keepBytes, 4)] }

/-- Hypotheses of ImagesAndWarmReset: for each clause, a state and operands that meet them. -/
theorem met_ImagesAndWarmReset :
    (∃ (s : State) (t slot off : Nat) (b : Bytes) (h : MbxHdr),
      takes s h ∧ slot < 4 ∧ b.length ≤ 4032 ∧ off + b.length ≤ imageSlotBytes ∧ s.sec.flash.slots.length = 4 ∧
      s.mbxCheck h { feat := some 0, mgmt := true } = none) ∧
    (∃ (s : State) (t off : Nat) (b : Bytes) (h : MbxHdr),
      takes s h ∧ b.length ≤ 4032 ∧ off + b.length ≤ imageSlotBytes ∧ s.mbxCheck h { feat := some 0, mgmt := true } = none) ∧
    (∃ (s : State) (t off : Nat) (b : Bytes) (h : MbxHdr),
      takes s h ∧ b.length ≤ 4032 ∧ off + b.length ≤ flashBytes ∧ s.mbxCheck h { feat := some 0, mgmt := true } = none) ∧
    (∃ (s : State) (t slot : Nat) (h : MbxHdr),
      takes s h ∧ slot ≤ 3 ∧ s.mbxCheck h { feat := some 0, mgmt := true } = none ∧ s.check01to06 (s.sec.flash.slots.getD slot []) 1 = none) ∧
    (∃ (s : State) (t slot : Nat) (h : MbxHdr) (e : ImgErr),
      takes s h ∧ slot ≤ 3 ∧ s.mbxCheck h { feat := some 0, mgmt := true } = none ∧ s.check01to06 (s.sec.flash.slots.getD slot []) 1 = some e) ∧
    (∃ (s : State) (t : Nat) (b : Bool) (h : MbxHdr),
      takes s h ∧ s.mbxCheck h { mgmt := true, safeOk := true } = none) :=
  ⟨⟨xImagesAndWarmReset_1, 100, 3, 5, (bs [1, 2, 3]), h0, by unfold takes; decide +kernel, by decide +kernel, by decide +kernel, by decide +kernel,
    by decide +kernel, by decide +kernel⟩,
   ⟨wUp, 100, 3, (bs [1, 2]), h0, by unfold takes; decide +kernel, by decide +kernel, by decide +kernel, by decide +kernel⟩,
   ⟨wUp, 100, 5, (bs [1, 2, 3]), h0, by unfold takes; decide +kernel, by decide +kernel, by decide +kernel, by decide +kernel⟩,
   ⟨xImagesAndWarmReset_4, 100, 3, h0, by unfold takes; decide +kernel, by decide +kernel, by decide +kernel, by decide +kernel⟩,
   ⟨xImagesAndWarmReset_5, 100, 3, h0, (((wUp.check01to06 [] 1)).getD (0, 0, 0)), by unfold takes; decide +kernel, by decide +kernel,
    by decide +kernel, by decide +kernel⟩,
   ⟨xImagesAndWarmReset_6, 100, true, h0, by unfold takes; decide +kernel, by decide +kernel⟩⟩

def xHeartbeatsAndWatchdog_1_x : Session :=
  { m := 0, id := 5, fn := .pf0, verMajor := 1, verMinor := 0, feats := 31, policy := 0, lastBeat := 0, absentAt := none, bfyCore := none }
def xHeartbeatsAndWatchdog_2_x : Session :=
  { m := 0, id := 5, fn := .pf0, verMajor := 1, verMinor := 0, feats := 31, policy := 0, lastBeat := 0, absentAt := none, bfyCore := none }
def xHeartbeatsAndWatchdog_3_x : Session :=
  { m := 0, id := 5, fn := .pf0, verMajor := 1, verMinor := 0, feats := 31, policy := 0, lastBeat := 0, absentAt := none, bfyCore := none }
def xHeartbeatsAndWatchdog_4 : State := withSess wUp [{ sess 2 .pf0 with absentAt := some 0 }]
def xHeartbeatsAndWatchdog_4_x : Session := { sess 2 .pf0 with absentAt := some 0 }
def xHeartbeatsAndWatchdog_9 : State := { wUp with host := { wUp.host with restarts := [1, 2, 3] } }
def xHeartbeatsAndWatchdog_10 : State := wUp.wr F.AON_STAGE_MGT_RESTART 1

/-- Hypotheses of HeartbeatsAndWatchdog: for each clause, a state and operands that meet them. -/
theorem met_HeartbeatsAndWatchdog :
    (∃ (s : State) (t m v : Nat) (fn : Fn) (x : Session),
      m < 16 ∧ s.session m = some x ∧ x.fn = fn) ∧
    (∃ (s : State) (t m v : Nat) (fn : Fn) (x : Session),
      m < 16 ∧ s.session m = some x ∧ x.fn ≠ fn) ∧
    (∃ (s : State) (t m : Nat) (x : Session),
      m < 16 ∧ s.session m = some x ∧ x.absentAt = none ∧ s.fwUp = true ∧ x.lastBeat + 1000000000 ≤ max s.now t ∧
      ((s.host.restarts = [] ∨ s.host.restartEnd + 1000000000 ≤ max s.now t))) ∧
    (∃ (s : State) (t m a : Nat) (x : Session),
      m < 16 ∧ s.session m = some x ∧ x.absentAt = some a ∧ s.fwUp = true ∧ a + 600000000000 ≤ max s.now t) ∧
    (∃ (s : State) (t : Nat),
      s.fwUp = true) ∧
    (∃ (s : State) (t : Nat),
      s.fwUp = true ∧ s.host.kickAt + 100000000 ≤ max s.now t ∧ (s.tick t).recentRestarts < 3) ∧
    (∃ (s : State) (t : Nat),
      s.fwUp = true ∧ s.host.kickAt + 100000000 ≤ max s.now t ∧ 3 ≤ (s.tick t).recentRestarts) ∧
    (∃ (s : State) (t : Nat),
      s.on F.AON_STAGE_MGT_RESTART = true ∧ s.host.fwDead = false ∧ s.safe = false ∧ s.host.heldGo = []) :=
  ⟨⟨wUp, 100, 0, (2 ^ 32 + 3), .pf0, xHeartbeatsAndWatchdog_1_x, by decide +kernel, by decide +kernel, by decide +kernel⟩,
   ⟨wUp, 100, 0, 3, (.vf 1), xHeartbeatsAndWatchdog_2_x, by decide +kernel, by decide +kernel, by decide +kernel⟩,
   ⟨wUp, 1000000000, 0, xHeartbeatsAndWatchdog_3_x, by decide +kernel, by decide +kernel, by decide +kernel, by decide +kernel, by decide +kernel,
    by decide +kernel⟩,
   ⟨xHeartbeatsAndWatchdog_4, 600000000000, 2, 0, xHeartbeatsAndWatchdog_4_x, by decide +kernel, by decide +kernel, by decide +kernel,
    by decide +kernel, by decide +kernel⟩,
   ⟨wUp, 100, by decide +kernel⟩,
   ⟨wUp, 100000000, by decide +kernel, by decide +kernel, by decide +kernel⟩,
   ⟨xHeartbeatsAndWatchdog_9, 100000000, by decide +kernel, by decide +kernel, by decide +kernel⟩,
   ⟨xHeartbeatsAndWatchdog_10, 100, by decide +kernel, by decide +kernel, by decide +kernel, by decide +kernel⟩⟩

def xPcieResetsAndWindows_1 : State := withSess wUp [sess 1 (.vf 1), sess 2 .pf0]
def xPcieResetsAndWindows_4_s₁ : State := (((page wUp 100 (eD 0 8200)).tick (100)).devRead 4 0x5B 0 A 8).2.2.2
def xPcieResetsAndWindows_5_s₁ : State := (((wUp).tick (100)).devRead 4 0x5B 0 A 8).2.2.2
def xPcieResetsAndWindows_7_s₁ : State := (((page wUp 100 (eD 0 8200)).tick (100)).devRead 4 0x5B 0 A 8).2.2.2
def xPcieResetsAndWindows_9 : State := { page wUp 100 (eD 0 8200) with pwr := { wUp.pwr with held := [(0, .doorbell .pf0 0 0 1)] } }

/-- Hypotheses of PcieResetsAndWindows: for each clause, a state and operands that meet them. -/
theorem met_PcieResetsAndWindows :
    (∃ (s : State) (t n : Nat),
      1 ≤ n ∧ n ≤ 16) ∧
    (∃ (s s₁ : State) (t off n : Nat) (b : Bytes),
      s.safe = false ∧ off + n ≤ 2 ^ 32 ∧ nonePosted s ∧
      (pagesOf (s.rd F.PCI_WIN_BASE * 2 ^ 32 + off) n).any (fun v => s.retrains (s.pmEntry v)) = false ∧
      (s.tick t).devRead 4 0x5B (s.rd F.PCI_WIN_PARTITION) (s.rd F.PCI_WIN_BASE * 2 ^ 32 + off) n = (none, b, false, s₁)) ∧
    (∃ (s s₁ : State) (t off n : Nat) (code : Option Nat) (b : Bytes) (bad : Bool),
      s.safe = false ∧ off + n ≤ 2 ^ 32 ∧ nonePosted s ∧
      (pagesOf (s.rd F.PCI_WIN_BASE * 2 ^ 32 + off) n).any (fun v => s.retrains (s.pmEntry v)) = false ∧
      (s.tick t).devRead 4 0x5B (s.rd F.PCI_WIN_PARTITION) (s.rd F.PCI_WIN_BASE * 2 ^ 32 + off) n = (code, b, bad, s₁) ∧
      ((code.isSome = true ∨ bad = true))) ∧
    (∃ (s : State) (t off n : Nat) (b : Bytes),
      s.safe = false ∧ off + b.length ≤ 2 ^ 32 ∧ nonePosted s ∧ s.behind (.window .pf0 off b) = none) ∧
    (∃ (s s₁ : State) (t n off len : Nat) (b : Bytes),
      1 ≤ n ∧ n ≤ 16 ∧ s.safe = false ∧ off + len ≤ 2 ^ 30 ∧ nonePosted s ∧
      (pagesOf (agetD s.host.vfBase n 0 + off) len).any (fun v => s.retrains (s.pmEntry v)) = false ∧
      (s.tick t).devRead 4 0x5B (n - 1) (agetD s.host.vfBase n 0 + off) len = (none, b, false, s₁)) ∧
    (∃ (s : State) (t n off len : Nat) (b : Bytes),
      1 ≤ n ∧ n ≤ 16 ∧ s.safe = false ∧ off + b.length ≤ 2 ^ 30 ∧ nonePosted s ∧ s.behind (.window (.vf n) off b) = none) ∧
    (∃ (s : State) (t off n k : Nat) (b : Bytes),
      s.safe = false ∧ off + b.length ≤ 2 ^ 32 ∧ nonePosted s ∧ s.behind (.window .pf0 off b) = some k) :=
  ⟨⟨xPcieResetsAndWindows_1, 100, 1, by decide +kernel, by decide +kernel⟩,
   ⟨(page wUp 100 (eD 0 8200)), xPcieResetsAndWindows_4_s₁, 100, A, 8, (natLe 8 0), by decide +kernel, by decide +kernel,
    by unfold nonePosted; decide +kernel, by decide +kernel, by decide +kernel⟩,
   ⟨wUp, xPcieResetsAndWindows_5_s₁, 100, A, 8, (some 1), ([]), false, by decide +kernel, by decide +kernel, by unfold nonePosted; decide +kernel,
    by decide +kernel, by decide +kernel, by decide +kernel⟩,
   ⟨(page wUp 100 (eD 0 8200)), 100, A, 8, (bs [1, 2]), by decide +kernel, by decide +kernel, by unfold nonePosted; decide +kernel, by decide +kernel⟩,
   ⟨(page wUp 100 (eD 0 8200)), xPcieResetsAndWindows_7_s₁, 100, 1, A, 8, (natLe 8 0), by decide +kernel, by decide +kernel, by decide +kernel,
    by decide +kernel, by unfold nonePosted; decide +kernel, by decide +kernel, by decide +kernel⟩,
   ⟨(page wUp 100 (eD 0 8200)), 100, 1, A, 8, (bs [1, 2]), by decide +kernel, by decide +kernel, by decide +kernel, by decide +kernel,
    by unfold nonePosted; decide +kernel, by decide +kernel⟩,
   ⟨xPcieResetsAndWindows_9, 100, A, 2, 0, (bs [1, 2]), by decide +kernel, by decide +kernel, by unfold nonePosted; decide +kernel, by decide +kernel⟩⟩

/-- Hypotheses of SidebandAndDirectory: for each clause, a state and operands that meet them. -/
theorem met_SidebandAndDirectory_1 :
    (∃ (s : State) (t : Nat),
      (s.tick t).configUp = true) ∧
    (∃ (s : State) (t : Nat),
      (s.tick t).configUp = false ∧ s.on F.PWR_STATUS_AUX_VALID = true) ∧
    (∃ (s : State) (t off len : Nat) (p : Path),
      ((p = .mctp ∨ p = .doe)) ∧ (s.tick t).aonUp p = true ∧ dirReadOk off len = true) ∧
    (∃ (s : State) (t off len : Nat) (p : Path),
      ((p = .mctp ∨ p = .doe)) ∧ (s.tick t).aonUp p = true ∧ dirReadOk off len = false) ∧
    (∃ (s : State) (t off len src ep port : Nat),
      s.on F.AON_STAGE_SUPERVISION = true ∧ dirReadOk off len = true) ∧
    (∃ (s : State) (t off len : Nat) (h : MbxHdr),
      takes s h ∧ dirReadOk off len = true ∧ s.mbxCheck h { safeOk := true } = none) ∧
    (∃ (s : State) (t : Nat) (p : Path),
      ((p = .mctp ∨ p = .doe)) ∧ (s.tick t).aonUp p = true) ∧
    (∃ (s : State) (t src ep port : Nat),
      s.on F.AON_STAGE_SUPERVISION = true) ∧
    (∃ (s : State) (t code : Nat) (p : Path),
      ((p = .mctp ∨ p = .doe)) ∧ (s.tick t).aonUp p = true ∧ vendorKnown p code = false) :=
  ⟨⟨(wUp.wr F.LDIR_INDEX_DWORD 3), 100000000, by decide +kernel⟩,
   ⟨wUp, 99999999, by decide +kernel, by decide +kernel⟩,
   ⟨wUp, 100000000, 4, 1024, .doe, by decide +kernel, by decide +kernel, by decide +kernel⟩,
   ⟨wUp, 100, 4, 1028, .mctp, by decide +kernel, by decide +kernel, by decide +kernel⟩,
   ⟨wFab, 100, 4, 64, 7, 255, 0, by decide +kernel, by decide +kernel⟩,
   ⟨wUp, 100, 4, 1024, h0, by unfold takes; decide +kernel, by decide +kernel, by decide +kernel⟩,
   ⟨wUp, 100, .mctp, by decide +kernel, by decide +kernel⟩,
   ⟨wFab, 100, 7, 255, 0, by decide +kernel⟩,
   ⟨wUp, 100, 0x20, .mctp, by decide +kernel, by decide +kernel, by decide +kernel⟩⟩

def xSidebandAndDirectory_14 : State := { wUp with sec := {} }

/-- Hypotheses of SidebandAndDirectory: for each clause, a state and operands that meet them. -/
theorem met_SidebandAndDirectory_2 :
    (∃ (s : State) (t : Nat),
      s.on F.AON_STAGE_SIDEBAND = true ∧ s.fwUp = true) ∧
    (∃ (s : State) (t k v : Nat),
      s.on F.AON_STAGE_SIDEBAND = true ∧ s.fwUp = true ∧ s.sensor k = some v) ∧
    (∃ (s : State) (t ty : Nat) (cmd : PldmCmd),
      s.on F.AON_STAGE_SIDEBAND = true ∧ s.fwUp = true ∧ ((ty = 0 ∨ ty = 2 ∨ ty = 5)) ∧ pldmTypeOf cmd ≠ ty) ∧
    (∃ (s : State) (t off : Nat) (b : Bytes),
      s.on F.AON_STAGE_SIDEBAND = true ∧ s.fwUp = true) ∧
    (∃ (s : State) (t ty : Nat) (cmd : PldmCmd),
      s.on F.AON_STAGE_SIDEBAND = true ∧ s.fwUp = false ∧ ((ty = 0 ∨ ty = 2 ∨ ty = 5))) ∧
    (∃ (s : State) (t eid : Nat),
      s.on F.AON_STAGE_SIDEBAND = true) ∧
    (∃ (s : State) (t a : Nat),
      s.on F.AON_STAGE_SIDEBAND = true ∧ a < 128 ∧ s.host.i3cAddr = none) ∧
    (∃ (s : State) (t a st : Nat),
      s.on F.AON_STAGE_SIDEBAND = true ∧ a < 128 ∧ s.host.i3cAddr = none) ∧
    (∃ (s : State) (t : Nat),
      (s.tick t).configUp = true) :=
  ⟨⟨wUp, 100, by decide +kernel, by decide +kernel⟩,
   ⟨wUp, 100, 3, 0, by decide +kernel, by decide +kernel, by decide +kernel⟩,
   ⟨wUp, 100, 0, .readStage, by decide +kernel, by decide +kernel, by decide +kernel, by decide +kernel⟩,
   ⟨wUp, 100, 3, (bs [1, 2]), by decide +kernel, by decide +kernel⟩,
   ⟨xSidebandAndDirectory_14, 100, 5, .readStage, by decide +kernel, by decide +kernel, by decide +kernel⟩,
   ⟨wUp, 100, 511, by decide +kernel⟩,
   ⟨wUp, 100, 127, by decide +kernel, by decide +kernel, by decide +kernel⟩,
   ⟨wUp, 100, 127, 0x3A, by decide +kernel, by decide +kernel, by decide +kernel⟩,
   ⟨wUp, 100000000, by decide +kernel⟩⟩

def xFramesAndRetry_1 : State := withPort wFab 0 { resend := [fIdle, { fIdle with fseq := 6 }], rxSeq := 65535 }
def xFramesAndRetry_1_l : List Frame := [{ fIdle with fseq := 6 }]
def xFramesAndRetry_3 : State := withPort wFab 0 { txSeq := 65535, linkQ := [.peerQuery, .nak 3] }
def xFramesAndRetry_4 : State := withPort wFab 0 { linkQ := [.census [] 0, .peerQuery], rxSeq := 9 }
def xFramesAndRetry_5 : State :=
  withPort wFab 0 { linkQ := [.reconcile [], .peerQuery], occ := [5, 0, 0, 0, 0, 0, 0, 0], retDue := [7, 0, 0, 0, 0, 0, 0, 0], paused := true }
def xFramesAndRetry_6 : State := withPort wFab 0 { dataQ := [{ pkt := kW 7, vc := 7 }] }
def xFramesAndRetry_6_q : OutPkt := { pkt := kW 7, vc := 7 }
def xFramesAndRetry_7 : State := withPort wFab 0 { rxSeq := 65535 }

/-- Hypotheses of FramesAndRetry: for each clause, a state and operands that meet them. -/
theorem met_FramesAndRetry_1 :
    (∃ (s : State) (t i : Nat) (f : Frame) (l : List Frame),
      i < 32 ∧ s.pstate i = 2 ∧ (s.port i).resend = f :: l) ∧
    (∃ (s : State) (t i : Nat),
      i < 32 ∧ s.pstate i = 2 ∧ (s.port i).resend = [] ∧ ((2048 ≤ (s.port i).replay.length ∨ ((s.port i).linkQ = [] ∧ (s.port i).dataQ = [])))) ∧
    (∃ (s : State) (t i : Nat) (m : LinkMsg) (l : List LinkMsg),
      i < 32 ∧ s.pstate i = 2 ∧ (s.port i).resend = [] ∧ (s.port i).replay.length < 2048 ∧ (s.port i).linkQ = m :: l ∧
      ((∀ c r, m ≠ .census c r)) ∧ ((∀ r, m ≠ .reconcile r))) ∧
    (∃ (s : State) (t i r : Nat) (c : List Nat) (l : List LinkMsg),
      i < 32 ∧ s.pstate i = 2 ∧ (s.port i).resend = [] ∧ (s.port i).replay.length < 2048 ∧ (s.port i).linkQ = .census c r :: l) ∧
    (∃ (s : State) (t i : Nat) (c : List Nat) (l : List LinkMsg),
      i < 32 ∧ s.pstate i = 2 ∧ (s.port i).resend = [] ∧ (s.port i).replay = [] ∧ (s.port i).linkQ = .reconcile c :: l) ∧
    (∃ (s : State) (t i : Nat) (q : OutPkt),
      i < 32 ∧ s.pstate i = 2 ∧ (s.port i).resend = [] ∧ (s.port i).replay.length < 2048 ∧ (s.port i).linkQ = [] ∧ (s.port i).dataQ = [q] ∧
      q.vc < 8 ∧ (s.port i).paused = false ∧ 0 < (s.port i).credits.getD q.vc 0) ∧
    (∃ (s : State) (t i : Nat) (f : Frame),
      i < 32 ∧ s.pstate i = 2) :=
  ⟨⟨xFramesAndRetry_1, 100, 0, fIdle, xFramesAndRetry_1_l, by decide +kernel, by decide +kernel, by decide +kernel⟩,
   ⟨wFab, 100, 0, by decide +kernel, by decide +kernel, by decide +kernel, by decide +kernel⟩,
   ⟨xFramesAndRetry_3, 100, 0, .peerQuery, ([.nak 3]), by decide +kernel, by decide +kernel, by decide +kernel, by decide +kernel, by decide +kernel,
    nofun, nofun⟩,
   ⟨xFramesAndRetry_4, 100, 0, 0, ([]), ([.peerQuery]), by decide +kernel, by decide +kernel, by decide +kernel, by decide +kernel, by decide +kernel⟩,
   ⟨xFramesAndRetry_5, 100, 0, ([]), ([.peerQuery]), by decide +kernel, by decide +kernel, by decide +kernel, by decide +kernel, by decide +kernel⟩,
   ⟨xFramesAndRetry_6, 100, 0, xFramesAndRetry_6_q, by decide +kernel, by decide +kernel, by decide +kernel, by decide +kernel, by decide +kernel,
    by decide +kernel, by decide +kernel, by decide +kernel, by decide +kernel⟩,
   ⟨xFramesAndRetry_7, 100, 0, fIdle, by decide +kernel, by decide +kernel⟩⟩

def xFramesAndRetry_8 : State := withPort wFab 0 { rxSeq := 65535 }
def xFramesAndRetry_8_f : Frame := { fIdle with fseq := 1, body := .link .peerQuery }
def xFramesAndRetry_9 : State := withPort wFab 0 { rxSeq := 65535 }
def xFramesAndRetry_9_f : Frame := { fIdle with fseq := 0, body := .data 0 true true (kW 7) }
def xFramesAndRetry_10 : State := withPort wFab 0 { rxSeq := 5, replay := [fIdle, { fIdle with fseq := 6 }, { fIdle with fseq := 7 }] }
def xFramesAndRetry_10_f : Frame := { fIdle with ack := 6, crVc := 7, crCount := 3 }
def xFramesAndRetry_11 : State := withPort wFab 0 { replay := [fIdle, { fIdle with fseq := 6 }, { fIdle with fseq := 7 }] }
def xFramesAndRetry_12 : State :=
  withPort wFab 0 { replay := [fIdle, { fIdle with fseq := 6 }, { fIdle with fseq := 7 }], replayRun := 7, replayFrom := 6 }
def xFramesAndRetry_13 : State := withPort wFab 0 { replay := [fIdle, { fIdle with fseq := 6 }] }
def xFramesAndRetry_13_l : List Frame := [{ fIdle with fseq := 6 }]

/-- Hypotheses of FramesAndRetry: for each clause, a state and operands that meet them. -/
theorem met_FramesAndRetry_2 :
    (∃ (s : State) (t i : Nat) (f : Frame),
      i < 32 ∧ s.pstate i = 2 ∧ ((f.body ≠ .idle ∧ f.fseq ≠ ((s.port i).rxSeq + 1) % 65536 ∨ f.body = .idle ∧ f.fseq ≠ (s.port i).rxSeq))) ∧
    (∃ (s : State) (t i v : Nat) (f : Frame) (hd : Bool) (k : Pkt),
      i < 32 ∧ s.pstate i = 2 ∧ f.body = .data v hd true k ∧ f.fseq = ((s.port i).rxSeq + 1) % 65536) ∧
    (∃ (s : State) (t i n : Nat) (f : Frame),
      i < 32 ∧ s.pstate i = 2 ∧ f.body = .idle ∧ f.fseq = (s.port i).rxSeq ∧ (s.port i).replay.findIdx? (fun g => g.fseq = f.ack) = some n) ∧
    (∃ (s : State) (t i q n : Nat),
      i < 32 ∧ s.pstate i = 2 ∧ (s.port i).replay.findIdx? (fun g => g.fseq = q) = some n ∧
      (((s.port i).replayRun < 7 ∨ (s.port i).replayFrom ≠ q))) ∧
    (∃ (s : State) (t i q n : Nat),
      i < 32 ∧ s.pstate i = 2 ∧ (s.port i).replay.findIdx? (fun g => g.fseq = q) = some n ∧ 7 ≤ (s.port i).replayRun ∧ (s.port i).replayFrom = q) ∧
    (∃ (s : State) (t i : Nat) (f : Frame) (l : List Frame),
      i < 32 ∧ s.pstate i = 2 ∧ (s.port i).replay = f :: l ∧ (s.port i).ackAt + 1000 ≤ max s.now t ∧
      (((s.port i).replayRun < 7 ∨ (s.port i).replayFrom ≠ f.fseq))) :=
  ⟨⟨xFramesAndRetry_8, 100, 0, xFramesAndRetry_8_f, by decide +kernel, by decide +kernel, by decide +kernel⟩,
   ⟨xFramesAndRetry_9, 100, 0, 0, xFramesAndRetry_9_f, true, (kW 7), by decide +kernel, by decide +kernel, by decide +kernel, by decide +kernel⟩,
   ⟨xFramesAndRetry_10, 100, 0, 1, xFramesAndRetry_10_f, by decide +kernel, by decide +kernel, by decide +kernel, by decide +kernel, by decide +kernel⟩,
   ⟨xFramesAndRetry_11, 100, 0, 6, 1, by decide +kernel, by decide +kernel, by decide +kernel, by decide +kernel⟩,
   ⟨xFramesAndRetry_12, 100, 0, 6, 1, by decide +kernel, by decide +kernel, by decide +kernel, by decide +kernel, by decide +kernel⟩,
   ⟨xFramesAndRetry_13, 1000, 0, fIdle, xFramesAndRetry_13_l, by decide +kernel, by decide +kernel, by decide +kernel, by decide +kernel,
    by decide +kernel⟩⟩

def xPortStates_3 : State := (withPort wFab 0 { replay := [fIdle] }).wr F.FAB_PORT_STATE 3 0
def xPortStates_5 : State := withPort wFab 0 { replay := [fIdle], dataQ := [{ pkt := kW 7, vc := 0 }] }
def xPortStates_6 : State := (withPort wFab 0 { replay := [fIdle] }).wr F.FAB_PORT_STATE 4 0
def xPortStates_7 : State := (withPort wFab 0 { replay := [fIdle] }).wr F.FAB_PORT_STATE 6 0
def xPortStates_8 : State := (withPort wFab 0 { replay := [fIdle] }).wr F.FAB_PORT_STATE 1 0

/-- Hypotheses of PortStates: for each clause, a state and operands that meet them. -/
theorem met_PortStates_1 :
    (∃ (s : State) (t i lanes : Nat) (free : List Nat),
      i < 32 ∧ s.rd F.FAB_PORT_ROLE i = 1 ∧
      ((s.pstate i = 1 ∨ (s.pstate i = 4 ∧ (s.port i).since ≤ (s.port i).heardAt) ∨ (s.pstate i = 6 ∧ (s.port i).trying = true ∧ max s.now t < (s.port i).tryAt + 100000000))) ∧
      8 ≤ (below 16 (fun w => lanes.testBit w && (s.port i).lanesOk.testBit w)).length) ∧
    (∃ (s : State) (t i lanes : Nat) (free : List Nat),
      i < 32 ∧ s.rd F.FAB_PORT_ROLE i = 1 ∧ s.pstate i = 1 ∧ (below 16 (fun w => lanes.testBit w && (s.port i).lanesOk.testBit w)).length < 8) ∧
    (∃ (s : State) (t i lanes : Nat) (free : List Nat),
      i < 32 ∧ s.pstate i = 3 ∧ max s.now t ≤ (s.port i).since + 100000 ∧
      8 ≤ (below 16 (fun w => lanes.testBit w && (s.port i).lanesOk.testBit w)).length) ∧
    (∃ (s : State) (t i lanes : Nat) (free : List Nat),
      i < 32 ∧ s.pstate i = 3) ∧
    (∃ (s : State) (t i : Nat),
      i < 32 ∧ ((s.pstate i = 2 ∨ s.pstate i = 3 ∨ s.pstate i = 5)) ∧ (s.port i).lastRx + 4000 ≤ max s.now t) ∧
    (∃ (s : State) (t i : Nat),
      i < 32 ∧ s.pstate i = 4 ∧ (s.port i).since + 1000000000 ≤ max s.now t) ∧
    (∃ (s : State) (t i : Nat),
      i < 32 ∧ s.pstate i = 6 ∧ (s.port i).tryAt + 100000000 ≤ max s.now t) ∧
    (∃ (s : State) (t i : Nat),
      i < 32 ∧ s.pstate i = 1 ∧ (s.port i).since + (if s.on F.AON_STAGE_WARM then 1000000000 else 8000000000) ≤ max s.now t) :=
  ⟨⟨(wFab.wr F.FAB_PORT_STATE 1 0), 100, 0, 255, ([960, 64, 960, 64, 960, 64, 960, 1]), by decide +kernel, by decide +kernel, by decide +kernel,
    by decide +kernel⟩,
   ⟨(wFab.wr F.FAB_PORT_STATE 1 0), 100, 0, 127, ([960, 64, 960, 64, 960, 64, 960, 1]), by decide +kernel, by decide +kernel, by decide +kernel,
    by decide +kernel⟩,
   ⟨xPortStates_3, 100, 0, 255, ([960, 64, 960, 64, 960, 64, 960, 1]), by decide +kernel, by decide +kernel, by decide +kernel, by decide +kernel⟩,
   ⟨(wFab.wr F.FAB_PORT_STATE 3 0), 100, 0, 255, ([960, 64, 960, 64, 960, 64, 960, 1]), by decide +kernel, by decide +kernel⟩,
   ⟨xPortStates_5, 4000, 0, by decide +kernel, by decide +kernel, by decide +kernel⟩,
   ⟨xPortStates_6, 1000000000, 0, by decide +kernel, by decide +kernel, by decide +kernel⟩,
   ⟨xPortStates_7, 100000000, 0, by decide +kernel, by decide +kernel, by decide +kernel⟩,
   ⟨xPortStates_8, 8000000000, 0, by decide +kernel, by decide +kernel, by decide +kernel⟩⟩

def xPortStates_14 : State := withPort wFab 0 { paused := true }
def xPortStates_15 : State := withPort wFab 0 { replay := [{ fIdle with body := .data 0 true true (kW 7) }] }

/-- Hypotheses of PortStates: for each clause, a state and operands that meet them. -/
theorem met_PortStates_2 :
    (∃ (s : State) (t fibre : Nat),
      fibre < 8) ∧
    (∃ (s : State) (t i : Nat) (powers : List Int) (light : Int),
      i < 32 ∧ s.rd F.FAB_PORT_ROLE i = 1 ∧ powers.length = 16) ∧
    (∃ (s : State) (t i : Nat),
      i < 32 ∧ s.pstate i = 2) ∧
    (∃ (s : State) (t i lastRx : Nat) (credits : List Nat),
      i < 32 ∧ s.pstate i = 2 ∧ (s.port i).retLog = [] ∧
      ((∀ v, v < 8 → credits.getD v 0 + (s.port i).occ.getD v 0 + (s.port i).retDue.getD v 0 = vcSlots v))) ∧
    (∃ (s : State) (t i lastRx v : Nat) (credits : List Nat),
      i < 32 ∧ s.pstate i = 2 ∧ (s.port i).retLog = [] ∧ v < 8 ∧
      credits.getD v 0 + (s.port i).occ.getD v 0 + (s.port i).retDue.getD v 0 ≠ vcSlots v ∧ (s.port i).censusBad = none) ∧
    (∃ (s : State) (t i : Nat) (free : List Nat),
      i < 32 ∧ ((s.pstate i = 2 ∨ s.pstate i = 5)) ∧ (s.port i).paused = true) ∧
    (∃ (s : State) (t i : Nat) (free : List Nat),
      i < 32 ∧ ((s.pstate i = 2 ∨ s.pstate i = 5)) ∧ (s.port i).paused = false) :=
  ⟨⟨wFab, 100, 0, by decide +kernel⟩,
   ⟨wFab, 100, 0, ([-5, -6, -7, -8, -100, -101, -3, -2, -3, -4, -5, -6, -7, -8, -9, -10]), (-3), by decide +kernel, by decide +kernel,
    by decide +kernel⟩,
   ⟨wFab, 100, 0, by decide +kernel, by decide +kernel⟩,
   ⟨wFab, 100, 0, 7, ([960, 64, 960, 64, 960, 64, 960, 64]), by decide +kernel, by decide +kernel, by decide +kernel, by decide +kernel⟩,
   ⟨wFab, 100, 0, 7, 7, ([960, 64, 960, 64, 960, 64, 960, 63]), by decide +kernel, by decide +kernel, by decide +kernel, by decide +kernel,
    by decide +kernel, by decide +kernel⟩,
   ⟨xPortStates_14, 100, 0, ([960, 64, 960, 64, 960, 64, 960, 1]), by decide +kernel, by decide +kernel, by decide +kernel⟩,
   ⟨xPortStates_15, 100, 0, ([960, 64, 960, 64, 960, 64, 960, 1]), by decide +kernel, by decide +kernel, by decide +kernel⟩⟩

def xDiscovery_3_c : ClaimMsg := { claim7 with addr := 9 }
def xDiscovery_4 : State := { (wFab.wr F.FAB_ADDR_ADMITTED 0) with fab := { wFab.fab with proposal := some 7 } }
def xDiscovery_4_c : ClaimMsg := { claim7 with digest := [] }
def xDiscovery_5 : State := (wFab.wr F.FAB_ADDR_ADMITTED 0).wr F.AON_STAGE_STAGE 3
def xDiscovery_6 : State := { (wFab.wr F.FAB_ADDR_ADMITTED 0).wr F.AON_STAGE_STAGE 3 with fab := { wFab.fab with proposal := some 9 } }

/-- Hypotheses of Discovery: for each clause, a state and operands that meet them. -/
theorem met_Discovery_1 :
    (∃ (s : State) (t i : Nat),
      i < 32 ∧ s.pstate i ≠ 0 ∧ s.pstate i ≠ 6) ∧
    (∃ (s : State) (t i : Nat) (h : HelloMsg),
      i < 32 ∧ s.pstate i ≠ 0 ∧ s.pstate i ≠ 6 ∧ h.addr < 2 ^ 16 ∧ h.port < 32) ∧
    (∃ (s : State) (t i : Nat) (c : ClaimMsg),
      i < 32 ∧ s.pstate i = 2 ∧ c.digest ≠ s.idDigest ∧ s.fab.claims.find? (fun r => r.digest = c.digest) = none) ∧
    (∃ (s : State) (t i : Nat) (c : ClaimMsg),
      i < 32 ∧ s.pstate i = 2 ∧ c.digest ≠ s.idDigest ∧ s.fab.proposal = some c.addr ∧ s.on F.FAB_ADDR_ADMITTED = false ∧
      s.on F.FAB_ADDR_MODE = false ∧ digestLt c.digest s.idDigest = true) ∧
    (∃ (s : State) (t : Nat) (m : Option Nat),
      s.stage = stDome ∧ s.on F.FAB_ADDR_ADMITTED = false ∧ s.rd F.AON_STAGE_HOLD_REASON ≠ 6 ∧ s.upPorts ≠ [] ∧ s.fab.proposal = none ∧
      s.on F.FAB_ADDR_MODE = false ∧ leAt s.idDigest 0 2 ≠ 0xFFFF) ∧
    (∃ (s : State) (t a : Nat),
      s.stage = stDome ∧ s.on F.FAB_ADDR_ADMITTED = false ∧ s.rd F.AON_STAGE_HOLD_REASON ≠ 6 ∧ s.upPorts ≠ [] ∧ s.fab.proposal = some a ∧
      a < 2 ^ 16 ∧ s.fab.changeAt + 10000000 ≤ max s.now t ∧ s.fab.claims.any (fun c => c.addr = a) = false) :=
  ⟨⟨wFab, 100, 0, by decide +kernel, by decide +kernel, by decide +kernel⟩,
   ⟨wFab, 100, 0, hello7, by decide +kernel, by decide +kernel, by decide +kernel, by decide +kernel, by decide +kernel⟩,
   ⟨(wFab.wr F.FAB_PORT_STATE 2 31), 100, 0, xDiscovery_3_c, by decide +kernel, by decide +kernel, by decide +kernel, by decide +kernel⟩,
   ⟨xDiscovery_4, 100, 0, xDiscovery_4_c, by decide +kernel, by decide +kernel, by decide +kernel, by decide +kernel, by decide +kernel,
    by decide +kernel, by decide +kernel⟩,
   ⟨xDiscovery_5, 100, none, by decide +kernel, by decide +kernel, by decide +kernel, by decide +kernel, by decide +kernel, by decide +kernel,
    by decide +kernel⟩,
   ⟨xDiscovery_6, 10000000, 9, by decide +kernel, by decide +kernel, by decide +kernel, by decide +kernel, by decide +kernel, by decide +kernel,
    by decide +kernel, by decide +kernel⟩⟩

def xDiscovery_7 : State :=
  { ((wFab.wr F.FAB_ADDR_ADMITTED 0).wr F.AON_STAGE_STAGE 3).wr F.FAB_ADDR_MODE 1 with fab := { wFab.fab with proposal := some 9, claims := [{ addr := 9, digest := bs [1], admitted := true, seq := 1, paths := [] }] } }
def xDiscovery_9 : State := wFab.wr F.FAB_ROUTE_ALT3 32 7 |>.wr F.FAB_ROUTE_WD 15 7

/-- Hypotheses of Discovery: for each clause, a state and operands that meet them. -/
theorem met_Discovery_2 :
    (∃ (s : State) (t a : Nat) (m : Option Nat),
      s.stage = stDome ∧ s.on F.FAB_ADDR_ADMITTED = false ∧ s.rd F.AON_STAGE_HOLD_REASON ≠ 6 ∧ s.upPorts ≠ [] ∧ s.fab.proposal = some a ∧
      s.on F.FAB_ADDR_MODE = true ∧ s.fab.changeAt + 10000000 ≤ max s.now t ∧ s.fab.claims.any (fun c => c.addr = a) = true) ∧
    (∃ (s : State) (t i : Nat) (ds : List Nat),
      i < 32 ∧ s.pstate i ≠ 0 ∧ s.pstate i ≠ 6) ∧
    (∃ (s : State) (t i : Nat) (ds : List Nat),
      i < 32 ∧ s.pstate i ≠ 0 ∧ s.pstate i ≠ 6) ∧
    (∃ (s : State) (t a value : Nat) (who : Requester),
      a < 65536 ∧ ((who = .mgt ∨ who = .pf0))) ∧
    (∃ (s : State) (t a value v : Nat),
      a < 65536) ∧
    (∃ (s : State) (t a value p : Nat),
      a < 65536) :=
  ⟨⟨xDiscovery_7, 10000000, 9, none, by decide +kernel, by decide +kernel, by decide +kernel, by decide +kernel, by decide +kernel, by decide +kernel,
    by decide +kernel, by decide +kernel⟩,
   ⟨(wFab.wr F.FAB_ROUTE_ALT3 32 7), 100, 0, ([7, 9]), by decide +kernel, by decide +kernel, by decide +kernel⟩,
   ⟨xDiscovery_9, 100, 0, ([7, 9]), by decide +kernel, by decide +kernel, by decide +kernel⟩,
   ⟨wFab, 100, 65535, (2 ^ 63 + 2 ^ 62 + 2 ^ 55 + 33), .pf0, by decide +kernel, by decide +kernel⟩,
   ⟨wFab, 100, 7, 0, 3, by decide +kernel⟩,
   ⟨wFab, 100, 7, 0, 3, by decide +kernel⟩⟩

def xRoutingAndDelivery_1 : State := withHeads wFab [{ pkt := { kW 7 with op := 5 }, since := 0 }]
def xRoutingAndDelivery_1_h : RouteWait := { pkt := { kW 7 with op := 5 }, since := 0 }
def xRoutingAndDelivery_2 : State := withHeads wFab [{ pkt := { kW 7 with hops := 1 }, since := 0 }]
def xRoutingAndDelivery_2_h : RouteWait := { pkt := { kW 7 with hops := 1 }, since := 0 }
def xRoutingAndDelivery_3 : State := withHeads wFab [{ pkt := kW 9, since := 0 }]
def xRoutingAndDelivery_3_h : RouteWait := { pkt := kW 9, since := 0 }
def xRoutingAndDelivery_4 : State := withHeads wFab [{ pkt := kW 7, since := 0 }]
def xRoutingAndDelivery_4_h : RouteWait := { pkt := kW 7, since := 0 }
def xRoutingAndDelivery_5 : State := withHeads ((wFab.wr F.FAB_ROUTE_PRIMARY 0 7).wr F.FAB_ROUTE_ALT1 32 7) [{ pkt := kW 7, since := 0 }]
def xRoutingAndDelivery_5_h : RouteWait := { pkt := kW 7, since := 0 }
def xRoutingAndDelivery_6 : State := withHeads wFab [{ pkt := kW 1, since := 0 }]
def xRoutingAndDelivery_6_h : RouteWait := { pkt := kW 1, since := 0 }
def xRoutingAndDelivery_7 : State := withHeads (withPort wFab 0 { credits := [0, 64, 960, 64, 960, 64, 960, 64] }) [{ pkt := kW 7, since := 0 }]
def xRoutingAndDelivery_7_h : RouteWait := { pkt := kW 7, since := 0 }
def xRoutingAndDelivery_8 : State := (withDeliv (page wFab 100 (eD 0 8200)) [kW 1]).wr F.FAB_VGRP_ENABLE 1 3 |>.wr F.FAB_VGRP_LOCAL_MASK 1 3

/-- Hypotheses of RoutingAndDelivery: for each clause, a state and operands that meet them. -/
theorem met_RoutingAndDelivery_1 :
    (∃ (s : State) (t k : Nat) (h : RouteWait),
      s.fab.heads[k]? = some h ∧ (s.fab.heads.take k).any (fun g => behind g.pkt h.pkt) = false ∧
      ((h.pkt.op = 0 ∨ 4 < h.pkt.op ∨ (h.pkt.dst = s.fabAddr ∧ s.endpointOk h.pkt = false)))) ∧
    (∃ (s : State) (t k : Nat) (h : RouteWait),
      s.fab.heads[k]? = some h ∧ (s.fab.heads.take k).any (fun g => behind g.pkt h.pkt) = false ∧ 1 ≤ h.pkt.op ∧ h.pkt.op ≤ 4 ∧
      h.pkt.dst ≠ s.fabAddr ∧ h.pkt.hops ≤ 1) ∧
    (∃ (s : State) (t k vc : Nat) (h : RouteWait),
      s.fab.heads[k]? = some h ∧ (s.fab.heads.take k).any (fun g => behind g.pkt h.pkt) = false ∧ 1 ≤ h.pkt.op ∧ h.pkt.op ≤ 4 ∧
      h.pkt.dst ≠ s.fabAddr ∧ 2 ≤ h.pkt.hops ∧ vc = opVc h.pkt.op + (if h.escapes || h.pkt.ordered then 1 else 0) ∧
      (((∀ c, c < 4 → s.liveFor h.pkt vc c = none ∧ s.kept h.pkt.dst c = false) ∨ (2 ≤ h.pkt.detours ∧ s.liveMinimal h.pkt vc = [] ∧ (∃ c, c < 4 ∧ (s.liveFor h.pkt vc c).isSome = true) ∧ ∀ c, c < 4 → s.minimal h.pkt.dst c = true → s.kept h.pkt.dst c = false)))) ∧
    (∃ (s : State) (t k c i vc : Nat) (h : RouteWait),
      s.fab.heads[k]? = some h ∧ (s.fab.heads.take k).any (fun g => behind g.pkt h.pkt) = false ∧ 1 ≤ h.pkt.op ∧ h.pkt.op ≤ 4 ∧
      h.pkt.dst ≠ s.fabAddr ∧ 2 ≤ h.pkt.hops ∧ vc = opVc h.pkt.op + (if h.escapes || h.pkt.ordered then 1 else 0) ∧
      s.liveMinimal h.pkt vc = [c] ∧ s.liveFor h.pkt vc c = some i ∧ pktFlits h.pkt ≤ s.freeCredits i vc ∧
      ((s.egressNeed h h.pkt = 0 ∨ s.mayDraw h.pkt.srcEp 2 (s.egressNeed h h.pkt) = true))) ∧
    (∃ (s : State) (t k c i vc : Nat) (h : RouteWait),
      s.fab.heads[k]? = some h ∧ (s.fab.heads.take k).any (fun g => behind g.pkt h.pkt) = false ∧ 1 ≤ h.pkt.op ∧ h.pkt.op ≤ 4 ∧
      h.pkt.dst ≠ s.fabAddr ∧ 2 ≤ h.pkt.hops ∧ vc = opVc h.pkt.op + (if h.escapes || h.pkt.ordered then 1 else 0) ∧
      s.liveMinimal h.pkt vc = [] ∧ ((∀ b, b < 4 → s.minimal h.pkt.dst b = true → s.kept h.pkt.dst b = false)) ∧ c < 4 ∧
      s.liveFor h.pkt vc c = some i ∧ ((∀ b, b < c → s.liveFor h.pkt vc b = none)) ∧ h.pkt.detours < 2 ∧ pktFlits h.pkt ≤ s.freeCredits i vc ∧
      s.egressNeed h h.pkt = 0) ∧
    (∃ (s : State) (t k : Nat) (h : RouteWait),
      s.fab.heads[k]? = some h ∧ (s.fab.heads.take k).any (fun g => behind g.pkt h.pkt) = false ∧ h.pkt.dst = s.fabAddr ∧
      s.endpointOk h.pkt = true) ∧
    (∃ (s : State) (t k : Nat) (h : RouteWait),
      s.fab.heads[k]? = some h ∧ h.escapes = false ∧ h.pkt.ordered = false ∧ h.since + 1000 ≤ max s.now t ∧ s.adaptive h.pkt ≠ [] ∧
      ((s.adaptive h.pkt).filterMap (s.liveFor h.pkt (opVc h.pkt.op))).all (fun i => decide (s.freeCredits i (opVc h.pkt.op) < pktFlits h.pkt)) = true) ∧
    (∃ (s : State) (t k : Nat) (x : Pkt),
      s.fab.delivered[k]? = some x ∧ (s.fab.delivered.take k).any (fun y => behind y x) = false ∧ x.op = 1 ∧ aget s.restores x.dstEp = none ∧
      s.mirrorWrite x = false ∧ s.localMember x.dstEp = true ∧ s.toInboxPage x.dstEp x.arg = false) :=
  ⟨⟨xRoutingAndDelivery_1, 100, 0, xRoutingAndDelivery_1_h, by decide +kernel, by decide +kernel, by decide +kernel⟩,
   ⟨xRoutingAndDelivery_2, 100, 0, xRoutingAndDelivery_2_h, by decide +kernel, by decide +kernel, by decide +kernel, by decide +kernel,
    by decide +kernel, by decide +kernel⟩,
   ⟨xRoutingAndDelivery_3, 100, 0, 0, xRoutingAndDelivery_3_h, by decide +kernel, by decide +kernel, by decide +kernel, by decide +kernel,
    by decide +kernel, by decide +kernel, by decide +kernel, by decide +kernel⟩,
   ⟨xRoutingAndDelivery_4, 100, 0, 0, 0, 0, xRoutingAndDelivery_4_h, by decide +kernel, by decide +kernel, by decide +kernel, by decide +kernel,
    by decide +kernel, by decide +kernel, by decide +kernel, by decide +kernel, by decide +kernel, by decide +kernel, by decide +kernel⟩,
   ⟨xRoutingAndDelivery_5, 100, 0, 1, 0, 0, xRoutingAndDelivery_5_h, by decide +kernel, by decide +kernel, by decide +kernel, by decide +kernel,
    by decide +kernel, by decide +kernel, by decide +kernel, by decide +kernel, by decide +kernel, by decide +kernel, by decide +kernel,
    by decide +kernel, by decide +kernel, by decide +kernel, by decide +kernel⟩,
   ⟨xRoutingAndDelivery_6, 100, 0, xRoutingAndDelivery_6_h, by decide +kernel, by decide +kernel, by decide +kernel, by decide +kernel⟩,
   ⟨xRoutingAndDelivery_7, 1000, 0, xRoutingAndDelivery_7_h, by decide +kernel, by decide +kernel, by decide +kernel, by decide +kernel,
    by decide +kernel, by decide +kernel⟩,
   ⟨xRoutingAndDelivery_8, 100, 0, (kW 1), by decide +kernel, by decide +kernel, by decide +kernel, by decide +kernel, by decide +kernel,
    by decide +kernel, by decide +kernel⟩⟩

def xRoutingAndDelivery_9 : State :=
  { withDeliv (page wFab 8300 (eD 0 8300 [47])) [{ kW 7 with dst := 1, arg := 8300 * 65536 }] with img := { act := some { im0 with twins := [twin0] } } }
def xRoutingAndDelivery_9_x : Pkt := { kW 7 with dst := 1, arg := 8300 * 65536 }
def xRoutingAndDelivery_10 : State :=
  ((withDeliv (page wFab 100 (eD 0 8200)) [{ kW 1 with data := List.replicate 64 3 }]).wr F.FAB_VGRP_ENABLE 1 3 |>.wr F.FAB_VGRP_LOCAL_MASK 1 3).wr F.LDG_INBOX_ENABLE 1 0 |>.wr F.LDG_INBOX_VPN (A / 65536) 0
def xRoutingAndDelivery_10_x : Pkt := { kW 1 with data := List.replicate 64 3 }
def xRoutingAndDelivery_11 : State := withDeliv (page wFab 100 (eD 0 8200)) [kW 1]
def xRoutingAndDelivery_12 : State := withDeliv wFab [{ kW 1 with op := 4 }]
def xRoutingAndDelivery_12_x : Pkt := { kW 1 with op := 4 }

/-- Hypotheses of RoutingAndDelivery: for each clause, a state and operands that meet them. -/
theorem met_RoutingAndDelivery_2 :
    (∃ (s : State) (t k : Nat) (member : Bool) (x : Pkt),
      s.fab.delivered[k]? = some x ∧ (s.fab.delivered.take k).any (fun y => behind y x) = false ∧ x.op = 1 ∧ aget s.restores x.dstEp = none ∧
      s.mirrorWrite x = true) ∧
    (∃ (s : State) (t k : Nat) (x : Pkt),
      s.fab.delivered[k]? = some x ∧ (s.fab.delivered.take k).any (fun y => behind y x) = false ∧ x.op = 1 ∧ aget s.restores x.dstEp = none ∧
      s.mirrorWrite x = false ∧ s.localMember x.dstEp = true ∧ s.toInboxPage x.dstEp x.arg = true ∧
      (s.checkAccess 4 0x5A x.dstEp x.arg x.data.length true false).1 = none) ∧
    (∃ (s : State) (t k : Nat) (x : Pkt),
      s.fab.delivered[k]? = some x ∧ (s.fab.delivered.take k).any (fun y => behind y x) = false ∧ x.op = 1 ∧ aget s.restores x.dstEp = none ∧
      s.mirrorWrite x = false) ∧
    (∃ (s : State) (t k : Nat) (x : Pkt),
      s.fab.delivered[k]? = some x ∧ (s.fab.delivered.take k).any (fun y => behind y x) = false ∧ x.op = 4) ∧
    (∃ (s : State) (t p gen id : Nat) (reject : Option Nat),
      p < 16 ∧ gen ≠ s.genOf p) ∧
    (∃ (s : State) (t p id : Nat) (j : Job),
      p < 16 ∧ j ∈ s.jobs ∧ j.p = p ∧ j.id = id) ∧
    (∃ (s : State) (t p id code : Nat),
      p < 16) :=
  ⟨⟨xRoutingAndDelivery_9, 100, 0, false, xRoutingAndDelivery_9_x, by decide +kernel, by decide +kernel, by decide +kernel, by decide +kernel,
    by decide +kernel⟩,
   ⟨xRoutingAndDelivery_10, 100, 0, xRoutingAndDelivery_10_x, by decide +kernel, by decide +kernel, by decide +kernel, by decide +kernel,
    by decide +kernel, by decide +kernel, by decide +kernel, by decide +kernel⟩,
   ⟨xRoutingAndDelivery_11, 100, 0, (kW 1), by decide +kernel, by decide +kernel, by decide +kernel, by decide +kernel, by decide +kernel⟩,
   ⟨xRoutingAndDelivery_12, 100, 0, xRoutingAndDelivery_12_x, by decide +kernel, by decide +kernel, by decide +kernel⟩,
   ⟨wFab, 100, 15, 3, 4, (some 3), by decide +kernel, by decide +kernel⟩,
   ⟨wMat, 100, 0, 1, jM, by decide +kernel, by decide +kernel, by decide +kernel, by decide +kernel⟩,
   ⟨wMat, 100, 0, 1, 3, by decide +kernel⟩⟩

def xIsolationTimeAndPeers_5_s1 : State :=
  { (wFab.wr F.FAB_ADDR_ROOT 7) with fab := { (wFab.wr F.FAB_ADDR_ROOT 7).fab with masters := ([1]).filter (fun a => decide (a ≠ (wFab.wr F.FAB_ADDR_ROOT 7).fabAddr)) } }
def xIsolationTimeAndPeers_6_s1 : State :=
  { (wFab.wr F.FAB_TIME_MASTER 1) with fab := { (wFab.wr F.FAB_TIME_MASTER 1).fab with masters := ([9, 1]).filter (fun a => decide (a ≠ (wFab.wr F.FAB_TIME_MASTER 1).fabAddr)) } }
def xIsolationTimeAndPeers_10 : State := withPort wFab 0 { fwOld := 1 }
def xIsolationTimeAndPeers_11 : State := withPort wFab 0 { fwOld := 1 }

/-- Hypotheses of IsolationTimeAndPeers: for each clause, a state and operands that meet them. -/
theorem met_IsolationTimeAndPeers :
    (∃ (s : State) (t value : Nat) (who : Requester),
      ((who = .mgt ∨ who = .pf0)) ∧ s.safe = false) ∧
    (∃ (s : State) (t value : Nat) (who : Requester),
      ((who = .mgt ∨ who = .pf0)) ∧ s.safe = true) ∧
    (∃ (s s1 : State) (t i t1 t2 t3 t4 : Nat) (ms : List Nat) (off : Int),
      i < 32 ∧ s1 = { s with fab := { s.fab with masters := ms.filter (fun a => decide (a ≠ s.fabAddr)) } } ∧ s1.timeMaster ≠ s.fabAddr ∧
      s1.masterPort = some i ∧ off = (((t1 : Int) - t2) + ((t4 : Int) - t3)) / 2) ∧
    (∃ (s s1 : State) (t i t1 t2 t3 t4 : Nat) (ms : List Nat),
      i < 32 ∧ s1 = { s with fab := { s.fab with masters := ms.filter (fun a => decide (a ≠ s.fabAddr)) } } ∧ s1.timeMaster = s.fabAddr) ∧
    (∃ (s : State) (t since : Nat),
      s.timeMaster ≠ s.fabAddr ∧ s.reachable s.timeMaster = false ∧ since = s.fab.masterGone.getD (max s.now t)) ∧
    (∃ (s : State) (t i : Nat),
      i < 32 ∧ ((s.pstate i = 2 ∨ s.pstate i = 5))) ∧
    (∃ (s : State) (t i age : Nat),
      i < 32 ∧ ((s.pstate i = 2 ∨ s.pstate i = 5)) ∧ 1000000 < age ∧ 1 ≤ (s.port i).fwOld ∧ s.on F.FAB_PORT_NBR_FW_STALE i = false) ∧
    (∃ (s : State) (t i age : Nat),
      i < 32 ∧ ((s.pstate i = 2 ∨ s.pstate i = 5)) ∧ age ≤ 1000000) :=
  ⟨⟨wFab, 100, 1, .pf0, by decide +kernel, by decide +kernel⟩,
   ⟨(wFab.wr F.AON_STAGE_STAGE 7), 100, 1, .pf0, by decide +kernel, by decide +kernel⟩,
   ⟨(wFab.wr F.FAB_ADDR_ROOT 7), xIsolationTimeAndPeers_5_s1, 100, 0, 40000, 0, 0, 1, ([1]), 20000, by decide +kernel, by decide +kernel,
    by decide +kernel, by decide +kernel, by decide +kernel⟩,
   ⟨(wFab.wr F.FAB_TIME_MASTER 1), xIsolationTimeAndPeers_6_s1, 100, 0, 40000, 0, 0, 1, ([9, 1]), by decide +kernel, by decide +kernel,
    by decide +kernel⟩,
   ⟨(wFab.wr F.FAB_ADDR_ROOT 9), 100, 100, by decide +kernel, by decide +kernel, by decide +kernel⟩,
   ⟨wFab, 100, 0, by decide +kernel, by decide +kernel⟩,
   ⟨xIsolationTimeAndPeers_10, 100, 0, 1000001, by decide +kernel, by decide +kernel, by decide +kernel, by decide +kernel, by decide +kernel⟩,
   ⟨xIsolationTimeAndPeers_11, 100, 0, 1000000, by decide +kernel, by decide +kernel, by decide +kernel⟩⟩

def xStepVote_5 : State := { wVote with fab := { wVote.fab with casts := [{ p := 0, slot := 3, step := 41, verdict := true }] } }
def xStepVote_5_c : HeldCast := { p := 0, slot := 3, step := 41, verdict := true }
def xStepVote_6 : State := wVote.wr F.FAB_VGRP_CHILD_MASK 1 3
def xStepVote_7 : State := (withVote wVote 3 { step := 40, begun := 0 }).wr F.FAB_VGRP_CHILD_MASK 1 3

/-- Hypotheses of StepVote: for each clause, a state and operands that meet them. -/
theorem met_StepVote_1 :
    (∃ (s : State) (t p value : Nat) (who : Requester),
      p < 16 ∧ ((who = .mgt ∨ who = .pf0 ∨ who = .bfy p)) ∧ s.castOk (bits value 32 4) p (bits value 0 32) = true) ∧
    (∃ (s : State) (t p value : Nat) (who : Requester),
      p < 16 ∧ ((who = .mgt ∨ who = .pf0 ∨ who = .bfy p)) ∧ s.castOk (bits value 32 4) p (bits value 0 32) = false) ∧
    (∃ (s : State) (t p value v : Nat),
      p < 16) ∧
    (∃ (s : State) (t p q value : Nat),
      p < 16 ∧ q ≠ p) ∧
    (∃ (s : State) (t p : Nat) (c : HeldCast) (bad : Bool),
      p < 16 ∧ s.fab.casts.find? (fun c => decide (c.p = p) && s.stepEnded p c.step) = some c ∧ s.castOk c.slot p c.step = true ∧
      bad = (s.on F.GAL_GOAL_BAD p && decide (s.rd F.GAL_STEP_BAD_STEP p ≤ c.step))) ∧
    (∃ (s : State) (t i n group step count first : Nat) (verdict : Bool),
      i < 32 ∧ s.pstate i = 2 ∧ s.groupSlot group (fun n => (s.rd F.FAB_VGRP_CHILD_MASK n).testBit i) = some n ∧
      (s.voteStep n).all (fun x => x = step) = true) ∧
    (∃ (s : State) (t i n group step count first : Nat) (verdict : Bool),
      i < 32 ∧ s.pstate i = 2 ∧ s.groupSlot group (fun n => (s.rd F.FAB_VGRP_CHILD_MASK n).testBit i) = some n ∧
      (s.voteStep n).any (fun x => x ≠ step) = true) :=
  ⟨⟨wVote, 100, 0, (2 ^ 63 + 3 * 2 ^ 32 + 41), (.bfy 0), by decide +kernel, by decide +kernel, by decide +kernel⟩,
   ⟨wVote, 100, 0, (2 ^ 63 + 4 * 2 ^ 32 + 41), .pf0, by decide +kernel, by decide +kernel, by decide +kernel⟩,
   ⟨wVote, 100, 0, (2 ^ 63 + 4 * 2 ^ 32 + 41), 1, by decide +kernel⟩,
   ⟨wVote, 100, 0, 2, (2 ^ 63 + 4 * 2 ^ 32 + 41), by decide +kernel, by decide +kernel⟩,
   ⟨xStepVote_5, 100, 0, xStepVote_5_c, false, by decide +kernel, by decide +kernel, by decide +kernel, by decide +kernel⟩,
   ⟨xStepVote_6, 100, 0, 3, 9, 41, 2, 7, true, by decide +kernel, by decide +kernel, by decide +kernel, by decide +kernel⟩,
   ⟨xStepVote_7, 100, 0, 3, 9, 41, 2, 7, true, by decide +kernel, by decide +kernel, by decide +kernel, by decide +kernel⟩⟩

def xStepVote_8 : State := withVote wVote 3 { step := 41, begun := 0, locals := [(0, true)] }
def xStepVote_8_v : VoteSt := { step := 41, begun := 0, locals := [(0, true)] }
def xStepVote_9 : State := (withVote wVote 3 { step := 41, begun := 0, locals := [(0, true)] }).wr F.FAB_VGRP_HAS_PARENT 1 3
def xStepVote_9_v : VoteSt := { step := 41, begun := 0, locals := [(0, true)] }
def xStepVote_10 : State := withVote wVote 3 { step := 41, begun := 0 }
def xStepVote_10_v : VoteSt := { step := 41, begun := 0 }
def xStepVote_11 : State := (wVote.wr F.FAB_VGRP_HAS_PARENT 1 3).wr F.FAB_VGRP_CHILD_MASK 6 3

/-- Hypotheses of StepVote: for each clause, a state and operands that meet them. -/
theorem met_StepVote_2 :
    (∃ (s : State) (t n : Nat) (v : VoteSt) (ok : Bool),
      n < 16 ∧ s.vote n = some v ∧ v.reported = false ∧ s.on F.FAB_VGRP_ENABLE n = true ∧ s.rd F.FAB_VGRP_CHILD_MASK n = 0 ∧ v.kids = [] ∧
      s.rd F.FAB_VEXCL_LOCAL n = 0 ∧ s.on F.FAB_VGRP_HAS_PARENT n = false ∧ v.step < 2 ^ 32 ∧
      ((∀ p, p < 16 → (s.rd F.FAB_VGRP_LOCAL_MASK n).testBit p = true → (aget v.locals p).isSome = true)) ∧ ok = v.locals.all (fun e => e.2)) ∧
    (∃ (s : State) (t n : Nat) (v : VoteSt),
      n < 16 ∧ s.vote n = some v ∧ v.reported = false ∧ s.on F.FAB_VGRP_ENABLE n = true ∧ s.rd F.FAB_VGRP_CHILD_MASK n = 0 ∧ v.kids = [] ∧
      s.rd F.FAB_VEXCL_LOCAL n = 0 ∧ s.on F.FAB_VGRP_HAS_PARENT n = true ∧
      ((∀ p, p < 16 → (s.rd F.FAB_VGRP_LOCAL_MASK n).testBit p = true → (aget v.locals p).isSome = true))) ∧
    (∃ (s : State) (t n p : Nat) (v : VoteSt),
      n < 16 ∧ s.vote n = some v ∧ v.reported = false ∧ s.on F.FAB_VGRP_ENABLE n = true ∧ s.rd F.FAB_VGRP_CHILD_MASK n = 0 ∧ v.kids = [] ∧
      s.on F.FAB_VGRP_HAS_PARENT n = false ∧ v.step < 2 ^ 32 ∧ p < 16 ∧ (s.rd F.FAB_VGRP_LOCAL_MASK n).testBit p = true ∧
      aget v.locals p = none ∧ v.locals.all (fun e => e.2) = true ∧ v.begun + max 1 (s.rd F.FAB_VCFG_WAIT_US n) * 1000 ≤ max s.now t) ∧
    (∃ (s : State) (t i n group step result count first : Nat),
      i < 32 ∧ s.pstate i = 2 ∧
      s.groupSlot group (fun n => s.on F.FAB_VGRP_HAS_PARENT n && decide (s.rd F.FAB_VCFG_PARENT_PORT n = i)) = some n ∧
      (s.voteStep n).all (fun x => x = step) = true ∧ 1 ≤ result ∧ result ≤ 3 ∧ step < 2 ^ 32) ∧
    (∃ (s : State) (t n value : Nat) (who : Requester),
      n < 16 ∧ ((who = .mgt ∨ who = .pf0)) ∧ s.on F.FAB_VGRP_ENABLE n = false ∧ value.testBit 0 = true) ∧
    (∃ (s : State) (t n value v : Nat),
      n < 16) ∧
    (∃ (s : State) (t n value q : Nat),
      n < 16) :=
  ⟨⟨xStepVote_8, 100, 3, xStepVote_8_v, true, by decide +kernel, by decide +kernel, by decide +kernel, by decide +kernel, by decide +kernel,
    by decide +kernel, by decide +kernel, by decide +kernel, by decide +kernel, by decide +kernel, by decide +kernel⟩,
   ⟨xStepVote_9, 100, 3, xStepVote_9_v, by decide +kernel, by decide +kernel, by decide +kernel, by decide +kernel, by decide +kernel,
    by decide +kernel, by decide +kernel, by decide +kernel, by decide +kernel⟩,
   ⟨xStepVote_10, 100000000, 3, 0, xStepVote_10_v, by decide +kernel, by decide +kernel, by decide +kernel, by decide +kernel, by decide +kernel,
    by decide +kernel, by decide +kernel, by decide +kernel, by decide +kernel, by decide +kernel, by decide +kernel, by decide +kernel,
    by decide +kernel⟩,
   ⟨xStepVote_11, 100, 0, 3, 9, (2 ^ 32 - 1), 3, 2, 7, by decide +kernel, by decide +kernel, by decide +kernel, by decide +kernel, by decide +kernel,
    by decide +kernel, by decide +kernel⟩,
   ⟨wVote, 100, 15, (2 ^ 33 + 2 ^ 31 + 9 * 16 + 1), .pf0, by decide +kernel, by decide +kernel, by decide +kernel, by decide +kernel⟩,
   ⟨wVote, 100, 15, 1, 1, by decide +kernel⟩,
   ⟨wVote, 100, 15, 1, 1, by decide +kernel⟩⟩

def xMirrorSlots_3 : State := wTwin.wr F.SNP_MIRROR_PIN_A 1 0 0

/-- Hypotheses of MirrorSlots: for each clause, a state and operands that meet them. -/
theorem met_MirrorSlots_1 :
    (∃ (s : State) (t src ep p r : Nat),
      s.on F.AON_STAGE_SUPERVISION = true ∧ s.runHas p r 0 = true) ∧
    (∃ (s : State) (t src ep p r k : Nat),
      s.on F.AON_STAGE_SUPERVISION = true ∧ s.runHas p r k = true ∧ s.runSender p r = some src ∧ s.on (pinFld k) p (r - 1) = false ∧
      s.slotServing p r k = false) ∧
    (∃ (s : State) (t src ep p r k : Nat),
      s.on F.AON_STAGE_SUPERVISION = true ∧
      ((s.runHas p r k = false ∨ s.runSender p r ≠ some src ∨ s.on (pinFld k) p (r - 1) = true ∨ s.slotServing p r k = true))) ∧
    (∃ (s : State) (t src ep p r k : Nat) (h : Bytes),
      s.on F.AON_STAGE_SUPERVISION = true ∧ s.runHas p r k = true ∧ s.runSender p r = some src ∧ s.rd (stateFld k) p (r - 1) = 1 ∧
      h.length = 128) ∧
    (∃ (s : State) (t src ep p r k : Nat) (h : Bytes),
      s.on F.AON_STAGE_SUPERVISION = true ∧
      ((s.runHas p r k = false ∨ s.runSender p r ≠ some src ∨ s.rd (stateFld k) p (r - 1) ≠ 1 ∨ h.length ≠ 128))) ∧
    (∃ (s : State) (t p r k : Nat) (h : Bytes),
      s.Inv ∧ s.runHas p r k = true ∧ (s.slot p r k).sealing = some h ∧ s.rd (stateFld k) p (r - 1) = 1 ∧ (s.slot p r k).tries = 0 ∧
      h.length = 128 ∧ s.safe = false ∧ (s.slotPasses p r k h).1 = true) :=
  ⟨⟨wTwin, 100, 9, 254, 0, 1, by decide +kernel, by decide +kernel⟩,
   ⟨wTwin, 100, 7, 254, 0, 1, 0, by decide +kernel, by decide +kernel, by decide +kernel, by decide +kernel, by decide +kernel⟩,
   ⟨xMirrorSlots_3, 100, 7, 254, 0, 1, 0, by decide +kernel, by decide +kernel⟩,
   ⟨wTwin, 100, 7, 254, 0, 1, 0, mf0, by decide +kernel, by decide +kernel, by decide +kernel, by decide +kernel, by decide +kernel⟩,
   ⟨wTwin, 100, 7, 254, 0, 1, 0, (mf0.drop 1), by decide +kernel, by decide +kernel⟩,
   ⟨(wSeal 0), 100, 0, 1, 0, mf0, by unfold State.Inv; decide +kernel, by decide +kernel, by decide +kernel, by decide +kernel, by decide +kernel,
    by decide +kernel, by decide +kernel, by decide +kernel⟩⟩

def xMirrorSlots_9 : State := wTwin.wr F.SNP_MIRROR_STATE_A 2 0 0
def xMirrorSlots_9_q : ServeReq := { p := 0, r := 1, slot := 0, dev := 7, part := 15, stage := A, reslice := false }
def xMirrorSlots_10 : State :=
  { wTwin.wr F.SNP_MIRROR_STATE_A 2 0 0 with slots := [(slotKey 0 1 0, { serving := some 4 })], fab := { wTwin.fab with heads := [{ pkt := kW 7, since := 0, tag := 4 }] } }
def xMirrorSlots_10_q : ServeReq := { p := 0, r := 1, slot := 0, dev := 7, part := 15, stage := A, reslice := false }
def xMirrorSlots_11 : State :=
  { wTwin with restores := [(0, { req := { p := 0, exact := false, step := 0, reslice := false, dryRun := false, sources := [{ dev := some 7, stage := A, pages := 1, signer := none }] }, h := h0, begun := 0 })] }
def xMirrorSlots_11_r : RestoreRun :=
  { req := { p := 0, exact := false, step := 0, reslice := false, dryRun := false, sources := [{ dev := some 7, stage := A, pages := 1, signer := none }] }, h := h0, begun := 0 }

/-- Hypotheses of MirrorSlots: for each clause, a state and operands that meet them. -/
theorem met_MirrorSlots_2 :
    (∃ (s : State) (t p r k : Nat) (h : Bytes),
      s.runHas p r k = true ∧ (s.slot p r k).sealing = some h ∧ s.rd (stateFld k) p (r - 1) = 1 ∧ (s.slot p r k).tries = 0 ∧ s.safe = false ∧
      (s.slotPasses p r k h).1 = false) ∧
    (∃ (s : State) (t p r k : Nat) (h : Bytes),
      s.runHas p r k = true ∧ (s.slot p r k).sealing = some h ∧ s.rd (stateFld k) p (r - 1) = 1 ∧ (s.slot p r k).tries = 1 ∧
      (s.slot p r k).readAt + 1000000 ≤ max s.now t ∧ s.safe = false ∧ (s.slotPasses p r k h).1 = false) ∧
    (∃ (s : State) (t : Nat) (h : MbxHdr) (q : ServeReq),
      takes s h ∧ q.p < 16 ∧ s.runHas q.p q.r q.slot = true ∧ q.part < 16 ∧ q.stage % 65536 = 0 ∧ q.stage < 2 ^ 40 ∧
      s.mbxCheck h { feat := some 2, mgmt := true, stage := stFinial } = none ∧ s.slotServing q.p q.r q.slot = false ∧
      s.rd (stateFld q.slot) q.p (q.r - 1) = 2) ∧
    (∃ (s : State) (t : Nat) (h : MbxHdr) (q : ServeReq),
      takes s h ∧ q.p < 16 ∧ s.runHas q.p q.r q.slot = true ∧ q.part < 16 ∧ q.stage % 65536 = 0 ∧ q.stage < 2 ^ 40 ∧
      s.mbxCheck h { feat := some 2, mgmt := true, stage := stFinial } = none ∧ s.slotServing q.p q.r q.slot = true) ∧
    (∃ (s : State) (t src ep p : Nat) (r : RestoreRun),
      aget s.restores p = some r ∧ r.req.sources.any (fun x => x.dev = some src) = true) ∧
    (∃ (s : State) (t src ep p : Nat),
      aget s.restores p = none) :=
  ⟨⟨(wUnsealed 0), 100, 0, 1, 0, (natLe 128 0), by decide +kernel, by decide +kernel, by decide +kernel, by decide +kernel, by decide +kernel,
    by decide +kernel⟩,
   ⟨(wUnsealed 1), 1000000, 0, 1, 0, (natLe 128 0), by decide +kernel, by decide +kernel, by decide +kernel, by decide +kernel, by decide +kernel,
    by decide +kernel, by decide +kernel⟩,
   ⟨xMirrorSlots_9, 100, h0, xMirrorSlots_9_q, by unfold takes; decide +kernel, by decide +kernel, by decide +kernel, by decide +kernel,
    by decide +kernel, by decide +kernel, by decide +kernel, by decide +kernel, by decide +kernel⟩,
   ⟨xMirrorSlots_10, 100, h0, xMirrorSlots_10_q, by unfold takes; decide +kernel, by decide +kernel, by decide +kernel, by decide +kernel,
    by decide +kernel, by decide +kernel, by decide +kernel, by decide +kernel⟩,
   ⟨xMirrorSlots_11, 100, 7, 254, 0, xMirrorSlots_11_r, by decide +kernel, by decide +kernel⟩,
   ⟨wTwin, 100, 7, 254, 0, by decide +kernel⟩⟩

/-- Hypotheses of FaultsAreCounted: for each clause, a state and operands that meet them. -/
theorem met_FaultsAreCounted :
    (∃ (s : State) (t : Nat) (r : Report) (rest : List Report),
      s.fc.coll = r :: rest ∧ r.level ≤ 3) :=
  ⟨(withColl wUp [rp 1]), 100, (rp 1), ([]), by decide +kernel, by decide +kernel⟩

def xFaultCollection_1 : State := { wUp with fc := { srcQ := [(0x30, [rp 1, rp 0])], self := [rp 2] } }
def xFaultCollection_2 : State :=
  { wUp with fc := { srcQ := [(0x30, [rp 1, rp 0])], self := [rp 2], pairs := [(127, { equalRun := 1, lastBad := 5 })] } }
def xFaultCollection_2_x : PairSt := { equalRun := 1, lastBad := 5 }
def xFaultCollection_3 : State := { wUp.wr F.FC_BROKEN_HI_BROKEN (2 ^ 63) with fc := { pairs := [(127, { equalRun := 1, lastBad := 5 })] } }
def xFaultCollection_3_x : PairSt := { equalRun := 1, lastBad := 5 }
def xFaultCollection_6 : State := (withColl wUp [rp 1]).wr F.FC_PEND_PARTITIONS 1 0
def xFaultCollection_8 : State := withColl (wUp.wr F.AON_STAGE_STAGE 7) [rp 2]
def xFaultCollection_10 : State := { wUp.wr F.FC_PEND_PARTITIONS 3 0 with fc := { autoClr := [(0, 0, 100)] } }
def xFaultCollection_12 : State := { wUp with fc := { ring := [fe 2, fe 1], seq := 2, mirrored := 1 } }

/-- Hypotheses of FaultCollection: for each clause, a state and operands that meet them. -/
theorem met_FaultCollection :
    (∃ (s : State) (t m : Nat) (r : Report) (l : List Report),
      m < 128 ∧ s.broken m = false ∧ agetD s.fc.srcQ m [] = r :: l) ∧
    (∃ (s : State) (t m : Nat) (x : PairSt),
      m < 128 ∧ s.broken m = false ∧ aget s.fc.pairs m = some x ∧ 1 ≤ x.equalRun) ∧
    (∃ (s : State) (t m : Nat) (x : PairSt),
      m < 128 ∧ s.broken m = true ∧ aget s.fc.pairs m = some x ∧ x.lastBad + 10000 ≤ max s.now t) ∧
    (∃ (s : State) (t : Nat) (r : Report) (rest : List Report),
      s.fc.coll = r :: rest ∧ r.level = 0) ∧
    (∃ (s : State) (t : Nat) (r : Report) (rest : List Report),
      s.fc.coll = r :: rest ∧ r.level = 1 ∧ r.cls < 6 ∧ s.safe = false ∧ ((r.part < 16 → s.resetting r.part = false)) ∧
      s.pendingBit r.cls r.scope = false) ∧
    (∃ (s : State) (t : Nat) (r : Report) (rest : List Report),
      s.fc.coll = r :: rest ∧ r.level = 1 ∧ r.cls < 6 ∧ s.safe = false ∧ r.part < 16 ∧ s.hngState r.part = 0 ∧ s.gal.camp = none ∧
      s.pendingBit r.cls r.part = true) ∧
    (∃ (s : State) (t : Nat) (r : Report) (rest : List Report),
      s.fc.coll = r :: rest ∧ r.level = 3 ∧ s.safe = false) ∧
    (∃ (s : State) (t : Nat) (r : Report) (rest : List Report),
      s.fc.coll = r :: rest ∧ 1 ≤ r.level ∧ s.safe = true) ∧
    (∃ (s : State) (t c sc due : Nat),
      c < 7 ∧ sc < 17 ∧ (c, sc, due) ∈ s.fc.autoClr ∧ due ≤ max s.now t) ∧
    (∃ (s : State) (t : Nat) (e : FEntry) (l : List FEntry),
      s.Inv ∧ s.fwUp = true ∧ s.fc.ring = e :: l ∧ ((∀ x, l.head? = some x → x.seq = s.fc.mirrored)) ∧ e.seq ≠ s.fc.mirrored ∧
      e.seq = nextSeq s.fc.mirrored) :=
  ⟨⟨xFaultCollection_1, 100, 0x30, (rp 1), ([rp 0]), by decide +kernel, by decide +kernel, by decide +kernel⟩,
   ⟨xFaultCollection_2, 100, 127, xFaultCollection_2_x, by decide +kernel, by decide +kernel, by decide +kernel, by decide +kernel⟩,
   ⟨xFaultCollection_3, 10005, 127, xFaultCollection_3_x, by decide +kernel, by decide +kernel, by decide +kernel, by decide +kernel⟩,
   ⟨(withColl wUp [rp 0, rp 1]), 100, (rp 0), ([rp 1]), by decide +kernel, by decide +kernel⟩,
   ⟨(withColl wUp [rp 1]), 100, (rp 1), ([]), by decide +kernel, by decide +kernel, by decide +kernel, by decide +kernel, by decide +kernel,
    by decide +kernel⟩,
   ⟨xFaultCollection_6, 100, (rp 1), ([]), by decide +kernel, by decide +kernel, by decide +kernel, by decide +kernel, by decide +kernel,
    by decide +kernel, by decide +kernel, by decide +kernel⟩,
   ⟨(withColl wMat [rp 3]), 100, (rp 3), ([]), by decide +kernel, by decide +kernel, by decide +kernel⟩,
   ⟨xFaultCollection_8, 100, (rp 2), ([]), by decide +kernel, by decide +kernel, by decide +kernel⟩,
   ⟨xFaultCollection_10, 100, 0, 0, 100, by decide +kernel, by decide +kernel, by decide +kernel, by decide +kernel⟩,
   ⟨xFaultCollection_12, 100, (fe 2), ([fe 1]), by unfold State.Inv; decide +kernel, by decide +kernel, by decide +kernel, by decide +kernel,
    by decide +kernel, by decide +kernel⟩⟩

def xFaultMessages_1 : State := { wUp with fc := { ring := [fe 2, fe 1], seq := 2 } }
def xFaultMessages_2 : State := wUp.wr F.FC_PEND_PARTITIONS 3 0
def xFaultMessages_3 : State := { wUp with fc := { hist := [fe 2, fe 1] } }

/-- Hypotheses of FaultMessages: for each clause, a state and operands that meet them. -/
theorem met_FaultMessages :
    (∃ (s : State) (t from_ n : Nat) (h : MbxHdr),
      takes s h ∧ 1 ≤ from_ ∧ from_ < 2 ^ 32 ∧ n ≤ 63 ∧ s.mbxCheck h { feat := some 2, safeOk := true } = none) ∧
    (∃ (s : State) (t classes scopes : Nat) (h : MbxHdr),
      takes s h ∧ classes < 128 ∧ scopes < 2 ^ 17 ∧
      s.mbxCheck h { feat := some 2, safeOk := true, parts := below 17 (fun k => scopes.testBit k) } = none) ∧
    (∃ (s : State) (t pos n : Nat) (h : MbxHdr),
      takes s h ∧ pos < 8192 ∧ n ≤ 63 ∧ s.mbxCheck h { feat := some 2, safeOk := true } = none) ∧
    (∃ (s : State) (t clear : Nat) (h : MbxHdr),
      takes s h ∧ clear < 128 ∧ s.mbxCheck h { feat := some 2, safeOk := true, mgmt := decide (clear ≠ 0) } = none) :=
  ⟨⟨xFaultMessages_1, 100, 1, 63, h0, by unfold takes; decide +kernel, by decide +kernel, by decide +kernel, by decide +kernel, by decide +kernel⟩,
   ⟨xFaultMessages_2, 100, 127, (2 ^ 17 - 1), h0, by unfold takes; decide +kernel, by decide +kernel, by decide +kernel, by decide +kernel⟩,
   ⟨xFaultMessages_3, 100, 1, 63, h0, by unfold takes; decide +kernel, by decide +kernel, by decide +kernel, by decide +kernel⟩,
   ⟨(wUp.wr F.FC_REC_HI 5 0 2), 100, 1, h0, by unfold takes; decide +kernel, by decide +kernel, by decide +kernel⟩⟩

def xGalleryAndCampanile_1 : State :=
  { wSeq x0 with jobs := [{ jC with ended := true, sampled := true, wlog := [1] }], echoes := [{ jC with echo := true, wlog := [1] }] }
def xGalleryAndCampanile_1_j : Job := { jC with ended := true, sampled := true, wlog := [1] }
def xGalleryAndCampanile_1_e : Job := { jC with echo := true, wlog := [1] }
def xGalleryAndCampanile_2 : State :=
  { wSeq x0 with jobs := [{ jC with ended := true, sampled := true, wlog := [1] }], echoes := [{ jC with echo := true, wlog := [1] }] }
def xGalleryAndCampanile_2_j : Job := { jC with ended := true, sampled := true, wlog := [1] }
def xGalleryAndCampanile_2_e : Job := { jC with echo := true, wlog := [1] }
def xGalleryAndCampanile_3 : State := { wSeq x0 with jobs := [{ jC with echo := true, divert := List.replicate (divertBytes + 1) (0, 0) }] }
def xGalleryAndCampanile_3_e : Job := { jC with echo := true, divert := List.replicate (divertBytes + 1) (0, 0) }
def xGalleryAndCampanile_4 : State := { wUp with gal := { mism := [mm0] } }
def xGalleryAndCampanile_5 : State := { wUp with gal := { mism := [mm0] } }
def xGalleryAndCampanile_6 : State := (wUp.wr F.GAL_GOAL_GALLERY 1 0).wr F.GAL_GOAL_GOAL 1 0 |>.wr F.GAL_GOAL_ECHO_CEIL 3 0
def xGalleryAndCampanile_8 : State := { wUp with gal := { warned := [(5, 15, 100)] } }

/-- Hypotheses of GalleryAndCampanile: for each clause, a state and operands that meet them. -/
theorem met_GalleryAndCampanile_1 :
    (∃ (s : State) (t g c k : Nat) (j e : Job),
      g < 16 ∧ c < 8 ∧ (s.jobsOf g c)[k]? = some j ∧ j.sampled = true ∧ (s.jobOutcome j).isSome = true ∧
      s.echoes.find? (fun e => decide (e.g = g) && decide (e.c = c) && decide (e.idx = j.idx) && (e.alt == j.alt)) = some e ∧
      s.writeDigest j = s.writeDigest e) ∧
    (∃ (s : State) (t g c k : Nat) (j e : Job),
      g < 16 ∧ c < 8 ∧ (s.jobsOf g c)[k]? = some j ∧ j.sampled = true ∧ (s.jobOutcome j).isSome = true ∧
      s.echoes.find? (fun e => decide (e.g = g) && decide (e.c = c) && decide (e.idx = j.idx) && (e.alt == j.alt)) = some e ∧ j.step < 2 ^ 32) ∧
    (∃ (s : State) (t g c : Nat) (e : Job),
      g < 16 ∧ c < 8 ∧ s.jobs.find? (fun k => k.echo && decide (k.g = g) && decide (k.c = c)) = some e ∧ e.dropped = false ∧
      divertBytes < e.divert.length) ∧
    (∃ (s : State) (t p : Nat) (x : Mismatch),
      p < 16 ∧ s.gal.mism.find? (fun x => x.p = p) = some x) ∧
    (∃ (s : State) (t p : Nat) (x : Mismatch),
      p < 16 ∧ s.gal.mism.find? (fun x => x.p = p) = some x) ∧
    (∃ (s : State) (t p : Nat),
      p < 16 ∧ s.fwUp = true ∧ s.on F.GAL_GOAL_GALLERY p = true ∧ s.on F.GAL_GOAL_GOAL p = true ∧
      ((∀ x, aget s.gal.rateAt p = some x → x + 60000000000 ≤ max s.now t))) ∧
    (∃ (s : State) (t cause i : Nat) (v : Int),
      i < warnInstances cause ∧ s.fwUp = true ∧ s.crosses cause i v = true ∧
      ((∀ w, w ∈ s.gal.warned → w.1 = cause → w.2.1 = i → w.2.2 + 600000000000 ≤ max s.now t))) ∧
    (∃ (s : State) (t cause i at_ : Nat) (v : Int),
      i < warnInstances cause ∧ (cause, i, at_) ∈ s.gal.warned ∧ max s.now t < at_ + 600000000000) :=
  ⟨⟨xGalleryAndCampanile_1, 100, 0, 0, 0, xGalleryAndCampanile_1_j, xGalleryAndCampanile_1_e, by decide +kernel, by decide +kernel, by decide +kernel,
    by decide +kernel, by decide +kernel, by decide +kernel, by decide +kernel⟩,
   ⟨xGalleryAndCampanile_2, 100, 0, 0, 0, xGalleryAndCampanile_2_j, xGalleryAndCampanile_2_e, by decide +kernel, by decide +kernel, by decide +kernel,
    by decide +kernel, by decide +kernel, by decide +kernel, by decide +kernel⟩,
   ⟨xGalleryAndCampanile_3, 100, 0, 0, xGalleryAndCampanile_3_e, by decide +kernel, by decide +kernel, rfl, by decide +kernel,
    by rw [show xGalleryAndCampanile_3_e.divert = List.replicate (divertBytes + 1) (0, 0) from rfl, List.length_replicate]; omega⟩,
   ⟨xGalleryAndCampanile_4, 100, 0, mm0, by decide +kernel, by decide +kernel⟩,
   ⟨xGalleryAndCampanile_5, 100, 0, mm0, by decide +kernel, by decide +kernel⟩,
   ⟨xGalleryAndCampanile_6, 100, 0, by decide +kernel, by decide +kernel, by decide +kernel, by decide +kernel, by decide +kernel⟩,
   ⟨wUp, 100, 5, 15, 0, by decide +kernel, by decide +kernel, by decide +kernel, by decide +kernel⟩,
   ⟨xGalleryAndCampanile_8, 100, 5, 15, 100, 0, by decide +kernel, by decide +kernel, by decide +kernel⟩⟩

def xGalleryAndCampanile_10 : State := { wUp with sec := { wUp.sec with flash := { buckets := [(800 * 271 + 799, 15)] } } }
def xGalleryAndCampanile_11 : State :=
  { wUp with sec := { wUp.sec with flash := { buckets := [(800 * 271 + 799, 15), (800 * 271 - 1, 3), (800 * 272, 3)] } } }
def xGalleryAndCampanile_13_q : CampReq := ⟨some 3, 0, 17, 0⟩
def xGalleryAndCampanile_14 : State := (wUp.wr F.SPR_STATUS_ROLE 1 3).wr F.TUR_STATUS_RUNNING 1 0
def xGalleryAndCampanile_14_q : CampReq := ⟨some 3, 0, 17, 0⟩
def xGalleryAndCampanile_15 : State :=
  { wUp.wr F.SPR_STATUS_ROLE 4 3 with gal := { camp := some { target := some 3, p := 0, parts := 17, setPointC := 0, beganAt := 0, roles := [(3, 1)] } } }
def xGalleryAndCampanile_15_c : CampRun := { target := some 3, p := 0, parts := 17, setPointC := 0, beganAt := 0, roles := [(3, 1)] }
def xGalleryAndCampanile_16 : State := { wUp with gal := { ranges := [(1, 2, 3)] } }

/-- Hypotheses of GalleryAndCampanile: for each clause, a state and operands that meet them. -/
theorem met_GalleryAndCampanile_2 :
    (∃ (s : State) (t : Nat) (h : MbxHdr),
      takes s h ∧ s.mbxCheck h { feat := some 2 } = none) ∧
    (∃ (s : State) (t pa : Nat) (h : MbxHdr),
      takes s h ∧ pa < 272 ∧ s.mbxCheck h { feat := some 2, parts := (s.partOf (pa / 17)).toList } = none) ∧
    (∃ (s : State) (t pa : Nat) (h : MbxHdr),
      takes s h ∧ pa < 272 ∧ s.mbxCheck h { feat := some 2, mgmt := true } = none) ∧
    (∃ (s : State) (t cause : Nat) (v : Int) (h : MbxHdr),
      takes s h ∧ cause < 7 ∧ s.mbxCheck h { feat := some 2, mgmt := true } = none) ∧
    (∃ (s : State) (t pa p : Nat) (q : CampReq) (h : MbxHdr),
      takes s h ∧ q.target = some pa ∧ s.campFields q = true ∧ s.partOf (pa / 17) = some p ∧
      s.mbxCheck h { feat := some 2, mgmt := true, stage := stDome } = none ∧ s.gal.camp = none ∧
      ((s.rd F.SPR_STATUS_ROLE pa = 1 → s.quiesced p = true))) ∧
    (∃ (s : State) (t pa p : Nat) (q : CampReq) (h : MbxHdr),
      takes s h ∧ q.target = some pa ∧ s.campFields q = true ∧ s.partOf (pa / 17) = some p ∧
      s.mbxCheck h { feat := some 2, mgmt := true, stage := stDome } = none ∧ s.gal.camp = none ∧ s.rd F.SPR_STATUS_ROLE pa = 1 ∧
      s.quiesced p = false) ∧
    (∃ (s : State) (t failed pa role : Nat) (c : CampRun) (ranges : List (Nat × Nat × Nat)),
      s.gal.camp = some c ∧ c.target = some pa ∧ s.rd F.SPR_STATUS_ROLE pa = 4 ∧ c.roles = [(pa, role)] ∧ role < 8) ∧
    (∃ (s : State) (t : Nat) (h : MbxHdr),
      takes s h ∧ s.mbxCheck h { feat := some 2, mgmt := true } = none) :=
  ⟨⟨(wUp.wr F.GAL_CNT_ECHOES 4 0), 100, h0, by unfold takes; decide +kernel, by decide +kernel⟩,
   ⟨xGalleryAndCampanile_10, 100, 271, h0, by unfold takes; decide +kernel, by decide +kernel, by decide +kernel⟩,
   ⟨xGalleryAndCampanile_11, 100, 271, h0, by unfold takes; decide +kernel, by decide +kernel, by decide +kernel⟩,
   ⟨wUp, 100, 6, (-5), h0, by unfold takes; decide +kernel, by decide +kernel, by decide +kernel⟩,
   ⟨(wUp.wr F.SPR_STATUS_ROLE 1 3), 100, 3, 0, xGalleryAndCampanile_13_q, h0, by unfold takes; decide +kernel, by decide +kernel, by decide +kernel,
    by decide +kernel, by decide +kernel, by decide +kernel, by decide +kernel⟩,
   ⟨xGalleryAndCampanile_14, 100, 3, 0, xGalleryAndCampanile_14_q, h0, by unfold takes; decide +kernel, by decide +kernel, by decide +kernel,
    by decide +kernel, by decide +kernel, by decide +kernel, by decide +kernel, by decide +kernel⟩,
   ⟨xGalleryAndCampanile_15, 100, 31, 3, 1, xGalleryAndCampanile_15_c, ([]), by decide +kernel, by decide +kernel, by decide +kernel,
    by decide +kernel, by decide +kernel⟩,
   ⟨xGalleryAndCampanile_16, 100, h0, by unfold takes; decide +kernel, by decide +kernel⟩⟩

def xLedgerEngine_1 : State := wLed {}
def xLedgerEngine_2 : State := wLed { sqTail := 3 }
def xLedgerEngine_3 : State := (wLed {}).wr F.LDG_STATUS_HALTED 1 0
def xLedgerEngine_4 : State := (wLed {}).wr F.LDG_STATUS_HALTED 1 0
def xLedgerEngine_5 : State := wLed { extra := [natLe 64 9, cSend] }
def xLedgerEngine_6 : State := wLed { extra := [cSend, cBatch] }
def xLedgerEngine_6_s₁ : State :=
  ((((xLedgerEngine_6).tick (100)).setLedger (0) { (xLedgerEngine_6).ledger (0) with extra := ([cBatch]) }).devRead 4 0x56 (0) (leAt (cSend) 8 6) (64 * (1))).2.2.2
def xLedgerEngine_7 : State := wLed { run := some { cmd := cSend, ring := false, sent := true, tag := 4 } }
def xLedgerEngine_7_r : LedRun := { cmd := cSend, ring := false, sent := true, tag := 4 }
def xLedgerEngine_8 : State := wLed { extra := [cBatch] }
def xLedgerEngine_9 : State := wLed { extra := [cResend] }
def xLedgerEngine_10 : State := (wLed {}).wr F.LDG_STATUS_FULL 1 0

/-- Hypotheses of LedgerEngine: for each clause, a state and operands that meet them. -/
theorem met_LedgerEngine_1 :
    (∃ (s : State) (t p value : Nat) (who : Requester),
      p < 16 ∧ ((who = .mgt ∨ who = .pf0 ∨ who = .bfy p)) ∧ value.testBit 31 = false ∧
      ahead (bits value 0 16) (s.rd F.LDG_STATUS_SQ_HEAD p) ≤ 2 ^ max 4 (s.rd F.LDG_SQ_LOG2 p) ∧
      ahead (s.ledger p).sqTail (s.rd F.LDG_STATUS_SQ_HEAD p) ≤ ahead (bits value 0 16) (s.rd F.LDG_STATUS_SQ_HEAD p)) ∧
    (∃ (s : State) (t p value : Nat) (who : Requester),
      p < 16 ∧ ((who = .mgt ∨ who = .pf0 ∨ who = .bfy p)) ∧ value.testBit 31 = false ∧
      ((2 ^ max 4 (s.rd F.LDG_SQ_LOG2 p) < ahead (bits value 0 16) (s.rd F.LDG_STATUS_SQ_HEAD p) ∨ ahead (bits value 0 16) (s.rd F.LDG_STATUS_SQ_HEAD p) < ahead (s.ledger p).sqTail (s.rd F.LDG_STATUS_SQ_HEAD p)))) ∧
    (∃ (s : State) (t p value : Nat) (who : Requester),
      p < 16 ∧ ((who = .mgt ∨ who = .pf0 ∨ who = .bfy p)) ∧ value.testBit 31 = true) ∧
    (∃ (s : State) (t p : Nat) (who : Requester),
      p < 16 ∧ ((who = .mgt ∨ who = .pf0 ∨ who = .bfy p))) ∧
    (∃ (s : State) (t p : Nat) (c : Bytes) (l : List Bytes),
      p < 16 ∧ s.on F.LDG_SQ_ENABLE p = true ∧ s.on F.LDG_STATUS_HALTED p = false ∧ s.on F.LDG_STATUS_FULL p = false ∧
      (s.ledger p).run = none ∧ s.free_ p = true ∧ (s.ledger p).extra = c :: l ∧ leAt c 0 1 ≠ 2 ∧ leAt c 0 1 ≠ 3 ∧
      ((s.ledUnits p = 0 ∨ cmdBad c = true))) ∧
    (∃ (s s₁ : State) (t p n : Nat) (c b : Bytes) (l : List Bytes),
      s.Inv ∧ p < 16 ∧ s.on F.LDG_SQ_ENABLE p = true ∧ s.on F.LDG_STATUS_HALTED p = false ∧ s.on F.LDG_STATUS_FULL p = false ∧
      (s.ledger p).run = none ∧ s.free_ p = true ∧ (s.ledger p).extra = c :: l ∧ leAt c 0 1 = 1 ∧ cmdBad c = false ∧ n = leAt c 20 2 + 1 ∧
      ((s.tick t).setLedger p { s.ledger p with extra := l }).devRead 4 0x56 p (leAt c 8 6) (64 * n) = (none, b, false, s₁) ∧
      s.ledUsed p + 1 + n ≤ s.ledUnits p ∧ s.ledUnits p ≤ 2 ^ 36) ∧
    (∃ (s : State) (t p : Nat) (r : LedRun),
      p < 16 ∧ (s.ledger p).run = some r ∧ r.sent = true ∧ leAt r.cmd 0 1 = 1 ∧ s.tagBusy r.tag = false) ∧
    (∃ (s : State) (t p : Nat) (c : Bytes) (l : List Bytes),
      s.Inv ∧ p < 16 ∧ s.on F.LDG_SQ_ENABLE p = true ∧ s.on F.LDG_STATUS_HALTED p = false ∧ s.on F.LDG_STATUS_FULL p = false ∧
      (s.ledger p).run = none ∧ s.free_ p = true ∧ (s.ledger p).extra = c :: l ∧ leAt c 0 1 = 2 ∧ cmdBad c = false ∧ leAt c 4 2 = 0xFFFF ∧
      s.ledUsed p + 1 ≤ s.ledUnits p ∧ s.ledUnits p ≤ 2 ^ 36) ∧
    (∃ (s : State) (t p : Nat) (c : Bytes) (l : List Bytes),
      p < 16 ∧ s.on F.LDG_SQ_ENABLE p = true ∧ s.on F.LDG_STATUS_HALTED p = false ∧ (s.ledger p).run = none ∧ s.free_ p = true ∧
      (s.ledger p).extra = c :: l ∧ leAt c 0 1 = 3 ∧ cmdBad c = false ∧ 0 < s.ledUnits p) ∧
    (∃ (s : State) (t p : Nat),
      p < 16 ∧ s.on F.LDG_STATUS_FULL p = true ∧ (s.ledger p).run = none ∧ (s.ledger p).exports = []) :=
  ⟨⟨xLedgerEngine_1, 100, 0, 16, (.bfy 0), by decide +kernel, by decide +kernel, by decide +kernel, by decide +kernel, by decide +kernel⟩,
   ⟨xLedgerEngine_2, 100, 0, 2, .pf0, by decide +kernel, by decide +kernel, by decide +kernel, by decide +kernel⟩,
   ⟨xLedgerEngine_3, 100, 0, (2 ^ 31 + 16), (.bfy 0), by decide +kernel, by decide +kernel, by decide +kernel⟩,
   ⟨xLedgerEngine_4, 100, 0, .pf0, by decide +kernel, by decide +kernel⟩,
   ⟨xLedgerEngine_5, 100, 0, (natLe 64 9), ([cSend]), by decide +kernel, by decide +kernel, by decide +kernel, by decide +kernel, by decide +kernel,
    by decide +kernel, by decide +kernel, by decide +kernel, by decide +kernel, by decide +kernel⟩,
   ⟨xLedgerEngine_6, xLedgerEngine_6_s₁, 100, 0, 1, cSend, (natLe 64 0), ([cBatch]), by unfold State.Inv; decide +kernel, by decide +kernel,
    by decide +kernel, by decide +kernel, by decide +kernel, by decide +kernel, by decide +kernel, by decide +kernel, by decide +kernel,
    by decide +kernel, by decide +kernel, by decide +kernel, by decide +kernel, by decide +kernel⟩,
   ⟨xLedgerEngine_7, 100, 0, xLedgerEngine_7_r, by decide +kernel, by decide +kernel, by decide +kernel, by decide +kernel, by decide +kernel⟩,
   ⟨xLedgerEngine_8, 100, 0, cBatch, ([]), by unfold State.Inv; decide +kernel, by decide +kernel, by decide +kernel, by decide +kernel,
    by decide +kernel, by decide +kernel, by decide +kernel, by decide +kernel, by decide +kernel, by decide +kernel, by decide +kernel,
    by decide +kernel, by decide +kernel⟩,
   ⟨xLedgerEngine_9, 100, 0, cResend, ([]), by decide +kernel, by decide +kernel, by decide +kernel, by decide +kernel, by decide +kernel,
    by decide +kernel, by decide +kernel, by decide +kernel, by decide +kernel⟩,
   ⟨xLedgerEngine_10, 100, 0, by decide +kernel, by decide +kernel, by decide +kernel, by decide +kernel⟩⟩

def xLedgerEngine_11 : State := wLed { inQ := [fields 64 [(0, 1, 3), (8, 4, 41)]] }
def xLedgerEngine_12 : State := (wLed { inQ := [fields 64 [(0, 1, 3), (8, 4, 41)]] }).wr F.LDG_APPENDED_APPENDED 5 0
def xLedgerEngine_13 : State :=
  (wLed { checks := [(3, 100)] }).wrBytes (8400 * 65536 + 192) (fields 32 [(0, 1, 1), (24, 6, A)] ++ (shake256 (natLe 64 0)).take 32)
def xLedgerEngine_14 : State := (wLed { checks := [(3, 100)] }).wrBytes (8400 * 65536 + 192) (fields 64 [(0, 1, 1), (24, 6, A), (32, 1, 1)])
def xLedgerEngine_15 : State := (((wLed {}).wr F.LDG_APPENDED_APPENDED 1 0).wr F.LDG_FLOOR_LAST_COMMIT 41 0).wr F.LDG_HEAD_HEAD 1 0
def xLedgerEngine_16 : State := wLed {}
def xLedgerEngine_17 : State := wLed {}
def xLedgerEngine_18 : State := wLed {}
def xLedgerEngine_19 : State := wLed {}
def xLedgerEngine_20 : State := wLed {}

/-- Hypotheses of LedgerEngine: for each clause, a state and operands that meet them. -/
theorem met_LedgerEngine_2 :
    (∃ (s : State) (t p : Nat) (r : Bytes) (l : List Bytes),
      s.Inv ∧ p < 16 ∧ (s.ledger p).inQ = r :: l ∧ r.length = 64 ∧ (recFlags r).testBit 0 = false ∧ recKind r = 3 ∧
      s.ledUsed p + 1 ≤ s.ledUnits p ∧ s.ledUnits p ≤ 2 ^ 36) ∧
    (∃ (s : State) (t p : Nat) (r : Bytes) (l : List Bytes),
      p < 16 ∧ (s.ledger p).inQ = r :: l ∧ (recFlags r).testBit 0 = false ∧ s.ledUnits p < s.ledUsed p + 1 ∧ s.on F.LDG_STATUS_FULL p = false) ∧
    (∃ (s : State) (t p : Nat) (c : Nat × Nat),
      p < 16 ∧ (s.ledger p).checks = [c] ∧ c.2 ≤ max s.now t ∧
      (((s.tick t).setLedger p { s.ledger p with checks := [] }).inboxMatches p (s.ledRead p c.1 1)).1 = true) ∧
    (∃ (s : State) (t p : Nat) (c : Nat × Nat),
      p < 16 ∧ (s.ledger p).checks = [c] ∧ c.2 ≤ max s.now t ∧
      (((s.tick t).setLedger p { s.ledger p with checks := [] }).inboxMatches p (s.ledRead p c.1 1)).1 = false) ∧
    (∃ (s : State) (t p value v : Nat) (who : Requester),
      p < 16 ∧ ((who = .mgt ∨ who = .pf0 ∨ who = .bfy p)) ∧ v = min (value % 2 ^ 32) (s.rd F.LDG_FLOOR_LAST_COMMIT p + 1) ∧ v < 2 ^ 32 ∧
      s.rd F.LDG_FLOOR_FLOOR p < v ∧ s.ledLive p = 1 ∧ (s.ledger p).holes = [] ∧ recStep (s.ledRead p (s.rd F.LDG_TAIL_TAIL p) 1) < v ∧
      0 < s.ledUnits p ∧ s.ledUnits p ≤ 2 ^ 36) ∧
    (∃ (s : State) (t p value : Nat) (who : Requester),
      p < 16 ∧ ((who = .mgt ∨ who = .pf0 ∨ who = .bfy p)) ∧
      (min (value % 2 ^ 32) (s.rd F.LDG_FLOOR_LAST_COMMIT p + 1) ≤ s.rd F.LDG_FLOOR_FLOOR p)) ∧
    (∃ (s : State) (t p v value : Nat) (c : Instr),
      p < 16 ∧ ((c = .ldgFloorWrite t (.vf v) p value ∨ c = .ldgDbWrite t (.vf v) p value ∨ c = .ledgerResume t (.vf v) p))) ∧
    (∃ (s : State) (t p q value : Nat) (c : Instr),
      p < 16 ∧ q ≠ p ∧ ((c = .ldgFloorWrite t (.bfy q) p value ∨ c = .ldgDbWrite t (.bfy q) p value ∨ c = .ledgerResume t (.bfy q) p))) ∧
    (∃ (s : State) (t p : Nat) (c : Bytes) (h : MbxHdr),
      takes s h ∧ p < 16 ∧ s.hasPart p = true ∧ c.length = 64 ∧ s.mbxCheck h { feat := some 2, parts := [p], stage := stDome } = none) ∧
    (∃ (s : State) (t : Nat) (h : MbxHdr),
      takes s h ∧ s.mbxCheck h { feat := some 2 } = none) :=
  ⟨⟨xLedgerEngine_11, 100, 0, (fields 64 [(0, 1, 3), (8, 4, 41)]), ([]), by unfold State.Inv; decide +kernel, by decide +kernel, by decide +kernel,
    by decide +kernel, by decide +kernel, by decide +kernel, by decide +kernel, by decide +kernel⟩,
   ⟨xLedgerEngine_12, 100, 0, (fields 64 [(0, 1, 3), (8, 4, 41)]), ([]), by decide +kernel, by decide +kernel, by decide +kernel, by decide +kernel,
    by decide +kernel⟩,
   ⟨xLedgerEngine_13, 100, 0, ((3, 100)), by decide +kernel, by decide +kernel, by decide +kernel, by decide +kernel⟩,
   ⟨xLedgerEngine_14, 100, 0, ((3, 100)), by decide +kernel, by decide +kernel, by decide +kernel, by decide +kernel⟩,
   ⟨xLedgerEngine_15, 100, 0, (2 ^ 32 - 1), 42, .pf0, by decide +kernel, by decide +kernel, by decide +kernel, by decide +kernel, by decide +kernel,
    by decide +kernel, by decide +kernel, by decide +kernel, by decide +kernel, by decide +kernel⟩,
   ⟨xLedgerEngine_16, 100, 0, (2 ^ 32), .pf0, by decide +kernel, by decide +kernel, by decide +kernel⟩,
   ⟨xLedgerEngine_17, 100, 0, 3, 3, (.ldgFloorWrite (100) (.vf (3)) (0) (3)), by decide +kernel, by decide +kernel⟩,
   ⟨xLedgerEngine_18, 100, 0, 3, 3, (.ldgDbWrite (100) (.bfy (3)) (0) (3)), by decide +kernel, by decide +kernel, by decide +kernel⟩,
   ⟨xLedgerEngine_19, 100, 0, cSend, h0, by unfold takes; decide +kernel, by decide +kernel, by decide +kernel, by decide +kernel, by decide +kernel⟩,
   ⟨xLedgerEngine_20, 100, h0, by unfold takes; decide +kernel, by decide +kernel⟩⟩

def xSnapshotsAndRestore_1 : State := wCut {}
def xSnapshotsAndRestore_2 : State := wCut {}
def xSnapshotsAndRestore_3 : State := wCut {}
def xSnapshotsAndRestore_4 : State := wCut {}
def xSnapshotsAndRestore_5 : State := wCut {}
def xSnapshotsAndRestore_6 : State := (wCut { arming := true }).wr F.SNP_TABLE_SHARDS 2 0
def xSnapshotsAndRestore_7 : State := { wCut { arming := true } with curSteps := [(0, 41)] }
def xSnapshotsAndRestore_8 : State := (wCut { pages := [101], drains := [dr0] }).wr F.PGM_CUT_ACTIVE 1 0

/-- Hypotheses of SnapshotsAndRestore: for each clause, a state and operands that meet them. -/
theorem met_SnapshotsAndRestore_1 :
    (∃ (s : State) (t p : Nat),
      p < 16 ∧ s.stage = stFinial ∧ s.cuts p = true ∧ (s.snap p).armedAt + s.rd F.SNP_CFG_INTERVAL_MS p * 1000000 ≤ max s.now t) ∧
    (∃ (s : State) (t p : Nat) (who : Requester),
      p < 16 ∧ ((who = .mgt ∨ who = .pf0 ∨ who = .bfy p))) ∧
    (∃ (s : State) (t p v : Nat),
      p < 16) ∧
    (∃ (s : State) (t p q : Nat),
      p < 16 ∧ q ≠ p) ∧
    (∃ (s : State) (t p : Nat) (h : MbxHdr),
      takes s h ∧ p < 16 ∧ s.hasPart p = true ∧ s.mbxCheck h { feat := some 2, parts := [p], stage := stDome } = none) ∧
    (∃ (s : State) (t p : Nat),
      p < 16 ∧ (s.snap p).arming = true ∧ s.tableOk p = false ∧ (s.snap p).heldAdv = [] ∧ s.memx.cowHolds = []) ∧
    (∃ (s : State) (t p : Nat),
      s.Inv ∧ p < 16 ∧ (s.snap p).arming = true ∧ s.tableOk p = true ∧ (s.snap p).heldAdv = [] ∧ s.memx.cowHolds = []) ∧
    (∃ (s : State) (t p : Nat) (d : MirrorDrain),
      p < 16 ∧ s.safe = false ∧ s.on F.PGM_CUT_ACTIVE p = true ∧ (s.snap p).drains = [d] ∧ d.ended = none ∧ d.opened = true ∧
      d.sealed = false ∧ d.sent < (s.snap p).pages.length) :=
  ⟨⟨xSnapshotsAndRestore_1, 1000000, 0, by decide +kernel, by decide +kernel, by decide +kernel, by decide +kernel⟩,
   ⟨xSnapshotsAndRestore_2, 100, 0, .pf0, by decide +kernel, by decide +kernel⟩,
   ⟨xSnapshotsAndRestore_3, 100, 0, 1, by decide +kernel⟩,
   ⟨xSnapshotsAndRestore_4, 100, 0, 1, by decide +kernel, by decide +kernel⟩,
   ⟨xSnapshotsAndRestore_5, 100, 0, h0, by unfold takes; decide +kernel, by decide +kernel, by decide +kernel, by decide +kernel⟩,
   ⟨xSnapshotsAndRestore_6, 100, 0, by decide +kernel, by decide +kernel, by decide +kernel, by decide +kernel, by decide +kernel⟩,
   ⟨xSnapshotsAndRestore_7, 100, 0, by unfold State.Inv; decide +kernel, by decide +kernel, by decide +kernel, by decide +kernel, by decide +kernel,
    by decide +kernel⟩,
   ⟨xSnapshotsAndRestore_8, 100, 0, dr0, by decide +kernel, by decide +kernel, by decide +kernel, by decide +kernel, by decide +kernel,
    by decide +kernel, by decide +kernel, by decide +kernel⟩⟩

def xSnapshotsAndRestore_9 : State := (wCut { pages := [101], drains := [{ dr0 with sent := 1 }] }).wr F.PGM_CUT_ACTIVE 1 0
def xSnapshotsAndRestore_9_d : MirrorDrain := { dr0 with sent := 1 }
def xSnapshotsAndRestore_10 : State := (wCut { pages := [101], armedAt := 5, drains := [{ dr0 with sealed := true }] }).wr F.PGM_CUT_ACTIVE 1 0
def xSnapshotsAndRestore_10_d : MirrorDrain := { dr0 with sealed := true }
def xSnapshotsAndRestore_10_a : SlotAns := { a := si0, b := { si0 with state := 1 }, base := 8300, len := 36, two := true }
def xSnapshotsAndRestore_11 : State := (wCut { pages := [101], drains := [{ dr0 with opened := false }] }).wr F.PGM_CUT_ACTIVE 1 0
def xSnapshotsAndRestore_11_d : MirrorDrain := { dr0 with opened := false }
def xSnapshotsAndRestore_12 : State := wCut {}
def xSnapshotsAndRestore_13 : State := wCut {}
def xSnapshotsAndRestore_14 : State := (wCut {}).wr F.STW_CMD_ACTIVE 1 0 3
def xSnapshotsAndRestore_15 : State := { wCut {} with restores := [(0, { req := req0, h := h0, begun := 0 })] }
def xSnapshotsAndRestore_15_r : RestoreRun := { req := req0, h := h0, begun := 0 }

/-- Hypotheses of SnapshotsAndRestore: for each clause, a state and operands that meet them. -/
theorem met_SnapshotsAndRestore_2 :
    (∃ (s : State) (t p : Nat) (d : MirrorDrain),
      p < 16 ∧ s.safe = false ∧ s.on F.PGM_CUT_ACTIVE p = true ∧ (s.snap p).drains = [d] ∧ d.ended = none ∧ d.opened = true ∧
      d.sealed = false ∧ d.sent = (s.snap p).pages.length) ∧
    (∃ (s : State) (t p r st : Nat) (m : Nat × Nat × Nat) (d : MirrorDrain) (a : SlotAns),
      p < 16 ∧ (s.mirrors p).find? (fun m => m.1 = r) = some m ∧ (s.snap p).drains = [d] ∧ d.r = r ∧ d.ended = none ∧ d.opened = true ∧
      d.sealed = true ∧ st = (if d.slot = 0 then a.a else a.b).state ∧ ((st = 2 ∨ st = 3))) ∧
    (∃ (s : State) (t p r : Nat) (m : Nat × Nat × Nat) (d : MirrorDrain),
      p < 16 ∧ (s.mirrors p).find? (fun m => m.1 = r) = some m ∧ (s.snap p).drains = [d] ∧ d.r = r ∧ d.ended = none ∧ d.opened = false) ∧
    (∃ (s : State) (t : Nat) (h : MbxHdr),
      takes s h ∧ s.mbxCheck h { feat := some 2 } = none) ∧
    (∃ (s : State) (t : Nat) (h : MbxHdr) (q : RestoreReq),
      takes s h ∧ q.p < 16 ∧ s.hasPart q.p = true ∧ s.mbxCheck h { feat := some 2, mgmt := true, stage := stFinial } = none ∧
      aget s.restores q.p = none ∧ s.quiesced q.p = true ∧ q.dryRun = false) ∧
    (∃ (s : State) (t : Nat) (h : MbxHdr) (q : RestoreReq),
      takes s h ∧ q.p < 16 ∧ s.hasPart q.p = true ∧ s.mbxCheck h { feat := some 2, mgmt := true, stage := stFinial } = none ∧
      aget s.restores q.p = none ∧ s.quiesced q.p = false) ∧
    (∃ (s s₁ : State) (t p : Nat) (r : RestoreRun) (e : RestoreEnd),
      p < 16 ∧ s.safe = false ∧ aget s.restores p = some r ∧
      r.req.sources.all (fun x => r.ready (max s.now t) x || r.lost (max s.now t) x) = true ∧
      ((∀ a, r.failedAt = some a → a + 1000000 ≤ max s.now t)) ∧ (s.tick t).restoreEnd r = (e, s₁) ∧
      ((e.soft = false ∨ r.failedAt.isSome = true)) ∧ r.req.dryRun = false ∧ e.code < 256) :=
  ⟨⟨xSnapshotsAndRestore_9, 100, 0, xSnapshotsAndRestore_9_d, by decide +kernel, by decide +kernel, by decide +kernel, by decide +kernel,
    by decide +kernel, by decide +kernel, by decide +kernel, by decide +kernel⟩,
   ⟨xSnapshotsAndRestore_10, 100, 0, 1, 2, ((1, 7, 0)), xSnapshotsAndRestore_10_d, xSnapshotsAndRestore_10_a, by decide +kernel, by decide +kernel,
    by decide +kernel, by decide +kernel, by decide +kernel, by decide +kernel, by decide +kernel, by decide +kernel, by decide +kernel⟩,
   ⟨xSnapshotsAndRestore_11, 100, 0, 1, ((1, 7, 0)), xSnapshotsAndRestore_11_d, by decide +kernel, by decide +kernel, by decide +kernel,
    by decide +kernel, by decide +kernel, by decide +kernel⟩,
   ⟨xSnapshotsAndRestore_12, 100, h0, by unfold takes; decide +kernel, by decide +kernel⟩,
   ⟨xSnapshotsAndRestore_13, 100, h0, req0, by unfold takes; decide +kernel, by decide +kernel, by decide +kernel, by decide +kernel,
    by decide +kernel, by decide +kernel, by decide +kernel⟩,
   ⟨xSnapshotsAndRestore_14, 100, h0, req0, by unfold takes; decide +kernel, by decide +kernel, by decide +kernel, by decide +kernel,
    by decide +kernel, by decide +kernel⟩,
   ⟨xSnapshotsAndRestore_15, ((((xSnapshotsAndRestore_15).tick (100)).restoreEnd (xSnapshotsAndRestore_15_r)).2), 100, 0, xSnapshotsAndRestore_15_r,
    ((((xSnapshotsAndRestore_15).tick (100)).restoreEnd (xSnapshotsAndRestore_15_r)).1), by decide +kernel, by decide +kernel, by decide +kernel,
    by decide +kernel, by decide +kernel, by decide +kernel, by decide +kernel, by decide +kernel, by decide +kernel⟩⟩

def xHangsDumpsAndResets_1 : State := { wUp with jobs := [jM], hng := [(0, { mark := 0 })] }
def xHangsDumpsAndResets_3 : State := wHang 3 { req := some (1, 5), dump := true }
def xHangsDumpsAndResets_6 : State := wHang 1 { req := some (1, 5), dump := true }
def xHangsDumpsAndResets_6_rest : List (Nat × Nat) := (wHang 1 {}).dumpUnits 0 |>.drop 1
def xHangsDumpsAndResets_7 : State := wHang 2 { req := some (1, 5), dump := true, todo := [(0x30, 15), (0x30, 16)], done := [du0] }
def xHangsDumpsAndResets_8 : State := wHang 2 { req := some (1, 5), dump := true, todo := [(0x30, 15), (0x30, 16)], done := [du0] }

/-- Hypotheses of HangsDumpsAndResets: for each clause, a state and operands that meet them. -/
theorem met_HangsDumpsAndResets_1 :
    (∃ (s : State) (t p : Nat),
      p < 16 ∧ s.outstanding p = true ∧ s.stillNow p = false ∧ s.hngState p = 0 ∧ s.safe = false ∧ s.hasPart p = true ∧
      s.watchNs p ≤ (s.tick t).ranNow p) ∧
    (∃ (s : State) (t p value : Nat) (who : Requester),
      p < 16 ∧ ((who = .pf0 ∨ who = .mgt)) ∧ s.hasPart p = true ∧ s.safe = false ∧ value.testBit 0 = true ∧ s.hngState p = 0) ∧
    (∃ (s : State) (t p value : Nat) (who : Requester),
      p < 16 ∧ ((who = .pf0 ∨ who = .mgt)) ∧ s.hasPart p = true ∧ s.safe = false ∧ value.testBit 0 = true ∧ s.hngState p ≠ 0) ∧
    (∃ (s : State) (t p value : Nat) (who : Requester),
      p < 16 ∧ who ≠ .pf0 ∧ who ≠ .mgt) ∧
    (∃ (s : State) (t p : Nat) (dump : Bool) (h : MbxHdr),
      takes s h ∧ p < 16 ∧ s.hasPart p = true ∧ s.hngState p = 0 ∧ s.mbxCheck h { feat := some 1, parts := [p], stage := stDome } = none) ∧
    (∃ (s : State) (t p : Nat) (record : Bytes) (u : Nat × Nat) (rest : List (Nat × Nat)),
      p < 16 ∧ s.collecting.head? = some p ∧ s.hngState p = 1 ∧ s.dumpUnits p = u :: rest ∧ rest ≠ []) ∧
    (∃ (s : State) (t p : Nat) (record : Bytes) (u v : Nat × Nat) (rest : List (Nat × Nat)),
      p < 16 ∧ s.collecting.head? = some p ∧ s.hngState p = 2 ∧ (s.hang p).todo = u :: v :: rest) ∧
    (∃ (s : State) (t p : Nat) (scan : Option Bytes) (u v : Nat × Nat) (rest : List (Nat × Nat)),
      p < 16 ∧ s.collecting.head? = some p ∧ s.hngState p = 2 ∧ (s.hang p).todo = u :: v :: rest) :=
  ⟨⟨xHangsDumpsAndResets_1, 2000000000, 0, by decide +kernel, by decide +kernel, by decide +kernel, by decide +kernel, by decide +kernel,
    by decide +kernel, by decide +kernel⟩,
   ⟨wUp, 100, 0, 3, .mgt, by decide +kernel, by decide +kernel, by decide +kernel, by decide +kernel, by decide +kernel, by decide +kernel⟩,
   ⟨xHangsDumpsAndResets_3, 100, 0, 1, .pf0, by decide +kernel, by decide +kernel, by decide +kernel, by decide +kernel, by decide +kernel,
    by decide +kernel⟩,
   ⟨wUp, 100, 0, 3, (.bfy 0), by decide +kernel, by decide +kernel, by decide +kernel⟩,
   ⟨wUp, 100, 0, true, h0, by unfold takes; decide +kernel, by decide +kernel, by decide +kernel, by decide +kernel, by decide +kernel⟩,
   ⟨xHangsDumpsAndResets_6, 100, 0, (bs [1, 2, 3]), ((0, 0)), xHangsDumpsAndResets_6_rest, by decide +kernel, by decide +kernel, by decide +kernel,
    by decide +kernel, by decide +kernel⟩,
   ⟨xHangsDumpsAndResets_7, 100, 0, (List.replicate 3000 7), ((0x30, 15)), ((0x30, 16)), ([]), by decide +kernel, by decide +kernel, by decide +kernel,
    by decide +kernel⟩,
   ⟨xHangsDumpsAndResets_8, 100, 0, none, ((0x30, 15)), ((0x30, 16)), ([]), by decide +kernel, by decide +kernel, by decide +kernel, by decide +kernel⟩⟩

def xHangsDumpsAndResets_9 : State :=
  wHang 2 { req := some (1, 5), dump := true, resetAfter := true, slot := 3, todo := [(0x30, 16)], done := [du0] }
def xHangsDumpsAndResets_10 : State :=
  wHang 2 { req := some (1, 5), dump := true, resetAfter := true, slot := 3, todo := [(0x30, 15), (0x30, 16)], done := [du0] }
def xHangsDumpsAndResets_11 : State := { wHang 1 { req := some (1, 5), resetAfter := true } with jobs := [jM] }
def xHangsDumpsAndResets_12 : State :=
  { wHang 3 { req := some (1, 5), resetAfter := true } with host := { wUp.host with busy := [{ h := h0, p := 0 }] } }
def xHangsDumpsAndResets_15 : State := { wUp with dumps := List.replicate 4 { held := true, valid := true } }

/-- Hypotheses of HangsDumpsAndResets: for each clause, a state and operands that meet them. -/
theorem met_HangsDumpsAndResets_2 :
    (∃ (s : State) (t p : Nat) (record : Bytes) (u : Nat × Nat),
      s.Inv ∧ p < 16 ∧ s.collecting.head? = some p ∧ s.hngState p = 2 ∧ (s.hang p).todo = [u] ∧ (s.hang p).slot < 4 ∧ s.dumps.length = 4) ∧
    (∃ (s : State) (t p : Nat),
      s.Inv ∧ p < 16 ∧ s.collecting.head? = some p ∧ s.hngState p = 2 ∧ s.collFrom p + 2000000000 ≤ max s.now t ∧ (s.hang p).slot < 4 ∧
      s.dumps.length = 4) ∧
    (∃ (s : State) (t p : Nat),
      p < 16 ∧ ((s.hngState p = 1 ∨ s.hngState p = 2)) ∧ (s.hang p).resetAfter = true ∧ (s.tick t).resetWaits p = false) ∧
    (∃ (s : State) (t p : Nat) (h : MbxHdr),
      p < 16 ∧ s.hngState p = 3 ∧ s.host.busy = [{ h := h, p := p }] ∧ s.memx.cowHolds = []) ∧
    (∃ (s : State) (t : Nat) (h : MbxHdr),
      takes s h ∧ s.mbxCheck h { feat := some 2 } = none) ∧
    (∃ (s : State) (t slot off len : Nat) (h : MbxHdr),
      takes s h ∧ slot < 4 ∧ len ≤ 4032 ∧ off + len ≤ 0x03000000 ∧
      s.mbxCheck h { feat := some 2, parts := [if s.on F.HNG_SLOT_VALID slot then s.rd F.HNG_SLOT_PARTITION slot else 16] } = none) ∧
    (∃ (s : State) (t slot : Nat) (h : MbxHdr),
      takes s h ∧ slot < 4 ∧ s.dumps.length = 4 ∧ s.mbxCheck h { feat := some 2, mgmt := true } = none) ∧
    (∃ (s : State) (t p periodMs action dumpBits : Nat) (h : MbxHdr),
      takes s h ∧ p < 16 ∧ periodMs < 65536 ∧ action < 4 ∧ dumpBits < 4 ∧ s.mbxCheck h { feat := some 2, parts := [p] } = none) :=
  ⟨⟨xHangsDumpsAndResets_9, 100, 0, (bs [7]), ((0x30, 16)), by unfold State.Inv; decide +kernel, by decide +kernel, by decide +kernel,
    by decide +kernel, by decide +kernel, by decide +kernel, by decide +kernel⟩,
   ⟨xHangsDumpsAndResets_10, 2000000005, 0, by unfold State.Inv; decide +kernel, by decide +kernel, by decide +kernel, by decide +kernel,
    by decide +kernel, by decide +kernel, by decide +kernel⟩,
   ⟨xHangsDumpsAndResets_11, 100, 0, by decide +kernel, by decide +kernel, by decide +kernel, by decide +kernel⟩,
   ⟨xHangsDumpsAndResets_12, 100, 0, h0, by decide +kernel, by decide +kernel, by decide +kernel, by decide +kernel⟩,
   ⟨wUp, 100, h0, by unfold takes; decide +kernel, by decide +kernel⟩,
   ⟨wUp, 100, 3, 0, 16, h0, by unfold takes; decide +kernel, by decide +kernel, by decide +kernel, by decide +kernel, by decide +kernel⟩,
   ⟨xHangsDumpsAndResets_15, 100, 3, h0, by unfold takes; decide +kernel, by decide +kernel, by decide +kernel, by decide +kernel⟩,
   ⟨wUp, 100, 0, 65535, 3, 2, h0, by unfold takes; decide +kernel, by decide +kernel, by decide +kernel, by decide +kernel, by decide +kernel,
    by decide +kernel⟩⟩

def xContextsSurviveReset_1 : State := { (wSeq x0).wr F.HNG_STATUS_STATE 1 0 with hng := [(0, { req := some (1, 5), resetAfter := true })] }

/-- Hypotheses of ContextsSurviveReset: for each clause, a state and operands that meet them. -/
theorem met_ContextsSurviveReset :
    (∃ (s : State) (t p g c : Nat) (x : CtxSt),
      p < 16 ∧ ((s.hngState p = 1 ∨ s.hngState p = 2)) ∧ (s.hang p).resetAfter = true ∧ (s.tick t).resetWaits p = false ∧ g ∈ s.groupsOf p ∧
      c < 8 ∧ s.ctx g c = some x) :=
  ⟨xContextsSurviveReset_1, 100, 0, 0, 0, x0, by decide +kernel, by decide +kernel, by decide +kernel, by decide +kernel, by decide +kernel,
    by decide +kernel, by decide +kernel⟩

def xSecurityAndPatches_2 : State := wFoot.wr F.AON_STAGE_SIDEBAND 1
def xSecurityAndPatches_3 : State := { withSess wUp [sess 2 (.vf 1)] with sec := { wUp.sec with flash := { fwSv := 4, ownerEpoch := 9 } } }
def xSecurityAndPatches_4 : State := wFoot.wr F.AON_STAGE_SIDEBAND 1

/-- Hypotheses of SecurityAndPatches: for each clause, a state and operands that meet them. -/
theorem met_SecurityAndPatches_1 :
    (∃ (s : State) (t : Nat) (h : MbxHdr),
      takes s h ∧ s.mbxCheck h { feat := some 3 } = none) ∧
    (∃ (s : State) (t : Nat) (path : Path),
      (path = .mctp ∨ path = .doe) ∧ (s.tick t).aonUp path = true) ∧
    (∃ (s : State) (t : Nat) (h : MbxHdr),
      takes s h ∧ s.mbxCheck h { feat := some 3 } = none) ∧
    (∃ (s : State) (t : Nat) (path : Path),
      (path = .mctp ∨ path = .doe) ∧ (s.tick t).aonUp path = true) ∧
    (∃ (s : State) (t n : Nat) (m nonce : Bytes) (h : MbxHdr),
      takes s h ∧ nonce.length = 32 ∧ s.mbxCheck h { feat := some 3 } = none ∧ s.on F.SEC_STATUS_ID_VALID = true ∧ s.exhausted = false ∧
      1 ≤ s.rd F.SEC_SIGIDX_TOKENS ∧ s.rd F.SEC_SIGIDX_TOKENS ≤ 32 ∧
      (n = (if s.rd F.SEC_SIGIDX_NEXT_INDEX = 0xFFFFFFFF ∨ s.rd F.SEC_SIGIDX_NEXT_INDEX = 64 * s.sec.flash.sigBlock then 64 * s.sec.flash.sigBlock else s.rd F.SEC_SIGIDX_NEXT_INDEX)) ∧
      m = (s.tick t).evidence nonce n) :=
  ⟨⟨wUp, 5, h0, by unfold takes; decide +kernel, by decide +kernel⟩,
   ⟨xSecurityAndPatches_2, 5, .mctp, by decide +kernel, by decide +kernel⟩,
   ⟨xSecurityAndPatches_3, 5, (hM 2 (.vf 1)), by unfold takes; decide +kernel, by decide +kernel⟩,
   ⟨xSecurityAndPatches_4, 5, .mctp, by decide +kernel, by decide +kernel⟩,
   ⟨(wTok 0xFFFFFFFF 0 32), 5, 0, (((wTok 0xFFFFFFFF 0 32).tick (5)).evidence (natLe 32 8) (0)), (natLe 32 8), h0, by unfold takes; decide +kernel,
    by decide +kernel, by decide +kernel, by decide +kernel, by decide +kernel, by decide +kernel, by decide +kernel, by decide +kernel,
    by decide +kernel⟩⟩

def xSecurityAndPatches_10 : State := { wUp with sec := { wUp.sec with flash := { fwSv := 2 } } }

/-- Hypotheses of SecurityAndPatches: for each clause, a state and operands that meet them. -/
theorem met_SecurityAndPatches_2 :
    (∃ (s : State) (t code : Nat) (nonce : Bytes) (h : MbxHdr),
      takes s h ∧ nonce.length = 32 ∧ s.mbxCheck h { feat := some 3 } = none ∧
      (((code = 1 ∧ s.on F.SEC_STATUS_ID_VALID = false) ∨ (code = 2 ∧ s.on F.SEC_STATUS_ID_VALID = true ∧ s.exhausted = true) ∨ (code = 3 ∧ s.on F.SEC_STATUS_ID_VALID = true ∧ s.exhausted = false ∧ s.rd F.SEC_SIGIDX_TOKENS = 0)))) ∧
    (∃ (s : State) (t n : Nat) (m header digest : Bytes) (h : MbxHdr),
      takes s h ∧ header.length = 128 ∧ digest.length = 32 ∧ slice header 0 4 = ascii "VMNF" ∧ leAt header 4 1 = 1 ∧
      s.mbxCheck h { feat := some 2 } = none ∧ s.on F.SEC_STATUS_ID_VALID = true ∧ s.exhausted = false ∧ 1 ≤ s.rd F.SEC_SIGIDX_TOKENS ∧
      s.rd F.SEC_SIGIDX_TOKENS ≤ 32 ∧
      (n = (if s.rd F.SEC_SIGIDX_NEXT_INDEX = 0xFFFFFFFF ∨ s.rd F.SEC_SIGIDX_NEXT_INDEX = 64 * s.sec.flash.sigBlock then 64 * s.sec.flash.sigBlock else s.rd F.SEC_SIGIDX_NEXT_INDEX)) ∧
      m = header.take 5 ++ natLe 1 (leAt header 5 1 ||| 2) ++ header.drop 6) ∧
    (∃ (s : State) (t : Nat),
      s.rd F.SEC_SIGIDX_TOKENS < 32 ∧ s.sec.tokenAt + 360000000000 ≤ max s.now t) ∧
    (∃ (s : State) (t : Nat),
      ((32 ≤ s.rd F.SEC_SIGIDX_TOKENS ∨ max s.now t < s.sec.tokenAt + 360000000000))) ∧
    (∃ (s : State) (t kind : Nat) (h : MbxHdr),
      takes s h ∧ kind < 4 ∧ s.mbxCheck h { feat := some 3, mgmt := true } = none) :=
  ⟨⟨wUp, 5, 1, (natLe 32 8), h0, by unfold takes; decide +kernel, by decide +kernel, by decide +kernel, by decide +kernel⟩,
   ⟨(wTok 64 1 1), 5, 64,
    ((ascii "VMNF" ++ natLe 1 1 ++ natLe 123 0).take 5 ++ natLe 1 (leAt (ascii "VMNF" ++ natLe 1 1 ++ natLe 123 0) 5 1 ||| 2) ++ (ascii "VMNF" ++ natLe 1 1 ++ natLe 123 0).drop 6),
    (ascii "VMNF" ++ natLe 1 1 ++ natLe 123 0), (natLe 32 7), h0, by unfold takes; decide +kernel, by decide +kernel, by decide +kernel,
    by decide +kernel, by decide +kernel, by decide +kernel, by decide +kernel, by decide +kernel, by decide +kernel, by decide +kernel,
    by decide +kernel, by decide +kernel⟩,
   ⟨(wTok 64 1 31), 360000000000, by decide +kernel, by decide +kernel⟩,
   ⟨(wTok 64 1 31), 359999999999, by decide +kernel⟩,
   ⟨xSecurityAndPatches_10, 5, 0, h0, by unfold takes; decide +kernel, by decide +kernel, by decide +kernel⟩⟩

def xSecurityAndPatches_11 : State :=
  wGen [(.root 2, ((tokB "VOWN" 0 1 2 (natLe 64 77)).take 128, natLe 2820 0))] (wUp.wr F.SEC_STATUS_DEBUG_SCOPE 5)
def xSecurityAndPatches_12 : State := wGen [(.root 2, ((tokB "VDBG" 0 9 2 []).take 128, natLe 2820 0))] (wUp.wr F.MGT_GUARANTEE_HOLD_SILENT 1)
def xSecurityAndPatches_13 : State := wUp.wr F.SEC_STATUS_DEBUG_SCOPE 5
def xSecurityAndPatches_14 : State := wGen [(.root 3, (natLe 1 7, natLe 2820 0))] wUp

/-- Hypotheses of SecurityAndPatches: for each clause, a state and operands that meet them. -/
theorem met_SecurityAndPatches_3 :
    (∃ (s : State) (t code : Nat) (token : Bytes) (h : MbxHdr),
      takes s h ∧ token.length = 2960 ∧ s.mbxCheck h { feat := some 3, mgmt := true } = none ∧
      code = s.tokenFault token "VOWN" s.sec.flash.ownerEpoch 3 112 (fun k => decide (k < 4))) ∧
    (∃ (s : State) (t code : Nat) (token : Bytes) (h : MbxHdr),
      takes s h ∧ token.length = 2960 ∧ s.mbxCheck h { feat := some 3, mgmt := true } = none ∧
      code = s.tokenFault token "VDBG" s.sec.flash.debugCtr 15 48 (fun k => if s.sec.flash.ownerKey.isSome then decide (k = 128) else decide (k < 4))) ∧
    (∃ (s : State) (t : Nat) (h : MbxHdr),
      takes s h ∧ s.mbxCheck h { feat := some 3, mgmt := true } = none) ∧
    (∃ (s : State) (t mask : Nat) (record : Bytes) (h : MbxHdr),
      takes s h ∧ record.length = 2833 ∧ s.mbxCheck h { feat := some 3, mgmt := true } = none ∧ mask = leAt record 0 1 ∧ mask < 16 ∧
      allZero (slice record 5 8) = true ∧ s.blockVerifies record 1 (fun k => decide (k < 4) && !mask.testBit k) = true ∧
      (s.sec.flash.revoked ||| mask) % 16 ≠ 15) ∧
    (∃ (s : State) (t mask code : Nat) (record : Bytes) (h : MbxHdr),
      takes s h ∧ record.length = 2833 ∧ s.mbxCheck h { feat := some 3, mgmt := true } = none ∧ mask = leAt record 0 1 ∧
      (((code = 4 ∧ s.blockVerifies record 1 (fun k => decide (k < 4) && !mask.testBit k) = false) ∨ (code = 7 ∧ s.blockVerifies record 1 (fun k => decide (k < 4) && !mask.testBit k) = true ∧ (s.sec.flash.revoked ||| mask) % 16 = 15) ∨ (code = 8 ∧ s.blockVerifies record 1 (fun k => decide (k < 4) && !mask.testBit k) = true ∧ (s.sec.flash.revoked ||| mask) % 16 ≠ 15 ∧ (16 ≤ mask ∨ allZero (slice record 5 8) = false))))) :=
  ⟨⟨xSecurityAndPatches_11, 5, 0, (tokB "VOWN" 0 1 2 (natLe 64 77)), h0, by unfold takes; decide +kernel, by decide +kernel, by decide +kernel,
    by decide +kernel⟩,
   ⟨xSecurityAndPatches_12, 5, 0, (tokB "VDBG" 0 9 2 []), h0, by unfold takes; decide +kernel, by decide +kernel, by decide +kernel, by decide +kernel⟩,
   ⟨xSecurityAndPatches_13, 5, h0, by unfold takes; decide +kernel, by decide +kernel⟩,
   ⟨xSecurityAndPatches_14, 5, 7, (natLe 1 7 ++ natLe 1 3 ++ natLe 2831 0), h0, by unfold takes; decide +kernel, by decide +kernel, by decide +kernel,
    by decide +kernel, by decide +kernel, by decide +kernel, by decide +kernel, by decide +kernel⟩,
   ⟨wUp, 5, 7, 4, (natLe 1 7 ++ natLe 1 3 ++ natLe 2831 0), h0, by unfold takes; decide +kernel, by decide +kernel, by decide +kernel,
    by decide +kernel, by decide +kernel⟩⟩

def xSecurityAndPatches_16_s₁ : State := (((wPatch (patchB 1)).tick (5)).devRead 4 0x58 (0) (A) ((patchB 1).length)).2.2.2

/-- Hypotheses of SecurityAndPatches: for each clause, a state and operands that meet them. -/
theorem met_SecurityAndPatches_4 :
    (∃ (s s₁ : State) (t p addr len : Nat) (b : Bytes) (h : MbxHdr),
      takes s h ∧ p < 16 ∧ len ≤ 262144 ∧ s.mbxCheck h { feat := some 0, mgmt := true, stage := stDome } = none ∧
      (s.tick t).devRead 4 0x58 p addr len = (none, b, false, s₁) ∧ s₁.patchCheck b = none ∧ s₁.asleepOf (leAt b 14 1) = none) :=
  ⟨(wPatch (patchB 1)), xSecurityAndPatches_16_s₁, 5, 0, A, ((patchB 1).length), (patchB 1), h0, by unfold takes; decide +kernel, by decide +kernel,
    by decide +kernel, by decide +kernel, good_read (by decide +kernel) (by decide +kernel) (by decide +kernel), by decide +kernel,
    by decide +kernel⟩

def xSecurityAndPatches_17_s₁ : State := (((wPatch (patchB 0)).tick (5)).devRead 4 0x58 (0) (A) (20)).2.2.2

/-- Hypotheses of SecurityAndPatches: for each clause, a state and operands that meet them. -/
theorem met_SecurityAndPatches_5 :
    (∃ (s s₁ : State) (t p addr len : Nat) (b : Bytes) (e : ImgErr) (h : MbxHdr),
      takes s h ∧ p < 16 ∧ len ≤ 262144 ∧ s.mbxCheck h { feat := some 0, mgmt := true, stage := stDome } = none ∧
      (s.tick t).devRead 4 0x58 p addr len = (none, b, false, s₁) ∧ s₁.patchCheck b = some e) :=
  ⟨(wPatch (patchB 0)), xSecurityAndPatches_17_s₁, 5, 0, A, 20, ((((wPatch (patchB 0)).tick (5)).devRead 4 0x58 (0) (A) (20)).2.1),
    (((xSecurityAndPatches_17_s₁).patchCheck ((((wPatch (patchB 0)).tick (5)).devRead 4 0x58 (0) (A) (20)).2.1)).getD (0, 0, 0)), h0,
    by unfold takes; decide +kernel, by decide +kernel, by decide +kernel, by decide +kernel, good_read (by decide +kernel) rfl (by decide +kernel),
    by decide +kernel⟩

def xSecurityAndPatches_18 : State := (wPatch (patchB 1)).wr F.CLK_AG_STATE 2 0
def xSecurityAndPatches_18_s₁ : State := (((xSecurityAndPatches_18).tick (5)).devRead 4 0x58 (0) (A) ((patchB 1).length)).2.2.2

/-- Hypotheses of SecurityAndPatches: for each clause, a state and operands that meet them. -/
theorem met_SecurityAndPatches_6 :
    (∃ (s s₁ : State) (t p addr len g : Nat) (b : Bytes) (h : MbxHdr),
      takes s h ∧ p < 16 ∧ len ≤ 262144 ∧ s.mbxCheck h { feat := some 0, mgmt := true, stage := stDome } = none ∧
      (s.tick t).devRead 4 0x58 p addr len = (none, b, false, s₁) ∧ s₁.patchCheck b = none ∧ s₁.asleepOf (leAt b 14 1) = some g) :=
  ⟨xSecurityAndPatches_18, xSecurityAndPatches_18_s₁, 5, 0, A, ((patchB 1).length), 0, (patchB 1), h0, by unfold takes; decide +kernel,
    by decide +kernel, by decide +kernel, by decide +kernel, good_read (by decide +kernel) (by decide +kernel) (by decide +kernel),
    by decide +kernel, by decide +kernel⟩

def xSecurityAndPatches_19_s₁ : State := (((wUp).tick (5)).devRead 4 0x58 (0) (A) (20)).2.2.2

/-- Hypotheses of SecurityAndPatches: for each clause, a state and operands that meet them. -/
theorem met_SecurityAndPatches_7 :
    (∃ (s s₁ : State) (t p addr len : Nat) (b : Bytes) (c : Option Nat) (bad : Bool) (h : MbxHdr),
      takes s h ∧ p < 16 ∧ len ≤ 262144 ∧ s.mbxCheck h { feat := some 0, mgmt := true, stage := stDome } = none ∧
      (s.tick t).devRead 4 0x58 p addr len = (c, b, bad, s₁) ∧ ((c ≠ none ∨ bad = true))) :=
  ⟨wUp, xSecurityAndPatches_19_s₁, 5, 0, A, 20, ((((wUp).tick (5)).devRead 4 0x58 (0) (A) (20)).2.1),
    ((((wUp).tick (5)).devRead 4 0x58 (0) (A) (20)).1), ((((wUp).tick (5)).devRead 4 0x58 (0) (A) (20)).2.2.1), h0, by unfold takes; decide +kernel,
    by decide +kernel, by decide +kernel, by decide +kernel, by decide +kernel, by decide +kernel⟩

/-- Hypotheses of MonotonicCounters: for each clause, a state and operands that meet them. -/
theorem met_MonotonicCounters :
    (∃ (c : Instr) (s s' : State),
      exec c s = .next s') :=
  ⟨(.debugLock 5 h0), wUp, ((match exec (.debugLock 5 h0) (wUp) with | .next x => x | _ => (wUp))), rfl⟩

end Sys2Proof.Tests
end

section
/-!
PROOFS of the scope statements (spec/00): folds over the state, resets of registers and memory, and what AUX_3V3 and PERST# leave (O5, O8).
-/

namespace Sys2Proof.Machine

/-! ### Folds over the state -/

/-- A relation that every step of a fold keeps to relates its ends. -/
theorem foldl_related {α : Type} (R : State → State → Prop) (refl : ∀ s, R s s) (trans : ∀ a b c, R a b → R b c → R a c)
    {step : State → α → State} (h : ∀ s x, R s (step s x)) (l : List α) (s : State) : R s (l.foldl step s) := by
  induction l generalizing s with
  | nil => exact refl s
  | cons x l ih => exact trans _ _ _ (h s x) (ih (step s x))

/-- A part of the state that every step of a fold leaves is left by the fold. -/
theorem foldl_keeps {α β : Type} (part : State → β) {step : State → α → State} (h : ∀ s x, part (step s x) = part s) (l : List α)
    (s : State) : part (l.foldl step s) = part s :=
  foldl_related (fun s s' => part s' = part s) (fun _ => rfl) (fun _ _ _ a b => b.trans a) h l s

/-- The second state differs from the first in its register fields alone. -/
def onlyRegs (s s' : State) : Prop := s' = { s with regs := s'.regs }

theorem onlyRegs_refl (s : State) : onlyRegs s s := rfl

theorem onlyRegs_trans (a b c : State) (h : onlyRegs a b) (h' : onlyRegs b c) : onlyRegs a c := by
  unfold onlyRegs at *
  rw [h', h]

theorem onlyRegs_wr (s : State) (f : Fld) (v i j : Nat) : onlyRegs s (s.wr f v i j) := rfl

theorem onlyRegs.wr {a b : State} (h : onlyRegs a b) (f : Fld) (v i j : Nat) : onlyRegs a (b.wr f v i j) :=
  onlyRegs_trans _ _ _ h (onlyRegs_wr b f v i j)

theorem foldl_onlyRegs {α : Type} {step : State → α → State} (h : ∀ s x, onlyRegs s (step s x)) (l : List α) (s : State) :
    onlyRegs s (l.foldl step s) := foldl_related onlyRegs onlyRegs_refl onlyRegs_trans h l s

/-- A fold over places, each step of which gives field `f` of its own place the value `val` and leaves the field's others, gives it to each one
listed. -/
theorem rd_foldl_instances {step : State → Nat → State} {f : Fld} {val : State → Nat → Nat} (hval : ∀ s a m, val (step s a) m = val s m)
    (hit : ∀ s m, (step s m).rd f m = val s m) (miss : ∀ s a m, m ≠ a → (step s a).rd f m = s.rd f m) (l : List Nat) (s : State) (m : Nat) :
    (l.foldl step s).rd f m = if m ∈ l then val s m else s.rd f m := by
  induction l generalizing s with
  | nil => simp
  | cons a l ih =>
    rw [List.foldl_cons, ih, hval]
    by_cases hl : m ∈ l
    · simp [hl]
    · by_cases ha : m = a
      · subst ha; simp [hl, hit]
      · simp [hl, ha, miss s a m ha]

/-- One value written to a field at a list of places is read at each of them. -/
theorem rd_foldl_wr (f : Fld) (v : Nat) (l : List Nat) (s : State) (m : Nat) :
    (l.foldl (fun (s : State) k => s.wr f v k) s).rd f m = if m ∈ l then v % 2 ^ f.width else s.rd f m :=
  rd_foldl_instances (val := fun _ _ => v % 2 ^ f.width) (fun _ _ _ => rfl) (fun s m => s.rd_wr_same f v m 0)
    (fun s a m h => s.rd_wr_inst f f v a 0 m 0 (Or.inl h)) l s m

/-- One value written to a field at a list of places leaves every field of another register or at another bit. -/
theorem rd_foldl_wr_other (f g : Fld) (v : Nat) (h : g.reg ≠ f.reg ∨ g.lsb ≠ f.lsb) (l : List Nat) (s : State) (i j : Nat) :
    (l.foldl (fun (s : State) k => s.wr f v k) s).rd g i j = s.rd g i j :=
  foldl_keeps (fun s => s.rd g i j) (fun s k => h.elim (s.rd_wr_reg f g v k 0 i j) (s.rd_wr_lsb f g v k 0 i j)) l s

/-! ### Fields and memory through resets (R9) -/

/-- States with the same stored fields read alike. -/
theorem State.rd_congr {a b : State} (h : a.regs = b.regs) (f : Fld) (i j : Nat) : a.rd f i j = b.rd f i j := by
  unfold State.rd
  rw [h]

theorem fget_filter (p : FKey → Bool) (m : List (FKey × Nat)) (k : FKey) :
    fget (m.filter (fun e => !p e.1)) k = if p k then none else fget m k := by
  induction m with
  | nil => simp [fget]
  | cons e m ih =>
    obtain ⟨ke, ve⟩ := e
    by_cases he : ke = k
    · subst he; cases hp : p ke <;> simp_all [fget]
    · cases hp : p ke <;> simp_all [fget]

/-- Fields that are dropped read their reset values, the others as before. -/
theorem State.rd_dropFields (s : State) (p : FKey → Bool) (f : Fld) (i j : Nat) :
    (s.dropFields p).rd f i j = if p ⟨f.reg, i, j, f.lsb⟩ then f.rst else s.rd f i j := by
  unfold State.rd State.dropFields
  rw [fget_filter]
  split <;> rfl

/-- A reset of one domain gives its registers their reset values and leaves the others. -/
theorem State.rd_resetDomain (s : State) (d : ResetDomain) (f : Fld) (i j : Nat) :
    (s.resetDomain d).rd f i j = if f.reg.domain = d then f.rst else s.rd f i j := by
  simp [State.resetDomain, State.rd_dropFields]

/-- After a reset of the DEV, MGT and PART domains only AON registers keep their values. -/
theorem State.rd_resetAllButAon (s : State) (f : Fld) (i j : Nat) :
    (((s.resetDomain .DEV).resetDomain .MGT).resetDomain .PART).rd f i j = if f.reg.domain = .AON then s.rd f i j else f.rst := by
  simp only [State.rd_resetDomain]
  cases f.reg.domain <;> rfl

/-- States with the same memory cells read the same bytes. -/
theorem sameMem_of_mem {s s' : State} (h : s'.mem = s.mem) : sameMem s s' := fun a => congrArg (fun m => memGet m a) h

theorem memGet_filter (p : Nat → Bool) (m : List Host.Cell) (a : Nat) :
    memGet (m.filter (fun c => p c.1)) a = if p a then memGet m a else 0 := by
  induction m with
  | nil => simp [memGet]
  | cons c m ih =>
    obtain ⟨x, v⟩ := c
    by_cases hx : x = a
    · subst hx; cases hp : p x <;> simp_all [memGet]
    · cases hp : p x <;> simp_all [memGet]

/-- Memory that is forgotten reads 0, the rest as before. -/
theorem State.rdByte_forget (s : State) (lo hi a : Nat) : (s.forget lo hi).rdByte a = if a < lo ∨ hi ≤ a then s.rdByte a else 0 := by
  simpa [State.rdByte, State.forget] using memGet_filter (fun k => decide (k < lo) || decide (hi ≤ k)) s.mem a

/-! ### The stage and a warm device reset (R305, R461) -/

theorem State.rd_setStage_reg (s : State) (v : Nat) (f : Fld) (i j : Nat) (h : f.reg ≠ .AON_STAGE) : (s.setStage v).rd f i j = s.rd f i j := by
  unfold State.setStage
  split
  · rfl
  · simp [State.rd_wr_reg _ F.AON_STAGE_STAGE f _ _ _ _ _ h]

theorem State.stage_setStage_footing (s : State) : (s.setStage stFooting).rd F.AON_STAGE_STAGE = 1 := by
  unfold State.setStage
  split
  · assumption
  · simp only [State.inBand_rd, State.vec_rd]
    exact State.rd_wr_same _ F.AON_STAGE_STAGE _ _ _

/-- A change of the stage leaves everything but registers and the host link's vectors. -/
theorem State.setStage_eq (s : State) (v : Nat) : ∃ m h, s.setStage v = { s with regs := m, host := h } := by
  unfold State.setStage
  split
  · exact ⟨_, _, rfl⟩
  · exact ⟨_, _, rfl⟩

/-- The state a warm device reset makes before it shows in HNG_STATUS, SEC_STATUS and AON_STAGE: what the units hold is lost, and so are memory
outside the keep region and the registers of the DEV, MGT and PART domains. -/
def State.warmCleared (s : State) : State :=
  ((({ (s.forget keepBytes (2 ^ 60)).dropVolatile with
      memx := { erased := s.memx.erased, poison := s.memx.poison.filter (fun k => k < keepBytes) } } : State).resetDomain
    .DEV).resetDomain .MGT).resetDomain .PART

/-- What a warm device reset writes to registers of its own. -/
def State.warmShown (s : State) (stage : Nat) : State :=
  (((((List.range 16).foldl (fun s p => s.wr F.HNG_STATUS_STATE 0 p) s).wr F.SEC_STATUS_DEBUG_SCOPE 0).wr F.AON_STAGE_SUPERVISION 1).wr
    F.AON_STAGE_SIDEBAND 1).wr F.AON_STAGE_STAGE stage

theorem State.warmDeviceReset_eq (s : State) : s.warmDeviceReset = (s.warmCleared.warmShown s.stage).setStage stFooting := rfl

theorem State.onlyRegs_warmShown (s : State) (n : Nat) : onlyRegs s (s.warmShown n) :=
  ((((foldl_onlyRegs (fun s p => onlyRegs_wr s F.HNG_STATUS_STATE 0 p 0) (List.range 16) s).wr F.SEC_STATUS_DEBUG_SCOPE 0 0 0).wr
    F.AON_STAGE_SUPERVISION 1 0 0).wr F.AON_STAGE_SIDEBAND 1 0 0).wr F.AON_STAGE_STAGE n 0 0

/-- A warm device reset leaves of everything but registers and vectors what clearing the units leaves. -/
theorem State.warmDeviceReset_frame (s : State) : ∃ m h, s.warmDeviceReset = { s.warmCleared with regs := m, host := h } := by
  obtain ⟨m, h, e⟩ := (s.warmCleared.warmShown s.stage).setStage_eq stFooting
  refine ⟨m, h, ?_⟩
  rw [State.warmDeviceReset_eq, e, State.onlyRegs_warmShown s.warmCleared s.stage]

/-- Every field outside HNG_STATUS, SEC_STATUS and AON_STAGE reads after a warm device reset as its domain says (R9). -/
theorem State.rd_warmDeviceReset (s : State) (f : Fld) (i j : Nat) (h1 : f.reg ≠ .HNG_STATUS) (h2 : f.reg ≠ .SEC_STATUS)
    (h3 : f.reg ≠ .AON_STAGE) : s.warmDeviceReset.rd f i j = if f.reg.domain = .AON then s.rd f i j else f.rst := by
  rw [State.warmDeviceReset_eq, State.rd_setStage_reg _ _ _ _ _ h3]
  unfold State.warmShown
  rw [State.rd_wr_reg _ F.AON_STAGE_STAGE f _ _ _ _ _ h3, State.rd_wr_reg _ F.AON_STAGE_SIDEBAND f _ _ _ _ _ h3,
    State.rd_wr_reg _ F.AON_STAGE_SUPERVISION f _ _ _ _ _ h3, State.rd_wr_reg _ F.SEC_STATUS_DEBUG_SCOPE f _ _ _ _ _ h2,
    rd_foldl_wr_other F.HNG_STATUS_STATE f 0 (Or.inl h1)]
  exact State.rd_resetAllButAon _ f i j

/-- A warm device reset locks the debug scopes (R477). -/
theorem State.debugScope_warmDeviceReset (s : State) : s.warmDeviceReset.rd F.SEC_STATUS_DEBUG_SCOPE = 0 := by
  rw [State.warmDeviceReset_eq, State.rd_setStage_reg _ _ _ _ _ (by decide)]
  unfold State.warmShown
  rw [State.rd_wr_reg _ _ _ _ _ _ _ _ (by decide), State.rd_wr_reg _ _ _ _ _ _ _ _ (by decide), State.rd_wr_reg _ _ _ _ _ _ _ _ (by decide)]
  exact State.rd_wr_same _ F.SEC_STATUS_DEBUG_SCOPE 0 0 0

/-! ### The state after reset, and what AUX_3V3 and PERST# leave -/

/-- Settles O5: the state after reset is every default of State. -/
theorem resetState : Obligations.ResetState := by
  unfold Obligations.ResetState
  exact ⟨rfl, rfl, fun _ => rfl, fun _ _ _ => rfl, rfl, rfl, rfl, rfl, rfl, rfl⟩

/-- The state in which an assertion of PERST# begins its warm device reset (R305). -/
def State.perstHeld (s : State) (t : Nat) : State :=
  { s.tick t with pwr := { s.pwr with perst := true, auxAt := (s.tick t).now, warmHeld := true } }

theorem exec_perstAssert_powered (s : State) (t : Nat) (aux : s.on F.PWR_STATUS_AUX_VALID = true) :
    exec (.perstAssert t) s = .next (s.perstHeld t).warmDeviceReset :=
  congrArg Host.Outcome.next (if_pos aux)

/-- Settles O8: a loss of AUX_3V3 leaves the reset state but for its flash and history; PERST# is a warm device reset. -/
theorem resetDomains : Obligations.ResetDomains := by
  unfold Obligations.ResetDomains
  constructor
  · intro s t aux
    exact ⟨_, if_pos aux, fun _ _ _ => rfl, fun _ => rfl, rfl, rfl, rfl⟩
  · intro s t aux
    obtain ⟨m, h, frame⟩ := (s.perstHeld t).warmDeviceReset_frame
    have kept : ∀ a, (s.perstHeld t).warmDeviceReset.rdByte a = (s.forget keepBytes (2 ^ 60)).rdByte a := fun a => by rw [frame]; rfl
    refine ⟨_, exec_perstAssert_powered s t aux, by rw [frame]; rfl, State.stage_setStage_footing _,
      State.debugScope_warmDeviceReset _, ?_, ?_, ?_, ?_, ?_, by rw [frame]; rfl, by rw [frame]; rfl⟩
    · unfold State.on
      rw [State.rd_warmDeviceReset _ _ _ _ (by decide) (by decide) (by decide)]
      rfl
    · intro f i j dom out
      simp only [List.mem_cons, List.not_mem_nil, or_false, not_or] at out
      obtain ⟨hng, sec, stage, _⟩ := out
      rw [State.rd_warmDeviceReset _ _ _ _ hng sec stage, if_neg dom]
    · intro f i j dom out
      simp only [List.mem_cons, List.not_mem_nil, or_false, not_or] at out
      obtain ⟨hng, sec, stage, _⟩ := out
      rw [State.rd_warmDeviceReset _ _ _ _ hng sec stage, if_pos dom]
      rfl
    · intro a low
      rw [kept, State.rdByte_forget, if_pos (Or.inl low)]
    · intro a low high
      rw [kept, State.rdByte_forget, if_neg (by omega)]

end Sys2Proof.Machine
end

section
/-!
PROOFS of the scope statements (spec/00): reports, and which branch a register access takes (O16).
-/

namespace Sys2Proof.Machine

/-! ### Reports (R367) -/

/-- A report leaves everything but the fault collector's side. -/
theorem State.raise_frame (s : State) (r : Report) : s.raise r = { s with fc := (s.raise r).fc } := by
  obtain ⟨x, h⟩ := s.raise_eq r
  rw [h]

/-- A command that only raises a report leaves everything but the time and the fault collector's side. -/
theorem State.tick_raise_frame (s : State) (t : Nat) (r : Report) :
    (s.tick t).raise r = { s with now := ((s.tick t).raise r).now, fc := ((s.tick t).raise r).fc } := by
  conv_lhs => rw [State.raise_frame]
  rw [State.raise_now]
  rfl

/-- What a report leaves of the fault collector depends on the collector, the time and the stage alone. -/
theorem State.raise_fc_congr {a b : State} (r : Report) (hfc : a.fc = b.fc) (hnow : a.now = b.now) (hstage : a.stage = b.stage) :
    (a.raise r).fc = (b.raise r).fc := by
  unfold State.raise
  rw [hfc, hnow, hstage]
  dsimp only
  split <;> rfl

/-! ### Accesses that do not act (R5, R239) -/

/-- What a denied or malformed read leaves in the read-back buffer changes nothing that a report shows. -/
theorem State.raise_readOnes_fc (s : State) (reg : Reg) (r : Report) : ((s.readOnes reg).raise r).fc = (s.raise r).fc :=
  State.raise_fc_congr r rfl rfl rfl

/-- The report of an access handled as R5 states. -/
def badReport (reg : Reg) (i : Nat) (write : Bool) : Report :=
  { cls := reg.faultClass, level := 0, master := 0x7F, access := if write then 2 else 1,
    source := match agOf reg i with
      | some g => if reg.faultClass = 1 then 0x30 + g else g
      | none => blockOf reg.faultClass }

theorem State.badAccess_write (s : State) (reg : Reg) (i : Nat) : s.badAccess reg i true = s.raise (badReport reg i true) := rfl

theorem State.badAccess_read (s : State) (reg : Reg) (i : Nat) : s.badAccess reg i false = (s.readOnes reg).raise (badReport reg i false) := rfl

/-- The report of a register access of partition `p`'s core `n` that R239 denies. -/
def deniedReport (n p : Nat) (write : Bool) : Report :=
  { cls := 5, level := 1, master := 0x59, access := if write then 2 else 1, part := p, source := 0x59, aux := n }

theorem State.coreDenied_eq (s : State) (n p : Nat) (write : Bool) : s.coreDenied n p write = s.raise (deniedReport n p write) := rfl

/-! ### What becomes of an access -/

@[simp] theorem State.fate_tick (s : State) (t : Nat) (who : Requester) (reg : Reg) (i : Nat) (write : Bool) :
    (s.tick t).fate who reg i write = s.fate who reg i write := rfl

@[simp] theorem State.closedReg_tick (s : State) (t : Nat) (reg : Reg) (i : Nat) : (s.tick t).closedReg reg i = s.closedReg reg i := rfl

@[simp] theorem State.groupRuns_tick (s : State) (t g : Nat) : (s.tick t).groupRuns g = s.groupRuns g := rfl

theorem State.fate_bfy_outside (s : State) (p : Nat) (reg : Reg) (i : Nat) (write : Bool)
    (out : bfyClosed reg = true ∨ s.foreignInst p reg i = true) : s.fate (.bfy p) reg i write = .denied :=
  if_pos (by simpa using out)

theorem State.fate_vf_outside (s : State) (k : Nat) (reg : Reg) (i : Nat) (write : Bool) (db : reg ≠ .PCI_DB)
    (page : s.ownPage (.vf k) reg i = false) : s.fate (.vf k) reg i write = .nothing :=
  if_neg (by simp [db, page])

/-- A register that exists lies in a window that exists. -/
theorem hasWindow_of_inst {reg : Reg} {i : Nat} (h : i < reg.axes.1) : hasWindow reg i = true := by
  unfold hasWindow
  split <;> simp [h]

theorem hasInst_of_lt {reg : Reg} {i j : Nat} (hi : i < reg.axes.1) (hj : j < reg.axes.2.1) : hasInst reg i j = true := by
  simp [hasInst, hi, hj]

/-- The registers of an array group's window are no part of the directory. -/
theorem ne_ldirTable_of_agOf {reg : Reg} {i g : Nat} (h : agOf reg i = some g) : reg ≠ .LDIR_TABLE := by
  rintro rfl
  simp [agOf, Reg.axes] at h

theorem State.groupRuns_of_ownerRuns {s : State} {reg : Reg} {i g : Nat} (h : ownerRuns s reg i) (hg : agOf reg i = some g) :
    s.groupRuns g = true := by
  simpa [State.groupRuns] using h g hg

/-- Where nothing is posted behind a memory write, an access has nothing to release first (R303). -/
theorem State.releasePosted_none {s : State} (t : Nat) (h : nonePosted s) : (s.tick t).releasePosted = s.tick t := by
  unfold State.releasePosted
  rw [if_neg]
  simp only [List.any_eq_true, decide_eq_true_eq, not_exists, not_and]
  exact h

/-! ### A register write -/

section Access
variable {s : State} (t : Nat) {who : Requester} {reg : Reg} {i : Nat} (j v n : Nat)
  (window : hasWindow reg i = true) (posted : nonePosted s)
include window posted

theorem exec_registerWrite_acts (acts : s.fate who reg i true = .acts) (table : reg ≠ .LDIR_TABLE) (there : s.closedReg reg i = false) :
    exec (.registerWrite t who reg i j v n) s = .next ((s.tick t).arrive (.access who reg i j (some (v, n)))) := by
  change execRegisterWrite t who reg i j v n s = _
  simp [execRegisterWrite, State.releasePosted_none t posted, window, acts, table, there]

theorem exec_registerWrite_bad (acts : s.fate who reg i true = .acts) (bad : reg = .LDIR_TABLE ∨ s.closedReg reg i = true) :
    exec (.registerWrite t who reg i j v n) s = .next ((s.tick t).raise (badReport reg i true)) := by
  change execRegisterWrite t who reg i j v n s = _
  simp [execRegisterWrite, State.releasePosted_none t posted, window, acts, bad, State.badAccess_write]

theorem exec_registerWrite_denied {p : Nat} (denied : s.fate (.bfy p) reg i true = .denied) :
    exec (.registerWrite t (.bfy p) reg i j v n) s =
      .next ((s.tick t).raise (deniedReport (((s.tick t).coresOf p).head?.getD 0) p true)) := by
  change execRegisterWrite t (.bfy p) reg i j v n s = _
  simp only [execRegisterWrite, State.releasePosted_none t posted, window, State.fate_tick, denied, inst_true]
  rfl

theorem exec_registerWrite_nothing (idle : s.fate who reg i true = .nothing) :
    exec (.registerWrite t who reg i j v n) s = .next (s.tick t) := by
  change execRegisterWrite t who reg i j v n s = _
  simp [execRegisterWrite, State.releasePosted_none t posted, window, idle]

/-! ### A register read -/

theorem exec_rcCounterRead_acts (event : Option Nat) (acts : s.fate who reg i false = .acts) (there : s.closedReg reg i = false)
    (runs : ownerRuns s reg i) : exec (.rcCounterRead t who reg i j event) s = .next ((s.tick t).readReg reg i j event) := by
  change execRcCounterRead t who reg i j event s = _
  have awake : (agOf reg i).filter (fun g => !s.groupRuns g && !(s.tick t).safe) = none := by
    rw [Option.filter_eq_none_iff]
    intro g hg
    simp [State.groupRuns_of_ownerRuns runs hg]
  simp [execRcCounterRead, State.releasePosted_none t posted, window, acts, there, awake]

theorem exec_rcCounterRead_nothing (event : Option Nat) (idle : s.fate who reg i false = .nothing) :
    exec (.rcCounterRead t who reg i j event) s = .next ((s.tick t).turnedAway who reg false false) := by
  change execRcCounterRead t who reg i j event s = _
  simp [execRcCounterRead, State.releasePosted_none t posted, window, idle]

end Access

/-- An access that nothing goes before takes effect where the group of its register runs (R286, R303). -/
theorem State.arrive_access_runs (s : State) (who : Requester) (reg : Reg) (i j : Nat) (w : Nat × Nat)
    (first : s.behind (.access who reg i j (some w)) = none) (runs : ownerRuns s reg i) :
    s.arrive (.access who reg i j (some w)) = s.regEffect who reg i j w.1 w.2 := by
  have awake : (agOf reg i).toList.find? (fun g => !s.groupRuns g) = none := by
    simp only [List.find?_eq_none, Option.mem_toList]
    intro g hg
    simp [State.groupRuns_of_ownerRuns runs hg]
  simp [State.arrive, first, State.groupsFor, awake, State.deliver]

/-- An access that nothing goes before is held for a group that sleeps (R286). -/
theorem State.arrive_access_sleeps (s : State) (who : Requester) (reg : Reg) (i j g : Nat) (w : Nat × Nat)
    (first : s.behind (.access who reg i j (some w)) = none) (group : agOf reg i = some g) (asleep : s.groupRuns g = false) :
    s.arrive (.access who reg i j (some w)) = s.holdEvent g (.access who reg i j (some w)) := by
  simp [State.arrive, first, State.groupsFor, group, asleep]

/-- The wake controller holds an event after those it holds already, and changes nothing but its own queues. -/
theorem State.holdEvent_eq (s : State) (g : Nat) (ev : HeldEvent) (up : s.safe = false) (here : s.rd F.CLK_AG_STATE g ≠ 4) :
    (s.holdEvent g ev).pwr.held = s.pwr.held ++ [(g, ev)] ∧ s.holdEvent g ev = { s with pwr := (s.holdEvent g ev).pwr } := by
  unfold State.holdEvent State.wakeRequest
  rw [if_neg (by simp [up, here])]
  dsimp only
  split <;> exact ⟨rfl, rfl⟩

theorem State.behind_mgt (s : State) (reg : Reg) (i j : Nat) (w : Option (Nat × Nat)) : s.behind (.access .mgt reg i j w) = none := by
  cases w <;> rfl

/-- A write or a read at an undefined offset of a window has no effect (R6). -/
theorem State.regEffect_undefined (s : State) (who : Requester) (reg : Reg) (i j v n : Nat) (undef : hasInst reg i j = false) :
    s.regEffect who reg i j v n = s := by
  simp [State.regEffect, undef]

theorem State.readReg_undefined (s : State) (reg : Reg) (i j : Nat) (event : Option Nat) (undef : hasInst reg i j = false) :
    s.readReg reg i j event = { s with host := { s.host with readBack := natLe (reg.width / 8) 0 } } := by
  simp [State.readReg, State.readBytes, undef]

/-! ### Misaligned and denied accesses -/

theorem exec_misalignedAccess_acts (s : State) (t : Nat) (who : Requester) (reg : Reg) (i j : Nat) (write : Bool)
    (window : hasWindow reg i = true) (acts : s.fate who reg i write = .acts) :
    exec (.misalignedAccess t who reg i j write) s = .next ((s.tick t).badAccess reg i write) := by
  change execMisalignedAccess t who reg i j write s = _
  simp [execMisalignedAccess, window, acts]

/-- BELFRY_REGISTER_DENIED outside the core's reach (R239). -/
theorem exec_belfryRegisterDenied_outside (s : State) (t n p : Nat) (reg : Reg) (i j : Nat) (write : Bool) (core : n < 48)
    (hi : i < reg.axes.1) (hj : j < reg.axes.2.1) (part : s.corePart n = some p)
    (out : bfyClosed reg = true ∨ s.foreignInst p reg i = true) :
    exec (.belfryRegisterDenied t n reg i j write) s =
      .next ((if write then s.tick t else (s.tick t).readOnes reg).raise (deniedReport n p write)) := by
  change execBelfryRegisterDenied t n reg i j write s = _
  have part' : (s.tick t).corePart n = some p := part
  have out' : bfyClosed reg = true ∨ (s.tick t).foreignInst p reg i = true := out
  simp [execBelfryRegisterDenied, core, hi, hj, part', out', State.coreDenied_eq, State.readOnes]

/-- Settles O16: each clause is one branch of the access, and what that branch raises, holds or returns. -/
theorem badAccessesAndDenials : Obligations.BadAccessesAndDenials := by
  unfold Obligations.BadAccessesAndDenials
  refine ⟨?misalignedRead, ?misalignedWrite, ?closed, ?undefined, ?asleep, ?coreOutside, ?bfyWrite, ?vf⟩
  case misalignedRead =>
    intro s t who reg i j window acts
    refine ⟨_, badReport reg i false, exec_misalignedAccess_acts s t who reg i j false window acts, ?_, rfl, rfl,
      State.raise_readOnes_fc _ _ _, ?_, sameMem_of_mem ?_⟩
    · simp [State.badAccess_read, State.readOnes]
    · simp [State.badAccess_read, State.readOnes]
    · simp [State.badAccess_read, State.readOnes]
  case misalignedWrite =>
    intro s t who reg i j window acts
    exact ⟨_, badReport reg i true, exec_misalignedAccess_acts s t who reg i j true window acts, rfl, rfl, rfl, s.tick_raise_frame t _⟩
  case closed =>
    intro s t who reg i j v n window acts bad posted
    exact ⟨_, badReport reg i true, exec_registerWrite_bad t j v n window posted acts bad, rfl, rfl, rfl, s.tick_raise_frame t _⟩
  case undefined =>
    intro s t reg i j v n window undef table there runs posted
    constructor
    · rw [exec_registerWrite_acts t j v n window posted rfl table there,
        State.arrive_access_runs (s.tick t) _ _ _ _ _ (State.behind_mgt _ _ _ _ _) runs, State.regEffect_undefined _ _ _ _ _ _ _ undef]
    · rw [exec_rcCounterRead_acts t j window posted none rfl there runs, State.readReg_undefined _ _ _ _ _ undef]
      rfl
  case asleep =>
    intro s t g who reg i j v n window acts there group up posted first sleeps
    have asleep : s.groupRuns g = false := by
      simp only [State.groupRuns, decide_eq_false_iff_not]
      omega
    obtain ⟨held, frame⟩ := (s.tick t).holdEvent_eq g (.access who reg i j (some (v, n))) up (by rw [State.tick_rd]; omega)
    refine ⟨_, ?_, held, ?_⟩
    · rw [exec_registerWrite_acts t j v n window posted acts (ne_ldirTable_of_agOf group) there,
        State.arrive_access_sleeps (s.tick t) _ _ _ _ g _ first group asleep]
    · rw [frame]
      rfl
  case coreOutside =>
    intro s t n p reg i j w core hi hj part out
    refine ⟨_, deniedReport n p w, exec_belfryRegisterDenied_outside s t n p reg i j w core hi hj part out, rfl, rfl, rfl, ?_, ?_, ?_,
      sameMem_of_mem ?_⟩
    · cases w
      · exact State.raise_readOnes_fc _ _ _
      · rfl
    · rintro rfl
      simp [State.readOnes]
    · cases w <;> simp [State.readOnes]
    · cases w <;> simp [State.readOnes]
  case bfyWrite =>
    intro s t p reg i j v n window out posted
    exact ⟨_, _, exec_registerWrite_denied t j v n window posted (s.fate_bfy_outside p reg i true out), rfl, rfl, rfl, rfl,
      s.tick_raise_frame t _⟩
  case vf =>
    intro s t k reg i j v n window db page posted
    exact ⟨exec_registerWrite_nothing t j v n window posted (s.fate_vf_outside k reg i true db page),
      exec_rcCounterRead_nothing t j window posted none (s.fate_vf_outside k reg i false db page)⟩

end Sys2Proof.Machine
end

section
/-!
PROOFS of the scope statements (spec/00): the fields of a register, what a write and a read do to each by its type (O15).
-/

namespace Sys2Proof.Machine

/-! ### The fields of a register (R7) -/

theorem Reg.reg_of_mem_fields {reg : Reg} {f : Fld} (h : f ∈ reg.fields) : f.reg = reg := by
  have all : ∀ g ∈ reg.fields, g.reg = reg := by cases reg <;> decide
  exact all f h

/-- No two fields of a register begin at one bit. -/
theorem Reg.nodup_lsb (reg : Reg) : (reg.fields.map (fun f => f.lsb)).Nodup := by
  cases reg <;> decide

theorem Reg.width_pos_of_mem_fields {reg : Reg} {f : Fld} (h : f ∈ reg.fields) : 0 < f.width := by
  have all : ∀ g ∈ reg.fields, 0 < g.width := by cases reg <;> decide
  exact all f h

/-! ### Field after field of one register -/

section Fields
variable {step : State → Fld → State} {i j : Nat}
  (miss : ∀ (s : State) (f g : Fld) (i' j' : Nat), fkey g i' j' ≠ fkey f i j → (step s f).rd g i' j' = s.rd g i' j')
include miss

/-- A fold over fields leaves every field with another key. -/
theorem rd_foldl_fields_other (l : List Fld) (s : State) (g : Fld) (i' j' : Nat) (out : ∀ f ∈ l, fkey g i' j' ≠ fkey f i j) :
    (l.foldl step s).rd g i' j' = s.rd g i' j' := by
  induction l generalizing s with
  | nil => rfl
  | cons f l ih =>
    rw [List.foldl_cons, ih _ (fun x hx => out x (List.mem_cons_of_mem _ hx)), miss s f g i' j' (out f List.mem_cons_self)]

/-- A fold over fields that begin at different bits gives each what its own step does. -/
theorem rd_foldl_fields {val : Fld → Nat → Nat} (hit : ∀ s f, (step s f).rd f i j = val f (s.rd f i j)) {l : List Fld}
    (nodup : (l.map (fun f => f.lsb)).Nodup) (s : State) {f : Fld} (mem : f ∈ l) : (l.foldl step s).rd f i j = val f (s.rd f i j) := by
  have key : ∀ {g : Fld}, f.lsb ≠ g.lsb → fkey f i j ≠ fkey g i j := fun h e => h (congrArg FKey.lsb e)
  induction l generalizing s with
  | nil => cases mem
  | cons g l ih =>
    rw [List.map_cons, List.nodup_cons] at nodup
    obtain ⟨fresh, nodup⟩ := nodup
    rw [List.foldl_cons]
    rcases List.mem_cons.mp mem with rfl | tail
    · rw [rd_foldl_fields_other miss l _ f i j, hit]
      exact fun x hx => key fun e => fresh (List.mem_map.mpr ⟨x, hx, e.symm⟩)
    · rw [ih nodup _ tail, miss s g f i j]
      exact key fun e => fresh (List.mem_map.mpr ⟨f, tail, e⟩)

end Fields

theorem fkey_ne_of_reg {f g : Fld} {i j i' j' : Nat} (h : g.reg ≠ f.reg) : fkey g i' j' ≠ fkey f i j := fun e => h (congrArg FKey.reg e)

/-! ### What a write does to one field (R7) -/

/-- What a field that held `old` holds after a write of `v` to its register, with the bits `n` set by the device in the same cycle. -/
def writtenField (v n : Nat) (f : Fld) (old : Nat) : Nat :=
  match f.ty with
  | .RW => bits v f.lsb f.width
  | .RW1C => ((old &&& (2 ^ f.width - 1 - bits v f.lsb f.width)) ||| bits n f.lsb f.width) % 2 ^ f.width
  | _ => old

theorem bits_lt (v lsb w : Nat) : bits v lsb w < 2 ^ w := Nat.mod_lt _ (Nat.two_pow_pos w)

theorem testBit_bits (v lsb w b : Nat) (h : b < w) : (bits v lsb w).testBit b = v.testBit (lsb + b) := by
  rw [bits, Nat.testBit_mod_two_pow, Nat.testBit_div_two_pow]
  simp [h, Nat.add_comm]

theorem State.rd_fieldWrite_same (s : State) (f : Fld) (i j v n : Nat) : (s.fieldWrite f i j v n).rd f i j = writtenField v n f (s.rd f i j) := by
  cases ty : f.ty <;> simp only [State.fieldWrite, writtenField, ty, State.rd_wr_same]
  exact Nat.mod_eq_of_lt (bits_lt v f.lsb f.width)

theorem State.rd_fieldWrite_other (s : State) (f g : Fld) (i j v n i' j' : Nat) (h : fkey g i' j' ≠ fkey f i j) :
    (s.fieldWrite f i j v n).rd g i' j' = s.rd g i' j' := by
  unfold State.fieldWrite
  dsimp only
  split
  · exact State.rd_wr_other _ _ _ _ _ _ _ _ h
  · exact State.rd_wr_other _ _ _ _ _ _ _ _ h
  · rfl

theorem State.onlyRegs_fieldWrite (s : State) (f : Fld) (i j v n : Nat) : onlyRegs s (s.fieldWrite f i j v n) := by
  unfold State.fieldWrite
  dsimp only
  split <;> rfl

/-- In an RW1C field a 1 clears its bit, and the device's set wins. -/
theorem testBit_writtenField_RW1C (v n : Nat) (f : Fld) (old b : Nat) (ty : f.ty = .RW1C) (hb : b < f.width) :
    (writtenField v n f old).testBit b = ((old.testBit b && !v.testBit (f.lsb + b)) || n.testBit (f.lsb + b)) := by
  have flip : 2 ^ f.width - 1 - bits v f.lsb f.width = 2 ^ f.width - (bits v f.lsb f.width + 1) := by omega
  simp only [writtenField, ty]
  rw [Nat.testBit_mod_two_pow, flip, Nat.testBit_or, Nat.testBit_and, Nat.testBit_two_pow_sub_succ (bits_lt _ _ _),
    testBit_bits v _ _ b hb, testBit_bits n _ _ b hb]
  simp [hb]

/-! ### The RC fields of a register that is read (R7) -/

theorem State.rd_clearRc_counted (s : State) (reg : Reg) (i j : Nat) (event : Option Nat) {f : Fld} (mem : f ∈ reg.fields) (ty : f.ty = .RC) :
    (s.clearRc reg i j event).rd f i j = if event = some f.lsb then 1 else 0 := by
  have nodup : ((reg.fields.filter (fun f => f.ty = .RC)).map (fun f => f.lsb)).Nodup := (Reg.nodup_lsb reg).sublist (List.filter_sublist.map _)
  have e := rd_foldl_fields (i := i) (j := j) (val := fun f _ => (if event = some f.lsb then 1 else 0) % 2 ^ f.width)
    (fun s f g i' j' h => s.rd_wr_other f g (if event = some f.lsb then 1 else 0) i j i' j' h)
    (fun s f => s.rd_wr_same f _ i j) nodup s (List.mem_filter.mpr ⟨mem, by simpa using ty⟩)
  refine e.trans (Nat.mod_eq_of_lt ?_)
  have := Nat.one_lt_two_pow (Reg.width_pos_of_mem_fields mem).ne'
  split <;> omega

theorem State.rd_clearRc_other (s : State) (reg : Reg) (i j : Nat) (event : Option Nat) (g : Fld) (i' j' : Nat)
    (out : ∀ f ∈ reg.fields, f.ty = .RC → fkey g i' j' ≠ fkey f i j) : (s.clearRc reg i j event).rd g i' j' = s.rd g i' j' :=
  rd_foldl_fields_other (fun s f g i' j' h => s.rd_wr_other f g _ i j i' j' h) _ s g i' j'
    (fun f hf => out f (List.mem_filter.mp hf).1 (by simpa using (List.mem_filter.mp hf).2))

theorem State.onlyRegs_clearRc (s : State) (reg : Reg) (i j : Nat) (event : Option Nat) : onlyRegs s (s.clearRc reg i j event) :=
  foldl_onlyRegs (fun s f => onlyRegs_wr s f _ i j) _ s

/-- A read leaves every field of the register that is no RC field. -/
theorem State.rd_clearRc_kept (s : State) (reg : Reg) (i j : Nat) (event : Option Nat) {f : Fld} (mem : f ∈ reg.fields) (ty : f.ty ≠ .RC) :
    (s.clearRc reg i j event).rd f i j = s.rd f i j := by
  refine State.rd_clearRc_other s reg i j event f i j fun g hg rc e => ty ?_
  rw [List.inj_on_of_nodup_map (Reg.nodup_lsb reg) mem hg (congrArg FKey.lsb e), rc]

/-! ### A read of a register that exists -/

/-- The read-back buffer takes the bytes of a read, and nothing else changes. -/
def State.withReadBack (s : State) (b : Bytes) : State := { s with host := { s.host with readBack := b } }

theorem State.readReg_plain (s : State) (reg : Reg) (i j : Nat) (event : Option Nat) (there : hasInst reg i j = true) (ld : reg ≠ .LDIR_DATA) :
    s.readReg reg i j event = (s.withReadBack (s.readBytes reg i j)).clearRc reg i j event := by
  simp [State.readReg, there, ld, State.withReadBack]

theorem State.readReg_ldirData (s : State) (event : Option Nat) :
    s.readReg .LDIR_DATA 0 0 event =
      (s.withReadBack s.ldirData.1).wr F.LDIR_INDEX_DWORD ((s.rd F.LDIR_INDEX_DWORD + 1) % 2 ^ 14) := rfl

theorem State.readBytes_plain (s : State) (reg : Reg) (i j : Nat) (there : hasInst reg i j = true) (table : reg ≠ .LDIR_TABLE)
    (ld : reg ≠ .LDIR_DATA) (log : reg ≠ .FC_LOG) : s.readBytes reg i j = natLe (reg.width / 8) (s.shown reg i j) := by
  unfold State.readBytes
  simp only [there, Bool.not_true, Bool.false_eq_true, if_false]

theorem State.readBytes_table (s : State) (i : Nat) (there : hasInst .LDIR_TABLE i 0 = true) :
    s.readBytes .LDIR_TABLE i 0 = slice s.ldBytes (8 * i) 8 := by
  unfold State.readBytes
  simp [there]

/-- Settles O15: a read returns the value and clears the RC fields one after another; a write gives each field what its type says. -/
theorem registerReadClears : Obligations.RegisterReadClears := by
  unfold Obligations.RegisterReadClears
  refine ⟨?plain, ?ldirData, ?types⟩
  case plain =>
    intro s t who reg i j event hi hj ld acts there runs posted
    have inst := hasInst_of_lt hi hj
    have host := State.onlyRegs_clearRc ((s.tick t).withReadBack ((s.tick t).readBytes reg i j)) reg i j event
    refine ⟨_, exec_rcCounterRead_acts t j (hasWindow_of_inst hi) posted event acts there runs, ?_⟩
    rw [State.readReg_plain _ _ _ _ _ inst ld]
    refine ⟨fun table log => ?_, ?_, fun f mem ty => State.rd_clearRc_counted _ _ _ _ _ mem ty,
      fun f mem ty => State.rd_clearRc_kept _ _ _ _ _ mem ty, fun f i' j' out => ?_, ?_⟩
    · rw [host]
      exact State.readBytes_plain _ _ _ _ inst table ld log
    · rintro rfl rfl
      rw [host]
      exact State.readBytes_table _ _ inst
    · refine State.rd_clearRc_other _ _ _ _ _ f i' j' fun g mem _ => fkey_ne_of_reg fun e => out ?_
      simpa [Reg.reg_of_mem_fields mem] using e
    · rw [host]
      rfl
  case ldirData =>
    intro s t who event acts there posted
    refine ⟨_, exec_rcCounterRead_acts t 0 rfl posted event acts there (fun g hg => by simp [agOf, Reg.axes] at hg), rfl, ?_, ?_, rfl⟩
    · rw [State.readReg_ldirData]
      refine (State.rd_wr_same _ F.LDIR_INDEX_DWORD _ _ _).trans ?_
      exact Nat.mod_mod _ _
    · intro f i j out
      rw [State.readReg_ldirData]
      exact State.rd_wr_other _ F.LDIR_INDEX_DWORD f _ 0 0 i j (fun e => out (List.mem_singleton.mpr e))
  case types =>
    intro s f i j v n
    rw [State.rd_fieldWrite_same]
    refine ⟨?_, ?_, fun ty _ b hb => testBit_writtenField_RW1C v n f _ b ty hb⟩
    · rintro (ty | ty | ty) <;> simp [writtenField, ty]
    · intro ty
      simp [writtenField, ty]

end Sys2Proof.Machine
end

section
/-!
PROOFS of the scope statements (spec/00): what holds of a register write by type, and the state that refutes its clause on collector records (O14).
-/

namespace Sys2Proof.Machine

/-! ### A write by type: what holds of it, and the directory that hides the collector -/

theorem State.rd_plainWrite_mem (s : State) (reg : Reg) (i j v n : Nat) {f : Fld} (mem : f ∈ reg.fields) :
    (s.plainWrite reg i j v n).rd f i j = writtenField v n f (s.rd f i j) :=
  rd_foldl_fields (fun s f g i' j' h => s.rd_fieldWrite_other f g i j v n i' j' h) (fun s f => s.rd_fieldWrite_same f i j v n)
    (Reg.nodup_lsb reg) s mem

theorem State.rd_plainWrite_other (s : State) (reg : Reg) (i j v n : Nat) (g : Fld) (i' j' : Nat)
    (out : ∀ f ∈ reg.fields, fkey g i' j' ≠ fkey f i j) : (s.plainWrite reg i j v n).rd g i' j' = s.rd g i' j' :=
  rd_foldl_fields_other (fun s f g i' j' h => s.rd_fieldWrite_other f g i j v n i' j' h) _ s g i' j' out

theorem State.onlyRegs_plainWrite (s : State) (reg : Reg) (i j v n : Nat) : onlyRegs s (s.plainWrite reg i j v n) :=
  foldl_onlyRegs (fun s f => s.onlyRegs_fieldWrite f i j v n) _ s

/-- A write to a register without an effect of its own acts on its fields alone. -/
theorem State.regEffect_plain (s : State) (who : Requester) (reg : Reg) (i j v n : Nat) (there : hasInst reg i j = true)
    (plain : reg ∉ specialRegs) : s.regEffect who reg i j v n = s.plainWrite reg i j v n := by
  unfold State.regEffect
  rw [if_neg (by simp [there])]
  split
  case h_24 => rfl
  all_goals exact absurd (by decide) plain

/-- The first clause of RegisterWriteTypes holds: a write by the management core to a register without an effect of its own, in a window that is
present and awake, acts on each field by its type (writtenField, R7), stores no other bits and changes nothing else. -/
theorem registerWrite_actsByType {s : State} (t : Nat) {reg : Reg} {i j : Nat} (v n : Nat) (hi : i < reg.axes.1) (hj : j < reg.axes.2.1)
    (plain : reg ∉ specialRegs) (there : s.closedReg reg i = false) (runs : ownerRuns s reg i) (posted : nonePosted s) :
    ∃ s', exec (.registerWrite t .mgt reg i j v n) s = .next s' ∧
      (∀ f ∈ reg.fields, s'.rd f i j = writtenField v n f (s.rd f i j)) ∧
      (∀ (f : Fld) (i' j' : Nat), (f.reg ≠ reg ∨ i' ≠ i ∨ j' ≠ j ∨ ∀ g ∈ reg.fields, g.lsb ≠ f.lsb) →
        s'.rd f i' j' = s.rd f i' j') ∧
      s' = { s with now := s'.now, regs := s'.regs } := by
  have table : reg ≠ .LDIR_TABLE := fun e => plain (e ▸ by decide)
  refine ⟨(s.tick t).plainWrite reg i j v n, ?_, fun f mem => State.rd_plainWrite_mem _ _ _ _ _ _ mem, fun f i' j' out => ?_, ?_⟩
  · rw [exec_registerWrite_acts t j v n (hasWindow_of_inst hi) posted rfl table there,
      State.arrive_access_runs (s.tick t) _ _ _ _ _ (State.behind_mgt _ _ _ _ _) runs,
      State.regEffect_plain _ _ _ _ _ _ _ (hasInst_of_lt hi hj) plain]
  · refine State.rd_plainWrite_other _ _ _ _ _ _ f i' j' fun g mem e => ?_
    obtain ⟨hreg, hinst, hinst', hlsb⟩ : f.reg = g.reg ∧ i' = i ∧ j' = j ∧ f.lsb = g.lsb := by simpa [fkey] using e
    rcases out with out | out | out | out
    · exact out (hreg.trans (Reg.reg_of_mem_fields mem))
    · exact out hinst
    · exact out hinst'
    · exact out g mem hlsb.symm
  · rw [State.onlyRegs_plainWrite (s.tick t) reg i j v n]
    rfl

/-- VALID of word 2 of a collector record is cleared where the directory shows the record's block present: the hypothesis that the second
clause of RegisterWriteTypes lacks. -/
theorem exec_registerWrite_recordValid {s : State} (t : Nat) {i v : Nat} (hi : i < Reg.FC_REC.axes.1) (one : v.testBit 63 = true)
    (there : s.closedReg .FC_REC i = false) (posted : nonePosted s) :
    exec (.registerWrite t .mgt .FC_REC i 2 v 0) s = .next ((s.tick t).wr F.FC_REC_HI 0 i 2) := by
  rw [exec_registerWrite_acts t 2 v 0 (hasWindow_of_inst hi) posted rfl (by decide) there,
    State.arrive_access_runs (s.tick t) _ _ _ _ _ (State.behind_mgt _ _ _ _ _) (fun g hg => by simp [agOf, Reg.axes] at hg)]
  simp [State.regEffect, hasInst_of_lt hi (show 2 < Reg.FC_REC.axes.2.1 by decide), one, State.wrB]

/-- A device whose directory lists, as ABSENT, an entry of type 0 and number 0, which stands for the blocks that have no entry of their own.
VALID of class 0's collector record reads 1. -/
def collectorHidden : State :=
  { State.reset.wr F.FC_REC_HI 1 0 2 with
    ldir := [{ type := 0, inst := 0, state := 2, part := 255, parent := 0xFFFF, window := 0, windowBytes := 0, count0 := 0, count1 := 0,
               caps := 0 }] }

/-- Refutes O14: its second clause does not ask that the directory show the collector's block present, as the first does. In a state whose
directory holds an ABSENT entry of type 0 (none that an update of the directory makes), the write of 1 to VALID is an access handled as R5
states: it raises a fault, and VALID stays 1. The first clause holds (registerWrite_actsByType), and so does the second where the block is
present (exec_registerWrite_recordValid). -/
theorem not_registerWriteTypes : ¬ Obligations.RegisterWriteTypes := by
  unfold Obligations.RegisterWriteTypes
  rintro ⟨_, recordValid⟩
  have posted : nonePosted collectorHidden := fun e he => absurd he List.not_mem_nil
  obtain ⟨s', run, cleared, _⟩ := recordValid collectorHidden 0 0 (2 ^ 63) (by decide) (by decide) posted
  rw [exec_registerWrite_bad 0 2 (2 ^ 63) 0 rfl posted rfl (Or.inr rfl)] at run
  obtain rfl := Host.Outcome.next.inj run
  rw [State.raise_rd, State.tick_rd] at cleared
  exact absurd cleared (by decide)

end Sys2Proof.Machine
end

section
/-!
PROOFS of the scope statements (spec/00): interrupt vectors, the sessions and what shows them (for O41).
-/

namespace Sys2Proof.Machine

/-! ### What raising vectors leaves (R304, R320) -/

/-- A raised vector leaves of the host link everything but its vectors. -/
theorem HostSt.raised_eq (h : HostSt) (fn : Fn) (v : Nat) : ∃ a b c, h.raised fn v = { h with vecs := a, pba := b, msgs := c } := by
  unfold HostSt.raised
  split
  · exact ⟨_, _, _, rfl⟩
  · exact ⟨_, _, _, rfl⟩

/-- The second state differs from the first in the vectors the host link has raised alone. -/
def onlyVecs (s s' : State) : Prop := ∃ a b c, s' = { s with host := { s.host with vecs := a, pba := b, msgs := c } }

theorem onlyVecs_refl (s : State) : onlyVecs s s := ⟨_, _, _, rfl⟩

theorem onlyVecs_trans (x y z : State) (h : onlyVecs x y) (h' : onlyVecs y z) : onlyVecs x z := by
  obtain ⟨_, _, _, rfl⟩ := h
  obtain ⟨_, _, _, rfl⟩ := h'
  exact ⟨_, _, _, rfl⟩

theorem State.onlyVecs_vec (s : State) (fn : Fn) (v : Nat) : onlyVecs s (s.vec fn v) := by
  obtain ⟨a, b, c, e⟩ := s.host.raised_eq fn v
  exact ⟨a, b, c, by rw [State.vec, e]⟩

theorem State.onlyVecs_absentVectors (s : State) (fn : Fn) : onlyVecs s (s.absentVectors fn) :=
  foldl_related onlyVecs onlyVecs_refl onlyVecs_trans
    (fun s p => onlyVecs_trans _ _ _ (s.onlyVecs_vec .pf0 (32 + p)) (State.onlyVecs_vec _ (.vf (p + 1)) 2)) _ s

theorem State.onlyVecs_mbxVector (s : State) (fn : Fn) (m : Nat) : onlyVecs s (s.mbxVector fn m) := by
  have first : onlyVecs s (if m < 16 then s.vec .pf0 m else s) := by
    split
    · exact s.onlyVecs_vec _ _
    · exact onlyVecs_refl s
  unfold State.mbxVector
  dsimp only
  split
  · exact first
  · exact onlyVecs_trans _ _ _ first (State.onlyVecs_vec _ _ _)

/-! ### Sessions and what shows them (R312, R320) -/

/-- What MBX_STATUS and MGT_HOST show of mailbox `m`. -/
def State.showSession (s : State) (m : Nat) : State :=
  ((s.wr F.MBX_STATUS_OWNER (((s.session m).map (fun y => ownerCode y.fn)).getD 0) m).wrB F.MBX_STATUS_ABSENT
    ((s.session m).any (fun y => y.absentAt.isSome)) m).wrBit F.MGT_HOST_ABSENT m ((s.session m).any (fun y => y.absentAt.isSome))

theorem State.showSessions_eq (s : State) : s.showSessions = (List.range 16).foldl State.showSession s := rfl

theorem State.onlyRegs_showSession (s : State) (m : Nat) : onlyRegs s (s.showSession m) := rfl

theorem State.onlyRegs_showSessions (s : State) : onlyRegs s s.showSessions := foldl_onlyRegs State.onlyRegs_showSession _ s

theorem State.rd_showSession_reg (s : State) (m : Nat) (f : Fld) (i j : Nat) (mbx : f.reg ≠ .MBX_STATUS) (host : f.reg ≠ .MGT_HOST) :
    (s.showSession m).rd f i j = s.rd f i j := by
  unfold State.showSession State.wrBit State.wrB
  rw [State.rd_wr_reg _ _ _ _ _ _ _ _ host, State.rd_wr_reg _ _ _ _ _ _ _ _ mbx, State.rd_wr_reg _ _ _ _ _ _ _ _ mbx]

theorem State.rd_showSessions_reg (s : State) (f : Fld) (i j : Nat) (mbx : f.reg ≠ .MBX_STATUS) (host : f.reg ≠ .MGT_HOST) :
    s.showSessions.rd f i j = s.rd f i j :=
  foldl_keeps (fun s => s.rd f i j) (fun s m => s.rd_showSession_reg m f i j mbx host) _ s

/-- MBX_STATUS.OWNER shows whose session a mailbox has. -/
theorem State.rd_showSessions_owner (s : State) (m : Nat) (h : m < 16) :
    s.showSessions.rd F.MBX_STATUS_OWNER m = ((s.session m).map (fun y => ownerCode y.fn)).getD 0 % 2 ^ F.MBX_STATUS_OWNER.width := by
  have e := rd_foldl_instances (step := State.showSession) (f := F.MBX_STATUS_OWNER)
    (val := fun s m => ((s.session m).map (fun y => ownerCode y.fn)).getD 0 % 2 ^ F.MBX_STATUS_OWNER.width) (fun _ _ _ => rfl) ?_ ?_
    (List.range 16) s m
  · rw [State.showSessions_eq, e, if_pos (List.mem_range.mpr h)]
  · intro s m
    unfold State.showSession State.wrBit State.wrB
    rw [State.rd_wr_reg _ _ _ _ _ _ _ _ (by decide), State.rd_wr_lsb _ _ _ _ _ _ _ _ (by decide)]
    exact State.rd_wr_same _ F.MBX_STATUS_OWNER _ _ _
  · intro s a m ne
    unfold State.showSession State.wrBit State.wrB
    rw [State.rd_wr_reg _ _ _ _ _ _ _ _ (by decide), State.rd_wr_inst _ _ _ _ _ _ _ _ (Or.inl ne), State.rd_wr_inst _ _ _ _ _ _ _ _ (Or.inl ne)]

/-- MBX_STATUS.ABSENT shows whether a mailbox's session is host-absent. -/
theorem State.rd_showSessions_absent (s : State) (m : Nat) (h : m < 16) :
    s.showSessions.rd F.MBX_STATUS_ABSENT m = if (s.session m).any (fun y => y.absentAt.isSome) then 1 else 0 := by
  have e := rd_foldl_instances (step := State.showSession) (f := F.MBX_STATUS_ABSENT)
    (val := fun s m => if (s.session m).any (fun y => y.absentAt.isSome) then 1 else 0) (fun _ _ _ => rfl) ?_ ?_ (List.range 16) s m
  · rw [State.showSessions_eq, e, if_pos (List.mem_range.mpr h)]
  · intro s m
    unfold State.showSession State.wrBit State.wrB
    rw [State.rd_wr_reg _ _ _ _ _ _ _ _ (by decide), State.rd_wr_same]
    split <;> rfl
  · intro s a m ne
    unfold State.showSession State.wrBit State.wrB
    rw [State.rd_wr_reg _ _ _ _ _ _ _ _ (by decide), State.rd_wr_inst _ _ _ _ _ _ _ _ (Or.inl ne), State.rd_wr_inst _ _ _ _ _ _ _ _ (Or.inl ne)]

/-- A change of the sessions leaves everything but them and registers. -/
theorem State.setSessions_frame (s : State) (l : List Session) :
    s.setSessions l = { s with regs := (s.setSessions l).regs, host := { s.host with sessions := l } } :=
  State.onlyRegs_showSessions _

/-- The sessions alone say which one a mailbox has. -/
theorem State.session_congr {s s' : State} (h : s'.host.sessions = s.host.sessions) (m : Nat) : s'.session m = s.session m :=
  congrArg (fun l : List Session => l.find? (fun x : Session => decide (x.m = m))) h

theorem State.session_setSessions (s : State) (l : List Session) (m : Nat) : (s.setSessions l).session m = l.find? (fun x => x.m = m) := by
  unfold State.session
  rw [State.setSessions_frame]

/-- MBX_STATUS shows the sessions that were set. -/
theorem State.rd_setSessions_owner (s : State) (l : List Session) (m : Nat) (h : m < 16) : (s.setSessions l).rd F.MBX_STATUS_OWNER m =
    (((s.setSessions l).session m).map (fun y => ownerCode y.fn)).getD 0 % 2 ^ F.MBX_STATUS_OWNER.width := by
  rw [State.session_setSessions]
  exact State.rd_showSessions_owner _ m h

theorem State.rd_setSessions_absent (s : State) (l : List Session) (m : Nat) (h : m < 16) : (s.setSessions l).rd F.MBX_STATUS_ABSENT m =
    if ((s.setSessions l).session m).any (fun y => y.absentAt.isSome) then 1 else 0 := by
  rw [State.session_setSessions]
  exact State.rd_showSessions_absent _ m h

/-- The session found for a mailbox is that mailbox's. -/
theorem State.m_of_session {s : State} {m : Nat} {x : Session} (h : s.session m = some x) : x.m = m := by
  simpa using List.find?_some h

/-- A session put in its mailbox's place is the session found there. -/
theorem State.session_putSession (s : State) (m : Nat) (x y : Session) (old : s.session m = some x) (same : y.m = m) :
    (s.putSession y).session m = some y := by
  have place : ((fun z : Session => decide (z.m = m)) ∘ fun z => if z.m = y.m then y else z) = fun z : Session => decide (z.m = m) := by
    funext z
    by_cases hz : z.m = m <;> simp [hz, same]
  have found : s.host.sessions.find? (fun z => z.m = m) = some x := old
  rw [State.putSession, State.session_setSessions, List.find?_map, place, found]
  simp [State.m_of_session old, same]

theorem State.putSession_eq (s : State) (y : Session) :
    s.putSession y = s.setSessions (s.host.sessions.map (fun z => if z.m = y.m then y else z)) := rfl

@[simp] theorem State.putSession_mem (s : State) (y : Session) : (s.putSession y).mem = s.mem := by
  rw [State.putSession_eq, State.setSessions_frame]

@[simp] theorem State.putSession_ctxs (s : State) (y : Session) : (s.putSession y).ctxs = s.ctxs := by
  rw [State.putSession_eq, State.setSessions_frame]

theorem State.rd_putSession_reg (s : State) (y : Session) (f : Fld) (i j : Nat) (mbx : f.reg ≠ .MBX_STATUS) (host : f.reg ≠ .MGT_HOST) :
    (s.putSession y).rd f i j = s.rd f i j := by
  rw [State.putSession_eq, State.setSessions, State.rd_showSessions_reg _ _ _ _ mbx host]
  rfl

/-- MBX_STATUS.ABSENT shows a session that is put in its place as absent. -/
theorem State.absent_putSession (s : State) (m : Nat) (x y : Session) (hm : m < 16) (old : s.session m = some x) (same : y.m = m)
    (away : y.absentAt.isSome = true) : (s.putSession y).rd F.MBX_STATUS_ABSENT m = 1 := by
  have found := State.session_putSession s m x y old same
  rw [State.putSession_eq] at found ⊢
  rw [State.rd_setSessions_absent _ _ _ hm, found]
  exact if_pos away

/-! ### Absent sessions (R320, R321) -/

/-- The second state holds the same sessions, contexts and bytes, and every register but MGT_HOST reads as in the first. -/
def samePresence (s s' : State) : Prop :=
  s'.host.sessions = s.host.sessions ∧ s'.ctxs = s.ctxs ∧ s'.mem = s.mem ∧ sameRegsBut [.MGT_HOST] s s'

theorem samePresence_refl (s : State) : samePresence s s := ⟨rfl, rfl, rfl, fun _ _ _ _ => rfl⟩

theorem samePresence_trans (a b c : State) (h : samePresence a b) (h' : samePresence b c) : samePresence a c := by
  obtain ⟨h1, h2, h3, h4⟩ := h
  obtain ⟨k1, k2, k3, k4⟩ := h'
  exact ⟨k1.trans h1, k2.trans h2, k3.trans h3, fun f i j out => (k4 f i j out).trans (h4 f i j out)⟩

theorem onlyVecs.samePresence {s s' : State} (h : onlyVecs s s') : samePresence s s' := by
  obtain ⟨_, _, _, rfl⟩ := h
  exact ⟨rfl, rfl, rfl, fun _ _ _ _ => rfl⟩

theorem State.samePresence_applyPolicy (s : State) (p : Nat) : samePresence s (s.applyPolicy p) := by
  have wrote : ∀ f : Fld, f.reg = .MGT_HOST → samePresence s (s.wrBit f p true) := fun f hf =>
    ⟨rfl, rfl, rfl, fun g i j out => s.rd_wr_reg f g _ 0 0 i j (fun e => out (by simp [e, hf]))⟩
  unfold State.applyPolicy
  split
  · exact samePresence_refl s
  · split
    · exact ⟨rfl, rfl, rfl, fun _ _ _ _ => rfl⟩
    · exact wrote F.MGT_HOST_HELD rfl
  · exact wrote F.MGT_HOST_STOPPED rfl

/-- A session that lapses is marked host-absent; its policy and the notices change no session, context or byte (R320, R321). -/
theorem State.lapseSession_presence (s : State) (m : Nat) (x : Session) (found : s.session m = some x) (present : x.absentAt = none) :
    samePresence (s.putSession { x with absentAt := some s.now }) (s.lapseSession m) := by
  unfold State.lapseSession
  simp only [found, present, Option.isSome_none, Bool.false_eq_true, if_false]
  exact samePresence_trans _ _ _ (State.onlyVecs_absentVectors _ _).samePresence
    (foldl_related samePresence samePresence_refl samePresence_trans State.samePresence_applyPolicy _ _)

end Sys2Proof.Machine
end

section
/-!
PROOFS of the scope statements (spec/00): the watchdog's restart of the management core and its end (for O41).
-/

namespace Sys2Proof.Machine

/-! ### Firmware stops and starts (R298, R323 to R325) -/

/-- What AON_STAGE and the mailboxes show while the management core restarts (`down` 1, `up` 0), and once it runs (`down` 0, `up` 1). -/
def State.showFirmware (s : State) (down up : Nat) : State :=
  (List.range 32).foldl (fun (s : State) m => s.wr F.MBX_STATUS_FW_DOWN down m)
    ((((s.wr F.AON_STAGE_MGT_RESTART down).wr F.AON_STAGE_MAILBOX up).wr F.AON_STAGE_TELEMETRY up).wr F.AON_STAGE_FIRMWARE up)

section ShowFirmware
variable (s : State) (down up : Nat)

theorem State.onlyRegs_showFirmware : onlyRegs s (s.showFirmware down up) :=
  onlyRegs_trans _ _ _ ((((onlyRegs_wr s F.AON_STAGE_MGT_RESTART down 0 0).wr F.AON_STAGE_MAILBOX up 0 0).wr F.AON_STAGE_TELEMETRY up 0 0).wr
    F.AON_STAGE_FIRMWARE up 0 0) (foldl_onlyRegs (fun s m => onlyRegs_wr s F.MBX_STATUS_FW_DOWN down m 0) _ _)

theorem State.rd_showFirmware_reg (f : Fld) (i j : Nat) (mbx : f.reg ≠ .MBX_STATUS) (stage : f.reg ≠ .AON_STAGE) :
    (s.showFirmware down up).rd f i j = s.rd f i j := by
  unfold State.showFirmware
  rw [rd_foldl_wr_other F.MBX_STATUS_FW_DOWN f down (Or.inl mbx), State.rd_wr_reg _ _ _ _ _ _ _ _ stage, State.rd_wr_reg _ _ _ _ _ _ _ _ stage,
    State.rd_wr_reg _ _ _ _ _ _ _ _ stage, State.rd_wr_reg _ _ _ _ _ _ _ _ stage]

theorem State.fwDown_showFirmware (m : Nat) (h : m < 32) : (s.showFirmware down up).rd F.MBX_STATUS_FW_DOWN m = down % 2 := by
  unfold State.showFirmware
  rw [rd_foldl_wr, if_pos (List.mem_range.mpr h)]
  rfl

theorem State.rd_showFirmware_stage (f : Fld) (stage : f.reg = .AON_STAGE) : (s.showFirmware down up).rd f =
    ((((s.wr F.AON_STAGE_MGT_RESTART down).wr F.AON_STAGE_MAILBOX up).wr F.AON_STAGE_TELEMETRY up).wr F.AON_STAGE_FIRMWARE up).rd f :=
  rd_foldl_wr_other F.MBX_STATUS_FW_DOWN f down (Or.inl (by rw [stage]; decide)) _ _ 0 0

theorem State.firmware_showFirmware : (s.showFirmware down up).rd F.AON_STAGE_FIRMWARE = up % 2 := by
  rw [State.rd_showFirmware_stage _ _ _ _ rfl]
  exact State.rd_wr_same _ F.AON_STAGE_FIRMWARE up 0 0

theorem State.telemetry_showFirmware : (s.showFirmware down up).rd F.AON_STAGE_TELEMETRY = up % 2 := by
  rw [State.rd_showFirmware_stage _ _ _ _ rfl, State.rd_wr_lsb _ _ _ _ _ _ _ _ (by decide)]
  exact State.rd_wr_same _ F.AON_STAGE_TELEMETRY up 0 0

theorem State.mailbox_showFirmware : (s.showFirmware down up).rd F.AON_STAGE_MAILBOX = up % 2 := by
  rw [State.rd_showFirmware_stage _ _ _ _ rfl, State.rd_wr_lsb _ _ _ _ _ _ _ _ (by decide), State.rd_wr_lsb _ _ _ _ _ _ _ _ (by decide)]
  exact State.rd_wr_same _ F.AON_STAGE_MAILBOX up 0 0

theorem State.restart_showFirmware : (s.showFirmware down up).rd F.AON_STAGE_MGT_RESTART = down % 2 := by
  rw [State.rd_showFirmware_stage _ _ _ _ rfl, State.rd_wr_lsb _ _ _ _ _ _ _ _ (by decide), State.rd_wr_lsb _ _ _ _ _ _ _ _ (by decide),
    State.rd_wr_lsb _ _ _ _ _ _ _ _ (by decide)]
  exact State.rd_wr_same _ F.AON_STAGE_MGT_RESTART down 0 0

end ShowFirmware

/-- A kick by a Belfry core is denied (R239). -/
theorem exec_watchdogKick_bfy (s : State) (t p : Nat) : exec (.watchdogKick t (.bfy p)) s =
    .next ((s.tick t).raise (deniedReport (((s.tick t).coresOf p).head?.getD 0) p true)) := rfl

/-- The state with the MGT registers reset (R298), and another state of supplies and host link. -/
def State.mgtReset (s : State) (pwr : PowerSt) (host : HostSt) : State := { s.resetDomain .MGT with pwr := pwr, host := host }

theorem State.rd_mgtReset (s : State) (pwr : PowerSt) (host : HostSt) (f : Fld) (i j : Nat) :
    (s.mgtReset pwr host).rd f i j = if f.reg.domain = .MGT then f.rst else s.rd f i j := State.rd_resetDomain s .MGT f i j

/-- The watchdog's expiry restarts the core: the MGT registers are reset, firmware shows as down and the restart is counted; no context,
descriptor or byte changes (R298, R323). -/
theorem exec_watchdogExpire_restarts (s : State) (t : Nat) (up : s.fwUp = true) (due : s.host.kickAt + 100000000 ≤ max s.now t)
    (few : (s.tick t).recentRestarts < 3) :
    ∃ pwr host s', exec (.watchdogExpire t) s = .next s' ∧
      (∀ (f : Fld) (i j : Nat), f.reg ≠ .MGT_WDOG → s'.rd f i j = (((s.tick t).mgtReset pwr host).showFirmware 1 0).rd f i j) ∧
      s'.ctxs = s.ctxs ∧ s'.jobs = s.jobs ∧ sameMem s s' := by
  have up' : (s.tick t).fwUp = true := up
  have due' : ¬(s.tick t).now < (s.tick t).host.kickAt + 100000000 := not_lt.mpr due
  have run : ∃ pwr host r,
      execWatchdogExpire t s = .next (((((s.tick t).mgtReset pwr host).showFirmware 1 0).inc F.MGT_WDOG_RESTARTS).raise r) := by
    unfold execWatchdogExpire
    rw [if_neg (not_or.mpr ⟨by simp [up'], due'⟩), if_neg (by omega)]
    exact ⟨_, _, _, rfl⟩
  obtain ⟨pwr, host, r, run⟩ := run
  have frame := ((s.tick t).mgtReset pwr host).onlyRegs_showFirmware 1 0
  refine ⟨pwr, host, _, run, fun f i j wdog => ?_, ?_, ?_, sameMem_of_mem ?_⟩
  · rw [State.raise_rd, State.rd_inc_reg _ _ _ _ _ _ _ _ wdog]
  · rw [State.raise_ctxs, State.inc_ctxs, frame]
    rfl
  · rw [State.raise_jobs, State.inc_jobs, frame]
    rfl
  · rw [State.raise_mem, State.inc_mem, frame]
    rfl

/-- A fourth restart within 60 s is a level 3 fault, and firmware stays down (R325). -/
theorem exec_watchdogExpire_dead (s : State) (t : Nat) (up : s.fwUp = true) (due : s.host.kickAt + 100000000 ≤ max s.now t)
    (many : 3 ≤ (s.tick t).recentRestarts) :
    exec (.watchdogExpire t) s = .next (({ s.tick t with host := { s.host with fwDead := true } } : State).raise
      { cls := 2, level := 3, master := 0x58, source := 0x58, code := 1 }) := by
  have up' : (s.tick t).fwUp = true := up
  have due' : ¬(s.tick t).now < (s.tick t).host.kickAt + 100000000 := not_lt.mpr due
  change execWatchdogExpire t s = _
  unfold execWatchdogExpire
  rw [if_neg (not_or.mpr ⟨by simp [up'], due'⟩), if_pos many]
  rfl

/-! ### The answers after a restart (R324) -/

/-- A field that a response does not write: any but BUSY and DONE of a mailbox. -/
def notAnswer (f : Fld) : Prop := f.reg ≠ .MBX_STATUS ∨ (f.lsb ≠ F.MBX_STATUS_BUSY.lsb ∧ f.lsb ≠ F.MBX_STATUS_DONE.lsb)

/-- From the first state to the second only responses were written and vectors raised: of the registers BUSY and DONE of mailboxes may differ,
and the requests held or owed, and the watchdog, are as they were. -/
def onlyAnswers (s s' : State) : Prop :=
  s'.host.heldGo = s.host.heldGo ∧ s'.host.owedRestarted = s.host.owedRestarted ∧ s'.host.kickAt = s.host.kickAt ∧
    ∀ (f : Fld) (i j : Nat), notAnswer f → s'.rd f i j = s.rd f i j

theorem onlyAnswers_refl (s : State) : onlyAnswers s s := ⟨rfl, rfl, rfl, fun _ _ _ _ => rfl⟩

theorem onlyAnswers_trans (a b c : State) (h : onlyAnswers a b) (h' : onlyAnswers b c) : onlyAnswers a c := by
  obtain ⟨h1, h2, h3, h4⟩ := h
  obtain ⟨k1, k2, k3, k4⟩ := h'
  exact ⟨k1.trans h1, k2.trans h2, k3.trans h3, fun f i j out => (k4 f i j out).trans (h4 f i j out)⟩

theorem onlyVecs.onlyAnswers {s s' : State} (h : onlyVecs s s') : onlyAnswers s s' := by
  obtain ⟨_, _, _, rfl⟩ := h
  exact ⟨rfl, rfl, rfl, fun _ _ _ _ => rfl⟩

/-- A response in its buffer, with DONE set and BUSY clear, before the mailbox's vector is raised. -/
def State.responsePut (s : State) (h : MbxHdr) (status : Nat) (data : Bytes) : State :=
  ((({ s with host := { s.host with
    resps := aset s.host.resps h.m { status := status, seq := h.seq, session := h.session, data := data } } } : State).wr
      F.MBX_STATUS_BUSY 0 h.m).wr F.MBX_STATUS_DONE 1 h.m)

theorem State.respond_eq (s : State) (h : MbxHdr) (status : Nat) (data : Bytes) :
    s.respond h status data = (s.responsePut h status data).mbxVector h.fn h.m := rfl

theorem State.onlyAnswers_respond (s : State) (h : MbxHdr) (status : Nat) (data : Bytes) : onlyAnswers s (s.respond h status data) := by
  rw [State.respond_eq]
  refine onlyAnswers_trans _ (s.responsePut h status data) _ ⟨rfl, rfl, rfl, fun f i j out => ?_⟩ (State.onlyVecs_mbxVector _ _ _).onlyAnswers
  unfold State.responsePut
  rcases out with reg | ⟨busy, done⟩
  · rw [State.rd_wr_reg _ _ _ _ _ _ _ _ reg, State.rd_wr_reg _ _ _ _ _ _ _ _ reg]
    rfl
  · rw [State.rd_wr_lsb _ _ _ _ _ _ _ _ done, State.rd_wr_lsb _ _ _ _ _ _ _ _ busy]
    rfl

/-- What was outstanding at the restart is answered, and nothing is owed any more. -/
theorem State.answerRestarted_left (s : State) : s.answerRestarted.host.heldGo = s.host.heldGo ∧ s.answerRestarted.host.owedRestarted = [] ∧
    s.answerRestarted.host.kickAt = s.host.kickAt ∧ ∀ (f : Fld) (i j : Nat), notAnswer f → s.answerRestarted.rd f i j = s.rd f i j :=
  foldl_related onlyAnswers onlyAnswers_refl onlyAnswers_trans (fun s (x : MbxBusy) => s.onlyAnswers_respond x.h 10 []) s.host.owedRestarted
    { s with host := { s.host with owedRestarted := [] } }

theorem State.mirrorPut_regs (s : State) (e : FEntry) : (s.mirrorPut e).regs = s.regs := State.wrBytes_regs s _ _

theorem State.mirrorPut_host (s : State) (e : FEntry) : (s.mirrorPut e).host = s.host := State.wrBytes_host s _ _

/-- A copy of the fault log to its mirror changes no register and nothing of the host link (R380). -/
theorem State.copyLog_frame (s : State) : s.copyLog.regs = s.regs ∧ s.copyLog.host = s.host := by
  have regs : ∀ (l : List FEntry) (x : State), (l.foldl State.mirrorPut x).regs = x.regs := foldl_keeps State.regs State.mirrorPut_regs
  have host : ∀ (l : List FEntry) (x : State), (l.foldl State.mirrorPut x).host = x.host := foldl_keeps State.host State.mirrorPut_host
  unfold State.copyLog
  split
  · exact ⟨rfl, rfl⟩
  · dsimp only
    split
    · exact ⟨rfl, rfl⟩
    · split
      · exact ⟨regs _ _, host _ _⟩
      · exact ⟨(regs _ _).trans (State.mirrorPut_regs _ _), (host _ _).trans (State.mirrorPut_host _ _)⟩

theorem State.rd_copyLog (s : State) (f : Fld) (i j : Nat) : s.copyLog.rd f i j = s.rd f i j := by
  obtain ⟨regs, _⟩ := s.copyLog_frame
  exact State.rd_congr regs f i j

theorem State.onlyAnswers_copyLog (s : State) : onlyAnswers s s.copyLog := by
  obtain ⟨_, host⟩ := s.copyLog_frame
  exact ⟨by rw [host], by rw [host], by rw [host], fun f i j _ => s.rd_copyLog f i j⟩

/-- The state in which firmware runs again, before it answers what was outstanding. -/
def State.fwRestarted (s : State) (t : Nat) : State :=
  { (s.tick t).showFirmware 0 1 with host := { s.host with kickAt := max s.now t, restartEnd := max s.now t } }

theorem State.fwRestarted_regs (s : State) (t : Nat) : (s.fwRestarted t).regs = ((s.tick t).showFirmware 0 1).regs := by
  simp only [State.fwRestarted]

theorem State.fwRestarted_host (s : State) (t : Nat) :
    (s.fwRestarted t).host = { s.host with kickAt := max s.now t, restartEnd := max s.now t } := rfl

/-- The state with no request held any more. -/
def State.heldGoTaken (s : State) : State := { s with host := { s.host with heldGo := [] } }

@[simp] theorem State.rd_heldGoTaken (s : State) (f : Fld) (i j : Nat) : s.heldGoTaken.rd f i j = s.rd f i j := rfl

theorem exec_mgtRestartComplete_serves (s : State) (t : Nat) (restarting : s.on F.AON_STAGE_MGT_RESTART = true) (alive : s.host.fwDead = false)
    (up : s.safe = false) : exec (.mgtRestartComplete t) s =
      .next (((s.fwRestarted t).answerRestarted.host.heldGo.foldl State.serveHeld
        (s.fwRestarted t).answerRestarted.heldGoTaken).copyLog) := by
  have up' : (s.tick t).safe = false := up
  change execMgtRestartComplete t s = _
  unfold execMgtRestartComplete
  rw [if_neg (by simp [restarting, alive]), up']
  rfl

/-- The end of a restart with no request held: firmware shows as up, and what was outstanding is answered (R298, R324). -/
theorem exec_mgtRestartComplete_up (s : State) (t : Nat) (restarting : s.on F.AON_STAGE_MGT_RESTART = true) (alive : s.host.fwDead = false)
    (up : s.safe = false) (nothing : s.host.heldGo = []) :
    ∃ s', exec (.mgtRestartComplete t) s = .next s' ∧ s'.host.kickAt = max s.now t ∧ s'.host.owedRestarted = [] ∧
      ∀ (f : Fld) (i j : Nat), notAnswer f → s'.rd f i j = ((s.tick t).showFirmware 0 1).rd f i j := by
  obtain ⟨held, owed, kick, regs⟩ := (s.fwRestarted t).answerRestarted_left
  have noneHeld : (s.fwRestarted t).answerRestarted.host.heldGo = [] := by
    rw [held, State.fwRestarted_host]
    exact nothing
  obtain ⟨_, owed', kick', regs'⟩ := (s.fwRestarted t).answerRestarted.heldGoTaken.onlyAnswers_copyLog
  refine ⟨_, exec_mgtRestartComplete_serves s t restarting alive up, ?_⟩
  rw [noneHeld, List.foldl_nil]
  refine ⟨?_, owed'.trans owed, fun f i j out => ?_⟩
  · rw [kick', State.heldGoTaken, kick, State.fwRestarted_host]
  · rw [regs' f i j out, State.rd_heldGoTaken, regs f i j out, State.rd_congr (s.fwRestarted_regs t)]

end Sys2Proof.Machine
end

section
/-!
PROOFS of the scope statements (spec/00): heartbeats, absent sessions and the management watchdog (O41).
-/

namespace Sys2Proof.Machine

/-! ### What each command answers (R320 to R323) -/

theorem exec_heartbeat_owner (s : State) (t m v : Nat) (x : Session) (hm : m < 16) (found : s.session m = some x) :
    exec (.heartbeat t m x.fn v) s = .next (((s.tick t).wr F.MBX_HEARTBEAT_COUNT v m).putSession { x with lastBeat := max s.now t }) := by
  have found' : (s.tick t).session m = some x := found
  change inst (m < 16) ((s.tick t).beat m x.fn v) = _
  simp only [hm, decide_true, inst_true, State.beat, found', if_true]
  rfl

theorem exec_heartbeat_other (s : State) (t m v : Nat) (fn : Fn) (x : Session) (hm : m < 16) (found : s.session m = some x) (other : x.fn ≠ fn) :
    exec (.heartbeat t m fn v) s = .next (s.tick t) := by
  have found' : (s.tick t).session m = some x := found
  change inst (m < 16) ((s.tick t).beat m fn v) = _
  simp [hm, State.beat, found', other]

theorem exec_heartbeatLapse_due (s : State) (t m : Nat) (x : Session) (hm : m < 16) (found : s.session m = some x) (up : s.fwUp = true)
    (late : x.lastBeat + 1000000000 ≤ max s.now t) (settled : s.host.restarts = [] ∨ s.host.restartEnd + 1000000000 ≤ max s.now t) :
    exec (.heartbeatLapse t m) s = .next ((s.tick t).lapseSession m) := by
  have found' : (s.tick t).session m = some x := found
  have due : (s.tick t).fwUp = true ∧ x.lastBeat + 1000000000 ≤ (s.tick t).now ∧
      ((s.tick t).host.restarts.isEmpty = true ∨ (s.tick t).host.restartEnd + 1000000000 ≤ (s.tick t).now) :=
    ⟨up, late, settled.imp_left List.isEmpty_iff.mpr⟩
  change execHeartbeatLapse t m s = _
  unfold execHeartbeatLapse
  simp only [found', if_pos due, hm, decide_true, inst_true]

theorem exec_absentSessionClose_due (s : State) (t m a : Nat) (x : Session) (hm : m < 16) (found : s.session m = some x)
    (absent : x.absentAt = some a) (up : s.fwUp = true) (late : a + 600000000000 ≤ max s.now t) :
    exec (.absentSessionClose t m) s =
      .next (((s.tick t).setSessions (s.host.sessions.filter (fun y => y.m ≠ m))).absentVectors x.fn) := by
  have found' : (s.tick t).session m = some x := found
  have due : (s.tick t).fwUp = true ∧ a + 600000000000 ≤ (s.tick t).now := ⟨up, late⟩
  change execAbsentSessionClose t m s = _
  unfold execAbsentSessionClose
  simp only [found', absent, if_pos due, hm, decide_true, inst_true]
  rfl

theorem exec_watchdogKick_mgt (s : State) (t : Nat) (up : s.fwUp = true) :
    exec (.watchdogKick t .mgt) s = .next { s.tick t with host := { s.host with kickAt := max s.now t } } :=
  congrArg Host.Outcome.next (if_pos up)

/-- Settles O41: sessions and the watchdog clause by clause, from what a change of the sessions, a restart and its end leave. -/
theorem heartbeatsAndWatchdog : Obligations.HeartbeatsAndWatchdog := by
  unfold Obligations.HeartbeatsAndWatchdog
  refine ⟨?owner, ?other, ?lapse, ?close, ?kick, ?noKick, ?denied, ?expire, ?dead, ?complete⟩
  case owner =>
    rintro s t m v _ x hm found rfl
    have own : x.m = m := State.m_of_session found
    refine ⟨_, exec_heartbeat_owner s t m v x hm found,
      State.session_putSession ((s.tick t).wr F.MBX_HEARTBEAT_COUNT v m) m x _ found own, ?_, fun f i j out => ?_, sameMem_of_mem ?_⟩
    · rw [State.rd_putSession_reg _ _ _ _ _ (by decide) (by decide)]
      exact State.rd_wr_same _ F.MBX_HEARTBEAT_COUNT v m 0
    · simp only [List.mem_cons, List.not_mem_nil, or_false, not_or] at out
      obtain ⟨beat, mbx, host⟩ := out
      rw [State.rd_putSession_reg _ _ _ _ _ mbx host, State.rd_wr_reg _ _ _ _ _ _ _ _ beat]
      rfl
    · rw [State.putSession_mem]
      rfl
  case other =>
    intro s t m v fn x hm found other
    exact exec_heartbeat_other s t m v fn x hm found other
  case lapse =>
    intro s t m x hm found present up late settled
    have own : x.m = m := State.m_of_session found
    obtain ⟨sessions, ctxs, mem, regs⟩ := (s.tick t).lapseSession_presence m x found present
    have marked := State.session_putSession (s.tick t) m x { x with absentAt := some (s.tick t).now } found own
    refine ⟨_, exec_heartbeatLapse_due s t m x hm found up late settled, (State.session_congr sessions m).trans marked, ?_, ?_, sameMem_of_mem ?_⟩
    · rw [regs F.MBX_STATUS_ABSENT m 0 (by decide)]
      exact State.absent_putSession _ m x _ hm found own rfl
    · rw [ctxs, State.putSession_ctxs]
      rfl
    · rw [mem, State.putSession_mem]
      rfl
  case close =>
    intro s t m a x hm found absent up late
    obtain ⟨sessions, ctxs, mem, regs⟩ :=
      (State.onlyVecs_absentVectors ((s.tick t).setSessions (s.host.sessions.filter (fun y => y.m ≠ m))) x.fn).samePresence
    have gone : ((s.tick t).setSessions (s.host.sessions.filter (fun y => y.m ≠ m))).session m = none := by
      rw [State.session_setSessions, List.find?_filter]
      simp
    refine ⟨_, exec_absentSessionClose_due s t m a x hm found absent up late, (State.session_congr sessions m).trans gone, ?_, ?_,
      sameMem_of_mem ?_⟩
    · rw [regs F.MBX_STATUS_OWNER m 0 (by decide), State.rd_setSessions_owner _ _ _ hm, gone]
      rfl
    · rw [ctxs, State.setSessions_frame]
      rfl
    · rw [mem, State.setSessions_frame]
      rfl
  case kick =>
    intro s t up
    exact ⟨_, exec_watchdogKick_mgt s t up, rfl, rfl, fun _ => rfl⟩
  case noKick => exact fun s t n => ⟨rfl, rfl⟩
  case denied =>
    intro s t p
    exact ⟨_, _, exec_watchdogKick_bfy s t p, rfl, rfl, rfl, rfl, s.tick_raise_frame t _⟩
  case expire =>
    intro s t up due few
    obtain ⟨pwr, host, s', run, regs, ctxs, jobs, mem⟩ := exec_watchdogExpire_restarts s t up due few
    refine ⟨s', run, ?_, ?_, ?_, fun m hm => ?_, fun f i j dom mbx wdog stage => ?_, fun f i j dom stage mbx wdog => ?_, ctxs, jobs, mem⟩
    · exact (regs F.AON_STAGE_MGT_RESTART 0 0 (by decide)).trans (State.restart_showFirmware _ 1 0)
    · exact (regs F.AON_STAGE_MAILBOX 0 0 (by decide)).trans (State.mailbox_showFirmware _ 1 0)
    · exact (regs F.AON_STAGE_FIRMWARE 0 0 (by decide)).trans (State.firmware_showFirmware _ 1 0)
    · exact (regs F.MBX_STATUS_FW_DOWN m 0 (by decide)).trans (State.fwDown_showFirmware _ 1 0 m hm)
    · rw [regs f i j wdog, State.rd_showFirmware_reg _ _ _ _ _ _ mbx stage, State.rd_mgtReset, if_pos dom]
    · rw [regs f i j wdog, State.rd_showFirmware_reg _ _ _ _ _ _ mbx stage, State.rd_mgtReset, if_neg dom, State.tick_rd]
  case dead =>
    intro s t up due many
    refine ⟨_, _, exec_watchdogExpire_dead s t up due many, ?_, rfl, rfl, State.raise_fc_congr _ rfl rfl rfl, ?_, sameMem_of_mem ?_⟩
    · rw [State.raise_host]
    · rw [State.raise_regs]
      rfl
    · rw [State.raise_mem]
      rfl
  case complete =>
    intro s t restarting alive up nothing
    obtain ⟨s', run, kick, owed, regs⟩ := exec_mgtRestartComplete_up s t restarting alive up nothing
    refine ⟨s', run, ?_, ?_, ?_, ?_, fun m hm => ?_, kick, owed⟩
    · exact (regs F.AON_STAGE_MGT_RESTART 0 0 (Or.inl (by decide))).trans ((s.tick t).restart_showFirmware 0 1)
    · exact (regs F.AON_STAGE_MAILBOX 0 0 (Or.inl (by decide))).trans ((s.tick t).mailbox_showFirmware 0 1)
    · exact (regs F.AON_STAGE_TELEMETRY 0 0 (Or.inl (by decide))).trans ((s.tick t).telemetry_showFirmware 0 1)
    · exact (regs F.AON_STAGE_FIRMWARE 0 0 (Or.inl (by decide))).trans ((s.tick t).firmware_showFirmware 0 1)
    · exact (regs F.MBX_STATUS_FW_DOWN m 0 (Or.inr (by decide))).trans ((s.tick t).fwDown_showFirmware 0 1 m hm)

end Sys2Proof.Machine
end

section
/-!
PROOFS of the array statements (spec/02): what reads of operands leave of the state (for O23, O24, O26).
-/

namespace Sys2Proof.Machine

/-! ### A relation that every step of a fold keeps -/

/-- A fold of any carrier relates its ends by what each of its steps keeps. -/
theorem foldl_steps {α β : Type} (R : β → β → Prop) (refl : ∀ b, R b b) (trans : ∀ a b c, R a b → R b c → R a c) {step : β → α → β}
    (h : ∀ b x, R b (step b x)) (l : List α) (b : β) : R b (l.foldl step b) := by
  induction l generalizing b with
  | nil => exact refl b
  | cons x l ih => exact trans _ _ _ (h b x) (ih (step b x))

/-! ### What reads change (R208, R219, R226, R230) -/

/-- The registers in which a read of device memory leaves a trace: access captures, error counters and regulators. -/
def readTraces : List Reg := [.PGM_FAULT, .MEM_ECC, .CUP_ECC, .BWG_STATE, .BWG_SPENT]

/-- The second state differs from the first by what reads leave: those registers, caches, reports and free values taken. -/
def onlyRead (s s' : State) : Prop :=
  s' = { s with regs := s'.regs, memx := s'.memx, fc := s'.fc, freeCtr := s'.freeCtr } ∧ sameRegsBut readTraces s s'

theorem onlyRead_refl (s : State) : onlyRead s s := ⟨rfl, fun _ _ _ _ => rfl⟩

theorem onlyRead.trans {a b c : State} (h : onlyRead a b) (h' : onlyRead b c) : onlyRead a c := by
  refine ⟨?_, fun f i j out => (h'.2 f i j out).trans (h.2 f i j out)⟩
  rw [h'.1, h.1]

theorem onlyRead_foldl {α : Type} {step : State → α → State} (h : ∀ s x, onlyRead s (step s x)) (l : List α) (s : State) :
    onlyRead s (l.foldl step s) := foldl_related onlyRead onlyRead_refl (fun _ _ _ => onlyRead.trans) h l s

/-- A fold that carries a state beside what it collects leaves what its steps leave. -/
theorem onlyRead_foldl_carried {α β : Type} (st : β → State) {step : β → α → β} (h : ∀ b x, onlyRead (st b) (st (step b x))) (l : List α)
    (b : β) : onlyRead (st b) (st (l.foldl step b)) :=
  foldl_steps (fun a b => onlyRead (st a) (st b)) (fun _ => onlyRead_refl _) (fun _ _ _ => onlyRead.trans) h l b

theorem onlyRead.wr {a b : State} (h : onlyRead a b) (f : Fld) (v i j : Nat) (mem : f.reg ∈ readTraces := by decide) :
    onlyRead a (b.wr f v i j) :=
  h.trans ⟨rfl, fun g i' j' out => b.rd_wr_reg f g v i j i' j' (fun e => out (e ▸ mem))⟩

theorem onlyRead_memx (s : State) (m : MemSt) : onlyRead s { s with memx := m } := ⟨rfl, fun _ _ _ _ => rfl⟩

theorem onlyRead_freeTaken (s : State) : onlyRead s s.freeTaken := ⟨rfl, fun _ _ _ _ => rfl⟩

theorem State.onlyRead_raise (s : State) (r : Report) : onlyRead s (s.raise r) := by
  refine ⟨?_, fun f i j _ => s.raise_rd r f i j⟩
  rw [s.raise_frame r]

theorem State.onlyRead_feedFault (s : State) (g p source : Nat) : onlyRead s (s.feedFault g p source) := s.onlyRead_raise _

/-! ### Translation and checks -/

theorem State.onlyRead_pmLookup (s : State) (cache v : Nat) : onlyRead s (s.pmLookup cache v).2 := by
  unfold State.pmLookup
  split
  · exact onlyRead_refl s
  · exact onlyRead_memx s _

theorem State.onlyRead_accessFault (s : State) (code cache unit p addr : Nat) (write : Bool) (aux : Nat) :
    onlyRead s (s.accessFault code cache unit p addr write aux) := by
  unfold State.accessFault
  dsimp only
  generalize reported : s.raise _ = a
  have raised : onlyRead s a := reported ▸ s.onlyRead_raise _
  split
  · exact raised
  · exact (((((raised.wr F.PGM_FAULT_VALID 1 0 0).wr F.PGM_FAULT_CODE code 0 0).wr F.PGM_FAULT_PARTITION p 0 0).wr F.PGM_FAULT_UNIT unit
      0 0).wr F.PGM_FAULT_WRITE _ 0 0).wr F.PGM_FAULT_ADDRESS addr 0 0

theorem State.onlyRead_checkAccess (s : State) (cache unit p addr n : Nat) (write mirror : Bool) (aux : Nat) :
    onlyRead s (s.checkAccess cache unit p addr n write mirror aux).2 := by
  unfold State.checkAccess
  refine onlyRead_foldl_carried (fun b : Option Nat × State => b.2) (fun b v => ?_) _ (none, s)
  dsimp only
  split
  · exact onlyRead_refl _
  · split
    · exact b.2.onlyRead_pmLookup _ _
    · exact (b.2.onlyRead_pmLookup _ _).trans (State.onlyRead_accessFault _ _ _ _ _ _ _ _)

/-! ### Caches, bad granules and traffic -/

theorem State.onlyRead_fetchPriv (s : State) (ks : List Nat) : onlyRead s (s.fetchPriv ks) := by
  unfold State.fetchPriv
  split
  · exact onlyRead_refl s
  · exact onlyRead_memx s _

theorem State.onlyRead_dropPriv (s : State) (ks : List Nat) : onlyRead s (s.dropPriv ks) := by
  unfold State.dropPriv
  split
  · exact onlyRead_refl s
  · exact onlyRead_memx s _

theorem State.onlyRead_badRead (s : State) (gk unit p : Nat) : onlyRead s (s.badRead gk unit p) := by
  unfold State.badRead
  split
  · split
    · exact (onlyRead_refl s).wr F.MEM_ECC_POISON_READS _ _ _
    · exact onlyRead_refl s
  · split
    · exact ((onlyRead_refl s).wr F.CUP_ECC_UNCORRECTED _ _ _).trans (State.onlyRead_raise _ _)
    · exact onlyRead_refl s

theorem State.onlyRead_readKeys (s : State) (unit p : Nat) (ks : List Nat) : onlyRead s (s.readKeys unit p ks).2.2 :=
  (onlyRead_foldl (fun s gk => s.onlyRead_badRead gk unit p) _ s).trans (State.onlyRead_fetchPriv _ ks)

theorem State.onlyRead_draw (s : State) (p r unit need : Nat) (pool : Bool) : onlyRead s (s.draw p r unit need pool) := by
  unfold State.draw
  split
  · exact (((onlyRead_refl s).wr F.BWG_STATE_LEVEL _ _ _).wr F.BWG_SPENT_SPENT _ _ _).trans (onlyRead_memx _ _)
  · exact onlyRead_memx s _

theorem State.onlyRead_regCharge (s : State) (p r unit bytes : Nat) (pool : Bool) : onlyRead s (s.regCharge p r unit bytes pool) := by
  unfold State.regCharge
  split
  · exact onlyRead_refl s
  · have whole := onlyRead_foldl (fun (s : State) (_ : Nat) => s.onlyRead_draw p r unit 64 pool) (List.range (bytes / 4096)) s
    dsimp only
    split
    · exact whole
    · exact whole.trans (State.onlyRead_draw _ _ _ _ _ _)

theorem State.onlyRead_insertLine (s : State) (p g unit line : Nat) (dirty : Bool) : onlyRead s (s.insertLine p g unit line dirty) := by
  unfold State.insertLine
  refine onlyRead.trans ?_ (onlyRead_memx _ _)
  split
  · dsimp only
    split
    · exact (onlyRead_memx s _).trans (State.onlyRead_regCharge _ _ _ _ _ _)
    · exact onlyRead_memx s _
  · exact onlyRead_refl s

theorem State.onlyRead_lineTraffic (s : State) (p unit line n : Nat) (write pool : Bool) :
    onlyRead s (s.lineTraffic p unit line n write pool) := by
  unfold State.lineTraffic
  split
  · exact onlyRead_refl s
  · split
    · split
      · exact onlyRead_memx s _
      · exact onlyRead_refl s
    · split
      · refine onlyRead.trans ?_ (State.onlyRead_insertLine _ _ _ _ _ _)
        split
        · exact onlyRead_refl s
        · exact s.onlyRead_regCharge _ _ _ _ _
      · exact s.onlyRead_regCharge _ _ _ _ _

theorem State.onlyRead_traffic (s : State) (cache unit addr n : Nat) (write : Bool) : onlyRead s (s.traffic cache unit addr n write) := by
  unfold State.traffic
  refine onlyRead_foldl (fun s v => ?_) _ s
  dsimp only
  split
  · exact onlyRead_refl s
  · split
    · exact onlyRead_foldl (fun s i => s.onlyRead_lineTraffic _ _ _ _ _ _) _ s
    · exact s.onlyRead_regCharge _ _ _ _ _

/-! ### Reads (R137, R142, R157, R497) -/

theorem State.onlyRead_bareRead (s : State) (cache unit p addr n : Nat) : onlyRead s (s.bareRead cache unit p addr n).2.2.2 := by
  have checked := s.onlyRead_checkAccess cache unit p addr n false false 0
  unfold State.bareRead
  split
  · next e => rwa [e] at checked
  · next e =>
    rw [e] at checked
    exact checked.trans (State.onlyRead_readKeys _ _ _ _)

theorem State.onlyRead_devRead (s : State) (cache unit p addr n : Nat) : onlyRead s (s.devRead cache unit p addr n).2.2.2 := by
  have bare := s.onlyRead_bareRead cache unit p addr n
  unfold State.devRead
  split
  · next e =>
    rw [e] at bare
    exact bare.trans (State.onlyRead_traffic _ _ _ _ _ _)
  · exact bare

theorem State.onlyRead_jobRead (s : State) (j : Job) (unit addr n : Nat) : onlyRead s (s.jobRead j unit addr n).2.2.2 := by
  have dev := s.onlyRead_devRead (dieOf j.g) unit j.p addr n
  unfold State.jobRead
  split
  · next e => rwa [e] at dev
  · next e =>
    rw [e] at dev
    split <;> exact dev

theorem State.onlyRead_readBits (s : State) (j : Job) (unit addr off w : Nat) : onlyRead s (s.readBits j unit addr off w).2.2 := by
  have bare := s.onlyRead_bareRead (dieOf j.g) unit j.p (addr + off / 8) ((off % 8 + w + 7) / 8)
  unfold State.readBits
  dsimp only
  split
  · next e => rwa [e] at bare
  · next e => rwa [e] at bare

theorem State.onlyRead_feedBits (s : State) (j : Job) (addr off w : Nat) : onlyRead s (s.feedBits j addr off w).2.2 := by
  have bits := s.onlyRead_readBits j (0x30 + j.g) addr off w
  unfold State.feedBits
  split
  · next e => rwa [e] at bits
  · next e =>
    rw [e] at bits
    split
    · exact bits
    · exact bits.trans (onlyRead_freeTaken _)

theorem State.onlyRead_of_feedBits {s s' : State} {j : Job} {addr off w v : Nat} {r : ReadErr} (h : s.feedBits j addr off w = (r, v, s')) :
    onlyRead s s' := by
  have bits := s.onlyRead_feedBits j addr off w
  rwa [h] at bits

theorem State.onlyRead_tileReady (s : State) (j : Job) (addr : Nat) : onlyRead s (s.tileReady j addr).2 := by
  have read := s.onlyRead_jobRead j (0x30 + j.g) addr 64
  unfold State.tileReady
  split
  · next e => rwa [e] at read
  · next e => rwa [e] at read
  · next e =>
    rw [e] at read
    dsimp only
    split <;> exact read

theorem State.onlyRead_checkHeader (s : State) (g p addr kindL sh code kind period gen : Nat) :
    onlyRead s (s.checkHeader g p addr kindL sh code kind period gen).2 := by
  have read := s.onlyRead_devRead (dieOf g) g p addr 64
  unfold State.checkHeader
  split
  · next e => rwa [e] at read
  · next e => rwa [e] at read
  · next e =>
    rw [e] at read
    dsimp only
    split
    · exact read
    · split <;> exact read

theorem State.onlyRead_checkTile (s : State) (j : Job) (x : Bool) (q want : Nat) : onlyRead s (s.checkTile j x q want).2.2 := by
  have header : onlyRead s (if x then s.checkX j q else s.checkY j q).2 := by
    split <;> exact s.onlyRead_checkHeader _ _ _ _ _ _ _ _ _
  unfold State.checkTile
  dsimp only
  split
  · exact header
  · exact header
  · split <;> exact header

theorem State.onlyRead_checkChunk (s : State) (j : Job) (q m n : Nat) : onlyRead s (s.checkChunk j q m n).2.2.2 := by
  unfold State.checkChunk
  refine onlyRead_foldl_carried (fun b : Option (Nat × Nat × Nat) × Nat × Nat × State => b.2.2.2) (fun b r => ?_) _ (none, m, n, s)
  split
  · exact onlyRead_refl _
  · next m n s =>
    have x := s.onlyRead_checkTile j true r m
    split
    · next e => rwa [e] at x
    · next m' s' e =>
      rw [e] at x
      have y := s'.onlyRead_checkTile j false r n
      split
      · next e => rw [e] at y; exact x.trans y
      · next e => rw [e] at y; exact x.trans y

theorem State.onlyRead_readSlot (s : State) (j : Job) (q slot m tscale : Nat) : onlyRead s (s.readSlot j q slot m tscale).2.2.2 := by
  unfold State.readSlot
  dsimp only
  refine onlyRead.trans (onlyRead_foldl_carried (fun b : List Nat × List Nat × State => b.2.2) (fun b k => ?_) _ ([], [], s))
    (onlyRead_foldl_carried (fun b : List Val × List (Nat × Nat) × State => b.2.2) (fun b k => ?_) _ ([], [], _))
  · split
    · split
      · next e => exact State.onlyRead_of_feedBits e
      · next e => exact State.onlyRead_of_feedBits e
    · exact onlyRead_refl _
  · split
    · next e => exact State.onlyRead_of_feedBits e
    · next e => exact State.onlyRead_of_feedBits e

theorem State.onlyRead_readRow (s : State) (j : Job) (q r tscale : Nat) (scales : List (List Nat)) :
    onlyRead s (s.readRow j q r tscale scales).2.2.2 := by
  unfold State.readRow
  dsimp only
  refine onlyRead.trans (b := (if r % 32 = 0 then _ else (([], none, s) : List Nat × ReadErr × State)).2.2) ?_
    (onlyRead_foldl_carried (fun b : List Val × ReadErr × State => b.2.2) (fun b c => ?_) _ ([], _, _))
  · split
    · refine onlyRead_foldl_carried (fun b : List Nat × ReadErr × State => b.2.2) (fun b c => ?_) _ ([], none, s)
      split
      · split
        · next e => exact State.onlyRead_of_feedBits e
        · next e => exact State.onlyRead_of_feedBits e
      · exact onlyRead_refl _
    · exact onlyRead_refl s
  · split
    · next e => exact State.onlyRead_of_feedBits e
    · next e => exact State.onlyRead_of_feedBits e

end Sys2Proof.Machine
end

section
/-!
PROOFS of the array statements (spec/02): array records, descriptors, and the start of an element (O23).
-/

namespace Sys2Proof.Machine

/-! ### Arrays and descriptors -/

@[simp] theorem State.pa_setPa_same (s : State) (pa : Nat) (x : PaSt) : (s.setPa pa x).pa pa = x := by
  unfold State.pa State.setPa agetD
  rw [aget_aset_same, Option.getD_some]

@[simp] theorem State.rd_setPa (s : State) (pa : Nat) (x : PaSt) (f : Fld) (i k : Nat) : (s.setPa pa x).rd f i k = s.rd f i k := rfl

@[simp] theorem State.rd_putJob (s : State) (j : Job) (f : Fld) (i k : Nat) : (s.putJob j).rd f i k = s.rd f i k := rfl

/-- A descriptor that was found is found as it was last put. -/
theorem State.job_putJob {s : State} {id : Nat} {j : Job} (found : s.job id = some j) (x : Job) (same : x.id = id) :
    (s.putJob x).job id = some x := by
  unfold State.job State.putJob at *
  generalize s.jobs = l at *
  induction l with
  | nil => simp at found
  | cons y l ih =>
    by_cases hy : y.id = id
    · simp [hy, same]
    · simp_all

theorem State.id_of_job {s : State} {id : Nat} {j : Job} (found : s.job id = some j) : j.id = id := by
  simpa using List.find?_some found

/-- Noting how a descriptor ends changes nothing else of it. -/
theorem Job.fail_eq (j : Job) (status detail info : Nat) : ∃ b, j.fail status detail info = { j with bad := b } := by
  unfold Job.fail
  split
  · exact ⟨_, rfl⟩
  · exact ⟨_, rfl⟩

/-! ### The start of an element (R33, R34, R36) -/

/-- What the status and slot counters of an array show of an element start: the pass it activates, or the cycles idle before it. -/
def State.showStart (s : State) (pa : Nat) (j : Job) (swap : Bool) (idle : Nat) : State :=
  if swap then
    ((((s.wr F.SPR_STATUS_SHADOW_READY 0 pa).wr F.SPR_STATUS_PASS_ACTIVE 1 pa).wr F.SPR_STATUS_W j.w pa).wr F.SPR_STATUS_SHAPE
      j.shape pa).wrB F.SPR_STATUS_STRICT j.strict pa
  else s.inc F.SPR_SLOTS_BUBBLE_CYCLES pa 0 idle

theorem State.onlyRegs_showStart (s : State) (pa : Nat) (j : Job) (swap : Bool) (idle : Nat) : onlyRegs s (s.showStart pa j swap idle) := by
  unfold State.showStart
  split
  · exact ((((onlyRegs_wr s _ 0 pa 0).wr _ 1 pa 0).wr _ _ pa 0).wr _ _ pa 0).wr _ _ pa 0
  · exact onlyRegs_wr s _ _ pa 0

theorem State.rd_showStart_reg (s : State) (pa : Nat) (j : Job) (swap : Bool) (idle : Nat) (f : Fld) (i k : Nat) (status : f.reg ≠ .SPR_STATUS)
    (slots : f.reg ≠ .SPR_SLOTS) : (s.showStart pa j swap idle).rd f i k = s.rd f i k := by
  unfold State.showStart State.wrB
  split
  · rw [State.rd_wr_reg _ _ _ _ _ _ _ _ status, State.rd_wr_reg _ _ _ _ _ _ _ _ status, State.rd_wr_reg _ _ _ _ _ _ _ _ status,
      State.rd_wr_reg _ _ _ _ _ _ _ _ status, State.rd_wr_reg _ _ _ _ _ _ _ _ status]
  · exact State.rd_inc_reg _ _ _ _ _ _ _ _ slots

theorem State.validSlots_showStart (s : State) (pa : Nat) (j : Job) (swap : Bool) (idle : Nat) :
    (s.showStart pa j swap idle).rd F.SPR_SLOTS_VALID_SLOTS pa = s.rd F.SPR_SLOTS_VALID_SLOTS pa := by
  unfold State.showStart State.wrB State.inc
  split
  · simp only [State.rd_wr_reg, ne_eq, reduceCtorEq, not_false_eq_true]
  · exact State.rd_wr_lsb _ _ _ _ _ _ _ _ (by decide)

/-- A SWAP element shows the pass it activates. -/
theorem State.rd_showStart_swap (s : State) (pa : Nat) (j : Job) (idle : Nat) :
    (s.showStart pa j true idle).rd F.SPR_STATUS_SHADOW_READY pa = 0 ∧ (s.showStart pa j true idle).rd F.SPR_STATUS_PASS_ACTIVE pa = 1 ∧
      (s.showStart pa j true idle).rd F.SPR_STATUS_W pa = j.w % 16 := by
  simp only [State.showStart, if_true, State.wrB]
  refine ⟨?_, ?_, ?_⟩
  · rw [State.rd_wr_lsb _ _ _ _ _ _ _ _ (by decide), State.rd_wr_lsb _ _ _ _ _ _ _ _ (by decide), State.rd_wr_lsb _ _ _ _ _ _ _ _ (by decide),
      State.rd_wr_lsb _ _ _ _ _ _ _ _ (by decide)]
    exact State.rd_wr_same _ _ _ _ _
  · rw [State.rd_wr_lsb _ _ _ _ _ _ _ _ (by decide), State.rd_wr_lsb _ _ _ _ _ _ _ _ (by decide), State.rd_wr_lsb _ _ _ _ _ _ _ _ (by decide)]
    exact State.rd_wr_same _ _ _ _ _
  · rw [State.rd_wr_lsb _ _ _ _ _ _ _ _ (by decide), State.rd_wr_lsb _ _ _ _ _ _ _ _ (by decide)]
    exact State.rd_wr_same _ _ _ _ _

/-- The slot that starts takes a credit and counts as valid (R33, R34). -/
def State.takeCredit (s : State) (pa : Nat) : State :=
  ((s.wr F.SPR_CREDIT_FREE (s.rd F.SPR_CREDIT_FREE pa - 1) pa).wr F.SPR_CREDIT_IN_FLIGHT (s.rd F.SPR_CREDIT_IN_FLIGHT pa + 1) pa).inc
    F.SPR_SLOTS_VALID_SLOTS pa

theorem State.rd_takeCredit_reg (s : State) (pa : Nat) (f : Fld) (i k : Nat) (credit : f.reg ≠ .SPR_CREDIT) (slots : f.reg ≠ .SPR_SLOTS) :
    (s.takeCredit pa).rd f i k = s.rd f i k := by
  unfold State.takeCredit
  rw [State.rd_inc_reg _ _ _ _ _ _ _ _ slots, State.rd_wr_reg _ _ _ _ _ _ _ _ credit, State.rd_wr_reg _ _ _ _ _ _ _ _ credit]

theorem State.validSlots_takeCredit (s : State) (pa : Nat) :
    (s.takeCredit pa).rd F.SPR_SLOTS_VALID_SLOTS pa = counted F.SPR_SLOTS_VALID_SLOTS (s.rd F.SPR_SLOTS_VALID_SLOTS pa) 1 := by
  unfold State.takeCredit
  rw [State.rd_inc_same, State.rd_wr_reg _ _ _ _ _ _ _ _ (by decide), State.rd_wr_reg _ _ _ _ _ _ _ _ (by decide)]
  rfl

/-- Credits are conserved (R34). -/
theorem State.credits_takeCredit (s : State) (pa : Nat) (some_ : 0 < s.rd F.SPR_CREDIT_FREE pa)
    (all : s.rd F.SPR_CREDIT_FREE pa + s.rd F.SPR_CREDIT_IN_FLIGHT pa = 288) :
    (s.takeCredit pa).rd F.SPR_CREDIT_FREE pa = s.rd F.SPR_CREDIT_FREE pa - 1 ∧
      (s.takeCredit pa).rd F.SPR_CREDIT_FREE pa + (s.takeCredit pa).rd F.SPR_CREDIT_IN_FLIGHT pa = 288 := by
  have free : (s.takeCredit pa).rd F.SPR_CREDIT_FREE pa = (s.rd F.SPR_CREDIT_FREE pa - 1) % 512 := by
    unfold State.takeCredit
    rw [State.rd_inc_reg _ _ _ _ _ _ _ _ (by decide), State.rd_wr_lsb _ _ _ _ _ _ _ _ (by decide)]
    exact State.rd_wr_same _ _ _ _ _
  have flight : (s.takeCredit pa).rd F.SPR_CREDIT_IN_FLIGHT pa = (s.rd F.SPR_CREDIT_IN_FLIGHT pa + 1) % 512 := by
    unfold State.takeCredit
    rw [State.rd_inc_reg _ _ _ _ _ _ _ _ (by decide)]
    exact State.rd_wr_same _ _ _ _ _
  omega

/-- The descriptor once the reads of a slot are judged: each failed one notes how it ends (R137, R497). -/
def Job.noteReads (j : Job) (pass : Nat) (errs : List (Nat × Nat)) : Job :=
  errs.foldl (fun (j : Job) e => if e.2 = 0 then j.fail 7 0 pass else j.fail 4 (stwCode e.2) (j.passInfo pass).chunk) j

theorem Job.noteReads_eq (j : Job) (pass : Nat) (errs : List (Nat × Nat)) : ∃ b, j.noteReads pass errs = { j with bad := b } := by
  refine foldl_steps (fun j j' : Job => ∃ b, j' = { j with bad := b }) (fun j => ⟨j.bad, rfl⟩) ?_ (fun j e => ?_) errs j
  · rintro a _ _ ⟨b, rfl⟩ ⟨c, rfl⟩
    exact ⟨c, rfl⟩
  · split
    · exact j.fail_eq _ _ _
    · exact j.fail_eq _ _ _

/-- A start shows the element, puts its slot behind those in flight and takes a credit; besides, it only reads. -/
theorem State.launch_eq (s : State) (pa cyc : Nat) (j : Job) (t : TileSt) (swap : Bool) (tscale : Nat) :
    ∃ (s₁ : State) (j₁ : Job) (f : SlotFl) (idle : Nat) (x : PaSt) (j₂ : Job), onlyRead s s₁ ∧ j₁.w = j.w ∧
      f.job = j.id ∧ f.pass = t.pass ∧ f.slot = (if swap then 0 else j.slot) ∧ f.start = cyc ∧ f.judged = false ∧ f.drained = false ∧
      x.slots = (s₁.pa pa).slots ++ [f] ∧ x.active = some t ∧ x.lastStart = cyc ∧ x.gap = j.gap t.pass ∧ (swap = true → x.shadow = none) ∧
      s.launch pa cyc j t swap tscale = (((s₁.showStart pa j₁ swap idle).setPa pa x).takeCredit pa).putJob j₂ := by
  have read := s.onlyRead_readSlot j t.pass (if swap then 0 else j.slot) j.m tscale
  unfold State.launch
  extract_lets slot
  change onlyRead s (s.readSlot j t.pass slot j.m tscale).2.2.2 at read
  generalize s.readSlot j t.pass slot j.m tscale = r at read ⊢
  obtain ⟨xs, xsc, errs, s₀⟩ := r
  obtain ⟨b, noted⟩ := j.noteReads_eq t.pass errs
  have judged : onlyRead s (if errs.any (fun e => e.2 = 0) then
      s₀.feedFault (j.noteReads t.pass errs).g (j.noteReads t.pass errs).p (0x30 + (j.noteReads t.pass errs).g) else s₀) := by
    split
    · exact read.trans (s₀.onlyRead_feedFault _ _ _)
    · exact read
  have pace : (j.noteReads t.pass errs).w = j.w ∧ (j.noteReads t.pass errs).gap t.pass = j.gap t.pass := by
    rw [noted]
    exact ⟨rfl, rfl⟩
  exact ⟨_, j.noteReads t.pass errs, j.slotFl slot cyc xs xsc t, _, _, _, judged, pace.1, rfl, rfl, rfl, rfl, rfl, rfl, rfl, rfl, rfl,
    pace.2, fun h => if_pos h, rfl⟩

/-- The guards of an element start hold: the element starts (R34, R36, R141). -/
theorem exec_elementStart_launches (s s₁ : State) (t pa cyc ext ready st tsc : Nat) (j : Job) (tile : TileSt) (swap : Bool) (unit : pa < 272)
    (runs : (s.paJobs pa).head? = some j) (next : s.nextTile pa j = some (tile, swap)) (going : j.stopped = false)
    (awake : s.rd F.CLK_AG_STATE (pa / 17) = 0) (credit : 0 < s.rd F.SPR_CREDIT_FREE pa) (spaced : s.mayStart pa ≤ cyc)
    (header : (s.tick t).tileReady j (j.xTile tile.pass) = (.good ext ready st tsc, s₁)) (there : j.slot < ready)
    (sums : j.slot + 1 ≠ j.m ∨ st = 1) : exec (.elementStart t pa cyc) s = .next (s₁.launch pa cyc j tile swap tsc) := by
  have runs' : ((s.tick t).paJobs pa).head? = some j := runs
  have next' : (s.tick t).nextTile pa j = some (tile, swap) := next
  have open_ : ¬ (j.stopped = true ∨ (s.tick t).rd F.CLK_AG_STATE (pa / 17) ≠ 0 ∨ (s.tick t).rd F.SPR_CREDIT_FREE pa = 0 ∨
      cyc < (s.tick t).mayStart pa) := by
    have pace : (s.tick t).mayStart pa = s.mayStart pa := rfl
    rw [pace]
    simp only [going, State.tick_rd, awake]
    simpa [credit.ne'] using spaced
  have ready_ : ¬ (ready ≤ j.slot ∨ (j.slot + 1 = j.m ∧ st ≠ 1)) := by omega
  change execElementStart t pa cyc s = _
  simp only [execElementStart, unit, decide_true, inst_true, runs', next', if_neg open_, header, if_neg ready_]

/-- Nothing starts while an array has no credit, or before its spacing has passed. -/
theorem exec_elementStart_waits (s : State) (t pa cyc : Nat) (unit : pa < 272) (wait : s.rd F.SPR_CREDIT_FREE pa = 0 ∨ cyc < s.mayStart pa) :
    exec (.elementStart t pa cyc) s = .next (s.tick t) := by
  have closed (j : Job) : j.stopped = true ∨ (s.tick t).rd F.CLK_AG_STATE (pa / 17) ≠ 0 ∨ (s.tick t).rd F.SPR_CREDIT_FREE pa = 0 ∨
      cyc < (s.tick t).mayStart pa := .inr (.inr wait)
  change execElementStart t pa cyc s = _
  simp only [execElementStart, unit, decide_true, inst_true]
  refine congrArg Host.Outcome.next ?_
  split
  · rfl
  · next j _ =>
    split
    · rfl
    · exact if_pos (closed j)

/-- Settles O23: the guards let the element start, and what a start leaves is a read, the status shown, the slot and the credit taken. -/
theorem elementStartTakesCredit : Obligations.ElementStartTakesCredit := by
  unfold Obligations.ElementStartTakesCredit
  refine ⟨?starts, fun s t pa cyc unit none_ => exec_elementStart_waits s t pa cyc unit (.inl none_),
    fun s t pa cyc unit early => exec_elementStart_waits s t pa cyc unit (.inr early)⟩
  intro s s₁ t pa cyc ext ready st tsc j tile swap unit runs next going awake credit all spaced header there sums
  have checked : onlyRead (s.tick t) s₁ := by
    have read := (s.tick t).onlyRead_tileReady j (j.xTile tile.pass)
    rwa [header] at read
  obtain ⟨s₂, j₁, f, idle, x, j₂, read, width, job, pass, slot, start, judged, drained, slots, active, last, gap, shadow, launched⟩ :=
    s₁.launch_eq pa cyc j tile swap tsc
  obtain ⟨frame, regs⟩ := checked.trans read
  have kept (f : Fld) (i k : Nat) (out : f.reg ∉ readTraces) : s₂.rd f i k = s.rd f i k := regs f i k out
  have shown (f : Fld) (i k : Nat) (status : f.reg ≠ .SPR_STATUS) (count : f.reg ≠ .SPR_SLOTS) (out : f.reg ∉ readTraces) :
      ((s₂.showStart pa j₁ swap idle).setPa pa x).rd f i k = s.rd f i k := by
    rw [State.rd_setPa, State.rd_showStart_reg _ _ _ _ _ _ _ _ status count, kept f i k out]
  have free := shown F.SPR_CREDIT_FREE pa 0 (by decide) (by decide) (by decide)
  have flight := shown F.SPR_CREDIT_IN_FLIGHT pa 0 (by decide) (by decide) (by decide)
  obtain ⟨taken, conserved⟩ := State.credits_takeCredit ((s₂.showStart pa j₁ swap idle).setPa pa x) pa (by rw [free]; exact credit)
    (by rw [free, flight]; exact all)
  have array : ((((s₂.showStart pa j₁ swap idle).setPa pa x).takeCredit pa).putJob j₂).pa pa = x := State.pa_setPa_same _ pa x
  refine ⟨_, f, (exec_elementStart_launches s s₁ t pa cyc ext ready st tsc j tile swap unit runs next going awake credit spaced header there
    sums).trans (congrArg Host.Outcome.next launched), taken.trans (by rw [free]), conserved, ?_, ?_, job, pass, slot, start, judged, drained,
    ?_, ?_, ?_, ?_, ?_, ?_⟩
  · rw [State.rd_putJob, State.validSlots_takeCredit, State.rd_setPa, State.validSlots_showStart, kept _ _ _ (by decide)]
  · rw [array, slots, show s₂.pa pa = s.pa pa by rw [frame]; rfl]
  · rw [array, active]
  · rw [array, last]
  · rw [array, gap]
  · rintro rfl
    obtain ⟨shadowReady, passActive, w⟩ := State.rd_showStart_swap s₂ pa j₁ idle
    have status (f : Fld) (reg : f.reg = .SPR_STATUS) :
        ((((s₂.showStart pa j₁ true idle).setPa pa x).takeCredit pa).putJob j₂).rd f pa = (s₂.showStart pa j₁ true idle).rd f pa := by
      rw [State.rd_putJob, State.rd_takeCredit_reg _ _ _ _ _ (by rw [reg]; decide) (by rw [reg]; decide), State.rd_setPa]
    rw [array, shadow rfl, status F.SPR_STATUS_SHADOW_READY rfl, status F.SPR_STATUS_PASS_ACTIVE rfl, status F.SPR_STATUS_W rfl, ← width]
    exact ⟨rfl, shadowReady, passActive, w⟩
  · intro f i k out
    simp only [List.mem_cons, List.not_mem_nil, or_false, not_or] at out
    obtain ⟨creditReg, slotsReg, statusReg, fault, ecc, cup, bwg, spent⟩ := out
    rw [State.rd_putJob, State.rd_takeCredit_reg _ _ _ _ _ creditReg slotsReg]
    exact shown f i k statusReg slotsReg (by simp [readTraces, fault, ecc, cup, bwg, spent])
  · refine sameMem_of_mem ?_
    have mem : (s₂.showStart pa j₁ swap idle).mem = s₂.mem := by rw [State.onlyRegs_showStart s₂ pa j₁ swap idle]
    refine mem.trans ?_
    rw [frame]
    rfl

end Sys2Proof.Machine
end

section
/-!
PROOFS of the array statements (spec/02): shadow rows and bad feed reads (O24).
-/

namespace Sys2Proof.Machine

/-! ### Shadow rows (R35, R36) -/

/-- The next row of the shadow tile is written into the shadow registers, and SHADOW_READY tells whether it is the last. -/
def State.rowLoaded (s : State) (pa cyc : Nat) (tile : TileSt) (row : List Val) (sc : Option (List Nat)) : State :=
  (s.setPa pa { s.pa pa with shadow := some { tile with rows := tile.rows ++ [row], scales := tile.scales ++ sc.toList, wroteAt := cyc } }).wrB
    F.SPR_STATUS_SHADOW_READY (tile.rows.length = 255) pa

section Row
variable {s s₀ s₁ s₂ : State} {pa cyc q m n ext ready st tsc : Nat} {j : Job} {tile : TileSt} {row : List Val} {sc : Option (List Nat)}
  (target : tile = ((s.pa pa).shadow.filter (fun x => decide (x.job = j.id ∧ x.pass = q))).getD
    { job := j.id, pass := q, rows := [], scales := [] })
  (more : tile.rows.length < 256) (awake : s.rd F.CLK_AG_STATE (pa / 17) = 0)
  (passed : (s.pa pa).active = none ∨ (s.pa pa).swapAt + tile.rows.length + 256 ≤ cyc)
  (fits : tile.rows.length = 0 ∨ (s.pa pa).rowFits tile.wroteAt cyc (j.rowBytes tile.rows.length) = true)
  (checked : (if tile.rows.length = 0 ∧ q % j.perChunk = 0 then s.checkChunk j q j.m j.n else (none, j.m, j.n, s)) = (none, m, n, s₀))
  (header : s₀.tileReady j (j.yTile q) = (.good ext ready st tsc, s₁)) (covered : tile.rows.length < ready)
  (read : s₁.readRow j q tile.rows.length tsc tile.scales = (row, sc, none, s₂))
include target more awake passed fits checked header covered read

theorem State.loadRow_loads : s.loadRow pa cyc j q = s₂.rowLoaded pa cyc tile row sc := by
  unfold State.loadRow
  extract_lets ps fresh tile' r
  have same : tile' = tile := by
    rw [target]
    cases h : (s.pa pa).shadow with
    | none => simp only [tile', ps, h]; rfl
    | some x =>
      simp only [tile', ps, h]
      by_cases mine : x.job = j.id ∧ x.pass = q
      · simp [Option.filter, mine]
      · simp [Option.filter, mine, fresh]
  have open_ : ¬ (256 ≤ r ∨ s.rd F.CLK_AG_STATE (pa / 17) ≠ 0 ∨ (ps.active.isSome ∧ cyc < ps.swapAt + r + 256)
      ∨ (0 < r ∧ !ps.rowFits tile'.wroteAt cyc (j.rowBytes r))) := by
    simp only [r, same, ps]
    rintro (h | h | ⟨act, early⟩ | ⟨later, narrow⟩)
    · omega
    · exact h awake
    · rcases passed with none_ | late
      · simp [none_] at act
      · omega
    · rcases fits with first | fit
      · omega
      · simp [fit] at narrow
  rw [if_neg open_]
  simp only [r, same, checked, header, if_neg (Nat.not_le.mpr covered), read]
  rfl

omit target more awake passed fits header covered read in
theorem State.onlyRead_of_checked : onlyRead s s₀ := by
  split at checked
  · have chunk := s.onlyRead_checkChunk j q j.m j.n
    rwa [checked] at chunk
  · cases checked
    exact onlyRead_refl s

omit target more awake passed fits covered in
theorem State.onlyRead_of_loaded : onlyRead s s₂ := by
  have tile_ := s₀.onlyRead_tileReady j (j.yTile q)
  have row_ := s₁.onlyRead_readRow j q tile.rows.length tsc tile.scales
  rw [header] at tile_
  rw [read] at row_
  exact ((State.onlyRead_of_checked checked).trans tile_).trans row_

end Row

/-! ### Reads for elements in flight (R37, R137, R497) -/

theorem exec_feedReadReturn_data (s : State) (t pa n k : Nat) (unit : pa < 272) (index : k < 1024) :
    exec (.feedReadReturn t pa n k .data) s = .next (s.tick t) := by
  change execFeedReadReturn t pa n k .data s = _
  simp only [execFeedReadReturn, unit, index, and_self, decide_true, inst_true]
  refine congrArg Host.Outcome.next ?_
  split <;> rfl

/-- The state once element `k` of slot `f` counts as NaN. -/
def State.slotSpoiled (s : State) (pa k : Nat) (f : SlotFl) (j : Job) : State := s.setPa pa ((s.pa pa).putSlot (f.spoil j.shape k))

/-- A report on a spoiled slot leaves it spoiled. -/
theorem onlyRead.slots_spoiled {s s₁ : State} {t pa k : Nat} {f : SlotFl} {j : Job} (h : onlyRead ((s.tick t).slotSpoiled pa k f j) s₁)
    (x : Job) : ((s₁.putJob x).pa pa).slots = ((s.pa pa).putSlot (f.spoil j.shape k)).slots := by
  have array : s₁.pa pa = (s.pa pa).putSlot (f.spoil j.shape k) := by
    rw [h.1]
    exact State.pa_setPa_same (s.tick t) pa _
  exact congrArg PaSt.slots array

/-- The descriptor of a spoiled slot notes how it ends. -/
theorem onlyRead.job_spoiled {s s₁ : State} {t pa k : Nat} {f : SlotFl} {j : Job} (h : onlyRead ((s.tick t).slotSpoiled pa k f j) s₁)
    (owner : s.job f.job = some j) (status detail info : Nat) :
    (s₁.putJob (j.fail status detail info)).job f.job = some (j.fail status detail info) := by
  obtain ⟨b, failed⟩ := j.fail_eq status detail info
  have owner' : s₁.job f.job = some j := by
    rw [h.1]
    exact owner
  have same : j.id = f.job := State.id_of_job owner
  exact State.job_putJob owner' _ ((congrArg Job.id failed).trans same)

section Bad
variable {s : State} (t : Nat) {pa n k : Nat} {f : SlotFl} {j : Job} (unit : pa < 272) (index : k < 1024)
  (inFlight : (s.pa pa).slots[n]? = some f) (open_ : f.judged = false) (held : f.drained = false) (owner : s.job f.job = some j)
  (within : k < shapeK j.shape)
include unit index inFlight open_ held owner within

theorem exec_feedReadReturn_uncorrected : exec (.feedReadReturn t pa n k .uncorrected) s =
    .next ((((s.tick t).slotSpoiled pa k f j).feedFault j.g j.p (0x30 + j.g)).putJob (j.fail 7 0 f.pass)) := by
  have inFlight' : ((s.tick t).pa pa).slots[n]? = some f := inFlight
  have owner' : (s.tick t).job f.job = some j := owner
  change execFeedReadReturn t pa n k .uncorrected s = _
  simp only [execFeedReadReturn, unit, index, and_self, decide_true, inst_true, inFlight', owner', open_, held, Nat.not_le.mpr within, or_self,
    Bool.false_eq_true, if_false]
  rfl

theorem exec_feedReadReturn_failed (c : Nat) : exec (.feedReadReturn t pa n k (.failed c)) s =
    .next ((((s.tick t).slotSpoiled pa k f j).accessFault c (dieOf j.g) (0x30 + j.g) j.p (j.elemAddr f.pass f.slot k) false).putJob
      (j.fail 4 (stwCode c) (j.passInfo f.pass).chunk)) := by
  have inFlight' : ((s.tick t).pa pa).slots[n]? = some f := inFlight
  have owner' : (s.tick t).job f.job = some j := owner
  change execFeedReadReturn t pa n k (.failed c) s = _
  simp only [execFeedReadReturn, unit, index, and_self, decide_true, inst_true, inFlight', owner', open_, held, Nat.not_le.mpr within, or_self,
    Bool.false_eq_true, if_false]
  rfl

end Bad

/-- A first failed check is captured with its code and address (R208). -/
theorem State.accessFault_captures (s : State) (code cache unit p addr : Nat) (write : Bool) (aux : Nat) (empty : s.on F.PGM_FAULT_VALID = false)
    (small : code < 8) :
    (s.accessFault code cache unit p addr write aux).on F.PGM_FAULT_VALID = true ∧
      (s.accessFault code cache unit p addr write aux).rd F.PGM_FAULT_CODE = code ∧
      (s.accessFault code cache unit p addr write aux).rd F.PGM_FAULT_ADDRESS = addr % 2 ^ 48 := by
  unfold State.accessFault
  simp only [State.raise_on, empty, Bool.false_eq_true, if_false]
  generalize s.raise _ = a
  unfold State.on State.wrB
  refine ⟨?_, ?_, State.rd_wr_same _ _ _ _ _⟩
  · rw [State.rd_wr_lsb _ _ _ _ _ _ _ _ (by decide), State.rd_wr_lsb _ _ _ _ _ _ _ _ (by decide), State.rd_wr_lsb _ _ _ _ _ _ _ _ (by decide),
      State.rd_wr_lsb _ _ _ _ _ _ _ _ (by decide), State.rd_wr_lsb _ _ _ _ _ _ _ _ (by decide), State.rd_wr_same]
    rfl
  · rw [State.rd_wr_lsb _ _ _ _ _ _ _ _ (by decide), State.rd_wr_lsb _ _ _ _ _ _ _ _ (by decide), State.rd_wr_lsb _ _ _ _ _ _ _ _ (by decide),
      State.rd_wr_lsb _ _ _ _ _ _ _ _ (by decide), State.rd_wr_same]
    exact Nat.mod_eq_of_lt small

/-- A failed check leaves every register but PGM_FAULT. -/
theorem State.rd_accessFault_reg (s : State) (code cache unit p addr : Nat) (write : Bool) (aux : Nat) (f : Fld) (i k : Nat)
    (out : f.reg ≠ .PGM_FAULT) : (s.accessFault code cache unit p addr write aux).rd f i k = s.rd f i k := by
  unfold State.accessFault State.wrB
  dsimp only
  generalize reported : s.raise _ = a
  have raised : a.rd f i k = s.rd f i k := reported ▸ s.raise_rd _ f i k
  split
  · exact raised
  · rw [State.rd_wr_reg _ _ _ _ _ _ _ _ out, State.rd_wr_reg _ _ _ _ _ _ _ _ out, State.rd_wr_reg _ _ _ _ _ _ _ _ out,
      State.rd_wr_reg _ _ _ _ _ _ _ _ out, State.rd_wr_reg _ _ _ _ _ _ _ _ out, State.rd_wr_reg _ _ _ _ _ _ _ _ out, raised]

/-! ### The statement -/

/-- Settles O24: the guards let the row load, a bad read spoils its slot, and what either leaves besides is what reads and reports leave. -/
theorem shadowRowsLoadInOrder : Obligations.ShadowRowsLoadInOrder := by
  unfold Obligations.ShadowRowsLoadInOrder
  refine ⟨?row, fun s t pa n k unit index => exec_feedReadReturn_data s t pa n k unit index, ?uncorrected, ?failed⟩
  case row =>
    intro s s₀ s₁ s₂ t pa cyc q m n ext ready st tsc j tile row sc unit next target more awake passed fits checked header covered read
    have loaded : (s.tick t).loadRow pa cyc j q = s₂.rowLoaded pa cyc tile row sc :=
      State.loadRow_loads target more awake passed fits checked header covered read
    obtain ⟨frame, regs⟩ : onlyRead (s.tick t) s₂ := State.onlyRead_of_loaded checked header read
    have next' : (s.tick t).loadTarget pa = some (j, q) := next
    refine ⟨s₂.rowLoaded pa cyc tile row sc, ?_, ?_, State.on_wrB_same _ _ _ _ _ rfl, ?_, ?_⟩
    · change execShadowRowLoad t pa cyc s = _
      simp only [execShadowRowLoad, unit, decide_true, inst_true, next', loaded]
    · exact congrArg PaSt.shadow (State.pa_setPa_same _ _ _)
    · intro f i k out
      simp only [List.mem_cons, List.not_mem_nil, or_false, not_or] at out
      obtain ⟨status, fault, ecc, cup, bwg, spent⟩ := out
      exact (State.rd_wr_reg _ _ _ _ _ _ _ _ status).trans (regs f i k (by simp [readTraces, fault, ecc, cup, bwg, spent]))
    · refine sameMem_of_mem (?_ : s₂.mem = s.mem)
      rw [frame]
      rfl
  case uncorrected =>
    intro s t pa n k f j unit index inFlight open_ held owner within
    have reported : onlyRead ((s.tick t).slotSpoiled pa k f j) (((s.tick t).slotSpoiled pa k f j).feedFault j.g j.p (0x30 + j.g)) :=
      State.onlyRead_feedFault _ _ _ _
    refine ⟨_, _, exec_feedReadReturn_uncorrected t unit index inFlight open_ held owner within, reported.slots_spoiled _,
      reported.job_spoiled owner 7 0 f.pass, rfl, rfl, rfl, rfl, State.raise_fc_congr _ rfl rfl rfl, State.raise_regs _ _,
      sameMem_of_mem (State.raise_mem _ _)⟩
  case failed =>
    intro s t pa n k c f j unit index inFlight open_ held owner within low high empty
    have recorded := ((s.tick t).slotSpoiled pa k f j).onlyRead_accessFault c (dieOf j.g) (0x30 + j.g) j.p (j.elemAddr f.pass f.slot k) false 0
    obtain ⟨valid, code, addr⟩ := ((s.tick t).slotSpoiled pa k f j).accessFault_captures c (dieOf j.g) (0x30 + j.g) j.p
      (j.elemAddr f.pass f.slot k) false 0 empty (by omega)
    refine ⟨_, exec_feedReadReturn_failed t unit index inFlight open_ held owner within c, recorded.slots_spoiled _,
      recorded.job_spoiled owner 4 (stwCode c) _, valid, code, addr, fun g i l out => ?_, sameMem_of_mem ?_⟩
    · exact State.rd_accessFault_reg _ _ _ _ _ _ _ _ g i l (by simpa using out)
    · refine (?_ : (((s.tick t).slotSpoiled pa k f j).accessFault c (dieOf j.g) (0x30 + j.g) j.p (j.elemAddr f.pass f.slot k) false).mem = s.mem)
      rw [recorded.1]
      rfl

end Sys2Proof.Machine
end

section
/-!
PROOFS of the array statements (spec/02): what writes to memory and remote exports leave of arrays, descriptors and credits (for O26).
-/

namespace Sys2Proof.Machine

/-! ### What a drain's writes leave (R34, R101, R153) -/

/-- Arrays, descriptors and drain credits are as before. -/
def keepsArrays (s s' : State) : Prop :=
  s'.pas = s.pas ∧ s'.jobs = s.jobs ∧ ∀ (f : Fld) (i j : Nat), f.reg = .SPR_CREDIT → s'.rd f i j = s.rd f i j

theorem keepsArrays_refl (s : State) : keepsArrays s s := ⟨rfl, rfl, fun _ _ _ _ => rfl⟩

theorem keepsArrays.trans {a b c : State} (h : keepsArrays a b) (h' : keepsArrays b c) : keepsArrays a c :=
  ⟨h'.1.trans h.1, h'.2.1.trans h.2.1, fun f i j credit => (h'.2.2 f i j credit).trans (h.2.2 f i j credit)⟩

theorem keepsArrays_foldl {α : Type} {step : State → α → State} (h : ∀ s x, keepsArrays s (step s x)) (l : List α) (s : State) :
    keepsArrays s (l.foldl step s) := foldl_related keepsArrays keepsArrays_refl (fun _ _ _ => keepsArrays.trans) h l s

/-- A state with the same arrays, descriptors and registers. -/
theorem keepsArrays_of_eq {s s' : State} (pas : s'.pas = s.pas) (jobs : s'.jobs = s.jobs) (regs : s'.regs = s.regs) : keepsArrays s s' :=
  ⟨pas, jobs, fun f i j _ => State.rd_congr regs f i j⟩

theorem keepsArrays.wr {a b : State} (h : keepsArrays a b) (f : Fld) (v i j : Nat) (other : f.reg ≠ .SPR_CREDIT := by decide) :
    keepsArrays a (b.wr f v i j) :=
  h.trans ⟨rfl, rfl, fun g i' j' credit => b.rd_wr_reg f g v i j i' j' (fun e => other (e.symm.trans credit))⟩

theorem keepsArrays.inc {a b : State} (h : keepsArrays a b) (f : Fld) (i j n : Nat) (other : f.reg ≠ .SPR_CREDIT := by decide) :
    keepsArrays a (b.inc f i j n) := h.wr f _ i j other

theorem State.keepsArrays_setSnap (s : State) (p : Nat) (x : SnapSt) : keepsArrays s (s.setSnap p x) := keepsArrays_of_eq rfl rfl rfl

theorem State.keepsArrays_setHang (s : State) (p : Nat) (x : HangSt) : keepsArrays s (s.setHang p x) := keepsArrays_of_eq rfl rfl rfl

theorem State.keepsArrays_setLedger (s : State) (p : Nat) (x : LedSt) : keepsArrays s (s.setLedger p x) := keepsArrays_of_eq rfl rfl rfl

theorem State.keepsArrays_wrBytes (s : State) (a : Nat) (b : Bytes) : keepsArrays s (s.wrBytes a b) := keepsArrays_of_eq rfl rfl rfl

theorem onlyRead.keepsArrays {s s' : State} (h : onlyRead s s') : keepsArrays s s' :=
  ⟨by rw [h.1], by rw [h.1], fun f i j credit => h.2 f i j (by rw [credit]; decide)⟩

theorem State.keepsArrays_raise (s : State) (r : Report) : keepsArrays s (s.raise r) := (s.onlyRead_raise r).keepsArrays

/-! ### Stores (R205, R219) -/

theorem State.keepsArrays_eccFirst (s : State) (stack kind chan lane ca : Nat) : keepsArrays s (s.eccFirst stack kind chan lane ca) := by
  unfold State.eccFirst
  split
  · exact keepsArrays_refl s
  · exact (((((keepsArrays_refl s).wr F.MEM_ECC_FIRST_VALID _ _ _).wr F.MEM_ECC_FIRST_KIND _ _ _).wr F.MEM_ECC_FIRST_CHANNEL _ _ _).wr
      F.MEM_ECC_FIRST_LANE _ _ _).wr F.MEM_ECC_FIRST_BURST _ _ _

theorem State.keepsArrays_narrowWrite (s : State) (gk unit p : Nat) : keepsArrays s (s.narrowWrite gk unit p) := by
  unfold State.narrowWrite
  split
  · split
    · exact keepsArrays_refl s
    · exact (s.keepsArrays_raise _).trans (State.keepsArrays_eccFirst _ _ _ _ _ _)
  · exact s.keepsArrays_raise _

theorem State.keepsArrays_putKeys (s : State) (unit p : Nat) (kb : List (Nat × Byte)) : keepsArrays s (s.putKeys unit p kb) := by
  unfold State.putKeys
  refine ((s.onlyRead_dropPriv _).keepsArrays.trans (keepsArrays_of_eq rfl rfl rfl)).trans (keepsArrays_foldl (fun s gk => ?_) _ _)
  split
  · split
    · exact keepsArrays_of_eq rfl rfl rfl
    · exact s.keepsArrays_narrowWrite _ _ _
  · exact keepsArrays_refl s

theorem State.keepsArrays_pmUpdate (s : State) (v : Nat) (f : Nat → Nat) : keepsArrays s (s.pmUpdate v f) := keepsArrays_of_eq rfl rfl rfl

theorem State.keepsArrays_storePlain (s : State) (cache unit p addr : Nat) (b : Bytes) : keepsArrays s (s.storePlain cache unit p addr b) := by
  unfold State.storePlain State.storeBytes
  refine (s.onlyRead_traffic _ _ _ _ _).keepsArrays.trans ((State.keepsArrays_putKeys _ _ _ _).trans (keepsArrays_foldl (fun s v => ?_) _ _))
  split
  · exact s.keepsArrays_pmUpdate _ _
  · exact keepsArrays_refl s

/-! ### Page copies and cuts (R212 to R214, R429, R438) -/

theorem State.keepsArrays_cowCopy (s : State) (v p frame : Nat) : keepsArrays s (s.cowCopy v p frame) := by
  unfold State.cowCopy
  extract_lets e data bad log s₁ m s₂ s₃ s₄
  have fetched : keepsArrays s s₁ := ((s.onlyRead_fetchPriv _).trans (State.onlyRead_dropPriv _ _)).keepsArrays
  have copied : keepsArrays s₁ s₂ := keepsArrays_of_eq rfl rfl rfl
  have charged : keepsArrays s₂ s₃ := ((s₂.onlyRead_regCharge _ _ _ _ _).trans (State.onlyRead_regCharge _ _ _ _ _ _)).keepsArrays
  have logged : keepsArrays s₃ s₄ :=
    ((s₃.keepsArrays_wrBytes log _).trans (State.keepsArrays_wrBytes _ (log + 4) _)).trans (State.keepsArrays_wrBytes _ (log + 8) _)
  exact ((((fetched.trans copied).trans charged).trans logged).trans (s₄.keepsArrays_pmUpdate v _)).inc F.PGM_CUT_COPIES p 0 1

theorem State.keepsArrays_cutEnd (s : State) (p code : Nat) : keepsArrays s (s.cutEnd p code) :=
  ((((keepsArrays_refl s).wr F.PGM_CUT_ACTIVE 0 p 0).wr F.SNP_STATUS_LAST_CODE code p 0).wr F.SNP_STATUS_STATE 0 p 0).trans
    (State.keepsArrays_setSnap _ _ _)

theorem State.keepsArrays_cutAbort (s : State) (p : Nat) : keepsArrays s (s.cutAbort p) :=
  (((keepsArrays_refl s).wr F.PGM_CUT_ABORTED _ _ _).trans (State.keepsArrays_raise _ _)).trans (State.keepsArrays_cutEnd _ _ _)

theorem State.keepsArrays_cowNow (s : State) (v : Nat) : keepsArrays s (s.cowNow v) := by
  unfold State.cowNow
  dsimp only
  split
  · split
    · exact s.keepsArrays_cowCopy _ _ _
    · exact s.keepsArrays_cutAbort _
  · exact keepsArrays_refl s

theorem State.keepsArrays_perform (s : State) (h : CowHold) : keepsArrays s (s.perform h) :=
  (keepsArrays_foldl State.keepsArrays_cowNow _ s).trans (State.keepsArrays_storePlain _ _ _ _ _ _)

theorem State.keepsArrays_releaseHolds (s : State) : keepsArrays s s.releaseHolds := by
  unfold State.releaseHolds
  refine (keepsArrays_of_eq rfl rfl rfl : keepsArrays s { s with memx := { s.memx with cowHolds := [] } }).trans
    (keepsArrays_foldl (fun s h => ?_) _ _)
  split
  · exact keepsArrays_of_eq rfl rfl rfl
  · exact s.keepsArrays_perform h

theorem State.keepsArrays_finishCopy (s : State) (v : Nat) : keepsArrays s (s.finishCopy v) := by
  unfold State.finishCopy
  split
  · exact keepsArrays_refl s
  · refine keepsArrays.trans (keepsArrays.trans ?_ (State.keepsArrays_cowCopy _ _ _ _)) (State.keepsArrays_releaseHolds _)
    exact keepsArrays_of_eq rfl rfl rfl

theorem State.keepsArrays_devWrite (s : State) (cache unit p addr : Nat) (b : Bytes) (mirror : Bool) (who : Option Fn) :
    keepsArrays s (s.devWrite cache unit p addr b mirror who).2 := by
  have checked := (s.onlyRead_checkAccess cache unit p addr b.length true mirror 0).keepsArrays
  unfold State.devWrite
  split
  · next e => rwa [e] at checked
  · next s₀ e =>
    rw [e] at checked
    have finished := keepsArrays_foldl State.keepsArrays_finishCopy (pagesOf addr b.length) s₀
    dsimp only
    split
    · exact (checked.trans finished).trans (keepsArrays_of_eq rfl rfl rfl)
    · exact (checked.trans finished).trans ((keepsArrays_foldl State.keepsArrays_cowNow _ _).trans (State.keepsArrays_storePlain _ _ _ _ _ _))

/-! ### Remote exports (R153, R416, R423) -/

theorem State.keepsArrays_ledRelease (s : State) (p fuel : Nat) : keepsArrays s (s.ledRelease p fuel) := by
  induction fuel generalizing s with
  | zero => exact keepsArrays_refl s
  | succ fuel ih =>
    unfold State.ledRelease
    dsimp only
    split
    · refine keepsArrays.trans (keepsArrays.wr ?_ F.LDG_TAIL_TAIL _ _ _) (ih _)
      exact s.keepsArrays_setLedger _ _
    · split
      · refine keepsArrays.trans (keepsArrays.inc (keepsArrays.wr ?_ F.LDG_TAIL_TAIL _ _ _) F.LDG_RELEASED_RELEASED _ _ _) (ih _)
        exact s.keepsArrays_setLedger _ _
      · exact keepsArrays_refl s

theorem State.keepsArrays_ledWrite (s : State) (p u : Nat) (b : Bytes) : keepsArrays s (s.ledWrite p u b) :=
  keepsArrays_foldl (fun s _ => s.keepsArrays_wrBytes _ _) _ s

theorem State.keepsArrays_ledAppend {s s' : State} {p : Nat} {r held : Bytes} (h : s.ledAppend p r held = some s') : keepsArrays s s' := by
  unfold State.ledAppend at h
  dsimp only at h
  split at h
  · cases h
  · cases h
    refine keepsArrays.trans (keepsArrays.inc (keepsArrays.wr ?_ F.LDG_HEAD_HEAD _ _ _) F.LDG_APPENDED_APPENDED _ _ _)
      (State.keepsArrays_setHang _ _ _)
    exact ((s.onlyRead_regCharge _ _ _ _ _).keepsArrays.trans (State.keepsArrays_ledWrite _ _ _ _)).trans (State.keepsArrays_ledWrite _ _ _ _)

theorem State.keepsArrays_sendBeat (s : State) (dst : Nat) (b : Beat) : keepsArrays s (s.sendBeat dst b) := by
  unfold State.sendBeat
  refine keepsArrays_foldl (fun s k => ?_) _ s
  exact keepsArrays_of_eq rfl rfl rfl

theorem State.keepsArrays_ledFull (s : State) (p : Nat) (waits : Bool) : keepsArrays s (s.ledFull p waits) := by
  have settled : keepsArrays s (s.settle p) := s.keepsArrays_setHang _ _
  unfold State.ledFull
  dsimp only
  split
  · split
    · exact settled
    · exact (settled.wr F.LDG_STATUS_FULL _ _ _).trans (State.keepsArrays_raise _ _)
  · exact settled.wr F.LDG_STATUS_FULL _ _ _

theorem State.keepsArrays_exportWhole {s s' : State} {dst : Nat} {bs : List Beat} (h : s.exportWhole dst bs = some s') : keepsArrays s s' := by
  unfold State.exportWhole at h
  split at h
  · cases h
    exact keepsArrays_refl s
  · dsimp only at h
    split at h
    · cases h
    · next appended =>
      cases h
      refine (State.keepsArrays_ledAppend appended).trans (keepsArrays.trans ?_ (State.keepsArrays_ledRelease _ _ _))
      split
      · exact keepsArrays_refl _
      · exact keepsArrays_foldl (fun s x => s.keepsArrays_sendBeat dst x) _ _

theorem State.keepsArrays_exportRemote (s : State) (dst : Nat) (b : Beat) : keepsArrays s (s.exportRemote dst b) := by
  unfold State.exportRemote
  dsimp only
  split
  · split
    · next sent => exact (State.keepsArrays_exportWhole sent).trans (State.keepsArrays_setLedger _ _ _)
    · exact (s.keepsArrays_setLedger _ _).trans (State.keepsArrays_ledFull _ _ _)
  · exact s.keepsArrays_setLedger _ _

end Sys2Proof.Machine
end

section
/-!
PROOFS of the array statements (spec/02): a slot through the drain, its credit and its accumulator words (O26).
-/

namespace Sys2Proof.Machine

/-! ### What a stage of the drain leaves -/

/-- What the drain never changes of a descriptor: its number, its array, its width, what it says, and the slots drained before. -/
def Job.sameWork (j j' : Job) : Prop :=
  j'.id = j.id ∧ j'.pa = j.pa ∧ j'.n = j.n ∧ j'.desc = j.desc ∧ j'.ext = j.ext ∧ j'.drained = j.drained

theorem Job.sameWork.trans {a b c : Job} (h : a.sameWork b) (h' : b.sameWork c) : a.sameWork c := by
  obtain ⟨id, pa, n, desc, ext, drained⟩ := h
  obtain ⟨id', pa', n', desc', ext', drained'⟩ := h'
  exact ⟨id'.trans id, pa'.trans pa, n'.trans n, desc'.trans desc, ext'.trans ext, drained'.trans drained⟩

section Same
variable {j j' : Job} (h : j.sameWork j')
include h

theorem Job.sameWork.accum_eq : j'.accum = j.accum := by
  obtain ⟨-, -, -, desc, -, -⟩ := h
  rw [Job.accum, desc, Job.accum]

theorem Job.sameWork.slotNo_eq : j'.slotNo = j.slotNo := by
  obtain ⟨-, -, -, desc, -, -⟩ := h
  rw [Job.slotNo, desc, Job.slotNo]

theorem Job.sameWork.final_eq : j'.final = j.final := by
  obtain ⟨-, -, -, desc, -, -⟩ := h
  rw [Job.final, desc, Job.final]

theorem Job.sameWork.outKind_eq : j'.outKind = j.outKind := by
  obtain ⟨-, -, -, desc, -, -⟩ := h
  rw [Job.outKind, desc, Job.outKind]

theorem Job.sameWork.axisM_eq : j'.axisM = j.axisM := by
  obtain ⟨-, -, -, desc, -, -⟩ := h
  rw [Job.axisM, desc, Job.axisM]

theorem Job.sameWork.exports_eq : j'.exports = j.exports := by
  obtain ⟨-, -, -, -, ext, -⟩ := h
  rw [Job.exports, ext, Job.exports]

theorem Job.sameWork.perChunk_eq : j'.perChunk = j.perChunk ∧ j'.words = j.words := by
  obtain ⟨-, -, -, desc, ext, -⟩ := h
  have words : j'.words = j.words := by rw [Job.words, Job.xFmt, desc, Job.words, Job.xFmt]
  have complex : j'.complex = j.complex := by rw [Job.complex, ext, Job.complex]
  exact ⟨by rw [Job.perChunk, words, complex, Job.perChunk], words⟩

theorem Job.sameWork.passInfo_eq (q : Nat) : j'.passInfo q = j.passInfo q := by
  obtain ⟨perChunk, words⟩ := h.perChunk_eq
  obtain ⟨-, -, -, desc, -, -⟩ := h
  simp only [Job.passInfo, perChunk, words, Job.xFmt, desc]

theorem Job.sameWork.lastInto_eq (q : Nat) : j'.lastInto q = j.lastInto q := by
  have passes : j'.passes = j.passes := by
    obtain ⟨perChunk, -⟩ := h.perChunk_eq
    obtain ⟨-, -, -, desc, -, -⟩ := h
    simp only [Job.passes, perChunk, Job.chunks, desc]
  simp only [Job.lastInto, passes, h.passInfo_eq]

end Same

/-- A stage that leaves arrays and credits, the descriptor's work and the rows it holds. -/
def drainStep (a b : State × Job) : Prop := keepsArrays a.1 b.1 ∧ a.2.sameWork b.2 ∧ b.2.held = a.2.held

theorem drainStep_refl (a : State × Job) : drainStep a a := ⟨keepsArrays_refl _, ⟨rfl, rfl, rfl, rfl, rfl, rfl⟩, rfl⟩

theorem drainStep.trans {a b c : State × Job} (h : drainStep a b) (h' : drainStep b c) : drainStep a c :=
  ⟨h.1.trans h'.1, h.2.1.trans h'.2.1, h'.2.2.trans h.2.2⟩

theorem drainStep_foldl {α : Type} {step : State × Job → α → State × Job} (h : ∀ a x, drainStep a (step a x)) (l : List α) (a : State × Job) :
    drainStep a (l.foldl step a) := foldl_steps drainStep drainStep_refl (fun _ _ _ => drainStep.trans) h l a

/-- A stage that leaves the descriptor. -/
theorem drainStep_of_state {s s' : State} (h : keepsArrays s s') (j : Job) : drainStep (s, j) (s', j) :=
  ⟨h, ⟨rfl, rfl, rfl, rfl, rfl, rfl⟩, rfl⟩

/-- A stage that changes the descriptor outside its work. -/
theorem drainStep_of_job (s : State) {j j' : Job} (work : j.sameWork j') (held : j'.held = j.held) : drainStep (s, j) (s, j') :=
  ⟨keepsArrays_refl s, work, held⟩

/-- The same stage when the descriptor holds other rows. -/
theorem drainStep.withHeld {a b : State × Job} (h : drainStep a b) (rows : List (List (Option Val))) :
    drainStep (a.1, { a.2 with held := rows }) (b.1, { b.2 with held := rows }) := ⟨h.1, h.2.1, rfl⟩

theorem Job.sameWork_fail (j : Job) (status detail info : Nat) : j.sameWork (j.fail status detail info) ∧
    (j.fail status detail info).held = j.held := by
  obtain ⟨b, e⟩ := j.fail_eq status detail info
  rw [e]
  exact ⟨⟨rfl, rfl, rfl, rfl, rfl, rfl⟩, rfl⟩

theorem Job.sameWork_note (j : Job) (loc : Nat) (b : Bytes) : j.sameWork (j.note loc b) ∧ (j.note loc b).held = j.held := by
  unfold Job.note
  split
  · exact ⟨⟨rfl, rfl, rfl, rfl, rfl, rfl⟩, rfl⟩
  · exact ⟨⟨rfl, rfl, rfl, rfl, rfl, rfl⟩, rfl⟩

theorem drainStep.note {a : State × Job} {s : State} {j : Job} (h : drainStep a (s, j)) (loc : Nat) (b : Bytes) :
    drainStep a (s, j.note loc b) := h.trans (drainStep_of_job s (j.sameWork_note loc b).1 (j.sameWork_note loc b).2)

/-! ### Writes of the drain -/

theorem State.drainStep_jobWrite (s : State) (j : Job) (unit addr : Nat) (b : Bytes) : drainStep (s, j) (s.jobWrite j unit addr b).2 := by
  unfold State.jobWrite
  split
  · split
    · exact drainStep_refl _
    · obtain ⟨work, held⟩ := j.sameWork_note addr b
      exact drainStep_of_job s work held
  · have written := s.keepsArrays_devWrite (dieOf j.g) unit j.p addr b false none
    split
    · next e =>
      rw [e] at written
      exact drainStep_of_state written j
    · next e =>
      rw [e] at written
      exact (drainStep_of_state written j).note _ _

theorem State.drainStep_drainWrite (s : State) (j : Job) (pass addr : Nat) (b : Bytes) : drainStep (s, j) (s.drainWrite j pass addr b) := by
  have written := s.drainStep_jobWrite j (0x30 + j.g) addr b
  unfold State.drainWrite
  split
  · exact drainStep_refl _
  · split
    · next j' e =>
      rw [e] at written
      obtain ⟨work, held⟩ := j'.sameWork_fail 6 0 pass
      exact written.trans (drainStep_of_job _ work held)
    · next e => rwa [e] at written

theorem State.drainStep_drainRow (s : State) (j : Job) (pass addr b : Nat) (els : List (Option Nat)) :
    drainStep (s, j) (s.drainRow j pass addr b els) := by
  unfold State.drainRow
  dsimp only
  split
  · exact s.drainStep_drainWrite _ _ _ _
  · refine drainStep_foldl (fun a i => ?_) _ _
    split
    · exact drainStep_refl a
    · exact a.1.drainStep_drainWrite _ _ _ _

theorem State.drainStep_countOut (s : State) (j : Job) (conv : List (Option (Nat × Nat))) (xs : List (Option Val)) :
    drainStep (s, j) (s.countOut j conv xs) := by
  unfold State.countOut
  extract_lets oc n am j' add s₁ s₂
  have counted (s : State) (f : Fld) (k : Nat) (other : f.reg ≠ .SPR_CREDIT) : keepsArrays s (add s f k) :=
    (keepsArrays_refl s).inc f j'.pa 0 _ other
  have first : keepsArrays s s₁ :=
    (((counted _ _ 0 (by decide)).trans (counted _ _ 1 (by decide))).trans (counted _ _ 2 (by decide))).trans (counted _ _ 3 (by decide))
  have second : keepsArrays s₁ s₂ := ((counted _ _ 4 (by decide)).trans (counted _ _ 5 (by decide))).trans (counted _ _ 6 (by decide))
  have work : drainStep (s, j) (s, j') := drainStep_of_job s ⟨rfl, rfl, rfl, rfl, rfl, rfl⟩ rfl
  split
  · exact work
  · exact work.trans (drainStep_of_state ((first.trans second).wr F.SPR_AMAX_AMAX _ _ _) j')

theorem State.drainStep_putOut (s : State) (j : Job) (imag : Bool) (pass m : Nat) (conv : List (Option (Nat × Nat))) (scs : List (Nat × Nat)) :
    drainStep (s, j) (s.putOut j imag pass m conv scs) :=
  (s.drainStep_drainRow _ _ _ _ _).trans (drainStep_foldl (fun a _ => a.1.drainStep_drainWrite _ _ _ _) _ _)

theorem State.drainStep_putAcc (s : State) (j : Job) (sl m : Nat) (els : List (Option Nat)) : drainStep (s, j) (s.putAcc j sl m els) := by
  unfold State.putAcc
  refine drainStep_foldl (fun a x => ?_) _ _
  split
  · exact drainStep_refl a
  · exact (drainStep_of_state (a.1.keepsArrays_wrBytes _ _) a.2).note _ _

/-- A beat stays here, goes to another device or goes to a group of this one, whichever holds of the descriptor (R101). -/
theorem State.drainStep_beatSent (s : State) (j : Job) (echo remote : Bool) (dst : Nat) (beat : Beat) :
    drainStep (s, j) (if echo then (s, j) else if remote then (s.exportRemote dst beat, j) else ({ s with beats := s.beats ++ [beat] }, j)) := by
  split
  · exact drainStep_refl _
  · split
    · exact drainStep_of_state (s.keepsArrays_exportRemote _ _) j
    · exact drainStep_of_state (keepsArrays_of_eq rfl rfl rfl) j

/-! ### Rows held for a block along m (R110, R112) -/

/-- The rows held after row `row` of an output tile: with a block along m it joins those held, and the 32nd empties them. -/
def Job.heldAfter (j : Job) (row : List (Option Val)) : List (List (Option Val)) :=
  if j.outKind = 2 ∧ j.axisM then (if j.held.length + 1 < 32 then j.held ++ [row] else []) else j.held

theorem Job.sameWork.heldAfter_eq {j j' : Job} (h : j.sameWork j') (held : j'.held = j.held) (row : List (Option Val)) :
    j'.heldAfter row = j.heldAfter row := by
  simp only [Job.heldAfter, h.outKind_eq, h.axisM_eq, held]

theorem State.drainStep_outRow (s : State) (j : Job) (imag : Bool) (pass m : Nat) (xs : List (Option Val)) :
    drainStep (s, { j with held := j.heldAfter xs }) (s.outRow j imag pass m xs) := by
  unfold State.outRow
  split
  case isTrue kind =>
    have same : j.heldAfter xs = j.held := if_neg (fun h => kind h.1)
    rw [same]
    exact (s.drainStep_countOut _ _ _).trans (State.drainStep_putOut _ _ _ _ _ _ _)
  case isFalse kind =>
    split
    case isTrue axis =>
      have same : j.heldAfter xs = j.held := if_neg (fun h => by simp [h.2] at axis)
      rw [same]
      exact (s.drainStep_countOut _ _ _).trans (State.drainStep_putOut _ _ _ _ _ _ _)
    case isFalse axis =>
      have along : j.outKind = 2 ∧ j.axisM = true := ⟨not_not.mp kind, by simpa using axis⟩
      have held : j.heldAfter xs = if (j.held ++ [xs]).length < 32 then j.held ++ [xs] else [] := by
        rw [Job.heldAfter, if_pos along, List.length_append, List.length_singleton]
      rw [held]
      dsimp only
      split
      · exact drainStep_refl _
      · refine (drainStep_foldl (fun a i => ?_) _ (s, { j with held := [] })).trans (drainStep_foldl (fun a e => ?_) _ _)
        · exact (a.1.drainStep_countOut a.2 _ _).trans (State.drainStep_putOut _ _ _ _ _ _ _)
        · exact a.1.drainStep_drainWrite _ _ _ _

/-! ### The last pass (R105, R108, R109) -/

theorem State.onlyRead_fusedAt (s : State) (j : Job) (m n : Nat) : onlyRead s (s.fusedAt j m n).2.2 := by
  have bits := s.onlyRead_readBits j (0x30 + j.g) (j.fusedPlace m n).1 (j.ff.b * (j.fusedPlace m n).2) j.ff.b
  unfold State.fusedAt
  dsimp only
  split
  · next e => rwa [e] at bits
  · next e => rwa [e] at bits

/-- The last stages only let the row join the rows held, where nothing is exported. -/
theorem State.drainStep_lastStages (s : State) (j : Job) (imag : Bool) (sl pass m : Nat) (acc : List (Option Nat)) :
    ∃ row, drainStep (s, { j with held := if j.exports then j.held else j.heldAfter row }) (s.lastStages j imag sl pass m acc) := by
  unfold State.lastStages
  extract_lets fz s₁ lost at_ from_ upTo s₂ j₁ r wide vals r'
  have fused : onlyRead s fz.2.2 := by
    simp only [fz]
    split
    · refine onlyRead_foldl_carried (fun b : List (Option Nat) × Bool × State => b.2.2) (fun b x => ?_) _ ([], false, s)
      split
      · exact onlyRead_refl _
      · have got := b.2.2.onlyRead_fusedAt j m x.2
        split
        · next e => rwa [e] at got
        · next e => rwa [e] at got
    · exact onlyRead_refl s
  have faulted : onlyRead s s₁ := by
    simp only [s₁]
    split
    · exact fused.trans (State.onlyRead_feedFault _ _ _ _)
    · exact fused
  have charged : onlyRead s s₂ := by
    simp only [s₂]
    split
    · exact faulted.trans (State.onlyRead_traffic _ _ _ _ _ _)
    · exact faulted
  have noted : drainStep (s₂, j) (s₂, j₁) := by
    simp only [j₁]
    split
    · exact drainStep_of_job _ (j.sameWork_fail 6 0 pass).1 (j.sameWork_fail 6 0 pass).2
    · exact drainStep_refl _
  have stored : drainStep (s, j) r := by
    refine (drainStep_of_state charged.keepsArrays j).trans (noted.trans ?_)
    simp only [r]
    split
    · exact s₂.drainStep_putAcc _ _ _ _
    · exact drainStep_refl _
  have rowed : drainStep (s, j) r' := by
    refine stored.trans ?_
    simp only [r']
    split
    · exact r.1.drainStep_drainWrite r.2 _ _ _
    · exact drainStep_refl _
  rw [noted.2.1.exports_eq]
  clear_value r' vals
  by_cases out : j.exports = true
  · refine ⟨[], ?_⟩
    rw [if_pos out, if_pos out]
    exact (rowed.note _ _).trans (r'.1.drainStep_beatSent (r'.2.note _ _) _ _ _ _)
  · refine ⟨vals, ?_⟩
    rw [if_neg out, if_neg out]
    refine (rowed.withHeld (j.heldAfter vals)).trans ?_
    rw [← rowed.2.1.heldAfter_eq rowed.2.2]
    exact r'.1.drainStep_outRow r'.2 imag pass m vals

/-! ### A slot through the drain (R100, R112) -/

/-- The state and the descriptor once the stages of a slot's pass have run on the accumulator bits `acc`. -/
def State.drained (s : State) (j : Job) (f : SlotFl) (acc : List (Option Nat)) : State × Job :=
  let i := j.passInfo f.pass
  let sl := j.slotNo + (if i.imagOut then 1 else 0)
  let r := s.putAcc j sl f.slot acc
  if j.final && j.lastInto f.pass then r.1.lastStages r.2 i.imagOut sl f.pass f.slot acc else r

/-- The drain of a slot notes errors, runs the stages of its pass, and then marks the slot, gives credits back and counts it. -/
theorem State.drain_eq (s : State) (pa : Nat) (j : Job) (f : SlotFl) (corr unc : List Nat) :
    ∃ (s₁ : State) (j₁ : Job) (acc : List (Option Nat)) (x : PaSt), drainStep (s, j) (s₁, j₁) ∧ s₁.mem = s.mem ∧ acc.length = j.n ∧
      s.drain pa j f corr unc =
        (((s₁.drained j₁ f acc).1.setPa pa x).giveCredits pa (creditsBack j.held.length (s₁.drained j₁ f acc).2.held.length)).putJob
          { (s₁.drained j₁ f acc).2 with drained := (s₁.drained j₁ f acc).2.drained + 1 } ∧
      x.slots = (((s₁.drained j₁ f acc).1.pa pa).putSlot { f with drained := true }).slots := by
  unfold State.drain
  extract_lets i sl reads w ps first here bad fixed s₁ s₂ j₁ res els nOver j₂ s₃ acc r r' s₄ ps' kept lam wrote s₅
  obtain ⟨b, noted⟩ : ∃ b, j₁ = { j with bad := b } := by
    simp only [j₁]
    split
    · exact ⟨j.bad, rfl⟩
    · exact j.fail_eq _ _ _
  have counted : keepsArrays s s₁ := ((keepsArrays_refl s).inc F.SPR_ACC_ECC_UNCORRECTED pa 0 _).inc F.SPR_ACC_ECC_CORRECTED pa 0 _
  have faulted : keepsArrays s s₂ ∧ s₂.mem = s.mem := by
    simp only [s₂]
    split
    · exact ⟨counted, rfl⟩
    · exact ⟨counted.trans (State.keepsArrays_raise _ _), State.raise_mem _ _⟩
  have ranged : keepsArrays s s₃ ∧ s₃.mem = s.mem := by
    simp only [s₃]
    split
    · exact faulted
    · exact ⟨faulted.1.inc F.SPR_CENSUS_D_EXACT_RANGE pa 0 _, faulted.2⟩
  have long : acc.length = j₁.n := by simp [acc, els]
  clear_value j₁
  subst noted
  exact ⟨s₃, j₂, acc, _, ⟨ranged.1, ⟨rfl, rfl, rfl, rfl, rfl, rfl⟩, rfl⟩, ranged.2, long, rfl, rfl⟩

/-- The rows held once a slot of pass `pass` has run: only the last pass into an output tile holds a row. -/
def Job.rowsHeld (j : Job) (pass : Nat) (row : List (Option Val)) : List (List (Option Val)) :=
  if j.final && j.lastInto pass then (if j.exports then j.held else j.heldAfter row) else j.held

theorem State.drainStep_drained (s : State) (j : Job) (f : SlotFl) (acc : List (Option Nat)) :
    ∃ row, drainStep (s, { j with held := j.rowsHeld f.pass row }) (s.drained j f acc) := by
  unfold State.drained Job.rowsHeld
  extract_lets i sl r
  have stored : drainStep (s, j) r := s.drainStep_putAcc _ _ _ _
  split
  · obtain ⟨row, staged⟩ := r.1.drainStep_lastStages r.2 i.imagOut sl f.pass f.slot acc
    rw [stored.2.1.exports_eq, stored.2.1.heldAfter_eq stored.2.2, stored.2.2] at staged
    exact ⟨row, (stored.withHeld _).trans staged⟩
  · exact ⟨[], stored⟩

theorem Job.sameWork.rowsHeld_eq {j j' : Job} (h : j.sameWork j') (held : j'.held = j.held) (pass : Nat) (row : List (Option Val)) :
    j'.rowsHeld pass row = j.rowsHeld pass row := by
  simp only [Job.rowsHeld, h.final_eq, h.lastInto_eq, h.exports_eq, h.heldAfter_eq held, held]

/-- A slot adds to the rows held only where it ends a local output tile with blocks along m. -/
theorem Job.rowsHeld_eq (j : Job) (pass : Nat) (row : List (Option Val)) : j.rowsHeld pass row =
    if j.final ∧ j.lastInto pass ∧ j.exports = false ∧ j.outKind = 2 ∧ j.axisM then
      (if j.held.length + 1 < 32 then j.held ++ [row] else []) else j.held := by
  unfold Job.rowsHeld Job.heldAfter
  by_cases last : j.final = true ∧ j.lastInto pass = true
  · cases out : j.exports <;> simp [last]
  · rw [if_neg (by simpa using last), if_neg (fun h => last ⟨h.1, h.2.1⟩)]

/-- The credits that come back with a slot: one, or none while its row is held, and all of the block's with the 32nd row (R34, R112). -/
theorem creditsBack_rowsHeld (j : Job) (pass : Nat) (row : List (Option Val)) (few : j.held.length < 32) :
    creditsBack j.held.length (j.rowsHeld pass row).length =
      if j.final ∧ j.lastInto pass ∧ j.exports = false ∧ j.outKind = 2 ∧ j.axisM then (if j.held.length = 31 then 32 else 0) else 1 := by
  rw [Job.rowsHeld_eq]
  split
  · by_cases full : j.held.length = 31
    · simp [full, creditsBack]
    · simp [show j.held.length + 1 < 32 by omega, full, creditsBack]
  · simp [creditsBack]

/-! ### The accumulator words of a slot (R97, R99) -/

/-- The drain stores within the accumulator words of the slot's row. -/
theorem State.rdByte_putAcc_other (s : State) (j : Job) (sl m : Nat) (els : List (Option Nat)) (a : Nat)
    (out : ∀ n, n < els.length → a < accKey j.pa (4 * accWord j.accum sl (m * j.n + n)) ∨
      accKey j.pa (4 * accWord j.accum sl (m * j.n + n)) + 4 * accWords j.accum ≤ a) :
    (s.putAcc j sl m els).1.rdByte a = s.rdByte a := by
  unfold State.putAcc
  refine List.foldlRecOn els.zipIdx _ (motive := fun r : State × Job => r.1.rdByte a = s.rdByte a) rfl (fun r same x mem => ?_)
  have place : x.2 < els.length := by
    have := List.mem_zipIdx mem
    omega
  split
  · exact same
  · refine (State.rdByte_wrBytes_other _ _ _ _ ?_).trans same
    rw [length_natLe]
    exact out x.2 place

/-! ### The command -/

/-- The cycle in which the drain's last write for slot `f` of descriptor `j` is due (R100). -/
def Job.drainDue (j : Job) (f : SlotFl) : Nat :=
  f.start + j.w + (if j.strict then 4098 else 258) + (if j.shape = 3 then 255 else shapeN j.shape - 1) + shapeExtra j.shape + j.drainLag f.pass

section Command
variable {s : State} (t : Nat) {pa cyc : Nat} (cor unc : List Nat) {f : SlotFl} {j : Job} (unit : pa < 272)
  (oldest : (s.pa pa).slots.find? (fun x => !x.drained) = some f) (owner : s.job f.job = some j)
include unit oldest owner

theorem exec_drainSlot_due (due : j.drainDue f ≤ cyc) : exec (.drainSlot t pa cyc cor unc) s = .next ((s.tick t).drain pa j f cor unc) := by
  have oldest' : ((s.tick t).pa pa).slots.find? (fun x => !x.drained) = some f := oldest
  have owner' : (s.tick t).job f.job = some j := owner
  change execDrainSlot t pa cyc cor unc s = _
  simp only [execDrainSlot, unit, decide_true, inst_true, oldest', owner']
  exact congrArg Host.Outcome.next (if_neg (Nat.not_lt.mpr due))

theorem exec_drainSlot_early (early : cyc < j.drainDue f) : exec (.drainSlot t pa cyc cor unc) s = .next (s.tick t) := by
  have oldest' : ((s.tick t).pa pa).slots.find? (fun x => !x.drained) = some f := oldest
  have owner' : (s.tick t).job f.job = some j := owner
  change execDrainSlot t pa cyc cor unc s = _
  simp only [execDrainSlot, unit, decide_true, inst_true, oldest', owner']
  exact congrArg Host.Outcome.next (if_pos early)

end Command

/-- Credits given back are taken from those in flight (R34). -/
theorem State.credits_giveCredits (s : State) (pa n : Nat) (all : s.rd F.SPR_CREDIT_FREE pa + s.rd F.SPR_CREDIT_IN_FLIGHT pa = 288)
    (there : n ≤ s.rd F.SPR_CREDIT_IN_FLIGHT pa) :
    (s.giveCredits pa n).rd F.SPR_CREDIT_FREE pa = s.rd F.SPR_CREDIT_FREE pa + n ∧
      (s.giveCredits pa n).rd F.SPR_CREDIT_FREE pa + (s.giveCredits pa n).rd F.SPR_CREDIT_IN_FLIGHT pa = 288 := by
  have free : (s.giveCredits pa n).rd F.SPR_CREDIT_FREE pa = (s.rd F.SPR_CREDIT_FREE pa + n) % 512 :=
    (State.rd_wr_lsb _ _ _ _ _ _ _ _ (by decide)).trans (State.rd_wr_same s F.SPR_CREDIT_FREE _ pa 0)
  have flight : (s.giveCredits pa n).rd F.SPR_CREDIT_IN_FLIGHT pa = (s.rd F.SPR_CREDIT_IN_FLIGHT pa - n) % 512 :=
    State.rd_wr_same _ F.SPR_CREDIT_IN_FLIGHT _ pa 0
  omega

/-! ### The statement -/

/-- Settles O26: the stages of the drain leave arrays, descriptors and credits, and only then is the slot marked and its credit given back. -/
theorem drainReturnsCredit : Obligations.DrainReturnsCredit := by
  unfold Obligations.DrainReturnsCredit
  refine ⟨?credit, ?words, fun s t pa cyc cor unc f j unit oldest owner early => exec_drainSlot_early t cor unc unit oldest owner early⟩
  case credit =>
    intro s t pa cyc k cor unc f j unit oldest owner due few back all there
    obtain ⟨s₁, j₁, acc, x, noted, -, -, drained, slots⟩ := (s.tick t).drain_eq pa j f cor unc
    obtain ⟨row, staged⟩ := s₁.drainStep_drained j₁ f acc
    generalize s₁.drained j₁ f acc = r at staged drained slots
    have kept := (noted.withHeld (j₁.rowsHeld f.pass row)).trans staged
    obtain ⟨⟨pas, jobs, credits⟩, ⟨id, -, -, -, -, count⟩, held⟩ := kept
    have rows : r.2.held = j.rowsHeld f.pass row := held.trans (Job.sameWork.rowsHeld_eq noted.2.1 noted.2.2 f.pass row)
    have given : creditsBack j.held.length r.2.held.length = k := by rw [rows, creditsBack_rowsHeld j f.pass row few, back]
    rw [given] at drained
    have free : (r.1.setPa pa x).rd F.SPR_CREDIT_FREE pa = s.rd F.SPR_CREDIT_FREE pa := credits F.SPR_CREDIT_FREE pa 0 rfl
    have flight : (r.1.setPa pa x).rd F.SPR_CREDIT_IN_FLIGHT pa = s.rd F.SPR_CREDIT_IN_FLIGHT pa := credits F.SPR_CREDIT_IN_FLIGHT pa 0 rfl
    obtain ⟨more, conserved⟩ := (r.1.setPa pa x).credits_giveCredits pa k (by rw [free, flight]; exact all) (by rw [flight]; exact there)
    have array : (((r.1.setPa pa x).giveCredits pa k).putJob { r.2 with drained := r.2.drained + 1 }).pa pa = x :=
      State.pa_setPa_same r.1 pa x
    have jobs' : ((r.1.setPa pa x).giveCredits pa k).jobs = s.jobs := jobs
    have found : ((r.1.setPa pa x).giveCredits pa k).job f.job = some j := by
      rw [State.job, jobs']
      exact owner
    have own : r.2.id = j.id := id
    have same : r.2.id = f.job := own.trans (State.id_of_job owner)
    have count' : r.2.drained = j.drained := count
    refine ⟨_, (exec_drainSlot_due t cor unc unit oldest owner due).trans (congrArg Host.Outcome.next drained), more.trans (by rw [free]),
      conserved, ?_, _, State.job_putJob found _ same, congrArg (· + 1) count'⟩
    have arrays : r.1.pas = s.pas := pas
    rw [array, slots, State.pa, arrays, State.pa]
  case words =>
    intro s t pa cyc cor unc f j unit oldest owner notLast due
    obtain ⟨s₁, j₁, acc, x, ⟨-, work, -⟩, mem, long, drained, -⟩ := (s.tick t).drain_eq pa j f cor unc
    have lag : j.drainLag f.pass = 8 := by simp [Job.drainLag, notLast]
    refine ⟨_, (exec_drainSlot_due t cor unc unit oldest owner (by rw [Job.drainDue, lag]; exact due)).trans
      (congrArg Host.Outcome.next drained), fun a out => ?_⟩
    refine (?_ : (s₁.drained j₁ f acc).1.rdByte a = s.rdByte a)
    have earlier : (j₁.final && j₁.lastInto f.pass) = false := by rw [work.final_eq, work.lastInto_eq, notLast]
    have only : s₁.drained j₁ f acc = s₁.putAcc j₁ (j₁.slotNo + (if (j₁.passInfo f.pass).imagOut then 1 else 0)) f.slot acc :=
      if_neg (by simp [earlier])
    rw [only, State.rdByte_putAcc_other]
    · exact congrArg (fun m => memGet m a) mem
    · rw [long, work.accum_eq, work.slotNo_eq, work.passInfo_eq]
      obtain ⟨-, pa₁, n₁, -⟩ := work
      rw [pa₁, n₁]
      exact out

end Sys2Proof.Machine
end

section
/-!
PROOFS of the hang statements (spec/14): the page copy that a reset lets go once accumulators are zeroed, and the refutation of O57.
-/

namespace Sys2Proof.Machine

/-! ### Where pages, page-map entries and cut-log records lie (R206, R213) -/

theorem pmFrame_lt (e : Nat) : pmFrame e < 2 ^ 24 := Nat.mod_lt _ (by decide)

theorem pmPlace_lt (e : Nat) : pmPlace e < 4 := Nat.mod_lt _ (by decide)

/-- Every page lies below the accumulator memory. -/
theorem pageKey_lt (e off : Nat) (inPage : off < 65536) : pageKey e off < 2 ^ 48 := by
  have frame := pmFrame_lt e
  have place := pmPlace_lt e
  unfold pageKey
  dsimp only
  split
  · omega
  · unfold cupKey
    omega
  · unfold cupKey
    omega

theorem memGet_memPutAll_first {m : List Host.Cell} (a : Nat) (b : Byte) (bs : Bytes) (w : Memory.wf m = true) :
    memGet (memPutAll m a (b :: bs)) a = b :=
  (memGet_memPutAll_other _ _ _ _ (Or.inl (Nat.lt_succ_self a))).trans (memGet_memPut_same a b w)

/-! ### Bytes that stores and page copies write (R205, R212) -/

theorem memGet_foldl_memPut_other (l : List (Nat × Byte)) (m : List Host.Cell) (a : Nat) (out : ∀ x, x ∈ l → a ≠ x.1) :
    memGet (l.foldl (fun m x => memPut m x.1 x.2) m) a = memGet m a :=
  List.foldlRecOn l _ (motive := fun m' => memGet m' a = memGet m a) rfl
    (fun m' same x mem => (memGet_memPut_other m' x.1 a x.2 (out x mem)).trans same)

theorem onlyRead.mem {s s' : State} (h : onlyRead s s') : s'.mem = s.mem := by rw [h.1]

theorem State.mem_eccFirst (s : State) (stack kind chan lane ca : Nat) : (s.eccFirst stack kind chan lane ca).mem = s.mem := by
  unfold State.eccFirst
  split <;> rfl

theorem State.mem_narrowWrite (s : State) (gk unit p : Nat) : (s.narrowWrite gk unit p).mem = s.mem := by
  unfold State.narrowWrite
  split
  · split
    · rfl
    · rw [State.mem_eccFirst, State.raise_mem]
  · exact s.raise_mem _

theorem State.mem_putKeys (s : State) (unit p : Nat) (kb : List (Nat × Byte)) :
    (s.putKeys unit p kb).mem = kb.foldl (fun m e => memPut m e.1 e.2) s.mem := by
  unfold State.putKeys
  dsimp only
  refine (foldl_keeps State.mem (fun s gk => ?_) _ _).trans (by rw [(s.onlyRead_dropPriv _).mem])
  split
  · split
    · rfl
    · exact s.mem_narrowWrite _ _ _
  · rfl

/-- An update of a page-map entry writes that entry alone. -/
theorem State.rdByte_pmUpdate_other (s : State) (v : Nat) (f : Nat → Nat) (a : Nat) (out : a < 8 * v ∨ 8 * v + 8 ≤ a) :
    (s.pmUpdate v f).rdByte a = s.rdByte a :=
  s.rdByte_wrBytes_other (8 * v) _ a (by rwa [length_natLe])

/-- A store writes no byte above the pages but in the page-map entries of the pages it touches. -/
theorem State.rdByte_storePlain_above (s : State) (cache unit p addr : Nat) (b : Bytes) (a : Nat) (above : 2 ^ 48 ≤ a)
    (entries : ∀ v, v ∈ pagesOf addr b.length → 8 * v + 8 ≤ a) : (s.storePlain cache unit p addr b).rdByte a = s.rdByte a := by
  unfold State.storePlain State.storeBytes
  dsimp only
  have stored : ((s.traffic cache unit addr b.length true).putKeys unit p ((List.range b.length).map
      (fun k => ((s.traffic cache unit addr b.length true).keyOf cache (addr + k), b.getD k 0)))).rdByte a = s.rdByte a := by
    unfold State.rdByte
    rw [State.mem_putKeys, memGet_foldl_memPut_other, (s.onlyRead_traffic _ _ _ _ _).mem]
    intro x mem
    obtain ⟨k, -, rfl⟩ := List.mem_map.mp mem
    have below := pageKey_lt ((s.traffic cache unit addr b.length true).pmLookup cache ((addr + k) / 65536)).1 ((addr + k) % 65536)
      (Nat.mod_lt _ (by decide))
    exact Nat.ne_of_gt (Nat.lt_of_lt_of_le below above)
  refine List.foldlRecOn _ _ (motive := fun r : State => r.rdByte a = s.rdByte a) stored (fun r same v mem => ?_)
  split
  · exact (r.rdByte_pmUpdate_other v _ a (Or.inr (entries v mem))).trans same
  · exact same

/-- Key of the next record in the cut log of partition `p` (R213). -/
def State.cutLog (s : State) (p : Nat) : Nat := s.rd F.PGM_RESERVE_BASE_FRAME p * 65536 + 16 * s.rd F.PGM_CUT_COPIES p

/-- The record of a page copy in the cut log begins with its VPN (R213). -/
theorem State.rdByte_cutRecord (s : State) (log v frame time : Nat) (w : Memory.wf s.mem = true) :
    (((s.wrNat log 4 v).wrNat (log + 4) 4 frame).wrNat (log + 8) 8 time).rdByte log = BitVec.ofNat 8 v := by
  refine (State.rdByte_wrBytes_other _ (log + 8) _ log (Or.inl (by omega))).trans ?_
  refine (State.rdByte_wrBytes_other _ (log + 4) _ log (Or.inl (by omega))).trans ?_
  exact memGet_memPutAll_first log (BitVec.ofNat 8 v) _ w

theorem State.rdByte_inc (s : State) (f : Fld) (i j n a : Nat) : (s.inc f i j n).rdByte a = s.rdByte a := rfl

/-- A page copy puts the page's bytes in memory, then writes its record and then updates the page-map entry. -/
theorem State.cowCopy_eq (s : State) (v p frame : Nat) : ∃ (l : List (Nat × Byte)) (s₁ : State) (f : Nat → Nat),
    s₁.mem = l.foldl (fun m x => memPut m x.1 x.2) s.mem ∧
    s.cowCopy v p frame = ((((s₁.wrNat (s.cutLog p) 4 v).wrNat (s.cutLog p + 4) 4 frame).wrNat (s.cutLog p + 8) 8 s₁.now).pmUpdate v f).inc
      F.PGM_CUT_COPIES p := by
  unfold State.cowCopy
  extract_lets e data bad log s₁ m s₂ s₃ s₄
  have fetched : s₁.mem = s.mem := ((s.onlyRead_fetchPriv _).trans (State.onlyRead_dropPriv _ _)).mem
  have charged : s₃.mem = s₂.mem := ((s₂.onlyRead_regCharge _ _ _ _ _).trans (State.onlyRead_regCharge _ _ _ _ _ _)).mem
  clear_value data bad s₁
  refine ⟨data, s₃, _, charged.trans ?_, rfl⟩
  rw [← fetched]

/-- A page copy writes its VPN as the first bytes of the next record of the cut log. -/
theorem State.rdByte_cowCopy_cutLog (s : State) (v p frame : Nat) (w : Memory.wf s.mem = true) (out : 8 * v + 8 ≤ s.cutLog p) :
    (s.cowCopy v p frame).rdByte (s.cutLog p) = BitVec.ofNat 8 v := by
  obtain ⟨l, s₁, f, copied, eq⟩ := s.cowCopy_eq v p frame
  have kept : Memory.wf s₁.mem = true := copied ▸ wf_foldl_memPut l w
  rw [eq, State.rdByte_inc, State.rdByte_pmUpdate_other _ v f _ (Or.inr out), State.rdByte_cutRecord _ _ _ _ _ kept]

/-- The state once the held writes have been taken up. -/
def State.holdsTaken (s : State) : State := { s with memx := { s.memx with cowHolds := [] } }

/-- The only held write is performed once its pages wait no longer. -/
theorem State.releaseHolds_one (s : State) (h : CowHold) (held : s.memx.cowHolds = [h]) (copies : s.holdsTaken.memx.cowCopies = [])
    (ready : s.holdsTaken.writeWaits h.addr h.bytes.length = false) : s.releaseHolds = s.holdsTaken.perform h := by
  unfold State.releaseHolds
  rw [held, List.foldl_cons, List.foldl_nil]
  refine if_neg ?_
  change ¬ (((pagesOf h.addr h.bytes.length).any (fun v => s.holdsTaken.memx.cowCopies.any (fun c => c.vpn = v))
    || s.holdsTaken.writeWaits h.addr h.bytes.length) = true)
  rw [copies, ready]
  simp

/-- A write to one page on which a cut is in force leaves the copy's record in the cut log, where that lies above the pages. -/
theorem State.rdByte_perform_cutLog (s : State) (h : CowHold) (v p frame : Nat) (w : Memory.wf s.mem = true)
    (page : pagesOf h.addr h.bytes.length = [v]) (owner : pmOwner (s.pmEntry v) = p) (inForce : s.cowInForce (s.pmEntry v) = true)
    (free : s.nextCopyFrame p = some frame) (low : 8 * v + 8 ≤ 2 ^ 48) (above : 2 ^ 48 ≤ s.cutLog p) :
    (s.perform h).rdByte (s.cutLog p) = BitVec.ofNat 8 v := by
  have copied : s.cowNow v = s.cowCopy v p frame := by
    unfold State.cowNow
    simp only [inForce, if_true, owner, free]
  have entries : ∀ x, x ∈ pagesOf h.addr h.bytes.length → 8 * x + 8 ≤ s.cutLog p := by
    rw [page]
    intro x mem
    rw [List.mem_singleton.mp mem]
    exact low.trans above
  unfold State.perform
  rw [State.rdByte_storePlain_above _ _ _ _ _ _ _ above entries, page, List.foldl_cons, List.foldl_nil, copied]
  exact s.rdByte_cowCopy_cutLog v p frame w (low.trans above)

/-! ### What a reset leaves of memory once the cut has stopped (R438, R459) -/

/-- The state in which a reset lets the writes held for an arming go. -/
def State.disarmed (s : State) (p : Nat) : State :=
  let s : State := { s with memx := { s.memx with tcache := s.memx.tcache.filter (fun e => pmOwner e.2.2 ≠ p) } }
  let s := s.setSnap p { s.snap p with heldAdv := [] }
  s.setSnap p { s.snap p with arming := false, heldAdv := [] }

theorem State.snap_setSnap_same (s : State) (p : Nat) (x : SnapSt) : (s.setSnap p x).snap p = x := by
  simp [State.snap, State.setSnap, agetD, aget_aset_same]

/-- Where no advance was held, the end of an arming lets the held writes go. -/
theorem State.armRelease_eq (s : State) (p : Nat) (idle : (s.snap p).heldAdv = []) :
    s.armRelease p = (s.setSnap p { s.snap p with arming := false, heldAdv := [] }).releaseHolds := by
  unfold State.armRelease
  dsimp only
  rw [idle]
  split <;> rfl

/-- Of a cut being armed, the stop lets the held writes go and changes no memory besides. -/
theorem State.mem_stopCut_arming (s : State) (p : Nat) (arming : (s.snap p).arming = true) :
    (s.stopCut p).mem = (s.disarmed p).releaseHolds.mem := by
  unfold State.stopCut
  extract_lets _ s₁ arms x s₂ s₃
  have armed : arms = true := arming
  have released : s₃ = (s.disarmed p).releaseHolds :=
    (if_pos armed).trans (s₂.armRelease_eq p (congrArg SnapSt.heldAdv (s₁.snap_setSnap_same p _)))
  rw [if_pos (by rw [armed]; rfl), ← released]
  rfl

theorem State.mem_resetCtx (s : State) (g c gen cqTail : Nat) (armed : Bool) (x : CtxSt) :
    (s.resetCtx g c gen cqTail armed x).mem = s.mem := rfl

theorem State.mem_resetBegin (s : State) (p : Nat) :
    (s.resetBegin p).mem = (((((s.advanceTag p).stopUnits p).stopCoreAccesses p).zeroAccs p).stopCut p).mem := by
  unfold State.resetBegin
  extract_lets gs copies gens closed s₁ s₂ s₃ s₄ s₅
  have coded : s₃.mem = s₂.mem := foldl_keeps State.mem (fun s x => s.wr_mem _ _ _ _) copies s₂
  have closed' : s₄.mem = s₃.mem := foldl_keeps State.mem (fun s x => s.wr_mem _ _ _ _) closed s₃
  exact (foldl_keeps State.mem (fun s x => s.mem_resetCtx _ _ _ _ _ _) gens s₅).trans (closed'.trans coded)

/-! ### The state that refutes O57 -/

/-- A write of one byte to VPN 1 that waits for the arming of a cut. -/
def writeHeld : CowHold := { p := 0, unit := 0x10, addr := 65536, bytes := [1] }

/-- Partition 0 on group 0, frozen with its reset due while a cut is being armed. VPN 1 is a SNAP page of the cut in force, frame 8200, and
PGM_RESERVE.BASE_FRAME holds a number beyond its 24 bits, by which the cut log begins where accumulator memory does. -/
def reserveBeyondDram : State :=
  { img := { act := some { parseImage [] with parts := [{ p := 0, agSet := 1, cores := 0 }] } }
    regs := [(fkey F.HNG_STATUS_STATE 0, 1), (fkey F.PGM_CUT_ACTIVE 0, 1), (fkey F.PGM_RESERVE_BASE_FRAME 0, 2 ^ 32),
      (fkey F.PGM_RESERVE_FRAMES 0, 2)]
    snp := [(0, { arming := true })]
    mem := [(8, 0x08), (9, 0x20), (14, 0x59), (15, 0x80)]
    memx := { cowHolds := [writeHeld] } }

/-- That state when its accumulators have been zeroed. -/
def reserveZeroed : State := ((((reserveBeyondDram.tick 0).advanceTag 0).stopUnits 0).stopCoreAccesses 0).zeroAccs 0

/-- That state when the held write is about to be performed. -/
def reserveReleasing : State := (reserveZeroed.disarmed 0).holdsTaken

theorem cutLog_reserveReleasing : reserveReleasing.cutLog 0 = accKey 0 0 := by decide +kernel

theorem releaseHolds_reserveZeroed : (reserveZeroed.disarmed 0).releaseHolds = reserveReleasing.perform writeHeld :=
  State.releaseHolds_one _ writeHeld (by decide +kernel) (by decide +kernel) (by decide +kernel)

/-- The page copy writes its record into the accumulator memory that the reset has zeroed. -/
theorem rdByte_resetBegin_reserveBeyondDram : ((reserveBeyondDram.tick 0).resetBegin 0).rdByte (accKey 0 0) = 1 := by
  have arming : (reserveZeroed.snap 0).arming = true := by decide +kernel
  have record : (reserveReleasing.perform writeHeld).rdByte (reserveReleasing.cutLog 0) = BitVec.ofNat 8 1 :=
    State.rdByte_perform_cutLog reserveReleasing writeHeld 1 0 (2 ^ 32 + 1) (by decide +kernel) (by decide +kernel) (by decide +kernel)
      (by decide +kernel) (by decide +kernel) (by decide) (by rw [cutLog_reserveReleasing]; decide)
  have mem : ((reserveBeyondDram.tick 0).resetBegin 0).mem = (reserveReleasing.perform writeHeld).mem :=
    calc ((reserveBeyondDram.tick 0).resetBegin 0).mem = (reserveZeroed.stopCut 0).mem := State.mem_resetBegin _ 0
      _ = (reserveZeroed.disarmed 0).releaseHolds.mem := reserveZeroed.mem_stopCut_arming 0 arming
      _ = (reserveReleasing.perform writeHeld).mem := congrArg State.mem releaseHolds_reserveZeroed
  rw [← cutLog_reserveReleasing, State.rdByte, mem]
  exact record

/-- Refutes O57: PGM_RESERVE.BASE_FRAME beyond its 24 bits puts the cut log where accumulator memory begins, and a write held for an arming
that the reset ends makes its page copy, with its record, after the accumulators are zeroed (R102, R212, R213). The clause on the reset takes
every state: no hypothesis of it keeps a field to its width. -/
theorem not_hangsDumpsAndResets : ¬ Obligations.HangsDumpsAndResets := by
  unfold Obligations.HangsDumpsAndResets
  rintro ⟨-, -, -, -, -, -, -, -, -, -, reset, -⟩
  obtain ⟨s', begun, -, -, -, -, -, -, -, -, zeroed⟩ :=
    reset reserveBeyondDram 0 0 (by decide) (by decide +kernel) (by decide +kernel) (by decide +kernel)
  have due : exec (.partitionResetBegin 0 0) reserveBeyondDram = .next ((reserveBeyondDram.tick 0).resetBegin 0) :=
    congrArg Host.Outcome.next (if_pos (by decide +kernel))
  obtain rfl : (reserveBeyondDram.tick 0).resetBegin 0 = s' := Host.Outcome.next.inj (due.symm.trans begun)
  have zero := zeroed 0 (accKey 0 0) (by decide +kernel) (Nat.le_refl _) (by decide)
  rw [rdByte_resetBegin_reserveBeyondDram] at zero
  exact absurd zero (by decide)

end Sys2Proof.Machine
end

section
/-!
PROOFS of the statements of spec/03: what a store to device memory leaves, what an advance leaves of the steps, custom formats and advances
(O36).
-/

namespace Sys2Proof.Machine

/-! ### What stores leave (R205, R212 to R214, R219) -/

/-- The registers in which a store to device memory leaves a trace: those of a read, the first uncorrected event, and the cut whose pages
it copies. -/
def storeTraces : List Reg := .MEM_ECC_FIRST :: .PGM_CUT :: .SNP_STATUS :: readTraces

/-- The second state differs from the first by what stores leave: memory, what reads leave, and the drains of cuts that page copies end. -/
structure onlyStored (s s' : State) : Prop where
  parts : s' = { s with regs := s'.regs, mem := s'.mem, memx := s'.memx, fc := s'.fc, freeCtr := s'.freeCtr, snp := s'.snp }
  regs : sameRegsBut storeTraces s s'
  snap : ∀ q, s'.snap q = { s.snap q with drains := (s'.snap q).drains }

theorem onlyStored_refl (s : State) : onlyStored s s := ⟨rfl, fun _ _ _ _ => rfl, fun _ => rfl⟩

theorem onlyStored.trans {a b c : State} (h : onlyStored a b) (h' : onlyStored b c) : onlyStored a c := by
  refine ⟨?_, fun f i j out => (h'.regs f i j out).trans (h.regs f i j out), fun q => ?_⟩
  · rw [h'.parts, h.parts]
  · rw [h'.snap q, h.snap q]

theorem onlyStored_foldl {α : Type} {step : State → α → State} (h : ∀ s x, onlyStored s (step s x)) (l : List α) (s : State) :
    onlyStored s (l.foldl step s) := foldl_related onlyStored onlyStored_refl (fun _ _ _ => onlyStored.trans) h l s

theorem State.snap_congr {s s' : State} (h : s'.snp = s.snp) (q : Nat) : s'.snap q = s.snap q :=
  congrArg (fun m : List (Nat × SnapSt) => agetD m q {}) h

theorem onlyRead.onlyStored {s s' : State} (h : onlyRead s s') : onlyStored s s' := by
  have snp : s'.snp = s.snp := by rw [h.1]
  have sub : readTraces ⊆ storeTraces := by decide
  refine ⟨?_, fun f i j out => h.2 f i j (fun mem => out (sub mem)), fun q => ?_⟩
  · rw [h.1]
  · rw [State.snap_congr snp q]

theorem onlyStored_mem (s : State) (m : List Host.Cell) (x : MemSt) : onlyStored s { s with mem := m, memx := x } :=
  ⟨rfl, fun _ _ _ _ => rfl, fun _ => rfl⟩

theorem onlyStored.wr {a b : State} (h : onlyStored a b) (f : Fld) (v i j : Nat) (mem : f.reg ∈ storeTraces := by decide) :
    onlyStored a (b.wr f v i j) :=
  h.trans ⟨rfl, fun g i' j' out => b.rd_wr_reg f g v i j i' j' (fun e => out (e ▸ mem)), fun _ => rfl⟩

theorem State.snap_setSnap_other (s : State) (p q : Nat) (x : SnapSt) (h : q ≠ p) : (s.setSnap p x).snap q = s.snap q := by
  simp [State.snap, State.setSnap, agetD, aget_aset_other _ _ _ _ h]

theorem State.onlyStored_setDrains (s : State) (p : Nat) (l : List MirrorDrain) : onlyStored s (s.setSnap p { s.snap p with drains := l }) := by
  refine ⟨rfl, fun _ _ _ _ => rfl, fun q => ?_⟩
  by_cases h : q = p
  · subst h; rw [s.snap_setSnap_same]
  · rw [s.snap_setSnap_other p q _ h]

theorem State.onlyStored_eccFirst (s : State) (stack kind chan lane ca : Nat) : onlyStored s (s.eccFirst stack kind chan lane ca) := by
  unfold State.eccFirst
  split
  · exact onlyStored_refl s
  · exact (((((onlyStored_refl s).wr F.MEM_ECC_FIRST_VALID _ _ _).wr F.MEM_ECC_FIRST_KIND _ _ _).wr F.MEM_ECC_FIRST_CHANNEL _ _ _).wr
      F.MEM_ECC_FIRST_LANE _ _ _).wr F.MEM_ECC_FIRST_BURST _ _ _

theorem State.onlyStored_narrowWrite (s : State) (gk unit p : Nat) : onlyStored s (s.narrowWrite gk unit p) := by
  unfold State.narrowWrite
  split
  · split
    · exact onlyStored_refl s
    · exact (s.onlyRead_raise _).onlyStored.trans (State.onlyStored_eccFirst _ _ _ _ _ _)
  · exact (s.onlyRead_raise _).onlyStored

theorem State.onlyStored_wrBytes (s : State) (a : Nat) (b : Bytes) : onlyStored s (s.wrBytes a b) := onlyStored_mem s _ s.memx

theorem State.onlyStored_pmUpdate (s : State) (v : Nat) (f : Nat → Nat) : onlyStored s (s.pmUpdate v f) := onlyStored_mem s _ _

theorem State.onlyStored_putKeys (s : State) (unit p : Nat) (kb : List (Nat × Byte)) : onlyStored s (s.putKeys unit p kb) := by
  unfold State.putKeys
  refine ((s.onlyRead_dropPriv _).onlyStored.trans (onlyStored_mem _ _ _)).trans (onlyStored_foldl (fun s gk => ?_) _ _)
  split
  · split
    · exact onlyStored_mem s s.mem _
    · exact s.onlyStored_narrowWrite _ _ _
  · exact onlyStored_refl s

theorem State.onlyStored_storePlain (s : State) (cache unit p addr : Nat) (b : Bytes) : onlyStored s (s.storePlain cache unit p addr b) := by
  unfold State.storePlain State.storeBytes
  refine (s.onlyRead_traffic _ _ _ _ _).onlyStored.trans ((State.onlyStored_putKeys _ _ _ _).trans (onlyStored_foldl (fun s v => ?_) _ _))
  split
  · exact s.onlyStored_pmUpdate _ _
  · exact onlyStored_refl s

/-! ### Page copies, the cuts they end and the writes they held (R212 to R214, R429) -/

theorem State.onlyStored_cowCopy (s : State) (v p frame : Nat) : onlyStored s (s.cowCopy v p frame) := by
  unfold State.cowCopy
  extract_lets _ _ _ log s₁ _ s₂ s₃ s₄
  have fetched : onlyStored s s₁ := ((s.onlyRead_fetchPriv _).trans (State.onlyRead_dropPriv _ _)).onlyStored
  have copied : onlyStored s₁ s₂ := onlyStored_mem _ _ _
  have charged : onlyStored s₂ s₃ := ((s₂.onlyRead_regCharge _ _ _ _ _).trans (State.onlyRead_regCharge _ _ _ _ _ _)).onlyStored
  have logged : onlyStored s₃ s₄ :=
    ((s₃.onlyStored_wrBytes log _).trans (State.onlyStored_wrBytes _ (log + 4) _)).trans (State.onlyStored_wrBytes _ (log + 8) _)
  exact ((((fetched.trans copied).trans charged).trans logged).trans (s₄.onlyStored_pmUpdate v _)).wr F.PGM_CUT_COPIES _ p 0

theorem State.onlyStored_cutEnd (s : State) (p code : Nat) : onlyStored s (s.cutEnd p code) :=
  ((((onlyStored_refl s).wr F.PGM_CUT_ACTIVE 0 p 0).wr F.SNP_STATUS_LAST_CODE code p 0).wr F.SNP_STATUS_STATE 0 p 0).trans
    (State.onlyStored_setDrains _ p [])

theorem State.onlyStored_cutAbort (s : State) (p : Nat) : onlyStored s (s.cutAbort p) :=
  (((onlyStored_refl s).wr F.PGM_CUT_ABORTED 1 p 0).trans (State.onlyRead_raise _ _).onlyStored).trans (State.onlyStored_cutEnd _ p _)

theorem State.onlyStored_cowNow (s : State) (v : Nat) : onlyStored s (s.cowNow v) := by
  unfold State.cowNow
  dsimp only
  split
  · split
    · exact s.onlyStored_cowCopy _ _ _
    · exact s.onlyStored_cutAbort _
  · exact onlyStored_refl s

theorem State.onlyStored_copiedStore (s : State) (pages : List Nat) (cache unit p addr : Nat) (b : Bytes) :
    onlyStored s ((pages.foldl State.cowNow s).storePlain cache unit p addr b) :=
  (onlyStored_foldl State.onlyStored_cowNow pages s).trans (State.onlyStored_storePlain _ _ _ _ _ _)

theorem State.onlyStored_releaseHolds (s : State) : onlyStored s s.releaseHolds := by
  unfold State.releaseHolds
  refine (onlyStored_mem s _ _).trans (onlyStored_foldl (fun s h => ?_) _ _)
  split
  · exact onlyStored_mem s _ _
  · exact s.onlyStored_copiedStore _ _ _ _ _ _

theorem State.onlyStored_finishCopy (s : State) (v : Nat) : onlyStored s (s.finishCopy v) := by
  unfold State.finishCopy
  split
  · exact onlyStored_refl s
  · exact ((onlyStored_mem s _ _).trans (State.onlyStored_cowCopy _ _ _ _)).trans (State.onlyStored_releaseHolds _)

/-- A write to device memory leaves what stores leave, whether it fails its checks, waits or is performed. -/
theorem State.onlyStored_devWrite (s : State) (cache unit p addr : Nat) (b : Bytes) (mirror : Bool) (who : Option Fn) :
    onlyStored s (s.devWrite cache unit p addr b mirror who).2 := by
  have checked := (s.onlyRead_checkAccess cache unit p addr b.length true mirror 0).onlyStored
  unfold State.devWrite
  split
  · next e => rwa [e] at checked
  · next s₀ e =>
    rw [e] at checked
    have finished := checked.trans (onlyStored_foldl State.onlyStored_finishCopy (pagesOf addr b.length) s₀)
    dsimp only
    split
    · exact finished.trans (onlyStored_mem _ _ _)
    · exact finished.trans (State.onlyStored_copiedStore _ _ _ _ _ _ _)

/-! ### What the numerics table and the guarantees leave of the steps (R186, R187) -/

/-- The time, the advances, the steps reached, the holds armed and the time of each partition's last advance are as before. -/
structure keepsSteps (s s' : State) : Prop where
  now : s'.now = s.now
  advances : s'.advances = s.advances
  curSteps : s'.curSteps = s.curSteps
  holdArmed : s'.host.holdArmed = s.host.holdArmed
  lastAdvance : ∀ q, (s'.snap q).lastAdvance = (s.snap q).lastAdvance
  advanceReg : ∀ (f : Fld) (i j : Nat), f.reg = .AG_NUM_ADVANCE → s'.rd f i j = s.rd f i j

theorem keepsSteps_refl (s : State) : keepsSteps s s := ⟨rfl, rfl, rfl, rfl, fun _ => rfl, fun _ _ _ _ => rfl⟩

theorem keepsSteps.trans {a b c : State} (h : keepsSteps a b) (h' : keepsSteps b c) : keepsSteps a c :=
  ⟨h'.now.trans h.now, h'.advances.trans h.advances, h'.curSteps.trans h.curSteps, h'.holdArmed.trans h.holdArmed,
    fun q => (h'.lastAdvance q).trans (h.lastAdvance q), fun f i j adv => (h'.advanceReg f i j adv).trans (h.advanceReg f i j adv)⟩

/-- A fold that carries a state beside what it collects keeps the steps where each of its steps does. -/
theorem keepsSteps_foldl_carried {α β : Type} (st : β → State) {step : β → α → β} (h : ∀ b x, keepsSteps (st b) (st (step b x)))
    (l : List α) (b : β) : keepsSteps (st b) (st (l.foldl step b)) :=
  foldl_steps (fun a b => keepsSteps (st a) (st b)) (fun _ => keepsSteps_refl _) (fun _ _ _ => keepsSteps.trans) h l b

theorem keepsSteps_foldl {α : Type} {step : State → α → State} (h : ∀ s x, keepsSteps s (step s x)) (l : List α) (s : State) :
    keepsSteps s (l.foldl step s) := keepsSteps_foldl_carried id h l s

/-- The same where only what the list holds is known to keep them. -/
theorem keepsSteps_foldl_of_forall {α : Type} (P : α → Prop) {step : State → α → State} (h : ∀ s x, P x → keepsSteps s (step s x))
    {l : List α} (all : ∀ x ∈ l, P x) (s : State) : keepsSteps s (l.foldl step s) := by
  induction l generalizing s with
  | nil => exact keepsSteps_refl s
  | cons x l ih =>
    rw [List.forall_mem_cons] at all
    exact (h s x all.1).trans (ih all.2 _)

theorem keepsSteps.wr {a b : State} (h : keepsSteps a b) (f : Fld) (v i j : Nat) (other : f.reg ≠ .AG_NUM_ADVANCE := by decide) :
    keepsSteps a (b.wr f v i j) :=
  h.trans ⟨rfl, rfl, rfl, rfl, fun _ => rfl, fun g i' j' adv => b.rd_wr_reg f g v i j i' j' (fun e => other (e.symm.trans adv))⟩

theorem onlyStored.keepsSteps {s s' : State} (h : onlyStored s s') : keepsSteps s s' where
  now := by rw [h.parts]
  advances := by rw [h.parts]
  curSteps := by rw [h.parts]
  holdArmed := by rw [h.parts]
  lastAdvance q := by rw [h.snap q]
  advanceReg f i j adv := h.regs f i j (by rw [adv]; decide)

theorem onlyVecs.keepsSteps {s s' : State} (h : onlyVecs s s') : keepsSteps s s' := by
  obtain ⟨_, _, _, rfl⟩ := h
  exact ⟨rfl, rfl, rfl, rfl, fun _ => rfl, fun _ _ _ _ => rfl⟩

theorem State.keepsSteps_raise (s : State) (r : Report) : keepsSteps s (s.raise r) := (s.onlyRead_raise r).onlyStored.keepsSteps

theorem State.keepsSteps_coreVec (s : State) (n v : Nat) : keepsSteps s (s.coreVec n v) :=
  ⟨rfl, rfl, rfl, rfl, fun _ => rfl, fun _ _ _ _ => rfl⟩

theorem State.keepsSteps_settle (s : State) (p : Nat) : keepsSteps s (s.settle p) :=
  ⟨rfl, rfl, rfl, rfl, fun _ => rfl, fun _ _ _ _ => rfl⟩

theorem State.keepsSteps_setSnap (s : State) (p : Nat) (x : SnapSt) (h : x.lastAdvance = (s.snap p).lastAdvance) :
    keepsSteps s (s.setSnap p x) := by
  refine ⟨rfl, rfl, rfl, rfl, fun q => ?_, fun _ _ _ _ => rfl⟩
  by_cases same : q = p
  · subst same; rw [s.snap_setSnap_same, h]
  · rw [s.snap_setSnap_other p q _ same]

theorem State.keepsSteps_tabRead (s : State) (g p off n : Nat) : keepsSteps s (s.tabRead g p off n).2 := by
  have looked := s.onlyRead_pmLookup (dieOf g) ((s.numBase g + off) / 65536)
  have got := State.onlyRead_devRead (s.pmLookup (dieOf g) ((s.numBase g + off) / 65536)).2 (dieOf g) g p (s.numBase g + off) n
  unfold State.tabRead
  dsimp only
  split
  · exact looked.onlyStored.keepsSteps
  · split
    · next e => rw [e] at got; exact (looked.trans got).onlyStored.keepsSteps
    · next e => rw [e] at got; exact (looked.trans got).onlyStored.keepsSteps

theorem State.keepsSteps_of_tabRead {s s' : State} {g p off n : Nat} {r : Option (Option Bytes)} (h : s.tabRead g p off n = (r, s')) :
    keepsSteps s s' := by
  have kept := s.keepsSteps_tabRead g p off n
  rwa [h] at kept

theorem State.keepsSteps_tabWrite (s : State) (g p off : Nat) (b : Bytes) : keepsSteps s (s.tabWrite g p off b) :=
  (s.onlyStored_devWrite _ _ _ _ _ _ _).keepsSteps

theorem State.keepsSteps_numInterrupt (s : State) (p : Nat) : keepsSteps s (s.numInterrupt p) :=
  ((s.onlyVecs_vec _ _).keepsSteps.trans (State.onlyVecs_vec _ _ _).keepsSteps).trans
    (keepsSteps_foldl (fun s n => s.keepsSteps_coreVec n 1) _ _)

theorem State.keepsSteps_numAlert (s : State) (p : Nat) (f : Fld) (other : f.reg ≠ .AG_NUM_ADVANCE) : keepsSteps s (s.numAlert p f) := by
  unfold State.numAlert
  split
  · exact keepsSteps_refl s
  · split
    · exact keepsSteps_refl s
    · exact ((keepsSteps_refl s).wr f 1 _ 0 other).trans (State.keepsSteps_numInterrupt _ p)

theorem State.keepsSteps_watchAlert (s : State) (p l : Nat) (f : Fld) (other : f.reg ≠ .AG_NUM_ADVANCE) :
    keepsSteps s (s.watchAlert p l f) := by
  unfold State.watchAlert
  split
  · exact keepsSteps_refl s
  · refine keepsSteps.trans ?_ (State.keepsSteps_numAlert _ p f other)
    split
    · exact keepsSteps_refl s
    · exact (keepsSteps_refl s).wr F.AG_NUM_ALERT_FIRST_LAYER l _ 0

theorem State.keepsSteps_watchAlert_ite (s : State) (c : Bool) (p l : Nat) (f : Fld) (other : f.reg ≠ .AG_NUM_ADVANCE) :
    keepsSteps s (if c then s.watchAlert p l f else s) := by
  split
  · exact s.keepsSteps_watchAlert p l f other
  · exact keepsSteps_refl s

theorem State.keepsSteps_watchFinish (s : State) (g p cur l : Nat) : keepsSteps s (s.watchFinish g p cur l) := by
  unfold State.watchFinish
  split
  · next e s₀ read =>
    have kept := State.keepsSteps_of_tabRead read
    extract_lets _ _ _ _ hi lo _ _ _ s₁ s₂
    split
    · have stored : keepsSteps s₀ s₁ := s₀.keepsSteps_tabWrite _ _ _ _
      have high : keepsSteps s₁ s₂ := s₁.keepsSteps_watchAlert_ite hi p l _ (by decide)
      exact ((kept.trans stored).trans high).trans (s₂.keepsSteps_watchAlert_ite lo p l _ (by decide))
    · exact kept
  · next read => exact State.keepsSteps_of_tabRead read

/-- One tensor entry of an advance; `r` carries the step of the first registered tensor. -/
def State.tensorAdvanced (g p step : Nat) (r : Option Nat × State) (x : Nat) : Option Nat × State :=
  match r.2.tabRead g p (0x800 + 256 * x) 256 with
  | (some (some e), s) =>
    if entState e = 1 ∨ entState e = 2 then
      (some (r.1.getD (leAt e 8 4)), s.tabWrite g p (0x800 + 256 * x) (s.advanceEntry g step e))
    else (r.1, s)
  | (_, s) => (r.1, s)

theorem keepsSteps.beside {a b : State} (h : keepsSteps a b) (o : Option Nat) : keepsSteps a (o, b).2 := h

theorem State.keepsSteps_tensorAdvanced (g p step : Nat) (r : Option Nat × State) (x : Nat) :
    keepsSteps r.2 (State.tensorAdvanced g p step r x).2 := by
  unfold State.tensorAdvanced
  split
  · next read =>
    have kept := State.keepsSteps_of_tabRead read
    split
    · exact (kept.trans (State.keepsSteps_tabWrite _ _ _ _ _)).beside _
    · exact kept
  · next read => exact State.keepsSteps_of_tabRead read

theorem State.advanceTable_eq (s : State) (g p cur step : Nat) : s.advanceTable g p cur step =
    (List.range 1024).foldl (fun a l => a.watchFinish g p
      (((List.range 4096).foldl (State.tensorAdvanced g p step) (none, s)).1.getD cur) l)
      ((List.range 4096).foldl (State.tensorAdvanced g p step) (none, s)).2 := rfl

/-- The advance of every tensor and watch entry moves no step of its own. -/
theorem State.keepsSteps_advanceTable (s : State) (g p cur step : Nat) : keepsSteps s (s.advanceTable g p cur step) := by
  rw [State.advanceTable_eq]
  exact (keepsSteps_foldl_carried Prod.snd (State.keepsSteps_tensorAdvanced g p step) (List.range 4096) (none, s)).trans
    (keepsSteps_foldl (fun s l => s.keepsSteps_watchFinish g p _ l) _ _)

/-! ### What a step boundary leaves (R15, R321, R428, R430, R434) -/

theorem State.keepsSteps_lapse (s : State) (mask : Nat) : keepsSteps s (s.lapse mask) := by
  refine keepsSteps_foldl_of_forall (fun e : Nat × Fld × Fld => e.2.1.reg ≠ .AG_NUM_ADVANCE ∧ e.2.2.reg ≠ .AG_NUM_ADVANCE)
    (fun s e out => ?_) (by decide) s
  split
  · exact (((keepsSteps_refl s).wr e.2.1 0 0 0 out.1).wr e.2.2 1 0 0 out.2).trans (State.onlyVecs_vec _ _ _).keepsSteps
  · exact keepsSteps_refl s

theorem State.keepsSteps_lapseFailed (s : State) : keepsSteps s s.lapseFailed := by
  unfold State.lapseFailed
  refine keepsSteps_foldl (fun s e => ?_) _ s
  split
  · exact (s.keepsSteps_lapse _).trans (State.keepsSteps_raise _ _)
  · exact keepsSteps_refl s

theorem State.keepsSteps_judgeGuarantees (s : State) : keepsSteps s s.judgeGuarantees := by
  refine s.keepsSteps_lapseFailed.trans (keepsSteps_foldl_of_forall (fun e : Nat × Fld => e.2.reg ≠ .AG_NUM_ADVANCE)
    (fun s e out => ?_) (by decide) _)
  split
  · exact (keepsSteps_refl s).wr e.2 1 0 0 out
  · exact keepsSteps_refl s

theorem State.keepsSteps_judgeRecovery (s : State) (p : Nat) : keepsSteps s (s.judgeRecovery p) := by
  unfold State.judgeRecovery State.recoveryLost
  split
  · exact (keepsSteps_refl s).wr F.SNP_STATUS_RECOVERY 1 p 0
  · have lost := (keepsSteps_refl s).wr F.SNP_STATUS_RECOVERY 0 p 0
    dsimp only
    split
    · exact (lost.trans (State.keepsSteps_lapse _ 4)).trans (State.keepsSteps_raise _ _)
    · exact lost

theorem State.keepsSteps_maxTrigger (s : State) (p step : Nat) : keepsSteps s (s.maxTrigger p step) := by
  unfold State.maxTrigger
  extract_lets n raisedNow s₁
  have pending : keepsSteps s s₁ := by
    show keepsSteps s (if _ then _ else s)
    split
    · exact ((keepsSteps_refl s).wr F.SNP_STATUS_PENDING _ p 0).trans (State.keepsSteps_setSnap _ p _ rfl)
    · exact keepsSteps_refl s
  split
  · exact keepsSteps_refl s
  · split
    · split
      · exact (pending.wr F.SNP_STATUS_OVERDUE 1 p 0).trans (State.keepsSteps_raise _ _)
      · exact pending
    · exact pending

/-- A step boundary up to its holds: the time of the advance, the triggers of cuts, the recovery budget and the guarantees. -/
def State.judged (s : State) (p step : Nat) : State :=
  let x := s.snap p
  let s := s.setSnap p { x with tStep := if x.lastAdvance = 0 then 0 else s.now - x.lastAdvance, lastAdvance := s.now }
  let s := s.maxTrigger p step
  (if s.cuts p then s.judgeRecovery p else s).judgeGuarantees

/-- A hold armed for the step takes effect (R321). -/
def State.takeHold (s : State) (p : Nat) : State :=
  if p ∈ s.host.holdArmed then
    ({ s with host := { s.host with holdArmed := s.host.holdArmed.filter (fun q => q ≠ p) } } : State).wrBit F.MGT_HOST_HELD p true
  else s

/-- The arming window of a cut opens where one follows the step (R428). -/
def State.openWindow (s : State) (p step : Nat) : State :=
  if s.window p step then (s.setSnap p { s.snap p with arming := true }).wr F.SNP_STATUS_STATE 1 p else s

theorem State.stepBoundary_eq (s : State) (p step : Nat) : s.stepBoundary p step = ((s.judged p step).takeHold p).openWindow p step := rfl

/-- Of the steps, a boundary's judgements change the time of the partition's last advance alone. -/
theorem State.keepsSteps_judged (s : State) (p step : Nat) :
    ∃ x : SnapSt, x.lastAdvance = s.now ∧ keepsSteps (s.setSnap p x) (s.judged p step) := by
  unfold State.judged
  extract_lets x s₁ s₂
  refine ⟨_, rfl, ((s₁.keepsSteps_maxTrigger p step).trans ?_).trans (State.keepsSteps_judgeGuarantees _)⟩
  split
  · exact s₂.keepsSteps_judgeRecovery p
  · exact keepsSteps_refl s₂

theorem State.keepsSteps_openWindow (s : State) (p step : Nat) : keepsSteps s (s.openWindow p step) := by
  unfold State.openWindow
  split
  · exact (s.keepsSteps_setSnap p { s.snap p with arming := true } rfl).wr F.SNP_STATUS_STATE 1 p 0
  · exact keepsSteps_refl s

theorem State.held_openWindow (s : State) (p step : Nat) : (s.openWindow p step).rd F.MGT_HOST_HELD = s.rd F.MGT_HOST_HELD := by
  unfold State.openWindow
  split
  · exact State.rd_wr_reg _ F.SNP_STATUS_STATE F.MGT_HOST_HELD 1 p 0 0 0 (by decide)
  · rfl

/-- A hold that takes effect shows in MGT_HOST.HELD and is armed no more; besides registers it leaves everything. -/
theorem State.takeHold_frame (s : State) (p : Nat) :
    s.takeHold p = { s with regs := (s.takeHold p).regs, host := { s.host with holdArmed := (s.takeHold p).host.holdArmed } } := by
  unfold State.takeHold
  split <;> rfl

theorem State.rd_takeHold_reg (s : State) (p : Nat) (f : Fld) (i j : Nat) (other : f.reg ≠ .MGT_HOST) :
    (s.takeHold p).rd f i j = s.rd f i j := by
  unfold State.takeHold
  split
  · exact State.rd_wr_reg _ F.MGT_HOST_HELD f _ 0 0 i j other
  · rfl

theorem testBit_setBitTo_true (n b : Nat) : (setBitTo n b true).testBit b = true := by
  simp [setBitTo, Nat.testBit_or]

theorem State.held_takeHold (s : State) (p : Nat) (part : p < 16) (armed : p ∈ s.host.holdArmed) :
    ((s.takeHold p).rd F.MGT_HOST_HELD).testBit p = true ∧ p ∉ (s.takeHold p).host.holdArmed := by
  rw [State.takeHold, if_pos armed]
  constructor
  · rw [State.wrBit, State.rd_wr_same, Nat.testBit_mod_two_pow, testBit_setBitTo_true]
    simpa using part
  · simp

/-- A step boundary of partition `p`: of the steps it moves the time of the last advance to now, and a hold armed for the step takes effect. -/
theorem State.stepBoundary_leaves (s : State) (p step : Nat) (part : p < 16) :
    (s.stepBoundary p step).advances = s.advances ∧ (s.stepBoundary p step).curSteps = s.curSteps ∧
    ((s.stepBoundary p step).snap p).lastAdvance = s.now ∧
    (∀ (f : Fld) (i j : Nat), f.reg = .AG_NUM_ADVANCE → (s.stepBoundary p step).rd f i j = s.rd f i j) ∧
    (p ∈ s.host.holdArmed →
      ((s.stepBoundary p step).rd F.MGT_HOST_HELD).testBit p = true ∧ p ∉ (s.stepBoundary p step).host.holdArmed) := by
  obtain ⟨x, at_, judged⟩ := s.keepsSteps_judged p step
  have frame := (s.judged p step).takeHold_frame p
  have opened := ((s.judged p step).takeHold p).keepsSteps_openWindow p step
  rw [State.stepBoundary_eq]
  refine ⟨?_, ?_, ?_, fun f i j adv => ?_, fun armed => ?_⟩
  · rw [opened.advances, frame]
    exact judged.advances
  · rw [opened.curSteps, frame]
    exact judged.curSteps
  · have snp : ((s.judged p step).takeHold p).snp = (s.judged p step).snp := by rw [frame]
    rw [opened.lastAdvance p, State.snap_congr snp p, judged.lastAdvance p, s.snap_setSnap_same, at_]
  · rw [opened.advanceReg f i j adv, State.rd_takeHold_reg _ p f i j (by rw [adv]; decide)]
    exact judged.advanceReg f i j adv
  · rw [State.held_openWindow, opened.holdArmed]
    exact State.held_takeHold _ p part (judged.holdArmed ▸ armed)

/-! ### A write of a register in a running group's window (R286) -/

/-- The management core's write to the window of a group that runs and is shown present takes effect at once. -/
theorem State.windowWrite_mgt (s : State) (g : Nat) (reg : Reg) (i j value : Nat) (eff : State → State) (there : s.closedReg reg i = false)
    (runs : s.groupRuns g = true) : s.windowWrite g reg i j .mgt value eff = eff s := by
  unfold State.windowWrite
  rw [there, if_neg (by decide)]
  dsimp only
  rw [State.behind_mgt]
  exact if_pos runs

/-! ### Custom formats (R55 to R57) -/

theorem exec_agFmtWrite_runs (s : State) (t g n v : Nat) (group : g < 16) (slot : n < 16) (there : s.closedReg .AG_FMT g = false)
    (runs : s.groupRuns g = true) : exec (.agFmtWrite t g n v) s = .next ((s.tick t).fmtWrite g n v) :=
  (if_pos (by simp [group, slot])).trans (congrArg Host.Outcome.next ((s.tick t).windowWrite_mgt g .AG_FMT g n v _ there runs))

theorem State.onlyRegs_fmtWrite (s : State) (g n v : Nat) : onlyRegs s (s.fmtWrite g n v) :=
  (((((((((onlyRegs_refl s).wr _ _ _ _).wr _ _ _ _).wr _ _ _ _).wr _ _ _ _).wr _ _ _ _).wr _ _ _ _).wr _ _ _ _).wr _ _ _ _)

/-- A write to AG_FMTn leaves the fields of every other register and slot. -/
theorem State.rd_fmtWrite_other (s : State) (g n v : Nat) (f : Fld) (i k : Nat) (other : f.reg ≠ .AG_FMT ∨ i ≠ g ∨ k ≠ n) :
    (s.fmtWrite g n v).rd f i k = s.rd f i k := by
  have miss : ∀ (s : State) (f' : Fld) (w : Nat), f'.reg = .AG_FMT → (s.wr f' w g n).rd f i k = s.rd f i k := by
    intro s f' w reg
    rcases other with out | out
    · exact s.rd_wr_reg f' f w g n i k (by rwa [reg])
    · exact s.rd_wr_inst f' f w g n i k out
  simp only [State.fmtWrite, State.wrB, miss]

/-- The slot after a write to AG_FMTn: the fields the value names, and the validation's result. -/
theorem State.fmtWrite_shows (s : State) (g n v : Nat) :
    (s.fmtWrite g n v).rd F.AG_FMT_EW g n = bits v 0 4 ∧ (s.fmtWrite g n v).rd F.AG_FMT_PW g n = bits v 4 4 ∧
    (s.fmtWrite g n v).rd F.AG_FMT_BIAS g n = bits v 8 8 ∧ (s.fmtWrite g n v).rd F.AG_FMT_SPECIAL g n = bits v 16 2 ∧
    (s.fmtWrite g n v).rd F.AG_FMT_SUBN g n = bits v 18 1 ∧ (s.fmtWrite g n v).rd F.AG_FMT_SCALE g n = bits v 20 2 ∧
    (s.fmtWrite g n v).rd F.AG_FMT_ERROR g n = fmtError v % 2 ^ 8 ∧ (s.fmtWrite g n v).on F.AG_FMT_VALID g n = decide (fmtError v = 0) := by
  have cut : ∀ lsb w, bits v lsb w % 2 ^ w = bits v lsb w := fun lsb w => Nat.mod_eq_of_lt (bits_lt v lsb w)
  refine ⟨?_, ?_, ?_, ?_, ?_, ?_, ?_, State.on_wrB_same _ F.AG_FMT_VALID _ g n rfl⟩ <;>
    simp (disch := decide) only [State.fmtWrite, State.wrB, State.rd_wr_lsb, State.rd_wr_same, cut]

/-! ### A write to AG_NUM_ADVANCE (R186, R429) -/

/-- In the home group of a partition that is not being reset the write is one of the partition's advance. -/
theorem exec_agNumAdvanceWrite_home {s : State} {t g p step : Nat} (group : g < 16) (there : s.closedReg .AG_NUM_ADVANCE g = false)
    (runs : s.groupRuns g = true) (part : s.partOf g = some p) (home : s.homeOf p = some g) (alive : s.hngState p ≠ 3) :
    exec (.agNumAdvanceWrite t g step) s = .next ((s.tick t).advanceWrite p g step) := by
  have own : (s.tick t).numAdvance g step = (s.tick t).advanceWrite p g step := by
    have part' : (s.tick t).partOf g = some p := part
    unfold State.numAdvance
    rw [part']
    exact if_neg (not_or.mpr ⟨not_not.mpr home, alive⟩)
  refine (if_pos (by simp [group])).trans (congrArg Host.Outcome.next ?_)
  rw [State.windowWrite_mgt (s.tick t) g .AG_NUM_ADVANCE g 0 step _ there runs, own]

theorem State.advanceWrite_arming (s : State) (p g step : Nat) (arming : (s.snap p).arming = true) :
    s.advanceWrite p g step = s.setSnap p { s.snap p with heldAdv := (s.snap p).heldAdv ++ [step % 2 ^ 32] } := if_pos arming

section Idle
variable {s : State} {p g step : Nat} (idle : (s.snap p).arming = false)
include idle

theorem State.advanceWrite_busy (busy : s.on F.AG_NUM_ADVANCE_BUSY g = true) : s.advanceWrite p g step = s := by
  simp [State.advanceWrite, idle, busy]

theorem State.advanceWrite_off (free : s.on F.AG_NUM_ADVANCE_BUSY g = false) (off : s.numOn g = false) :
    s.advanceWrite p g step = s.wr F.AG_NUM_ADVANCE_STEP step g := by
  simp [State.advanceWrite, idle, free, off]

theorem State.advanceWrite_starts (free : s.on F.AG_NUM_ADVANCE_BUSY g = false) (tab : s.numOn g = true) :
    s.advanceWrite p g step = { ((s.settle p).wr F.AG_NUM_ADVANCE_STEP step g).wr F.AG_NUM_ADVANCE_BUSY 1 g with
      advances := s.advances ++ [(p, step % 2 ^ 32)] } := by
  simp only [State.advanceWrite, idle, free, tab]
  rfl

end Idle

/-- The start of an advance writes BUSY and STEP of its group and leaves every other field. -/
theorem State.rd_startRegs_other (s : State) (g step : Nat) (f : Fld) (i j : Nat)
    (out : fkey f i j ∉ [fkey F.AG_NUM_ADVANCE_BUSY g, fkey F.AG_NUM_ADVANCE_STEP g]) :
    ((s.wr F.AG_NUM_ADVANCE_STEP step g).wr F.AG_NUM_ADVANCE_BUSY 1 g).rd f i j = s.rd f i j := by
  simp only [List.mem_cons, List.not_mem_nil, or_false, not_or] at out
  obtain ⟨busy, stepField⟩ := out
  exact (State.rd_wr_other _ F.AG_NUM_ADVANCE_BUSY f 1 g 0 i j busy).trans (s.rd_wr_other F.AG_NUM_ADVANCE_STEP f step g 0 i j stepField)

/-! ### The end of an advance (R187, R321) -/

/-- The advance of partition `p` ends: BUSY clears and its step is current. -/
def State.endAdvance (s : State) (p g step : Nat) : State :=
  ({ s with advances := s.advances.filter (fun x => x.1 ≠ p), curSteps := aset s.curSteps p step } : State).wr F.AG_NUM_ADVANCE_BUSY 0 g

/-- The table advanced and the advance of partition `p` ended, before its step boundary. -/
def State.advanced (s : State) (p g step : Nat) : State :=
  ((s.settle p).advanceTable g p (agetD (s.settle p).curSteps p 0) step).endAdvance p g step

theorem exec_advanceRun_ready (s : State) (t p g step : Nat) (part : p < 16) (due : s.advances.find? (fun a => a.1 = p) = some (p, step))
    (home : s.homeOf p = some g) (ready : s.advanceReady p = true) (up : s.safe = false) :
    exec (.advanceRun t p) s = .next (((s.tick t).advanced p g step).stepBoundary p step) := by
  have due' : (s.tick t).advances.find? (fun a => a.1 = p) = some (p, step) := due
  have home' : (s.tick t).homeOf p = some g := home
  have go : ¬((!(s.tick t).advanceReady p) = true ∨ (s.tick t).safe = true) := by
    have ready' : (s.tick t).advanceReady p = true := ready
    have up' : (s.tick t).safe = false := up
    simp [ready', up']
  show execAdvanceRun t p s = _
  unfold execAdvanceRun
  dsimp only
  rw [due', home']
  refine (if_pos (by simp [part])).trans (congrArg Host.Outcome.next ?_)
  exact if_neg go

theorem State.endAdvance_leaves (s : State) (p g step : Nat) :
    (s.endAdvance p g step).now = s.now ∧ (s.endAdvance p g step).host.holdArmed = s.host.holdArmed ∧
    (s.endAdvance p g step).rd F.AG_NUM_ADVANCE_BUSY g = 0 ∧ agetD (s.endAdvance p g step).curSteps p 0 = step ∧
    ∀ a, a ∈ (s.endAdvance p g step).advances → a.1 ≠ p := by
  refine ⟨rfl, rfl, State.rd_wr_same _ F.AG_NUM_ADVANCE_BUSY 0 g 0, ?_, fun a mem => of_decide_eq_true (List.mem_filter.mp mem).2⟩
  show (aget (aset s.curSteps p step) p).getD 0 = step
  rw [aget_aset_same, Option.getD_some]

/-- The table and the end of the advance leave the time and the holds armed, with BUSY 0, the step current and no advance of the partition. -/
theorem State.advanced_leaves (s : State) (p g step : Nat) :
    (s.advanced p g step).now = s.now ∧ (s.advanced p g step).host.holdArmed = s.host.holdArmed ∧
    (s.advanced p g step).rd F.AG_NUM_ADVANCE_BUSY g = 0 ∧ agetD (s.advanced p g step).curSteps p 0 = step ∧
    ∀ a, a ∈ (s.advanced p g step).advances → a.1 ≠ p := by
  have kept := (s.keepsSteps_settle p).trans (State.keepsSteps_advanceTable _ g p (agetD (s.settle p).curSteps p 0) step)
  obtain ⟨now, armed, ended⟩ :=
    State.endAdvance_leaves ((s.settle p).advanceTable g p (agetD (s.settle p).curSteps p 0) step) p g step
  exact ⟨now.trans kept.now, armed.trans kept.holdArmed, ended⟩

/-! ### O36 -/

/-- Settles O36: a write to AG_FMTn is one to a running group's window; a write to AG_NUM_ADVANCE by whether a cut is arming, BUSY and the
table; and neither the table's accesses nor the step boundary's judgements move the advance that ends. -/
theorem formatsAndAdvance : Obligations.FormatsAndAdvance := by
  unfold Obligations.FormatsAndAdvance
  refine ⟨?_, ?_, ?_, ?_⟩
  · intro s t g n v group slot there runs
    obtain ⟨ew, pw, bias, special, subn, scale, error, valid⟩ := (s.tick t).fmtWrite_shows g n v
    exact ⟨_, exec_agFmtWrite_runs s t g n v group slot there runs, ew, pw, bias, special, subn, scale, error, valid,
      (s.tick t).rd_fmtWrite_other g n v, (s.tick t).onlyRegs_fmtWrite g n v⟩
  · intro s t g p step group there runs part home alive idle
    refine ⟨_, exec_agNumAdvanceWrite_home group there runs part home alive, ?_⟩
    have idle' : ((s.tick t).snap p).arming = false := idle
    cases busy : s.on F.AG_NUM_ADVANCE_BUSY g with
    | true =>
      rw [State.advanceWrite_busy idle' busy]
      exact ⟨nofun, nofun, fun _ => rfl, fun _ _ _ _ => rfl, fun _ => rfl⟩
    | false =>
      cases tab : s.numOn g with
      | true =>
        rw [State.advanceWrite_starts idle' busy tab]
        refine ⟨fun _ _ => ⟨State.rd_wr_same _ F.AG_NUM_ADVANCE_BUSY 1 g 0, ?_, rfl⟩, nofun, nofun,
          ((s.tick t).settle p).rd_startRegs_other g step, fun _ => rfl⟩
        exact (State.rd_wr_lsb _ F.AG_NUM_ADVANCE_BUSY F.AG_NUM_ADVANCE_STEP 1 g 0 g 0 (by decide)).trans
          (State.rd_wr_same _ F.AG_NUM_ADVANCE_STEP step g 0)
      | false =>
        rw [State.advanceWrite_off idle' busy tab]
        refine ⟨nofun, fun _ _ => ⟨?_, State.rd_wr_same _ F.AG_NUM_ADVANCE_STEP step g 0, rfl⟩, nofun, fun f i j out => ?_, fun _ => rfl⟩
        · exact State.rd_wr_lsb _ F.AG_NUM_ADVANCE_STEP F.AG_NUM_ADVANCE_BUSY step g 0 g 0 (by decide)
        · exact State.rd_wr_other _ F.AG_NUM_ADVANCE_STEP f step g 0 i j (List.not_mem_of_not_mem_cons out ∘ List.mem_singleton.mpr)
  · intro s t g p step group there runs part home alive arming
    have arming' : ((s.tick t).snap p).arming = true := arming
    refine ⟨_, exec_agNumAdvanceWrite_home group there runs part home alive, ?_⟩
    rw [State.advanceWrite_arming _ _ _ _ arming']
    exact ⟨congrArg SnapSt.heldAdv ((s.tick t).snap_setSnap_same p _), rfl⟩
  · intro s t p g step part due home ready up
    obtain ⟨now, armed, busy, current, ended⟩ := (s.tick t).advanced_leaves p g step
    obtain ⟨advances, steps, last, reg, held⟩ := ((s.tick t).advanced p g step).stepBoundary_leaves p step part
    refine ⟨_, exec_advanceRun_ready s t p g step part due home ready up, ?_, ?_, ?_, ?_, fun mem => held (by rw [armed]; exact mem)⟩
    · rw [reg F.AG_NUM_ADVANCE_BUSY g 0 rfl, busy]
    · rw [steps, current]
    · rwa [advances]
    · rw [last, now]
      rfl

end Sys2Proof.Machine
end

section
/-!
PROOFS of the accumulation statements (spec/05): what rejections, failures and the end of a contribution leave of the atomic units (O27).
-/

namespace Sys2Proof.Machine

/-! ### Entries and counters of the atomic units (R114, R116) -/

/-- The counters of rejections with NOT_OPEN and of entries that failed. -/
def atuCounts : List Fld :=
  [F.MEM_ATU_REJECT_NOT_OPEN, F.CUP_ATU_REJECT_NOT_OPEN, F.MEM_ATU_STATUS_FAILED, F.CUP_ATU_STATUS_FAILED]

/-- The entries, the beats that wait and those counters are as before. -/
structure keepsAtu (s s' : State) : Prop where
  atu : s'.atu = s.atu
  beats : s'.beats = s.beats
  counts : ∀ f ∈ atuCounts, ∀ i j, s'.rd f i j = s.rd f i j

theorem keepsAtu_refl (s : State) : keepsAtu s s := ⟨rfl, rfl, fun _ _ _ _ => rfl⟩

theorem keepsAtu.trans {a b c : State} (h : keepsAtu a b) (h' : keepsAtu b c) : keepsAtu a c :=
  ⟨h'.atu.trans h.atu, h'.beats.trans h.beats, fun f mem i j => (h'.counts f mem i j).trans (h.counts f mem i j)⟩

/-- A field that is none of those counters. -/
abbrev uncounted (f : Fld) : Prop := ∀ g ∈ atuCounts, g.reg ≠ f.reg ∨ g.lsb ≠ f.lsb

theorem keepsAtu.wr {a b : State} (h : keepsAtu a b) (f : Fld) (v i j : Nat) (other : uncounted f) : keepsAtu a (b.wr f v i j) :=
  h.trans ⟨rfl, rfl, fun g mem i' j' => (other g mem).elim (b.rd_wr_reg f g v i j i' j') (b.rd_wr_lsb f g v i j i' j')⟩

theorem onlyStored.keepsAtu {s s' : State} (h : onlyStored s s') : keepsAtu s s' where
  atu := by rw [h.parts]
  beats := by rw [h.parts]
  counts f mem i j := h.regs f i j ((by decide : ∀ g ∈ atuCounts, g.reg ∉ storeTraces) f mem)

theorem State.keepsAtu_of_devRead {s s' : State} {cache unit p addr n : Nat} {c : Option Nat} {b : Bytes} {bad : Bool}
    (h : s.devRead cache unit p addr n = (c, b, bad, s')) : keepsAtu s s' := by
  have read := s.onlyRead_devRead cache unit p addr n
  rw [h] at read
  exact read.onlyStored.keepsAtu

/-- What holds of the field of a stack and of that of a slice holds of the one that serves a unit. -/
theorem atuFld_of_both {P : Fld → Prop} (u : Nat) {m c : Fld} (stack : P m) (slice : P c) : P (atuFld u m c).1 := by
  unfold atuFld
  split
  · exact stack
  · exact slice

/-- The open entries and the contributions in progress that a unit shows are none of the counters. -/
theorem State.keepsAtu_showAtu (s : State) (u : Nat) : keepsAtu s (s.showAtu u) :=
  ((keepsAtu_refl s).wr _ _ _ 0 (atuFld_of_both (P := uncounted) u (by decide) (by decide))).wr _ _ _ 0
    (atuFld_of_both (P := uncounted) u (by decide) (by decide))

theorem State.keepsAtu_sendRing (s : State) (p bell count src : Nat) : keepsAtu s (s.sendRing p bell count src) :=
  ⟨rfl, rfl, fun _ _ _ _ => rfl⟩

theorem State.aget_setAtu_same (s : State) (p h : Nat) (x : AtuEntry) : aget (s.setAtu p h x).atu (redKey p h) = some x :=
  aget_aset_same s.atu (redKey p h) x

theorem agetD_of_aget {α : Type} {l : List (Nat × α)} {k : Nat} {x d : α} (there : aget l k = some x) : agetD l k d = x := by
  rw [agetD, there, Option.getD_some]

/-! ### Rejection (R116) -/

/-- A field that captures the first rejection. -/
abbrev capturing (f : Fld) : Prop := f.reg ∈ [Reg.MEM_ATU_FIRST, .CUP_ATU_FIRST]

/-- The second state differs from the first by the capture and the reports of a rejection. -/
structure onlyCaptured (s s' : State) : Prop where
  parts : s' = { s with regs := s'.regs, fc := s'.fc, jobs := s'.jobs, fab := s'.fab }
  regs : ∀ (f : Fld) (i j : Nat), ¬capturing f → s'.rd f i j = s.rd f i j

theorem onlyCaptured_refl (s : State) : onlyCaptured s s := ⟨rfl, fun _ _ _ _ => rfl⟩

theorem onlyCaptured.trans {a b c : State} (h : onlyCaptured a b) (h' : onlyCaptured b c) : onlyCaptured a c := by
  refine ⟨?_, fun f i j out => (h'.regs f i j out).trans (h.regs f i j out)⟩
  rw [h'.parts, h.parts]

/-- A write of a stack's or a slice's field that captures. -/
theorem onlyCaptured.wr {a b : State} (h : onlyCaptured a b) (u : Nat) (m c : Fld) (v i : Nat) (stack : capturing m) (slice : capturing c) :
    onlyCaptured a (b.wr (atuFld u m c).1 v i) :=
  h.trans ⟨rfl, fun g i' j' out => b.rd_wr_reg _ g v i 0 i' j' (fun e => out (by
    rw [capturing, e]
    exact atuFld_of_both (P := capturing) u stack slice))⟩

theorem State.onlyCaptured_raise (s : State) (r : Report) : onlyCaptured s (s.raise r) :=
  ⟨by rw [s.raise_frame r], fun f i j _ => s.raise_rd r f i j⟩

/-- Once a rejection is counted, only its capture and its reports follow. -/
theorem State.onlyCaptured_rejectContrib (s : State) (u p h index dev job gen code : Nat) :
    onlyCaptured (s.inc (rejectFld u code).1 (rejectFld u code).2) (s.rejectContrib u p h index dev job gen code) := by
  unfold State.rejectContrib
  extract_lets f v s₁ put _ _ s₂ s₃
  have captured : onlyCaptured s₁ s₂ := by
    simp only [s₂]
    split
    · exact onlyCaptured_refl s₁
    · have valid := (onlyCaptured_refl s₁).wr u F.MEM_ATU_FIRST_VALID F.CUP_ATU_FIRST_VALID 1 v.2 (by decide) (by decide)
      have coded := valid.wr u F.MEM_ATU_FIRST_CODE F.CUP_ATU_FIRST_CODE code v.2 (by decide) (by decide)
      have placed := (coded.wr u F.MEM_ATU_FIRST_PARTITION F.CUP_ATU_FIRST_PARTITION p v.2 (by decide) (by decide)).wr u
        F.MEM_ATU_FIRST_HANDLE F.CUP_ATU_FIRST_HANDLE h v.2 (by decide) (by decide)
      exact (placed.wr u F.MEM_ATU_FIRST_SOURCE F.CUP_ATU_FIRST_SOURCE dev v.2 (by decide) (by decide)).wr u
        F.MEM_ATU_FIRST_CONTRIB F.CUP_ATU_FIRST_CONTRIB index v.2 (by decide) (by decide)
  split
  · have raised : onlyCaptured s₁ s₃ := captured.trans (s₂.onlyCaptured_raise _)
    clear_value s₃
    split
    · exact raised.trans ⟨rfl, fun _ _ _ _ => rfl⟩
    · exact raised
  · clear_value s₂
    exact captured.trans ⟨rfl, fun _ _ _ _ => rfl⟩

theorem not_capturing_rejectFld (u : Nat) : ¬capturing (rejectFld u 1).1 :=
  atuFld_of_both (P := fun f => ¬capturing f) u (by decide) (by decide)

theorem counted_counted (f : Fld) (v a b : Nat) : counted f (counted f v a) b = counted f v (a + b) := by
  unfold counted
  omega

theorem State.rd_rejectContrib_notOpen (s : State) (u p h index dev job gen : Nat) :
    (s.rejectContrib u p h index dev job gen 1).rd (rejectFld u 1).1 (rejectFld u 1).2
      = counted (rejectFld u 1).1 (s.rd (rejectFld u 1).1 (rejectFld u 1).2) 1 :=
  ((s.onlyCaptured_rejectContrib u p h index dev job gen 1).regs _ _ _ (not_capturing_rejectFld u)).trans (s.rd_inc_same _ _ 0 1)

/-- The state that differs in the atomic units' entries alone. -/
def State.withAtu (s : State) (m : List (Nat × AtuEntry)) : State := { s with atu := m }

/-- A contribution rejected as it begins may join the entry, marked as rejected; then it is rejected as any other. -/
theorem State.rejectFirst_eq (s : State) (u p h dev code : Nat) (b : Beat) : ∃ m,
    s.rejectFirst u p h dev code b = (s.withAtu m).rejectContrib u p h b.hdr.index dev b.job b.gen code := by
  unfold State.rejectFirst
  dsimp only
  split
  · exact ⟨_, rfl⟩
  · exact ⟨s.atu, rfl⟩

/-! ### The end of an entry (R114, R117) -/

/-- The contributions in progress of `l` are rejected with NOT_OPEN. -/
def State.rejectAll (s : State) (u p h : Nat) (l : List PartIn) : State :=
  l.foldl (fun s i => s.rejectContrib u p h i.index i.dev i.job i.gen 1) s

theorem State.atu_rejectAll (s : State) (u p h : Nat) (l : List PartIn) : (s.rejectAll u p h l).atu = s.atu :=
  foldl_keeps State.atu (fun s i => by rw [(s.onlyCaptured_rejectContrib u p h i.index i.dev i.job i.gen 1).parts]; rfl) l s

/-- The fields of a register that neither counts nor captures rejections read as before. -/
theorem State.rd_rejectAll_other (s : State) (u p h : Nat) (l : List PartIn) (f : Fld) (i j : Nat)
    (out : ¬capturing f) (other : f.reg ≠ (rejectFld u 1).1.reg) :
    (s.rejectAll u p h l).rd f i j = s.rd f i j :=
  foldl_keeps (fun s => s.rd f i j) (fun s (y : PartIn) => ((s.onlyCaptured_rejectContrib u p h y.index y.dev y.job y.gen 1).regs f i j out).trans
    (s.rd_inc_reg _ f _ 0 1 i j other)) l s

/-- NOT_OPEN counts each of the contributions rejected. -/
theorem State.rd_rejectAll_notOpen (s : State) (u p h : Nat) (l : List PartIn) (nonempty : l ≠ []) :
    (s.rejectAll u p h l).rd (rejectFld u 1).1 (rejectFld u 1).2
      = counted (rejectFld u 1).1 (s.rd (rejectFld u 1).1 (rejectFld u 1).2) l.length := by
  induction l generalizing s with
  | nil => exact absurd rfl nonempty
  | cons i l ih =>
    have first := s.rd_rejectContrib_notOpen u p h i.index i.dev i.job i.gen
    by_cases last : l = []
    · subst last
      exact first
    · refine (ih _ last).trans ?_
      rw [first, counted_counted, List.length_cons, Nat.add_comm]

/-- The contributions in progress of an entry. -/
def AtuEntry.live (x : AtuEntry) : List PartIn := x.ins.filter (fun i => !i.dead)

theorem AtuEntry.live_ne_nil {x : AtuEntry} {index : Nat} {i : PartIn}
    (found : x.ins.find? (fun y => decide (y.index = index) && !y.dead) = some i) : x.live ≠ [] := by
  have both := List.find?_some found
  rw [Bool.and_eq_true] at both
  exact List.ne_nil_of_mem (List.mem_filter.mpr ⟨List.mem_of_find?_eq_some found, both.2⟩)

/-- An entry once it has closed: nothing is held, and what is still to come of its contributions is discarded. -/
def AtuEntry.closed (x : AtuEntry) : AtuEntry :=
  { x with opened := false, holds := [], ins := (x.ins.filter (fun i => i.got < i.total)).map (fun i => { i with dead := true }) }

theorem AtuEntry.dead_closed (x : AtuEntry) (y : PartIn) (mem : y ∈ x.closed.ins) : y.dead = true := by
  obtain ⟨i, -, rfl⟩ := List.mem_map.mp mem
  rfl

/-- An entry that closes rejects its contributions in progress; then its words and its bell leave entries and counters. -/
theorem State.keepsAtu_closeEntry (s : State) (p h final n : Nat) {x : AtuEntry}
    (there : agetD s.atu (redKey p h) { unit := 0, opened := false } = x) :
    keepsAtu ((s.setAtu p h x.closed).rejectAll x.unit p h x.live) (s.closeEntry p h final n) := by
  unfold State.closeEntry
  rw [there]
  extract_lets _ u live n s₁ s₂ a
  change keepsAtu s₂ _
  split
  · next read =>
    extract_lets s₃
    have stored : keepsAtu s₂ s₃ := (State.keepsAtu_of_devRead read).trans (State.onlyStored_devWrite _ _ _ _ _ _ _ _).keepsAtu
    exact (stored.trans (s₃.keepsAtu_sendRing p _ 1 _)).trans (State.keepsAtu_showAtu _ u)
  · next read => exact (State.keepsAtu_of_devRead read).trans (State.keepsAtu_showAtu _ u)

theorem State.aget_closeEntry (s : State) (p h final n : Nat) {x : AtuEntry}
    (there : agetD s.atu (redKey p h) { unit := 0, opened := false } = x) :
    aget (s.closeEntry p h final n).atu (redKey p h) = some x.closed := by
  rw [(s.keepsAtu_closeEntry p h final n there).atu, State.atu_rejectAll]
  exact s.aget_setAtu_same p h x.closed

/-- A closed entry is not open, whatever stood there. -/
theorem State.closeEntry_closes (s : State) (p h final n : Nat) :
    ∃ x, aget (s.closeEntry p h final n).atu (redKey p h) = some x ∧ x.opened = false ∧ x.holds = [] :=
  ⟨_, s.aget_closeEntry p h final n rfl, rfl, rfl⟩

/-- NOT_OPEN counts the contributions in progress of an entry that closes. -/
theorem State.rd_closeEntry_notOpen (s : State) (p h final n : Nat) {x : AtuEntry} (there : aget s.atu (redKey p h) = some x)
    (nonempty : x.live ≠ []) :
    (s.closeEntry p h final n).rd (rejectFld x.unit 1).1 (rejectFld x.unit 1).2
      = counted (rejectFld x.unit 1).1 (s.rd (rejectFld x.unit 1).1 (rejectFld x.unit 1).2) x.live.length :=
  ((s.keepsAtu_closeEntry p h final n (agetD_of_aget there)).counts _ (atuFld_of_both (P := (· ∈ atuCounts)) x.unit (by decide) (by decide))
    _ _).trans (State.rd_rejectAll_notOpen _ x.unit p h x.live nonempty)

/-- The field of MEM_ATU_STATUS or CUP_ATU_STATUS that counts the failed entries of a unit, and the place of that register. -/
abbrev failedFld (u : Nat) : Fld × Nat := atuFld u F.MEM_ATU_STATUS_FAILED F.CUP_ATU_STATUS_FAILED

theorem failedFld_reg_ne_rejectFld (u w : Nat) : (failedFld u).1.reg ≠ (rejectFld w 1).1.reg :=
  atuFld_of_both (P := fun f => f.reg ≠ (rejectFld w 1).1.reg) u
    (atuFld_of_both (P := fun g => Reg.MEM_ATU_STATUS ≠ g.reg) w (by decide) (by decide))
    (atuFld_of_both (P := fun g => Reg.CUP_ATU_STATUS ≠ g.reg) w (by decide) (by decide))

theorem State.rd_closeEntry_failed (s : State) (p h final n : Nat) {x : AtuEntry} (there : aget s.atu (redKey p h) = some x) :
    (s.closeEntry p h final n).rd (failedFld x.unit).1 (failedFld x.unit).2 = s.rd (failedFld x.unit).1 (failedFld x.unit).2 :=
  ((s.keepsAtu_closeEntry p h final n (agetD_of_aget there)).counts _ (atuFld_of_both (P := (· ∈ atuCounts)) x.unit (by decide) (by decide))
    _ _).trans (State.rd_rejectAll_other _ x.unit p h x.live _ _ 0
      (atuFld_of_both (P := fun f => ¬capturing f) x.unit (by decide) (by decide))
      (failedFld_reg_ne_rejectFld x.unit x.unit))

/-! ### A contribution that stops (R117) -/

section Stop
variable {s : State} {p h : Nat} {x : AtuEntry} {i : PartIn} (there : aget s.atu (redKey p h) = some x)
include there

/-- A contribution that is only being copied leaves its entry, and its hold slot is free. -/
theorem State.stopContrib_held {k : Nat} (held : i.hold = some k) :
    s.stopContrib p h i = (s.setAtu p h { x with ins := x.ins.filter (fun z => z ≠ i) }).showAtu x.unit := by
  simp only [State.stopContrib, agetD_of_aget there, held]

/-- A contribution that is being applied fails its entry. -/
theorem State.stopContrib_applied (applied : i.hold = none) :
    s.stopContrib p h i = (s.closeEntry p h 2 0).inc (failedFld x.unit).1 (failedFld x.unit).2 := by
  simp only [State.stopContrib, agetD_of_aget there, applied]

end Stop

/-- A contribution whose tag is stale, or whose last beat came 1 ms ago, stops. -/
theorem exec_contributionStall_due {s : State} (t : Nat) {p h index : Nat} {stale : Bool} {x : AtuEntry} {i : PartIn} (part : p < 16)
    (alive : s.safe = false) (there : aget s.atu (redKey p h) = some x)
    (found : x.ins.find? (fun y => decide (y.index = index) && !y.dead) = some i) (due : stale = true ∨ i.lastAt + 1000000 ≤ max s.now t) :
    exec (.contributionStall t p h index stale) s = .next ((s.tick t).stopContrib p h i) := by
  have mine : (aget (s.tick t).atu (redKey p h)).bind (fun x => x.ins.find? (fun i => decide (i.index = index) && !i.dead)) = some i := by
    rw [State.tick_atu, there, Option.bind_some, found]
  have alive' : (s.tick t).safe = false := alive
  change execContributionStall t p h index stale s = _
  simp only [execContributionStall, part, decide_true, inst_true, mine, alive']
  exact congrArg Host.Outcome.next (if_pos due)

/-! ### A contribution applied in full (R118 to R121) -/

/-- Elements applied leave what stores leave, whether their work area can be read and written or not. -/
theorem State.onlyStored_applyVals (s : State) (p u : Nat) (e : Bytes) (index first : Nat) (vals : List Nat) :
    onlyStored s (s.applyVals p u e index first vals).2 := by
  have read := (s.onlyRead_devRead 4 (unitMaster u) p (redWork e + 512 + redWidth e * first) (redWidth e * vals.length)).onlyStored
  unfold State.applyVals
  dsimp only
  split
  · next old s₁ e₁ =>
    rw [e₁] at read
    have stored := s₁.onlyStored_devWrite 4 (unitMaster u) p (redWork e + 512 + redWidth e * first)
      (vals.zipIdx.flatMap (fun v => natLe (redWidth e) (applyElem e index (leAt old (redWidth e * v.2) (redWidth e)) v.1))) false none
    split
    · next e₂ => rw [e₂] at stored; exact read.trans stored
    · next e₂ => rw [e₂] at stored; exact read.trans stored
  · next e₁ => rwa [e₁] at read

theorem State.onlyStored_of_applyVals {s s' : State} {p u : Nat} {e : Bytes} {index first : Nat} {vals : List Nat} {ok : Bool}
    (h : s.applyVals p u e index first vals = (ok, s')) : onlyStored s s' := by
  have stored := s.onlyStored_applyVals p u e index first vals
  rwa [h] at stored

/-- However an entry commits, it ends closed. -/
theorem State.commitEntry_closes (s : State) (p h : Nat) (e : Bytes) :
    ∃ x, aget (s.commitEntry p h e).atu (redKey p h) = some x ∧ x.opened = false ∧ x.holds = [] := by
  unfold State.commitEntry
  dsimp only
  split
  · split
    · exact State.closeEntry_closes _ p h 2 0
    · exact State.closeEntry_closes _ p h 1 0
  · exact State.closeEntry_closes _ p h 2 0

/-- A contribution of the ordered class that has been applied in full advances k, or its entry closes. -/
theorem State.contribDone_advances (s : State) (p h : Nat) (i : PartIn) (e : Bytes) {x : AtuEntry}
    (there : aget s.atu (redKey p h) = some x) (ordered : redClass e = 1) :
    ∃ x', aget (s.contribDone p h i e).atu (redKey p h) = some x' ∧ x'.holds ⊆ x.holds ∧ (x'.next = x.next + 1 ∨ x'.opened = false) := by
  have ends : ∀ s' : State, (∃ x', aget s'.atu (redKey p h) = some x' ∧ x'.opened = false ∧ x'.holds = []) →
      ∃ x', aget s'.atu (redKey p h) = some x' ∧ x'.holds ⊆ x.holds ∧ (x'.next = x.next + 1 ∨ x'.opened = false) := by
    rintro s' ⟨x', got, shut, empty⟩
    exact ⟨x', got, empty ▸ List.nil_subset _, Or.inr shut⟩
  unfold State.contribDone
  rw [agetD_of_aget there]
  dsimp only
  rw [if_pos ordered]
  split
  · split
    · exact ends _ (State.closeEntry_closes _ p h 2 0)
    · split
      · exact ends _ (State.commitEntry_closes _ p h e)
      · refine ⟨{ x with ins := x.ins.filter (fun z => z ≠ i), next := x.next + 1 }, ?_, List.Subset.refl _, Or.inl rfl⟩
        rw [(State.keepsAtu_showAtu _ _).atu]
        exact State.aget_setAtu_same _ p h _
  · exact ends _ (State.closeEntry_closes _ p h 2 0)

/-! ### Beats of a local drain (R116, R119, R499) -/

/-- A beat that a local drain has sent leaves where it waited. -/
def beatTaken (b : Beat) : Taker := fun s => { s with beats := s.beats.erase b }

/-- The first beat of its stream arrives at its unit. -/
theorem exec_contributionArrive_drain {s : State} (t : Nat) {k : Nat} {b : Beat} (alive : s.safe = false) (waits : s.beats[k]? = some b)
    (head : (s.beats.take k).any (fun a => sameStream a b) = false) :
    ∃ g, exec (.contributionArrive t (.drain k)) s = .next ((s.tick t).beatArrives (beatTaken b) (dieOf g) (0x30 + g) s.fabAddr b) := by
  have alive' : (s.tick t).safe = false := alive
  have waits' : (s.tick t).beats[k]? = some b := waits
  have head' : ((s.tick t).beats.take k).any (fun a => sameStream a b) = false := head
  refine ⟨((s.job b.job).map (fun j => j.g)).getD ((s.homeOf b.p).getD 0), ?_⟩
  change execContributionArrive t (.drain k) s = _
  simp only [execContributionArrive, alive', waits', head']
  rfl

/-- A first beat whose handle lies at or above COUNT is rejected NOT_OPEN at the unit under the partition's home group. -/
theorem State.beatArrives_beyond (s : State) (take : Taker) (cache m dev : Nat) (b : Beat) (first : b.first = 0)
    (new : aget s.atu (redKey b.p b.hdr.handle) = none) (beyond : s.rd F.MEM_REDTAB_COUNT b.p ≤ b.hdr.handle) :
    s.beatArrives take cache m dev b = (take s).rejectFirst (128 + (s.homeOf b.p).getD 0) b.p b.hdr.handle dev 1 b := by
  have unrouted : s.routeContrib cache m b.p b.hdr.handle = (none, s) := if_pos beyond
  simp [State.beatArrives, new, first, unrouted]

/-- A further beat of a contribution in progress is taken, and its elements are once the entry is read. -/
theorem State.beatArrives_further {s s₁ : State} {take : Taker} {cache m dev : Nat} {b : Beat} {e : Bytes} {x : AtuEntry} {i : PartIn}
    (there : aget s.atu (redKey b.p b.hdr.handle) = some x) (same : (take s).atu = s.atu)
    (found : x.ins.find? (fun y => decide (y.dev = dev) && decide (y.job = b.job) && decide (y.index = b.hdr.index)
      && decide (y.gen = b.gen)) = some i)
    (next : b.first = i.got) (live : i.dead = false)
    (read : (take s).devRead 4 (unitMaster x.unit) b.p ((take s).redAddr b.p b.hdr.handle) 64 = (none, e, false, s₁)) :
    s.beatArrives take cache m dev b = s₁.takeVals b.p b.hdr.handle e i b := by
  have entry : agetD (take s).atu (redKey b.p b.hdr.handle) { unit := 0 } = x := agetD_of_aget (same ▸ there)
  simp [State.beatArrives, there, found, next, live, entry, read]

/-- Elements applied without error, the last not among them, advance the contribution. -/
theorem State.takeVals_applied {s s₂ : State} {p h : Nat} {e : Bytes} {x : AtuEntry} {i : PartIn} {b : Beat}
    (there : aget s.atu (redKey p h) = some x) (applied : i.hold = none)
    (done : (s.setAtu p h { x with ins := x.ins.map (fun z =>
        if z = i then { i with got := b.first + b.vals.length, lastAt := s.now } else z) }).applyVals p x.unit e i.index b.first b.vals
      = (true, s₂)) (more : b.first + b.vals.length < redElems e) :
    s.takeVals p h e i b = s₂.showAtu x.unit := by
  obtain ⟨dev, job, index, gen, got, hold, lastAt, total, dead⟩ := i
  obtain rfl : hold = none := applied
  simp only [State.takeVals, agetD_of_aget there, done]
  exact if_pos more

/-! ### A held contribution (R119) -/

/-- The held contribution whose index is next leaves its hold slot, and is done once its values are read and applied. -/
theorem exec_heldContributionApply_applied {s s₁ s₂ s₃ : State} {t p h : Nat} {e d : Bytes} {x : AtuEntry} {y : PartIn} (part : p < 16)
    (alive : s.safe = false) (there : aget s.atu (redKey p h) = some x) (opened : x.opened = true)
    (found : x.holds.find? (fun z => z.index = x.next) = some y)
    (entry : ((s.tick t).setAtu p h { x with holds := x.holds.filter (fun z => z ≠ y),
                                             ins := x.ins ++ [{ y with hold := none, lastAt := max s.now t }] }).devRead 4
      (unitMaster x.unit) p (s.redAddr p h) 64 = (none, e, false, s₁))
    (slot : s₁.devRead 4 (unitMaster x.unit) p (holdAddr e (y.hold.getD 0) 0) (redWidth e * redElems e) = (none, d, false, s₂))
    (applied : s₂.applyVals p x.unit e y.index 0 ((List.range (redElems e)).map (fun i => leAt d (redWidth e * i) (redWidth e)))
      = (true, s₃)) :
    exec (.heldContributionApply t p h) s = .next (s₃.contribDone p h { y with hold := none, lastAt := max s.now t } e) := by
  have alive' : (s.tick t).safe = false := alive
  have addr : ∀ z, ((s.tick t).setAtu p h z).redAddr p h = s.redAddr p h := fun _ => rfl
  obtain ⟨unit, open_, next, holds, ins⟩ := x
  obtain rfl : open_ = true := opened
  change execHeldContributionApply t p h s = _
  simp only [execHeldContributionApply, part, decide_true, inst_true, alive', State.tick_atu, State.tick_now, there, found,
    addr, entry, slot, applied]
  rfl

/-! ### The statement -/

/-- The unit under a group's slice counts its rejections in CUP_ATU_REJECT. -/
theorem rejectFld_slice (g : Nat) : rejectFld (128 + g) 1 = (F.CUP_ATU_REJECT_NOT_OPEN, g) := by
  simp [rejectFld, atuFld]

/-- Settles O27: each branch of an arrival, a stall and a held contribution's turn, read off the rules for rejection and for entries that
close. -/
theorem contributions : Obligations.Contributions := by
  unfold Obligations.Contributions
  refine ⟨?beyond, ?further, ?fails, ?freed, ?held⟩
  case beyond =>
    intro s t k b alive waits head first new beyond
    obtain ⟨g, run⟩ := exec_contributionArrive_drain t alive waits head
    obtain ⟨atu, rejected⟩ := (beatTaken b (s.tick t)).rejectFirst_eq (128 + (s.homeOf b.p).getD 0) b.p b.hdr.handle s.fabAddr 1 b
    have counts := ((beatTaken b (s.tick t)).withAtu atu).rd_rejectContrib_notOpen (128 + (s.homeOf b.p).getD 0) b.p b.hdr.handle b.hdr.index
      s.fabAddr b.job b.gen
    have captured := ((beatTaken b (s.tick t)).withAtu atu).onlyCaptured_rejectContrib (128 + (s.homeOf b.p).getD 0) b.p b.hdr.handle
      b.hdr.index s.fabAddr b.job b.gen 1
    rw [rejectFld_slice] at counts
    rw [State.beatArrives_beyond (s.tick t) _ _ _ _ b first new beyond] at run
    refine ⟨_, run.trans (congrArg Host.Outcome.next rejected), ?_, counts, sameMem_of_mem ?_⟩
    · rw [captured.parts]
      rfl
    · rw [captured.parts]
      rfl
  case further =>
    rintro s s₀ s₁ s₂ t k b e x i i₂ alive waits head there found next live applied rfl read rfl done more
    obtain ⟨g, run⟩ := exec_contributionArrive_drain t alive waits head
    have kept : keepsAtu (beatTaken b (s.tick t)) s₁ := State.keepsAtu_of_devRead read
    rw [State.beatArrives_further (s := s.tick t) (take := beatTaken b) there rfl found next live read,
      State.takeVals_applied (by rw [kept.atu]; exact there) applied done more] at run
    have shown := (State.onlyStored_of_applyVals done).keepsAtu.trans (s₂.keepsAtu_showAtu x.unit)
    refine ⟨_, run, shown.beats.trans kept.beats, ?_, sameMem_of_mem rfl⟩
    rw [shown.atu]
    exact State.aget_setAtu_same _ _ _ _
  case fails =>
    intro s t p h index stale x i part alive there found due applied
    have there' : aget (s.tick t).atu (redKey p h) = some x := there
    refine ⟨_, x.closed, (exec_contributionStall_due t part alive there found due).trans
      (congrArg Host.Outcome.next (State.stopContrib_applied there' applied)), ?_, rfl, rfl, x.dead_closed, ?_, ?_⟩
    · exact (s.tick t).aget_closeEntry p h 2 0 (agetD_of_aget there')
    · refine (State.rd_inc_reg _ _ _ _ _ _ _ _ (failedFld_reg_ne_rejectFld x.unit x.unit).symm).trans ?_
      exact (s.tick t).rd_closeEntry_notOpen p h 2 0 there' (AtuEntry.live_ne_nil found)
    · refine (State.rd_inc_same _ _ _ _ _).trans ?_
      rw [(s.tick t).rd_closeEntry_failed p h 2 0 there']
      rfl
  case freed =>
    intro s t p h index k x i part alive there found held
    have there' : aget (s.tick t).atu (redKey p h) = some x := there
    refine ⟨_, (exec_contributionStall_due t part alive there found (Or.inl rfl)).trans
      (congrArg Host.Outcome.next (State.stopContrib_held there' held)), ?_, sameMem_of_mem rfl⟩
    rw [(State.keepsAtu_showAtu _ _).atu]
    exact State.aget_setAtu_same _ p h _
  case held =>
    rintro s s₀ s₁ s₂ s₃ t p h e d x y part alive there opened found rfl entry slot applied ordered
    have kept := ((State.keepsAtu_of_devRead entry).trans (State.keepsAtu_of_devRead slot)).trans
      (State.onlyStored_of_applyVals applied).keepsAtu
    obtain ⟨x', got, freed, advances⟩ := s₃.contribDone_advances p h { y with hold := none, lastAt := max s.now t } e
      (by rw [kept.atu]; exact State.aget_setAtu_same _ p h _) ordered
    refine ⟨_, x', exec_heldContributionApply_applied part alive there opened found entry slot applied, got, fun mem => ?_, advances⟩
    simpa using List.of_mem_filter (freed mem)

end Sys2Proof.Machine
end

section
/-!
PROOFS of the statements of spec/06: what a stairway copy's slot leaves of the time and the watchdogs, and how a copy goes on or ends (O28).
-/

namespace Sys2Proof.Machine

/-! ### What the reads of a copy leave (R130, R137) -/

theorem State.onlyRead_of_readBits {s s' : State} {j : Job} {unit addr off w v : Nat} {r : ReadErr}
    (h : s.readBits j unit addr off w = (r, v, s')) : onlyRead s s' := by
  have read := s.onlyRead_readBits j unit addr off w
  rwa [h] at read

theorem State.onlyRead_srcRead (s : State) (j : Job) (i e : Nat) : onlyRead s (s.srcRead j i e).2.2.2 := by
  unfold State.srcRead
  extract_lets q sc
  have scale : onlyRead s sc.2.2 := by
    simp only [sc]
    split
    · exact onlyRead_refl s
    · exact s.onlyRead_readBits _ _ _ _ _
  clear_value sc
  split
  · exact scale
  · split
    · next read => exact scale.trans (State.onlyRead_of_readBits read)
    · next read => exact scale.trans (State.onlyRead_of_readBits read)

theorem State.onlyRead_copyTraffic (s : State) (j : Job) (ps : List (Nat × Nat)) : onlyRead s (s.copyTraffic j ps) := by
  unfold State.copyTraffic
  refine onlyRead_foldl (fun s i => ?_) _ s
  dsimp only
  split
  · exact s.onlyRead_traffic _ _ _ _ _
  · exact (s.onlyRead_traffic _ _ _ _ _).trans (State.onlyRead_traffic _ _ _ _ _ _)

theorem State.onlyRead_copyRead (s : State) (j : Job) (ps : List (Nat × Nat)) : onlyRead s (s.copyRead j ps).2.2 := by
  unfold State.copyRead
  extract_lets r
  have elements : onlyRead s r.2.2 := by
    refine onlyRead_foldl_carried (fun a : Option Nat × List CopyEl × State => a.2.2) (fun a p => ?_) ps (none, [], s)
    split
    · exact onlyRead_refl _
    · next l s =>
      have read := s.onlyRead_srcRead j (j.srcOf p.1 p.2).1 (j.srcOf p.1 p.2).2
      dsimp only
      split
      · next e => rwa [e] at read
      · next e => rwa [e] at read
  clear_value r
  split
  · exact elements
  · exact elements.trans (State.onlyRead_copyTraffic _ _ _)

theorem State.onlyRead_of_copyRead {s s' : State} {j : Job} {ps : List (Nat × Nat)} {c : Option Nat} {els : List CopyEl}
    (h : s.copyRead j ps = (c, els, s')) : onlyRead s s' := by
  have read := s.onlyRead_copyRead j ps
  rwa [h] at read

/-! ### What the writes of a copy leave (R132, R133) -/

theorem State.onlyStored_jobWrite (s : State) (j : Job) (unit addr : Nat) (b : Bytes) : onlyStored s (s.jobWrite j unit addr b).2.1 := by
  have written := s.onlyStored_devWrite (dieOf j.g) unit j.p addr b false none
  unfold State.jobWrite
  split
  · split
    · exact onlyStored_refl s
    · exact onlyStored_refl s
  · split
    · next e => rwa [e] at written
    · next e => rwa [e] at written

/-- A write changes of the descriptor only what it logs and diverts. -/
theorem State.jobWrite_job (s : State) (j : Job) (unit addr : Nat) (b : Bytes) :
    ∃ w d, (s.jobWrite j unit addr b).2.2 = { j with wlog := w, divert := d } := by
  have noted : ∃ w, j.note addr b = { j with wlog := w } := by
    unfold Job.note
    split
    · exact ⟨_, rfl⟩
    · exact ⟨j.wlog, rfl⟩
  obtain ⟨w, noted⟩ := noted
  unfold State.jobWrite
  rw [noted]
  split
  · split
    · exact ⟨j.wlog, j.divert, rfl⟩
    · exact ⟨w, _, rfl⟩
  · split
    · exact ⟨j.wlog, j.divert, rfl⟩
    · exact ⟨w, j.divert, rfl⟩

theorem State.keepsSteps_copyWrite (s : State) (j : Job) (addr : Nat) (b : Bytes) (n : Nat) : keepsSteps s (s.copyWrite j addr b n).2.1 := by
  have written := (s.onlyStored_jobWrite j (0x20 + j.g) addr b).keepsSteps
  unfold State.copyWrite
  split
  · next e => rwa [e] at written
  · next e =>
    rw [e] at written
    dsimp only
    split
    · exact written
    · exact written.wr F.STW_BYTES_BYTES _ _ _

theorem State.keepsSteps_copyWrites (s : State) (j : Job) (ws : List (Nat × Bytes × Nat)) : keepsSteps s (s.copyWrites j ws).2.1 := by
  unfold State.copyWrites
  refine keepsSteps_foldl_carried (fun a : Option Nat × State × Job => a.2.1) (fun a w => ?_) ws (none, s, j)
  split
  · exact keepsSteps_refl _
  · exact State.keepsSteps_copyWrite _ _ _ _ _

theorem State.keepsSteps_copyCount (s : State) (j : Job) (els : List CopyEl) (oc : List Nat) : keepsSteps s (s.copyCount j els oc).1 := by
  unfold State.copyCount
  split
  · exact keepsSteps_refl s
  · dsimp only
    split
    · exact keepsSteps_refl s
    · exact ((keepsSteps_refl s).wr F.STW_CONV_OVERFLOW _ _ _).wr F.STW_CONV_VANISHED _ _ _

/-- Elements read, their conversions counted, then the slot or row written. -/
theorem State.keepsSteps_counted {s s' : State} {j : Job} {ps : List (Nat × Nat)} {c : Option Nat} {els : List CopyEl}
    (read : s.copyRead j ps = (c, els, s')) (counted : List CopyEl) (oc : List Nat) (j' : Job) (ws : List (Nat × Bytes × Nat)) :
    keepsSteps s ((s'.copyCount j counted oc).1.copyWrites j' ws).2.1 :=
  ((State.onlyRead_of_copyRead read).onlyStored.keepsSteps.trans (State.keepsSteps_copyCount _ _ _ _)).trans
    (State.keepsSteps_copyWrites _ _ _)

theorem State.keepsSteps_linearRow (s : State) (j : Job) (i : Nat) : keepsSteps s (s.linearRow j i).2.1 := by
  unfold State.linearRow
  split
  · next read => exact (State.onlyRead_of_copyRead read).onlyStored.keepsSteps
  · next read => exact State.keepsSteps_counted read _ _ _ _

theorem State.keepsSteps_streamSlot (s : State) (j : Job) (slot : Nat) : keepsSteps s (s.streamSlot j slot).2.1 := by
  unfold State.streamSlot
  split
  · next read => exact (State.onlyRead_of_copyRead read).onlyStored.keepsSteps
  · next read => exact State.keepsSteps_counted read _ _ _ _

theorem State.keepsSteps_shadowRow (s : State) (j : Job) (r : Nat) : keepsSteps s (s.shadowRow j r).2.1 := by
  unfold State.shadowRow
  extract_lets _ _ rows pos
  split
  · next read => exact (State.onlyRead_of_copyRead read).onlyStored.keepsSteps
  · next read => exact State.keepsSteps_counted read _ _ _ _

theorem State.keepsSteps_copyRow (s : State) (j : Job) : keepsSteps s (s.copyRow j).2.1 := by
  unfold State.copyRow
  split
  · exact s.keepsSteps_linearRow _ _
  · exact s.keepsSteps_streamSlot _ _
  · exact s.keepsSteps_shadowRow _ _

/-! ### The end of a copy (R127, R128) -/

/-- What the registers show of a command that ends with `code`. -/
def State.showEnd (s : State) (j : Job) (code : Nat) : State :=
  let s := (s.wr F.STW_PROG_LAST_CODE code j.g j.engine).wr F.STW_CMD_ACTIVE 0 j.g j.engine
  if code ≠ 0 then s.stwFirst j.g j.engine code j.cmdAddr else s

/-- The command that has ended with `code`. -/
def Job.endedWith (j : Job) (code : Nat) : Job := { (if code = 0 then j else j.fail 0x0A code 0) with ended := true }

theorem State.onlyRegs_stwFirst (s : State) (g e code addr : Nat) : onlyRegs s (s.stwFirst g e code addr) := by
  unfold State.stwFirst
  split
  · exact onlyRegs_refl s
  · exact (((onlyRegs_wr s _ _ g 0).wr _ _ g 0).wr _ _ g 0).wr _ _ g 0

theorem State.rd_stwFirst_reg (s : State) (g e code addr : Nat) (f : Fld) (i k : Nat) (out : f.reg ≠ .STW_FIRST) :
    (s.stwFirst g e code addr).rd f i k = s.rd f i k := by
  unfold State.stwFirst
  split
  · rfl
  · rw [State.rd_wr_reg _ _ _ _ _ _ _ _ out, State.rd_wr_reg _ _ _ _ _ _ _ _ out, State.rd_wr_reg _ _ _ _ _ _ _ _ out,
      State.rd_wr_reg _ _ _ _ _ _ _ _ out]

/-- The first failure of a group's engines is captured with its code. -/
theorem State.stwFirst_captures (s : State) (g e code addr : Nat) (empty : s.on F.STW_FIRST_VALID g = false) :
    (s.stwFirst g e code addr).rd F.STW_FIRST_VALID g = 1 ∧ (s.stwFirst g e code addr).rd F.STW_FIRST_CODE g = code % 2 ^ 8 := by
  unfold State.stwFirst
  simp only [empty, Bool.false_eq_true, if_false]
  constructor
  · rw [State.rd_wr_lsb _ _ _ _ _ _ _ _ (by decide), State.rd_wr_lsb _ _ _ _ _ _ _ _ (by decide), State.rd_wr_lsb _ _ _ _ _ _ _ _ (by decide)]
    exact State.rd_wr_same _ _ _ _ _
  · rw [State.rd_wr_lsb _ _ _ _ _ _ _ _ (by decide)]
    exact State.rd_wr_same _ _ _ _ _

theorem State.onlyRegs_showEnd (s : State) (j : Job) (code : Nat) : onlyRegs s (s.showEnd j code) := by
  have shown := (onlyRegs_wr s F.STW_PROG_LAST_CODE code j.g j.engine).wr F.STW_CMD_ACTIVE 0 j.g j.engine
  unfold State.showEnd
  dsimp only
  split
  · exact onlyRegs_trans _ _ _ shown (State.onlyRegs_stwFirst _ _ _ _ _)
  · exact shown

/-- An end shows in STW_PROG, STW_CMD and STW_FIRST alone. -/
theorem State.rd_showEnd_other (s : State) (j : Job) (code : Nat) (f : Fld) (i k : Nat) (prog : f.reg ≠ .STW_PROG) (cmd : f.reg ≠ .STW_CMD)
    (first : f.reg ≠ .STW_FIRST) : (s.showEnd j code).rd f i k = s.rd f i k := by
  have shown : ((s.wr F.STW_PROG_LAST_CODE code j.g j.engine).wr F.STW_CMD_ACTIVE 0 j.g j.engine).rd f i k = s.rd f i k := by
    rw [State.rd_wr_reg _ _ _ _ _ _ _ _ cmd, State.rd_wr_reg _ _ _ _ _ _ _ _ prog]
  unfold State.showEnd
  dsimp only
  split
  · rw [State.rd_stwFirst_reg _ _ _ _ _ _ _ _ first, shown]
  · exact shown

/-- A command that has ended shows its code and is no longer active. -/
theorem State.rd_showEnd (s : State) (j : Job) (code : Nat) :
    (s.showEnd j code).rd F.STW_PROG_LAST_CODE j.g j.engine = code % 2 ^ 8 ∧ (s.showEnd j code).rd F.STW_CMD_ACTIVE j.g j.engine = 0 := by
  have last : ((s.wr F.STW_PROG_LAST_CODE code j.g j.engine).wr F.STW_CMD_ACTIVE 0 j.g j.engine).rd F.STW_PROG_LAST_CODE j.g j.engine
      = code % 2 ^ 8 := by
    rw [State.rd_wr_reg _ _ _ _ _ _ _ _ (by decide)]
    exact State.rd_wr_same _ _ _ _ _
  have active : ((s.wr F.STW_PROG_LAST_CODE code j.g j.engine).wr F.STW_CMD_ACTIVE 0 j.g j.engine).rd F.STW_CMD_ACTIVE j.g j.engine = 0 :=
    State.rd_wr_same _ _ _ _ _
  unfold State.showEnd
  dsimp only
  split
  · rw [State.rd_stwFirst_reg _ _ _ _ _ _ _ _ (by decide), State.rd_stwFirst_reg _ _ _ _ _ _ _ _ (by decide)]
    exact ⟨last, active⟩
  · exact ⟨last, active⟩

/-- A first failure is captured as its command ends. -/
theorem State.rd_showEnd_first (s : State) (j : Job) {code : Nat} (failed : code ≠ 0) (empty : s.on F.STW_FIRST_VALID j.g = false) :
    (s.showEnd j code).rd F.STW_FIRST_VALID j.g = 1 ∧ (s.showEnd j code).rd F.STW_FIRST_CODE j.g = code % 2 ^ 8 := by
  unfold State.showEnd
  simp only [failed, ne_eq, not_false_eq_true, if_true]
  refine State.stwFirst_captures _ _ _ _ _ ?_
  unfold State.on at empty ⊢
  rwa [State.rd_wr_reg _ _ _ _ _ _ _ _ (by decide), State.rd_wr_reg _ _ _ _ _ _ _ _ (by decide)]

/-- A command ends in the registers, in its descriptor and at most by a ring. -/
theorem State.endCopy_eq (s : State) (j : Job) (code : Nat) :
    ∃ r, s.endCopy j code = ({ s.showEnd j code with rings := r } : State).putJob (j.endedWith code) := by
  unfold State.endCopy
  change ∃ r, (if j.doneBell.testBit 15 && !j.echo then (s.showEnd j code).sendRing j.p (bits j.doneBell 0 12) 1 (0x20 + j.g)
    else s.showEnd j code).putJob (j.endedWith code) = _
  split
  · exact ⟨_, rfl⟩
  · exact ⟨(s.showEnd j code).rings, rfl⟩

theorem State.rd_endCopy_shown (s : State) (j : Job) (code : Nat) (f : Fld) (i k : Nat) :
    (s.endCopy j code).rd f i k = (s.showEnd j code).rd f i k := by
  obtain ⟨r, e⟩ := s.endCopy_eq j code
  rw [e]
  rfl

theorem State.rd_endCopy (s : State) (j : Job) (code : Nat) :
    (s.endCopy j code).rd F.STW_PROG_LAST_CODE j.g j.engine = code % 2 ^ 8 ∧ (s.endCopy j code).rd F.STW_CMD_ACTIVE j.g j.engine = 0 := by
  simpa only [State.rd_endCopy_shown] using s.rd_showEnd j code

/-- An end leaves memory and the fault collector's side. -/
theorem State.endCopy_frame (s : State) (j : Job) (code : Nat) : (s.endCopy j code).mem = s.mem ∧ (s.endCopy j code).fc = s.fc := by
  obtain ⟨r, e⟩ := s.endCopy_eq j code
  rw [e]
  have shown := s.onlyRegs_showEnd j code
  unfold onlyRegs at shown
  exact ⟨by rw [shown]; rfl, by rw [shown]; rfl⟩

/-- The only descriptor of the device stays its only one as its command ends. -/
theorem State.jobs_endCopy {s : State} {j : Job} (alone : s.jobs = [j]) (code : Nat) : (s.endCopy j code).jobs = [j.endedWith code] := by
  obtain ⟨r, e⟩ := s.endCopy_eq j code
  have shown : (s.showEnd j code).jobs = s.jobs := by rw [s.onlyRegs_showEnd j code]
  have same : (j.endedWith code).id = j.id := by
    obtain ⟨b, e⟩ := j.fail_eq 0x0A code 0
    unfold Job.endedWith
    rw [e]
    split <;> rfl
  rw [e]
  simp [State.putJob, shown, alone, same]

/-- A descriptor whose command failed will not end OK. -/
theorem Job.bad_endedWith (j : Job) {code : Nat} (failed : code ≠ 0) : (j.endedWith code).bad.isSome = true := by
  simp only [Job.endedWith, failed, if_false, Job.fail]
  split
  · assumption
  · rfl

/-! ### Engines and their commands (R152) -/

theorem State.group_of_copyOn {s : State} {g e : Nat} {j : Job} (found : s.copyOn g e = some j) : j.g = g := by
  have running := List.find?_some found
  simp only [Bool.and_eq_true, decide_eq_true_eq] at running
  exact running.1.1

/-- An engine whose command goes on begins no other. -/
theorem State.nextCopy_active {s : State} {g e : Nat} (active : s.on F.STW_CMD_ACTIVE g e = true) (fuel : Nat) : s.nextCopy g e fuel = s := by
  cases fuel with
  | zero => rfl
  | succ fuel => exact if_pos active

/-- An engine for which no command is staged begins none. -/
theorem State.nextCopy_none {s : State} {g e : Nat} (empty : s.copyOn g e = none) (fuel : Nat) : s.nextCopy g e fuel = s := by
  cases fuel with
  | zero => rfl
  | succ fuel =>
    unfold State.nextCopy
    rw [empty]
    split <;> rfl

/-- When the only command of the device has ended none is staged. -/
theorem State.copyOn_endCopy {s : State} {j : Job} (alone : s.jobs = [j]) (code g e : Nat) : (s.endCopy j code).copyOn g e = none := by
  unfold State.copyOn
  rw [State.jobs_endCopy alone]
  simp [Job.endedWith]

/-! ### READY (R133, R448) -/

/-- The state in which READY shows the slot or row that `j` has just written, a progress event of its partition. -/
def State.readyShown (s : State) (j : Job) : State := (s.wr F.STW_PROG_READY ((j.rows + 1) % 2048) j.g j.engine).progress j.p

theorem State.hang_setHang_same (s : State) (p : Nat) (x : HangSt) : (s.setHang p x).hang p = x := by
  unfold State.hang State.setHang agetD
  rw [aget_aset_same, Option.getD_some]

theorem State.ready_readyShown (s : State) (j : Job) :
    (s.readyShown j).rd F.STW_PROG_READY j.g j.engine = (j.rows + 1) % 2048 ∧ ((s.readyShown j).hang j.p).progress = s.now := by
  constructor
  · exact (s.rd_wr_same F.STW_PROG_READY _ j.g j.engine).trans (Nat.mod_mod _ 2048)
  · unfold State.readyShown State.progress
    rw [State.hang_setHang_same]
    rfl

/-- After READY has risen the header is written; the command then ends, its layout complete or its header not written, or goes on. -/
theorem State.copyRaise_cases (s : State) (j : Job) : ∃ s' j', onlyStored (s.readyShown j) s' ∧ j'.g = j.g ∧ j'.engine = j.engine ∧
    ((∃ c, s.copyRaise j = s'.endCopy j' c) ∨ s.copyRaise j = s'.putJob j') := by
  unfold State.copyRaise
  extract_lets n total j₁ s₁ w
  have wrote : onlyStored s₁ w.2.1 ∧ w.2.2.g = j.g ∧ w.2.2.unit = j.unit := by
    simp only [w]
    split
    · exact ⟨onlyStored_refl s₁, rfl, rfl⟩
    · obtain ⟨l, d, e⟩ := s₁.jobWrite_job j₁ (0x20 + j₁.g) (j₁.dstAddr + 24) (natLe 2 n ++ natLe 1 (if n = total then 1 else 0))
      exact ⟨s₁.onlyStored_jobWrite _ _ _ _, by rw [e], by rw [e]⟩
  clear_value w
  obtain ⟨c, s₂, j₂⟩ := w
  obtain ⟨stored, group, unit⟩ := wrote
  have engine (j' : Job) (h : j'.unit = j₂.unit) : j'.engine = j.engine := by rw [Job.engine, h, unit, Job.engine]
  cases c with
  | none =>
    refine ⟨s₂, j₂, stored, group, engine j₂ rfl, ?_⟩
    dsimp only
    split
    · exact Or.inl ⟨0, rfl⟩
    · exact Or.inr rfl
  | some c =>
    dsimp only
    unfold State.failCopy
    split
    · exact ⟨s₂, j₂, stored, group, engine j₂ rfl, Or.inl ⟨_, rfl⟩⟩
    · obtain ⟨l, d, e⟩ := s₂.jobWrite_job j₂ (0x20 + j₂.g) (j₂.dstAddr + 26) (natLe 1 2 ++ natLe 1 (stwCode c))
      refine ⟨_, _, stored.trans (s₂.onlyStored_jobWrite _ _ _ _), ?_, engine _ ?_, Or.inl ⟨_, rfl⟩⟩
      · rw [e]; exact group
      · rw [e]

/-- Where a copy goes on, READY shows the slots and rows written and the watchdog of its partition restarts. -/
theorem State.copyRaise_active (s : State) (j : Job) (active : (s.copyRaise j).on F.STW_CMD_ACTIVE j.g j.engine = true) :
    (s.copyRaise j).rd F.STW_PROG_READY j.g j.engine = (j.rows + 1) % 2048 ∧ ((s.copyRaise j).hang j.p).progress = s.now := by
  obtain ⟨s', j', stored, group, engine, ⟨c, ended⟩ | goes⟩ := s.copyRaise_cases j
  · have idle := (s'.rd_endCopy j' c).2
    rw [group, engine] at idle
    rw [ended, State.on, idle] at active
    exact absurd active (by decide)
  · obtain ⟨ready, progress⟩ := s.ready_readyShown j
    have hang : (s'.putJob j').hang j.p = (s.readyShown j).hang j.p := by
      rw [stored.parts]
      rfl
    rw [goes, hang]
    exact ⟨(stored.regs F.STW_PROG_READY _ _ (by decide)).trans ready, progress⟩

/-! ### The statement -/

/-- A slot or row written without error raises READY; a command staged behind begins where that ended the copy. -/
theorem exec_stairwaySlotWritten_raises {s s₁ : State} {g e : Nat} {j j₁ : Job} (t : Nat) (group : g < 16) (engine : e < 4)
    (found : s.copyOn g e = some j) (active : s.on F.STW_CMD_ACTIVE g e = true) (row : (s.tick t).copyRow j = (none, s₁, j₁)) :
    exec (.stairwaySlotWritten t g e) s = .next ((s₁.copyRaise j₁).nextCopy g e 2) := by
  have found' : (s.tick t).copyOn g e = some j := found
  change execStairwaySlotWritten t g e s = _
  simp [execStairwaySlotWritten, group, engine, found', active, row]

/-- The level 1 memory fault that an engine of group `g` reports of an uncorrected error in the source of `j` (R128). -/
def badSource (g : Nat) (j : Job) : Report :=
  { cls := 0, level := 1, master := 0x20 + g, access := 1, part := j.p, source := 0x20 + g }

/-- The state in which an engine has reported what it met in its source. -/
def State.sourceMet (s : State) (g check : Nat) (j : Job) : State :=
  if check = 0 then s.raise (badSource g j)
  else s.accessFault check (dieOf g) (0x20 + g) j.p (j.srcAddr + j.rows * j.srcPitch) false

/-- The code with which a bad source ends a copy (R127). -/
def sourceCode (check : Nat) : Nat := if check = 0 ∨ check = 4 then 5 else 6

theorem State.onlyRead_sourceMet (s : State) (g check : Nat) (j : Job) : onlyRead s (s.sourceMet g check j) := by
  unfold State.sourceMet
  split
  · exact s.onlyRead_raise _
  · exact s.onlyRead_accessFault _ _ _ _ _ _ _

/-- A bad source ends a LINEAR copy, and no other command of the engine begins where none is staged. -/
theorem exec_stairwaySourceError_linear {s : State} {g e check : Nat} {j : Job} (t : Nat) (group : g < 16) (engine : e < 4)
    (known : check < 5) (alone : s.jobs = [j]) (found : s.copyOn g e = some j) (linear : j.layKind = 0)
    (active : s.on F.STW_CMD_ACTIVE g e = true) :
    exec (.stairwaySourceError t g e check) s = .next (((s.tick t).sourceMet g check j).endCopy j (sourceCode check)) := by
  have found' : (s.tick t).copyOn g e = some j := found
  have alone' : ((s.tick t).sourceMet g check j).jobs = [j] := by
    rw [((s.tick t).onlyRead_sourceMet g check j).1]
    exact alone
  have ends : ∀ c, ((s.tick t).sourceMet g check j).failCopy j c = ((s.tick t).sourceMet g check j).endCopy j c := fun c => by
    simp only [State.failCopy, linear, if_true]
  have run : exec (.stairwaySourceError t g e check) s
      = .next ((((s.tick t).sourceMet g check j).failCopy j (sourceCode check)).nextCopy g e 2) := by
    change execStairwaySourceError t g e check s = _
    simp only [execStairwaySourceError, group, engine, known, and_self, decide_true, inst_true, found', State.tick_on, active,
      Bool.not_true, Bool.false_eq_true, if_false]
    rfl
  rw [run, ends, State.nextCopy_none (State.copyOn_endCopy alone' _ g e)]

/-- Settles O28: where ACTIVE stands after READY has risen the copy did not end, and reading, converting and writing a row leave the time;
a bad source is reported, then ends the engine's only command. -/
theorem stairwayCopies : Obligations.StairwayCopies := by
  unfold Obligations.StairwayCopies
  refine ⟨?written, ?uncorrected, ?failed⟩
  case written =>
    rintro s s₁ t g e j j₁ group engine found active row rfl rfl goes
    have now : s₁.now = max s.now t := by
      have kept := (s.tick t).keepsSteps_copyRow j
      rw [row] at kept
      exact kept.now
    obtain ⟨ready, progress⟩ := s₁.copyRaise_active j₁ goes
    refine ⟨s₁.copyRaise j₁, ?_, ready, goes, progress.trans now⟩
    rw [exec_stairwaySlotWritten_raises t group engine found active row, State.nextCopy_active goes]
  case uncorrected =>
    rintro s t g e j group engine alone found rfl linear active first
    obtain rfl := State.group_of_copyOn found
    have empty : ((s.tick t).sourceMet j.g 0 j).on F.STW_FIRST_VALID j.g = false :=
      (State.raise_on (s.tick t) _ _ _ _).trans first
    obtain ⟨last, idle⟩ := ((s.tick t).sourceMet j.g 0 j).rd_endCopy j 5
    obtain ⟨valid, code⟩ := ((s.tick t).sourceMet j.g 0 j).rd_showEnd_first j (code := 5) (by decide) empty
    obtain ⟨mem, fc⟩ := ((s.tick t).sourceMet j.g 0 j).endCopy_frame j 5
    have ended : (((s.tick t).sourceMet j.g 0 j).endCopy j 5).jobs = [j.endedWith 5] :=
      State.jobs_endCopy ((State.raise_jobs (s.tick t) _).trans alone) 5
    refine ⟨_, badSource j.g j, exec_stairwaySourceError_linear t group engine (by decide) alone found linear active, last, idle,
      (State.rd_endCopy_shown _ _ _ _ _ _).trans valid, (State.rd_endCopy_shown _ _ _ _ _ _).trans code, fun x left => ?_, rfl, rfl, rfl, fc,
      sameMem_of_mem (mem.trans (State.raise_mem _ _))⟩
    rw [show sourceCode 0 = 5 from rfl, ended, List.mem_singleton] at left
    rw [left]
    exact ⟨rfl, j.bad_endedWith (by decide)⟩
  case failed =>
    rintro s t g e check j group engine low high alone found rfl linear active capture
    obtain rfl := State.group_of_copyOn found
    obtain ⟨last, idle⟩ := ((s.tick t).sourceMet j.g check j).rd_endCopy j (sourceCode check)
    obtain ⟨mem, -⟩ := ((s.tick t).sourceMet j.g check j).endCopy_frame j (sourceCode check)
    obtain ⟨-, captured, -⟩ := (s.tick t).accessFault_captures check (dieOf j.g) (0x20 + j.g) j.p (j.srcAddr + j.rows * j.srcPitch) false 0
      capture (by omega)
    have met : (s.tick t).sourceMet j.g check j
        = (s.tick t).accessFault check (dieOf j.g) (0x20 + j.g) j.p (j.srcAddr + j.rows * j.srcPitch) false := if_neg (by omega)
    refine ⟨_, exec_stairwaySourceError_linear t group engine (by omega) alone found linear active, last.trans ?_, idle, ?_,
      sameMem_of_mem (mem.trans ?_)⟩
    · have checked : check ≠ 0 := by omega
      by_cases poisoned : check = 4 <;> simp [sourceCode, checked, poisoned]
    · rw [State.rd_endCopy_shown, State.rd_showEnd_other _ _ _ _ _ _ (by decide) (by decide) (by decide), met]
      exact captured
    · rw [((s.tick t).onlyRead_sourceMet j.g check j).1]
      rfl

end Sys2Proof.Machine
end

section
/-!
PROOFS of the statements of spec/07: the contexts of a sequencer, what AG_CTX shows of them, and how a halted context goes on (O34).
-/

namespace Sys2Proof.Machine

/-! ### Contexts -/

@[simp] theorem State.ctx_wr (s : State) (f : Fld) (v i j g c : Nat) : (s.wr f v i j).ctx g c = s.ctx g c := rfl

theorem State.ctx_congr {a b : State} (h : a.ctxs = b.ctxs) (g c : Nat) : a.ctx g c = b.ctx g c :=
  congrArg (fun m => aget m (8 * g + c)) h

/-- A context reads as it was changed; one that is not open stays so. -/
@[simp] theorem State.ctx_updCtx (s : State) (g c : Nat) (f : CtxSt → CtxSt) : (s.updCtx g c f).ctx g c = (s.ctx g c).map f := by
  unfold State.updCtx
  cases e : s.ctx g c with
  | none => exact e
  | some x => exact aget_aset_same _ _ _

/-- A change of a context leaves everything but the contexts. -/
theorem State.updCtx_frame (s : State) (g c : Nat) (f : CtxSt → CtxSt) : s.updCtx g c f = { s with ctxs := (s.updCtx g c f).ctxs } := by
  unfold State.updCtx
  split <;> rfl

@[simp] theorem State.rd_updCtx (s : State) (g c : Nat) (f : CtxSt → CtxSt) (fld : Fld) (i j : Nat) :
    (s.updCtx g c f).rd fld i j = s.rd fld i j := by
  rw [s.updCtx_frame g c f]
  rfl

/-! ### What AG_CTX shows (R285, R163) -/

/-- AG_CTX STATE of an open context: a halted one stays halted. -/
def State.ctxState (s : State) (g c : Nat) (x : CtxSt) : Nat :=
  if s.rd F.AG_CTX_STATE g c = 2 then 2
  else match x.head with
    | some h => if h.waits then 3 else 1
    | none => if (s.jobsOf g c).isEmpty then 0 else 1

/-- The idle timer of a group restarts where a context of it shows work or a new state. -/
def State.stateStirred (s : State) (g c st : Nat) : State := if s.rd F.AG_CTX_STATE g c ≠ st ∨ st % 2 = 1 then s.stirred g else s

theorem State.showCtx_open {s : State} {g c : Nat} {x : CtxSt} (there : s.ctx g c = some x) : s.showCtx g c =
    (((s.stateStirred g c (s.ctxState g c x)).wr F.AG_CTX_STATE (s.ctxState g c x) g c).wr F.AG_CTX_LEVEL
      ((x.region.map (fun r => r.level)).getD 0) g c).wrB F.AG_CTX_IN_REGION x.region.isSome g c := by
  unfold State.showCtx
  rw [there]
  rfl

theorem State.stateStirred_frame (s : State) (g c st : Nat) : s.stateStirred g c st = { s with pwr := (s.stateStirred g c st).pwr } := by
  unfold State.stateStirred
  split <;> rfl

/-- What AG_CTX shows changes its fields and the idle timers. -/
theorem State.showCtx_frame (s : State) (g c : Nat) :
    s.showCtx g c = { s with regs := (s.showCtx g c).regs, pwr := (s.showCtx g c).pwr } := by
  cases there : s.ctx g c with
  | none =>
    unfold State.showCtx
    rw [there]
  | some x =>
    rw [State.showCtx_open there, s.stateStirred_frame g c (s.ctxState g c x)]
    rfl

@[simp] theorem State.ctx_showCtx (s : State) (g c g' c' : Nat) : (s.showCtx g c).ctx g' c' = s.ctx g' c' := by
  rw [s.showCtx_frame g c]
  rfl

theorem State.rd_stateStirred (s : State) (g c st : Nat) (f : Fld) (i j : Nat) : (s.stateStirred g c st).rd f i j = s.rd f i j := by
  rw [s.stateStirred_frame g c st]
  rfl

theorem State.rd_showCtx_reg (s : State) (g c : Nat) (f : Fld) (i j : Nat) (other : f.reg ≠ .AG_CTX) : (s.showCtx g c).rd f i j = s.rd f i j := by
  cases there : s.ctx g c with
  | none =>
    unfold State.showCtx
    rw [there]
  | some x =>
    rw [State.showCtx_open there, State.wrB, State.rd_wr_reg _ _ f _ _ _ _ _ other, State.rd_wr_reg _ _ f _ _ _ _ _ other,
      State.rd_wr_reg _ _ f _ _ _ _ _ other, State.rd_stateStirred]

theorem State.ctxState_lt (s : State) (g c : Nat) (x : CtxSt) : s.ctxState g c x < 4 := by
  unfold State.ctxState
  split
  · decide
  · split <;> split <;> decide

theorem State.ctxState_ne_halted {s : State} {g c : Nat} (x : CtxSt) (runs : s.rd F.AG_CTX_STATE g c ≠ 2) : s.ctxState g c x ≠ 2 := by
  unfold State.ctxState
  rw [if_neg runs]
  split <;> split <;> decide

/-- AG_CTX shows the state, level and region of a context. -/
theorem State.rd_showCtx {s : State} {g c : Nat} {x : CtxSt} (there : s.ctx g c = some x) :
    (s.showCtx g c).rd F.AG_CTX_STATE g c = s.ctxState g c x ∧
    (s.showCtx g c).rd F.AG_CTX_LEVEL g c = (x.region.map (fun r => r.level)).getD 0 % 8 ∧
    (s.showCtx g c).on F.AG_CTX_IN_REGION g c = x.region.isSome := by
  rw [State.showCtx_open there]
  refine ⟨?_, ?_, State.on_wrB_same _ F.AG_CTX_IN_REGION _ g c rfl⟩
  · rw [State.wrB, State.rd_wr_lsb _ _ _ _ _ _ _ _ (by decide), State.rd_wr_lsb _ _ _ _ _ _ _ _ (by decide), State.rd_wr_same]
    exact Nat.mod_eq_of_lt (s.ctxState_lt g c x)
  · rw [State.wrB, State.rd_wr_lsb _ _ _ _ _ _ _ _ (by decide), State.rd_wr_same]
    rfl

/-! ### What a context's way out of HALTED changes (R164) -/

/-- Memory and every register but AG_CTX and PCI_RING are as before. -/
structure onlyCtxRegs (s s' : State) : Prop where
  regs : sameRegsBut [.AG_CTX, .PCI_RING] s s'
  mem : sameMem s s'

theorem onlyCtxRegs_refl (s : State) : onlyCtxRegs s s := ⟨fun _ _ _ _ => rfl, fun _ => rfl⟩

theorem onlyCtxRegs.trans {a b c : State} (h : onlyCtxRegs a b) (h' : onlyCtxRegs b c) : onlyCtxRegs a c :=
  ⟨fun f i j out => (h'.regs f i j out).trans (h.regs f i j out), fun a => (h'.mem a).trans (h.mem a)⟩

theorem onlyCtxRegs.wr {a b : State} (h : onlyCtxRegs a b) (f : Fld) (v i j : Nat) (mem : f.reg ∈ [Reg.AG_CTX, Reg.PCI_RING] := by decide) :
    onlyCtxRegs a (b.wr f v i j) :=
  h.trans ⟨fun g i' j' out => b.rd_wr_reg f g v i j i' j' (fun e => out (e ▸ mem)), fun _ => rfl⟩

theorem onlyCtxRegs.updCtx {a b : State} (h : onlyCtxRegs a b) (g c : Nat) (f : CtxSt → CtxSt) : onlyCtxRegs a (b.updCtx g c f) :=
  h.trans ⟨fun _ _ _ _ => b.rd_updCtx g c f _ _ _, sameMem_of_mem (by rw [b.updCtx_frame g c f])⟩

theorem onlyCtxRegs.showCtx {a b : State} (h : onlyCtxRegs a b) (g c : Nat) : onlyCtxRegs a (b.showCtx g c) :=
  h.trans ⟨fun f i j out => b.rd_showCtx_reg g c f i j (fun e => out (by simp [e])), sameMem_of_mem (by rw [b.showCtx_frame g c])⟩

/-- A head that is dropped: its reservation goes back and its wait is dropped. -/
def State.waitDropped (s : State) (g c : Nat) : State :=
  match s.waits.find? (fun w => decide (w.g = g) && decide (w.c = c)) with
  | none => s
  | some w => ({ s with waits := s.waits.filter (fun x => x ≠ w) } : State).stirred ((s.homeOf w.p).getD g)

theorem State.waitDropped_frame (s : State) (g c : Nat) :
    s.waitDropped g c = { s with waits := (s.waitDropped g c).waits, pwr := (s.waitDropped g c).pwr } := by
  unfold State.waitDropped
  split <;> rfl

theorem State.dropHead_none {s : State} {g c : Nat} {x : CtxSt} (there : s.ctx g c = some x) (empty : x.head = none) :
    s.dropHead g c = s := by
  simp [State.dropHead, there, empty]

theorem State.dropHead_some {s : State} {g c : Nat} {x : CtxSt} {h : Head} (there : s.ctx g c = some x) (head : x.head = some h) :
    s.dropHead g c = ((s.unreserve g c).updCtx g c (fun x => { x with head := none })).waitDropped g c := by
  unfold State.dropHead
  rw [there, Option.bind_some, head]
  rfl

/-- A context whose head is dropped keeps everything but the head. -/
theorem State.ctx_dropHead {s : State} {g c : Nat} {x : CtxSt} (there : s.ctx g c = some x) :
    (s.dropHead g c).ctx g c = some { x with head := none } := by
  cases head : x.head with
  | none => rw [State.dropHead_none there head, there, ← head]
  | some h =>
    rw [State.dropHead_some there head, State.waitDropped_frame]
    show (State.updCtx _ g c _).ctx g c = _
    rw [State.ctx_updCtx]
    show (s.ctx g c).map _ = _
    rw [there, Option.map_some]

/-- Dropping a head gives back its reservation and leaves every other field. -/
theorem State.rd_dropHead (s : State) (g c : Nat) (f : Fld) (i j : Nat)
    (other : f.reg ≠ .PCI_RING ∨ f.lsb ≠ F.PCI_RING_RESERVED_SLOTS.lsb) : (s.dropHead g c).rd f i j = s.rd f i j := by
  have back : (s.unreserve g c).rd f i j = s.rd f i j :=
    other.elim (s.rd_wr_reg F.PCI_RING_RESERVED_SLOTS f _ g c i j) (s.rd_wr_lsb F.PCI_RING_RESERVED_SLOTS f _ g c i j)
  cases there : s.ctx g c with
  | none => simp [State.dropHead, there]
  | some x =>
    cases head : x.head with
    | none => rw [State.dropHead_none there head]
    | some h =>
      rw [State.dropHead_some there head, State.waitDropped_frame]
      exact (State.rd_updCtx _ g c _ f i j).trans back

theorem State.mem_dropHead (s : State) (g c : Nat) : (s.dropHead g c).mem = s.mem := by
  cases there : s.ctx g c with
  | none => simp [State.dropHead, there]
  | some x =>
    cases head : x.head with
    | none => rw [State.dropHead_none there head]
    | some h =>
      rw [State.dropHead_some there head, State.waitDropped_frame, State.updCtx_frame]
      rfl

theorem onlyCtxRegs.dropHead {a b : State} (h : onlyCtxRegs a b) (g c : Nat) : onlyCtxRegs a (b.dropHead g c) :=
  h.trans ⟨fun f i j out => b.rd_dropHead g c f i j (.inl (fun e => out (by simp [e]))), sameMem_of_mem (b.mem_dropHead g c)⟩

/-! ### Leaving HALTED (R164, R179) -/

/-- A halted context no longer halted, with nothing left of a closed region. -/
def State.unhalted (s : State) (g c : Nat) : State :=
  (s.wr F.AG_CTX_STATE 0 g c).updCtx g c (fun y => { y with closed := none, endRefused := false })

/-- A region that starts its present level again. -/
def RegionSt.fresh (r : RegionSt) : RegionSt := { r with withheld := [], stop := none, due := false, ovf := [], pos := 0 }

/-- The completion slot reserved for a record that a region still holds goes back. -/
def State.stopFreed (s : State) (g c : Nat) (r : RegionSt) : State := if r.stop.isSome && !r.due then s.unreserve g c else s

/-- The unhalted context without a head. -/
def State.unheaded (s : State) (g c : Nat) : State := (s.unhalted g c).dropHead g c

section LeaveHalt
variable {s : State} {g c : Nat} {x : CtxSt} (there : s.ctx g c = some x)
include there

theorem State.leaveHalt_running (retry : Bool) (runs : s.rd F.AG_CTX_STATE g c ≠ 2) : s.leaveHalt g c retry = s := by
  simp [State.leaveHalt, there, runs]

variable (halted : s.rd F.AG_CTX_STATE g c = 2)
include halted

theorem State.leaveHalt_resume (outside : x.region = none) : s.leaveHalt g c false = (s.unhalted g c).showCtx g c := by
  have dead : x.closed.filter (fun _ => x.endRefused && false) = none := by simp
  unfold State.leaveHalt
  rw [there]
  dsimp only
  rw [if_neg (not_not.mpr halted), outside, dead]
  rfl

theorem State.leaveHalt_retry (outside : x.region = none) (kept : x.closed = none ∨ x.endRefused = false) :
    s.leaveHalt g c true = ((s.unheaded g c).wr F.PCI_RING_SQ_HEAD x.haltAt g c).showCtx g c := by
  have none_ : x.closed.filter (fun _ => x.endRefused && true) = none := by
    rcases kept with e | e <;> simp [e]
  unfold State.leaveHalt
  rw [there]
  dsimp only
  rw [if_neg (not_not.mpr halted), outside, none_]
  rfl

theorem State.leaveHalt_reopen {r : RegionSt} (outside : x.region = none) (closed : x.closed = some r) (refused : x.endRefused = true) :
    s.leaveHalt g c true = ((s.unheaded g c).reopen g c x.haltAt r).showCtx g c := by
  have due : x.closed.filter (fun _ => x.endRefused && true) = some r := by simp [closed, refused]
  unfold State.leaveHalt
  rw [there]
  dsimp only
  rw [if_neg (not_not.mpr halted), outside, due]
  rfl

theorem State.leaveHalt_resume_region {r : RegionSt} (inside : x.region = some r) : s.leaveHalt g c false =
    ((((s.unheaded g c).stopFreed g c r).updCtx g c (fun y => { y with region := none })).wr F.PCI_RING_SQ_HEAD (r.start + r.span) g
      c).showCtx g c := by
  simp [State.leaveHalt, there, halted, inside, State.unheaded, State.unhalted, State.stopFreed]

theorem State.leaveHalt_retry_region {r : RegionSt} (inside : x.region = some r) : s.leaveHalt g c true =
    (let a := ((s.unheaded g c).stopFreed g c r).updCtx g c (fun y => { y with region := some r.fresh })
     if r.level = 0 then a.wr F.PCI_RING_SQ_HEAD (r.start + 1) g c else a).showCtx g c := by
  simp [State.leaveHalt, there, halted, inside, State.unheaded, State.unhalted, State.stopFreed, RegionSt.fresh]

end LeaveHalt

/-- Context `c` of group `g` stands as `y`, out of HALTED and with its ring's head at `h`; memory and the other registers are as before. -/
structure outOfHalt (g c : Nat) (y : CtxSt) (h : Nat) (s s' : State) : Prop where
  state : s'.rd F.AG_CTX_STATE g c ≠ 2
  ctx : s'.ctx g c = some y
  head : s'.rd F.PCI_RING_SQ_HEAD g c = h
  kept : onlyCtxRegs s s'

section OutOfHalt
variable {g c h : Nat} {x y : CtxSt} {s a : State}

theorem outOfHalt_unhalted (there : s.ctx g c = some x) :
    outOfHalt g c { x with closed := none, endRefused := false } (s.rd F.PCI_RING_SQ_HEAD g c) s (s.unhalted g c) where
  state := by
    rw [State.unhalted, State.rd_updCtx, State.rd_wr_same]
    decide
  ctx := by rw [State.unhalted, State.ctx_updCtx, State.ctx_wr, there, Option.map_some]
  head := by
    rw [State.unhalted, State.rd_updCtx]
    exact s.rd_wr_reg F.AG_CTX_STATE F.PCI_RING_SQ_HEAD 0 g c g c (by decide)
  kept := ((onlyCtxRegs_refl s).wr F.AG_CTX_STATE 0 g c).updCtx g c _

theorem outOfHalt.dropHead (out : outOfHalt g c y h s a) : outOfHalt g c { y with head := none } h s (a.dropHead g c) where
  state := by rw [a.rd_dropHead g c F.AG_CTX_STATE g c (.inl (by decide))]; exact out.state
  ctx := State.ctx_dropHead out.ctx
  head := (a.rd_dropHead g c F.PCI_RING_SQ_HEAD g c (.inr (by decide))).trans out.head
  kept := out.kept.dropHead g c

theorem outOfHalt_unheaded (there : s.ctx g c = some x) :
    outOfHalt g c { x with head := none, closed := none, endRefused := false } (s.rd F.PCI_RING_SQ_HEAD g c) s (s.unheaded g c) :=
  (outOfHalt_unhalted there).dropHead

theorem outOfHalt.stopFreed (out : outOfHalt g c y h s a) (r : RegionSt) : outOfHalt g c y h s (a.stopFreed g c r) := by
  unfold State.stopFreed
  split
  · exact ⟨by rw [State.unreserve, State.rd_wr_reg _ _ _ _ _ _ _ _ (by decide)]; exact out.state, out.ctx,
      (a.rd_wr_lsb F.PCI_RING_RESERVED_SLOTS F.PCI_RING_SQ_HEAD _ g c g c (by decide)).trans out.head, out.kept.wr _ _ g c⟩
  · exact out

theorem outOfHalt.setRegion (out : outOfHalt g c y h s a) (r : Option RegionSt) :
    outOfHalt g c { y with region := r } h s (a.updCtx g c (fun y => { y with region := r })) where
  state := by rw [State.rd_updCtx]; exact out.state
  ctx := by rw [State.ctx_updCtx, out.ctx, Option.map_some]
  head := (State.rd_updCtx _ _ _ _ _ _ _).trans out.head
  kept := out.kept.updCtx g c _

theorem outOfHalt.setHead (out : outOfHalt g c y h s a) (v : Nat) :
    outOfHalt g c y (v % 65536) s (a.wr F.PCI_RING_SQ_HEAD v g c) where
  state := by rw [State.rd_wr_reg _ _ _ _ _ _ _ _ (by decide)]; exact out.state
  ctx := out.ctx
  head := a.rd_wr_same F.PCI_RING_SQ_HEAD v g c
  kept := out.kept.wr _ v g c

/-- The ring's head moves at level 0 and stays in a level segment. -/
theorem outOfHalt.setHead_level (out : outOfHalt g c y h s a) (level v : Nat) :
    outOfHalt g c y (if level = 0 then v % 65536 else h) s (if level = 0 then a.wr F.PCI_RING_SQ_HEAD v g c else a) := by
  split
  · exact out.setHead v
  · exact out

theorem outOfHalt.showCtx (out : outOfHalt g c y h s a) : outOfHalt g c y h s (a.showCtx g c) where
  state := by
    rw [(State.rd_showCtx out.ctx).1]
    exact State.ctxState_ne_halted y out.state
  ctx := (a.ctx_showCtx g c g c).trans out.ctx
  head := (a.rd_showCtx_reg g c F.PCI_RING_SQ_HEAD g c (by decide)).trans out.head
  kept := out.kept.showCtx g c

end OutOfHalt

/-- RESUME outside a region changes AG_CTX, the context and the group's idle timer alone. -/
theorem State.unhalted_showCtx_frame (s : State) (g c : Nat) : sameRegsBut [.AG_CTX] s ((s.unhalted g c).showCtx g c) ∧
    (s.unhalted g c).showCtx g c = { s with
      regs := ((s.unhalted g c).showCtx g c).regs, ctxs := ((s.unhalted g c).showCtx g c).ctxs, pwr := ((s.unhalted g c).showCtx g c).pwr } := by
  refine ⟨fun f i j out => ?_, ?_⟩
  · have other : f.reg ≠ .AG_CTX := fun e => out (by simp [e])
    rw [State.rd_showCtx_reg _ g c f i j other, State.unhalted, State.rd_updCtx]
    exact s.rd_wr_reg F.AG_CTX_STATE f 0 g c i j other
  · rw [State.showCtx_frame, State.unhalted, State.updCtx_frame]
    rfl

/-! ### O34 -/

section Commands
variable {s : State} {g c : Nat} (t : Nat) (group : g < 16) (context : c < 8) (there : s.closedReg .AG_CTX g = false)
  (runs : s.groupRuns g = true)
include group context there runs

theorem exec_contextResume_runs : exec (.contextResume t g c) s = .next ((s.tick t).leaveHalt g c false) :=
  (if_pos (by simp [group, context])).trans (congrArg Host.Outcome.next ((s.tick t).windowWrite_mgt g .AG_CTX g c _ _ there runs))

theorem exec_contextRetry_runs : exec (.contextRetry t g c) s = .next ((s.tick t).leaveHalt g c true) :=
  (if_pos (by simp [group, context])).trans (congrArg Host.Outcome.next ((s.tick t).windowWrite_mgt g .AG_CTX g c _ _ there runs))

end Commands

/-- A context that is not halted, or not open, stays as it is. -/
theorem State.leaveHalt_not_halted (s : State) (g c : Nat) (retry : Bool) (runs : s.rd F.AG_CTX_STATE g c ≠ 2) :
    s.leaveHalt g c retry = s := by
  cases there : s.ctx g c with
  | none => simp [State.leaveHalt, there]
  | some x => exact State.leaveHalt_running there retry runs

/-- Settles O34: by whether the context stands in a region, outside one, or behind a REGION_END whose ring was refused; each way out of HALTED
is a chain of steps that keep the context out of HALTED. -/
theorem leavingHalted : Obligations.LeavingHalted := by
  unfold Obligations.LeavingHalted
  refine ⟨?_, ?_, ?_, ?_, ?_, ?_⟩
  · intro s t g c x group context shown runs there outside halted
    have there' : (s.tick t).ctx g c = some x := there
    obtain ⟨state, ctx, head, _⟩ := (outOfHalt_unhalted there').showCtx
    obtain ⟨regs, frame⟩ := (s.tick t).unhalted_showCtx_frame g c
    refine ⟨_, (exec_contextResume_runs t group context shown runs).trans
      (congrArg Host.Outcome.next (State.leaveHalt_resume there' halted outside)), state, ctx, head, regs, ?_⟩
    rw [frame]
    rfl
  · intro s t g c x group context shown runs there outside kept halted
    have there' : (s.tick t).ctx g c = some x := there
    obtain ⟨state, ctx, head, regs, mem⟩ := ((outOfHalt_unheaded there').setHead x.haltAt).showCtx
    exact ⟨_, _, (exec_contextRetry_runs t group context shown runs).trans
      (congrArg Host.Outcome.next (State.leaveHalt_retry there' halted outside kept)), state, ctx, rfl, outside, head, regs, mem⟩
  · intro s t g c x r group context shown runs there inside halted
    have there' : (s.tick t).ctx g c = some x := there
    obtain ⟨state, ctx, head, regs, mem⟩ :=
      ((((outOfHalt_unheaded there').stopFreed r).setRegion none).setHead (r.start + r.span)).showCtx
    exact ⟨_, _, (exec_contextResume_runs t group context shown runs).trans
      (congrArg Host.Outcome.next (State.leaveHalt_resume_region there' halted inside)), state, ctx, rfl, rfl, head, regs, mem⟩
  · intro s t g c x r group context shown runs there inside halted
    have there' : (s.tick t).ctx g c = some x := there
    obtain ⟨state, ctx, head, regs, mem⟩ :=
      ((((outOfHalt_unheaded there').stopFreed r).setRegion (some r.fresh)).setHead_level r.level (r.start + 1)).showCtx
    exact ⟨_, _, (exec_contextRetry_runs t group context shown runs).trans
      (congrArg Host.Outcome.next (State.leaveHalt_retry_region there' halted inside)), state, ctx, rfl, rfl, head, regs, mem⟩
  · intro s t g c x r group context shown runs there outside closed refused halted
    have there' : (s.tick t).ctx g c = some x := there
    obtain ⟨state, ctx, head, regs, mem⟩ := (((outOfHalt_unheaded there').setRegion
      (some { r with withheld := [], stop := none, due := false, ovf := [], pos := r.segCount - 1 })).setHead_level r.level x.haltAt).showCtx
    exact ⟨_, _, (exec_contextRetry_runs t group context shown runs).trans
      (congrArg Host.Outcome.next (State.leaveHalt_reopen there' halted outside closed refused)), state, ctx, rfl, rfl, head, regs, mem⟩
  · intro s t g c group context shown runs running
    have running' : (s.tick t).rd F.AG_CTX_STATE g c ≠ 2 := running
    exact ⟨(exec_contextResume_runs t group context shown runs).trans (congrArg Host.Outcome.next (State.leaveHalt_not_halted _ g c _ running')),
      (exec_contextRetry_runs t group context shown runs).trans (congrArg Host.Outcome.next (State.leaveHalt_not_halted _ g c _ running'))⟩

end Sys2Proof.Machine
end

section
/-!
PROOFS of the statements of spec/07: what a read that passes its checks leaves, and how a descriptor ends (for O30, O32, O33).
-/

namespace Sys2Proof.Machine

/-! ### Reads that pass their checks (R208) -/

/-- The captured access fault is as before. -/
def keepsCapture (s s' : State) : Prop := ∀ (f : Fld) (i j : Nat), f.reg = .PGM_FAULT → s'.rd f i j = s.rd f i j

theorem keepsCapture_refl (s : State) : keepsCapture s s := fun _ _ _ _ => rfl

theorem keepsCapture.trans {a b c : State} (h : keepsCapture a b) (h' : keepsCapture b c) : keepsCapture a c :=
  fun f i j cap => (h' f i j cap).trans (h f i j cap)

theorem keepsCapture_foldl {α : Type} {step : State → α → State} (h : ∀ s x, keepsCapture s (step s x)) (l : List α) (s : State) :
    keepsCapture s (l.foldl step s) := foldl_related keepsCapture keepsCapture_refl (fun _ _ _ => keepsCapture.trans) h l s

theorem keepsCapture.wr {a b : State} (h : keepsCapture a b) (f : Fld) (v i j : Nat) (other : f.reg ≠ .PGM_FAULT := by decide) :
    keepsCapture a (b.wr f v i j) :=
  h.trans (fun g i' j' cap => b.rd_wr_reg f g v i j i' j' (fun e => other (e.symm.trans cap)))

theorem keepsCapture_of_regs {s s' : State} (h : s'.regs = s.regs) : keepsCapture s s' := fun f i j _ => State.rd_congr h f i j

theorem keepsCapture_memx (s : State) (m : MemSt) : keepsCapture s { s with memx := m } := keepsCapture_of_regs rfl

theorem State.keepsCapture_draw (s : State) (p r unit need : Nat) (pool : Bool) : keepsCapture s (s.draw p r unit need pool) := by
  unfold State.draw
  split
  · exact (((keepsCapture_refl s).wr F.BWG_STATE_LEVEL _ _ _).wr F.BWG_SPENT_SPENT _ _ _).trans (keepsCapture_of_regs rfl)
  · exact keepsCapture_of_regs rfl

theorem State.keepsCapture_regCharge (s : State) (p r unit bytes : Nat) (pool : Bool) : keepsCapture s (s.regCharge p r unit bytes pool) := by
  unfold State.regCharge
  split
  · exact keepsCapture_refl s
  · have whole := keepsCapture_foldl (fun (s : State) (_ : Nat) => s.keepsCapture_draw p r unit 64 pool) (List.range (bytes / 4096)) s
    dsimp only
    split
    · exact whole
    · exact whole.trans (State.keepsCapture_draw _ _ _ _ _ _)

theorem State.keepsCapture_insertLine (s : State) (p g unit line : Nat) (dirty : Bool) :
    keepsCapture s (s.insertLine p g unit line dirty) := by
  unfold State.insertLine
  refine keepsCapture.trans ?_ (keepsCapture_memx _ _)
  split
  · dsimp only
    split
    · exact (keepsCapture_memx s _).trans (State.keepsCapture_regCharge _ _ _ _ _ _)
    · exact keepsCapture_memx s _
  · exact keepsCapture_refl s

theorem State.keepsCapture_lineTraffic (s : State) (p unit line n : Nat) (write pool : Bool) :
    keepsCapture s (s.lineTraffic p unit line n write pool) := by
  unfold State.lineTraffic
  split
  · exact keepsCapture_refl s
  · split
    · split
      · exact keepsCapture_of_regs rfl
      · exact keepsCapture_refl s
    · split
      · refine keepsCapture.trans ?_ (State.keepsCapture_insertLine _ _ _ _ _ _)
        split
        · exact keepsCapture_refl s
        · exact s.keepsCapture_regCharge _ _ _ _ _
      · exact s.keepsCapture_regCharge _ _ _ _ _

theorem State.keepsCapture_traffic (s : State) (cache unit addr n : Nat) (write : Bool) :
    keepsCapture s (s.traffic cache unit addr n write) := by
  unfold State.traffic
  refine keepsCapture_foldl (fun s v => ?_) _ s
  dsimp only
  split
  · exact keepsCapture_refl s
  · split
    · exact keepsCapture_foldl (fun s i => s.keepsCapture_lineTraffic _ _ _ _ _ _) _ s
    · exact s.keepsCapture_regCharge _ _ _ _ _

theorem State.keepsCapture_badRead (s : State) (gk unit p : Nat) : keepsCapture s (s.badRead gk unit p) := by
  unfold State.badRead
  split
  · split
    · exact (keepsCapture_refl s).wr F.MEM_ECC_POISON_READS _ _ _
    · exact keepsCapture_refl s
  · split
    · exact ((keepsCapture_refl s).wr F.CUP_ECC_UNCORRECTED _ _ _).trans (keepsCapture_of_regs (State.raise_regs _ _))
    · exact keepsCapture_refl s

theorem State.regs_fetchPriv (s : State) (ks : List Nat) : (s.fetchPriv ks).regs = s.regs := by
  unfold State.fetchPriv
  split <;> rfl

theorem State.keepsCapture_readKeys (s : State) (unit p : Nat) (ks : List Nat) : keepsCapture s (s.readKeys unit p ks).2.2 :=
  (keepsCapture_foldl (fun s gk => s.keepsCapture_badRead gk unit p) _ s).trans (keepsCapture_of_regs (State.regs_fetchPriv _ ks))

theorem State.regs_pmLookup (s : State) (cache v : Nat) : (s.pmLookup cache v).2.regs = s.regs := by
  unfold State.pmLookup
  split <;> rfl

/-- Checks that pass write no register. -/
theorem State.regs_of_checkAccess {s s' : State} {cache unit p addr n aux : Nat} {write mirror : Bool}
    (h : s.checkAccess cache unit p addr n write mirror aux = (none, s')) : s'.regs = s.regs := by
  have passed : ∀ r : Option Nat × State, r = s.checkAccess cache unit p addr n write mirror aux → r.1 = none → r.2.regs = s.regs := by
    rintro _ rfl
    unfold State.checkAccess
    refine List.foldlRecOn (motive := fun r : Option Nat × State => r.1 = none → r.2.regs = s.regs) _ _ (fun _ => rfl) ?_
    intro r kept v _
    dsimp only
    split
    · nofun
    · next open_ =>
      split
      · exact fun _ => (r.2.regs_pmLookup cache v).trans (kept open_)
      · nofun
  exact passed _ h.symm rfl

theorem State.onlyRead_of_devRead {s s' : State} {cache unit p addr n : Nat} {r : Option Nat} {b : Bytes} {bad : Bool}
    (h : s.devRead cache unit p addr n = (r, b, bad, s')) : onlyRead s s' := by
  have got := s.onlyRead_devRead cache unit p addr n
  rwa [h] at got

/-- A read that passes its checks leaves every register but the error counters and the regulators'. -/
theorem State.regs_of_devRead {s s' : State} {cache unit p addr n : Nat} {b : Bytes} {bad : Bool}
    (h : s.devRead cache unit p addr n = (none, b, bad, s')) : sameRegsBut [.MEM_ECC, .CUP_ECC, .BWG_STATE, .BWG_SPENT] s s' := by
  have read := State.onlyRead_of_devRead h
  have capture : keepsCapture s s' := by
    unfold State.devRead State.bareRead at h
    cases checked : s.checkAccess cache unit p addr n false false with
    | mk code s₀ =>
      rw [checked] at h
      cases code with
      | some c => exact absurd (congrArg Prod.fst h) nofun
      | none =>
        obtain rfl : _ = s' := congrArg (fun r => r.2.2.2) h
        exact ((keepsCapture_of_regs (State.regs_of_checkAccess checked)).trans (State.keepsCapture_readKeys _ _ _ _)).trans
          (State.keepsCapture_traffic _ _ _ _ _ _)
  intro f i j out
  by_cases cap : f.reg = .PGM_FAULT
  · exact capture f i j cap
  · exact read.2 f i j (by simp_all [readTraces])

/-! ### What the end of a descriptor changes (R153, R163) -/

/-- The second state differs from the first by what a status brings: the fields of the context, its ring and the halts counter, open contexts,
rings sent, reports and idle timers. -/
structure onlyEnding (s s' : State) : Prop where
  parts : s' = { s with regs := s'.regs, ctxs := s'.ctxs, rings := s'.rings, fc := s'.fc, pwr := s'.pwr }
  regs : sameRegsBut [.AG_CTX, .AG_SEQ_EVENTS, .PCI_RING] s s'
  opens : ∀ g c, (s'.ctx g c).isSome = (s.ctx g c).isSome

theorem onlyEnding_refl (s : State) : onlyEnding s s := ⟨rfl, fun _ _ _ _ => rfl, fun _ _ => rfl⟩

theorem onlyEnding.trans {a b c : State} (h : onlyEnding a b) (h' : onlyEnding b c) : onlyEnding a c := by
  refine ⟨?_, fun f i j out => (h'.regs f i j out).trans (h.regs f i j out), fun g k => (h'.opens g k).trans (h.opens g k)⟩
  rw [h'.parts, h.parts]

theorem onlyEnding.wr {a b : State} (h : onlyEnding a b) (f : Fld) (v i j : Nat)
    (mem : f.reg ∈ [Reg.AG_CTX, Reg.AG_SEQ_EVENTS, Reg.PCI_RING] := by decide) : onlyEnding a (b.wr f v i j) :=
  h.trans ⟨rfl, fun g i' j' out => b.rd_wr_reg f g v i j i' j' (fun e => out (e ▸ mem)), fun _ _ => rfl⟩

theorem State.isSome_ctx_updCtx (s : State) (g c : Nat) (f : CtxSt → CtxSt) (g' c' : Nat) :
    ((s.updCtx g c f).ctx g' c').isSome = (s.ctx g' c').isSome := by
  by_cases same : 8 * g' + c' = 8 * g + c
  · have key : ∀ a : State, a.ctx g' c' = a.ctx g c := fun a => congrArg (aget a.ctxs) same
    rw [key, key, State.ctx_updCtx, Option.isSome_map]
  · unfold State.updCtx
    split
    · exact congrArg Option.isSome (aget_aset_other s.ctxs _ _ _ same)
    · rfl

theorem onlyEnding.updCtx {a b : State} (h : onlyEnding a b) (g c : Nat) (f : CtxSt → CtxSt) : onlyEnding a (b.updCtx g c f) := by
  refine h.trans ⟨?_, fun _ _ _ _ => b.rd_updCtx g c f _ _ _, b.isSome_ctx_updCtx g c f⟩
  rw [b.updCtx_frame g c f]

theorem onlyEnding.ringsSent {a b : State} (h : onlyEnding a b) (l : List Ring) : onlyEnding a { b with rings := l } :=
  h.trans ⟨rfl, fun _ _ _ _ => rfl, fun _ _ => rfl⟩

theorem onlyEnding.stirred {a b : State} (h : onlyEnding a b) (g : Nat) : onlyEnding a (b.stirred g) :=
  h.trans ⟨rfl, fun _ _ _ _ => rfl, fun _ _ => rfl⟩

theorem State.ctx_raise (s : State) (r : Report) (g c : Nat) : (s.raise r).ctx g c = s.ctx g c := State.ctx_congr (s.raise_ctxs r) g c

theorem onlyEnding.raise {a b : State} (h : onlyEnding a b) (r : Report) : onlyEnding a (b.raise r) := by
  refine h.trans ⟨?_, fun f i j _ => b.raise_rd r f i j, fun g c => congrArg Option.isSome (b.ctx_raise r g c)⟩
  rw [b.raise_frame r]

/-! ### Halting (R163) -/

theorem State.halt_halted {s : State} {g c : Nat} (index ringIdx status : Nat) (halted : s.rd F.AG_CTX_STATE g c = 2) :
    s.halt g c index ringIdx status = s := if_pos halted

/-- What a halt shows in AG_CTX and counts. -/
def State.haltShown (s : State) (g c index status : Nat) : State :=
  ((((s.wr F.AG_CTX_STATE 2 g c).wr F.AG_CTX_HALT_INDEX index g c).wr F.AG_CTX_HALT_STATUS status g c).inc F.AG_SEQ_EVENTS_HALTS g).stirred g

theorem State.halt_running {s : State} {g c : Nat} (index ringIdx status : Nat) (runs : s.rd F.AG_CTX_STATE g c ≠ 2) :
    s.halt g c index ringIdx status = (s.haltShown g c index status).updCtx g c (fun x =>
      { x with haltAt := ringIdx, region := x.region.map (fun r => { r with withheld := [] }) }) := if_neg runs

theorem State.rd_haltShown (s : State) (g c index status : Nat) : (s.haltShown g c index status).rd F.AG_CTX_STATE g c = 2 ∧
    (s.haltShown g c index status).rd F.AG_CTX_HALT_STATUS g c = status % 256 := by
  constructor
  · refine (State.rd_inc_reg _ F.AG_SEQ_EVENTS_HALTS F.AG_CTX_STATE g 0 1 g c (by decide)).trans ?_
    rw [State.rd_wr_lsb _ _ _ _ _ _ _ _ (by decide), State.rd_wr_lsb _ _ _ _ _ _ _ _ (by decide), State.rd_wr_same]
    rfl
  · refine (State.rd_inc_reg _ F.AG_SEQ_EVENTS_HALTS F.AG_CTX_HALT_STATUS g 0 1 g c (by decide)).trans ?_
    exact State.rd_wr_same _ F.AG_CTX_HALT_STATUS status g c

theorem State.onlyEnding_halt (s : State) (g c index ringIdx status : Nat) : onlyEnding s (s.halt g c index ringIdx status) := by
  by_cases halted : s.rd F.AG_CTX_STATE g c = 2
  · rw [State.halt_halted _ _ _ halted]
    exact onlyEnding_refl s
  · rw [State.halt_running _ _ _ halted]
    exact (((((onlyEnding_refl s).wr _ 2 g c).wr _ index g c).wr _ status g c).wr _ _ g 0 |>.stirred g).updCtx g c _

/-- A context that a halt reaches is HALTED; a running one shows the status. -/
theorem State.rd_halt (s : State) (g c index ringIdx status : Nat) : (s.halt g c index ringIdx status).rd F.AG_CTX_STATE g c = 2 ∧
    (s.rd F.AG_CTX_STATE g c ≠ 2 → (s.halt g c index ringIdx status).rd F.AG_CTX_HALT_STATUS g c = status % 256) := by
  by_cases halted : s.rd F.AG_CTX_STATE g c = 2
  · rw [State.halt_halted _ _ _ halted]
    exact ⟨halted, fun runs => absurd halted runs⟩
  · rw [State.halt_running _ _ _ halted, State.rd_updCtx, State.rd_updCtx]
    exact ⟨(s.rd_haltShown g c index status).1, fun _ => (s.rd_haltShown g c index status).2⟩

theorem State.fc_halt (s : State) (g c index ringIdx status : Nat) : (s.halt g c index ringIdx status).fc = s.fc := by
  by_cases halted : s.rd F.AG_CTX_STATE g c = 2
  · rw [State.halt_halted _ _ _ halted]
  · rw [State.halt_running _ _ _ halted, State.updCtx_frame]
    rfl

/-- A halt keeps a context's head and its records. -/
theorem State.ctx_halt {s : State} {g c : Nat} {x : CtxSt} (there : s.ctx g c = some x) (index ringIdx status : Nat) :
    ∃ n r, (x.region = none → r = none) ∧ (s.halt g c index ringIdx status).ctx g c = some { x with haltAt := n, region := r } := by
  by_cases halted : s.rd F.AG_CTX_STATE g c = 2
  · rw [State.halt_halted _ _ _ halted]
    exact ⟨_, _, id, there⟩
  · rw [State.halt_running _ _ _ halted, State.ctx_updCtx]
    exact ⟨_, x.region.map (fun r => { r with withheld := [] }), fun outside => by rw [outside, Option.map_none], congrArg (Option.map _) there⟩

/-! ### The effects of a status (R163) -/

/-- The level 1 fault of a status marked "seq". -/
def seqReport (g p status detail : Nat) : Report :=
  { cls := 2, level := 1, master := g, part := p, source := g, code := status, aux := detail }

/-- The state after the fault of a status. -/
def State.statusFault (s : State) (g p status detail : Nat) : State := if seqMarked status then s.raise (seqReport g p status detail) else s

theorem State.statusEffects_eq (s : State) (g c p index ringIdx status detail : Nat) : s.statusEffects g c p index ringIdx status detail =
    if halting status then (s.statusFault g p status detail).halt g c index ringIdx status else s.statusFault g p status detail := rfl

theorem State.onlyEnding_statusFault (s : State) (g p status detail : Nat) : onlyEnding s (s.statusFault g p status detail) := by
  unfold State.statusFault
  split
  · exact (onlyEnding_refl s).raise _
  · exact onlyEnding_refl s

theorem State.statusFault_frame (s : State) (g p status detail : Nat) :
    s.statusFault g p status detail = { s with fc := (s.statusFault g p status detail).fc } := by
  unfold State.statusFault
  split
  · exact s.raise_frame _
  · rfl

theorem State.onlyEnding_statusEffects (s : State) (g c p index ringIdx status detail : Nat) :
    onlyEnding s (s.statusEffects g c p index ringIdx status detail) := by
  rw [State.statusEffects_eq]
  split
  · exact (s.onlyEnding_statusFault _ _ _ _).trans (State.onlyEnding_halt _ _ _ _ _ _)
  · exact s.onlyEnding_statusFault _ _ _ _

/-- A status keeps a context's head and its records. -/
theorem State.ctx_statusEffects {s : State} {g c : Nat} {x : CtxSt} (there : s.ctx g c = some x) (p index ringIdx status detail : Nat) :
    ∃ n r, (x.region = none → r = none) ∧
      (s.statusEffects g c p index ringIdx status detail).ctx g c = some { x with haltAt := n, region := r } := by
  have faulted : (s.statusFault g p status detail).ctx g c = some x := by
    rw [State.statusFault_frame]
    exact there
  rw [State.statusEffects_eq]
  split
  · exact State.ctx_halt faulted _ _ _
  · exact ⟨_, _, id, faulted⟩

section SeqMarked
variable {status : Nat} (marked : seqMarked status = true)
include marked

theorem halting_of_seqMarked : halting status = true := by
  have cases_ : status ∈ [1, 2, 3, 5, 0x0B, 0x0E] := of_decide_eq_true marked
  revert cases_
  unfold halting
  simp only [List.mem_cons, List.not_mem_nil, or_false]
  rintro (rfl | rfl | rfl | rfl | rfl | rfl) <;> rfl

/-- A status marked "seq" halts its context and raises its fault. -/
theorem State.statusEffects_seq (s : State) (g c p index ringIdx detail : Nat) :
    (s.statusEffects g c p index ringIdx status detail).rd F.AG_CTX_STATE g c = 2 ∧
    (s.rd F.AG_CTX_STATE g c ≠ 2 → (s.statusEffects g c p index ringIdx status detail).rd F.AG_CTX_HALT_STATUS g c = status % 256) ∧
    (s.statusEffects g c p index ringIdx status detail).fc = (s.raise (seqReport g p status detail)).fc := by
  rw [State.statusEffects_eq, if_pos (halting_of_seqMarked marked)]
  obtain ⟨state, shown⟩ := (s.statusFault g p status detail).rd_halt g c index ringIdx status
  have same : ∀ f i j, (s.statusFault g p status detail).rd f i j = s.rd f i j := fun f i j => by
    rw [State.statusFault_frame]
    rfl
  refine ⟨state, fun runs => shown (by rwa [same]), ?_⟩
  rw [State.fc_halt, State.statusFault, if_pos marked]

end SeqMarked

/-! ### The end of a descriptor (R153, R162, R176, R310) -/

/-- What a descriptor's end leaves before its ring and status: it is gone, and its partition made progress. -/
def State.jobLeft (s : State) (j : Job) : State := (s.dropJob j.id).progress j.p

theorem State.onlyEnding_endJob (s : State) (j : Job) (status detail info : Nat) :
    onlyEnding (s.jobLeft j) (s.endJob j status detail info) := by
  unfold State.endJob
  extract_lets left rung reg w status' kept index sends sent write e effects
  have keeps : onlyEnding (s.jobLeft j) kept := by
    unfold kept
    generalize reg = r, w = l
    split
    · exact (onlyEnding_refl _).updCtx _ _ _
    · exact onlyEnding_refl _
  have sends_ : onlyEnding kept sent := by
    unfold sent
    split
    · exact (onlyEnding_refl _).ringsSent _
    · exact onlyEnding_refl _
  have affects := (keeps.trans sends_).trans (sent.onlyEnding_statusEffects j.g j.c j.p index j.idx status' detail)
  split
  · exact affects.wr _ _ _ _
  · exact affects.updCtx _ _ _

/-- Whether a descriptor's own ring leaves for its home block when it ends. -/
def Job.sends (j : Job) (status : Nat) : Bool := decide (status = 0) && j.ringBell.testBit 15 && !j.inReg

/-- The state with the ring of an ending descriptor sent off, where it sends one. -/
def State.ownRing (s : State) (j : Job) (status : Nat) : State :=
  if j.sends status then
    { s with rings := s.rings ++ [{ p := j.p, bell := bits j.ringBell 0 12, count := j.ringCount, from_ := j.p, src := j.g, c := j.c,
                                    job := some j.id }] }
  else s

/-- The completion record of a descriptor that ends. -/
def State.endRec (s : State) (j : Job) (status detail info : Nat) : EndRec :=
  { ringIdx := j.idx, job := j.id, index := s.indexOf j, alt := j.alt, level := j.level, op := j.op, tag := j.tag, status := status,
    detail := detail, info := info, chk := j.chk, ringDue := j.sends status,
    write := (j.flags.testBit 1 && !j.inReg) || decide (j.op = 6 ∧ status = 0) }

/-- The state after the ring and the status of an ending descriptor. -/
def State.ended (s : State) (j : Job) (status detail : Nat) : State :=
  (s.ownRing j status).statusEffects j.g j.c j.p (s.indexOf j) j.idx status detail

/-- The end of a descriptor once it has left and its region has taken its ring. -/
def State.endAt (s : State) (j : Job) (status detail info : Nat) : State :=
  let e := s.endRec j status detail info
  if status = 0 ∧ !e.write ∧ !e.ringDue then (s.ended j status detail).unreserve j.g j.c
  else (s.ended j status detail).updCtx j.g j.c (fun x => { x with ends := x.ends ++ [e] })

/-- A state before a descriptor's ring and status take effect: its registers, reports and context are as before. -/
structure endsFrom (s : State) (j : Job) (x : CtxSt) (a : State) : Prop where
  regs : a.regs = s.regs
  raised : a.fc = s.fc ∧ a.now = s.now
  ctx : a.ctx j.g j.c = some x

/-- A descriptor that fails, or stands outside a region, withholds no ring. -/
theorem State.endJob_plain {s : State} {j : Job} {x : CtxSt} {status : Nat} (there : s.ctx j.g j.c = some x)
    (plain : status ≠ 0 ∨ x.region = none) (detail info : Nat) :
    ∃ a, endsFrom s j x a ∧ s.endJob j status detail info = a.endAt j status detail info := by
  have left : (s.jobLeft j).ctx j.g j.c = some x := there
  have reg : (((s.dropJob j.id).progress j.p).ctx j.g j.c).bind (fun x => x.region) = x.region := by
    rw [show ((s.dropJob j.id).progress j.p).ctx j.g j.c = some x from left, Option.bind_some]
  cases region : x.region with
  | none =>
    refine ⟨s.jobLeft j, ⟨rfl, ⟨rfl, rfl⟩, left⟩, ?_⟩
    unfold State.endJob
    dsimp only
    rw [reg, region]
    rfl
  | some r =>
    have failed : status ≠ 0 := plain.resolve_right (by simp [region])
    refine ⟨(s.jobLeft j).updCtx j.g j.c (fun x => { x with region := some { r with withheld := r.withheld } }), ⟨?_, ?_, ?_⟩, ?_⟩
    · rw [State.updCtx_frame]
      rfl
    · rw [State.updCtx_frame]
      exact ⟨rfl, rfl⟩
    · rw [State.ctx_updCtx, left, Option.map_some, ← region]
    · unfold State.endJob
      dsimp only
      rw [reg, region, decide_eq_false failed]
      unfold State.endAt State.ended State.ownRing State.endRec Job.sends
      rw [decide_eq_false failed]
      rfl

theorem State.ownRing_frame (s : State) (j : Job) (status : Nat) : s.ownRing j status = { s with rings := (s.ownRing j status).rings } := by
  unfold State.ownRing
  split <;> rfl

/-- The record of a descriptor joins those its context has ended, and its head stays, unless its reservation is given back. -/
theorem State.ctx_endAt {s : State} {j : Job} {x : CtxSt} (there : s.ctx j.g j.c = some x) (status detail info : Nat)
    (due : status ≠ 0 ∨ (s.endRec j status detail info).write = true) : ∃ n r, (x.region = none → r = none) ∧
    (s.endAt j status detail info).ctx j.g j.c =
      some { x with haltAt := n, region := r, ends := x.ends ++ [s.endRec j status detail info] } := by
  have sent : (s.ownRing j status).ctx j.g j.c = some x := by
    rw [State.ownRing_frame]
    exact there
  obtain ⟨n, r, outside, ctx⟩ := State.ctx_statusEffects sent j.p (s.indexOf j) j.idx status detail
  have records : ¬(status = 0 ∧ !(s.endRec j status detail info).write ∧ !(s.endRec j status detail info).ringDue) := by
    rcases due with failed | write
    · exact fun h => failed h.1
    · simp [write]
  refine ⟨n, r, outside, ?_⟩
  unfold State.endAt
  dsimp only
  rw [if_neg records, State.ctx_updCtx, State.ended, ctx, Option.map_some]

/-- A descriptor that ends with a status marked "seq" leaves its context HALTED with the fault of the status raised. -/
theorem State.endAt_seq (s : State) (j : Job) {status : Nat} (marked : seqMarked status = true) (detail info : Nat) :
    (s.endAt j status detail info).rd F.AG_CTX_STATE j.g j.c = 2 ∧
    (s.rd F.AG_CTX_STATE j.g j.c ≠ 2 → (s.endAt j status detail info).rd F.AG_CTX_HALT_STATUS j.g j.c = status % 256) ∧
    (s.endAt j status detail info).fc = (s.raise (seqReport j.g j.p status detail)).fc := by
  have failed : status ≠ 0 := fun e => by simp [e, seqMarked] at marked
  have result : s.endAt j status detail info =
      (s.ended j status detail).updCtx j.g j.c (fun x => { x with ends := x.ends ++ [s.endRec j status detail info] }) :=
    if_neg (fun h => failed h.1)
  have same : ∀ f i k, (s.ownRing j status).rd f i k = s.rd f i k := fun f i k => by
    rw [State.ownRing_frame]
    rfl
  obtain ⟨state, shown, raised⟩ := (s.ownRing j status).statusEffects_seq marked j.g j.c j.p (s.indexOf j) j.idx detail
  rw [result, State.rd_updCtx, State.rd_updCtx]
  refine ⟨state, fun runs => shown (by rwa [same]), ?_⟩
  rw [State.updCtx_frame]
  refine raised.trans ?_
  rw [State.ownRing_frame]
  exact State.raise_fc_congr _ rfl rfl rfl

end Sys2Proof.Machine
end

section
/-!
PROOFS of the statements of spec/07: how a descriptor that fails ends, and the head of a context (O30).
-/

namespace Sys2Proof.Machine

/-! ### A descriptor leaves the head (R161) -/

theorem State.onlyEnding_takeHead (s : State) (j : Job) : onlyEnding s (s.takeHead j) := by
  unfold State.takeHead
  dsimp only
  split
  · exact ((onlyEnding_refl s).updCtx _ _ _).updCtx _ _ _
  · exact ((onlyEnding_refl s).updCtx _ _ _).wr _ _ _ _

theorem State.rd_takeHead_reg (s : State) (j : Job) (f : Fld) (i k : Nat) (other : f.reg ≠ .PCI_RING) :
    (s.takeHead j).rd f i k = s.rd f i k := by
  unfold State.takeHead
  dsimp only
  split
  · rw [State.rd_updCtx, State.rd_updCtx]
  · rw [State.rd_wr_reg _ _ _ _ _ _ _ _ other, State.rd_updCtx]

theorem State.fc_takeHead (s : State) (j : Job) : (s.takeHead j).fc = s.fc := by
  unfold State.takeHead
  dsimp only
  split
  · rw [State.updCtx_frame, State.updCtx_frame]
  · rw [State.wr_fc, State.updCtx_frame]

/-- The head's descriptor gone, a context keeps what it has ended. -/
theorem State.ctx_takeHead {s : State} {j : Job} {x : CtxSt} (there : s.ctx j.g j.c = some x) :
    ∃ r, (s.takeHead j).ctx j.g j.c = some { x with head := none, region := r } := by
  have emptied : (s.updCtx j.g j.c (fun x => { x with head := none })).ctx j.g j.c = some { x with head := none } := by
    rw [State.ctx_updCtx, there, Option.map_some]
  unfold State.takeHead
  dsimp only
  split
  · exact ⟨_, by rw [State.ctx_updCtx, emptied, Option.map_some]⟩
  · exact ⟨_, emptied⟩

/-! ### A descriptor that fails with a status marked "seq" (R163) -/

/-- The context of a failed descriptor is HALTED with its record due and its fault raised; its head is as it was. -/
structure failedBy (s : State) (j : Job) (x : CtxSt) (status detail info : Nat) (s' : State) : Prop where
  state : s'.rd F.AG_CTX_STATE j.g j.c = 2
  shown : s.rd F.AG_CTX_STATE j.g j.c ≠ 2 → s'.rd F.AG_CTX_HALT_STATUS j.g j.c = status % 256
  raised : s'.fc = (s.raise (seqReport j.g j.p status detail)).fc
  record : ∃ n r e, s'.ctx j.g j.c = some { x with haltAt := n, region := r, ends := x.ends ++ [e] } ∧ e.job = j.id ∧ e.tag = j.tag ∧
    e.status = status ∧ e.detail = detail ∧ e.info = info

theorem State.endJob_fails {s : State} {j : Job} {x : CtxSt} {status : Nat} (there : s.ctx j.g j.c = some x)
    (marked : seqMarked status = true) (detail info : Nat) : failedBy s j x status detail info (s.endJob j status detail info) := by
  have failed : status ≠ 0 := fun e => by simp [e, seqMarked] at marked
  obtain ⟨a, ⟨regs, ⟨fc, now⟩, ctx⟩, result⟩ := State.endJob_plain there (.inl failed) detail info
  obtain ⟨state, shown, raised⟩ := a.endAt_seq j marked detail info
  obtain ⟨n, r, _, records⟩ := State.ctx_endAt ctx status detail info (.inl failed)
  rw [result]
  refine ⟨state, fun runs => shown (by rwa [State.rd_congr regs]), raised.trans ?_, n, r, _, records, rfl, rfl, rfl, rfl, rfl⟩
  exact State.raise_fc_congr _ fc now (State.rd_congr regs _ _ _)

/-! ### What a fetch at the head leaves (R155, R310, R498) -/

/-- A descriptor's command of a COPY, or its extension, read without error. -/
def wordRead (s : State) (g p addr : Nat) (b : Bytes) (s' : State) : Prop := s.devRead (dieOf g) g p addr 64 = (none, b, false, s')

/-- The extension of a MATMUL that has one is read from the next slot; other descriptors have none. -/
def extRead (s : State) (g p next avail : Nat) (j : Job) (e : Bytes) (s' : State) : Prop :=
  (j.op ≠ 1 ∨ j.hasExt = false) ∧ e = [] ∧ s' = s ∨ j.op = 1 ∧ j.hasExt = true ∧ 2 ≤ avail ∧ wordRead s g p next e s'

/-- The command of a well-formed COPY is read from its address; other descriptors have none. -/
def cmdRead (s : State) (g p : Nat) (j : Job) (cmd : Bytes) (s' : State) : Prop :=
  (j.op ≠ 2 ∨ j.bad01 = true ∨ 3 < j.target) ∧ cmd = [] ∧ s' = s ∨
    j.op = 2 ∧ j.bad01 = false ∧ j.target ≤ 3 ∧ wordRead s g p j.cmdAddr cmd s'

/-- What reads at the head leave: reports and caches, and no register but the error counters and the regulators'. -/
structure onlyFetched (s s' : State) : Prop where
  read : onlyRead s s'
  regs : sameRegsBut [.MEM_ECC, .CUP_ECC, .BWG_STATE, .BWG_SPENT] s s'

theorem onlyFetched_refl (s : State) : onlyFetched s s := ⟨onlyRead_refl s, fun _ _ _ _ => rfl⟩

theorem onlyFetched.trans {a b c : State} (h : onlyFetched a b) (h' : onlyFetched b c) : onlyFetched a c :=
  ⟨h.read.trans h'.read, fun f i j out => (h'.regs f i j out).trans (h.regs f i j out)⟩

theorem onlyFetched_of_devRead {s s' : State} {cache unit p addr n : Nat} {b : Bytes} {bad : Bool}
    (h : s.devRead cache unit p addr n = (none, b, bad, s')) : onlyFetched s s' := ⟨State.onlyRead_of_devRead h, State.regs_of_devRead h⟩

theorem extRead.onlyFetched {s s' : State} {g p next avail : Nat} {j : Job} {e : Bytes} (h : extRead s g p next avail j e s') :
    onlyFetched s s' := by
  rcases h with ⟨_, _, rfl⟩ | ⟨_, _, _, read⟩
  · exact onlyFetched_refl _
  · exact onlyFetched_of_devRead read

theorem cmdRead.onlyFetched {s s' : State} {g p : Nat} {j : Job} {cmd : Bytes} (h : cmdRead s g p j cmd s') : onlyFetched s s' := by
  rcases h with ⟨_, _, rfl⟩ | ⟨_, _, _, read⟩
  · exact onlyFetched_refl _
  · exact onlyFetched_of_devRead read

/-! ### The head judged (R161) -/

/-- The number of a descriptor is taken and a completion slot reserved for it. -/
def State.numbered (s : State) (j : Job) : State := ({ s with jobCtr := j.id } : State).reserve j.g j.c

/-- A descriptor all of which has been read takes its place at the head, or ends REJECTED. -/
def State.headJudged (s : State) (j : Job) : State :=
  if s.validate j ≠ 0 then (s.takeHead j).endJob j 1 (s.validate j) 0
  else
    let s := s.updCtx j.g j.c (fun x => { x with head := some { job := j, waits := j.waits } })
    if j.waits then s.registerWait j else s

theorem State.judgeHead_read {s s' : State} {j : Job} {cmd : Bytes} (fresh : j.cmd = [] ∧ j.cmdBad = none)
    (read : cmdRead (s.numbered j) j.g j.p j cmd s') : s.judgeHead j false = s'.headJudged { j with cmd := cmd } := by
  obtain ⟨empty, good⟩ := fresh
  unfold State.judgeHead
  rcases read with ⟨none_, rfl, rfl⟩ | ⟨op, shape, engine, got⟩
  · have skip : ¬(j.op = 2 ∧ (!false) = true ∧ (!j.bad01) = true ∧ j.target ≤ 3) := by
      rintro ⟨op, _, shape, engine⟩
      rcases none_ with h | h | h
      · exact h op
      · simp [h] at shape
      · omega
    have same : { j with cmd := [] } = j := by rw [← empty]
    rw [same]
    dsimp only
    rw [if_neg skip]
    dsimp only
    rw [good]
    rfl
  · have take : j.op = 2 ∧ (!false) = true ∧ (!j.bad01) = true ∧ j.target ≤ 3 := ⟨op, rfl, by rw [shape]; rfl, engine⟩
    dsimp only
    rw [if_pos take, show (({ s with jobCtr := j.id } : State).reserve j.g j.c).devRead (dieOf j.g) j.g j.p
      (leAt j.desc 16 6) 64 = _ from got]
    dsimp only
    rw [good]
    rfl

/-- The descriptor that the slot at `idx` of a context gives, with its extension. -/
def headJob (s : State) (g c p idx : Nat) (alt : Bool) (x : CtxSt) (b e : Bytes) : Job :=
  { id := s.jobCtr + 1, g := g, c := c, p := p, idx := idx, alt := alt, level := (x.region.map (fun r => r.level)).getD 0,
    inReg := decide (leAt b 0 1 = 5) || (x.region.isSome && decide (leAt b 0 1 ≠ 6)), desc := b, ext := e,
    unit := unitOf (leAt b 0 1) (leAt b 9 1) }

/-- A context whose next descriptor may reach its head (R155, R310). -/
structure headFree (s : State) (g c : Nat) (x : CtxSt) : Prop where
  there : s.ctx g c = some x
  running : s.rd F.AG_CTX_STATE g c ≠ 2
  empty : x.head = none
  going : x.region.bind (fun r => r.stop) = none
  closed : x.ends.any (fun e => e.op = 6 && decide (e.status = 0)) = false
  room : s.canReserve g c = true
  up : s.seqUp (s.rd F.AG_CONFIG_PARTITION g) g = true

theorem State.headStep_read {s s₁ s₂ : State} {g c addr next idx avail : Nat} {alt : Bool} {x : CtxSt} {b e : Bytes}
    (free : headFree s g c x) (slot : s.headSlot g c x = some (addr, next, idx, alt, avail))
    (read : wordRead s g (s.rd F.AG_CONFIG_PARTITION g) addr b s₁)
    (ext : extRead s₁ g (s.rd F.AG_CONFIG_PARTITION g) next avail (headJob s₁ g c (s.rd F.AG_CONFIG_PARTITION g) idx alt x b e) e s₂) :
    s.headStep g c = (s₂.judgeHead (headJob s₁ g c (s.rd F.AG_CONFIG_PARTITION g) idx alt x b e) false).showCtx g c := by
  obtain ⟨there, running, empty, going, closed, room, up⟩ := free
  unfold State.headStep
  rw [there]
  dsimp only
  rw [if_neg (by simp [running, empty, going, room, up, closed]), slot]
  dsimp only
  rw [show s.devRead _ _ _ _ _ = _ from read]
  dsimp only
  rcases ext with ⟨none_, rfl, rfl⟩ | ⟨op, has, two, got⟩
  · rw [if_neg]
    · rfl
    · rintro ⟨op, has, _⟩
      rcases none_ with h | h
      · exact h op
      · exact Bool.false_ne_true (h.symm.trans has)
  · rw [if_pos ⟨op, has, rfl⟩, if_neg (by omega), show s₁.devRead _ _ _ _ _ = _ from got]
    rfl

/-- What the fetch of a descriptor leaves of the state it is judged in: its number taken, one completion slot reserved. -/
structure headFetched (s : State) (g c : Nat) (s' : State) : Prop where
  ctx : s'.ctx g c = s.ctx g c
  jobCtr : s'.jobCtr = s.jobCtr + 1
  reserved : s'.rd F.PCI_RING_RESERVED_SLOTS g c = (s.rd F.PCI_RING_RESERVED_SLOTS g c + 1) % 4096
  regs : sameRegsBut [.PCI_RING, .MEM_ECC, .CUP_ECC, .BWG_STATE, .BWG_SPENT] s s'
  mem : s'.mem = s.mem

theorem headFetched_of_reads {s s₁ s₂ s₃ : State} {j : Job} (first : onlyFetched s s₁) (second : onlyFetched s₁ s₂)
    (third : onlyFetched (s₂.numbered j) s₃) (number : j.id = s₁.jobCtr + 1) : headFetched s j.g j.c s₃ := by
  have before := first.trans second
  have numbered : ∀ f i k, f.reg ≠ .PCI_RING → (s₂.numbered j).rd f i k = s₂.rd f i k := fun f i k other =>
    State.rd_wr_reg _ F.PCI_RING_RESERVED_SLOTS f _ j.g j.c i k other
  refine ⟨?_, ?_, ?_, fun f i k out => ?_, ?_⟩
  · rw [State.ctx_congr (congrArg State.ctxs third.read.1)]
    exact State.ctx_congr (congrArg State.ctxs before.read.1) _ _
  · rw [third.read.1]
    show j.id = _
    rw [number, first.read.1]
  · rw [third.regs F.PCI_RING_RESERVED_SLOTS j.g j.c (by decide)]
    refine (State.rd_wr_same _ F.PCI_RING_RESERVED_SLOTS _ j.g j.c).trans ?_
    show (s₂.rd F.PCI_RING_RESERVED_SLOTS j.g j.c + 1) % 4096 = _
    rw [before.regs F.PCI_RING_RESERVED_SLOTS j.g j.c (by decide)]
  · have miss : f.reg ≠ .PCI_RING ∧ f.reg ∉ [Reg.MEM_ECC, .CUP_ECC, .BWG_STATE, .BWG_SPENT] := by simpa using out
    rw [third.regs f i k miss.2, numbered f i k miss.1, before.regs f i k miss.2]
  · rw [third.read.1]
    show s₂.mem = s.mem
    rw [before.read.1]

/-! ### O30 -/

theorem State.rd_showCtx_haltStatus (s : State) (g c i k : Nat) :
    (s.showCtx g c).rd F.AG_CTX_HALT_STATUS i k = s.rd F.AG_CTX_HALT_STATUS i k := by
  cases there : s.ctx g c with
  | none =>
    unfold State.showCtx
    rw [there]
  | some x =>
    rw [State.showCtx_open there, State.wrB, State.rd_wr_lsb _ _ _ _ _ _ _ _ (by decide), State.rd_wr_lsb _ _ _ _ _ _ _ _ (by decide),
      State.rd_wr_lsb _ _ _ _ _ _ _ _ (by decide), State.rd_stateStirred]

theorem exec_descriptorHead_posted {s : State} {g c : Nat} (t : Nat) (group : g < 16) (context : c < 8) (free : nonePosted s) :
    exec (.descriptorHead t g c) s = .next ((s.tick t).headStep g c) := by
  refine (if_pos (by simp [group, context])).trans (congrArg Host.Outcome.next ?_)
  rw [State.releasePosted_none t free]

theorem headFetched.runs {s s₃ : State} {g c : Nat} (got : headFetched s g c s₃) (running : s.rd F.AG_CTX_STATE g c ≠ 2) :
    s₃.rd F.AG_CTX_STATE g c ≠ 2 := by
  rwa [got.regs F.AG_CTX_STATE g c (by decide)]

section Judged
variable {s s₃ : State} {j : Job} {x : CtxSt} (got : headFetched s j.g j.c s₃) (there : s.ctx j.g j.c = some x)
  (running : s.rd F.AG_CTX_STATE j.g j.c ≠ 2)
include got there running

/-- A descriptor that passes and does not wait stands at the head, and its context shows it. -/
theorem headJudged_passes (good : s₃.validate j = 0) (ready : j.waits = false) : ∃ s', (s₃.headJudged j).showCtx j.g j.c = s' ∧
    s'.ctx j.g j.c = some { x with head := some { job := j, waits := false } } ∧
    s'.rd F.PCI_RING_RESERVED_SLOTS j.g j.c = (s.rd F.PCI_RING_RESERVED_SLOTS j.g j.c + 1) % 4096 ∧
    s'.rd F.AG_CTX_STATE j.g j.c = 1 ∧ s'.jobCtr = s.jobCtr + 1 ∧
    sameRegsBut [.PCI_RING, .AG_CTX, .MEM_ECC, .CUP_ECC, .BWG_STATE, .BWG_SPENT] s s' ∧ sameMem s s' := by
  have headed : s₃.headJudged j = s₃.updCtx j.g j.c (fun x => { x with head := some { job := j, waits := false } }) := by
    unfold State.headJudged
    rw [if_neg (not_not.mpr good), ready]
    rfl
  have ctx : (s₃.headJudged j).ctx j.g j.c = some { x with head := some { job := j, waits := false } } := by
    rw [headed, State.ctx_updCtx, got.ctx, there, Option.map_some]
  have rd : ∀ f i k, (s₃.headJudged j).rd f i k = s₃.rd f i k := fun f i k => by rw [headed, State.rd_updCtx]
  refine ⟨_, rfl, (State.ctx_showCtx _ _ _ _ _).trans ctx, ?_, ?_, ?_, fun f i k out => ?_, sameMem_of_mem ?_⟩
  · rw [State.rd_showCtx_reg _ _ _ _ _ _ (by decide), rd, got.reserved]
  · rw [(State.rd_showCtx ctx).1, State.ctxState, if_neg (by rw [rd]; exact got.runs running)]
    rfl
  · rw [State.showCtx_frame, headed, State.updCtx_frame]
    exact got.jobCtr
  · simp only [List.mem_cons, not_or] at out
    rw [State.rd_showCtx_reg _ _ _ _ _ _ out.2.1, rd]
    exact got.regs f i k (by simp [out])
  · rw [State.showCtx_frame, headed, State.updCtx_frame]
    exact got.mem

/-- A descriptor that fails validation ends REJECTED with its context HALTED. -/
theorem headJudged_rejects (bad : s₃.validate j ≠ 0) : ∃ s' e x', (s₃.headJudged j).showCtx j.g j.c = s' ∧
    s'.rd F.AG_CTX_STATE j.g j.c = 2 ∧ s'.rd F.AG_CTX_HALT_STATUS j.g j.c = 1 ∧ s'.ctx j.g j.c = some x' ∧ x'.head = none ∧
    x'.ends = x.ends ++ [e] ∧ e.status = 1 ∧ e.job = j.id ∧ e.tag = j.tag ∧ e.detail = s₃.validate j ∧
    s'.fc = (s₃.raise (seqReport j.g j.p 1 (s₃.validate j))).fc ∧ sameMem s s' := by
  have ends : s₃.headJudged j = (s₃.takeHead j).endJob j 1 (s₃.validate j) 0 := if_pos bad
  obtain ⟨r, taken⟩ := State.ctx_takeHead (got.ctx.trans there)
  obtain ⟨state, shown, raised, n, r', e, ctx, job, tag, status, detail, info⟩ :=
    State.endJob_fails taken (by decide : seqMarked 1 = true) (s₃.validate j) 0
  have running' : (s₃.takeHead j).rd F.AG_CTX_STATE j.g j.c ≠ 2 := by
    rw [State.rd_takeHead_reg _ _ _ _ _ (by decide)]
    exact got.runs running
  have mem : ((s₃.takeHead j).endJob j 1 (s₃.validate j) 0).mem = s.mem := by
    rw [(State.onlyEnding_endJob _ j 1 _ 0).parts]
    show (s₃.takeHead j).mem = _
    rw [(s₃.onlyEnding_takeHead j).parts]
    exact got.mem
  rw [ends]
  refine ⟨_, e, _, rfl, ?_, ?_, (State.ctx_showCtx _ _ _ _ _).trans ctx, rfl, rfl, status, job, tag, detail, ?_, sameMem_of_mem ?_⟩
  · rw [(State.rd_showCtx ctx).1, State.ctxState, if_pos state]
  · rw [State.rd_showCtx_haltStatus, shown running']
  · rw [State.showCtx_frame]
    refine raised.trans (State.raise_fc_congr _ (s₃.fc_takeHead j) ?_ (s₃.rd_takeHead_reg j _ _ _ (by decide)))
    rw [(s₃.onlyEnding_takeHead j).parts]
  · rw [State.showCtx_frame]
    exact mem

end Judged

/-- A fetch without error at a free head ends in the judgement of what was read. -/
theorem exec_descriptorHead_fetches {s s₁ s₂ s₃ : State} {t g c addr next idx avail : Nat} {alt : Bool} {x : CtxSt} {b e cmd : Bytes} {j : Job}
    (group : g < 16) (context : c < 8) (posted : nonePosted s) (free : headFree (s.tick t) g c x)
    (job : j = headJob s₁ g c (s.rd F.AG_CONFIG_PARTITION g) idx alt x b e)
    (slot : (s.tick t).headSlot g c x = some (addr, next, idx, alt, avail))
    (read : wordRead (s.tick t) g (s.rd F.AG_CONFIG_PARTITION g) addr b s₁)
    (ext : extRead s₁ g (s.rd F.AG_CONFIG_PARTITION g) next avail j e s₂)
    (com : cmdRead (s₂.numbered j) g (s.rd F.AG_CONFIG_PARTITION g) j cmd s₃) :
    exec (.descriptorHead t g c) s = .next ((s₃.headJudged { j with cmd := cmd }).showCtx g c) ∧ headFetched (s.tick t) g c s₃ := by
  subst job
  refine ⟨?_, headFetched_of_reads (onlyFetched_of_devRead read) ext.onlyFetched com.onlyFetched rfl⟩
  rw [exec_descriptorHead_posted t group context posted, State.headStep_read free slot read ext, State.tick_rd,
    State.judgeHead_read ⟨rfl, rfl⟩ com]

/-- Settles O30: the descriptor, its extension and its command are read, its number is taken and its slot reserved; then validation decides. -/
theorem descriptorHeads : Obligations.DescriptorHeads := by
  unfold Obligations.DescriptorHeads
  refine ⟨?_, ?_⟩
  · intro s s₁ s₂ s₃ t g c p addr next idx avail alt x b e cmd j group context posted part there running empty going closed room up slot
      read job ext com good ready few
    subst part
    have free : headFree (s.tick t) g c x := ⟨there, running, empty, going, closed, room, up⟩
    obtain ⟨run, got⟩ := exec_descriptorHead_fetches group context posted free job slot read (by subst job; exact ext) (by subst job; exact com)
    obtain rfl : g = j.g := by rw [job]
    obtain rfl : c = j.c := by rw [job]
    obtain ⟨s', rfl, head, reserved, state, ctr, regs, mem⟩ := headJudged_passes (j := { j with cmd := cmd }) got there running good ready
    exact ⟨_, run, head, reserved.trans (Nat.mod_eq_of_lt (Nat.succ_lt_succ few)), state, ctr, regs, mem⟩
  · intro s s₁ s₂ s₃ t g c p addr next idx avail alt x b e cmd j group context posted part there running empty going closed room up slot
      read job ext com bad
    subst part
    have free : headFree (s.tick t) g c x := ⟨there, running, empty, going, closed, room, up⟩
    obtain ⟨run, got⟩ := exec_descriptorHead_fetches group context posted free job slot read (by subst job; exact ext) (by subst job; exact com)
    obtain rfl : g = j.g := by rw [job]
    obtain rfl : c = j.c := by rw [job]
    obtain ⟨s', e', x', rfl, state, shown, ctx, gone, ends, status, id, tag, detail, raised, mem⟩ :=
      headJudged_rejects (j := { j with cmd := cmd }) got there running bad
    exact ⟨_, seqReport j.g j.p 1 _, e', x', run, state, shown, ctx, gone, ends, status, id, tag, detail, rfl, rfl, rfl, raised, mem⟩

end Sys2Proof.Machine
end

section
/-!
PROOFS of the statements of spec/07: retirements, levels and completion records (O32).
-/

namespace Sys2Proof.Machine

/-! ### What the work around a retirement leaves (R153, R185, R193) -/

/-- The time, the started descriptors, the watchdogs and the open contexts are as before. -/
structure keepsStarted (s s' : State) : Prop where
  now : s'.now = s.now
  jobs : s'.jobs = s.jobs
  hng : s'.hng = s.hng
  opens : ∀ g c, (s'.ctx g c).isSome = (s.ctx g c).isSome

theorem keepsStarted_refl (s : State) : keepsStarted s s := ⟨rfl, rfl, rfl, fun _ _ => rfl⟩

theorem keepsStarted.trans {a b c : State} (h : keepsStarted a b) (h' : keepsStarted b c) : keepsStarted a c :=
  ⟨h'.now.trans h.now, h'.jobs.trans h.jobs, h'.hng.trans h.hng, fun g k => (h'.opens g k).trans (h.opens g k)⟩

theorem onlyEnding.keepsStarted {s s' : State} (h : onlyEnding s s') : keepsStarted s s' :=
  ⟨by rw [h.parts], by rw [h.parts], by rw [h.parts], h.opens⟩

/-- The contexts too are as before. -/
structure keepsWork (s s' : State) : Prop where
  now : s'.now = s.now
  jobs : s'.jobs = s.jobs
  hng : s'.hng = s.hng
  ctxs : s'.ctxs = s.ctxs

theorem keepsWork_refl (s : State) : keepsWork s s := ⟨rfl, rfl, rfl, rfl⟩

theorem keepsWork.trans {a b c : State} (h : keepsWork a b) (h' : keepsWork b c) : keepsWork a c :=
  ⟨h'.now.trans h.now, h'.jobs.trans h.jobs, h'.hng.trans h.hng, h'.ctxs.trans h.ctxs⟩

theorem keepsWork.keepsStarted {s s' : State} (h : keepsWork s s') : keepsStarted s s' :=
  ⟨h.now, h.jobs, h.hng, fun _ _ => congrArg Option.isSome (State.ctx_congr h.ctxs _ _)⟩

theorem keepsWork_foldl {α : Type} {step : State → α → State} (h : ∀ s x, keepsWork s (step s x)) (l : List α) (s : State) :
    keepsWork s (l.foldl step s) := foldl_related keepsWork keepsWork_refl (fun _ _ _ => keepsWork.trans) h l s

theorem keepsWork.wr {a b : State} (h : keepsWork a b) (f : Fld) (v i j : Nat) : keepsWork a (b.wr f v i j) :=
  h.trans ⟨rfl, rfl, rfl, rfl⟩

theorem keepsWork.stirred {a b : State} (h : keepsWork a b) (g : Nat) : keepsWork a (b.stirred g) := h.trans ⟨rfl, rfl, rfl, rfl⟩

theorem keepsWork.setPa {a b : State} (h : keepsWork a b) (pa : Nat) (x : PaSt) : keepsWork a (b.setPa pa x) := h.trans ⟨rfl, rfl, rfl, rfl⟩

theorem keepsWork.waiting {a b : State} (h : keepsWork a b) (l : List Wait) : keepsWork a { b with waits := l } :=
  h.trans ⟨rfl, rfl, rfl, rfl⟩

theorem onlyStored.keepsWork {s s' : State} (h : onlyStored s s') : keepsWork s s' :=
  ⟨by rw [h.parts], by rw [h.parts], by rw [h.parts], by rw [h.parts]⟩

theorem onlyVecs.keepsWork {s s' : State} (h : onlyVecs s s') : keepsWork s s' := by
  obtain ⟨_, _, _, rfl⟩ := h
  exact ⟨rfl, rfl, rfl, rfl⟩

/-! ### The numerics table (R185, R193) -/

theorem State.onlyRead_tabRead (s : State) (g p off n : Nat) : onlyRead s (s.tabRead g p off n).2 := by
  have looked := s.onlyRead_pmLookup (dieOf g) ((s.numBase g + off) / 65536)
  have got := State.onlyRead_devRead (s.pmLookup (dieOf g) ((s.numBase g + off) / 65536)).2 (dieOf g) g p (s.numBase g + off) n
  unfold State.tabRead
  dsimp only
  split
  · exact looked
  · split
    · next e => rw [e] at got; exact looked.trans got
    · next e => rw [e] at got; exact looked.trans got

theorem State.keepsWork_of_tabRead {s s' : State} {g p off n : Nat} {r : Option (Option Bytes)} (h : s.tabRead g p off n = (r, s')) :
    keepsWork s s' := by
  have got := (s.onlyRead_tabRead g p off n).onlyStored.keepsWork
  rwa [h] at got

theorem keepsWork.tabWrite {a b : State} (h : keepsWork a b) (g p off : Nat) (bytes : Bytes) : keepsWork a (b.tabWrite g p off bytes) :=
  h.trans (b.onlyStored_devWrite _ _ _ _ _ _ _).keepsWork

theorem keepsWork.numAlert {a b : State} (h : keepsWork a b) (p : Nat) (f : Fld) : keepsWork a (b.numAlert p f) := by
  unfold State.numAlert
  split
  · exact h
  · split
    · exact h
    · exact ((h.wr f 1 _ 0).trans (onlyVecs_trans _ _ _ (State.onlyVecs_vec _ _ _) (State.onlyVecs_vec _ _ _)).keepsWork).trans
        (keepsWork_foldl (fun (s : State) n => (⟨rfl, rfl, rfl, rfl⟩ : keepsWork s (s.coreVec n 1))) _ _)

/-- The census record of a format after counts are added to it. -/
def State.censusCounted (s : State) (g p code off : Nat) (counts : List Nat) : State :=
  match s.tabRead g p (censusOff code) 64 with
  | (some (some b), s) => s.tabWrite g p (censusOff code) (addCounters b off 8 counts)
  | (_, s) => s

theorem State.keepsWork_censusCounted (s : State) (g p code off : Nat) (counts : List Nat) :
    keepsWork s (s.censusCounted g p code off counts) := by
  unfold State.censusCounted
  split
  · next read => exact (State.keepsWork_of_tabRead read).tabWrite _ _ _ _
  · next read => exact State.keepsWork_of_tabRead read

theorem State.keepsWork_numUpdate (s : State) (g p tensor step code mode : Nat) (counts : List Nat) (amax : Nat) :
    keepsWork s (s.numUpdate g p tensor step code mode counts amax) := by
  unfold State.numUpdate
  split
  · exact keepsWork_refl s
  · extract_lets a
    have census : keepsWork s a := s.keepsWork_censusCounted g p code 0 counts
    split
    · next read =>
      have kept := census.trans (State.keepsWork_of_tabRead read)
      split
      · exact kept
      · split
        · dsimp only
          split
          · exact (kept.tabWrite _ _ _ _).numAlert _ _
          · exact kept.tabWrite _ _ _ _
        · exact (kept.tabWrite _ _ _ _).numAlert _ _
    · next read => exact census.trans (State.keepsWork_of_tabRead read)

theorem State.keepsWork_numPromote (s : State) (g p tensor code : Nat) : keepsWork s (s.numPromote g p tensor code) := by
  unfold State.numPromote
  split
  · exact keepsWork_refl s
  · extract_lets a
    have census : keepsWork s a := s.keepsWork_censusCounted g p code 56 [1]
    split
    · next read =>
      have kept := census.trans (State.keepsWork_of_tabRead read)
      split
      · dsimp only
        split
        · exact (kept.tabWrite _ _ _ _).wr _ _ _ _
        · exact kept.tabWrite _ _ _ _
      · exact kept
    · next read => exact census.trans (State.keepsWork_of_tabRead read)

/-! ### A descriptor leaves its unit (R34, R112, R153) -/

theorem keepsWork.passEnd {a b : State} (h : keepsWork a b) (pa : Nat) : keepsWork a (b.passEnd pa) := by
  unfold State.passEnd
  dsimp only
  split
  · exact ((h.wr _ _ _ _).wr _ _ _ _).setPa _ _
  · exact h

theorem State.keepsWork_leaveArray (s : State) (j : Job) : keepsWork s (s.leaveArray j) := by
  unfold State.leaveArray State.giveCredits
  extract_lets ps drop a b
  have told : keepsWork s a := by
    unfold a
    split
    · exact (keepsWork_refl s).wr _ _ _ _
    · exact keepsWork_refl s
  exact (((told.wr _ _ _ _).wr _ _ _ _).setPa _ _).passEnd _

theorem State.keepsWork_retireUpdate (s : State) (j : Job) : keepsWork s (s.retireUpdate j) := by
  unfold State.retireUpdate
  split
  · exact keepsWork_refl s
  · split
    · exact s.keepsWork_numUpdate _ _ _ _ _ _ _ _
    · split
      · exact s.keepsWork_numUpdate _ _ _ _ _ _ _ _
      · exact keepsWork_refl s

theorem State.keepsWork_showTurret (s : State) (g : Nat) : keepsWork s (s.showTurret g) := by
  unfold State.showTurret State.wrB
  extract_lets l a
  have addr : keepsWork s a := by
    unfold a
    split
    · exact (keepsWork_refl s).wr _ _ _ _
    · exact keepsWork_refl s
  exact (addr.wr _ _ _ _).wr _ _ _ _

/-! ### The region a retirement may promote, and what AG_CTX shows (R178) -/

theorem keepsStarted.wr {a b : State} (h : keepsStarted a b) (f : Fld) (v i j : Nat) : keepsStarted a (b.wr f v i j) :=
  h.trans ⟨rfl, rfl, rfl, fun _ _ => rfl⟩

theorem keepsStarted.updCtx {a b : State} (h : keepsStarted a b) (g c : Nat) (f : CtxSt → CtxSt) : keepsStarted a (b.updCtx g c f) :=
  h.trans ((onlyEnding_refl b).updCtx g c f).keepsStarted

theorem State.keepsStarted_showCtx (s : State) (g c : Nat) : keepsStarted s (s.showCtx g c) :=
  ⟨by rw [s.showCtx_frame g c], by rw [s.showCtx_frame g c], by rw [s.showCtx_frame g c], fun _ _ => by rw [s.ctx_showCtx]⟩

theorem State.keepsStarted_dropHead (s : State) (g c : Nat) : keepsStarted s (s.dropHead g c) := by
  cases there : s.ctx g c with
  | none =>
    rw [show s.dropHead g c = s by simp [State.dropHead, there]]
    exact keepsStarted_refl s
  | some x =>
    cases head : x.head with
    | none =>
      rw [State.dropHead_none there head]
      exact keepsStarted_refl s
    | some h =>
      rw [State.dropHead_some there head, State.waitDropped_frame]
      exact (((keepsStarted_refl s).wr _ _ _ _).updCtx g c _).trans ⟨rfl, rfl, rfl, fun _ _ => rfl⟩

theorem State.maybePromote_outside {s : State} {g c : Nat} {x : CtxSt} (there : s.ctx g c = some x) (outside : x.region = none) :
    s.maybePromote g c = s := by
  unfold State.maybePromote
  rw [there, Option.bind_some, outside]

theorem State.keepsStarted_maybePromote (s : State) (g c : Nat) : keepsStarted s (s.maybePromote g c) := by
  unfold State.maybePromote
  split
  · exact keepsStarted_refl s
  · split
    · exact keepsStarted_refl s
    · split
      · exact keepsStarted_refl s
      · dsimp only
        exact ((s.keepsStarted_dropHead g c).trans
          (keepsWork_foldl (fun s (x : Nat × Nat × Nat) => s.keepsWork_numPromote _ _ _ _) _ _).keepsStarted).updCtx _ _ _

/-! ### Retirement (R153, R178) -/

/-- The descriptor has left its array and its conversions are counted. -/
def State.retirePrep (s : State) (j : Job) : State := (if j.op = 1 then s.leaveArray j else s).retireUpdate j

/-- What follows the end of a retired descriptor: its unit's registers, a promotion that is due, and what AG_CTX shows. -/
def State.retireShown (s : State) (j : Job) : State :=
  ((if j.unit = 20 then s.showTurret j.pa else s).maybePromote j.g j.c).showCtx j.g j.c

theorem State.keepsWork_retirePrep (s : State) (j : Job) : keepsWork s (s.retirePrep j) := by
  unfold State.retirePrep
  refine keepsWork.trans ?_ (State.keepsWork_retireUpdate _ j)
  split
  · exact s.keepsWork_leaveArray j
  · exact keepsWork_refl s

theorem State.keepsStarted_retireShown (s : State) (j : Job) : keepsStarted s (s.retireShown j) := by
  unfold State.retireShown
  refine (keepsStarted.trans ?_ (State.keepsStarted_maybePromote _ _ _)).trans (State.keepsStarted_showCtx _ _ _)
  split
  · exact (s.keepsWork_showTurret _).keepsStarted
  · exact keepsStarted_refl s

/-- Outside a region what follows a descriptor's end leaves its context. -/
theorem State.ctx_retireShown {s : State} {j : Job} {x : CtxSt} (there : s.ctx j.g j.c = some x) (outside : x.region = none) :
    (s.retireShown j).ctx j.g j.c = some x := by
  have shown : (if j.unit = 20 then s.showTurret j.pa else s).ctx j.g j.c = some x := by
    split
    · rw [State.ctx_congr (s.keepsWork_showTurret j.pa).ctxs]
      exact there
    · exact there
  unfold State.retireShown
  rw [State.ctx_showCtx, State.maybePromote_outside shown outside, shown]

/-- A retirement is an end of the descriptor, after what it did left its unit and the table. -/
theorem State.retire_ends (s : State) (j : Job) (o : Nat × Nat × Nat) : ∃ a status detail info, keepsStarted (s.retirePrep j) a ∧
    s.retire j o = (a.endJob j status detail info).retireShown j := by
  unfold State.retire
  extract_lets _ b _ reg hot _ e
  have ending : ∃ a status detail info, keepsStarted b a ∧ e = a.endJob j status detail info := by
    unfold e
    generalize reg = r
    split
    · split
      · split
        · refine ⟨_, _, _, _, ?_, rfl⟩
          split
          · exact ((keepsStarted_refl b).updCtx _ _ _).wr _ _ _ _
          · exact (keepsStarted_refl b).updCtx _ _ _
        · exact ⟨b, _, _, _, keepsStarted_refl b, rfl⟩
      · exact ⟨b, _, _, _, keepsStarted_refl b, rfl⟩
    · exact ⟨b, _, _, _, keepsStarted_refl b, rfl⟩
  obtain ⟨a, status, detail, info, kept, ended⟩ := ending
  exact ⟨a, status, detail, info, kept, congrArg (fun e => State.retireShown e j) ended⟩

/-- Outside a region a descriptor ends with its outcome. -/
theorem State.retire_outside {s : State} {j : Job} {x : CtxSt} (there : s.ctx j.g j.c = some x) (outside : x.region = none)
    (o : Nat × Nat × Nat) : s.retire j o = ((s.retirePrep j).endJob j o.1 o.2.1 o.2.2).retireShown j := by
  unfold State.retire
  extract_lets _ b _ reg hot _ e
  have none_ : reg = none := by
    show ((s.retirePrep j).ctx j.g j.c).bind (fun x => x.region) = none
    rw [State.ctx_congr (s.keepsWork_retirePrep j).ctxs, there, Option.bind_some, outside]
  have ended : e = b.endJob j o.1 o.2.1 o.2.2 := by
    unfold e
    rw [none_]
  exact congrArg (fun e => State.retireShown e j) ended

/-- What the end of a descriptor leaves: the others started, its partition's progress at this time, and the contexts open. -/
theorem State.endJob_leaves (s : State) (j : Job) (status detail info : Nat) :
    (s.endJob j status detail info).jobs = s.jobs.filter (fun x => x.id ≠ j.id) ∧
    ((s.endJob j status detail info).hang j.p).progress = s.now ∧
    ∀ g c, ((s.endJob j status detail info).ctx g c).isSome = (s.ctx g c).isSome := by
  have ending := s.onlyEnding_endJob j status detail info
  refine ⟨?_, ?_, ending.opens⟩
  · rw [ending.parts]
    rfl
  · rw [ending.parts]
    exact congrArg HangSt.progress ((s.dropJob j.id).hang_setHang_same j.p _)

theorem State.retire_leaves (s : State) (j : Job) (o : Nat × Nat × Nat) : (∀ y, y ∈ (s.retire j o).jobs → y.id ≠ j.id) ∧
    ((s.retire j o).hang j.p).progress = s.now ∧ ((s.retire j o).ctx j.g j.c).isSome = (s.ctx j.g j.c).isSome := by
  obtain ⟨a, status, detail, info, kept, result⟩ := s.retire_ends j o
  obtain ⟨jobs, progress, opens⟩ := a.endJob_leaves j status detail info
  have before := (s.keepsWork_retirePrep j).keepsStarted.trans kept
  have after := (a.endJob j status detail info).keepsStarted_retireShown j
  rw [result]
  refine ⟨fun y mem => ?_, ?_, (after.opens _ _).trans ((opens _ _).trans (before.opens _ _))⟩
  · rw [after.jobs, jobs] at mem
    exact of_decide_eq_true (List.mem_filter.mp mem).2
  · have same : ((a.endJob j status detail info).retireShown j).hang j.p = (a.endJob j status detail info).hang j.p :=
      congrArg (fun l : List (Nat × HangSt) => agetD l j.p {}) after.hng
    rw [same, progress, before.now]

/-- Outside a region a descriptor that asks for a record waits for it with its outcome. -/
theorem State.retire_record {s : State} {j : Job} {x : CtxSt} (there : s.ctx j.g j.c = some x) (outside : x.region = none)
    (asked : j.flags.testBit 1 = true) (alone : j.inReg = false) (o : Nat × Nat × Nat) : ∃ x' e, (s.retire j o).ctx j.g j.c = some x' ∧
    x'.ends = x.ends ++ [e] ∧ e.job = j.id ∧ e.status = o.1 ∧ e.detail = o.2.1 ∧ e.info = o.2.2 ∧ e.tag = j.tag ∧ e.write = true := by
  have prep : (s.retirePrep j).ctx j.g j.c = some x := by
    rw [State.ctx_congr (s.keepsWork_retirePrep j).ctxs]
    exact there
  obtain ⟨a, from_, ended⟩ := State.endJob_plain prep (status := o.1) (.inr outside) o.2.1 o.2.2
  have write : (a.endRec j o.1 o.2.1 o.2.2).write = true := by simp [State.endRec, asked, alone]
  obtain ⟨n, r, still, ctx⟩ := State.ctx_endAt from_.ctx o.1 o.2.1 o.2.2 (.inr write)
  rw [State.retire_outside there outside, ended]
  exact ⟨_, _, State.ctx_retireShown ctx (still outside), rfl, rfl, rfl, rfl, rfl, rfl, write⟩

theorem exec_descriptorRetire_due {s : State} {g c k : Nat} {j : Job} {o : Nat × Nat × Nat} (t : Nat) (group : g < 16) (context : c < 8)
    (found : (s.jobsOf g c)[k]? = some j) (outcome : s.jobOutcome j = some o) (plain : j.sampled = false) :
    exec (.descriptorRetire t g c k) s = .next ((s.tick t).retire j o) := by
  have found' : ((s.tick t).jobsOf g c)[k]? = some j := found
  have outcome' : (s.tick t).jobOutcome j = some o := outcome
  refine (if_pos (by simp [group, context])).trans (congrArg Host.Outcome.next ?_)
  rw [found']
  dsimp only
  rw [outcome']
  exact if_neg (by simp [plain])

theorem State.place_of_jobsOf {s : State} {g c k : Nat} {j : Job} (found : (s.jobsOf g c)[k]? = some j) : j.g = g ∧ j.c = c := by
  have mem := (List.mem_filter.mp (List.mem_of_getElem? found)).2
  simp only [Bool.and_eq_true, decide_eq_true_eq] at mem
  exact mem.1

/-! ### Levels (R160, R178) -/

/-- The region at its next level, which begins in the segment of a sound level-table entry. -/
def RegionSt.next (r : RegionSt) (b : Bytes) : RegionSt :=
  { r with level := r.level + 1, segAddr := leAt b 0 6, segCount := leAt b 6 2, pos := 0, stop := none, due := false, ovf := [] }

theorem exec_levelStart_sound {s s₁ : State} {t g c : Nat} {x : CtxSt} {r : RegionSt} {b : Bytes} (group : g < 16) (context : c < 8)
    (there : s.ctx g c = some x) (inside : x.region = some r) (due : r.due = true) (running : s.rd F.AG_CTX_STATE g c ≠ 2)
    (up : s.seqUp (s.rd F.AG_CONFIG_PARTITION g) g = true)
    (read : (s.tick t).devRead (dieOf g) g (s.rd F.AG_CONFIG_PARTITION g) (r.altAddr + 16 * r.level) 16 = (none, b, false, s₁))
    (sound : leAt b 0 6 % 64 = 0 ∧ leAt b 6 2 ≠ 0 ∧ allZero (slice b 8 8) = true) :
    exec (.levelStart t g c) s = .next ((s₁.updCtx g c (fun x => { x with region := some (r.next b) })).showCtx g c) := by
  have reg : ((s.tick t).ctx g c).bind (fun x => x.region) = some r := by
    rw [show (s.tick t).ctx g c = some x from there, Option.bind_some, inside]
  have go : ¬((!r.due) = true ∨ (s.tick t).rd F.AG_CTX_STATE g c = 2 ∨
      (!(s.tick t).seqUp ((s.tick t).rd F.AG_CONFIG_PARTITION g) g) = true) := by
    have up' : (s.tick t).seqUp ((s.tick t).rd F.AG_CONFIG_PARTITION g) g = true := up
    have running' : (s.tick t).rd F.AG_CTX_STATE g c ≠ 2 := running
    simp only [due, up', running']
    decide
  refine (if_pos (by simp [group, context])).trans (congrArg Host.Outcome.next ?_)
  rw [reg]
  dsimp only
  rw [if_neg go, State.tick_rd, read]
  exact if_pos ⟨rfl, rfl, sound⟩

/-- A next level that starts: the region stands at it, AG_CTX shows it, and only AG_CTX and what the read of the table leaves have changed. -/
theorem levelStart_sound {s s₁ : State} {t g c p addr : Nat} {x : CtxSt} {r : RegionSt} {b : Bytes} (there : s.ctx g c = some x)
    (read : (s.tick t).devRead (dieOf g) g p addr 16 = (none, b, false, s₁)) :
    ∃ s', (s₁.updCtx g c (fun x => { x with region := some (r.next b) })).showCtx g c = s' ∧
      s'.ctx g c = some { x with region := some (r.next b) } ∧
      s'.rd F.AG_CTX_LEVEL g c = (r.level + 1) % 8 ∧ s'.on F.AG_CTX_IN_REGION g c = true ∧
      sameRegsBut [.AG_CTX, .MEM_ECC, .CUP_ECC, .BWG_STATE, .BWG_SPENT] s s' ∧ sameMem s s' := by
  have got := State.onlyRead_of_devRead read
  have there₁ : s₁.ctx g c = some x := (State.ctx_congr got.onlyStored.keepsWork.ctxs g c).trans there
  have next : (s₁.updCtx g c (fun x => { x with region := some (r.next b) })).ctx g c = some { x with region := some (r.next b) } := by
    rw [State.ctx_updCtx, there₁, Option.map_some]
  obtain ⟨_, level, region⟩ := State.rd_showCtx next
  refine ⟨_, rfl, by rw [State.ctx_showCtx, next], level, region, fun f i j out => ?_, fun a => ?_⟩
  · rw [State.rd_showCtx_reg _ _ _ _ _ _ (fun e => out (by simp [e])), State.rd_updCtx]
    exact State.regs_of_devRead read f i j (fun e => out (List.mem_cons_of_mem _ e))
  · rw [State.showCtx_frame, State.updCtx_frame]
    exact sameMem_of_mem (s := s) got.mem a

/-! ### Completion records (R162, R310, R311) -/

/-- The memory a written record leaves: the write at the completion tail through the checks of the group's partition. -/
def State.recordStored (s : State) (g c : Nat) (x : CtxSt) (e : EndRec) : State :=
  (s.devWrite (dieOf g) g (s.rd F.AG_CONFIG_PARTITION g) (x.cqBase + 16 * (s.rd F.PCI_RING_CQ_TAIL g c % 2 ^ x.cqLog2))
    (e.bytes g c (s.rd F.PCI_RING_CQ_TAIL g c) x.cqLog2)).2

/-- A record written: the tail moves on, its slot is released, and its end waits no more. -/
def State.recordPassed (s : State) (g c i : Nat) (e : EndRec) : State :=
  ((s.wr F.PCI_RING_CQ_TAIL (i + 1) g c).unreserve g c).updCtx g c (fun y => { y with ends := y.ends.filter (fun z => z ≠ e) })

/-- The event that a record's status counts. -/
def State.statusCounted (s : State) (g status : Nat) : State :=
  if status = 1 then s.inc F.AG_SEQ_EVENTS_REJECTED g
  else if status = 0x0C then s.inc F.AG_SEQ_EVENTS_PROMOTIONS g
  else if status = 0x0D then s.inc F.AG_SEQ_EVENTS_FINAL g else s

/-- An armed interrupt is raised once. -/
def State.interrupted (s : State) (g c : Nat) (x : CtxSt) : State :=
  if s.on F.PCI_RING_ARMED g c then (s.wr F.PCI_RING_ARMED 0 g c).complInterrupt g c x else s

theorem State.statusCounted_frame (s : State) (g status : Nat) :
    s.statusCounted g status = { s with regs := (s.statusCounted g status).regs } := by
  unfold State.statusCounted
  split
  · rfl
  · split
    · rfl
    · split <;> rfl

theorem State.rd_statusCounted (s : State) (g status : Nat) (f : Fld) (i j : Nat) (other : f.reg ≠ .AG_SEQ_EVENTS) :
    (s.statusCounted g status).rd f i j = s.rd f i j := by
  unfold State.statusCounted
  split
  · exact s.rd_inc_reg _ _ _ _ _ _ _ other
  · split
    · exact s.rd_inc_reg _ _ _ _ _ _ _ other
    · split
      · exact s.rd_inc_reg _ _ _ _ _ _ _ other
      · rfl

theorem mem_addOnce {α : Type} [DecidableEq α] (l : List α) (x : α) : x ∈ addOnce l x := by
  unfold addOnce
  split
  · assumption
  · simp

theorem State.mem_vecs_vec (s : State) (fn : Fn) (v : Nat) : (fn, v) ∈ (s.vec fn v).host.vecs := by
  unfold State.vec HostSt.raised
  split <;> exact mem_addOnce _ _

theorem State.complInterrupt_frame (s : State) (g c : Nat) (x : CtxSt) :
    s.complInterrupt g c x = { s with host := (s.complInterrupt g c x).host } := by
  unfold State.complInterrupt State.vec State.coreVec
  split <;> split <;> rfl

/-- The completion interrupt reaches PF0 where PF0 opened the context, and the Belfry core that is its target. -/
theorem State.complInterrupt_targets (s : State) (g c : Nat) (x : CtxSt) :
    (x.irqFn = some .pf0 → (Fn.pf0, 64 + 8 * g + c) ∈ (s.complInterrupt g c x).host.vecs) ∧
    (x.irqCore.isSome = true → (x.irqCore.getD 0, 64 + 8 * g + c) ∈ (s.complInterrupt g c x).host.coreIrq) := by
  unfold State.complInterrupt
  refine ⟨fun opened => ?_, fun some_ => ?_⟩
  · rw [opened]
    dsimp only
    split <;> exact s.mem_vecs_vec _ _
  · obtain ⟨n, core⟩ := Option.isSome_iff_exists.mp some_
    rw [core]
    exact mem_addOnce _ _

/-- An armed interrupt that is raised changes its own bit and what the host is told. -/
theorem State.interrupted_frame (s : State) (g c : Nat) (x : CtxSt) :
    s.interrupted g c x = { s with regs := (s.interrupted g c x).regs, host := (s.interrupted g c x).host } := by
  unfold State.interrupted
  split
  · rw [State.complInterrupt_frame]
    rfl
  · rfl

theorem State.rd_interrupted (s : State) (g c : Nat) (x : CtxSt) (f : Fld) (i j : Nat) (other : f.lsb ≠ F.PCI_RING_ARMED.lsb) :
    (s.interrupted g c x).rd f i j = s.rd f i j := by
  unfold State.interrupted
  split
  · rw [State.complInterrupt_frame]
    exact s.rd_wr_lsb F.PCI_RING_ARMED f 0 g c i j other
  · rfl

/-- After the interrupt it is not armed, and where it was armed its targets have it. -/
theorem State.interrupted_once (s : State) (g c : Nat) (x : CtxSt) : (s.interrupted g c x).on F.PCI_RING_ARMED g c = false ∧
    (s.on F.PCI_RING_ARMED g c = true → (x.irqFn = some .pf0 → (Fn.pf0, 64 + 8 * g + c) ∈ (s.interrupted g c x).host.vecs) ∧
      (x.irqCore.isSome = true → (x.irqCore.getD 0, 64 + 8 * g + c) ∈ (s.interrupted g c x).host.coreIrq)) := by
  unfold State.interrupted
  split
  · refine ⟨?_, fun _ => State.complInterrupt_targets _ g c x⟩
    rw [State.complInterrupt_frame]
    show decide ((s.wr F.PCI_RING_ARMED 0 g c).rd F.PCI_RING_ARMED g c ≠ 0) = false
    rw [State.rd_wr_same]
    decide
  · next off => exact ⟨eq_false_of_ne_true off, fun on => absurd on off⟩

/-- What a record leaves of its ring and its context. -/
theorem State.recordPassed_shows {s : State} {g c : Nat} {x : CtxSt} (there : s.ctx g c = some x) (i : Nat) (e : EndRec)
    (fits : s.rd F.PCI_RING_RESERVED_SLOTS g c < 4096) :
    (s.recordPassed g c i e).mem = s.mem ∧
    (s.recordPassed g c i e).rd F.PCI_RING_CQ_TAIL g c = (i + 1) % 65536 ∧
    (s.recordPassed g c i e).rd F.PCI_RING_RESERVED_SLOTS g c = s.rd F.PCI_RING_RESERVED_SLOTS g c - 1 ∧
    (s.recordPassed g c i e).rd F.PCI_RING_ARMED g c = s.rd F.PCI_RING_ARMED g c ∧
    (s.recordPassed g c i e).ctx g c = some { x with ends := x.ends.filter (fun z => z ≠ e) } := by
  unfold State.recordPassed State.unreserve
  refine ⟨by rw [State.updCtx_frame]; rfl, ?_, ?_, ?_, ?_⟩
  · rw [State.rd_updCtx, State.rd_wr_lsb _ _ _ _ _ _ _ _ (by decide), State.rd_wr_same]
    rfl
  · rw [State.rd_updCtx, State.rd_wr_same, State.rd_wr_lsb _ _ _ _ _ _ _ _ (by decide)]
    exact Nat.mod_eq_of_lt (by show _ < 4096; omega)
  · rw [State.rd_updCtx, State.rd_wr_lsb _ _ _ _ _ _ _ _ (by decide), State.rd_wr_lsb _ _ _ _ _ _ _ _ (by decide)]
  · rw [State.ctx_updCtx]
    show (s.ctx g c).map _ = _
    rw [there, Option.map_some]

theorem exec_completionRecordWrite_taken {s : State} {g c k : Nat} {x : CtxSt} {e : EndRec} (t : Nat) (group : g < 16) (context : c < 8)
    (there : s.ctx g c = some x) (found : (x.ends.filter (fun e => !e.ringDue))[k]? = some e)
    (taken : s.writeWaits (x.cqBase + 16 * (s.rd F.PCI_RING_CQ_TAIL g c % 2 ^ x.cqLog2)) 16 = false) :
    exec (.completionRecordWrite t g c k) s = .next (((((s.tick t).recordStored g c x e).recordPassed g c (s.rd F.PCI_RING_CQ_TAIL g c) e
      ).statusCounted g e.status).interrupted g c x) := by
  have there' : (s.tick t).ctx g c = some x := there
  have go : ¬(s.tick t).writeWaits (x.cqBase + 16 * ((s.tick t).rd F.PCI_RING_CQ_TAIL g c % 2 ^ x.cqLog2)) 16 = true :=
    (Bool.eq_false_iff.mp taken : _)
  refine (if_pos (by simp [group, context])).trans (congrArg Host.Outcome.next ?_)
  rw [there']
  dsimp only
  rw [found]
  exact if_neg go

/-- A written record: the ring, the context and the interrupt of a context whose state the write left at `b`. -/
theorem recordWritten_shows {b : State} {g c : Nat} {x : CtxSt} (there : b.ctx g c = some x) (i : Nat) (e : EndRec)
    (fits : b.rd F.PCI_RING_RESERVED_SLOTS g c < 4096) :
    ∃ s', ((b.recordPassed g c i e).statusCounted g e.status).interrupted g c x = s' ∧ s'.mem = b.mem ∧
      s'.rd F.PCI_RING_CQ_TAIL g c = (i + 1) % 65536 ∧
      s'.rd F.PCI_RING_RESERVED_SLOTS g c = b.rd F.PCI_RING_RESERVED_SLOTS g c - 1 ∧ s'.on F.PCI_RING_ARMED g c = false ∧
      s'.ctx g c = some { x with ends := x.ends.filter (fun z => z ≠ e) } ∧
      (b.on F.PCI_RING_ARMED g c = true → (x.irqFn = some .pf0 → (Fn.pf0, 64 + 8 * g + c) ∈ s'.host.vecs) ∧
        (x.irqCore.isSome = true → (x.irqCore.getD 0, 64 + 8 * g + c) ∈ s'.host.coreIrq)) := by
  obtain ⟨mem, tail, slots, armed, ctx⟩ := State.recordPassed_shows there i e fits
  obtain ⟨off, told⟩ := ((b.recordPassed g c i e).statusCounted g e.status).interrupted_once g c x
  refine ⟨_, rfl, ?_, ?_, ?_, off, ?_, fun on => told ?_⟩
  · rw [State.interrupted_frame, State.statusCounted_frame]
    exact mem
  · rw [State.rd_interrupted _ _ _ _ _ _ _ (by decide), State.rd_statusCounted _ _ _ _ _ _ (by decide), tail]
  · rw [State.rd_interrupted _ _ _ _ _ _ _ (by decide), State.rd_statusCounted _ _ _ _ _ _ (by decide), slots]
  · rw [State.interrupted_frame, State.statusCounted_frame]
    exact ctx
  · rw [State.on, State.rd_statusCounted _ _ _ _ _ _ (by decide), armed]
    exact on

/-- Settles O32. A retirement is an end of its descriptor, after its unit and the table and before a promotion; a level starts by one read of
its entry; a record is one write at the completion tail. -/
theorem descriptorsRetire : Obligations.DescriptorsRetire := by
  unfold Obligations.DescriptorsRetire
  refine ⟨?retires, ?level, ?record⟩
  case retires =>
    intro s t g c k x j o group context found outcome plain there
    obtain ⟨rfl, rfl⟩ := State.place_of_jobsOf found
    obtain ⟨jobs, progress, still⟩ := (s.tick t).retire_leaves j o
    have there' : (s.tick t).ctx j.g j.c = some x := there
    rw [there', Option.isSome_some, Option.isSome_iff_exists] at still
    obtain ⟨x', ctx⟩ := still
    refine ⟨_, x', exec_descriptorRetire_due t group context found outcome plain, jobs, progress, ctx, fun outside asked alone => ?_⟩
    obtain ⟨y, e, same, ends⟩ := State.retire_record there' outside asked alone o
    obtain rfl := Option.some.inj (ctx.symm.trans same)
    exact ⟨e, ends⟩
  case level =>
    intro s s₁ t g c x r b group context there inside due running up read aligned counts zero
    rw [exec_levelStart_sound group context there inside due running up read ⟨aligned, counts, zero⟩]
    obtain ⟨s', result, shows⟩ := levelStart_sound (r := r) there read
    exact ⟨s', congrArg Host.Outcome.next result, shows⟩
  case record =>
    intro s t g c k x e group context there found _ fits taken
    rw [exec_completionRecordWrite_taken t group context there found taken]
    have stored : onlyStored (s.tick t) ((s.tick t).recordStored g c x e) := State.onlyStored_devWrite _ _ _ _ _ _ _ _
    have ring : ∀ f : Fld, f.reg = .PCI_RING → ((s.tick t).recordStored g c x e).rd f g c = s.rd f g c := fun f e =>
      stored.regs f g c (by rw [e]; decide)
    have there' : ((s.tick t).recordStored g c x e).ctx g c = some x := (State.ctx_congr stored.keepsWork.ctxs g c).trans there
    have shown := recordWritten_shows there' (s.rd F.PCI_RING_CQ_TAIL g c) e
    rw [State.on, ring _ rfl, ring _ rfl] at shown
    obtain ⟨s', result, shows⟩ := shown fits
    exact ⟨s', congrArg Host.Outcome.next result, shows⟩

end Sys2Proof.Machine
end

section
/-!
PROOFS of the statements of spec/07: rings, the bells they count on and the waits that take counts (O33).
-/

namespace Sys2Proof.Machine

/-! ### The rings of a cycle, in their order (R168) -/

theorem placeRing_perm (r : Ring) (l : List Ring) : (placeRing r l).Perm (r :: l) := by
  induction l with
  | nil => exact List.Perm.refl _
  | cons x l ih =>
    unfold placeRing
    split
    · exact List.Perm.refl _
    · exact (ih.cons x).trans (List.Perm.swap r x l)

/-- The rings of a cycle in the order in which they are applied. -/
def inPlace (l : List Ring) : List Ring := l.foldl (fun a r => placeRing r a) []

theorem inPlace_perm (l : List Ring) : (inPlace l).Perm l := by
  have grows : ∀ a, (l.foldl (fun a r => placeRing r a) a).Perm (l ++ a) := by
    induction l with
    | nil => exact fun a => List.Perm.refl _
    | cons r l ih => exact fun a => (ih _).trans (((placeRing_perm r a).append_left l).trans List.perm_middle)
  simpa [inPlace] using grows []

/-- What a list of rings adds to a bell. -/
def ringSum (l : List Ring) (b : Nat) : Nat := ((l.filter (fun r => r.bell = b)).map (fun r => r.count)).sum

theorem ringSum_cons (r : Ring) (l : List Ring) (b : Nat) : ringSum (r :: l) b = (if r.bell = b then r.count else 0) + ringSum l b := by
  unfold ringSum
  rw [List.filter_cons]
  by_cases same : r.bell = b
  · simp [same]
  · simp [same]

theorem ringSum_perm {l l' : List Ring} (h : l.Perm l') (b : Nat) : ringSum l b = ringSum l' b := ((h.filter _).map _).sum_eq

/-! ### The rings taken for a cycle (R165) -/

theorem of_mem_takeRings {s : State} {p : Nat} {ks : List Nat} {r : Ring} (mem : r ∈ (s.takeRings p ks).1) : r.p = p := by
  obtain ⟨x, taken, rfl⟩ := List.mem_map.mp mem
  exact of_decide_eq_true (List.mem_filter.mp (List.fst_mem_of_mem_zipIdx (List.mem_filter.mp taken).1)).2

/-- The rings taken and those left of a partition are its rings. -/
theorem State.length_takeRings (s : State) (p : Nat) (ks : List Nat) :
    ((s.takeRings p ks).2.rings.filter (fun r => r.p = p)).length + (s.takeRings p ks).1.length = (s.rings.filter (fun r => r.p = p)).length := by
  have left : ∀ r, r ∈ ((s.rings.filter (fun r => r.p = p)).zipIdx.filter (fun x => !ks.contains x.2)).map (fun x => x.1) → r.p = p := by
    intro r mem
    obtain ⟨x, kept, rfl⟩ := List.mem_map.mp mem
    exact of_decide_eq_true (List.mem_filter.mp (List.fst_mem_of_mem_zipIdx (List.mem_filter.mp kept).1)).2
  have others : (s.rings.filter (fun r => r.p ≠ p)).filter (fun r => r.p = p) = [] := by
    rw [List.filter_filter, List.filter_eq_nil_iff]
    simp
  have split_ := List.length_eq_length_filter_add (l := (s.rings.filter (fun r => r.p = p)).zipIdx) (fun x => ks.contains x.2)
  unfold State.takeRings
  dsimp only
  rw [List.filter_append, others, List.nil_append, List.filter_eq_self.mpr (fun r mem => decide_eq_true (left r mem)), List.length_map,
    List.length_map, Nat.add_comm, ← split_, List.length_zipIdx]

theorem filter_zipIdx_eq {α : Type} (l : List α) (n k : Nat) :
    (l.zipIdx n).filter (fun x => [n + k].contains x.2) = (l[k]?.map (fun a => (a, n + k))).toList := by
  induction l generalizing n k with
  | nil => rfl
  | cons a l ih =>
    rw [List.zipIdx_cons, List.filter_cons]
    cases k with
    | zero =>
      have rest : (l.zipIdx (n + 1)).filter (fun x => [n + 0].contains x.2) = [] := by
        rw [List.filter_eq_nil_iff]
        intro x mem
        have above := List.le_snd_of_mem_zipIdx mem
        have other : x.2 ≠ n := by omega
        simpa using other
      rw [if_pos (by simp), rest]
      rfl
    | succ k =>
      have shifted : n + (k + 1) = n + 1 + k := by omega
      rw [if_neg (by simp), List.getElem?_cons_succ, shifted, ih]

theorem State.takeRings_one {s : State} {p k : Nat} {r : Ring} (found : (s.rings.filter (fun r => r.p = p))[k]? = some r) :
    (s.takeRings p [k]).1 = [r] := by
  have taken := filter_zipIdx_eq (s.rings.filter (fun r => r.p = p)) 0 k
  rw [Nat.zero_add, found] at taken
  unfold State.takeRings
  dsimp only
  rw [taken]
  rfl

theorem State.takeRings_nil (s : State) (p : Nat) : (s.takeRings p []).1 = [] := by
  simp [State.takeRings]

/-! ### Waits (R166) -/

/-- Where no wait stands on a bell, evaluating its waits changes nothing. -/
theorem State.evalWaits_unwaited {s : State} {p bell : Nat} (none_ : ∀ w, w ∈ s.waits → w.p = p → w.bell ≠ bell) (n : Nat) :
    s.evalWaits p bell n = s := by
  have none' : s.waits.find? (fun w => decide (w.p = p) && decide (w.bell = bell)) = none := by
    rw [List.find?_eq_none]
    intro w mem
    simpa using none_ w mem
  cases n with
  | zero => rfl
  | succ n =>
    unfold State.evalWaits
    rw [none']
    cases s.homeOf p <;> rfl

theorem State.evalWaits_idle {s : State} (idle : s.waits = []) (p bell n : Nat) : s.evalWaits p bell n = s :=
  State.evalWaits_unwaited (by simp [idle]) n

theorem State.foldl_evalWaits_unwaited {s : State} {bells : List (Nat × Nat)}
    (unwaited : ∀ b, b ∈ bells → ∀ w, w ∈ s.waits → w.p = b.1 → w.bell ≠ b.2) :
    bells.foldl (fun (s : State) b => s.evalWaits b.1 b.2 (s.waits.length + 1)) s = s := by
  induction bells with
  | nil => rfl
  | cons b bells ih =>
    rw [List.foldl_cons, State.evalWaits_unwaited (unwaited b List.mem_cons_self)]
    exact ih (fun c mem => unwaited c (List.mem_cons_of_mem _ mem))

/-- Rings whose bells nobody waits on are applied and nothing else. -/
theorem State.ringsArrive_unwaited {s : State} {l : List Ring} (kept : ((inPlace l).foldl State.ringApply s).waits = s.waits)
    (unwaited : ∀ r, r ∈ l → ∀ w, w ∈ s.waits → w.p = r.p → w.bell ≠ r.bell) :
    s.ringsArrive l = (inPlace l).foldl State.ringApply s := by
  refine State.foldl_evalWaits_unwaited fun b mem => ?_
  obtain ⟨r, ring, rfl⟩ := List.mem_map.mp (List.mem_dedup.mp mem)
  exact kept ▸ unwaited r ((inPlace_perm l).mem_iff.mp ring)

theorem State.ringsArrive_one (s : State) (r : Ring) :
    s.ringsArrive [r] = (s.ringApply r).evalWaits r.p r.bell ((s.ringApply r).waits.length + 1) := by
  simp [State.ringsArrive, placeRing]

theorem State.ringsArrive_nil (s : State) : s.ringsArrive [] = s := rfl

/-! ### A ring at its home block (R165, R168) -/

section Apply
variable {s : State} {r : Ring} {home : Nat} (at_ : s.homeOf r.p = some home) (alone : r.job = none)
include at_ alone

/-- A ring of its own partition that fits adds its count. -/
theorem State.ringApply_fits (own : r.from_ = r.p) (fits : s.rd F.BEL_STATE_COUNT home r.bell + r.count < 2 ^ 32) :
    s.ringApply r = s.wr F.BEL_STATE_COUNT (s.rd F.BEL_STATE_COUNT home r.bell + r.count) home r.bell := by
  unfold State.ringApply
  rw [at_, alone]
  refine if_neg ?_
  simp only [own, ne_eq, not_true_eq_false, decide_false, Bool.false_eq_true, false_or]
  omega

/-- A ring of another partition is counted as refused and reported. -/
theorem State.ringApply_foreign (foreign : r.from_ ≠ r.p) : s.ringApply r = (s.inc F.BEL_EVENTS_RING_REFUSED home).raise
    { cls := 5, level := 1, master := r.src, access := 2, part := r.p, source := home, code := 3, aux := r.bell } := by
  unfold State.ringApply
  rw [at_, alone]
  simp [foreign]

/-- A refused ring leaves the waits, and of the registers changes only the counter of refused rings. -/
theorem State.ringApply_refused (bad : r.from_ ≠ r.p ∨ 2 ^ 32 ≤ s.rd F.BEL_STATE_COUNT home r.bell + r.count) :
    (s.ringApply r).waits = s.waits ∧ ∀ f i j, (s.ringApply r).rd f i j = (s.inc F.BEL_EVENTS_RING_REFUSED home).rd f i j := by
  by_cases foreign : r.from_ ≠ r.p
  · rw [State.ringApply_foreign at_ alone foreign]
    exact ⟨State.raise_waits _ _, State.raise_rd _ _⟩
  · unfold State.ringApply
    rw [at_, alone]
    dsimp only
    rw [if_pos (by simpa using bad), if_neg (by simpa using foreign)]
    split
    · exact ⟨State.raise_waits _ _, State.raise_rd _ _⟩
    · exact ⟨rfl, fun _ _ _ => rfl⟩

end Apply

/-- Rings have added their counts to the bells of a home block. -/
structure ringsAdded (home : Nat) (l : List Ring) (s s' : State) : Prop where
  parts : s' = { s with regs := s'.regs }
  regs : sameRegsBut [.BEL_STATE] s s'
  counts : ∀ b, s'.rd F.BEL_STATE_COUNT home b = s.rd F.BEL_STATE_COUNT home b + ringSum l b

theorem ringsAdded.cons {home : Nat} {r : Ring} {l : List Ring} {a b c : State} (h : ringsAdded home [r] a b) (h' : ringsAdded home l b c) :
    ringsAdded home (r :: l) a c := by
  refine ⟨?_, fun f i j out => (h'.regs f i j out).trans (h.regs f i j out), fun k => ?_⟩
  · rw [h'.parts, h.parts]
  · rw [h'.counts, h.counts, ringSum_cons r [], ringSum_cons r l]
    exact Nat.add_assoc _ _ _

theorem ringsAdded_one {s : State} {r : Ring} {home : Nat} (at_ : s.homeOf r.p = some home) (alone : r.job = none) (own : r.from_ = r.p)
    (fits : s.rd F.BEL_STATE_COUNT home r.bell + r.count < 2 ^ 32) : ringsAdded home [r] s (s.ringApply r) := by
  rw [State.ringApply_fits at_ alone own fits]
  refine ⟨rfl, fun f i j out => s.rd_wr_reg _ _ _ _ _ _ _ (fun e => out (by simp [e])), fun b => ?_⟩
  rw [ringSum_cons]
  by_cases same : r.bell = b
  · rw [if_pos same, ← same, State.rd_wr_same]
    exact Nat.mod_eq_of_lt fits
  · rw [if_neg same, State.rd_wr_inst _ _ _ _ _ _ _ _ (.inr (fun e => same e.symm))]
    rfl

/-- Rings of one partition that fit are applied one after the other, and each adds its count. -/
theorem ringsAdded_foldl {home p : Nat} {l : List Ring} (rings : ∀ r, r ∈ l → r.p = p ∧ r.from_ = p ∧ r.job = none) (s : State)
    (at_ : s.homeOf p = some home) (fits : ∀ r, r ∈ l → s.rd F.BEL_STATE_COUNT home r.bell + ringSum l r.bell < 2 ^ 32) :
    ringsAdded home l s (l.foldl State.ringApply s) := by
  induction l generalizing s with
  | nil => exact ⟨rfl, fun _ _ _ _ => rfl, fun _ => rfl⟩
  | cons r l ih =>
    obtain ⟨here, own, alone⟩ := rings r List.mem_cons_self
    have room := fits r List.mem_cons_self
    rw [ringSum_cons, if_pos rfl] at room
    have first : ringsAdded home [r] s (s.ringApply r) := ringsAdded_one (here ▸ at_) alone (own.trans here.symm) (by omega)
    refine first.cons (ih (fun x mem => rings x (List.mem_cons_of_mem _ mem)) _ ?_ (fun x mem => ?_))
    · rw [first.parts]
      exact at_
    · have whole := fits x (List.mem_cons_of_mem _ mem)
      rw [ringSum_cons] at whole
      rw [first.counts, ringSum_cons]
      exact (Nat.add_assoc _ _ _).trans_lt whole

/-! ### Rings that arrive (R165, R166, R168) -/

section Arrive
variable {s : State} {p h : Nat} (t : Nat) (part : p < 16) (live : s.hngState p ≠ 3) (at_ : s.homeOf p = some h) (runs : s.groupRuns h = true)
include part live at_ runs

theorem exec_bellRingArrive_taken {ks : List Nat} (some_ : (s.takeRings p ks).1 ≠ []) : exec (.bellRingArrive t p ks) s =
    .next (((s.tick t).takeRings p ks).2.ringsArrive (s.takeRings p ks).1) := by
  have live' : (s.tick t).hngState p ≠ 3 := live
  have at' : (s.tick t).homeOf p = some h := at_
  have some' : ((s.tick t).takeRings p ks).1 ≠ [] := some_
  refine (if_pos (by simp [part])).trans (congrArg Host.Outcome.next ?_)
  dsimp only
  rw [if_neg (by simpa [live'] using some'), at']
  exact if_pos runs

theorem exec_bellRingArrive_one {k : Nat} {r : Ring} (found : (s.rings.filter (fun r => r.p = p))[k]? = some r) :
    exec (.bellRingArrive t p [k]) s = .next (((s.tick t).takeRings p [k]).2.ringsArrive [r]) := by
  rw [exec_bellRingArrive_taken t part live at_ runs (by rw [State.takeRings_one found]; exact List.cons_ne_nil _ _),
    State.takeRings_one found]

end Arrive

/-- One refused ring on whose bell nobody waits is applied and nothing else. -/
theorem State.ringsArrive_refused {s : State} {r : Ring} {home : Nat} (at_ : s.homeOf r.p = some home) (alone : r.job = none)
    (bad : r.from_ ≠ r.p ∨ 2 ^ 32 ≤ s.rd F.BEL_STATE_COUNT home r.bell + r.count)
    (unwaited : ∀ w, w ∈ s.waits → w.p = r.p → w.bell ≠ r.bell) : s.ringsArrive [r] = s.ringApply r :=
  State.ringsArrive_unwaited (State.ringApply_refused at_ alone bad).1 (by simpa using unwaited)

theorem State.ringApply_foreign_fc {s : State} {r : Ring} {home : Nat} (at_ : s.homeOf r.p = some home) (alone : r.job = none)
    (foreign : r.from_ ≠ r.p) : (s.ringApply r).fc = (s.raise
      { cls := 5, level := 1, master := r.src, access := 2, part := r.p, source := home, code := 3, aux := r.bell }).fc := by
  rw [State.ringApply_foreign at_ alone foreign]
  exact State.raise_fc_congr _ rfl rfl (s.rd_inc_reg _ _ _ _ _ _ _ (by decide))

/-! ### Software rings and counts (R165, R169) -/

theorem State.asWriter_own {who : Requester} {p : Nat} (own : who = .mgt ∨ who = .pf0 ∨ who = .bfy p) (s : State) (eff : State → State) :
    s.asWriter who p eff = eff s := by
  obtain rfl | rfl | rfl := own
  · rfl
  · rfl
  · exact if_pos rfl

theorem reqPart_own {who : Requester} {p : Nat} (own : who = .mgt ∨ who = .pf0 ∨ who = .bfy p) : reqPart who p = p := by
  obtain rfl | rfl | rfl := own <;> rfl

theorem exec_belRing_own {who : Requester} {p : Nat} (own : who = .mgt ∨ who = .pf0 ∨ who = .bfy p) (part : p < 16) (s : State) (t word : Nat) :
    exec (.belRing t who p word) s = .next ((s.tick t).ringWrite who p word) :=
  (if_pos (by simp [part])).trans (congrArg Host.Outcome.next (State.asWriter_own own _ _))

theorem State.ringWrite_counted {s : State} {who : Requester} {p word : Nat} (own : who = .mgt ∨ who = .pf0 ∨ who = .bfy p)
    (counts : bits word 0 32 ≠ 0) (home : (s.homeOf p).isSome = true) (live : s.hngState p ≠ 3) : s.ringWrite who p word =
    { s with rings := s.rings ++ [{ p := p, bell := bits word 32 12, count := bits word 0 32, from_ := p, src := reqMaster who }] } := by
  unfold State.ringWrite
  rw [if_neg (by simp [counts, live, Option.isSome_iff_ne_none.mp home]), reqPart_own own]

theorem exec_belRing_denied {s : State} {p q : Nat} (part : p < 16) (other : q ≠ p) (t word : Nat) :
    exec (.belRing t (.bfy q) p word) s = .next ((s.tick t).registerDenied q true) :=
  (if_pos (by simp [part])).trans (congrArg Host.Outcome.next (if_neg other))

theorem exec_belSet_own {s : State} {t p word h : Nat} {who : Requester} (own : who = .mgt ∨ who = .pf0 ∨ who = .bfy p) (part : p < 16)
    (at_ : s.homeOf p = some h) (there : s.closedReg .BEL_SET h = false) (runs : s.groupRuns h = true)
    (first : s.behind (.access who .BEL_SET h 0 (some (word, 0))) = none) :
    exec (.belSet t who p word) s = .next ((s.tick t).setBell h p word) := by
  have at' : (s.tick t).homeOf p = some h := at_
  have there' : ¬(s.tick t).closedReg .BEL_SET h = true := Bool.eq_false_iff.mp there
  have first' : (s.tick t).behind (.access who .BEL_SET h 0 (some (word, 0))) = none := first
  refine (if_pos (by simp [part])).trans (congrArg Host.Outcome.next ?_)
  rw [at']
  dsimp only
  rw [State.asWriter_own own]
  unfold State.windowWrite
  rw [if_neg there']
  dsimp only
  rw [first']
  exact if_pos runs

theorem State.setBell_free {s : State} {h p word : Nat} (live : s.hngState p ≠ 3)
    (free : ∀ x, x ∈ s.waits → x.p = p → x.bell ≠ bits word 32 12) :
    s.setBell h p word = s.wr F.BEL_STATE_COUNT (bits word 0 32) h (bits word 32 12) := by
  unfold State.setBell
  rw [if_neg live, if_neg (by simpa using free)]

theorem State.setBell_waited {s : State} {h p word : Nat} (live : s.hngState p ≠ 3)
    (waited : ∃ x, x ∈ s.waits ∧ x.p = p ∧ x.bell = bits word 32 12) : s.setBell h p word = s.inc F.BEL_EVENTS_SET_REFUSED h := by
  unfold State.setBell
  rw [if_neg live, if_pos (by simpa using waited)]

theorem State.setBell_frame (s : State) (h p word : Nat) : s.setBell h p word = { s with regs := (s.setBell h p word).regs } := by
  unfold State.setBell
  dsimp only
  split
  · rfl
  · split <;> rfl

/-- A write of one field changes that field alone. -/
theorem State.sameBut_wr (s : State) (f : Fld) (v i j : Nat) : sameBut [fkey f i j] s (s.wr f v i j) := fun g i' j' out =>
  s.rd_wr_other f g v i j i' j' (fun e => out (List.mem_singleton.mpr e))

/-! ### A wait that is satisfied (R166) -/

/-- A wait takes its count: it is registered no more and the head it held up goes on. -/
def State.waitTaken (s : State) (home : Nat) (w : Wait) : State :=
  let s := s.wr F.BEL_STATE_COUNT (s.rd F.BEL_STATE_COUNT home w.bell - w.n) home w.bell
  let s := ({ s with waits := s.waits.filter (fun x => x ≠ w) } : State).stirred home
  let s := s.updCtx w.g w.c (fun x => { x with head := x.head.map (fun h => { h with waits := false }) })
  (if s.rd F.AG_CTX_STATE w.g w.c = 3 then s.wr F.AG_CTX_STATE 1 w.g w.c else s).progress w.p

/-- What is left of a wait that took its count. -/
theorem State.waitTaken_shows (s : State) (home : Nat) (w : Wait) : (s.waitTaken home w).waits = s.waits.filter (fun x => x ≠ w) ∧
    (s.waitTaken home w).mem = s.mem ∧
    (s.waitTaken home w).ctx w.g w.c = (s.ctx w.g w.c).map (fun x => { x with head := x.head.map (fun h => { h with waits := false }) }) ∧
    ∀ f i j, f.reg ≠ .AG_CTX →
      (s.waitTaken home w).rd f i j = (s.wr F.BEL_STATE_COUNT (s.rd F.BEL_STATE_COUNT home w.bell - w.n) home w.bell).rd f i j := by
  unfold State.waitTaken
  extract_lets a b c
  have frame : c = { b with ctxs := c.ctxs } := State.updCtx_frame _ _ _ _
  have ctx : c.ctx w.g w.c = (s.ctx w.g w.c).map (fun x => { x with head := x.head.map (fun h => { h with waits := false }) }) :=
    b.ctx_updCtx _ _ _
  have rd : ∀ f i j, c.rd f i j = a.rd f i j := b.rd_updCtx _ _ _
  have waits : c.waits = s.waits.filter (fun x => x ≠ w) := by rw [frame]; rfl
  have mem : c.mem = s.mem := by rw [frame]; rfl
  split
  · exact ⟨waits, mem, ctx, fun f i j other => (c.rd_wr_reg F.AG_CTX_STATE f 1 w.g w.c i j other).trans (rd f i j)⟩
  · exact ⟨waits, mem, ctx, fun f i j _ => rd f i j⟩

/-- The only wait, on a bell whose count reaches it, takes its count. -/
theorem State.evalWaits_satisfied {s : State} {home : Nat} {w : Wait} (at_ : s.homeOf w.p = some home) (only : s.waits = [w])
    (enough : w.n ≤ s.rd F.BEL_STATE_COUNT home w.bell) (n : Nat) : s.evalWaits w.p w.bell (n + 1) = s.waitTaken home w := by
  have found : s.waits.find? (fun x => decide (x.p = w.p) && decide (x.bell = w.bell)) = some w := by simp [only]
  have idle : (s.waitTaken home w).waits = [] := by simp [(s.waitTaken_shows home w).1, only]
  unfold State.evalWaits
  rw [at_, found]
  exact (if_pos enough).trans (State.evalWaits_idle idle _ _ n)

/-! ### A wait that expires (R167) -/

/-- A wait whose time has come is registered no more and is counted. -/
def State.waitOver (s : State) (home : Nat) (w : Wait) : State :=
  (({ s with waits := s.waits.filter (fun x => x ≠ w) } : State).stirred home).inc F.BEL_EVENTS_TIMEOUTS home

/-- The descriptor of an expired wait leaves the head and ends WAIT_TIMEOUT. -/
def State.timedOut (s : State) (p n : Nat) (j : Job) : State := ((s.takeHead j).progress p).endJob j 2 0 n

/-- The end of a descriptor leaves memory, the waits and every register but those that show a status. -/
theorem State.endJob_keeps (s : State) (j : Job) (status detail info : Nat) : (s.endJob j status detail info).waits = s.waits ∧
    (s.endJob j status detail info).mem = s.mem ∧
    sameRegsBut [.AG_CTX, .AG_SEQ_EVENTS, .PCI_RING] s (s.endJob j status detail info) := by
  obtain ⟨parts, regs, _⟩ := s.onlyEnding_endJob j status detail info
  exact ⟨by rw [parts]; rfl, by rw [parts]; rfl, fun f i k out => regs f i k out⟩

/-- So does the head's descriptor that goes, its partition making progress. -/
theorem State.takeHead_keeps (s : State) (j : Job) (p : Nat) : ((s.takeHead j).progress p).waits = s.waits ∧
    ((s.takeHead j).progress p).mem = s.mem ∧ sameRegsBut [.AG_CTX, .AG_SEQ_EVENTS, .PCI_RING] s ((s.takeHead j).progress p) := by
  obtain ⟨parts, regs, _⟩ := s.onlyEnding_takeHead j
  generalize s.takeHead j = a at parts regs
  exact ⟨by rw [parts]; rfl, by rw [parts]; rfl, fun f i k out => regs f i k out⟩

theorem State.timedOut_shows {s : State} {j : Job} {x : CtxSt} (there : s.ctx j.g j.c = some x) (p n : Nat) :
    ∃ x' e, (s.timedOut p n j).ctx j.g j.c = some x' ∧ x'.head = none ∧ e ∈ x'.ends ∧ e.job = j.id ∧ e.status = 2 ∧ e.info = n ∧
      (s.timedOut p n j).rd F.AG_CTX_STATE j.g j.c = 2 ∧ (s.timedOut p n j).waits = s.waits ∧ (s.timedOut p n j).mem = s.mem ∧
      sameRegsBut [.AG_CTX, .AG_SEQ_EVENTS, .PCI_RING] s (s.timedOut p n j) := by
  obtain ⟨r, taken⟩ := State.ctx_takeHead there
  obtain ⟨waits, mem, regs⟩ := s.takeHead_keeps j p
  have there' : ((s.takeHead j).progress p).ctx j.g j.c = some { x with head := none, region := r } := taken
  unfold State.timedOut
  generalize (s.takeHead j).progress p = a at *
  obtain ⟨waits', mem', regs'⟩ := a.endJob_keeps j 2 0 n
  have failed := State.endJob_fails (status := 2) there' (by decide) 0 n
  obtain ⟨k, r', e, ctx, job, _, status, _, info⟩ := failed.record
  exact ⟨_, e, ctx, rfl, by simp, job, status, info, failed.state, waits'.trans waits, mem'.trans mem,
    fun f i k out => (regs' f i k out).trans (regs f i k out)⟩

/-- What a wait whose time has come leaves: the descriptor at its context's head ends. -/
def State.waitExpired (s : State) (g c home : Nat) (w : Wait) : State :=
  match ((s.waitOver home w).ctx g c).bind (fun x => x.head) with
  | some h => (s.waitOver home w).timedOut w.p ((s.waitOver home w).rd F.BEL_STATE_COUNT home w.bell) h.job
  | none => s.waitOver home w

theorem State.waitExpired_head {s : State} {x : CtxSt} {h : Head} (there : s.ctx h.job.g h.job.c = some x) (head : x.head = some h)
    (home : Nat) (w : Wait) : s.waitExpired h.job.g h.job.c home w =
      (s.waitOver home w).timedOut w.p (s.rd F.BEL_STATE_COUNT home w.bell) h.job := by
  have here : ((s.waitOver home w).ctx h.job.g h.job.c).bind (fun x => x.head) = some h := by
    show (s.ctx h.job.g h.job.c).bind _ = _
    rw [there, Option.bind_some, head]
  have counts : (s.waitOver home w).rd F.BEL_STATE_COUNT home w.bell = s.rd F.BEL_STATE_COUNT home w.bell :=
    State.rd_inc_reg _ _ _ _ _ _ _ _ (by decide)
  unfold State.waitExpired
  rw [here, counts]

section Expire
variable {s : State} {t g c : Nat} {w : Wait} (group : g < 16) (context : c < 8) (only : s.waits = [w]) (array : w.g = g)
  (place : w.c = c) (due : w.due ≤ max s.now t) (free : s.free_ w.p = true)
include group context only array place due free

/-- The rings of the cycle arrive; a wait that they did not satisfy expires. -/
theorem exec_waitExpire_due {ks : List Nat} {b : State} (arrived : ((s.tick t).takeRings w.p ks).2.ringsArrive (s.takeRings w.p ks).1 = b) :
    exec (.waitExpire t g c ks) s = .next (if w ∉ b.waits then b else
      (b.waitExpired g c ((b.homeOf w.p).getD 0) w).evalWaits w.p w.bell
        ((b.waitExpired g c ((b.homeOf w.p).getD 0) w).waits.length + 1)) := by
  have found : (s.tick t).waits.find? (fun w => decide (w.g = g) && decide (w.c = c)) = some w := by simp [only, array, place]
  have free' : (s.tick t).free_ w.p = true := free
  have late : ¬((s.tick t).now < w.due) := Nat.not_lt.mpr due
  refine (if_pos (by simp [group, context])).trans (congrArg Host.Outcome.next ?_)
  rw [found]
  dsimp only
  rw [if_neg (by simpa [free'] using late), show ((s.tick t).takeRings w.p ks).1 = (s.takeRings w.p ks).1 from rfl, arrived]
  rfl

end Expire

/-! ### Bells and waits (R165 to R169) -/

/-- The rings of one cycle add their counts and leave the home block's other registers, where nobody waits on their bells. -/
theorem ringsAdded_arrive {s : State} {p home : Nat} {l : List Ring} (at_ : s.homeOf p = some home)
    (rings : ∀ r, r ∈ l → r.p = p ∧ r.from_ = p ∧ r.job = none)
    (unwaited : ∀ w, w ∈ s.waits → w.p = p → ∀ r, r ∈ l → w.bell ≠ r.bell)
    (fits : ∀ r, r ∈ l → s.rd F.BEL_STATE_COUNT home r.bell + ringSum l r.bell < 2 ^ 32) : ringsAdded home l s (s.ringsArrive l) := by
  have perm := inPlace_perm l
  obtain ⟨parts, regs, counts⟩ := ringsAdded_foldl (l := inPlace l) (fun r mem => rings r (perm.mem_iff.mp mem)) s at_
    (fun r mem => by rw [ringSum_perm perm]; exact fits r (perm.mem_iff.mp mem))
  have waits : ((inPlace l).foldl State.ringApply s).waits = s.waits := by rw [parts]
  rw [State.ringsArrive_unwaited waits (fun r mem w wait here => unwaited w wait (here.trans (rings r mem).1) r mem)]
  exact ⟨parts, regs, fun b => by rw [counts, ringSum_perm perm]⟩

/-- A ring of the only wait's cycle that brings the count to it is applied, and the wait takes its count. -/
theorem State.ringsArrive_satisfies {s : State} {w : Wait} {r : Ring} {home : Nat} (at_ : s.homeOf w.p = some home) (only : s.waits = [w])
    (mine : r.p = w.p) (own : r.from_ = w.p) (alone : r.job = none) (bell : r.bell = w.bell)
    (fits : s.rd F.BEL_STATE_COUNT home w.bell + r.count < 2 ^ 32) (enough : w.n ≤ s.rd F.BEL_STATE_COUNT home w.bell + r.count) :
    s.ringsArrive [r] = (s.wr F.BEL_STATE_COUNT (s.rd F.BEL_STATE_COUNT home w.bell + r.count) home w.bell).waitTaken home w := by
  have applied : s.ringApply r = s.wr F.BEL_STATE_COUNT (s.rd F.BEL_STATE_COUNT home w.bell + r.count) home w.bell := by
    rw [State.ringApply_fits (mine ▸ at_) alone (own.trans mine.symm) (by rwa [bell]), bell]
  rw [State.ringsArrive_one, applied, mine, bell]
  refine State.evalWaits_satisfied (s := s.wr _ _ _ _) at_ only ?_ _
  rw [State.rd_wr_same]
  exact enough.trans_eq (Nat.mod_eq_of_lt fits).symm

/-- What the home block and the context of that wait then show. -/
theorem State.ringsArrive_taken {s : State} {w : Wait} {r : Ring} {home : Nat} (at_ : s.homeOf w.p = some home) (only : s.waits = [w])
    (mine : r.p = w.p) (own : r.from_ = w.p) (alone : r.job = none) (bell : r.bell = w.bell)
    (fits : s.rd F.BEL_STATE_COUNT home w.bell + r.count < 2 ^ 32) (enough : w.n ≤ s.rd F.BEL_STATE_COUNT home w.bell + r.count) :
    ∃ b, s.ringsArrive [r] = b ∧ b.waits = [] ∧ b.mem = s.mem ∧
      b.ctx w.g w.c = (s.ctx w.g w.c).map (fun x => { x with head := x.head.map (fun h => { h with waits := false }) }) ∧
      b.rd F.BEL_STATE_COUNT home w.bell = s.rd F.BEL_STATE_COUNT home w.bell + r.count - w.n ∧
      b.rd F.BEL_EVENTS_TIMEOUTS home = s.rd F.BEL_EVENTS_TIMEOUTS home := by
  obtain ⟨waits, mem, ctx, regs⟩ := State.waitTaken_shows
    (s.wr F.BEL_STATE_COUNT (s.rd F.BEL_STATE_COUNT home w.bell + r.count) home w.bell) home w
  refine ⟨_, State.ringsArrive_satisfies at_ only mine own alone bell fits enough, ?_, mem, ctx, ?_, ?_⟩
  · rw [waits]
    show s.waits.filter _ = []
    simp [only]
  · rw [regs _ _ _ (by decide), State.rd_wr_same, State.rd_wr_same, Nat.mod_eq_of_lt fits]
    exact Nat.mod_eq_of_lt (by show _ < 2 ^ 32; omega)
  · rw [regs _ _ _ (by decide), State.rd_wr_reg _ _ _ _ _ _ _ _ (by decide), State.rd_wr_reg _ _ _ _ _ _ _ _ (by decide)]

/-- Settles O33. Rings are applied in their order and only then the waits of their bells are evaluated; an expiry looks at the waits that the
rings of its cycle left. -/
theorem bellsAndWaits : Obligations.BellsAndWaits := by
  unfold Obligations.BellsAndWaits
  refine ⟨?together, ?foreign, ?overflow, ?software, ?nothing, ?denied, ?set, ?expires, ?satisfied⟩
  case together =>
    rintro s t p h ks _ part rfl some_ live at_ runs own alone unwaited fits bells
    have here : ∀ r, r ∈ (s.takeRings p ks).1 → r.p = p ∧ r.from_ = p ∧ r.job = none := fun r mem =>
      ⟨of_mem_takeRings mem, own r mem, alone r mem⟩
    obtain ⟨parts, regs, counts⟩ := ringsAdded_arrive (s := ((s.tick t).takeRings p ks).2) (l := (s.takeRings p ks).1) at_ here unwaited
      (fun r mem => fits r.bell (bells r mem))
    refine ⟨_, exec_bellRingArrive_taken t part live at_ runs some_, fun b _ => counts b, ?_, regs, ?_⟩
    · rw [parts]
      exact s.length_takeRings p ks
    · rw [parts]
      rfl
  case foreign =>
    intro s t p k h r part found live at_ runs other alone unwaited
    have here : r.p = p := of_decide_eq_true (List.mem_filter.mp (List.mem_of_getElem? found)).2
    have at' : (((s.tick t).takeRings p [k]).2).homeOf r.p = some h := here ▸ at_
    have away : r.from_ ≠ r.p := here ▸ other
    rw [exec_bellRingArrive_one t part live at_ runs found, State.ringsArrive_refused at' alone (.inl away) (here ▸ unwaited)]
    obtain ⟨_, regs⟩ := State.ringApply_refused at' alone (.inl away)
    refine ⟨_, _, rfl, (regs _ _ _).trans (State.rd_inc_reg _ _ _ _ _ _ _ _ (by decide)), (regs _ _ _).trans (State.rd_inc_same _ _ _ _ _),
      rfl, rfl, rfl, rfl, (State.ringApply_foreign_fc at' alone away).trans (State.raise_fc_congr _ rfl rfl rfl), ?_⟩
    rw [State.ringApply_foreign at' alone away]
    exact sameMem_of_mem (State.raise_mem _ _)
  case overflow =>
    intro s t p k h r part found live at_ runs own alone exceeds unwaited
    have here : r.p = p := of_decide_eq_true (List.mem_filter.mp (List.mem_of_getElem? found)).2
    have at' : (((s.tick t).takeRings p [k]).2).homeOf r.p = some h := here ▸ at_
    rw [exec_bellRingArrive_one t part live at_ runs found, State.ringsArrive_refused at' alone (.inr exceeds) (here ▸ unwaited)]
    obtain ⟨_, regs⟩ := State.ringApply_refused at' alone (.inr exceeds)
    exact ⟨_, rfl, (regs _ _ _).trans (State.rd_inc_reg _ _ _ _ _ _ _ _ (by decide)), (regs _ _ _).trans (State.rd_inc_same _ _ _ _ _)⟩
  case software =>
    intro s t p w who part own counts home live
    rw [exec_belRing_own own part, State.ringWrite_counted (s := s.tick t) own counts home live]
    rfl
  case nothing =>
    intro s t p w who part own zero
    rw [exec_belRing_own own part, State.ringWrite, if_pos (.inl zero)]
  case denied =>
    intro s t p q w part other
    exact ⟨_, _, exec_belRing_denied part other t w, rfl, rfl, rfl, rfl, s.tick_raise_frame t _⟩
  case set =>
    intro s t p w h who part at_ own there runs first live
    refine ⟨_, exec_belSet_own own part at_ there runs first, fun free => ?_, fun waited => ?_, ?_⟩
    · rw [State.setBell_free (s := s.tick t) live free]
      exact ⟨(State.rd_wr_same _ _ _ _ _).trans (Nat.mod_mod _ _), State.sameBut_wr (s.tick t) _ _ _ _⟩
    · rw [State.setBell_waited (s := s.tick t) live waited]
      exact ⟨State.rd_inc_same _ _ _ _ _, State.sameBut_wr (s.tick t) _ _ _ _⟩
    · rw [State.setBell_frame]
      rfl
  case expires =>
    rintro s t _ _ hg w x h group context only array place due free at_ there head rfl rfl
    obtain ⟨b, arrived⟩ : ∃ b, ((s.tick t).takeRings w.p []).2.ringsArrive (s.takeRings w.p []).1 = b := ⟨_, rfl⟩
    rw [exec_waitExpire_due group context only array place due free arrived]
    rw [State.takeRings_nil, State.ringsArrive_nil] at arrived
    have stays : b.waits = [w] := by rw [← arrived]; exact only
    have at' : b.homeOf w.p = some hg := by rw [← arrived]; exact at_
    have there' : b.ctx h.job.g h.job.c = some x := by rw [← arrived]; exact there
    have regs : ∀ f i j, b.rd f i j = s.rd f i j := by rw [← arrived]; exact fun _ _ _ => rfl
    have mem : b.mem = s.mem := by rw [← arrived]; rfl
    have dropped : (b.waitOver hg w).waits = [] := by simp [State.waitOver, State.inc, State.wr, State.stirred, stays]
    have overAt : (b.waitOver hg w).ctx h.job.g h.job.c = some x := there'
    obtain ⟨x', e, ctx, empty, ends, job, status, info, state, waits, mem', kept⟩ := State.timedOut_shows overAt w.p
      (b.rd F.BEL_STATE_COUNT hg w.bell)
    rw [if_neg (by simp [stays]), at', Option.getD_some, State.waitExpired_head there' head, State.evalWaits_idle (waits.trans dropped)]
    refine ⟨_, x', rfl, waits.trans dropped, ?_, ?_, ctx, empty, ⟨e, ends, job, status, info.trans (regs _ _ _)⟩, state,
      sameMem_of_mem (mem'.trans mem)⟩
    · rw [kept _ _ _ (by decide), State.waitOver, State.rd_inc_reg _ _ _ _ _ _ _ _ (by decide)]
      exact regs _ _ _
    · rw [kept _ _ _ (by decide), State.waitOver, State.rd_inc_same]
      exact congrArg (fun n => counted F.BEL_EVENTS_TIMEOUTS n 1) (regs F.BEL_EVENTS_TIMEOUTS hg 0)
  case satisfied =>
    rintro s t _ _ k hg w r group context only rfl rfl due free at_ found own alone bell fits enough
    have mine : r.p = w.p := of_decide_eq_true (List.mem_filter.mp (List.mem_of_getElem? found)).2
    obtain ⟨b, arrived, waits, mem, shows⟩ := State.ringsArrive_taken (s := ((s.tick t).takeRings w.p [k]).2) at_ only mine own alone bell fits
      enough
    rw [← State.takeRings_one found] at arrived
    rw [exec_waitExpire_due group context only rfl rfl due free arrived, if_pos (by simp [waits])]
    obtain ⟨ctx, count, timeouts⟩ := shows
    exact ⟨b, rfl, waits, count, timeouts, ctx, sameMem_of_mem mem⟩

end Sys2Proof.Machine
end

section
/-!
PROOFS of the statements of spec/07: the programs of the turret units and their deposits (O35).
-/

namespace Sys2Proof.Machine

/-! ### What the acts of a program leave (R171, R176) -/

/-- The started descriptors and the turret fault captures are as before. -/
structure keepsPrograms (s s' : State) : Prop where
  jobs : s'.jobs = s.jobs
  captures : ∀ f i k, f.reg = .TUR_FAULT → s'.rd f i k = s.rd f i k

theorem keepsPrograms_refl (s : State) : keepsPrograms s s := ⟨rfl, fun _ _ _ _ => rfl⟩

theorem keepsPrograms.trans {a b c : State} (h : keepsPrograms a b) (h' : keepsPrograms b c) : keepsPrograms a c :=
  ⟨h'.jobs.trans h.jobs, fun f i k reg => (h'.captures f i k reg).trans (h.captures f i k reg)⟩

theorem onlyStored.keepsPrograms {s s' : State} (h : onlyStored s s') : keepsPrograms s s' :=
  ⟨by rw [h.parts], fun f i k reg => h.regs f i k (by rw [reg]; decide)⟩

theorem State.onlyRead_turretRead (s : State) (j : Job) (addr n : Nat) : onlyRead s (s.turretRead j addr n).2.2 := by
  have got := s.onlyRead_jobRead j (0x10 + j.pa) addr n
  unfold State.turretRead
  split
  · next e => rwa [e] at got
  · next e => rwa [e] at got

theorem State.onlyRead_of_turretRead {s s' : State} {j : Job} {addr n : Nat} {r : Option Nat} {b : Bytes}
    (read : s.turretRead j addr n = (r, b, s')) : onlyRead s s' := by
  have got := s.onlyRead_turretRead j addr n
  rwa [read] at got

theorem State.keepsPrograms_of_jobWrite {s s' : State} {j j' : Job} {unit addr : Nat} {b : Bytes} {r : Option Nat}
    (write : s.jobWrite j unit addr b = (r, s', j')) : keepsPrograms s s' ∧ j'.id = j.id := by
  have stored := s.onlyStored_jobWrite j unit addr b
  obtain ⟨w, d, job⟩ := s.jobWrite_job j unit addr b
  rw [write] at stored job
  have same : j'.id = { j with wlog := w, divert := d }.id := congrArg Job.id job
  exact ⟨stored.keepsPrograms, same⟩

theorem State.keepsPrograms_turretRing (s : State) (j : Job) (bell count : Nat) : keepsPrograms s (s.turretRing j bell count).2 := by
  unfold State.turretRing
  split
  · exact keepsPrograms_refl s
  · split
    · split
      · rw [State.updCtx_frame]
        exact ⟨rfl, fun _ _ _ _ => rfl⟩
      · exact keepsPrograms_refl s
    · exact ⟨rfl, fun _ _ _ _ => rfl⟩

theorem State.keepsPrograms_of_turretRing {s s' : State} {j : Job} {bell count : Nat} {ok : Bool}
    (ring : s.turretRing j bell count = (ok, s')) : keepsPrograms s s' := by
  have kept := s.keepsPrograms_turretRing j bell count
  rwa [ring] at kept

theorem State.id_turretConvert {s : State} {j j' : Job} {src dst mode policy x row col v : Nat} {tensor : Option Nat}
    (converted : s.turretConvert j src dst mode policy x tensor row col = some (v, j')) : j'.id = j.id := by
  unfold State.turretConvert at converted
  split at converted
  · split at converted
    · cases converted
    · rw [← (Prod.mk.inj (Option.some.inj converted)).2]
  · cases converted

/-- What a run has come to: the descriptors started before, the captures as before, and the same descriptor. -/
structure programRun (s : State) (j : Job) (r : TurretEnd × State × Job) : Prop where
  kept : keepsPrograms s r.2.1
  same : r.2.2.id = j.id

theorem programRun_stop (s : State) (j : Job) (e : TurretEnd) : programRun s j (e, s, j) := ⟨keepsPrograms_refl s, rfl⟩

theorem programRun.after {s a : State} {j k : Job} {r : TurretEnd × State × Job} (h : programRun a k r) (kept : keepsPrograms s a)
    (same : k.id = j.id) : programRun s j r := ⟨kept.trans h.kept, h.same.trans same⟩

/-- Whatever acts the reference gives, a run of them is a run of the same descriptor. -/
theorem State.programRun_turretRun (s : State) (j : Job) (values : List Nat) (fuel : Nat) :
    programRun s j (s.turretRun j values fuel) := by
  induction fuel generalizing s j values with
  | zero => exact programRun_stop s j _
  | succ fuel ih =>
    unfold State.turretRun
    split
    case h_1 => exact programRun_stop s j _
    case h_2 => exact programRun_stop s j _
    case h_3 =>
      split
      · exact ih _ _ _
      · exact programRun_stop s j _
    case h_4 =>
      split
      · next read => exact (programRun_stop _ j _).after (State.onlyRead_of_turretRead read).onlyStored.keepsPrograms rfl
      · next read => exact (ih _ _ _).after (State.onlyRead_of_turretRead read).onlyStored.keepsPrograms rfl
    case h_5 =>
      split
      · next write =>
        obtain ⟨kept, same⟩ := State.keepsPrograms_of_jobWrite write
        exact (programRun_stop _ _ _).after kept same
      · next write =>
        obtain ⟨kept, same⟩ := State.keepsPrograms_of_jobWrite write
        exact (ih _ _ _).after kept same
    case h_6 =>
      split
      · next ring => exact (ih _ _ _).after (State.keepsPrograms_of_turretRing ring) rfl
      · next ring => exact (programRun_stop _ j _).after (State.keepsPrograms_of_turretRing ring) rfl
    case h_7 => exact ih _ _ _
    case h_8 =>
      split
      · next converted => exact (ih _ _ _).after (keepsPrograms_refl s) (State.id_turretConvert converted)
      · exact programRun_stop s j _

theorem State.programRun_turretProgram (s : State) (j : Job) (acts : Nat) : programRun s j (s.turretProgram j acts) := by
  unfold State.turretProgram
  split
  · next read => exact (programRun_stop _ j _).after (State.onlyRead_of_turretRead read).onlyStored.keepsPrograms rfl
  · next read =>
    have fetched := (State.onlyRead_of_turretRead read).onlyStored.keepsPrograms
    split
    · next args => exact (programRun_stop _ j _).after (fetched.trans (State.onlyRead_of_turretRead args).onlyStored.keepsPrograms) rfl
    · next args =>
      exact (State.programRun_turretRun _ j _ acts).after (fetched.trans (State.onlyRead_of_turretRead args).onlyStored.keepsPrograms) rfl

/-! ### The end of a program (R153) -/

theorem State.showTurret_frame (s : State) (g : Nat) : s.showTurret g = { s with regs := (s.showTurret g).regs } := by
  unfold State.showTurret State.wrB
  dsimp only
  split <;> rfl

theorem State.rd_showTurret (s : State) (g : Nat) (f : Fld) (i k : Nat) (other : f.reg ≠ .TUR_STATUS) : (s.showTurret g).rd f i k = s.rd f i k := by
  unfold State.showTurret State.wrB
  dsimp only
  split
  · rw [State.rd_wr_reg _ _ _ _ _ _ _ _ other, State.rd_wr_reg _ _ _ _ _ _ _ _ other, State.rd_wr_reg _ _ _ _ _ _ _ _ other]
  · rw [State.rd_wr_reg _ _ _ _ _ _ _ _ other, State.rd_wr_reg _ _ _ _ _ _ _ _ other]

/-- Putting a descriptor of another number leaves the one found. -/
theorem State.job_putJob_other (s : State) {id : Nat} (x : Job) (other : x.id ≠ id) : (s.putJob x).job id = s.job id := by
  unfold State.job State.putJob
  dsimp only
  induction s.jobs with
  | nil => rfl
  | cons y l ih =>
    rw [List.map_cons, List.find?_cons, List.find?_cons, ih]
    by_cases same : y.id = x.id
    · simp [same, other]
    · simp [same]

theorem State.job_isSome {s : State} {j : Job} {id : Nat} (mem : j ∈ s.jobs) (same : j.id = id) : ∃ x, s.job id = some x := by
  rw [← Option.isSome_iff_exists]
  unfold State.job
  rw [List.find?_isSome]
  exact ⟨j, mem, by simp [same]⟩

/-- A program that begins to run is another than one that was put as ended. -/
theorem State.id_ne_of_running {s : State} {g : Nat} {j k : Job} (ended : j.ended = true)
    (next : ((s.putJob j).turretJobs g).head? = some k) : k.id ≠ j.id := by
  obtain ⟨mem, runs⟩ := List.mem_filter.mp (List.mem_of_mem_head? next)
  obtain ⟨x, _, put⟩ := List.mem_map.mp mem
  simp only [Bool.and_eq_true, Bool.not_eq_true'] at runs
  intro same
  by_cases replaced : x.id = j.id
  · rw [if_pos replaced] at put
    rw [← put, ended] at runs
    exact Bool.noConfusion runs.2
  · rw [if_neg replaced] at put
    exact replaced (put ▸ same)

/-- The staged program of a unit, if there is one, begins to run. -/
def State.stagedRuns (s : State) (g : Nat) : State :=
  match (s.turretJobs g).head? with
  | some k => s.putJob { k with startAt := s.now }
  | none => s

theorem State.stagedRuns_frame (s : State) (g : Nat) : s.stagedRuns g = { s with jobs := (s.stagedRuns g).jobs } := by
  unfold State.stagedRuns
  split <;> rfl

theorem State.job_stagedRuns {s : State} {g : Nat} {j : Job} (ended : j.ended = true) :
    ((s.putJob j).stagedRuns g).job j.id = (s.putJob j).job j.id := by
  unfold State.stagedRuns
  split
  · next k staged =>
    have other : k.id ≠ j.id := State.id_ne_of_running ended staged
    exact State.job_putJob_other _ _ other
  · rfl

/-- The end of a program leaves it ended, memory and the rings as they were, and of the registers changes the unit's status and cycles. -/
theorem State.turretDone_shows {s : State} {g id : Nat} {j : Job} (same : j.id = id) (started : ∃ x, s.job id = some x) :
    (s.turretDone g j).job id = some { j with ended := true } ∧ (s.turretDone g j).rings = s.rings ∧ (s.turretDone g j).mem = s.mem ∧
    sameRegsBut [.TUR_STATUS, .TUR_LANE_CYCLES] s (s.turretDone g j) := by
  subst same
  obtain ⟨x, found⟩ := started
  obtain ⟨a, counted_⟩ : ∃ a, s.inc F.TUR_LANE_CYCLES_BUSY g 0 (s.cyclesSince g j.startAt) = a := ⟨_, rfl⟩
  have done : s.turretDone g j = ((a.putJob { j with ended := true }).stagedRuns g).showTurret g := by rw [← counted_]; rfl
  have found' : a.job j.id = some x := by rw [← counted_]; exact found
  rw [done]
  refine ⟨?_, ?_, ?_, fun f i k out => ?_⟩
  · rw [State.showTurret_frame]
    exact (State.job_stagedRuns (j := { j with ended := true }) rfl).trans (State.job_putJob found' _ rfl)
  · rw [State.showTurret_frame, State.stagedRuns_frame, ← counted_]
    rfl
  · rw [State.showTurret_frame, State.stagedRuns_frame, ← counted_]
    rfl
  · rw [State.rd_showTurret _ _ _ _ _ (fun e => out (by simp [e])), State.stagedRuns_frame, ← counted_]
    exact s.rd_inc_reg _ _ _ _ _ _ _ (fun e => out (by simp [e]))

/-! ### A program that comes to its end (R153, R176) -/

/-- What TURRET_PROGRAM_END leaves of a run. -/
def State.turretEnds (s : State) (g : Nat) : TurretEnd × State × Job → State
  | (.done, a, j) => a.turretDone g j
  | (.limit, a, j) => a.turretDone g (j.fail 0x0E 0 0)
  | (.running, _, _) => s
  | (.fault _ _, _, _) => s

theorem exec_turretProgramEnd_first {s : State} {g : Nat} {j : Job} (t acts : Nat) (group : g < 16)
    (first : (s.turretJobs g).head? = some j) :
    exec (.turretProgramEnd t g acts) s = .next ((s.tick t).turretEnds g ((s.tick t).turretProgram j acts)) := by
  have first' : ((s.tick t).turretJobs g).head? = some j := first
  refine (if_pos (by simp [group])).trans (congrArg Host.Outcome.next ?_)
  rw [first']
  dsimp only
  generalize (s.tick t).turretProgram j acts = r
  obtain ⟨e, a, k⟩ := r
  cases e <;> rfl

/-- The program is still a started descriptor when its run stops. -/
theorem started_of_run {s : State} {g : Nat} {j : Job} (t : Nat) (first : (s.turretJobs g).head? = some j) {a : State} {k : Job} {e : TurretEnd}
    (run : programRun (s.tick t) j (e, a, k)) : ∃ x, a.job j.id = some x := by
  have mem : j ∈ s.jobs := (List.mem_filter.mp (List.mem_of_mem_head? first)).1
  exact State.job_isSome (run.kept.jobs ▸ mem) rfl

/-! ### A program that faults (R163) -/

/-- A fault is captured where none is. -/
def State.turretCaptured (s : State) (g code pc : Nat) : State :=
  if s.on F.TUR_FAULT_VALID g then s else ((s.wr F.TUR_FAULT_VALID 1 g).wr F.TUR_FAULT_CODE code g).wr F.TUR_FAULT_PC pc g

theorem exec_turretFault_met {s s₁ : State} {t g acts code pc : Nat} {j j₁ : Job} (group : g < 16)
    (first : (s.turretJobs g).head? = some j) (fault : (s.tick t).turretProgram j acts = (.fault code pc, s₁, j₁)) :
    exec (.turretFault t g acts) s = .next ((s₁.turretCaptured g code pc).turretDone g (j₁.fail 0x0B code pc)) := by
  have first' : ((s.tick t).turretJobs g).head? = some j := first
  refine (if_pos (by simp [group])).trans (congrArg Host.Outcome.next ?_)
  rw [first']
  dsimp only
  rw [fault]
  rfl

/-- The first fault of a unit is captured with its code and program counter. -/
theorem State.turretCaptured_shows {s : State} {g : Nat} (free : s.on F.TUR_FAULT_VALID g = false) (code pc : Nat) :
    s.turretCaptured g code pc = { s with regs := (s.turretCaptured g code pc).regs } ∧
    (s.turretCaptured g code pc).rd F.TUR_FAULT_VALID g = 1 ∧ (s.turretCaptured g code pc).rd F.TUR_FAULT_CODE g = code % 256 ∧
    (s.turretCaptured g code pc).rd F.TUR_FAULT_PC g = pc % 2 ^ 32 ∧ sameRegsBut [.TUR_FAULT] s (s.turretCaptured g code pc) := by
  unfold State.turretCaptured
  rw [if_neg (Bool.eq_false_iff.mp free)]
  refine ⟨rfl, ?_, ?_, State.rd_wr_same _ _ _ _ _, fun f i k out => ?_⟩
  · rw [State.rd_wr_lsb _ _ _ _ _ _ _ _ (by decide), State.rd_wr_lsb _ _ _ _ _ _ _ _ (by decide), State.rd_wr_same]
    rfl
  · rw [State.rd_wr_lsb _ _ _ _ _ _ _ _ (by decide), State.rd_wr_same]
    rfl
  · have other : f.reg ≠ .TUR_FAULT := fun e => out (by simp [e])
    rw [State.rd_wr_reg _ _ _ _ _ _ _ _ other, State.rd_wr_reg _ _ _ _ _ _ _ _ other, State.rd_wr_reg _ _ _ _ _ _ _ _ other]

theorem Job.id_fail (j : Job) (status detail info : Nat) : (j.fail status detail info).id = j.id := by
  obtain ⟨b, e⟩ := j.fail_eq status detail info
  rw [e]

/-- A program that meets the unit's first fault. -/
theorem turretFault_shows {s s₁ : State} {t g acts code pc : Nat} {j j₁ : Job} (group : g < 16) (first : (s.turretJobs g).head? = some j)
    (free : s.on F.TUR_FAULT_VALID g = false) (fault : (s.tick t).turretProgram j acts = (.fault code pc, s₁, j₁)) :
    ∃ s', exec (.turretFault t g acts) s = .next s' ∧ s'.rd F.TUR_FAULT_VALID g = 1 ∧ s'.rd F.TUR_FAULT_CODE g = code % 256 ∧
      s'.rd F.TUR_FAULT_PC g = pc % 2 ^ 32 ∧ s'.job j.id = some { j₁.fail 0x0B code pc with ended := true } ∧
      sameRegsBut [.TUR_STATUS, .TUR_LANE_CYCLES, .TUR_FAULT] s₁ s' ∧ s'.mem = s₁.mem := by
  have run := (s.tick t).programRun_turretProgram j acts
  rw [fault] at run
  have free₁ : s₁.on F.TUR_FAULT_VALID g = false := by
    unfold State.on
    rw [run.kept.captures _ _ _ rfl]
    exact free
  obtain ⟨frame, valid, codes, counter, regs⟩ := State.turretCaptured_shows free₁ code pc
  have id : (j₁.fail 0x0B code pc).id = j.id := (Job.id_fail _ _ _ _).trans run.same
  obtain ⟨x, started⟩ := started_of_run t first run
  have started' : (s₁.turretCaptured g code pc).job j.id = some x := by
    rw [frame]
    exact started
  obtain ⟨job, _, mem, kept⟩ := State.turretDone_shows (g := g) id ⟨x, started'⟩
  refine ⟨_, exec_turretFault_met group first fault, (kept _ _ _ (by decide)).trans valid, (kept _ _ _ (by decide)).trans codes,
    (kept _ _ _ (by decide)).trans counter, job, fun f i k out => ?_, mem.trans (by rw [frame])⟩
  exact (kept f i k (fun e => out (List.mem_append_left [Reg.TUR_FAULT] e))).trans
    (regs f i k (fun e => out (List.mem_append_right [Reg.TUR_STATUS, Reg.TUR_LANE_CYCLES] e)))

/-- A program whose first bytes cannot be read faults at its entry. -/
theorem State.turretProgram_unread {s s₁ : State} {j : Job} {code : Nat} {b : Bytes} (acts : Nat)
    (unread : s.turretRead j j.progAddr 64 = (some code, b, s₁)) : s.turretProgram j acts = (.fault code (j.progAddr % 2 ^ 32), s₁, j) := by
  unfold State.turretProgram
  rw [unread]

/-! ### Deposits (R198) -/

theorem exec_watchDeposit_read {s s₁ : State} {t g l upd wgt : Nat} {j : Job} {e : Bytes} (group : g < 16) (entry : l < 1024)
    (runs : s.jobs.find? (fun j => decide (j.pa = g) && decide (j.unit = 20) && !j.ended) = some j) (real : j.echo = false)
    (on : s.numOn j.g = true) (read : (s.tick t).tabRead j.g j.p (watchOff l) 64 = (some (some e), s₁)) :
    exec (.watchDeposit t g l upd wgt) s = .next (if (leAt e 32 1).testBit 0 then s₁.tabWrite j.g j.p (watchOff l)
      (natLe 8 (accRound true ((fp64.decode false (leAt e 0 8)).add (fp64.decode false upd)) 0 0) ++
       natLe 8 (accRound true ((fp64.decode false (leAt e 8 8)).add (fp64.decode false wgt)) 0 0)) else s₁) := by
  have runs' : (s.tick t).jobs.find? (fun j => decide (j.pa = g) && decide (j.unit = 20) && !j.ended) = some j := runs
  have on' : (s.tick t).numOn j.g = true := on
  refine (if_pos (by simp [group, entry])).trans (congrArg Host.Outcome.next ?_)
  rw [runs']
  dsimp only
  rw [if_neg (by simp [real, on']), read]

/-- Settles O35. A run of whatever acts keeps the started descriptors, the captures and its own descriptor, so that its end finds it. -/
theorem turretPrograms : Obligations.TurretPrograms := by
  unfold Obligations.TurretPrograms
  refine ⟨?ends, ?faults, ?entry, ?deposit⟩
  case ends =>
    intro s t g acts j group first
    rw [exec_turretProgramEnd_first t acts group first]
    have run := (s.tick t).programRun_turretProgram j acts
    generalize (s.tick t).turretProgram j acts = r at run
    obtain ⟨e, a, k⟩ := r
    have started := started_of_run t first run
    have same : k.id = j.id := run.same
    refine ⟨_, rfl, fun done => ?_, fun limit => ?_, fun notDone notLimit => ?_⟩
    · obtain rfl : e = .done := done
      obtain ⟨job, rings, _, regs⟩ := State.turretDone_shows (g := g) same started
      exact ⟨job, rings, regs⟩
    · obtain rfl : e = .limit := limit
      exact (State.turretDone_shows ((Job.id_fail k 0x0E 0 0).trans same) started).1
    · cases e with
      | running => rfl
      | fault => rfl
      | done => exact absurd rfl notDone
      | limit => exact absurd rfl notLimit
  case faults =>
    intro s s₁ t g acts code pc j j₁ group first free fault
    obtain ⟨s', result, valid, codes, counter, job, regs, mem⟩ := turretFault_shows group first free fault
    exact ⟨s', result, valid, codes, counter, job, regs, sameMem_of_mem mem⟩
  case entry =>
    intro s s₁ t g acts code j b group first free unread
    obtain ⟨s', result, _, codes, counter, job, _, mem⟩ := turretFault_shows group first free (State.turretProgram_unread acts unread)
    exact ⟨s', result, codes, counter.trans (Nat.mod_mod _ _), job,
      sameMem_of_mem (mem.trans (State.onlyRead_of_turretRead unread).mem)⟩
  case deposit =>
    intro s s₁ t g l upd wgt j e group entry runs real on read
    exact ⟨_, exec_watchDeposit_read group entry runs real on read, fun enabled => if_pos enabled,
      fun off => if_neg (Bool.eq_false_iff.mp off)⟩

end Sys2Proof.Machine
end

section
/-!
PROOFS of the statements of spec/09: numbers stored in memory, page-map writes and invalidations (O18).
-/

namespace Sys2Proof.Machine

/-! ### Numbers in memory (R4) -/

/-- A byte of a string that was stored reads as it stands in the string. -/
theorem memGet_memPutAll_at {m : List Host.Cell} (a : Nat) (b : Bytes) (k : Nat) (w : Memory.wf m = true) (inside : k < b.length) :
    memGet (memPutAll m a b) (a + k) = b.getD k 0 := by
  induction b generalizing m a k with
  | nil => exact absurd inside (Nat.not_lt_zero k)
  | cons x b ih =>
    cases k with
    | zero => exact memGet_memPutAll_first a x b w
    | succ k =>
      have next := ih (a + 1) k (wf_memPut a x w) (Nat.lt_of_succ_lt_succ inside)
      rwa [Nat.add_assoc, Nat.add_comm 1 k] at next

theorem State.rdBytes_wrBytes {s : State} (a : Nat) (b : Bytes) (w : Memory.wf s.mem = true) : (s.wrBytes a b).rdBytes a b.length = b := by
  refine List.ext_getElem (by simp [State.rdBytes]) (fun k _ inside => ?_)
  simp only [State.rdBytes, List.getElem_map, List.getElem_range]
  exact (memGet_memPutAll_at a b k w inside).trans (List.getD_eq_getElem b 0 inside)

/-- A number reads back as it was stored, cut to its bytes. -/
theorem State.rdNat_wrNat {s : State} (a n v : Nat) (w : Memory.wf s.mem = true) : (s.wrNat a n v).rdNat a n = v % 256 ^ n := by
  have read := State.rdBytes_wrBytes a (natLe n v) w
  rw [length_natLe] at read
  rw [State.rdNat, State.wrNat, read, leNat_natLe]

/-! ### Page-map writes (R204, R205, R207, R323) -/

theorem cleanEntry_lt (e : Nat) : cleanEntry e < 2 ^ 64 := by
  have high : bits e 46 18 < 2 ^ 18 := bits_lt e 46 18
  have low : bits e 0 24 < 2 ^ 24 := bits_lt e 0 24
  unfold cleanEntry
  omega

/-- An entry of the page map reads as it was stored. -/
theorem State.pmEntry_wrNat {s : State} (v e : Nat) (w : Memory.wf s.mem = true) (fits : e < 2 ^ 64) : (s.wrNat (8 * v) 8 e).pmEntry v = e :=
  (State.rdNat_wrNat (8 * v) 8 e w).trans (Nat.mod_eq_of_lt fits)

@[simp] theorem State.mapOk_tick (s : State) (t v e : Nat) : (s.tick t).mapOk v e = s.mapOk v e := by
  unfold State.mapOk
  rfl

@[simp] theorem State.mirrorOk_tick (s : State) (t v e : Nat) : (s.tick t).mirrorOk v e = s.mirrorOk v e := rfl

@[simp] theorem State.atLeast_tick (s : State) (t n : Nat) : (s.tick t).atLeast n = s.atLeast n := rfl

theorem exec_pageMapWrite_up {s : State} {v : Nat} (t e : Nat) (there : v < 2 ^ 24) (up : s.fwUp = true) :
    exec (.pageMapWrite t v e) s = .next ((s.tick t).pageWrite v e) := by
  have up' : (s.tick t).fwUp = true := up
  change inst (decide (v < 2 ^ 24)) _ = _
  simp only [there, decide_true, inst_true, up', if_true]

theorem exec_pageMapWrite_restarting {s : State} {v : Nat} (t e : Nat) (there : v < 2 ^ 24) (restarting : s.on F.AON_STAGE_MGT_RESTART = true)
    (alive : s.host.fwDead = false) : exec (.pageMapWrite t v e) s =
      .next { s.tick t with host := { s.host with heldGo := s.host.heldGo ++ [.pageMapWrite t v e] } } := by
  have down : (s.tick t).fwUp = false := by simp [State.fwUp, restarting]
  change inst (decide (v < 2 ^ 24)) _ = _
  simp only [there, decide_true, inst_true, down, State.tick_on, restarting, State.tick_host, alive, Bool.not_false, Bool.and_self, if_true,
    Bool.false_eq_true, if_false]

/-! ### Invalidation (R210) -/

theorem exec_invalidationDone_begun {s : State} {w : Nat} (t : Nat) (begun : s.memx.inval = some w) : exec (.invalidationDone t) s =
    if s.invalUsed w then .next (s.tick t)
    else .next (({ s.tick t with memx := { s.memx with
      inval := none, tcache := s.memx.tcache.filter (fun e => !invalNames w e.2.1 e.2.2) } } : State).wr F.PGM_INVAL_DONE 1) := by
  have begun' : (s.tick t).memx.inval = some w := begun
  change execInvalidationDone t s = _
  unfold execInvalidationDone
  dsimp only
  rw [begun']
  rfl

/-- Settles O18: a page-map write stores what may be mapped and its entry reads back; an invalidation is a write of DONE at each of its ends. -/
theorem pageMapAndInvalidation : Obligations.PageMapAndInvalidation := by
  unfold Obligations.PageMapAndInvalidation
  refine ⟨?stored, ?refused, ?waits, ?begins, ?ignored, ?ends, ?used⟩
  case stored =>
    intro s t v e wf there up dome ok
    have stores : (s.tick t).pageWrite v e = (s.tick t).wrNat (8 * v) 8 (cleanEntry e) :=
      if_pos (by
        obtain invalid | ⟨map, mirror⟩ := ok
        · simp [dome, invalid]
        · simp [dome, map, mirror])
    refine ⟨_, exec_pageMapWrite_up t e there up, ?_, fun a out => ?_, ?_⟩
    · rw [stores]
      exact State.pmEntry_wrNat v _ wf (cleanEntry_lt e)
    · rw [stores]
      exact (s.tick t).rdByte_wrBytes_other (8 * v) _ a (by rwa [length_natLe])
    · rw [stores]
      rfl
  case refused =>
    intro s t v e there up valid bad
    rw [exec_pageMapWrite_up t e there up]
    refine congrArg Host.Outcome.next (if_neg ?_)
    obtain map | mirror := bad
    · simp [valid, map]
    · simp [valid, mirror]
  case waits => exact fun s t v e there restarting alive => exec_pageMapWrite_restarting t e there restarting alive
  case begins =>
    intro s t w done
    exact ⟨_, congrArg Host.Outcome.next (if_pos done), State.rd_wr_same _ F.PGM_INVAL_DONE 0 0 0, rfl,
      State.sameBut_wr _ F.PGM_INVAL_DONE 0 0 0, rfl⟩
  case ignored =>
    intro s t w busy
    exact congrArg Host.Outcome.next (if_neg (Bool.eq_false_iff.mp busy))
  case ends =>
    intro s t w begun free
    refine ⟨_, (exec_invalidationDone_begun t begun).trans (if_neg (Bool.eq_false_iff.mp free)), State.rd_wr_same _ F.PGM_INVAL_DONE 1 0 0, rfl,
      fun e => ?_, State.sameBut_wr _ F.PGM_INVAL_DONE 1 0 0, rfl⟩
    simp
  case used => exact fun s t w begun used => (exec_invalidationDone_begun t begun).trans (if_pos used)

end Sys2Proof.Machine
end

section
/-!
PROOFS of the statements of spec/09: what accesses leave of translation caches, held writes and page copies, and writes under a cut (O19).
-/

namespace Sys2Proof.Machine

/-! ### Translation caches, held writes and page copies (R210, R212) -/

/-- The same writes are held and the same page copies are in progress. -/
def keepsHolds (s s' : State) : Prop := s'.memx.cowHolds = s.memx.cowHolds ∧ s'.memx.cowCopies = s.memx.cowCopies

/-- The same, and the translation caches hold the same entries. -/
def keepsPages (s s' : State) : Prop := keepsHolds s s' ∧ s'.memx.tcache = s.memx.tcache

theorem keepsHolds_refl (s : State) : keepsHolds s s := ⟨rfl, rfl⟩

theorem keepsHolds.trans {a b c : State} (h : keepsHolds a b) (h' : keepsHolds b c) : keepsHolds a c := ⟨h'.1.trans h.1, h'.2.trans h.2⟩

theorem keepsPages_refl (s : State) : keepsPages s s := ⟨⟨rfl, rfl⟩, rfl⟩

theorem keepsPages.trans {a b c : State} (h : keepsPages a b) (h' : keepsPages b c) : keepsPages a c := ⟨h.1.trans h'.1, h'.2.trans h.2⟩

theorem keepsPages_foldl {α : Type} {step : State → α → State} (h : ∀ s x, keepsPages s (step s x)) (l : List α) (s : State) :
    keepsPages s (l.foldl step s) := foldl_related keepsPages keepsPages_refl (fun _ _ _ => keepsPages.trans) h l s

theorem keepsHolds_foldl {α : Type} {step : State → α → State} (h : ∀ s x, keepsHolds s (step s x)) (l : List α) (s : State) :
    keepsHolds s (l.foldl step s) := foldl_related keepsHolds keepsHolds_refl (fun _ _ _ => keepsHolds.trans) h l s

theorem keepsPages_of_memx {s s' : State} (h : s'.memx = s.memx) : keepsPages s s' := by
  unfold keepsPages keepsHolds
  rw [h]
  exact ⟨⟨rfl, rfl⟩, rfl⟩

theorem State.keepsPages_draw (s : State) (p r unit need : Nat) (pool : Bool) : keepsPages s (s.draw p r unit need pool) := by
  unfold State.draw
  split
  · exact ⟨⟨rfl, rfl⟩, rfl⟩
  · exact ⟨⟨rfl, rfl⟩, rfl⟩

theorem State.keepsPages_regCharge (s : State) (p r unit bytes : Nat) (pool : Bool) : keepsPages s (s.regCharge p r unit bytes pool) := by
  unfold State.regCharge
  split
  · exact keepsPages_refl s
  · have whole := keepsPages_foldl (fun (s : State) (_ : Nat) => s.keepsPages_draw p r unit 64 pool) (List.range (bytes / 4096)) s
    dsimp only
    split
    · exact whole
    · exact whole.trans (State.keepsPages_draw _ _ _ _ _ _)

theorem keepsPages_lines (s : State) (l : List CLine) : keepsPages s { s with memx := { s.memx with lines := l } } := ⟨⟨rfl, rfl⟩, rfl⟩

theorem State.keepsPages_insertLine (s : State) (p g unit line : Nat) (dirty : Bool) : keepsPages s (s.insertLine p g unit line dirty) := by
  unfold State.insertLine
  refine keepsPages.trans ?_ (keepsPages_lines _ _)
  split
  · dsimp only
    split
    · exact (keepsPages_lines s _).trans (State.keepsPages_regCharge _ _ _ _ _ _)
    · exact keepsPages_lines s _
  · exact keepsPages_refl s

theorem State.keepsPages_lineTraffic (s : State) (p unit line n : Nat) (write pool : Bool) :
    keepsPages s (s.lineTraffic p unit line n write pool) := by
  unfold State.lineTraffic
  split
  · exact keepsPages_refl s
  · split
    · split
      · exact keepsPages_lines s _
      · exact keepsPages_refl s
    · split
      · refine keepsPages.trans ?_ (State.keepsPages_insertLine _ _ _ _ _ _)
        split
        · exact keepsPages_refl s
        · exact s.keepsPages_regCharge _ _ _ _ _
      · exact s.keepsPages_regCharge _ _ _ _ _

theorem State.keepsPages_traffic (s : State) (cache unit addr n : Nat) (write : Bool) : keepsPages s (s.traffic cache unit addr n write) := by
  unfold State.traffic
  refine keepsPages_foldl (fun s v => ?_) _ s
  dsimp only
  split
  · exact keepsPages_refl s
  · split
    · exact keepsPages_foldl (fun s i => s.keepsPages_lineTraffic _ _ _ _ _ _) _ s
    · exact s.keepsPages_regCharge _ _ _ _ _

theorem State.keepsPages_fetchPriv (s : State) (ks : List Nat) : keepsPages s (s.fetchPriv ks) := by
  unfold State.fetchPriv
  split
  · exact keepsPages_refl s
  · exact ⟨⟨rfl, rfl⟩, rfl⟩

theorem State.keepsPages_dropPriv (s : State) (ks : List Nat) : keepsPages s (s.dropPriv ks) := by
  unfold State.dropPriv
  split
  · exact keepsPages_refl s
  · exact ⟨⟨rfl, rfl⟩, rfl⟩

theorem State.memx_eccFirst (s : State) (stack kind chan lane ca : Nat) : (s.eccFirst stack kind chan lane ca).memx = s.memx := by
  unfold State.eccFirst
  split <;> rfl

theorem State.memx_narrowWrite (s : State) (gk unit p : Nat) : (s.narrowWrite gk unit p).memx = s.memx := by
  unfold State.narrowWrite
  split
  · split
    · rfl
    · rw [State.memx_eccFirst, State.raise_memx]
  · exact s.raise_memx _

theorem State.keepsPages_putKeys (s : State) (unit p : Nat) (kb : List (Nat × Byte)) : keepsPages s (s.putKeys unit p kb) := by
  unfold State.putKeys
  refine (s.keepsPages_dropPriv (kb.map (fun e => e.1))).trans (keepsPages_foldl (fun s gk => ?_) _ _)
  split
  · split
    · exact ⟨⟨rfl, rfl⟩, rfl⟩
    · exact keepsPages_of_memx (s.memx_narrowWrite gk unit p)
  · exact keepsPages_refl s

/-! ### Stores: where they write, and what they leave (R205, R206) -/

/-- The registers in which a store with no page copy leaves a trace. -/
def plainTraces : List Reg := .MEM_ECC_FIRST :: readTraces

theorem sameRegsBut_refl (l : List Reg) (s : State) : sameRegsBut l s s := fun _ _ _ _ => rfl

theorem sameRegsBut.trans {l : List Reg} {a b c : State} (h : sameRegsBut l a b) (h' : sameRegsBut l b c) : sameRegsBut l a c :=
  fun f i j out => (h' f i j out).trans (h f i j out)

theorem sameRegsBut_mem (l : List Reg) (s : State) (m : List Host.Cell) (x : MemSt) : sameRegsBut l s { s with mem := m, memx := x } :=
  fun _ _ _ _ => rfl

theorem onlyRead.plainTraces {s s' : State} (h : onlyRead s s') : sameRegsBut plainTraces s s' :=
  fun f i j out => h.2 f i j (fun mem => out (List.mem_cons_of_mem _ mem))

/-- A first uncorrected event is captured in its register alone. -/
theorem State.rd_eccFirst_reg (s : State) (stack kind chan lane ca : Nat) (f : Fld) (i j : Nat) (out : f.reg ≠ .MEM_ECC_FIRST) :
    (s.eccFirst stack kind chan lane ca).rd f i j = s.rd f i j := by
  unfold State.eccFirst
  split
  · rfl
  · rw [State.rd_wr_reg _ _ _ _ _ _ _ _ out, State.rd_wr_reg _ _ _ _ _ _ _ _ out, State.rd_wr_reg _ _ _ _ _ _ _ _ out,
      State.rd_wr_reg _ _ _ _ _ _ _ _ out, State.rd_wr_reg _ _ _ _ _ _ _ _ out]

theorem State.rd_narrowWrite_reg (s : State) (gk unit p : Nat) (f : Fld) (i j : Nat) (out : f.reg ≠ .MEM_ECC_FIRST) :
    (s.narrowWrite gk unit p).rd f i j = s.rd f i j := by
  unfold State.narrowWrite
  split
  · split
    · rfl
    · rw [State.rd_eccFirst_reg _ _ _ _ _ _ _ _ _ out, State.raise_rd]
  · exact s.raise_rd _ _ _ _

theorem State.sameRegs_putKeys (s : State) (unit p : Nat) (kb : List (Nat × Byte)) : sameRegsBut [.MEM_ECC_FIRST] s (s.putKeys unit p kb) := by
  intro f i j out
  have other : f.reg ≠ .MEM_ECC_FIRST := fun e => out (by simp [e])
  unfold State.putKeys
  refine (foldl_keeps (fun s : State => s.rd f i j) (fun s gk => ?_) _ _).trans ?_
  · split
    · split
      · rfl
      · exact s.rd_narrowWrite_reg gk unit p f i j other
    · rfl
  · unfold State.dropPriv
    split <;> rfl

/-- A store leaves every register but those of a read and the first uncorrected event. -/
theorem State.sameRegs_storePlain (s : State) (cache unit p addr : Nat) (b : Bytes) :
    sameRegsBut plainTraces s (s.storePlain cache unit p addr b) := by
  unfold State.storePlain State.storeBytes
  intro f i j out
  have captured : f.reg ∉ [Reg.MEM_ECC_FIRST] := fun mem => out (by simp [plainTraces, List.mem_singleton.mp mem])
  refine (foldl_keeps (fun s : State => s.rd f i j) (fun s v => ?_) _ _).trans ((State.sameRegs_putKeys _ _ _ _ f i j captured).trans
    ((s.onlyRead_traffic cache unit addr b.length true).plainTraces f i j out))
  split <;> rfl

theorem State.keepsHolds_storePlain (s : State) (cache unit p addr : Nat) (b : Bytes) : keepsHolds s (s.storePlain cache unit p addr b) := by
  unfold State.storePlain State.storeBytes
  refine (s.keepsPages_traffic cache unit addr b.length true).1.trans ((State.keepsPages_putKeys _ unit p _).1.trans
    (keepsHolds_foldl (fun s v => ?_) _ _))
  split
  · exact ⟨rfl, rfl⟩
  · exact keepsHolds_refl s

/-- Where an access goes depends on the translation caches and memory alone. -/
theorem State.pmLookup_congr {a b : State} (cached : b.memx.tcache = a.memx.tcache) (mem : b.mem = a.mem) (cache v : Nat) :
    (b.pmLookup cache v).1 = (a.pmLookup cache v).1 := by
  unfold State.pmLookup
  rw [cached]
  split
  · rfl
  · exact congrArg (fun m : List Host.Cell => leNat ((List.range 8).map (fun k => memGet m (8 * v + k)))) mem

theorem State.keyOf_congr {a b : State} (cached : b.memx.tcache = a.memx.tcache) (mem : b.mem = a.mem) (cache k : Nat) :
    b.keyOf cache k = a.keyOf cache k :=
  congrArg (fun e => pageKey e (k % 65536)) (State.pmLookup_congr cached mem cache (k / 65536))

theorem State.keyOf_traffic (s : State) (cache unit addr n : Nat) (write : Bool) (k : Nat) :
    (s.traffic cache unit addr n write).keyOf cache k = s.keyOf cache k :=
  State.keyOf_congr (s.keepsPages_traffic cache unit addr n write).2 (s.onlyRead_traffic cache unit addr n write).mem cache k

/-- What a store writes: the bytes at their keys, and then the DIRTY bits of the pages it touches. -/
theorem State.rdByte_storePlain (s : State) (cache unit p addr : Nat) (b : Bytes) (a : Nat)
    (entries : ∀ v, v ∈ pagesOf addr b.length → a < 8 * v ∨ 8 * v + 8 ≤ a) : (s.storePlain cache unit p addr b).rdByte a =
      memGet (((List.range b.length).map (fun k => (s.keyOf cache (addr + k), b.getD k 0))).foldl (fun m e => memPut m e.1 e.2) s.mem) a := by
  unfold State.storePlain State.storeBytes
  dsimp only
  simp only [State.keyOf_traffic]
  refine (List.foldlRecOn _ _ (motive := fun r : State => r.rdByte a = State.rdByte _ a) rfl (fun r same v mem => ?_)).trans
    (by rw [State.rdByte, State.mem_putKeys, (s.onlyRead_traffic _ _ _ _ _).mem])
  split
  · exact (r.rdByte_pmUpdate_other v _ a (entries v mem)).trans same
  · exact same

/-- A byte outside the page-map entries of the pages touched lies beside each of them. -/
theorem beside_of_not_entryKeys {addr n a : Nat} (out : a ∉ entryKeys addr n) (v : Nat) (mem : v ∈ pagesOf addr n) :
    a < 8 * v ∨ 8 * v + 8 ≤ a := by
  by_contra between
  refine out (List.mem_flatMap.mpr ⟨v, mem, List.mem_map.mpr ⟨a - 8 * v, List.mem_range.mpr (by omega), by omega⟩⟩)

/-- A store writes nothing outside the bytes it goes to and the page-map entries of the pages it touches. -/
theorem State.rdByte_storePlain_other (s : State) (cache unit p addr : Nat) (b : Bytes) (a : Nat) (key : a ∉ accessKeys s cache addr b.length)
    (entry : a ∉ entryKeys addr b.length) : (s.storePlain cache unit p addr b).rdByte a = s.rdByte a := by
  rw [State.rdByte_storePlain _ _ _ _ _ _ _ (beside_of_not_entryKeys entry)]
  refine memGet_foldl_memPut_other _ _ _ (fun x mem same => key ?_)
  obtain ⟨k, inside, rfl⟩ := List.mem_map.mp mem
  exact List.mem_map.mpr ⟨k, inside, same.symm⟩

/-- Bytes stored one after another from a key read back. -/
theorem memGet_foldl_memPut_range {m : List Host.Cell} (a : Nat) (f : Nat → Byte) (w : Memory.wf m = true) {n k : Nat} (inside : k < n) :
    memGet (((List.range n).map (fun k => (a + k, f k))).foldl (fun m e => memPut m e.1 e.2) m) (a + k) = f k := by
  induction n with
  | zero => exact absurd inside (Nat.not_lt_zero k)
  | succ n ih =>
    rw [List.range_succ, List.map_append, List.foldl_append]
    simp only [List.map_cons, List.map_nil, List.foldl_cons, List.foldl_nil]
    obtain last | before := Nat.eq_or_lt_of_le (Nat.le_of_lt_succ inside)
    · rw [last]
      exact memGet_memPut_same _ _ (wf_foldl_memPut _ w)
    · rw [memGet_memPut_other _ _ _ _ (by omega)]
      exact ih before

theorem pageKey_dram {e : Nat} (off : Nat) (dram : pmLoc e = 0) : pageKey e off = pmFrame e * 65536 + off := by
  unfold pageKey
  simp only [dram]

/-- An access to one page stays in it. -/
theorem inPage_of_pagesOf {addr n k : Nat} (page : pagesOf addr n = [addr / 65536]) (inside : k < n) :
    (addr + k) / 65536 = addr / 65536 ∧ (addr + k) % 65536 = addr % 65536 + k := by
  have count := congrArg List.length page
  unfold pagesOf at count
  rw [if_neg (by omega)] at count
  simp only [List.length_map, List.length_range, List.length_cons, List.length_nil] at count
  omega

/-- A store to one DRAM page above the page map puts its bytes there. -/
theorem State.rdByte_storePlain_dram (s : State) (cache unit p addr : Nat) (b : Bytes) (w : Memory.wf s.mem = true)
    (page : pagesOf addr b.length = [addr / 65536]) (dram : pmLoc (s.pmLookup cache (addr / 65536)).1 = 0)
    (above : 2048 ≤ pmFrame (s.pmLookup cache (addr / 65536)).1) (vpn : addr / 65536 < 2 ^ 24) {k : Nat} (inside : k < b.length) :
    (s.storePlain cache unit p addr b).rdByte (s.keyOf cache (addr + k)) = b.getD k 0 := by
  have keys : ∀ i, i < b.length →
      s.keyOf cache (addr + i) = pmFrame (s.pmLookup cache (addr / 65536)).1 * 65536 + addr % 65536 + i := by
    intro i hi
    obtain ⟨same, off⟩ := inPage_of_pagesOf page hi
    unfold State.keyOf
    rw [same, off, pageKey_dram _ dram, Nat.add_assoc]
  rw [State.rdByte_storePlain, keys k inside, List.map_congr_left (fun i hi => by rw [keys i (List.mem_range.mp hi)])]
  · exact memGet_foldl_memPut_range _ (fun i => b.getD i 0) w inside
  · intro v mem
    rw [page, List.mem_singleton] at mem
    rw [keys k inside]
    omega

/-! ### Accesses that pass their checks (R208, R210) -/

/-- The second state differs from the first in what its translation caches hold alone. -/
def onlyCached (s s' : State) : Prop := s' = { s with memx := { s.memx with tcache := s'.memx.tcache } }

theorem onlyCached.trans {a b c : State} (h : onlyCached a b) (h' : onlyCached b c) : onlyCached a c := by
  unfold onlyCached at *
  rw [h', h]

theorem State.onlyCached_pmLookup (s : State) (cache v : Nat) : onlyCached s (s.pmLookup cache v).2 := by
  unfold State.pmLookup
  split <;> rfl

/-- Checks that pass leave the state but for the entries the lookups brought in. -/
theorem State.onlyCached_of_checkAccess {s s₁ : State} {cache unit p addr n aux : Nat} {write mirror : Bool}
    (passed : s.checkAccess cache unit p addr n write mirror aux = (none, s₁)) : onlyCached s s₁ := by
  have all : (s.checkAccess cache unit p addr n write mirror aux).1 = none →
      onlyCached s (s.checkAccess cache unit p addr n write mirror aux).2 := by
    unfold State.checkAccess
    refine List.foldlRecOn _ _ (motive := fun r : Option Nat × State => r.1 = none → onlyCached s r.2) (fun _ => rfl) ?_
    intro r kept v _
    dsimp only
    split
    · exact fun h => nomatch h
    · next clean =>
      split
      · exact fun _ => (kept clean).trans (r.2.onlyCached_pmLookup cache v)
      · exact fun h => nomatch h
  rw [passed] at all
  exact all rfl

theorem onlyCached.mem {s s' : State} (h : onlyCached s s') : s'.mem = s.mem := by rw [h]

/-! ### Held writes and page copies that begin (R212, R214) -/

theorem exec_cowWriteHold_passed {s s₁ : State} {t p unit addr : Nat} {b : Bytes}
    (passed : (s.tick t).checkAccess 4 unit p addr b.length true false = (none, s₁)) : exec (.cowWriteHold t p unit addr b) s =
      if (pagesOf addr b.length).any s₁.copying || s₁.writeWaits addr b.length then
        .next (s₁.holdWrite { p := p, unit := unit, addr := addr, bytes := b })
      else .next (if (pagesOf addr b.length).any ((pagesOf addr b.length).foldl State.startPageCopy s₁).copying
        then ((pagesOf addr b.length).foldl State.startPageCopy s₁).holdWrite { p := p, unit := unit, addr := addr, bytes := b }
        else ((pagesOf addr b.length).foldl State.startPageCopy s₁).storePlain 4 unit p addr b) := by
  change execCowWriteHold t p unit addr b s = _
  unfold execCowWriteHold
  dsimp only
  rw [passed]

/-- The state in which the copy of page `v` has begun into `frame`. -/
def State.copyBegun (s : State) (v frame : Nat) : State :=
  { s with memx := { s.memx with cowCopies := s.memx.cowCopies ++ [{ vpn := v, p := pmOwner (s.pmEntry v), frame := frame }] } }

theorem State.startPageCopy_begins {s : State} {v f : Nat} (inForce : s.cowInForce (s.pmEntry v) = true)
    (free : s.nextCopyFrame (pmOwner (s.pmEntry v)) = some f) : s.startPageCopy v = s.copyBegun v f := by
  unfold State.startPageCopy
  simp only [inForce, if_true, free]
  rfl

theorem State.startPageCopy_aborts {s : State} {v : Nat} (inForce : s.cowInForce (s.pmEntry v) = true)
    (full : s.nextCopyFrame (pmOwner (s.pmEntry v)) = none) : s.startPageCopy v = s.cutAbort (pmOwner (s.pmEntry v)) := by
  unfold State.startPageCopy
  simp only [inForce, if_true, full]

theorem State.startPageCopy_free {s : State} {v : Nat} (free : s.cowInForce (s.pmEntry v) = false) : s.startPageCopy v = s := by
  unfold State.startPageCopy
  simp only [free, Bool.false_eq_true, if_false]

theorem State.copying_copyBegun (s : State) (v f : Nat) : (s.copyBegun v f).copying v = true := by
  simp [State.copying, State.copyBegun]

theorem State.foldl_startPageCopy_free {s : State} {l : List Nat} (free : ∀ v, v ∈ l → s.cowInForce (s.pmEntry v) = false) :
    l.foldl State.startPageCopy s = s :=
  List.foldlRecOn l _ (motive := fun r => r = s) rfl (fun r same v mem => by rw [same, State.startPageCopy_free (free v mem)])

/-- A cut that aborts shows it, and leaves memory and what is held (R214). -/
theorem State.cutAbort_leaves (s : State) (p : Nat) : (s.cutAbort p).rd F.PGM_CUT_ABORTED p = 1 ∧ (s.cutAbort p).rd F.PGM_CUT_ACTIVE p = 0 ∧
    (s.cutAbort p).memx = s.memx ∧ (s.cutAbort p).mem = s.mem := by
  unfold State.cutAbort State.cutEnd
  dsimp only
  generalize raised : State.raise _ _ = a
  generalize State.stopCode _ _ _ = code
  have aborted : a.rd F.PGM_CUT_ABORTED p = 1 := by rw [← raised, State.raise_rd]; exact State.rd_wr_same s F.PGM_CUT_ABORTED 1 p 0
  refine ⟨?_, ?_, ?_, ?_⟩
  · change (((a.wr F.PGM_CUT_ACTIVE 0 p).wr F.SNP_STATUS_LAST_CODE code p).wr F.SNP_STATUS_STATE 0 p).rd F.PGM_CUT_ABORTED p = 1
    rw [State.rd_wr_reg _ _ _ _ _ _ _ _ (by decide), State.rd_wr_reg _ _ _ _ _ _ _ _ (by decide), State.rd_wr_lsb _ _ _ _ _ _ _ _ (by decide),
      aborted]
  · change (((a.wr F.PGM_CUT_ACTIVE 0 p).wr F.SNP_STATUS_LAST_CODE code p).wr F.SNP_STATUS_STATE 0 p).rd F.PGM_CUT_ACTIVE p = 0
    rw [State.rd_wr_reg _ _ _ _ _ _ _ _ (by decide), State.rd_wr_reg _ _ _ _ _ _ _ _ (by decide)]
    exact State.rd_wr_same a F.PGM_CUT_ACTIVE 0 p 0
  · change a.memx = s.memx
    rw [← raised, State.raise_memx]
    rfl
  · change a.mem = s.mem
    rw [← raised, State.raise_mem]
    rfl

/-- With no page in copy and no write to wait for, a write whose pages' copies are settled is performed. -/
theorem exec_cowWriteHold_stores {s s₁ s₂ : State} {t p unit addr : Nat} {b : Bytes}
    (passed : (s.tick t).checkAccess 4 unit p addr b.length true false = (none, s₁)) (ready : s₁.writeWaits addr b.length = false)
    (idle : ∀ v, v ∈ pagesOf addr b.length → s₁.copying v = false) (begun : (pagesOf addr b.length).foldl State.startPageCopy s₁ = s₂)
    (same : s₂.memx = s₁.memx) : exec (.cowWriteHold t p unit addr b) s = .next (s₂.storePlain 4 unit p addr b) := by
  have idle₁ : (pagesOf addr b.length).any s₁.copying = false := by simpa using idle
  have idle₂ : (pagesOf addr b.length).any s₂.copying = false := by
    unfold State.copying at idle₁ ⊢
    rwa [same]
  rw [exec_cowWriteHold_passed passed, begun, idle₁, idle₂, ready]
  rfl

/-! ### The end of a page copy (R205, R212, R213) -/

theorem testBit_sub_two_pow {n b : Nat} (set : n.testBit b = true) (i : Nat) : (n - 2 ^ b).testBit i = if i = b then false else n.testBit i := by
  obtain ⟨m, rfl⟩ : ∃ m, n = 2 ^ b + m := ⟨n - 2 ^ b, (Nat.add_sub_cancel' (Nat.ge_two_pow_of_testBit set)).symm⟩
  have clear : m.testBit b = false := by simpa [Nat.testBit_two_pow_add_eq] using set
  rw [Nat.add_sub_cancel_left]
  split
  · next e => rw [e, clear]
  · next ne =>
    obtain below | beyond := Nat.lt_or_gt_of_ne ne
    · rw [Nat.testBit_two_pow_add_gt below]
    · have low : m % 2 ^ (b + 1) < 2 ^ b := by
        rw [Nat.pow_succ, Nat.mod_mul]
        have zero : m / 2 ^ b % 2 = 0 := by
          have := Nat.testBit_eq_decide_div_mod_eq (x := m) (i := b)
          rw [clear] at this
          simp at this
          omega
        rw [zero, Nat.mul_zero, Nat.add_zero]
        exact Nat.mod_lt _ (Nat.two_pow_pos b)
      have split : 2 ^ b + m = 2 ^ (b + 1) * (m / 2 ^ (b + 1)) + (2 ^ b + m % 2 ^ (b + 1)) := by
        have := Nat.div_add_mod m (2 ^ (b + 1))
        omega
      have high : ¬ i < b + 1 := by omega
      have twice : 2 ^ (b + 1) = 2 ^ b + 2 ^ b := by rw [Nat.pow_succ, Nat.mul_two]
      rw [split, Nat.testBit_two_pow_mul_add _ (by omega), if_neg high]
      conv_lhs => rw [← Nat.div_add_mod m (2 ^ (b + 1))]
      rw [Nat.testBit_two_pow_mul_add _ (Nat.mod_lt _ (Nat.two_pow_pos _)), if_neg high]

/-- A bit that is set or cleared reads so, and the others read as before. -/
theorem testBit_setBitTo (n b : Nat) (v : Bool) (i : Nat) : (setBitTo n b v).testBit i = if i = b then v else n.testBit i := by
  unfold setBitTo
  cases v with
  | true =>
    rw [if_pos rfl, Nat.testBit_or, Nat.testBit_two_pow]
    by_cases h : i = b
    · simp [h]
    · simp [h, Ne.symm h]
  | false =>
    rw [if_neg Bool.false_ne_true]
    split
    · next set => exact testBit_sub_two_pow set i
    · next clear =>
      split
      · next e => rw [e]; simpa using clear
      · rfl

theorem setBitTo_lt {n w : Nat} (fits : n < 2 ^ w) {b : Nat} (inside : b < w) (v : Bool) : setBitTo n b v < 2 ^ w := by
  refine Nat.lt_pow_two_of_testBit _ (fun i beyond => ?_)
  rw [testBit_setBitTo, if_neg (by omega)]
  exact Nat.testBit_lt_two_pow (Nat.lt_of_lt_of_le fits (Nat.pow_le_pow_right (by decide) beyond))

/-- The entry of a page that has been copied: COW is clear and DIRTY set. -/
def copiedEntry (e : Nat) : Nat := setBitTo (setBitTo e 51 false) 48 true

theorem testBit_copiedEntry (e i : Nat) : (copiedEntry e).testBit i = if i = 48 then true else if i = 51 then false else e.testBit i := by
  unfold copiedEntry
  rw [testBit_setBitTo, testBit_setBitTo]

theorem bits_copiedEntry (e lsb w : Nat) (out : ∀ b, b < w → lsb + b ≠ 48 ∧ lsb + b ≠ 51) : bits (copiedEntry e) lsb w = bits e lsb w := by
  refine Nat.eq_of_testBit_eq (fun b => ?_)
  by_cases inside : b < w
  · obtain ⟨cow, dirty⟩ := out b inside
    rw [testBit_bits _ _ _ _ inside, testBit_bits _ _ _ _ inside, testBit_copiedEntry, if_neg cow, if_neg dirty]
  · have beyond : ∀ x, (bits x lsb w).testBit b = false := fun x =>
      Nat.testBit_lt_two_pow (Nat.lt_of_lt_of_le (bits_lt x lsb w) (Nat.pow_le_pow_right (by decide) (Nat.le_of_not_lt inside)))
    rw [beyond, beyond]

theorem leNat_lt (b : Bytes) : leNat b < 256 ^ b.length := by
  induction b with
  | nil => decide
  | cons x b ih =>
    have byte : x.toNat < 256 := x.isLt
    rw [leNat, List.length_cons, Nat.pow_succ]
    omega

theorem State.pmEntry_lt (s : State) (v : Nat) : s.pmEntry v < 2 ^ 64 := by
  have h := leNat_lt (s.rdBytes (8 * v) 8)
  rwa [State.rdBytes, List.length_map, List.length_range] at h

/-- An entry reads the same where its bytes do. -/
theorem State.pmEntry_congr {a b : State} {v : Nat} (same : ∀ k, k < 8 → b.rdByte (8 * v + k) = a.rdByte (8 * v + k)) :
    b.pmEntry v = a.pmEntry v :=
  congrArg leNat (List.map_congr_left (fun k inside => same k (List.mem_range.mp inside)))

/-- An update of a page-map entry gives it the new value. -/
theorem State.pmEntry_pmUpdate {s : State} (v : Nat) (f : Nat → Nat) (w : Memory.wf s.mem = true) (fits : f (s.pmEntry v) < 2 ^ 64) :
    (s.pmUpdate v f).pmEntry v = f (s.pmEntry v) :=
  (State.pmEntry_congr (a := s.wrNat (8 * v) 8 (f (s.pmEntry v))) (fun _ _ => rfl)).trans (State.pmEntry_wrNat v _ w fits)

theorem State.rd_pmUpdate (s : State) (v : Nat) (f : Nat → Nat) (g : Fld) (i j : Nat) : (s.pmUpdate v f).rd g i j = s.rd g i j :=
  State.rd_congr rfl g i j

/-- The record of a page copy in the cut log (R213). -/
def State.cutRecord (s : State) (log v frame : Nat) : State := ((s.wrNat log 4 v).wrNat (log + 4) 4 frame).wrNat (log + 8) 8 s.now

theorem State.rdByte_cutRecord_other (s : State) (log v frame a : Nat) (out : a < log ∨ log + 16 ≤ a) :
    (s.cutRecord log v frame).rdByte a = s.rdByte a := by
  unfold State.cutRecord State.wrNat
  rw [State.rdByte_wrBytes_other _ _ _ _ (by rw [length_natLe]; omega), State.rdByte_wrBytes_other _ _ _ _ (by rw [length_natLe]; omega),
    State.rdByte_wrBytes_other _ _ _ _ (by rw [length_natLe]; omega)]

theorem State.rd_cutRecord (s : State) (log v frame : Nat) (g : Fld) (i j : Nat) : (s.cutRecord log v frame).rd g i j = s.rd g i j :=
  State.rd_congr rfl g i j

/-- The first `n` bytes of the page of VPN `v`, each with its key in `frame`. -/
def State.pageData (s : State) (v frame n : Nat) : List (Nat × Byte) :=
  (List.range n).map (fun k => (frame * 65536 + k, s.rdByte (pageKey (s.pmEntry v) k)))

theorem State.above_of_mem_pageData {s : State} {v frame n : Nat} {x : Nat × Byte} (mem : x ∈ s.pageData v frame n) : frame * 65536 ≤ x.1 := by
  obtain ⟨k, -, rfl⟩ := List.mem_map.mp mem
  exact Nat.le_add_right _ k

/-- The page's bytes, stored at their keys, read there. -/
theorem State.memGet_pageData (s : State) (v frame : Nat) {m : List Host.Cell} (w : Memory.wf m = true) {n k : Nat} (inside : k < n) :
    memGet ((s.pageData v frame n).foldl (fun m x => memPut m x.1 x.2) m) (frame * 65536 + k) = s.rdByte (pageKey (s.pmEntry v) k) :=
  memGet_foldl_memPut_range (frame * 65536) (fun i => s.rdByte (pageKey (s.pmEntry v) i)) w inside

/-- A page copy in its steps: the page's bytes go to the frame, the record to the cut log, the entry is updated and the copy counted. -/
theorem State.cowCopy_steps (s : State) (v p frame : Nat) : ∃ s₁ : State,
    s₁.mem = (s.pageData v frame 65536).foldl (fun m x => memPut m x.1 x.2) s.mem ∧ sameRegsBut readTraces s s₁ ∧ keepsHolds s s₁ ∧
    s.cowCopy v p frame = ((s₁.cutRecord (s.cutLog p) v frame).pmUpdate v copiedEntry).inc F.PGM_CUT_COPIES p := by
  unfold State.cowCopy
  extract_lets e data bad log s₁ m s₂ s₃ s₄
  have page : data = s.pageData v frame 65536 := rfl
  have fetched : onlyRead s s₁ := (s.onlyRead_fetchPriv _).trans (State.onlyRead_dropPriv _ _)
  have held₁ : keepsHolds s s₁ := ((s.keepsPages_fetchPriv _).trans (State.keepsPages_dropPriv _ _)).1
  clear_value data bad s₁
  have held₂ : keepsHolds s₁ s₂ := ⟨rfl, rfl⟩
  have regs₂ : sameRegsBut readTraces s₁ s₂ := sameRegsBut_mem _ s₁ _ _
  have charged : onlyRead s₂ s₃ := (s₂.onlyRead_regCharge _ _ _ _ _).trans (State.onlyRead_regCharge _ _ _ _ _ _)
  have held₃ : keepsHolds s₂ s₃ := ((s₂.keepsPages_regCharge _ _ _ _ _).trans (State.keepsPages_regCharge _ _ _ _ _ _)).1
  refine ⟨s₃, charged.mem.trans ?_, (sameRegsBut.trans fetched.2 regs₂).trans charged.2, (held₁.trans held₂).trans held₃, rfl⟩
  rw [← page, ← fetched.mem]

theorem State.keepsHolds_cowCopy (s : State) (v p frame : Nat) : keepsHolds s (s.cowCopy v p frame) := by
  obtain ⟨s₁, _, _, held, steps⟩ := s.cowCopy_steps v p frame
  rw [steps]
  exact held.trans ⟨rfl, rfl⟩

theorem State.keepsHolds_cowNow (s : State) (v : Nat) : keepsHolds s (s.cowNow v) := by
  unfold State.cowNow
  dsimp only
  split
  · split
    · exact s.keepsHolds_cowCopy _ _ _
    · exact (keepsPages_of_memx (s.cutAbort_leaves _).2.2.1).1
  · exact keepsHolds_refl s

theorem State.keepsHolds_perform (s : State) (h : CowHold) : keepsHolds s (s.perform h) :=
  (keepsHolds_foldl State.keepsHolds_cowNow _ s).trans (State.keepsHolds_storePlain _ _ _ _ _ _)

theorem State.wf_cutRecord {s : State} (log v frame : Nat) (w : Memory.wf s.mem = true) : Memory.wf (s.cutRecord log v frame).mem = true :=
  State.wf_wrNat _ _ _ (State.wf_wrNat _ _ _ (State.wf_wrNat _ _ _ w))

theorem copiedEntry_lt {e : Nat} (fits : e < 2 ^ 64) : copiedEntry e < 2 ^ 64 :=
  setBitTo_lt (setBitTo_lt fits (by decide) false) (by decide) true

/-- A page's bytes stored above an entry, and a record of the cut log above it, leave the entry. -/
theorem State.pmEntry_recorded {s s₁ : State} {v frame n log : Nat} (vpn : v < 2 ^ 24) (above : 2048 ≤ frame) (low : 8 * v + 8 ≤ log)
    (copied : s₁.mem = (s.pageData v frame n).foldl (fun m x => memPut m x.1 x.2) s.mem) :
    (s₁.cutRecord log v frame).pmEntry v = s.pmEntry v := by
  refine State.pmEntry_congr (fun k inside => ?_)
  have before : 8 * v + k < log := by omega
  rw [State.rdByte_cutRecord_other _ _ _ _ _ (Or.inl before), State.rdByte, copied]
  refine memGet_foldl_memPut_other _ _ _ (fun x mem => ?_)
  have beyond := State.above_of_mem_pageData mem
  omega

/-- A copy into a frame above the page map, by a cut log above it too, leaves the page's entry as copied. -/
theorem State.pmEntry_cowCopy {s : State} {v p frame : Nat} (w : Memory.wf s.mem = true) (vpn : v < 2 ^ 24) (above : 2048 ≤ frame)
    (reserve : 2048 ≤ s.rd F.PGM_RESERVE_BASE_FRAME p) : (s.cowCopy v p frame).pmEntry v = copiedEntry (s.pmEntry v) := by
  obtain ⟨s₁, copied, -, -, steps⟩ := s.cowCopy_steps v p frame
  have low : 8 * v + 8 ≤ s.cutLog p := by unfold State.cutLog; omega
  have kept := State.pmEntry_recorded vpn above low copied
  have wf₁ : Memory.wf s₁.mem = true := by
    rw [copied]
    exact wf_foldl_memPut (s.pageData v frame 65536) w
  have wf₂ := State.wf_cutRecord (s.cutLog p) v frame wf₁
  rw [steps]
  generalize s₁.cutRecord (s.cutLog p) v frame = s₂ at kept wf₂
  rw [← kept]
  exact State.pmEntry_pmUpdate v copiedEntry wf₂ (copiedEntry_lt (State.pmEntry_lt _ v))

/-- A copy makes the frame hold the page's bytes, where the frame lies above the page map and beyond the cut log's record. -/
theorem State.rdByte_cowCopy_frame {s : State} {v p frame k : Nat} (w : Memory.wf s.mem = true) (vpn : v < 2 ^ 24) (above : 2048 ≤ frame)
    (beyond : s.cutLog p + 16 ≤ frame * 65536) (inPage : k < 65536) :
    (s.cowCopy v p frame).rdByte (frame * 65536 + k) = s.rdByte (pageKey (s.pmEntry v) k) := by
  obtain ⟨s₁, copied, -, -, steps⟩ := s.cowCopy_steps v p frame
  have record : s.cutLog p + 16 ≤ frame * 65536 + k := Nat.le_add_right_of_le beyond
  have entry : 8 * v + 8 ≤ frame * 65536 + k := by omega
  rw [steps, State.rdByte_inc, State.rdByte_pmUpdate_other _ v _ _ (Or.inr entry),
    State.rdByte_cutRecord_other _ _ _ _ _ (Or.inr record), State.rdByte, copied]
  exact s.memGet_pageData v frame w inPage

theorem State.copies_cowCopy (s : State) (v p frame : Nat) :
    (s.cowCopy v p frame).rd F.PGM_CUT_COPIES p = counted F.PGM_CUT_COPIES (s.rd F.PGM_CUT_COPIES p) 1 := by
  obtain ⟨s₁, -, regs, -, steps⟩ := s.cowCopy_steps v p frame
  rw [steps, State.rd_inc_same, State.rd_pmUpdate, State.rd_cutRecord, regs F.PGM_CUT_COPIES p 0 (by decide)]
  rfl

/-- The state once the copy of page `v` has left the copies in progress. -/
def State.copyTaken (s : State) (v : Nat) : State :=
  { s with memx := { s.memx with cowCopies := s.memx.cowCopies.filter (fun x => x.vpn ≠ v) } }

/-- Held writes that are none release nothing. -/
theorem State.releaseHolds_none {s : State} (none_ : s.memx.cowHolds = []) : s.releaseHolds = s.holdsTaken := by
  unfold State.releaseHolds
  rw [none_]
  rfl

/-- Where no event waits behind a memory write, none is released. -/
theorem State.releasePosted_of_held {s s' : State} (same : s'.pwr = s.pwr) (posted : nonePosted s) : s'.releasePosted = s' := by
  unfold State.releasePosted
  rw [if_neg]
  simp only [same, List.any_eq_true, decide_eq_true_eq, not_exists, not_and]
  exact posted

theorem onlyStored.pwr {s s' : State} (h : onlyStored s s') : s'.pwr = s.pwr := by rw [h.parts]

theorem exec_cowCopyDone_found {s : State} {v : Nat} {c : CowCopy} (t : Nat) (found : s.memx.cowCopies.find? (fun x => x.vpn = v) = some c)
    (posted : nonePosted s) : exec (.cowCopyDone t v) s = .next ((((s.tick t).copyTaken v).cowCopy v c.p c.frame).releaseHolds) := by
  have ends : (s.tick t).finishCopy v = (((s.tick t).copyTaken v).cowCopy v c.p c.frame).releaseHolds := by
    have found' : (s.tick t).memx.cowCopies.find? (fun x => x.vpn = v) = some c := found
    unfold State.finishCopy
    rw [found']
    rfl
  change Host.Outcome.next _ = _
  rw [State.releasePosted_of_held ((s.tick t).onlyStored_finishCopy v).pwr posted, ends]

/-! ### Which writes wait (R223, R429) -/

/-- The DRAM windows are those that the image and PGM_WINDOW give. -/
theorem State.windows_congr {a b : State} (img : b.img = a.img) (regs : ∀ (f : Fld) (i j : Nat), f.reg = .PGM_WINDOW → b.rd f i j = a.rd f i j) :
    b.windows = a.windows := by
  unfold State.windows
  simp only [img, regs F.PGM_WINDOW_CHANNELS _ _ rfl, regs F.PGM_WINDOW_GRANULE _ _ rfl, regs F.PGM_WINDOW_BASE_GIB _ _ rfl]

/-- A page copy leaves what its entry says but for COW and DIRTY, and so whether its page waits. -/
theorem State.pageWaits_cowCopy {s : State} {v p frame : Nat} (w : Memory.wf s.mem = true) (vpn : v < 2 ^ 24) (above : 2048 ≤ frame)
    (reserve : 2048 ≤ s.rd F.PGM_RESERVE_BASE_FRAME p) : (s.cowCopy v p frame).pageWaits v = s.pageWaits v := by
  have stored := s.onlyStored_cowCopy v p frame
  have img : (s.cowCopy v p frame).img = s.img := by rw [stored.parts]
  have windows : (s.cowCopy v p frame).windows = s.windows :=
    State.windows_congr img (fun f i j reg => stored.regs f i j (by rw [reg]; decide))
  have state : ∀ q, (s.cowCopy v p frame).rd F.HNG_STATUS_STATE q = s.rd F.HNG_STATUS_STATE q :=
    fun q => stored.regs F.HNG_STATUS_STATE q 0 (by decide)
  have arming : ∀ q, ((s.cowCopy v p frame).snap q).arming = (s.snap q).arming := fun q => by rw [stored.snap q]
  have entry := State.pmEntry_cowCopy w vpn above reserve
  have snap : pmSnap (copiedEntry (s.pmEntry v)) = pmSnap (s.pmEntry v) := testBit_copiedEntry _ 52
  have owner : pmOwner (copiedEntry (s.pmEntry v)) = pmOwner (s.pmEntry v) := bits_copiedEntry _ 59 4 (by omega)
  have loc : pmLoc (copiedEntry (s.pmEntry v)) = pmLoc (s.pmEntry v) := bits_copiedEntry _ 57 2 (by omega)
  have place : pmFrame (copiedEntry (s.pmEntry v)) = pmFrame (s.pmEntry v) := bits_copiedEntry _ 0 24 (by omega)
  unfold State.pageWaits State.retrains State.windowAt
  simp only [entry, snap, owner, loc, place, arming, windows, state]

/-- What a write keeps once its checks have passed, by `s₁` in which they did. -/
theorem sameMem_of_passed {s s₁ : State} {t cache unit p addr n : Nat} {write mirror : Bool}
    (passed : (s.tick t).checkAccess cache unit p addr n write mirror = (none, s₁)) : sameMem s s₁ :=
  sameMem_of_mem (State.onlyCached_of_checkAccess passed).mem

/-- With no write held, the end of a copy lets none go. -/
theorem State.releaseHolds_cowCopy {s : State} (none_ : s.memx.cowHolds = []) (v p frame : Nat) :
    (s.cowCopy v p frame).releaseHolds = (s.cowCopy v p frame).holdsTaken :=
  State.releaseHolds_none ((s.keepsHolds_cowCopy v p frame).1.trans none_)

theorem State.pageWaits_holdsTaken (s : State) (v : Nat) : s.holdsTaken.pageWaits v = s.pageWaits v := by
  unfold State.pageWaits State.retrains
  rfl

/-- With one write held, of the page copied alone, the end of the copy performs it. -/
theorem State.releaseHolds_cowCopy_one {s : State} {h : CowHold} {v p frame : Nat} (held : s.memx.cowHolds = [h])
    (last : s.memx.cowCopies = []) (page : pagesOf h.addr h.bytes.length = [v]) (ready : (s.cowCopy v p frame).pageWaits v = false) :
    (s.cowCopy v p frame).releaseHolds = (s.cowCopy v p frame).holdsTaken.perform h := by
  obtain ⟨holds, copies⟩ := s.keepsHolds_cowCopy v p frame
  refine State.releaseHolds_one _ h (holds.trans held) (copies.trans last) ?_
  generalize s.cowCopy v p frame = r at ready
  unfold State.writeWaits
  rw [page, List.any_cons, List.any_nil, State.pageWaits_holdsTaken, ready]
  rfl

theorem State.pageWaits_copyTaken (s : State) (t v : Nat) : ((s.tick t).copyTaken v).pageWaits v = s.pageWaits v := by
  unfold State.pageWaits State.retrains
  rfl

/-- The end of a copy with no write held, from the state in which the copy is made. -/
theorem State.copied_holdsTaken {s : State} {v p frame k : Nat} (w : Memory.wf s.mem = true) (vpn : v < 2 ^ 24) (above : 2048 ≤ frame)
    (reserve : 2048 ≤ s.rd F.PGM_RESERVE_BASE_FRAME p) (beyond : s.cutLog p + 16 ≤ frame * 65536) (inPage : k < 65536) :
    (s.cowCopy v p frame).holdsTaken.rdByte (frame * 65536 + k) = s.rdByte (pageKey (s.pmEntry v) k) ∧
    pmCow ((s.cowCopy v p frame).holdsTaken.pmEntry v) = false ∧ pmDirty ((s.cowCopy v p frame).holdsTaken.pmEntry v) = true ∧
    (s.cowCopy v p frame).holdsTaken.rd F.PGM_CUT_COPIES p = counted F.PGM_CUT_COPIES (s.rd F.PGM_CUT_COPIES p) 1 ∧
    (s.cowCopy v p frame).holdsTaken.memx.cowCopies = s.memx.cowCopies := by
  have data := State.rdByte_cowCopy_frame w vpn above beyond inPage
  have entry := State.pmEntry_cowCopy w vpn above reserve
  have count := s.copies_cowCopy v p frame
  have copies := (s.keepsHolds_cowCopy v p frame).2
  generalize s.cowCopy v p frame = r at data entry count copies ⊢
  refine ⟨data, ?_, ?_, count, copies⟩
  · exact (congrArg pmCow entry).trans (testBit_copiedEntry _ 51)
  · exact (congrArg pmDirty entry).trans (testBit_copiedEntry _ 48)

/-- Settles O19: the checks of a write leave the translation caches' entries alone, so what is held, copied or stored is read off the state
in which they passed; a page copy is its bytes, its record and its entry, one after another. -/
theorem copyOnWrite : Obligations.CopyOnWrite := by
  unfold Obligations.CopyOnWrite
  refine ⟨?_, ?_, ?_, ?_, ?_, ?_, ?_⟩
  · intro s s₁ t p unit addr f b passed page idle ready inForce free
    refine ⟨(s₁.copyBegun (addr / 65536) f).holdWrite { p := p, unit := unit, addr := addr, bytes := b }, ?_, rfl, rfl, rfl,
      (sameMem_of_passed passed : sameMem s s₁)⟩
    rw [exec_cowWriteHold_passed passed, page]
    simp only [List.any_cons, List.any_nil, Bool.or_false, idle, ready, List.foldl_cons, List.foldl_nil,
      State.startPageCopy_begins inForce free, State.copying_copyBegun, Bool.false_eq_true, if_false, if_true]
  · intro s s₁ t p unit addr b passed waits
    refine ⟨s₁.holdWrite { p := p, unit := unit, addr := addr, bytes := b }, ?_, rfl, rfl, rfl, (sameMem_of_passed passed : sameMem s s₁)⟩
    rw [exec_cowWriteHold_passed passed, if_pos (by simpa using waits)]
  · intro s s₁ t p unit addr b passed page idle ready inForce full
    obtain ⟨aborted, inactive, memx, mem⟩ := s₁.cutAbort_leaves (pmOwner (s₁.pmEntry (addr / 65536)))
    have begun : (pagesOf addr b.length).foldl State.startPageCopy s₁ = s₁.cutAbort (pmOwner (s₁.pmEntry (addr / 65536))) := by
      rw [page, List.foldl_cons, List.foldl_nil, State.startPageCopy_aborts inForce full]
    have none_ : ∀ v, v ∈ pagesOf addr b.length → s₁.copying v = false := by
      rw [page]
      intro v mem
      rw [List.mem_singleton.mp mem, idle]
    refine ⟨_, exec_cowWriteHold_stores passed ready none_ begun memx, ?_, ?_, ?_, ?_⟩
    · rw [State.sameRegs_storePlain _ _ _ _ _ _ F.PGM_CUT_ABORTED _ 0 (by decide), aborted]
    · rw [State.sameRegs_storePlain _ _ _ _ _ _ F.PGM_CUT_ACTIVE _ 0 (by decide), inactive]
    · rw [(State.keepsHolds_storePlain _ _ _ _ _ _).1, memx]
    · intro a key entry
      have keys : accessKeys (s₁.cutAbort (pmOwner (s₁.pmEntry (addr / 65536)))) 4 addr b.length = accessKeys s₁ 4 addr b.length :=
        List.map_congr_left (fun k _ => State.keyOf_congr (congrArg MemSt.tcache memx) mem 4 (addr + k))
      rw [State.rdByte_storePlain_other _ _ _ _ _ _ _ (keys ▸ key) entry, State.rdByte, mem]
      exact sameMem_of_passed passed a
  · intro s s₁ t p unit addr b passed ready free
    have none_ : ∀ v, v ∈ pagesOf addr b.length → s₁.copying v = false := fun v mem => (free v mem).1
    refine ⟨_, exec_cowWriteHold_stores passed ready none_ (State.foldl_startPageCopy_free (fun v mem => (free v mem).2)) rfl, ?_,
      State.keepsHolds_storePlain s₁ _ _ _ _ _⟩
    intro a key entry
    rw [State.rdByte_storePlain_other _ _ _ _ _ _ _ key entry]
    exact sameMem_of_passed passed a
  · intro s s₁ t p unit addr k b inv passed page ready idle free dram above vpn inside
    have only : ∀ (P : Nat → Prop), P (addr / 65536) → ∀ v, v ∈ pagesOf addr b.length → P v := by
      rw [page]
      intro P h v mem
      rwa [List.mem_singleton.mp mem]
    have w : Memory.wf s₁.mem = true := by rw [(State.onlyCached_of_checkAccess passed).mem]; exact inv
    exact ⟨_, exec_cowWriteHold_stores passed ready (only _ idle)
      (State.foldl_startPageCopy_free (only (fun v => s₁.cowInForce (s₁.pmEntry v) = false) free)) rfl,
      State.rdByte_storePlain_dram s₁ 4 unit p addr b w page dram above vpn inside⟩
  · intro s t v k c found none_ posted inv vpn above reserve beyond inPage
    have released := State.releaseHolds_cowCopy (s := (s.tick t).copyTaken v) none_ v c.p c.frame
    refine ⟨_, (exec_cowCopyDone_found t found posted).trans (congrArg Host.Outcome.next released), ?_⟩
    exact State.copied_holdsTaken (s := (s.tick t).copyTaken v) inv vpn above reserve beyond inPage
  · intro s t v c h only same held page ready posted inv vpn above reserve
    have found : s.memx.cowCopies.find? (fun x => x.vpn = v) = some c := by rw [only]; simp [same]
    have taken : ((s.tick t).copyTaken v).memx.cowCopies = [] := by
      change s.memx.cowCopies.filter (fun x => x.vpn ≠ v) = []
      rw [only]
      simp [same]
    have still : (((s.tick t).copyTaken v).cowCopy v c.p c.frame).pageWaits v = false :=
      (State.pageWaits_cowCopy (s := (s.tick t).copyTaken v) inv vpn above reserve).trans ((State.pageWaits_copyTaken s t v).trans ready)
    obtain ⟨-, copies⟩ := State.keepsHolds_cowCopy ((s.tick t).copyTaken v) v c.p c.frame
    have released := State.releaseHolds_cowCopy_one (s := (s.tick t).copyTaken v) held taken page still
    refine ⟨_, (exec_cowCopyDone_found t found posted).trans (congrArg Host.Outcome.next released), ?_⟩
    generalize ((s.tick t).copyTaken v).cowCopy v c.p c.frame = r at copies
    obtain ⟨holds, kept⟩ := State.keepsHolds_perform r.holdsTaken h
    exact ⟨holds, kept.trans (copies.trans taken)⟩

end Sys2Proof.Machine
end

section
/-!
PROOFS of the statements of spec/09: DRAM and cupola errors, scrub and refresh (O20).
-/

namespace Sys2Proof.Machine

/-! ### What the first uncorrected event and a warning leave (R226, R405) -/

theorem State.eccFirst_valid (s : State) (stack kind chan lane ca : Nat) :
    (s.eccFirst stack kind chan lane ca).rd F.MEM_ECC_FIRST_VALID stack ≠ 0 := by
  unfold State.eccFirst
  split
  · next valid => exact of_decide_eq_true valid
  · rw [State.rd_wr_lsb _ _ _ _ _ _ _ _ (by decide), State.rd_wr_lsb _ _ _ _ _ _ _ _ (by decide),
      State.rd_wr_lsb _ _ _ _ _ _ _ _ (by decide), State.rd_wr_lsb _ _ _ _ _ _ _ _ (by decide), State.rd_wr_same]
    decide

/-- The capture of a first uncorrected event writes its register alone. -/
theorem State.eccFirst_frame (s : State) (stack kind chan lane ca : Nat) :
    s.eccFirst stack kind chan lane ca = { s with regs := (s.eccFirst stack kind chan lane ca).regs } := by
  unfold State.eccFirst
  split <;> rfl

/-- A warning leaves memory, what the memory system holds, and every register but its own and the triggers it raises. -/
theorem State.warn_leaves (s : State) (cause instance_ cls source : Nat) (ps : List Nat) :
    (s.warn cause instance_ cls source ps).mem = s.mem ∧ (s.warn cause instance_ cls source ps).memx = s.memx ∧
    sameRegsBut [.GAL_WARN, .SNP_STATUS] s (s.warn cause instance_ cls source ps) := by
  unfold State.warn
  split
  · exact ⟨rfl, rfl, sameRegsBut_refl _ s⟩
  · dsimp only
    refine List.foldlRecOn _ _ (motive := fun r : State => r.mem = s.mem ∧ r.memx = s.memx ∧ sameRegsBut [.GAL_WARN, .SNP_STATUS] s r)
      ⟨by rw [State.raise_mem]; rfl, by rw [State.raise_memx]; rfl, fun f i j out => ?_⟩ (fun r kept p _ => ?_)
    · have other : f.reg ≠ .GAL_WARN := fun same => out (by simp [same])
      rw [State.raise_rd, State.rd_wr_reg _ _ _ _ _ _ _ _ other, State.rd_wr_reg _ _ _ _ _ _ _ _ other, State.wrBit,
        State.rd_wr_reg _ _ _ _ _ _ _ _ other]
      rfl
    · obtain ⟨mem, memx, regs⟩ := kept
      refine ⟨mem, memx, fun f i j out => (State.rd_wr_reg _ _ _ _ _ _ _ _ (fun same => out (by simp [same]))).trans (regs f i j out)⟩

/-! ### What the controller corrects (R224, R225) -/

theorem State.corrects_whole {s : State} {st ch : Nat} (whole : ∀ l, (st, ch, l) ∉ s.memx.erased) (syms : List Nat) :
    s.corrects st ch syms = true ↔ syms.dedup.length ≤ 4 := by
  have gone : s.memx.erased.filter (fun e => decide (e.1 = st) && decide (e.2.1 = ch)) = [] := by
    rw [List.filter_eq_nil_iff]
    rintro ⟨st', ch', l⟩ mem same
    obtain ⟨rfl, rfl⟩ : st' = st ∧ ch' = ch := by simpa using same
    exact whole l mem
  have rest : syms.dedup.filter (fun x => decide (x / 4 ∉ ([] : List Nat))) = syms.dedup := by simp
  unfold State.corrects
  simp only [gone, List.map_nil, rest, List.length_nil, Bool.and_eq_true, decide_eq_true_eq]
  omega

theorem State.corrects_erased {s : State} {st ch l : Nat} (erased : s.memx.erased = [(st, ch, l)]) (syms : List Nat) :
    s.corrects st ch syms = true ↔ (syms.dedup.filter (fun x => x / 4 ≠ l)).length ≤ 2 := by
  have rest : syms.dedup.filter (fun x => decide (x / 4 ∉ [l])) = syms.dedup.filter (fun x => x / 4 ≠ l) := by simp
  unfold State.corrects
  simp only [erased, List.filter_cons_of_pos, decide_true, Bool.and_self, List.filter_nil, List.map_cons, List.map_nil, rest,
    List.length_cons, List.length_nil, Bool.and_eq_true, decide_eq_true_eq]
  omega

/-! ### Corrected bursts (R224, R225) -/

/-- The report of a corrected burst. -/
def correctedReport (stack chan burst part : Nat) : Report :=
  { cls := 0, level := 0, master := 0x40 + stack, access := 0x31, part := part, source := 0x40 + stack, aux := chan, addr := burst * 128 }

/-- A corrected burst as counted and reported. -/
def State.correctionShown (s : State) (stack chan burst : Nat) : State :=
  (s.inc F.MEM_ECC_CORRECTED stack).raise (correctedReport stack chan burst (s.chanPart stack chan))

/-- The corrections on single lanes of the last second, with one more on lane `l`. -/
def State.laneRecent (s : State) (stack chan l : Nat) : List (Nat × Nat × Nat × Nat) :=
  (stack, chan, l, s.now) :: s.memx.laneCorr.filter (fun e => decide (s.now ≤ e.2.2.2 + 1000000000))

theorem State.burstCorrected_none (s : State) (stack chan burst : Nat) :
    s.burstCorrected stack chan burst none = s.correctionShown stack chan burst := rfl

theorem exec_dramBurstCorrected {s : State} {st ch b : Nat} {syms : List Nat} (t : Nat) (chan : chanOk st ch b = true)
    (ok : symsOk syms = true) (some_ : syms ≠ []) (corrects : s.corrects st ch syms = true) :
    exec (.dramBurstCorrected t st ch b syms) s = .next ((s.tick t).burstCorrected st ch b (oneLane syms)) := by
  change inst (chanOk st ch b && symsOk syms) _ = _
  rw [chan, ok, if_pos ⟨some_, corrects⟩]
  rfl

/-- A corrected burst of no single lane shows its count and its report. -/
theorem State.correctionShown_shows (s : State) (t st ch b : Nat) :
    ((s.tick t).correctionShown st ch b).rd F.MEM_ECC_CORRECTED st = counted F.MEM_ECC_CORRECTED (s.rd F.MEM_ECC_CORRECTED st) 1 ∧
    ((s.tick t).correctionShown st ch b).fc = reported s t (correctedReport st ch b ((s.tick t).chanPart st ch)) ∧
    sameBut [fkey F.MEM_ECC_CORRECTED st] s ((s.tick t).correctionShown st ch b) := by
  unfold State.correctionShown
  refine ⟨?_, State.raise_fc_congr _ rfl rfl (State.rd_inc_reg _ _ _ _ _ _ _ _ (by decide)), fun f i j out => ?_⟩
  · rw [State.raise_rd, State.rd_inc_same]
    rfl
  · rw [State.raise_rd]
    exact State.sameBut_wr (s.tick t) F.MEM_ECC_CORRECTED _ st 0 f i j out

theorem State.correctionShown_frame (s : State) (st ch b : Nat) :
    s.correctionShown st ch b = { s with regs := (s.correctionShown st ch b).regs, fc := (s.correctionShown st ch b).fc } := by
  unfold State.correctionShown
  conv_lhs => rw [State.raise_frame]
  rw [State.raise_regs]
  rfl

/-- The state in which a lane of a channel is erased. -/
def State.laneGone (s : State) (st ch l : Nat) : State :=
  { s with memx := { s.memx with
    erased := s.memx.erased ++ [(st, ch, l)],
    laneCorr := (s.laneRecent st ch l).filter (fun e => !(decide (e.1 = st) && decide (e.2.1 = ch) && decide (e.2.2.1 = l))) } }

/-- How many channels of a stack have an erased lane. -/
def State.erasedCount (s : State) (st : Nat) : Nat :=
  (below 64 (fun c => s.memx.erased.any (fun e => decide (e.1 = st) && decide (e.2.1 = c)))).length

/-- The erasure of a lane with what shows it: the count, the first event, the report and the warning (R225, R405). -/
def State.laneErased (s : State) (st ch b l part : Nat) : State :=
  let s := s.laneGone st ch l
  let s := (s.wr F.MEM_ECC_ERASED_LANES (s.erasedCount st) st).eccFirst st 3 ch l (b * 128)
  let s := s.raise { cls := 0, level := 1, master := 0x40 + st, part := part, source := 0x40 + st, aux := ch, addr := b * 128 }
  s.warn 5 st 0 (0x40 + st) (if part = 255 then s.partNums else [part])

/-- The sixteenth correction on one lane within a second erases the lane (R225). -/
theorem State.burstCorrected_erases {s : State} {st ch b l : Nat} (whole : (st, ch, l) ∉ s.memx.erased)
    (many : 16 ≤ ((s.laneRecent st ch l).filter (fun e => decide (e.1 = st) && decide (e.2.1 = ch) && decide (e.2.2.1 = l))).length) :
    s.burstCorrected st ch b (some l) = (s.correctionShown st ch b).laneErased st ch b l (s.chanPart st ch) := by
  have frame := s.correctionShown_frame st ch b
  have now : (s.correctionShown st ch b).now = s.now := by rw [frame]
  have memx : (s.correctionShown st ch b).memx = s.memx := by rw [frame]
  have recent : (s.correctionShown st ch b).laneRecent st ch l = s.laneRecent st ch l := by
    unfold State.laneRecent
    rw [now, memx]
  rw [← recent] at many
  exact (if_neg (memx ▸ whole)).trans (if_pos many)

/-- What the erasure of a lane leaves. -/
theorem State.laneErased_leaves (s : State) (st ch b l part : Nat) : (s.laneErased st ch b l part).memx.erased = s.memx.erased ++ [(st, ch, l)] ∧
    (s.laneErased st ch b l part).rd F.MEM_ECC_CORRECTED st = s.rd F.MEM_ECC_CORRECTED st ∧
    (s.laneErased st ch b l part).rd F.MEM_ECC_FIRST_VALID st ≠ 0 ∧ (s.laneErased st ch b l part).mem = s.mem := by
  unfold State.laneErased
  extract_lets s₁ s₂ s₃
  obtain ⟨mem, memx, regs⟩ := State.warn_leaves s₃ 5 st 0 (0x40 + st) (if part = 255 then s₃.partNums else [part])
  rw [mem, memx, regs F.MEM_ECC_CORRECTED st 0 (by decide), regs F.MEM_ECC_FIRST_VALID st 0 (by decide), State.raise_mem, State.raise_memx,
    State.raise_rd, State.raise_rd]
  refine ⟨?_, ?_, State.eccFirst_valid _ _ _ _ _ _, ?_⟩
  · rw [State.memx_eccFirst]
    rfl
  · rw [State.rd_eccFirst_reg _ _ _ _ _ _ _ _ _ (by decide), State.rd_wr_lsb _ _ _ _ _ _ _ _ (by decide)]
    rfl
  · rw [State.mem_eccFirst]
    rfl

/-! ### Uncorrected bursts and scrub (R226, R227) -/

/-- Which partition a channel belongs to depends on the image and the windows. -/
theorem State.chanPart_congr {a b : State} (img : b.img = a.img) (regs : ∀ (f : Fld) (i j : Nat), f.reg = .PGM_WINDOW → b.rd f i j = a.rd f i j)
    (st ch : Nat) : b.chanPart st ch = a.chanPart st ch := by
  unfold State.chanPart State.chanKey
  rw [State.windows_congr img regs]

/-- The report of an uncorrected burst. -/
def uncorrectedReport (stack chan burst master part : Nat) (scrub : Bool) : Report :=
  { cls := 0, level := 1, master := master, access := if scrub then 0x35 else 0x31, part := part, source := 0x40 + stack, aux := chan,
    addr := burst * 128 }

/-- An uncorrected burst as marked, counted and captured, before its report. -/
def State.errorMarked (s : State) (stack chan burst k : Nat) (scrub : Bool) : State :=
  ({ s with memx := { s.memx with poison := s.memx.poison ++ [k] } }.inc F.MEM_ECC_UNCORRECTED stack).eccFirst stack (if scrub then 1 else 0)
    chan 0 (burst * 128)

theorem State.errorMarked_leaves (s : State) (st ch b k : Nat) (scrub : Bool) :
    (s.errorMarked st ch b k scrub).memx.poison = s.memx.poison ++ [k] ∧
    (s.errorMarked st ch b k scrub).rd F.MEM_ECC_UNCORRECTED st = counted F.MEM_ECC_UNCORRECTED (s.rd F.MEM_ECC_UNCORRECTED st) 1 ∧
    (s.errorMarked st ch b k scrub).rd F.MEM_ECC_FIRST_VALID st ≠ 0 ∧
    sameRegsBut [.MEM_ECC, .MEM_ECC_FIRST] s (s.errorMarked st ch b k scrub) ∧ (s.errorMarked st ch b k scrub).mem = s.mem ∧
    (s.errorMarked st ch b k scrub).img = s.img ∧ (s.errorMarked st ch b k scrub).fc = s.fc ∧ (s.errorMarked st ch b k scrub).now = s.now := by
  unfold State.errorMarked
  refine ⟨?_, ?_, State.eccFirst_valid _ _ _ _ _ _, fun f i j out => ?_, State.mem_eccFirst _ _ _ _ _ _, ?_, ?_, ?_⟩
  · rw [State.memx_eccFirst]
    rfl
  · rw [State.rd_eccFirst_reg _ _ _ _ _ _ _ _ _ (by decide), State.rd_inc_same]
    rfl
  · rw [State.rd_eccFirst_reg _ _ _ _ _ _ _ _ _ (fun same => out (by simp [same])),
      State.rd_inc_reg _ _ _ _ _ _ _ _ (fun same => out (by simp [same]))]
    rfl
  all_goals
    rw [State.eccFirst_frame]
    rfl

theorem State.burstUncorrected_fresh {s : State} {st ch b k : Nat} (key : s.burstKey st ch b = k) (fresh : k ∉ s.memx.poison) (m : Nat)
    (scrub : Bool) : s.burstUncorrected st ch b m scrub =
      (s.errorMarked st ch b k scrub).raise (uncorrectedReport st ch b m (s.chanPart st ch) scrub) := by
  obtain ⟨-, -, -, regs, -, img, -, -⟩ := s.errorMarked_leaves st ch b k scrub
  have part : (s.errorMarked st ch b k scrub).chanPart st ch = s.chanPart st ch :=
    State.chanPart_congr img (fun f i j reg => regs f i j (by rw [reg]; decide)) st ch
  rw [← part]
  subst key
  exact if_neg fresh

theorem State.burstKey_tick (s : State) (t st ch b : Nat) : (s.tick t).burstKey st ch b = s.burstKey st ch b := by
  unfold State.burstKey State.chanKey State.windows
  rfl

theorem State.chanPart_tick (s : State) (t st ch : Nat) : (s.tick t).chanPart st ch = s.chanPart st ch := by
  unfold State.chanPart State.chanKey State.windows
  rfl

theorem exec_dramBurstUncorrected {s : State} {st ch b : Nat} {syms : List Nat} (t m : Nat) (scrub : Bool) (chan : chanOk st ch b = true)
    (ok : symsOk syms = true) (bad : s.corrects st ch syms = false ∨ s.burstKey st ch b ∈ s.memx.poison) :
    exec (.dramBurstUncorrected t st ch b m scrub syms) s = .next ((s.tick t).burstUncorrected st ch b m scrub) := by
  change inst (chanOk st ch b && symsOk syms) (if (s.corrects st ch syms && !s.memx.poison.contains ((s.tick t).burstKey st ch b)) = true
    then _ else _) = _
  rw [chan, ok, State.burstKey_tick, if_neg]
  · rfl
  · rcases bad with lost | held <;> simp [*]

/-- A burst scrubbed without a symbol in error only moves the scrub. -/
theorem exec_patrolScrub_clean {s : State} {st ch b : Nat} (t : Nat) (chan : chanOk st ch b = true)
    (fresh : s.burstKey st ch b ∉ s.memx.poison) (clean : s.corrects st ch [] = true) :
    exec (.patrolScrub t st ch b []) s = .next ((s.tick t).scrubStep st) := by
  change inst (chanOk st ch b && true) (State.scrubStep (if (s.memx.poison.contains ((s.tick t).burstKey st ch b) || !s.corrects st ch []) = true
    then _ else s.tick t) st) = _
  rw [chan, State.burstKey_tick, clean, if_neg (by simpa using fresh)]
  rfl

/-! ### Cupola words (R219) -/

/-- The report of an uncorrected word of cupola memory. -/
def wordReport (g off master access part : Nat) : Report :=
  { cls := 0, level := 1, master := master, access := access, part := part, source := 0x50 + g / 4, aux := g, addr := off }

theorem State.wordUncorrected_leaves (s : State) (t g off master access : Nat) :
    granule (cupKey g off) ∈ ((s.tick t).wordUncorrected g off master access).memx.poison ∧
    ((s.tick t).wordUncorrected g off master access).rd F.CUP_ECC_UNCORRECTED g =
      counted F.CUP_ECC_UNCORRECTED (s.rd F.CUP_ECC_UNCORRECTED g) 1 ∧
    ((s.tick t).wordUncorrected g off master access).fc = reported s t (wordReport g off master access ((s.tick t).slicePart g)) ∧
    sameBut [fkey F.CUP_ECC_UNCORRECTED g] s ((s.tick t).wordUncorrected g off master access) ∧
    ((s.tick t).wordUncorrected g off master access).mem = s.mem := by
  unfold State.wordUncorrected
  dsimp only
  refine ⟨?_, ?_, State.raise_fc_congr _ rfl rfl (State.rd_inc_reg _ _ _ _ _ _ _ _ (by decide)), fun f i j out => ?_, ?_⟩
  · rw [State.raise_memx]
    exact mem_addOnce _ _
  · rw [State.raise_rd, State.rd_inc_same]
    rfl
  · rw [State.raise_rd]
    exact State.sameBut_wr _ F.CUP_ECC_UNCORRECTED _ g 0 f i j out
  · rw [State.raise_mem]
    rfl

/-- The state in which a granule is marked poisoned. -/
def State.granuleMarked (s : State) (k : Nat) : State := { s with memx := { s.memx with poison := addOnce s.memx.poison k } }

/-- A write of part of a bad cupola word only reports. -/
theorem State.narrowWrite_cupola (s : State) (g off unit p : Nat) : ∃ r, s.narrowWrite (granule (cupKey g off)) unit p = s.raise r := by
  have beyond : ¬ granule (cupKey g off) < 2 ^ 40 := by
    unfold granule cupKey
    rw [if_neg (by omega)]
    omega
  exact ⟨_, if_neg beyond⟩

theorem exec_cupolaReadError_part (s : State) (t g off m : Nat) (ok : cupOk g off = true) : ∃ r,
    exec (.cupolaReadError t g off m false true) s = .next (((s.tick t).granuleMarked (granule (cupKey g off))).raise r) := by
  obtain ⟨r, narrow⟩ := ((s.tick t).granuleMarked (granule (cupKey g off))).narrowWrite_cupola g off m ((s.tick t).slicePart g)
  refine ⟨r, ?_⟩
  rw [← narrow]
  change execCupolaReadError t g off m false true s = _
  unfold execCupolaReadError State.granuleMarked
  dsimp only
  rw [ok, inst_true, if_neg Bool.false_ne_true, if_pos rfl]

/-! ### Refresh (R228, R229) -/

/-- A lapse touches the guarantees' register, and memory not at all. -/
theorem State.lapse_leaves (s : State) (mask : Nat) : (s.lapse mask).mem = s.mem ∧ sameRegsBut [.MGT_GUARANTEE] s (s.lapse mask) := by
  unfold State.lapse
  refine List.foldlRecOn _ _ (motive := fun r : State => r.mem = s.mem ∧ sameRegsBut [.MGT_GUARANTEE] s r)
    ⟨rfl, sameRegsBut_refl _ s⟩ (fun r kept e mem => ?_)
  have guarantee : e.2.1.reg = .MGT_GUARANTEE ∧ e.2.2.reg = .MGT_GUARANTEE := by
    fin_cases mem <;> exact ⟨rfl, rfl⟩
  split
  · refine ⟨kept.1, fun f i j out => ?_⟩
    have other : f.reg ≠ .MGT_GUARANTEE := fun same => out (List.mem_singleton.mpr same)
    rw [State.rd_vec, State.rd_wr_reg _ _ _ _ _ _ _ _ (guarantee.2 ▸ other), State.rd_wr_reg _ _ _ _ _ _ _ _ (guarantee.1 ▸ other)]
    exact kept.2 f i j out
  · exact kept

theorem State.judgeRating_leaves (s : State) (q : Nat) (ok : Bool) :
    (s.judgeRating q ok).mem = s.mem ∧ sameRegsBut [.MGT_GUARANTEE] s (s.judgeRating q ok) := by
  unfold State.judgeRating
  split
  · exact ⟨rfl, fun _ _ _ _ => rfl⟩
  · split
    · exact ⟨rfl, fun _ _ _ _ => rfl⟩
    · obtain ⟨mem, regs⟩ := State.lapse_leaves { s with pwr := { s.pwr with breaches := s.pwr.breaches ++ [q] } } 31
      dsimp only
      refine ⟨by rw [State.raise_mem, mem], fun f i j out => ?_⟩
      rw [State.raise_rd, regs f i j out]
      rfl

theorem refreshFor_lt (c : Int) : refreshFor c < 4 := by
  unfold refreshFor
  split_ifs <;> decide

theorem unsigned_lt (c : Int) (w : Nat) : unsigned c w < 2 ^ w := by
  have pos : (0 : Int) < 2 ^ w := by positivity
  have low := Int.emod_nonneg c (Int.ne_of_gt pos)
  have high := Int.emod_lt_of_pos c pos
  unfold unsigned
  zify
  rw [Int.toNat_of_nonneg low]
  exact high

/-- A stack's registers after a temperature sample. -/
def State.sampleShown (s : State) (st : Nat) (c : Int) : State :=
  let old := s.rd F.MEM_STACK_RATE st
  let new := refreshNext old c
  let s := ((s.wr F.MEM_STACK_TEMP (unsigned c 8) st).wr F.MEM_STACK_RATE new st).wrB F.MEM_STACK_LIMITED (new = 3) st
  if old < new then (s.inc F.MEM_STACK_RISES st).inc F.PWR_OVERRIDE_REFRESH else s

theorem State.sampleShown_mem (s : State) (st : Nat) (c : Int) : (s.sampleShown st c).mem = s.mem := by
  unfold State.sampleShown
  dsimp only
  split <;> rfl

/-- The count of a rise leaves what the sample showed. -/
theorem State.rd_sampleShown (s : State) (st : Nat) (c : Int) (f : Fld) (reg : f.reg = .MEM_STACK) (other : f.lsb ≠ F.MEM_STACK_RISES.lsb) :
    (s.sampleShown st c).rd f st = (((s.wr F.MEM_STACK_TEMP (unsigned c 8) st).wr F.MEM_STACK_RATE
      (refreshNext (s.rd F.MEM_STACK_RATE st) c) st).wrB F.MEM_STACK_LIMITED (refreshNext (s.rd F.MEM_STACK_RATE st) c = 3) st).rd f st := by
  unfold State.sampleShown
  dsimp only
  split
  · rw [State.rd_inc_reg _ _ _ _ _ _ _ _ (by rw [reg]; decide)]
    exact State.rd_wr_lsb _ _ _ _ _ _ _ _ other
  · rfl

theorem refreshNext_lt {old : Nat} (fits : old < 4) (c : Int) : refreshNext old c < 4 :=
  max_lt (refreshFor_lt c) (lt_of_le_of_lt (min_le_left _ _) fits)

/-- What the stack shows after a sample. -/
theorem State.sampleShown_shows (s : State) (st : Nat) (c : Int) (fits : s.rd F.MEM_STACK_RATE st < 4) :
    (s.sampleShown st c).rd F.MEM_STACK_RATE st = refreshNext (s.rd F.MEM_STACK_RATE st) c ∧
    (s.sampleShown st c).rd F.MEM_STACK_TEMP st = unsigned c 8 ∧
    (s.sampleShown st c).rd F.MEM_STACK_LIMITED st = (if refreshNext (s.rd F.MEM_STACK_RATE st) c = 3 then 1 else 0) ∧
    (s.sampleShown st c).rd F.MEM_STACK_RISES st =
      if s.rd F.MEM_STACK_RATE st < refreshNext (s.rd F.MEM_STACK_RATE st) c then counted F.MEM_STACK_RISES (s.rd F.MEM_STACK_RISES st) 1
      else s.rd F.MEM_STACK_RISES st := by
  refine ⟨?_, ?_, ?_, ?_⟩
  · rw [s.rd_sampleShown st c F.MEM_STACK_RATE rfl (by decide), State.wrB, State.rd_wr_lsb _ _ _ _ _ _ _ _ (by decide), State.rd_wr_same]
    exact Nat.mod_eq_of_lt (refreshNext_lt fits c)
  · rw [s.rd_sampleShown st c F.MEM_STACK_TEMP rfl (by decide), State.wrB, State.rd_wr_lsb _ _ _ _ _ _ _ _ (by decide),
      State.rd_wr_lsb _ _ _ _ _ _ _ _ (by decide), State.rd_wr_same]
    exact Nat.mod_eq_of_lt (unsigned_lt c 8)
  · rw [s.rd_sampleShown st c F.MEM_STACK_LIMITED rfl (by decide), State.wrB, State.rd_wr_same]
    simp only [decide_eq_true_eq]
    split <;> rfl
  · unfold State.sampleShown
    dsimp only
    have kept : ∀ v w x, (((s.wr F.MEM_STACK_TEMP v st).wr F.MEM_STACK_RATE w st).wrB F.MEM_STACK_LIMITED x st).rd F.MEM_STACK_RISES st
        = s.rd F.MEM_STACK_RISES st := fun v w x => by
      rw [State.wrB, State.rd_wr_lsb _ _ _ _ _ _ _ _ (by decide), State.rd_wr_lsb _ _ _ _ _ _ _ _ (by decide),
        State.rd_wr_lsb _ _ _ _ _ _ _ _ (by decide)]
    split
    · rw [State.rd_inc_reg _ _ _ _ _ _ _ _ (by decide), State.rd_inc_same, kept]
      rfl
    · exact kept _ _ _

/-- The state after a sample, with the reading kept, before its rating is judged. -/
def State.sampleKept (s : State) (st : Nat) (c : Int) : State :=
  { s.sampleShown st c with pwr := { (s.sampleShown st c).pwr with dieTemp := aset (s.sampleShown st c).pwr.dieTemp (16 + st) c } }

theorem exec_refreshSample {st : Nat} (s : State) (t : Nat) (c : Int) (stack : st < 16) : exec (.refreshSample t st c) s =
    .next (((s.tick t).sampleKept st c).judgeRating (100 + st) (decide (10 ≤ c) && decide (c ≤ 105))) := by
  change inst (decide (st < 16)) _ = _
  rw [decide_eq_true stack]
  rfl

/-- Settles O20: each event is read off the counters, marks and reports its step writes. -/
theorem dramErrorCorrection : Obligations.DramErrorCorrection := by
  unfold Obligations.DramErrorCorrection
  refine ⟨fun s st ch syms whole => State.corrects_whole whole syms, fun s st ch l syms erased => State.corrects_erased erased syms,
    ?_, ?_, ?_, ?_, ?_, ?_, ?_, ?_, ?_, ?_⟩
  · intro s t st ch b syms chan ok some_ corrects lane
    obtain ⟨count, fc, same⟩ := s.correctionShown_shows t st ch b
    have frame := (s.tick t).correctionShown_frame st ch b
    refine ⟨_, _, (exec_dramBurstCorrected t chan ok some_ corrects).trans (by rw [lane, State.burstCorrected_none]), count, rfl, rfl, rfl, rfl,
      fc, same, ?_⟩
    generalize (s.tick t).correctionShown st ch b = r at frame
    rw [frame]
    rfl
  · intro s t st ch b l syms chan ok corrects lane whole many
    have some_ : syms ≠ [] := by
      rintro rfl
      exact absurd lane (by simp [oneLane, symLanes])
    have recent : 16 ≤ (((s.tick t).laneRecent st ch l).filter
        (fun e => decide (e.1 = st) && decide (e.2.1 = ch) && decide (e.2.2.1 = l))).length := by
      unfold State.laneRecent
      rw [List.filter_cons_of_pos (by simp), List.length_cons, List.filter_filter]
      refine Nat.succ_le_succ (le_trans many (le_of_eq (congrArg List.length (List.filter_congr (fun e _ => ?_)))))
      rw [State.tick_now, ← Bool.and_comm (decide (max s.now t ≤ e.2.2.2 + 1000000000))]
      simp only [Bool.and_assoc]
    obtain ⟨erased, count, valid, mem⟩ := ((s.tick t).correctionShown st ch b).laneErased_leaves st ch b l ((s.tick t).chanPart st ch)
    have frame := (s.tick t).correctionShown_frame st ch b
    refine ⟨_, (exec_dramBurstCorrected t chan ok some_ corrects).trans
        (by rw [lane, State.burstCorrected_erases (s := s.tick t) whole recent]), ?_,
      count.trans (s.correctionShown_shows t st ch b).1, valid, sameMem_of_mem ?_⟩
    · rw [erased, frame]
      rfl
    · rw [mem, frame]
      rfl
  · intro s t st ch b m k scrub syms chan ok lost key fresh
    obtain ⟨poison, count, valid, regs, mem, -, fc, now⟩ := (s.tick t).errorMarked_leaves st ch b k scrub
    refine ⟨_, uncorrectedReport st ch b m ((s.tick t).chanPart st ch) scrub, (exec_dramBurstUncorrected t m scrub chan ok (Or.inl lost)).trans
      (by rw [State.burstUncorrected_fresh ((s.burstKey_tick t st ch b).trans key) fresh]), ?_, ?_, ?_, rfl, rfl, s.chanPart_tick t st ch, ?_,
      fun f i j out => ?_, sameMem_of_mem ?_⟩
    · rw [State.raise_memx, poison]
      rfl
    · rw [State.raise_rd, count]
      rfl
    · rw [State.raise_rd]
      exact valid
    · exact State.raise_fc_congr _ fc now (regs F.AON_STAGE_STAGE 0 0 (by decide))
    · rw [State.raise_rd]
      exact regs f i j out
    · rw [State.raise_mem, mem]
      rfl
  · intro s t st ch b m scrub syms chan ok held
    have counts : (s.tick t).burstUncorrected st ch b m scrub = (s.tick t).inc F.MEM_ECC_POISON_READS st :=
      if_pos ((s.burstKey_tick t st ch b).symm ▸ held)
    refine ⟨_, (exec_dramBurstUncorrected t m scrub chan ok (Or.inr held)).trans (congrArg Host.Outcome.next counts), ?_,
      State.sameBut_wr (s.tick t) F.MEM_ECC_POISON_READS _ st 0, rfl⟩
    exact State.rd_inc_same (s.tick t) F.MEM_ECC_POISON_READS st 0 1
  · intro s t st ch b chan fresh clean before
    refine ⟨_, (exec_patrolScrub_clean t chan fresh clean).trans (congrArg Host.Outcome.next (if_neg (Nat.not_le_of_lt before))), ?_, rfl,
      sameMem_of_mem rfl⟩
    exact congrArg (fun o => Option.getD o 0) (aget_aset_same _ _ _)
  · intro s t st ch b chan fresh clean last
    refine ⟨_, (exec_patrolScrub_clean t chan fresh clean).trans (congrArg Host.Outcome.next (if_pos last)), ?_,
      State.rd_inc_same _ F.MEM_SCRUB_PASSES st 0 1, sameMem_of_mem rfl⟩
    exact congrArg (fun o => Option.getD o 0) (aget_aset_same _ _ _)
  · intro s t g off ok
    refine ⟨(s.tick t).inc F.CUP_ECC_CORRECTED g, ?_, State.rd_inc_same (s.tick t) F.CUP_ECC_CORRECTED g 0 1,
      State.sameBut_wr (s.tick t) F.CUP_ECC_CORRECTED _ g 0, rfl⟩
    change inst (cupOk g off) _ = _
    rw [ok]
    rfl
  · intro s t g off m ok
    obtain ⟨poison, count, fc, same, mem⟩ := s.wordUncorrected_leaves t g off m 1
    refine ⟨_, wordReport g off m 1 ((s.tick t).slicePart g), ?_, poison, count, rfl, rfl, rfl, fc, same, sameMem_of_mem mem⟩
    change inst (cupOk g off) _ = _
    rw [ok]
    rfl
  · intro s t g off m ok
    obtain ⟨r, run⟩ := exec_cupolaReadError_part s t g off m ok
    refine ⟨_, run, ?_, State.raise_regs _ r, sameMem_of_mem (State.raise_mem _ r)⟩
    rw [State.raise_memx]
    exact mem_addOnce _ _
  · intro s t st c stack fits
    obtain ⟨mem, regs⟩ := ((s.tick t).sampleKept st c).judgeRating_leaves (100 + st) (decide (10 ≤ c) && decide (c ≤ 105))
    obtain ⟨rate, temp, limited, rises⟩ := (s.tick t).sampleShown_shows st c fits
    rw [State.tick_rd] at rate limited rises
    rw [State.tick_rd] at rises
    have shown : ∀ f : Fld, f.reg = .MEM_STACK →
        (((s.tick t).sampleKept st c).judgeRating (100 + st) (decide (10 ≤ c) && decide (c ≤ 105))).rd f st
          = ((s.tick t).sampleShown st c).rd f st :=
      fun f reg => regs f st 0 (by rw [reg]; decide)
    refine ⟨_, exec_refreshSample s t c stack, ?_⟩
    rw [shown F.MEM_STACK_RATE rfl, shown F.MEM_STACK_TEMP rfl, shown F.MEM_STACK_RISES rfl, State.on, shown F.MEM_STACK_LIMITED rfl, rate, temp,
      limited, rises]
    refine ⟨rfl, le_max_left _ _, max_le_max_left _ (min_le_left _ _), rfl, ?_, rfl, sameMem_of_mem (mem.trans ((s.tick t).sampleShown_mem st c))⟩
    by_cases top : refreshNext (s.rd F.MEM_STACK_RATE st) c = 3 <;> simp [top]

end Sys2Proof.Machine
end

section
/-!
PROOFS of the statements of spec/09: the bandwidth regulators (O21).
-/

namespace Sys2Proof.Machine

/-! ### Requests that wait (R232) -/

/-- The requests at regulator `r` of partition `p`. -/
def atRegulator (p r : Nat) (q : RegReq) : Bool := decide (q.p = p) && decide (q.r = r)

/-- The tokens that requests at a regulator ask. -/
def askedTokens (p r : Nat) (l : List RegReq) : Nat := ((l.filter (atRegulator p r)).map (fun q => q.need)).sum

theorem waitingTokens_eq (s : State) (p r : Nat) : waitingTokens s p r = askedTokens p r s.memx.regWait := rfl

theorem askedTokens_cons (p r : Nat) (x : RegReq) (l : List RegReq) :
    askedTokens p r (x :: l) = (if atRegulator p r x then x.need else 0) + askedTokens p r l := by
  unfold askedTokens
  rw [List.filter_cons]
  split <;> simp

theorem askedTokens_append (p r : Nat) (l l' : List RegReq) : askedTokens p r (l ++ l') = askedTokens p r l + askedTokens p r l' := by
  unfold askedTokens
  rw [List.filter_append, List.map_append, List.sum_append]

/-- The request taken from a list asks its tokens no more at its regulator. -/
theorem askedTokens_removeFirst (p r : Nat) {f : RegReq → Bool} {l : List RegReq} {q : RegReq} (found : l.find? f = some q) :
    askedTokens p r (removeFirst f l) + (if atRegulator p r q then q.need else 0) = askedTokens p r l := by
  induction l with
  | nil => exact absurd found (by simp)
  | cons x l ih =>
    rw [askedTokens_cons]
    unfold removeFirst
    by_cases first : f x = true
    · obtain rfl : x = q := by simpa [first] using found
      rw [if_pos first, Nat.add_comm]
    · rw [if_neg first, askedTokens_cons, Nat.add_assoc, ih (by simpa [first] using found)]

/-! ### Admission (R231, R232) -/

/-- The admission of request `q`, of unit `u`, at a regulator. -/
def State.admitted (s : State) (p r u : Nat) (q : RegReq) : State :=
  let s' := (s.wr F.BWG_STATE_LEVEL (s.rd F.BWG_STATE_LEVEL p r - q.need) p r).wr F.BWG_STATE_HELD (s.rd F.BWG_STATE_HELD p r + q.need) p r
  { s' with memx := { s'.memx with
      regWait := removeFirst (fun x => decide (x.p = p) && decide (x.r = r) && decide (x.unit = u)) s'.memx.regWait,
      regHeld := s'.memx.regHeld ++ [q],
      rr := aset s'.memx.rr (4 * p + r) u } }

/-- Serving a regulator is admission after admission. -/
theorem State.serve_induction (R : State → Prop) (p r : Nat)
    (step : ∀ s u q, s.memx.regWait.find? (fun x => decide (x.p = p) && decide (x.r = r) && decide (x.unit = u)) = some q →
      q.need ≤ s.rd F.BWG_STATE_LEVEL p r → R s → R (s.admitted p r u q)) (fuel : Nat) (s : State) (h : R s) : R (s.serve p r fuel) := by
  induction fuel generalizing s with
  | zero => exact h
  | succ fuel ih =>
    unfold State.serve
    split
    · exact h
    · next u _ =>
      split
      · exact h
      · next q found =>
        dsimp only
        split
        · exact h
        · next enough => exact ih _ (step s u q found (Nat.le_of_not_lt enough) h)

/-- A write of one of the fields listed keeps the others. -/
theorem sameBut.wr {l : List FKey} {a b : State} (h : sameBut l a b) (f : Fld) (v i j : Nat) (mem : fkey f i j ∈ l) : sameBut l a (b.wr f v i j) :=
  fun g i' j' out => (b.rd_wr_other f g v i j i' j' (fun (e : fkey g i' j' = fkey f i j) => out (e ▸ mem))).trans (h g i' j' out)

theorem sameBut_refl (l : List FKey) (s : State) : sameBut l s s := fun _ _ _ _ => rfl

/-- The second state differs from the first in the fields listed and on the memory side alone. -/
def onlyTokens (l : List FKey) (s s' : State) : Prop := sameBut l s s' ∧ s' = { s with regs := s'.regs, memx := s'.memx }

theorem onlyTokens_refl (l : List FKey) (s : State) : onlyTokens l s s := ⟨sameBut_refl l s, rfl⟩

theorem onlyTokens.trans {l : List FKey} {a b c : State} (h : onlyTokens l a b) (h' : onlyTokens l b c) : onlyTokens l a c := by
  refine ⟨fun f i j out => (h'.1 f i j out).trans (h.1 f i j out), ?_⟩
  rw [h'.2, h.2]

/-- The fields that an admission changes. -/
def admissionKeys (p r : Nat) : List FKey := [fkey F.BWG_STATE_LEVEL p r, fkey F.BWG_STATE_HELD p r]

theorem State.onlyTokens_admitted (s : State) (p r u : Nat) (q : RegReq) : onlyTokens (admissionKeys p r) s (s.admitted p r u q) :=
  ⟨((sameBut_refl _ s).wr F.BWG_STATE_LEVEL _ p r (by simp [admissionKeys])).wr F.BWG_STATE_HELD _ p r (by simp [admissionKeys]), rfl⟩

theorem State.onlyTokens_serve (s : State) (p r fuel : Nat) : onlyTokens (admissionKeys p r) s (s.serve p r fuel) :=
  State.serve_induction (onlyTokens (admissionKeys p r) s) p r (fun b u q _ _ kept => kept.trans (b.onlyTokens_admitted p r u q)) fuel s
    (onlyTokens_refl _ s)

/-- The fields of one regulator are not those of another. -/
theorem fkey_ne_regulator {p r p' r' : Nat} (other : (p, r) ≠ (p', r')) (f g : Fld) : fkey f p r ≠ fkey g p' r' := by
  intro same
  obtain ⟨-, rfl, rfl, -⟩ : f.reg = g.reg ∧ p = p' ∧ r = r' ∧ f.lsb = g.lsb := by simpa [fkey] using same
  exact other rfl

/-! ### Tokens that balance (R231, R233) -/

/-- A regulator whose tokens balance, whose level and whose held and asked tokens fit their fields. -/
def regulatorSound (p r : Nat) (s : State) : Prop :=
  balanced s p r ∧ s.rd F.BWG_STATE_LEVEL p r < 2 ^ 23 ∧ s.rd F.BWG_STATE_HELD p r + waitingTokens s p r < 2 ^ 22

/-- A regulator is as sound as before where its fields read the same and no more tokens are asked of it. -/
theorem regulatorSound.congr {p r : Nat} {a b : State} (h : regulatorSound p r a) (rd : ∀ f : Fld, b.rd f p r = a.rd f p r)
    (asked : waitingTokens b p r = waitingTokens a p r) : regulatorSound p r b := by
  unfold regulatorSound balanced at *
  simpa only [rd, asked] using h

/-- Admission keeps a regulator sound, its own or another. -/
theorem regulatorSound.admitted {p r p' r' u : Nat} {s : State} {q : RegReq} (h : regulatorSound p r s)
    (found : s.memx.regWait.find? (fun x => decide (x.p = p') && decide (x.r = r') && decide (x.unit = u)) = some q)
    (enough : q.need ≤ s.rd F.BWG_STATE_LEVEL p' r') : regulatorSound p r (s.admitted p' r' u q) := by
  have asks : q.p = p' ∧ q.r = r' := by
    have holds := List.find?_some found
    simp only [Bool.and_eq_true, decide_eq_true_eq] at holds
    exact holds.1
  have taken := askedTokens_removeFirst p r found
  by_cases own : (p, r) = (p', r')
  · obtain ⟨rfl, rfl⟩ : p = p' ∧ r = r' := by simpa using own
    rw [if_pos (by simp [atRegulator, asks])] at taken
    have waiting : waitingTokens (s.admitted p r u q) p r + q.need = waitingTokens s p r := taken
    obtain ⟨even, level, held⟩ := h
    have level' : (s.admitted p r u q).rd F.BWG_STATE_LEVEL p r = s.rd F.BWG_STATE_LEVEL p r - q.need := by
      refine (State.rd_wr_lsb _ _ _ _ _ _ _ _ (by decide)).trans ((State.rd_wr_same _ _ _ _ _).trans (Nat.mod_eq_of_lt ?_))
      exact Nat.lt_of_le_of_lt (Nat.sub_le _ _) level
    have held' : (s.admitted p r u q).rd F.BWG_STATE_HELD p r = s.rd F.BWG_STATE_HELD p r + q.need := by
      refine (State.rd_wr_same _ _ _ _ _).trans (Nat.mod_eq_of_lt ?_)
      change _ < 2 ^ 22
      omega
    have others : ∀ f : Fld, fkey f p r ∉ admissionKeys p r → (s.admitted p r u q).rd f p r = s.rd f p r :=
      fun f out => (s.onlyTokens_admitted p r u q).1 f p r out
    unfold regulatorSound balanced at *
    rw [level', held', others F.BWG_ISSUED_ISSUED (by simp [admissionKeys, fkey]), others F.BWG_SPENT_SPENT (by simp [admissionKeys, fkey]),
      others F.BWG_CLIPPED_CLIPPED (by simp [admissionKeys, fkey])]
    omega
  · refine h.congr (fun f => (s.onlyTokens_admitted p' r' u q).1 f p r ?_) ?_
    · simp [admissionKeys, fkey_ne_regulator own]
    · rw [if_neg] at taken
      · exact taken
      · simp only [atRegulator, asks, Bool.and_eq_true, decide_eq_true_eq]
        rintro ⟨rfl, rfl⟩
        exact own rfl

theorem regulatorSound.serve {p r : Nat} {s : State} (h : regulatorSound p r s) (p' r' fuel : Nat) : regulatorSound p r (s.serve p' r' fuel) :=
  State.serve_induction (regulatorSound p r) p' r' (fun _ _ _ found enough sound => sound.admitted found enough) fuel s h

/-! ### Refill (R231) -/

/-- The fields that a refill changes. -/
def refillKeys (p r : Nat) : List FKey := [fkey F.BWG_STATE_LEVEL p r, fkey F.BWG_ISSUED_ISSUED p r, fkey F.BWG_CLIPPED_CLIPPED p r]

theorem State.onlyTokens_refill (s : State) (p r : Nat) : onlyTokens (refillKeys p r) s (s.refill p r) :=
  ⟨(((sameBut_refl _ s).wr F.BWG_STATE_LEVEL _ p r (by simp [refillKeys])).wr F.BWG_ISSUED_ISSUED _ p r (by simp [refillKeys])).wr
    F.BWG_CLIPPED_CLIPPED _ p r (by simp [refillKeys]), rfl⟩

/-- A sound regulator with room for one more refill. -/
def refillRoom (p r : Nat) (s : State) : Prop :=
  regulatorSound p r s ∧ s.rd F.BWG_CFG_DEPTH p r < 2 ^ 22 ∧ s.rd F.BWG_ISSUED_ISSUED p r + s.rd F.BWG_CFG_RATE p r < 2 ^ 64

theorem refillRoom.congr {p r : Nat} {a b : State} (h : refillRoom p r a) (sound : regulatorSound p r b)
    (rd : ∀ f : Fld, f.reg ≠ .BWG_STATE → b.rd f p r = a.rd f p r) : refillRoom p r b := by
  obtain ⟨-, depth, issued⟩ := h
  refine ⟨sound, ?_, ?_⟩
  · rwa [rd F.BWG_CFG_DEPTH (by decide)]
  · rwa [rd F.BWG_ISSUED_ISSUED (by decide), rd F.BWG_CFG_RATE (by decide)]

/-- A refill of a regulator with room keeps its tokens balanced. -/
theorem refillRoom.refill {p r : Nat} {s : State} (h : refillRoom p r s) : regulatorSound p r (s.refill p r) := by
  obtain ⟨⟨even, level, held⟩, depth, issued⟩ := h
  have level' : (s.refill p r).rd F.BWG_STATE_LEVEL p r = s.rd F.BWG_STATE_LEVEL p r
      + min (s.rd F.BWG_CFG_RATE p r) (s.rd F.BWG_CFG_DEPTH p r - s.rd F.BWG_STATE_LEVEL p r) := by
    refine (State.rd_inc_reg _ _ _ _ _ _ _ _ (by decide)).trans ((State.rd_inc_reg _ _ _ _ _ _ _ _ (by decide)).trans
      ((State.rd_wr_same _ _ _ _ _).trans (Nat.mod_eq_of_lt ?_)))
    change _ < 2 ^ 23
    omega
  have issued' : (s.refill p r).rd F.BWG_ISSUED_ISSUED p r = s.rd F.BWG_ISSUED_ISSUED p r + s.rd F.BWG_CFG_RATE p r := by
    refine (State.rd_inc_reg _ _ _ _ _ _ _ _ (by decide)).trans ((State.rd_inc_same _ _ _ _ _).trans ?_)
    rw [State.rd_wr_reg _ _ _ _ _ _ _ _ (by decide)]
    exact Nat.min_eq_left (Nat.le_sub_one_of_lt issued)
  have clipped' : (s.refill p r).rd F.BWG_CLIPPED_CLIPPED p r = s.rd F.BWG_CLIPPED_CLIPPED p r
      + (s.rd F.BWG_CFG_RATE p r - min (s.rd F.BWG_CFG_RATE p r) (s.rd F.BWG_CFG_DEPTH p r - s.rd F.BWG_STATE_LEVEL p r)) := by
    refine (State.rd_inc_same _ _ _ _ _).trans ?_
    rw [State.rd_inc_reg _ _ _ _ _ _ _ _ (by decide), State.rd_wr_reg _ _ _ _ _ _ _ _ (by decide)]
    refine Nat.min_eq_left (Nat.le_sub_one_of_lt ?_)
    change _ < 2 ^ 64
    unfold balanced at even
    omega
  have others : ∀ f : Fld, fkey f p r ∉ refillKeys p r → (s.refill p r).rd f p r = s.rd f p r :=
    fun f out => (s.onlyTokens_refill p r).1 f p r out
  have asked : waitingTokens (s.refill p r) p r = waitingTokens s p r := rfl
  unfold regulatorSound balanced at *
  rw [level', issued', clipped', asked, others F.BWG_STATE_HELD (by simp [refillKeys, fkey]),
    others F.BWG_SPENT_SPENT (by simp [refillKeys, fkey])]
  omega

/-- A regulator refilled and served (R231). -/
def State.refillServe (s : State) (x : Nat × Nat) : State := (s.refill x.1 x.2).serveAll x.1 x.2

theorem refillRoom.refillServe {p r : Nat} {s : State} (h : refillRoom p r s) : regulatorSound p r (s.refillServe (p, r)) :=
  h.refill.serve p r _

/-- Another regulator's refill leaves what one reads. -/
theorem State.rd_refillServe_other (s : State) {x : Nat × Nat} {p r : Nat} (other : (p, r) ≠ x) (f : Fld) :
    (s.refillServe x).rd f p r = s.rd f p r := by
  refine ((State.onlyTokens_serve _ x.1 x.2 _).1 f p r ?_).trans ((s.onlyTokens_refill x.1 x.2).1 f p r ?_)
  · simp [admissionKeys, fkey_ne_regulator other]
  · simp [refillKeys, fkey_ne_regulator other]

theorem regulatorSound.refillServe {p r : Nat} {s : State} (h : regulatorSound p r s) {x : Nat × Nat} (other : x ≠ (p, r)) :
    regulatorSound p r (s.refillServe x) := by
  refine regulatorSound.serve (h.congr (fun f => (s.onlyTokens_refill x.1 x.2).1 f p r ?_) rfl) x.1 x.2 _
  simp [refillKeys, fkey_ne_regulator other.symm]

/-- A list without repetition takes a turn from `P` to `Q` once, where the other steps keep both. -/
theorem foldl_turned {α β : Type} {step : β → α → β} {P Q : β → Prop} {a : α} (turn : ∀ b, P b → Q (step b a))
    (keepP : ∀ b x, x ≠ a → P b → P (step b x)) (keepQ : ∀ b x, x ≠ a → Q b → Q (step b x))
    {l : List α} (once : l.Nodup) {b : β} (h : P b) :
    P (l.foldl step b) ∨ Q (l.foldl step b) := by
  induction l generalizing b with
  | nil => exact Or.inl h
  | cons x l ih =>
    obtain ⟨out, once⟩ := List.nodup_cons.mp once
    rw [List.foldl_cons]
    by_cases own : x = a
    · subst own
      exact Or.inr (List.foldlRecOn l step (motive := Q) (turn b h) (fun b kept y mem => keepQ b y (fun same => out (same ▸ mem)) kept))
    · exact ih once (keepP b x own h)

/-- The regulators of partitions. -/
def regulatorsOf (ps : List Nat) : List (Nat × Nat) := ps.flatMap (fun p => [0, 1, 2].map (fun r => (p, r)))

theorem nodup_regulatorsOf {ps : List Nat} (once : ps.Nodup) : (regulatorsOf ps).Nodup := by
  refine List.nodup_flatMap.mpr ⟨fun p _ => List.Nodup.map (fun _ _ same => congrArg Prod.snd same) (by decide), ?_⟩
  refine once.imp (fun {p p'} different => ?_)
  intro x mem mem'
  obtain ⟨_, _, rfl⟩ := List.mem_map.mp mem
  obtain ⟨_, _, same⟩ := List.mem_map.mp mem'
  exact different (congrArg Prod.fst same).symm

/-- The state in which a refill begins. -/
def State.refillDue (s : State) : State := { s with memx := { s.memx with refillUs := s.now / 1000 } }

theorem exec_regulatorRefill (s : State) (t : Nat) :
    exec (.regulatorRefill t) s = .next ((regulatorsOf s.partNums).foldl State.refillServe (s.tick t).refillDue) := by
  have flat : ∀ (ps : List Nat) (s : State),
      (regulatorsOf ps).foldl State.refillServe s = ps.foldl (fun s p => [0, 1, 2].foldl (fun s r => (s.refill p r).serveAll p r) s) s := by
    intro ps s
    unfold regulatorsOf
    rw [List.foldl_flatMap]
    rfl
  rw [flat]
  rfl

/-- What refills of every regulator change. -/
def onlyRefilled (s s' : State) : Prop :=
  sameRegsBut [.BWG_STATE, .BWG_ISSUED, .BWG_CLIPPED] s s' ∧ s' = { s with regs := s'.regs, memx := s'.memx }

theorem onlyRefilled.trans {a b c : State} (h : onlyRefilled a b) (h' : onlyRefilled b c) : onlyRefilled a c := by
  refine ⟨h.1.trans h'.1, ?_⟩
  rw [h'.2, h.2]

theorem onlyTokens.onlyRefilled {l : List FKey} {s s' : State} (h : onlyTokens l s s')
    (regs : ∀ k, k ∈ l → k.reg ∈ [Reg.BWG_STATE, .BWG_ISSUED, .BWG_CLIPPED]) : onlyRefilled s s' :=
  ⟨fun f i j out => h.1 f i j (fun mem => out (regs _ mem)), h.2⟩

theorem State.onlyRefilled_refillServe (s : State) (x : Nat × Nat) : onlyRefilled s (s.refillServe x) :=
  ((s.onlyTokens_refill x.1 x.2).onlyRefilled (by simp [refillKeys, fkey])).trans
    ((State.onlyTokens_serve _ x.1 x.2 _).onlyRefilled (by simp [admissionKeys, fkey]))

/-! ### A request, a draw and an arrival (R230 to R233) -/

/-- A request for `n` bytes: 1 token for each 64 bytes begun (R230). -/
def requestOf (p r unit n : Nat) (pool : Bool) : RegReq := { p := p, r := r, unit := unit, need := ceilDiv n 64, pool := pool }

/-- The state in which a request joins those that wait. -/
def State.requestWaits (s : State) (q : RegReq) : State := { s with memx := { s.memx with regWait := s.memx.regWait ++ [q] } }

theorem State.rd_requestWaits (s : State) (q : RegReq) (f : Fld) (i j : Nat) : (s.requestWaits q).rd f i j = s.rd f i j := rfl

theorem exec_regulatorAdmit {p r n : Nat} (s : State) (t unit : Nat) (pool : Bool) (hp : p < 16) (hr : r < 3) (some_ : 0 < n) (small : n ≤ 4096) :
    exec (.regulatorAdmit t p r unit n pool) s =
      .next (((s.tick t).requestWaits (requestOf p r unit n pool)).serveAll p r) := by
  change inst (decide (p < 16) && decide (r < 3)) _ = _
  rw [decide_eq_true hp, decide_eq_true hr]
  exact congrArg Host.Outcome.next (if_neg (by omega))

/-- The only request at a regulator is served where its tokens are there, and waits where they are not. -/
theorem State.serveAll_only {s : State} {p r unit need : Nat} {pool : Bool}
    (only : s.memx.regWait = [{ p := p, r := r, unit := unit, need := need, pool := pool }]) : s.serveAll p r =
      if s.rd F.BWG_STATE_LEVEL p r < need then s
      else s.admitted p r unit { p := p, r := r, unit := unit, need := need, pool := pool } := by
  have next : s.nextUnit p r = some unit := by
    unfold State.nextUnit
    simp only [only, List.filter_cons_of_pos, decide_true, Bool.and_self, List.filter_nil, List.map_cons, List.map_nil]
    cases aget s.memx.rr (4 * p + r) with
    | none => rfl
    | some last =>
      dsimp only
      by_cases later : last < unit
      · simp [later]
      · simp [later]
  have found : s.memx.regWait.find? (fun q => decide (q.p = p) && decide (q.r = r) && decide (q.unit = unit)) =
      some { p := p, r := r, unit := unit, need := need, pool := pool } := by simp [only]
  have one : s.memx.regWait.length = 1 := by rw [only]; rfl
  unfold State.serveAll
  rw [one, State.serve, next]
  dsimp only
  rw [found]
  rfl

theorem balanced_draw {s : State} {p r : Nat} (unit need : Nat) (pool : Bool) (even : balanced s p r) (fits : tokensFit s p r 0) :
    balanced (s.draw p r unit need pool) p r := by
  unfold State.draw
  split
  · next may =>
    have enough : need ≤ s.rd F.BWG_STATE_LEVEL p r := of_decide_eq_true (Bool.and_eq_true_iff.mp may).1
    obtain ⟨level, -, -, issued⟩ := fits
    have level' : ((s.wr F.BWG_STATE_LEVEL (s.rd F.BWG_STATE_LEVEL p r - need) p r).inc F.BWG_SPENT_SPENT p r need).rd F.BWG_STATE_LEVEL p r
        = s.rd F.BWG_STATE_LEVEL p r - need := by
      rw [State.rd_inc_reg _ _ _ _ _ _ _ _ (by decide), State.rd_wr_same]
      exact Nat.mod_eq_of_lt (Nat.lt_of_le_of_lt (Nat.sub_le _ _) level)
    have spent' : ((s.wr F.BWG_STATE_LEVEL (s.rd F.BWG_STATE_LEVEL p r - need) p r).inc F.BWG_SPENT_SPENT p r need).rd F.BWG_SPENT_SPENT p r
        = s.rd F.BWG_SPENT_SPENT p r + need := by
      rw [State.rd_inc_same, State.rd_wr_reg _ _ _ _ _ _ _ _ (by decide)]
      refine Nat.min_eq_left (Nat.le_sub_one_of_lt ?_)
      change _ < 2 ^ 64
      unfold balanced at even
      omega
    have others : ∀ f : Fld, f.reg ≠ .BWG_SPENT → f.lsb ≠ F.BWG_STATE_LEVEL.lsb ∨ f.reg ≠ .BWG_STATE →
        ((s.wr F.BWG_STATE_LEVEL (s.rd F.BWG_STATE_LEVEL p r - need) p r).inc F.BWG_SPENT_SPENT p r need).rd f p r = s.rd f p r := by
      intro f spent state
      rw [State.rd_inc_reg _ _ _ _ _ _ _ _ spent]
      exact state.elim (State.rd_wr_lsb s F.BWG_STATE_LEVEL f _ p r p r) (State.rd_wr_reg s F.BWG_STATE_LEVEL f _ p r p r)
    generalize (s.wr F.BWG_STATE_LEVEL (s.rd F.BWG_STATE_LEVEL p r - need) p r).inc F.BWG_SPENT_SPENT p r need = b at level' spent' others ⊢
    change balanced b p r
    unfold balanced at *
    rw [level', spent', others F.BWG_ISSUED_ISSUED (by decide) (Or.inr (by decide)), others F.BWG_STATE_HELD (by decide) (Or.inl (by decide)),
      others F.BWG_CLIPPED_CLIPPED (by decide) (Or.inr (by decide))]
    omega
  · exact even

/-- The state in which the oldest admitted request of a unit, of `need` tokens, has reached its channel. -/
def State.requestSpent (s : State) (p r unit need : Nat) : State :=
  let s' := (s.wr F.BWG_STATE_HELD (s.rd F.BWG_STATE_HELD p r - need) p r).inc F.BWG_SPENT_SPENT p r need
  { s' with memx := { s'.memx with
    regHeld := removeFirst (fun q => decide (q.p = p) && decide (q.r = r) && decide (q.unit = unit)) s'.memx.regHeld } }

theorem exec_requestReachChannel_only {s : State} {p r unit need : Nat} {pool : Bool} (t : Nat) (hp : p < 16) (hr : r < 3)
    (only : s.memx.regHeld = [{ p := p, r := r, unit := unit, need := need, pool := pool }]) :
    exec (.requestReachChannel t p r unit) s =
      .next (if r < 2 ∧ !pool ∧ s.hngState p = 3 then s.tick t else (s.tick t).requestSpent p r unit need) := by
  have found : s.memx.regHeld.find? (fun q => decide (q.p = p) && decide (q.r = r) && decide (q.unit = unit)) =
      some { p := p, r := r, unit := unit, need := need, pool := pool } := by simp [only]
  change execRequestReachChannel t p r unit s = _
  unfold execRequestReachChannel
  dsimp only
  rw [State.tick_memx, found, regOk, decide_eq_true hp, decide_eq_true hr]
  rfl

/-- What a request that reaches its channel spends. -/
theorem State.requestSpent_spends {s : State} {p r need : Nat} (unit : Nat) (held : need ≤ s.rd F.BWG_STATE_HELD p r)
    (fits : tokensFit s p r 0) (even : balanced s p r) :
    (s.requestSpent p r unit need).rd F.BWG_STATE_HELD p r = s.rd F.BWG_STATE_HELD p r - need ∧
    (s.requestSpent p r unit need).rd F.BWG_SPENT_SPENT p r = s.rd F.BWG_SPENT_SPENT p r + need ∧
    onlyTokens [fkey F.BWG_STATE_HELD p r, fkey F.BWG_SPENT_SPENT p r] s (s.requestSpent p r unit need) := by
  obtain ⟨-, -, room, issued⟩ := fits
  refine ⟨?_, ?_, ((sameBut_refl _ s).wr F.BWG_STATE_HELD _ p r (by simp)).wr F.BWG_SPENT_SPENT _ p r (by simp), rfl⟩
  · refine (State.rd_inc_reg _ _ _ _ _ _ _ _ (by decide)).trans ((State.rd_wr_same _ _ _ _ _).trans (Nat.mod_eq_of_lt ?_))
    change _ < 2 ^ 22
    omega
  · refine (State.rd_inc_same _ _ _ _ _).trans ?_
    rw [State.rd_wr_reg _ _ _ _ _ _ _ _ (by decide)]
    refine Nat.min_eq_left (Nat.le_sub_one_of_lt ?_)
    change _ < 2 ^ 64
    unfold balanced at even
    omega

/-- Settles O21: each step of the regulators moves tokens between the terms of R233; a refill adds what it adds and clips to ISSUED too. -/
theorem regulatorsConserveTokens : Obligations.RegulatorsConserveTokens := by
  unfold Obligations.RegulatorsConserveTokens
  refine ⟨?_, ?_, ?_, fun s p r unit need pool even fits => balanced_draw unit need pool even fits, ?_, ?_⟩
  · intro s t p r even fits once
    obtain ⟨level, depth, held, issued⟩ := fits
    have room : refillRoom p r (s.tick t).refillDue := ⟨⟨even, level, held⟩, depth, issued⟩
    have ends := foldl_turned (step := State.refillServe) (P := refillRoom p r) (Q := regulatorSound p r) (a := (p, r))
      (fun _ room => room.refillServe)
      (fun b x other room => room.congr (room.1.refillServe other) (fun f _ => b.rd_refillServe_other other.symm f))
      (fun _ _ other sound => sound.refillServe other) (nodup_regulatorsOf once) room
    have frame : onlyRefilled (s.tick t).refillDue ((regulatorsOf s.partNums).foldl State.refillServe (s.tick t).refillDue) :=
      foldl_related onlyRefilled (fun s => ⟨fun _ _ _ _ => rfl, rfl⟩) (fun _ _ _ => onlyRefilled.trans)
        (fun s x => s.onlyRefilled_refillServe x) _ _
    refine ⟨_, exec_regulatorRefill s t, ends.elim (fun room => room.1.1) (fun sound => sound.1), frame.1, ?_⟩
    generalize (regulatorsOf s.partNums).foldl State.refillServe (s.tick t).refillDue = s' at frame
    rw [frame.2]
    rfl
  · intro s t p r unit n pool hp hr some_ small even fits
    obtain ⟨level, depth, held, issued⟩ := fits
    refine ⟨_, exec_regulatorAdmit s t unit pool hp hr some_ small, ?_⟩
    have asked : waitingTokens ((s.tick t).requestWaits (requestOf p r unit n pool)) p r
        = waitingTokens s p r + ceilDiv n 64 := by
      rw [waitingTokens_eq]
      refine (askedTokens_append p r s.memx.regWait _).trans (congrArg (waitingTokens s p r + ·) ?_)
      simp [askedTokens, atRegulator, requestOf]
    have sound : regulatorSound p r ((s.tick t).requestWaits (requestOf p r unit n pool)) := by
      refine ⟨even, level, ?_⟩
      rw [asked, ← Nat.add_assoc]
      exact held
    have kept := sound.serve p r ((s.tick t).requestWaits (requestOf p r unit n pool)).memx.regWait.length
    have only := ((s.tick t).requestWaits (requestOf p r unit n pool)).onlyTokens_serve p r
      ((s.tick t).requestWaits (requestOf p r unit n pool)).memx.regWait.length
    refine ⟨kept.1, only.1, ?_⟩
    unfold State.serveAll
    rw [only.2]
    rfl
  · intro s t p r unit n pool hp hr some_ small idle fits
    have only : ((s.tick t).requestWaits (requestOf p r unit n pool)).memx.regWait =
        [requestOf p r unit n pool] := congrArg (· ++ _) idle
    obtain ⟨level, -, held, -⟩ := fits
    refine ⟨_, (exec_regulatorAdmit s t unit pool hp hr some_ small).trans (congrArg Host.Outcome.next (State.serveAll_only only)), ?_⟩
    rw [State.rd_requestWaits, State.tick_rd]
    refine ⟨?_, ?_⟩
    · intro enough
      rw [if_neg (Nat.not_lt_of_le enough)]
      refine ⟨?_, ?_, ?_⟩
      · refine (State.rd_wr_lsb _ _ _ _ _ _ _ _ (by decide)).trans ((State.rd_wr_same _ _ _ _ _).trans (Nat.mod_eq_of_lt ?_))
        exact Nat.lt_of_le_of_lt (Nat.sub_le _ _) level
      · refine (State.rd_wr_same _ _ _ _ _).trans (Nat.mod_eq_of_lt ?_)
        change s.rd F.BWG_STATE_HELD p r + ceilDiv n 64 < 2 ^ 22
        omega
      · exact (congrArg (removeFirst _) only).trans (by simp [removeFirst, requestOf])
    · intro few
      rw [if_pos few]
      exact ⟨rfl, only⟩
  · intro s t p r unit need pool hp hr free only held fits even
    have moves : ¬ (r < 2 ∧ !pool ∧ s.hngState p = 3) := fun ⟨low, dram, stuck⟩ => free low (by simpa using dram) stuck
    obtain ⟨held', spent', same, frame⟩ := State.requestSpent_spends (s := s.tick t) unit held fits even
    have others : ∀ f : Fld, fkey f p r ∉ [fkey F.BWG_STATE_HELD p r, fkey F.BWG_SPENT_SPENT p r] →
        ((s.tick t).requestSpent p r unit need).rd f p r = s.rd f p r := fun f out => same f p r out
    refine ⟨_, (exec_requestReachChannel_only t hp hr only).trans (congrArg Host.Outcome.next (if_neg moves)), held', spent',
      (congrArg (removeFirst _) only).trans (by simp [removeFirst]), ?_, same, rfl⟩
    unfold balanced at *
    rw [held', spent', others F.BWG_ISSUED_ISSUED (by simp [fkey]), others F.BWG_STATE_LEVEL (by simp [fkey]),
      others F.BWG_CLIPPED_CLIPPED (by simp [fkey]), State.tick_rd, State.tick_rd]
    omega
  · intro s t p r unit need hp hr stuck only
    rw [exec_requestReachChannel_only t hp (by omega) only, if_pos ⟨hr, rfl, stuck⟩]

end Sys2Proof.Machine
end

section
/-!
PROOFS of the statements of spec/10: the Belfry cores' resets, access faults and cache errors, and the Ethernet ports' receive side (O22).
-/

namespace Sys2Proof.Machine

/-! ### Failed access checks (R208) -/

/-- An access that touches a byte begins with the page of its address. -/
theorem pagesOf_head {addr n : Nat} (some_ : 0 < n) : ∃ rest, pagesOf addr n = addr / 65536 :: rest := by
  unfold pagesOf
  rw [if_neg (by omega), List.range_succ_eq_map, List.map_cons, Nat.add_zero]
  exact ⟨_, rfl⟩

/-- An access whose first page fails its checks is recorded there and goes no further. -/
theorem State.checkAccess_fails {s : State} {cache p addr n c : Nat} {write mirror : Bool} (some_ : 0 < n)
    (fails : (s.pmLookup cache (addr / 65536)).2.accessCode (s.pmLookup cache (addr / 65536)).1 addr p write mirror = some c) (unit aux : Nat) :
    s.checkAccess cache unit p addr n write mirror aux =
      (some c, (s.pmLookup cache (addr / 65536)).2.accessFault c cache unit p addr write aux) := by
  obtain ⟨rest, pages⟩ := pagesOf_head (addr := addr) some_
  have first : max addr (addr / 65536 * 65536) = addr := Nat.max_eq_left (Nat.div_mul_le_self addr 65536)
  unfold State.checkAccess
  rw [pages, List.foldl_cons]
  dsimp only
  rw [first, fails]
  exact List.foldlRecOn rest _ (motive := fun r => r = (some c, _)) rfl (fun r same v _ => by rw [same])

/-- A first failed check makes PGM_FAULT valid (R208). -/
theorem State.accessFault_valid (s : State) (code cache unit p addr : Nat) (write : Bool) (aux : Nat) (empty : s.on F.PGM_FAULT_VALID = false) :
    (s.accessFault code cache unit p addr write aux).rd F.PGM_FAULT_VALID = 1 := by
  unfold State.accessFault
  simp only [State.raise_on, empty, Bool.false_eq_true, if_false]
  rw [State.rd_wr_lsb _ _ _ _ _ _ _ _ (by decide), State.wrB, State.rd_wr_lsb _ _ _ _ _ _ _ _ (by decide),
    State.rd_wr_lsb _ _ _ _ _ _ _ _ (by decide), State.rd_wr_lsb _ _ _ _ _ _ _ _ (by decide), State.rd_wr_lsb _ _ _ _ _ _ _ _ (by decide),
    State.rd_wr_same]
  rfl

/-- A first failed check is captured with who made the access (R208). -/
theorem State.accessFault_captures_access (s : State) {code cache unit p addr : Nat} (write : Bool) (aux : Nat)
    (empty : s.on F.PGM_FAULT_VALID = false) (part : p < 16) (one : unit < 2 ^ 7) :
    (s.accessFault code cache unit p addr write aux).rd F.PGM_FAULT_PARTITION = p ∧
    (s.accessFault code cache unit p addr write aux).rd F.PGM_FAULT_UNIT = unit ∧
    (s.accessFault code cache unit p addr write aux).on F.PGM_FAULT_WRITE = write := by
  unfold State.accessFault
  simp only [State.raise_on, empty, Bool.false_eq_true, if_false]
  generalize s.raise _ = a
  refine ⟨?_, ?_, ?_⟩
  · rw [State.rd_wr_lsb _ _ _ _ _ _ _ _ (by decide), State.wrB, State.rd_wr_lsb _ _ _ _ _ _ _ _ (by decide),
      State.rd_wr_lsb _ _ _ _ _ _ _ _ (by decide), State.rd_wr_same]
    exact Nat.mod_eq_of_lt part
  · rw [State.rd_wr_lsb _ _ _ _ _ _ _ _ (by decide), State.wrB, State.rd_wr_lsb _ _ _ _ _ _ _ _ (by decide), State.rd_wr_same]
    exact Nat.mod_eq_of_lt one
  · unfold State.on
    rw [State.rd_wr_lsb _ _ _ _ _ _ _ _ (by decide)]
    exact State.on_wrB_same _ F.PGM_FAULT_WRITE write 0 0 rfl

/-- The report of a failed check (R208). -/
def faultReport (code cache unit p addr : Nat) (write : Bool) (aux : Nat) : Report :=
  { cls := if code = 2 then 5 else 0, level := 1, master := unit, access := (if write then 2 else 1) + 0x10, part := p,
    source := if cache < 4 then 0x50 + cache else 0x56, code := code, aux := aux, addr := addr }

/-- What a failed check leaves besides its capture. -/
theorem State.accessFault_leaves (s : State) (code cache unit p addr : Nat) (write : Bool) (aux : Nat) :
    (s.accessFault code cache unit p addr write aux).fc = (s.raise (faultReport code cache unit p addr write aux)).fc ∧
    (s.accessFault code cache unit p addr write aux).mem = s.mem := by
  unfold State.accessFault faultReport
  dsimp only
  generalize raised : s.raise _ = a
  have mem : a.mem = s.mem := raised ▸ s.raise_mem _
  cases a.on F.PGM_FAULT_VALID <;> exact ⟨rfl, mem⟩

/-! ### A Belfry core's access (R238) -/

theorem State.coreStore_fails {s s' : State} {n p addr c : Nat} {b : Bytes}
    (fails : s.checkAccess 4 0x59 p addr b.length true false n = (some c, s')) : s.coreStore n p addr b = ({ code := c, data := [] }, s') := by
  unfold State.coreStore
  rw [fails]

theorem State.coreLoad_fails {s s' : State} {n p addr len c : Nat} (fails : s.checkAccess 4 0x59 p addr len false false n = (some c, s')) :
    s.coreLoad n p addr len = ({ code := c, data := [] }, s') := by
  unfold State.coreLoad
  rw [fails]

/-- Core `n` gets the answer `a`. -/
def State.coreAnswered (s : State) (n : Nat) (a : CoreAns) : State := { s with host := { s.host with coreGot := aset s.host.coreGot n a } }

theorem State.retrains_tick (s : State) (t e : Nat) : (s.tick t).retrains e = s.retrains e := by
  unfold State.retrains State.windowAt State.windows
  rfl

theorem State.pmEntry_tick (s : State) (t v : Nat) : (s.tick t).pmEntry v = s.pmEntry v := rfl

/-- The state in which a running core's access has failed at its first page. -/
def State.coreRefused (s : State) (n p addr c : Nat) (write : Bool) : State :=
  ((s.pmLookup 4 (addr / 65536)).2.accessFault c 4 0x59 p addr write n).coreAnswered n { code := c, data := [] }

/-- An access of a running core that fails at its first page reaches the core as its outcome. -/
theorem exec_belfryAccessFault_refused {s : State} {n p addr len c : Nat} {wr : Option Bytes} (t : Nat) (core : n < 48)
    (own : s.corePart n = some p) (runs : s.rd F.MGT_BFY_CORE_STATE n = 1) (some_ : 0 < (wr.map (fun b => b.length)).getD len)
    (ready : ∀ v, v ∈ pagesOf addr len → s.retrains (s.pmEntry v) = false)
    (fails : ∀ write, ((s.tick t).pmLookup 4 (addr / 65536)).2.accessCode ((s.tick t).pmLookup 4 (addr / 65536)).1 addr p write false = some c) :
    exec (.belfryAccessFault t n addr len wr) s = .next ((s.tick t).coreRefused n p addr c wr.isSome) := by
  have ready' : (pagesOf addr len).any (fun v => (s.tick t).retrains ((s.tick t).pmEntry v)) = false := by
    rw [List.any_eq_false]
    intro v mem
    rw [State.retrains_tick, State.pmEntry_tick, ready v mem]
    exact Bool.false_ne_true
  have own' : (s.tick t).corePart n = some p := own
  change execBelfryAccessFault t n addr len wr s = _
  unfold execBelfryAccessFault
  dsimp only
  rw [own', decide_eq_true core, inst_true, ready']
  dsimp only
  rw [State.tick_rd, if_neg (by simpa using runs), if_neg (by simp)]
  cases wr with
  | none =>
    dsimp only
    have some_' : 0 < len := some_
    rw [State.coreLoad_fails (State.checkAccess_fails some_' (fails false) 0x59 n)]
    rfl
  | some b =>
    dsimp only
    have some_' : 0 < b.length := some_
    rw [State.coreStore_fails (State.checkAccess_fails some_' (fails true) 0x59 n)]
    rfl

/-- What a refused access leaves: the report, and memory as it was. -/
theorem State.coreRefused_leaves (s : State) (t n p addr c : Nat) (write : Bool) :
    ((s.tick t).coreRefused n p addr c write).fc = reported s t (faultReport c 4 0x59 p addr write n) ∧
    sameMem s ((s.tick t).coreRefused n p addr c write) ∧
    aget ((s.tick t).coreRefused n p addr c write).host.coreGot n = some { code := c, data := [] } ∧
    sameRegsBut [.PGM_FAULT] s ((s.tick t).coreRefused n p addr c write) := by
  have looked := (s.tick t).onlyCached_pmLookup 4 (addr / 65536)
  obtain ⟨fc, mem⟩ := ((s.tick t).pmLookup 4 (addr / 65536)).2.accessFault_leaves c 4 0x59 p addr write n
  have reg := ((s.tick t).pmLookup 4 (addr / 65536)).2.rd_accessFault_reg c 4 0x59 p addr write n
  unfold State.coreRefused
  generalize ((s.tick t).pmLookup 4 (addr / 65536)).2 = a at looked fc mem reg
  refine ⟨fc.trans ?_, sameMem_of_mem (mem.trans ?_), aget_aset_same _ _ _, fun f i j out => ?_⟩
  · rw [looked]
    exact State.raise_fc_congr _ rfl rfl rfl
  · rw [looked]
    rfl
  · refine (reg f i j (fun same => out (List.mem_singleton.mpr same))).trans ?_
    rw [looked]
    rfl

/-- What the first capture of a refused access shows. -/
theorem State.coreRefused_captures {s : State} {p addr c : Nat} (t n : Nat) (write : Bool) (empty : s.on F.PGM_FAULT_VALID = false) (small : c < 8) :
    ((s.tick t).coreRefused n p addr c write).rd F.PGM_FAULT_VALID = 1 ∧
    ((s.tick t).coreRefused n p addr c write).rd F.PGM_FAULT_CODE = c ∧
    ((s.tick t).coreRefused n p addr c write).rd F.PGM_FAULT_ADDRESS = addr % 2 ^ 48 ∧
    (p < 16 → ((s.tick t).coreRefused n p addr c write).rd F.PGM_FAULT_PARTITION = p ∧
      ((s.tick t).coreRefused n p addr c write).rd F.PGM_FAULT_UNIT = 0x59 ∧
      ((s.tick t).coreRefused n p addr c write).on F.PGM_FAULT_WRITE = write) := by
  have looked := (s.tick t).onlyCached_pmLookup 4 (addr / 65536)
  unfold State.coreRefused
  generalize ((s.tick t).pmLookup 4 (addr / 65536)).2 = a at looked
  have empty' : a.on F.PGM_FAULT_VALID = false := by
    rw [looked]
    exact empty
  obtain ⟨-, code, address⟩ := a.accessFault_captures c 4 0x59 p addr write n empty' small
  exact ⟨a.accessFault_valid c 4 0x59 p addr write n empty', code, address,
    fun part => a.accessFault_captures_access write n empty' part (by decide)⟩

/-! ### Core resets and cache errors (R236, R247) -/

/-- A core with no modified line loses nothing from memory. -/
theorem State.mem_dropCore {s : State} {n : Nat} (clean : s.modified n = 0) : (s.dropCore n).mem = s.mem := by
  have none_ : ∀ l, l ∈ s.memx.priv.filter (fun l => l.core = n) → l.below = none := by
    intro l mem
    obtain ⟨mem, core⟩ := List.mem_filter.mp mem
    have unmodified := List.filter_eq_nil_iff.mp (List.length_eq_zero_iff.mp clean) l mem
    simpa [of_decide_eq_true core] using unmodified
  refine List.foldlRecOn _ _ (motive := fun r : State => r.mem = s.mem) rfl (fun r same l mem => ?_)
  rw [none_ l mem]
  exact same

/-- What the loss of a core's cache leaves. -/
theorem State.dropCore_leaves (s : State) (n : Nat) : (s.dropCore n).memx.priv = s.memx.priv.filter (fun l => l.core ≠ n) ∧
    (s.dropCore n).regs = s.regs := by
  have kept := List.foldlRecOn (s.memx.priv.filter (fun l => l.core = n)) (fun (s : State) (l : PLine) => match l.below with
    | some b => s.wrBytes l.line b
    | none => s) (b := s) (motive := fun r : State => r.memx = s.memx ∧ r.regs = s.regs) ⟨rfl, rfl⟩ (fun r same l _ => by split <;> exact same)
  exact ⟨congrArg (fun x : MemSt => x.priv.filter (fun l : PLine => l.core ≠ n)) kept.1, kept.2⟩

/-- The fields that a core's reset changes. -/
def coreResetKeys (n : Nat) : List FKey := [fkey F.MGT_BFY_CORE_STATE n, fkey F.MGT_BFY_CORE_LOST_LINES n, fkey F.MGT_BFY_CORE_FREQ_MHZ n]

/-- The state in which an assigned core has been reset and starts again. -/
def State.coreRestarted (s : State) (n : Nat) : State :=
  let s := (s.inc F.MGT_BFY_CORE_LOST_LINES n 0 (s.modified n)).dropCore n
  (s.wr F.MGT_BFY_CORE_STATE 1 n).wr F.MGT_BFY_CORE_FREQ_MHZ s.pwr.bfyMhz n

theorem exec_bfyCoreReset_mgt {s : State} {n : Nat} (t : Nat) (core : n < 48) (assigned : s.on F.MGT_BFY_CORE_ASSIGNED n = true)
    (running : s.safe = false) : exec (.bfyCoreReset t n .mgt) s = .next ((s.tick t).coreRestarted n) := by
  have safe : (((s.tick t).inc F.MGT_BFY_CORE_LOST_LINES n 0 (s.modified n)).dropCore n).safe = false := by
    have stage : (((s.tick t).inc F.MGT_BFY_CORE_LOST_LINES n 0 (s.modified n)).dropCore n).stage = s.stage :=
      (State.rd_congr (State.dropCore_leaves _ n).2 _ _ _).trans (State.rd_inc_reg _ _ _ _ _ _ _ _ (by decide))
    unfold State.safe at running ⊢
    rwa [stage]
  have reset : (s.tick t).coreReset n = (s.tick t).coreRestarted n := by
    have assigned' : (s.tick t).on F.MGT_BFY_CORE_ASSIGNED n = true := assigned
    have safe' : (((s.tick t).inc F.MGT_BFY_CORE_LOST_LINES n 0 ((s.tick t).modified n)).dropCore n).safe = false := safe
    unfold State.coreReset
    dsimp only
    rw [assigned', safe']
    rfl
  change inst (decide (n < 48)) ((s.tick t).coreReset n) = _
  rw [decide_eq_true core, inst_true, reset]

/-- What the reset of a core shows and leaves. -/
theorem State.coreRestarted_shows (s : State) (n : Nat) : (s.coreRestarted n).rd F.MGT_BFY_CORE_STATE n = 1 ∧
    (s.coreRestarted n).rd F.MGT_BFY_CORE_LOST_LINES n =
      counted F.MGT_BFY_CORE_LOST_LINES (s.rd F.MGT_BFY_CORE_LOST_LINES n) (s.modified n) ∧
    (s.coreRestarted n).memx.priv = s.memx.priv.filter (fun l => l.core ≠ n) ∧
    (s.modified n = 0 → (s.coreRestarted n).mem = s.mem) ∧ sameBut (coreResetKeys n) s (s.coreRestarted n) := by
  obtain ⟨priv, regs⟩ := (s.inc F.MGT_BFY_CORE_LOST_LINES n 0 (s.modified n)).dropCore_leaves n
  have mem : s.modified n = 0 → ((s.inc F.MGT_BFY_CORE_LOST_LINES n 0 (s.modified n)).dropCore n).mem = s.mem :=
    fun clean => State.mem_dropCore (s := s.inc F.MGT_BFY_CORE_LOST_LINES n 0 (s.modified n)) clean
  unfold State.coreRestarted
  generalize (s.inc F.MGT_BFY_CORE_LOST_LINES n 0 (s.modified n)).dropCore n = a at priv regs mem
  have count : a.rd F.MGT_BFY_CORE_LOST_LINES n = counted F.MGT_BFY_CORE_LOST_LINES (s.rd F.MGT_BFY_CORE_LOST_LINES n) (s.modified n) := by
    rw [State.rd_congr regs, State.rd_inc_same]
    rfl
  have counted_ : sameBut (coreResetKeys n) s a := fun f i j out =>
    (State.rd_congr regs f i j).trans ((sameBut_refl (coreResetKeys n) s).wr F.MGT_BFY_CORE_LOST_LINES _ n 0 (by simp [coreResetKeys]) f i j out)
  refine ⟨?_, ?_, priv, mem, ?_⟩
  · dsimp only
    rw [State.rd_wr_lsb _ _ _ _ _ _ _ _ (by decide), State.rd_wr_same]
    decide
  · dsimp only
    rw [State.rd_wr_lsb _ _ _ _ _ _ _ _ (by decide), State.rd_wr_lsb _ _ _ _ _ _ _ _ (by decide), count]
  · exact (counted_.wr F.MGT_BFY_CORE_STATE _ n 0 (by simp [coreResetKeys])).wr F.MGT_BFY_CORE_FREQ_MHZ _ n 0 (by simp [coreResetKeys])

/-- The report of an uncorrected error in a line that a core holds. -/
def lineReport (n p line : Nat) : Report := { cls := 0, level := 1, master := 0x59, access := 1, part := p, source := 0x59, aux := n, addr := line }

/-- The state in which line `l` has left the caches with its modified data. -/
def State.lineLost (s : State) (l : PLine) : State :=
  let s := match l.below with
    | some b => s.wrBytes l.line b
    | none => s
  { s with memx := { s.memx with priv := s.memx.priv.filter (fun x => x ≠ l) } }

theorem State.lineLost_leaves (s : State) (l : PLine) : l ∉ (s.lineLost l).memx.priv ∧ (s.lineLost l).regs = s.regs ∧
    (s.lineLost l).fc = s.fc ∧ (s.lineLost l).now = s.now ∧ (l.below = none → (s.lineLost l).mem = s.mem) := by
  unfold State.lineLost
  cases l.below with
  | none => exact ⟨by simp, rfl, rfl, rfl, fun _ => rfl⟩
  | some b => exact ⟨by simp, rfl, rfl, rfl, fun none_ => nomatch none_⟩

theorem exec_machineCheck {s : State} {n p line : Nat} {l : PLine} (t : Nat) (core : n < 48) (own : s.corePart n = some p)
    (held : s.memx.priv.find? (fun l => decide (l.core = n) && decide (l.line = line / 128 * 128)) = some l) (corrected : Bool) :
    exec (.machineCheck t n line corrected) s = .next (if corrected then (s.tick t).inc F.MGT_BFY_CORE_CACHE_CORR n
      else ((((s.tick t).lineLost l).inc F.MGT_BFY_CORE_CACHE_UNCORR n).raise (lineReport n p l.line)).coreVec n 3) := by
  have own' : (s.tick t).corePart n = some p := own
  have held' : (s.tick t).memx.priv.find? (fun l => decide (l.core = n) && decide (l.line = line / 128 * 128)) = some l := held
  change execMachineCheck t n line corrected s = _
  unfold execMachineCheck
  dsimp only
  rw [own', held', decide_eq_true core]
  rfl

/-! ### Ethernet receive (R248, R249) -/

/-- A frame over a link that is up, with its codewords counted. -/
def State.frameCounted (s : State) (port corr unc : Nat) : State :=
  ((s.wr F.MGT_ETH_LINK 1 port).inc F.MGT_ETH_FEC_CORR port 0 corr).inc F.MGT_ETH_FEC_UNCORR port 0 unc

/-- One more frame has gone to queue pair `q`. -/
def State.frameQueued (s : State) (q : Nat) : State := { s with host := { s.host with ethQ := aset s.host.ethQ q (agetD s.host.ethQ q 0 + 1) } }

/-- What becomes of a counted frame by the image record that it matches. -/
def State.frameMatched (s : State) (port hash dma : Nat) (b : Bytes) : Option EthRec → State
  | none => s.inc F.MGT_ETH_RX_UNMATCHED port
  | some r =>
    if r.qpFirst + hash % r.qpCount < 64 then ((s.frameQueued (64 * port + (r.qpFirst + hash % r.qpCount))).devWrite 4 0x5C r.p dma b).2 else s

theorem exec_ethernetFrameReceive {s : State} {port : Nat} (t mac hash dma corr unc : Nat) (vlan : Option Nat) (b : Bytes) (inRange : port < 2)
    (on_ : s.on F.PWR_STATUS_CONV_ON = true) : exec (.ethernetFrameReceive t port mac vlan hash dma b corr unc) s = .next (
      if 0 < unc ∨ 9216 < b.length then (s.tick t).frameCounted port corr unc
      else ((s.tick t).frameCounted port corr unc).frameMatched port hash dma b (s.ethMatch port mac vlan)) := by
  have on' : (s.tick t).on F.PWR_STATUS_CONV_ON = true := on_
  have same : ((s.tick t).frameCounted port corr unc).ethMatch port mac vlan = s.ethMatch port mac vlan := rfl
  rw [← same]
  change execEthernetFrameReceive t port mac vlan hash dma b corr unc s = _
  unfold execEthernetFrameReceive
  dsimp only
  rw [on', decide_eq_true inRange, inst_true, if_neg (by decide)]
  unfold State.frameCounted
  split
  · rfl
  · cases State.ethMatch _ port mac vlan <;> rfl

/-- What the count of a frame shows and leaves. -/
theorem State.frameCounted_shows (s : State) (port corr unc : Nat) : (s.frameCounted port corr unc).rd F.MGT_ETH_LINK port = 1 ∧
    (s.frameCounted port corr unc).rd F.MGT_ETH_FEC_CORR port = counted F.MGT_ETH_FEC_CORR (s.rd F.MGT_ETH_FEC_CORR port) corr ∧
    (s.frameCounted port corr unc).rd F.MGT_ETH_FEC_UNCORR port = counted F.MGT_ETH_FEC_UNCORR (s.rd F.MGT_ETH_FEC_UNCORR port) unc ∧
    (s.frameCounted port corr unc).rd F.MGT_ETH_RX_UNMATCHED port = s.rd F.MGT_ETH_RX_UNMATCHED port ∧
    sameRegsBut [.MGT_ETH] s (s.frameCounted port corr unc) := by
  unfold State.frameCounted
  refine ⟨?_, ?_, ?_, ?_, fun f i j out => ?_⟩
  · rw [State.inc, State.rd_wr_lsb _ _ _ _ _ _ _ _ (by decide), State.inc, State.rd_wr_lsb _ _ _ _ _ _ _ _ (by decide), State.rd_wr_same]
    rfl
  · rw [State.inc, State.rd_wr_lsb _ _ _ _ _ _ _ _ (by decide), State.rd_inc_same, State.rd_wr_lsb _ _ _ _ _ _ _ _ (by decide)]
    rfl
  · rw [State.rd_inc_same, State.inc, State.rd_wr_lsb _ _ _ _ _ _ _ _ (by decide), State.rd_wr_lsb _ _ _ _ _ _ _ _ (by decide)]
    rfl
  · rw [State.inc, State.rd_wr_lsb _ _ _ _ _ _ _ _ (by decide), State.inc, State.rd_wr_lsb _ _ _ _ _ _ _ _ (by decide),
      State.rd_wr_lsb _ _ _ _ _ _ _ _ (by decide)]
  · have other : f.reg ≠ .MGT_ETH := fun same => out (List.mem_singleton.mpr same)
    rw [State.rd_inc_reg _ _ _ _ _ _ _ _ other, State.rd_inc_reg _ _ _ _ _ _ _ _ other, State.rd_wr_reg _ _ _ _ _ _ _ _ other]

/-- An entry that is not valid translates no access. -/
theorem State.accessCode_invalid (s : State) {e : Nat} (invalid : pmValid e = false) (addr p : Nat) (write mirror : Bool) :
    s.accessCode e addr p write mirror = some 1 := by
  unfold State.accessCode
  rw [if_pos (by simp [invalid])]

/-- An access through a valid entry of the cupola that another partition owns fails for its owner. -/
theorem State.accessCode_foreign (s : State) {e addr p : Nat} (inside : addr < 2 ^ 40) (valid : pmValid e = true) (cupola : pmLoc e = 1)
    (foreign : pmOwner e ≠ p) (write : Bool) : s.accessCode e addr p write false = some 2 := by
  unfold State.accessCode
  rw [if_neg, if_pos (by simp [foreign])]
  simp only [valid, cupola]
  simp only [Bool.not_true, Bool.or_false, OfNat.one_ne_ofNat, decide_false, one_ne_zero, Bool.false_and, decide_eq_true_eq]
  omega

theorem State.pmLookup_tick (s : State) (t cache v : Nat) : ((s.tick t).pmLookup cache v).1 = (s.pmLookup cache v).1 :=
  State.pmLookup_congr (a := s) (b := s.tick t) rfl rfl cache v

/-- Settles O22: each event is read off the steps its command takes; an access that fails at its first page is recorded and answered there. -/
theorem belfryEvents : Obligations.BelfryEvents := by
  unfold Obligations.BelfryEvents
  refine ⟨?_, ?_, ?_, ?_, ?_, ?_, ?_, ?_, ?_⟩
  · intro s t n core assigned running
    obtain ⟨state, count, priv, mem, same⟩ := (s.tick t).coreRestarted_shows n
    exact ⟨_, exec_bfyCoreReset_mgt t core assigned running, state, count, priv, fun clean => sameMem_of_mem (mem clean), same⟩
  · intro s t n p core
    have unit : decide (n < 48) = true := decide_eq_true core
    refine ⟨?_, ?_, _, deniedReport (((s.tick t).coresOf p).head?.getD 0) p true, ?_, rfl, rfl, rfl, rfl, s.tick_raise_frame t _⟩
    · change inst (decide (n < 48)) (s.tick t) = _
      rw [unit, inst_true]
    · change inst (decide (n < 48)) (s.tick t) = _
      rw [unit, inst_true]
    · change inst (decide (n < 48)) ((s.tick t).registerDenied p true) = _
      rw [unit, inst_true]
      rfl
  · intro s t n p addr len wr core own part runs inside some_ ready invalid empty
    have fails := fun write => State.accessCode_invalid ((s.tick t).pmLookup 4 (addr / 65536)).2 (e := ((s.tick t).pmLookup 4 (addr / 65536)).1)
      (by rw [State.pmLookup_tick, invalid]) addr p write false
    obtain ⟨-, mem, got, regs⟩ := s.coreRefused_leaves t n p addr 1 wr.isSome
    obtain ⟨valid, code, address, shown⟩ := State.coreRefused_captures (p := p) (addr := addr) t n wr.isSome empty (show 1 < 8 by decide)
    obtain ⟨partition, unit, write⟩ := shown part
    exact ⟨_, exec_belfryAccessFault_refused t core own runs some_ ready fails, valid, code, partition, unit, write,
      address.trans (Nat.mod_eq_of_lt (by omega)), got, regs, mem⟩
  · intro s t n p addr len wr core own runs inside some_ ready valid cupola foreign empty
    have fails := fun write => State.accessCode_foreign ((s.tick t).pmLookup 4 (addr / 65536)).2 (e := ((s.tick t).pmLookup 4 (addr / 65536)).1)
      (addr := addr) (p := p) inside (by rw [State.pmLookup_tick, valid]) (by rw [State.pmLookup_tick, cupola])
      (by rw [State.pmLookup_tick]; exact foreign) write
    obtain ⟨fc, mem, got, -⟩ := s.coreRefused_leaves t n p addr 2 wr.isSome
    obtain ⟨captured, code, -, -⟩ := State.coreRefused_captures (p := p) (addr := addr) t n wr.isSome empty (show 2 < 8 by decide)
    exact ⟨_, faultReport 2 4 0x59 p addr wr.isSome n, exec_belfryAccessFault_refused t core own runs some_ ready fails, captured, code, got, rfl,
      rfl, rfl, fc, mem⟩
  · intro s t n p line l core own held
    obtain ⟨gone, regs, fc, now, mem⟩ := (s.tick t).lineLost_leaves l
    refine ⟨_, lineReport n p l.line, exec_machineCheck t core own held false, ?_, rfl, rfl, rfl, ?_, ?_, mem_addOnce _ _,
      fun clean => sameMem_of_mem ?_, fun f i j out => ?_⟩
    · refine (State.raise_rd _ _ _ _ _).trans ((State.rd_inc_same _ _ _ _ _).trans ?_)
      rw [State.rd_congr regs]
      rfl
    · exact State.raise_fc_congr _ fc now ((State.rd_inc_reg _ _ _ _ _ _ _ _ (by decide)).trans (State.rd_congr regs _ _ _))
    · refine fun mem => gone ?_
      rwa [if_neg Bool.false_ne_true, State.coreVec, State.raise_memx] at mem
    · exact (State.raise_mem _ _).trans (mem clean)
    · refine (State.raise_rd _ _ _ _ _).trans ((State.sameBut_wr _ F.MGT_BFY_CORE_CACHE_UNCORR _ n 0 f i j out).trans ?_)
      exact State.rd_congr regs f i j
  · intro s t n p line l core own held
    exact ⟨_, exec_machineCheck t core own held true, State.rd_inc_same (s.tick t) F.MGT_BFY_CORE_CACHE_CORR n 0 1,
      State.sameBut_wr (s.tick t) F.MGT_BFY_CORE_CACHE_CORR _ n 0, rfl⟩
  · intro s t port mac hash dma corr vlan b inRange fits on_ none_
    obtain ⟨link, fec, -, unmatched, regs⟩ := (s.tick t).frameCounted_shows port corr 0
    refine ⟨((s.tick t).frameCounted port corr 0).inc F.MGT_ETH_RX_UNMATCHED port, ?_, ?_, ?_, ?_, fun f i j out => ?_, rfl⟩
    · rw [exec_ethernetFrameReceive t mac hash dma corr 0 vlan b inRange on_, if_neg (by omega), none_]
      rfl
    · rw [State.rd_inc_same, unmatched]
      rfl
    · exact (State.rd_wr_lsb _ _ _ _ _ _ _ _ (by decide)).trans link
    · exact (State.rd_wr_lsb _ _ _ _ _ _ _ _ (by decide)).trans fec
    · rw [State.rd_inc_reg _ _ _ _ _ _ _ _ (fun same => out (List.mem_singleton.mpr same))]
      exact regs f i j out
  · intro s t port mac hash dma corr unc vlan b inRange bad on_
    obtain ⟨-, -, fec, -, regs⟩ := (s.tick t).frameCounted_shows port corr unc
    refine ⟨(s.tick t).frameCounted port corr unc, ?_, fec, regs, rfl⟩
    rw [exec_ethernetFrameReceive t mac hash dma corr unc vlan b inRange on_, if_pos (Or.inl bad)]
  · intro s t port mac hash dma corr vlan b r inRange fits on_ matches_ pair
    rw [exec_ethernetFrameReceive t mac hash dma corr 0 vlan b inRange on_, if_neg (by omega), matches_]
    exact congrArg Host.Outcome.next (if_pos pair)

end Sys2Proof.Machine
end

section
/-!
PROOFS of the statements of spec/14: function-level and hot resets and the device windows (O42).
-/

namespace Sys2Proof.Machine

/-! ### Sessions that lapse (R320, R321) -/

/-- The second state differs from the first by what a lapsed session leaves: what MBX_STATUS and MGT_HOST show, and on the host's side
sessions, holds and vectors, of those of a function none but vector 2 (R304). -/
structure onlyLapsed (s s' : State) : Prop where
  parts : s' = { s with regs := s'.regs, host := s'.host }
  regs : sameRegsBut [.MBX_STATUS, .MGT_HOST] s s'
  bases : s'.host.vfBase = s.host.vfBase
  vecs : ∀ n v, v ≠ 2 → (Fn.vf n, v) ∈ s'.host.vecs → (Fn.vf n, v) ∈ s.host.vecs

theorem onlyLapsed_refl (s : State) : onlyLapsed s s := ⟨rfl, fun _ _ _ _ => rfl, rfl, fun _ _ _ mem => mem⟩

theorem onlyLapsed.trans {a b c : State} (h : onlyLapsed a b) (h' : onlyLapsed b c) : onlyLapsed a c := by
  refine ⟨?_, h.regs.trans h'.regs, h'.bases.trans h.bases, fun n v other mem => h.vecs n v other (h'.vecs n v other mem)⟩
  rw [h'.parts, h.parts]

theorem onlyLapsed_foldl {α : Type} {step : State → α → State} (h : ∀ s x, onlyLapsed s (step s x)) (l : List α) (s : State) :
    onlyLapsed s (l.foldl step s) := foldl_related onlyLapsed onlyLapsed_refl (fun _ _ _ => onlyLapsed.trans) h l s

theorem State.onlyLapsed_putSession (s : State) (y : Session) : onlyLapsed s (s.putSession y) := by
  have frame := s.setSessions_frame (s.host.sessions.map (fun z => if z.m = y.m then y else z))
  have host : (s.putSession y).host = { s.host with sessions := s.host.sessions.map (fun z => if z.m = y.m then y else z) } := by
    rw [State.putSession_eq, frame]
  refine ⟨?_, fun f i j out => ?_, by rw [host], fun n v _ mem => by rwa [host] at mem⟩
  · rw [State.putSession_eq, frame]
  · exact s.rd_putSession_reg y f i j (fun same => out (by simp [same])) (fun same => out (by simp [same]))

/-- A vector raised is the only one that the function then has besides those it had. -/
theorem State.mem_vecs_of_vec {s : State} {fn fn' : Fn} {v v' : Nat} (mem : (fn', v') ∈ (s.vec fn v).host.vecs) :
    (fn', v') ∈ s.host.vecs ∨ (fn' = fn ∧ v' = v) := by
  have raised : (s.vec fn v).host.vecs = addOnce s.host.vecs (fn, v) := by
    unfold State.vec HostSt.raised
    split <;> rfl
  rw [raised] at mem
  unfold addOnce at mem
  split at mem
  · exact Or.inl mem
  · simpa using mem

theorem State.vec_frame (s : State) (fn : Fn) (v : Nat) : (s.vec fn v).host.vfBase = s.host.vfBase := by
  unfold State.vec HostSt.raised
  split <;> rfl

theorem State.onlyLapsed_vecBoth (s : State) (v p : Nat) : onlyLapsed s (s.vecBoth v 2 p) := by
  refine ⟨rfl, fun _ _ _ _ => rfl, (State.vec_frame _ _ _).trans (State.vec_frame _ _ _), fun n w other mem => ?_⟩
  rcases State.mem_vecs_of_vec mem with before | ⟨-, same⟩
  · rcases State.mem_vecs_of_vec before with before | ⟨same, -⟩
    · exact before
    · exact nomatch same
  · exact absurd same other

theorem State.onlyLapsed_applyPolicy (s : State) (p : Nat) : onlyLapsed s (s.applyPolicy p) := by
  have wrote : ∀ f : Fld, f.reg = .MGT_HOST → onlyLapsed s (s.wrBit f p true) := fun f reg =>
    ⟨rfl, fun g i j out => s.rd_wr_reg f g _ 0 0 i j (fun same => out (by simp [same, reg])), rfl, fun _ _ _ mem => mem⟩
  unfold State.applyPolicy
  split
  · exact onlyLapsed_refl s
  · split
    · exact ⟨rfl, fun _ _ _ _ => rfl, rfl, fun _ _ _ mem => mem⟩
    · exact wrote F.MGT_HOST_HELD rfl
  · exact wrote F.MGT_HOST_STOPPED rfl

theorem State.onlyLapsed_lapseSession (s : State) (m : Nat) : onlyLapsed s (s.lapseSession m) := by
  unfold State.lapseSession
  split
  · exact onlyLapsed_refl s
  · split
    · exact onlyLapsed_refl s
    · exact ((s.onlyLapsed_putSession _).trans (onlyLapsed_foldl (fun s p => s.onlyLapsed_vecBoth (32 + p) p) _ _)).trans
        (onlyLapsed_foldl State.onlyLapsed_applyPolicy _ _)

/-- The session of mailbox `m`, if there is one, is absent. -/
def sessionAway (m : Nat) (s : State) : Prop := ∀ y, s.session m = some y → y.absentAt.isSome = true

theorem sessionAway.congr {m : Nat} {s s' : State} (h : sessionAway m s) (same : s'.host.sessions = s.host.sessions) : sessionAway m s' := by
  unfold sessionAway
  rw [State.session_congr same]
  exact h

/-- A session put in its place shows at its own mailbox. -/
theorem State.session_putSession_any (s : State) (y : Session) (m : Nat) :
    (s.putSession y).session m = (s.session m).map (fun z => if z.m = y.m then y else z) := by
  have place : ((fun z : Session => decide (z.m = m)) ∘ fun z => if z.m = y.m then y else z) = fun z : Session => decide (z.m = m) := by
    funext z
    by_cases own : z.m = y.m <;> simp [own]
  rw [State.putSession, State.session_setSessions, List.find?_map, place]
  rfl

theorem sessionAway.putSession {m : Nat} {s : State} (h : sessionAway m s) {y : Session} (away : y.absentAt.isSome = true) :
    sessionAway m (s.putSession y) := by
  intro w found
  rw [State.session_putSession_any] at found
  obtain ⟨z, before, rfl⟩ := Option.map_eq_some_iff.mp found
  split
  · exact away
  · exact h z before

/-- A session that lapses is absent, and those absent before stay so. -/
theorem State.sessionAway_lapseSession (s : State) (m : Nat) :
    sessionAway m (s.lapseSession m) ∧ ∀ m', sessionAway m' s → sessionAway m' (s.lapseSession m) := by
  cases found : s.session m with
  | none =>
    have same : s.lapseSession m = s := by
      unfold State.lapseSession
      rw [found]
    rw [same]
    exact ⟨fun y there => absurd (found.symm.trans there) (by simp), fun _ h => h⟩
  | some x =>
    cases present : x.absentAt with
    | some a =>
      have same : s.lapseSession m = s := by
        unfold State.lapseSession
        simp only [found, present, Option.isSome_some, if_true]
      rw [same]
      refine ⟨fun y there => ?_, fun _ h => h⟩
      obtain rfl : x = y := Option.some.inj (found.symm.trans there)
      rw [present]
      rfl
    | none =>
      obtain ⟨sessions, -⟩ := s.lapseSession_presence m x found present
      refine ⟨sessionAway.congr (fun y there => ?_) sessions, fun m' h => (h.putSession rfl).congr sessions⟩
      have put := s.session_putSession m x { x with absentAt := some s.now } found (show x.m = m from State.m_of_session found)
      obtain rfl : { x with absentAt := some s.now } = y := Option.some.inj (put.symm.trans there)
      rfl

/-! ### Function-level resets (R305) -/

/-- The state in which the configuration, window base and pending vectors of a function are cleared. -/
def State.functionCleared (s : State) (fn : Fn) : State :=
  let s := { s with host := { s.host with
    vecs := s.host.vecs.filter (fun e => e.1 ≠ fn), pba := s.host.pba.filter (fun e => e.1 ≠ fn),
    cfgs := s.host.cfgs.filter (fun e => e.1 ≠ fn) } }
  match fn with
  | .vf n => { s with host := { s.host with vfBase := adel s.host.vfBase n } }
  | _ => ((s.wr F.PCI_WIN_PARTITION 0).wr F.PCI_WIN_BASE 0).wr F.LDIR_INDEX_DWORD 0

/-- The sessions of a function lapse one after another. -/
def State.sessionsLapsed (s : State) (l : List Session) : State := l.foldl (fun (s : State) x => s.lapseSession x.m) s

theorem State.flr_eq (s : State) (fn : Fn) :
    s.flr fn = (s.functionCleared fn).sessionsLapsed ((s.functionCleared fn).host.sessions.filter (fun x => x.fn = fn)) := by
  cases fn <;> rfl

theorem State.onlyLapsed_sessionsLapsed (s : State) (l : List Session) : onlyLapsed s (s.sessionsLapsed l) :=
  onlyLapsed_foldl (fun s (x : Session) => s.onlyLapsed_lapseSession x.m) l s

/-- The sessions that lapse are absent afterwards. -/
theorem State.sessionAway_sessionsLapsed (s : State) {l : List Session} {x : Session} (mem : x ∈ l) : sessionAway x.m (s.sessionsLapsed l) := by
  induction l generalizing s with
  | nil => exact absurd mem (List.not_mem_nil)
  | cons z l ih =>
    rcases List.mem_cons.mp mem with rfl | later
    · exact List.foldlRecOn l _ (motive := sessionAway x.m) (s.sessionAway_lapseSession x.m).1
        (fun r away z _ => (r.sessionAway_lapseSession z.m).2 x.m away)
    · exact ih (s.lapseSession z.m) later

theorem State.functionCleared_sessions (s : State) (fn : Fn) : (s.functionCleared fn).host.sessions = s.host.sessions := by
  cases fn <;> rfl

/-- The sessions of a function that is reset are absent. -/
theorem State.sessionAway_flr {s : State} {fn : Fn} {x : Session} (mem : x ∈ s.host.sessions) (own : x.fn = fn) : sessionAway x.m (s.flr fn) := by
  rw [State.flr_eq, State.functionCleared_sessions]
  exact State.sessionAway_sessionsLapsed _ (List.mem_filter.mpr ⟨mem, decide_eq_true own⟩)

/-- A function-level reset leaves contexts, jobs and memory, and every register but those it clears or shows sessions in. -/
theorem State.flr_leaves (s : State) (fn : Fn) : (s.flr fn).ctxs = s.ctxs ∧ (s.flr fn).jobs = s.jobs ∧ (s.flr fn).mem = s.mem ∧
    sameRegsBut [.MBX_STATUS, .MGT_HOST] (s.functionCleared fn) (s.flr fn) ∧
    (s.flr fn).host.vfBase = (s.functionCleared fn).host.vfBase := by
  have lapsed := (s.functionCleared fn).onlyLapsed_sessionsLapsed ((s.functionCleared fn).host.sessions.filter (fun x => x.fn = fn))
  rw [← State.flr_eq] at lapsed
  have cleared : (s.functionCleared fn).ctxs = s.ctxs ∧ (s.functionCleared fn).jobs = s.jobs ∧ (s.functionCleared fn).mem = s.mem := by
    cases fn <;> exact ⟨rfl, rfl, rfl⟩
  obtain ⟨ctxs, jobs, mem⟩ := cleared
  refine ⟨?_, ?_, ?_, lapsed.regs, lapsed.bases⟩
  · rw [lapsed.parts, ← ctxs]
  · rw [lapsed.parts, ← jobs]
  · rw [lapsed.parts, ← mem]

theorem aget_adel {α : Type} (l : List (Nat × α)) (k n : Nat) : aget (adel l k) n = if n = k then none else aget l n := by
  induction l with
  | nil => simp [adel, aget]
  | cons x l ih =>
    unfold adel at ih ⊢
    by_cases gone : x.1 = k
    · rw [List.filter_cons_of_neg (by simp [gone]), ih]
      by_cases own : n = k
      · rw [if_pos own, if_pos own]
      · rw [if_neg own, if_neg own, aget, if_neg (fun same => own (same.symm.trans gone))]
    · rw [List.filter_cons_of_pos (by simp [gone]), aget, aget, ih]
      by_cases here : x.1 = n
      · rw [if_pos here, if_pos here, if_neg (fun same => gone (here.trans same))]
      · rw [if_neg here, if_neg here]

/-- The window base of a function. -/
def State.baseOf (s : State) (n : Nat) : Nat := agetD s.host.vfBase n 0

theorem State.baseOf_flr_vf (s : State) (k n : Nat) : (s.flr (.vf k)).baseOf n = if n = k then 0 else s.baseOf n := by
  obtain ⟨-, -, -, -, bases⟩ := s.flr_leaves (.vf k)
  have deleted : (s.flr (.vf k)).host.vfBase = adel s.host.vfBase k := bases
  unfold State.baseOf agetD
  rw [deleted, aget_adel]
  split <;> rfl

theorem State.baseOf_flr_pf0 (s : State) (n : Nat) : (s.flr .pf0).baseOf n = s.baseOf n := by
  obtain ⟨-, -, -, -, bases⟩ := s.flr_leaves .pf0
  have kept : (s.flr .pf0).host.vfBase = s.host.vfBase := bases
  unfold State.baseOf
  rw [kept]

/-- A VF that is reset holds no vector but that of an absent session. -/
theorem State.vecs_flr_vf (s : State) (n v : Nat) (other : v ≠ 2) : (Fn.vf n, v) ∉ (s.flr (.vf n)).host.vecs := by
  intro mem
  rw [State.flr_eq] at mem
  have cleared := (State.onlyLapsed_sessionsLapsed _ _).vecs n v other mem
  have kept : (Fn.vf n, v) ∈ s.host.vecs.filter (fun e => e.1 ≠ .vf n) := cleared
  simp at kept

theorem State.rd_flr_vf (s : State) (n : Nat) (f : Fld) (i j : Nat) (out : f.reg ∉ [Reg.MBX_STATUS, .MGT_HOST]) :
    (s.flr (.vf n)).rd f i j = s.rd f i j := (s.flr_leaves (.vf n)).2.2.2.1 f i j out

/-- PF0's reset clears its window. -/
theorem State.rd_flr_pf0_window (s : State) : (s.flr .pf0).rd F.PCI_WIN_BASE = 0 ∧ (s.flr .pf0).rd F.PCI_WIN_PARTITION = 0 := by
  obtain ⟨-, -, -, regs, -⟩ := s.flr_leaves .pf0
  rw [regs F.PCI_WIN_BASE 0 0 (by decide), regs F.PCI_WIN_PARTITION 0 0 (by decide)]
  unfold State.functionCleared
  dsimp only
  rw [State.rd_wr_reg _ _ _ _ _ _ _ _ (by decide), State.rd_wr_same, State.rd_wr_reg _ _ _ _ _ _ _ _ (by decide),
    State.rd_wr_lsb _ _ _ _ _ _ _ _ (by decide), State.rd_wr_same]
  exact ⟨rfl, rfl⟩

theorem State.rd_flr_pf0_reg (s : State) (f : Fld) (i j : Nat)
    (out : f.reg ∉ [Reg.MBX_STATUS, .MGT_HOST]) (window : f.reg ≠ .PCI_WIN) (index : f.reg ≠ .LDIR_INDEX) :
    (s.flr .pf0).rd f i j = s.rd f i j := by
  obtain ⟨-, -, -, regs, -⟩ := s.flr_leaves .pf0
  rw [regs f i j out]
  unfold State.functionCleared
  dsimp only
  rw [State.rd_wr_reg _ _ _ _ _ _ _ _ index, State.rd_wr_reg _ _ _ _ _ _ _ _ window, State.rd_wr_reg _ _ _ _ _ _ _ _ window]
  rfl

/-! ### A hot reset (R305) -/

/-- The state in which every VF has been reset. -/
def State.vfsReset (s : State) : State := (List.range 16).foldl (fun (s : State) n => s.flr (.vf (n + 1))) s

/-- A hot reset of every function leaves contexts, jobs, memory and the link's count, and clears the windows' bases. -/
theorem State.vfsReset_leaves (s : State) : s.vfsReset.ctxs = s.ctxs ∧ s.vfsReset.jobs = s.jobs ∧ s.vfsReset.mem = s.mem ∧
    s.vfsReset.rd F.PCI_LINK_RETRAINS = s.rd F.PCI_LINK_RETRAINS :=
  List.foldlRecOn _ _ (motive := fun r : State => r.ctxs = s.ctxs ∧ r.jobs = s.jobs ∧ r.mem = s.mem ∧
    r.rd F.PCI_LINK_RETRAINS = s.rd F.PCI_LINK_RETRAINS) ⟨rfl, rfl, rfl, rfl⟩ (fun r kept n _ => by
      obtain ⟨ctxs, jobs, mem, -, -⟩ := r.flr_leaves (.vf (n + 1))
      rw [ctxs, jobs, mem, r.rd_flr_vf _ _ _ _ (by decide)]
      exact kept)

theorem State.baseOf_vfsReset (s : State) {n : Nat} (first : 1 ≤ n) (last : n ≤ 16) : s.vfsReset.baseOf n = 0 := by
  have each : ∀ (l : List Nat) (s : State), n - 1 ∈ l ∨ s.baseOf n = 0 →
      (l.foldl (fun (s : State) k => s.flr (.vf (k + 1))) s).baseOf n = 0 := by
    intro l
    induction l with
    | nil => exact fun s h => h.resolve_left List.not_mem_nil
    | cons k l ih =>
      intro s h
      refine ih (s.flr (.vf (k + 1))) ?_
      rw [State.baseOf_flr_vf]
      by_cases own : n = k + 1
      · exact Or.inr (if_pos own)
      · rw [if_neg own]
        exact h.imp_left (fun mem => (List.mem_cons.mp mem).resolve_left (by omega))
  exact each _ s (Or.inl (List.mem_range.mpr (by omega)))

/-- What the resets of every function leave before the link retrains. -/
theorem State.hotReset_leaves (s : State) : (s.vfsReset.flr .pf0).rd F.PCI_LINK_RETRAINS = s.rd F.PCI_LINK_RETRAINS ∧
    (s.vfsReset.flr .pf0).rd F.PCI_WIN_BASE = 0 ∧ (∀ n, 1 ≤ n → n ≤ 16 → (s.vfsReset.flr .pf0).baseOf n = 0) ∧
    (s.vfsReset.flr .pf0).ctxs = s.ctxs ∧ (s.vfsReset.flr .pf0).jobs = s.jobs ∧ (s.vfsReset.flr .pf0).mem = s.mem := by
  obtain ⟨ctxs, jobs, mem, count⟩ := s.vfsReset_leaves
  obtain ⟨ctxs', jobs', mem', -, -⟩ := s.vfsReset.flr_leaves .pf0
  exact ⟨(s.vfsReset.rd_flr_pf0_reg F.PCI_LINK_RETRAINS 0 0 (by decide) (by decide) (by decide)).trans count, s.vfsReset.rd_flr_pf0_window.1,
    fun n first last => (State.baseOf_flr_pf0 _ n).trans (s.baseOf_vfsReset first last), ctxs'.trans ctxs, jobs'.trans jobs, mem'.trans mem⟩

/-- The link retrains (R299, R305). -/
def State.linkRetrained (s : State) (rate width : Nat) : State := (s.inc F.PCI_LINK_RETRAINS).linkTrained rate width

/-- A retraining is counted and leaves everything but the link's register. -/
theorem State.linkRetrained_leaves (s : State) (rate width : Nat) :
    (s.linkRetrained rate width).rd F.PCI_LINK_RETRAINS = counted F.PCI_LINK_RETRAINS (s.rd F.PCI_LINK_RETRAINS) 1 ∧
    sameRegsBut [.PCI_LINK] s (s.linkRetrained rate width) ∧ onlyRegs s (s.linkRetrained rate width) := by
  have count : (s.inc F.PCI_LINK_RETRAINS).rd F.PCI_LINK_RETRAINS = counted F.PCI_LINK_RETRAINS (s.rd F.PCI_LINK_RETRAINS) 1 :=
    State.rd_inc_same s F.PCI_LINK_RETRAINS 0 0 1
  unfold State.linkRetrained State.linkTrained
  split
  · refine ⟨?_, fun f i j out => ?_, rfl⟩
    · rw [State.wrB, State.rd_wr_lsb _ _ _ _ _ _ _ _ (by decide), State.rd_wr_lsb _ _ _ _ _ _ _ _ (by decide),
        State.rd_wr_lsb _ _ _ _ _ _ _ _ (by decide), count]
    · have other : f.reg ≠ .PCI_LINK := fun same => out (List.mem_singleton.mpr same)
      rw [State.wrB, State.rd_wr_reg _ _ _ _ _ _ _ _ other, State.rd_wr_reg _ _ _ _ _ _ _ _ other, State.rd_wr_reg _ _ _ _ _ _ _ _ other,
        State.rd_inc_reg _ _ _ _ _ _ _ _ other]
  · exact ⟨count, fun f i j out => State.rd_inc_reg _ _ _ _ _ _ _ _ (fun same => out (List.mem_singleton.mpr same)), rfl⟩

theorem State.linkTrained_shows (s : State) {rate width : Nat} (known : rate ≤ 5) (lanes : width ∈ [1, 2, 4]) :
    (s.linkTrained rate width).rd F.PCI_LINK_RATE = rate ∧ (s.linkTrained rate width).rd F.PCI_LINK_WIDTH = width := by
  have narrow : width < 8 := by
    simp only [List.mem_cons, List.not_mem_nil, or_false] at lanes
    omega
  unfold State.linkTrained
  rw [if_pos ⟨known, lanes⟩, State.wrB]
  refine ⟨?_, ?_⟩
  · rw [State.rd_wr_lsb _ _ _ _ _ _ _ _ (by decide), State.rd_wr_lsb _ _ _ _ _ _ _ _ (by decide), State.rd_wr_same]
    exact Nat.mod_eq_of_lt (show rate < 2 ^ 3 by omega)
  · rw [State.rd_wr_lsb _ _ _ _ _ _ _ _ (by decide), State.rd_wr_same]
    exact Nat.mod_eq_of_lt narrow

/-! ### The windows (R223, R302, R303) -/

/-- The readback of a window's read that returns its bytes. -/
theorem State.windowLoad_good {s s₁ : State} {fn : Fn} {off n : Nat} {b : Bytes}
    (ready : (pagesOf (s.windowAt_ fn off).2 n).any (fun v => s.retrains (s.pmEntry v)) = false)
    (read : s.devRead 4 0x5B (s.windowAt_ fn off).1 (s.windowAt_ fn off).2 n = (none, b, false, s₁)) :
    s.windowLoad fn off n = { s₁ with host := { s₁.host with readBack := b } } := by
  unfold State.windowLoad
  dsimp only
  rw [if_neg (by rw [ready]; exact Bool.false_ne_true), read]

/-- The state in which a read of `n` bytes through a function's window is answered with a Completer Abort. -/
def State.readAborted (s : State) (fn : Fn) (n : Nat) : State :=
  ({ s with host := { s.host with readBack := List.replicate n 255, aerAborts := s.host.aerAborts + 1 } } : State).setCfg fn
    { s.host.cfgOf fn with abort := true }

/-- A window's read that fails a check or returns poison shows all ones and a Completer Abort. -/
theorem State.windowLoad_bad {s s₁ : State} {fn : Fn} {off n : Nat} {code : Option Nat} {b : Bytes} {bad : Bool}
    (ready : (pagesOf (s.windowAt_ fn off).2 n).any (fun v => s.retrains (s.pmEntry v)) = false)
    (read : s.devRead 4 0x5B (s.windowAt_ fn off).1 (s.windowAt_ fn off).2 n = (code, b, bad, s₁)) (fails : code.isSome = true ∨ bad = true) :
    s.windowLoad fn off n = s₁.readAborted fn n := by
  unfold State.windowLoad
  dsimp only
  rw [if_neg (by rw [ready]; exact Bool.false_ne_true), read]
  cases code with
  | some c => rfl
  | none =>
    obtain rfl : bad = true := by simpa using fails
    rfl

theorem onlyRead.host {s s' : State} (h : onlyRead s s') : s'.host = s.host := by rw [h.1]

theorem State.windowAccess_read {s : State} {size off n : Nat} (fn : Fn) (running : s.safe = false) (inside : off + n ≤ size) :
    s.windowAccess fn size off n none = s.windowLoad fn off n := by
  unfold State.windowAccess
  rw [if_neg]
  simp only [running, Option.map_none, Option.getD_none, Bool.false_eq_true, false_or]
  omega

theorem State.windowAccess_write {s : State} {size off n : Nat} {b : Bytes} (fn : Fn) (running : s.safe = false) (inside : off + b.length ≤ size) :
    s.windowAccess fn size off n (some b) = s.arrive (.window fn off b) := by
  unfold State.windowAccess
  rw [if_neg]
  simp only [running, Option.map_some, Option.getD_some, Bool.false_eq_true, false_or]
  omega

/-- A posted write that nothing holds back goes through its window at once; no group has to run for it. -/
theorem State.arrive_window {s : State} {fn : Fn} {off : Nat} {b : Bytes} (free : s.behind (.window fn off b) = none) :
    s.arrive (.window fn off b) = s.windowStore fn off b := by
  unfold State.arrive
  rw [free]
  rfl

theorem State.arrive_behind {s : State} {ev : HeldEvent} {k : Nat} (behind : s.behind ev = some k) : s.arrive ev = s.queueEvent k ev := by
  unfold State.arrive
  rw [behind]

/-- An access through a window where nothing waits to be released. -/
theorem exec_bar4Access {s : State} (t off n : Nat) (wr : Option Bytes) (posted : nonePosted s) :
    exec (.bar4Access t off n wr) s = .next ((s.tick t).windowAccess .pf0 (2 ^ 32) off n wr) := by
  change Host.Outcome.next (((s.tick t).releasePosted).windowAccess .pf0 (2 ^ 32) off n wr) = _
  rw [State.releasePosted_none t posted]

theorem exec_vfBar2Access {s : State} {n : Nat} (t off len : Nat) (wr : Option Bytes) (first : 1 ≤ n) (last : n ≤ 16) (posted : nonePosted s) :
    exec (.vfBar2Access t n off len wr) s = .next ((s.tick t).windowAccess (.vf n) (2 ^ 30) off len wr) := by
  change inst (decide (1 ≤ n ∧ n ≤ 16)) (((s.tick t).releasePosted).windowAccess (.vf n) (2 ^ 30) off len wr) = _
  rw [State.releasePosted_none t posted, decide_eq_true ⟨first, last⟩, inst_true]

/-- Whether the channels of a window's pages retrain is the same after the device's time has moved. -/
theorem ready_tick {s : State} {addr n : Nat} (t : Nat) (ready : (pagesOf addr n).any (fun v => s.retrains (s.pmEntry v)) = false) :
    (pagesOf addr n).any (fun v => (s.tick t).retrains ((s.tick t).pmEntry v)) = false := by
  simpa only [State.retrains_tick, State.pmEntry_tick] using ready

/-- Settles O42: a reset lapses the function's sessions one after another; an access through a window is the device access at its address. -/
theorem pcieResetsAndWindows : Obligations.PcieResetsAndWindows := by
  unfold Obligations.PcieResetsAndWindows
  refine ⟨?_, ?_, ?_, ?_, ?_, ?_, ?_, ?_, ?_⟩
  · intro s t n first last
    obtain ⟨ctxs, jobs, mem, -, -⟩ := (s.tick t).flr_leaves (.vf n)
    refine ⟨(s.tick t).flr (.vf n), ?_, ?_, fun v _ other => State.vecs_flr_vf _ n v other, fun x there own y found _ => ?_,
      (s.tick t).rd_flr_vf n _ _ _ (by decide), ctxs, jobs, sameMem_of_mem mem⟩
    · change inst (decide (1 ≤ n ∧ n ≤ 16)) ((s.tick t).flr (.vf n)) = _
      rw [decide_eq_true ⟨first, last⟩, inst_true]
    · exact ((s.tick t).baseOf_flr_vf n n).trans (if_pos rfl)
    · exact State.sessionAway_flr (s := s.tick t) there own y found
  · intro s t
    obtain ⟨ctxs, jobs, mem, -, -⟩ := (s.tick t).flr_leaves .pf0
    obtain ⟨base, part⟩ := (s.tick t).rd_flr_pf0_window
    exact ⟨(s.tick t).flr .pf0, rfl, base, part, fun x there own y found _ => State.sessionAway_flr (s := s.tick t) there own y found, ctxs, jobs,
      sameMem_of_mem mem⟩
  · intro s t rate width
    obtain ⟨count, base, bases, ctxs, jobs, mem⟩ := (s.tick t).hotReset_leaves
    have run : exec (.hotReset t rate width) s = .next (((s.tick t).vfsReset.flr .pf0).linkRetrained rate width) := rfl
    generalize (s.tick t).vfsReset.flr .pf0 = a at count base bases ctxs jobs mem run
    obtain ⟨retrained, regs, frame⟩ := a.linkRetrained_leaves rate width
    have shows_ := (a.inc F.PCI_LINK_RETRAINS).linkTrained_shows (rate := rate) (width := width)
    have host : (a.linkRetrained rate width).host = a.host := by rw [frame]
    refine ⟨a.linkRetrained rate width, run, ?_, (regs F.PCI_WIN_BASE 0 0 (by decide)).trans base, fun n first last => ?_, shows_, ?_, ?_, ?_⟩
    · rw [retrained, count]
      rfl
    · rw [host]
      exact bases n first last
    · rw [frame]
      exact ctxs
    · rw [frame]
      exact jobs
    · exact sameMem_of_mem (by rw [frame]; exact mem)
  · intro s s₁ t off n b running inside posted ready read
    have only := (s.tick t).onlyRead_devRead 4 0x5B (s.rd F.PCI_WIN_PARTITION) (s.rd F.PCI_WIN_BASE * 2 ^ 32 + off) n
    rw [read] at only
    refine ⟨{ s₁ with host := { s₁.host with readBack := b } }, ?_, rfl, ?_, sameMem_of_mem only.mem⟩
    · rw [exec_bar4Access t off n none posted, State.windowAccess_read (s := s.tick t) .pf0 running inside,
        State.windowLoad_good (fn := .pf0) (ready_tick t ready) read]
    · have aborts : s₁.host.aerAborts = s.host.aerAborts := congrArg HostSt.aerAborts only.host
      exact aborts
  · intro s s₁ t off n code b bad running inside posted ready read fails
    have only := (s.tick t).onlyRead_devRead 4 0x5B (s.rd F.PCI_WIN_PARTITION) (s.rd F.PCI_WIN_BASE * 2 ^ 32 + off) n
    rw [read] at only
    refine ⟨s₁.readAborted .pf0 n, ?_, rfl, ?_, (sameMem_of_mem only.mem : sameMem s s₁)⟩
    · rw [exec_bar4Access t off n none posted, State.windowAccess_read (s := s.tick t) .pf0 running inside,
        State.windowLoad_bad (fn := .pf0) (ready_tick t ready) read fails]
    · have aborts : s₁.host.aerAborts = s.host.aerAborts := congrArg HostSt.aerAborts only.host
      exact congrArg (· + 1) aborts
  · intro s t off n b running inside posted free
    rw [exec_bar4Access t off n (some b) posted, State.windowAccess_write (s := s.tick t) .pf0 running inside,
      State.arrive_window (s := s.tick t) free]
    rfl
  · intro s s₁ t n off len b first last running inside posted ready read
    have only := (s.tick t).onlyRead_devRead 4 0x5B (n - 1) (agetD s.host.vfBase n 0 + off) len
    rw [read] at only
    refine ⟨{ s₁ with host := { s₁.host with readBack := b } }, ?_, rfl, sameMem_of_mem only.mem⟩
    rw [exec_vfBar2Access t off len none first last posted, State.windowAccess_read (s := s.tick t) (.vf n) running inside,
      State.windowLoad_good (fn := .vf n) (ready_tick t ready) read]
  · intro s t n off len b first last running inside posted free
    rw [exec_vfBar2Access t off len (some b) first last posted, State.windowAccess_write (s := s.tick t) (.vf n) running inside,
      State.arrive_window (s := s.tick t) free]
    rfl
  · intro s t off n k b running inside posted behind
    rw [exec_bar4Access t off n (some b) posted, State.windowAccess_write (s := s.tick t) .pf0 running inside,
      State.arrive_behind (s := s.tick t) (ev := .window .pf0 off b) (k := k) behind]
    rfl

end Sys2Proof.Machine
end

section
/-!
PROOFS of the statements of spec/15: how a packet head is routed, dropped or delivered, and what becomes of a delivered packet (O47).
-/

namespace Sys2Proof.Machine

/-! ### Heads that leave the router (R331, R342, R348) -/

/-- The head leaves those that wait. -/
def State.headTaken (s : State) (h : RouteWait) : State := { s with fab := { s.fab with heads := s.fab.heads.erase h } }

/-- Freed slots change their port alone. -/
theorem State.freeSlots_leaves (s : State) (from_ : Option (Nat × Nat)) (n : Nat) :
    s.freeSlots from_ n = { s with fab := (s.freeSlots from_ n).fab } ∧ (s.freeSlots from_ n).fab.heads = s.fab.heads ∧
    (s.freeSlots from_ n).fab.delivered = s.fab.delivered := by
  unfold State.freeSlots
  split <;> exact ⟨rfl, rfl, rfl⟩

theorem State.beatGone_leaves (s : State) (k : Pkt) :
    s.beatGone k = { s with outBeats := (s.beatGone k).outBeats } := by
  unfold State.beatGone
  split
  · rfl
  · split <;> rfl

/-- A packet dropped by the router is counted; its head leaves, and nothing else changes but its port's slots and its beat. -/
theorem State.dropRoute_drops (s : State) (h : RouteWait) (f : Fld) : (s.dropRoute h f).fab.heads = s.fab.heads.erase h ∧
    (s.dropRoute h f).fab.delivered = s.fab.delivered ∧ (s.dropRoute h f).rd f = counted f (s.rd f) 1 ∧
    sameBut [fkey f] s (s.dropRoute h f) ∧ sameMem s (s.dropRoute h f) := by
  have slots := (s.headTaken h).freeSlots_leaves h.from_ (pktFlits h.pkt)
  have dropped : s.dropRoute h f = (((s.headTaken h).freeSlots h.from_ (pktFlits h.pkt)).beatGone h.pkt).inc f := rfl
  rw [dropped]
  generalize (s.headTaken h).freeSlots h.from_ (pktFlits h.pkt) = a at slots
  obtain ⟨frame, heads, delivered⟩ := slots
  have gone := a.beatGone_leaves h.pkt
  generalize a.beatGone h.pkt = b at gone
  have regs : b.regs = s.regs := by rw [gone, frame]; rfl
  refine ⟨?_, ?_, ?_, fun g i j out => ?_, sameMem_of_mem ?_⟩
  · rw [State.inc, State.wr_fab, gone]
    exact heads
  · rw [State.inc, State.wr_fab, gone]
    exact delivered
  · rw [State.rd_inc_same, State.rd_congr regs]
    rfl
  · exact (State.sameBut_wr b f _ 0 0 g i j out).trans (State.rd_congr regs g i j)
  · rw [State.inc, State.wr_mem, gone, frame]
    rfl

/-- What a waiting head that nothing of its order holds back comes to (R348, R351). -/
def State.headRouted (s : State) (h : RouteWait) : State :=
  if h.pkt.op < 1 ∨ 4 < h.pkt.op then s.dropRoute h F.FAB_DROP_BAD_OP else if h.pkt.dst = s.fabAddr then s.deliverHead h else s.routeHead h

theorem exec_packetHeadRoute {s : State} {k : Nat} {h : RouteWait} (t : Nat) (there : s.fab.heads[k]? = some h)
    (free : (s.fab.heads.take k).any (fun g => behind g.pkt h.pkt) = false) :
    exec (.packetHeadRoute t k) s = .next ((s.tick t).headRouted h) := by
  have there' : (s.tick t).fab.heads[k]? = some h := there
  have free' : ((s.tick t).fab.heads.take k).any (fun g => behind g.pkt h.pkt) = false := free
  change execPacketHeadRoute t k s = _
  unfold execPacketHeadRoute
  dsimp only
  rw [there']
  dsimp only
  rw [free']
  rfl

theorem exec_packetHeadRoute_on {s : State} {k : Nat} {h : RouteWait} (t : Nat) (there : s.fab.heads[k]? = some h)
    (free : (s.fab.heads.take k).any (fun g => behind g.pkt h.pkt) = false) (low : 1 ≤ h.pkt.op) (high : h.pkt.op ≤ 4)
    (away : h.pkt.dst ≠ s.fabAddr) : exec (.packetHeadRoute t k) s = .next ((s.tick t).routeHead h) := by
  have away' : h.pkt.dst ≠ (s.tick t).fabAddr := away
  rw [exec_packetHeadRoute t there free]
  unfold State.headRouted
  rw [if_neg (by omega), if_neg away']

/-- A packet of a known operation and endpoint is of an operation that the router takes. -/
theorem op_of_endpointOk {s : State} {k : Pkt} (ok : s.endpointOk k = true) : 1 ≤ k.op ∧ k.op ≤ 4 := by
  unfold State.endpointOk at ok
  split at ok
  case h_5 => exact absurd ok Bool.false_ne_true
  all_goals omega

theorem State.headRouted_delivered {s : State} {h : RouteWait} (own : h.pkt.dst = s.fabAddr) (ok : s.endpointOk h.pkt = true) :
    s.headRouted h = s.deliverHead h := by
  obtain ⟨low, high⟩ := op_of_endpointOk ok
  unfold State.headRouted
  rw [if_neg (by omega), if_pos own]

theorem State.headRouted_bad {s : State} {h : RouteWait}
    (bad : h.pkt.op = 0 ∨ 4 < h.pkt.op ∨ (h.pkt.dst = s.fabAddr ∧ s.endpointOk h.pkt = false)) :
    s.headRouted h = s.dropRoute h F.FAB_DROP_BAD_OP := by
  unfold State.headRouted
  split
  · rfl
  · next known =>
    obtain ⟨own, unknown⟩ : h.pkt.dst = s.fabAddr ∧ s.endpointOk h.pkt = false := by
      rcases bad with low | high | here
      · omega
      · omega
      · exact here
    rw [if_pos own, State.deliverHead, unknown]
    rfl

/-- A delivered packet's head leaves, and it joins the delivered ones but for a request that the router answers. -/
theorem State.deliverHead_delivers {s : State} {h : RouteWait} (ok : s.endpointOk h.pkt = true) :
    (s.deliverHead h).fab.heads = s.fab.heads.erase h ∧
    (s.deliverHead h).fab.delivered = s.fab.delivered ++ (if h.pkt.op = 3 then [] else [h.pkt]) ∧
    s.deliverHead h = { s with fab := (s.deliverHead h).fab } := by
  have slots := (s.headTaken h).freeSlots_leaves h.from_ (pktFlits h.pkt)
  have delivers : s.deliverHead h =
      if h.pkt.op = 3 then (s.headTaken h).freeSlots h.from_ (pktFlits h.pkt)
      else { (s.headTaken h).freeSlots h.from_ (pktFlits h.pkt) with
        fab := { ((s.headTaken h).freeSlots h.from_ (pktFlits h.pkt)).fab with
          delivered := ((s.headTaken h).freeSlots h.from_ (pktFlits h.pkt)).fab.delivered ++ [h.pkt] } } := by
    unfold State.deliverHead
    rw [ok]
    rfl
  rw [delivers]
  generalize (s.headTaken h).freeSlots h.from_ (pktFlits h.pkt) = a at slots
  obtain ⟨frame, heads, delivered⟩ := slots
  split
  · exact ⟨heads, by rw [delivered, List.append_nil]; rfl, frame⟩
  · refine ⟨heads, congrArg (· ++ [h.pkt]) delivered, ?_⟩
    rw [frame]
    rfl

/-! ### Heads that go on or find no way (R348, R349, R352) -/

/-- The packet of a head with one hop less. -/
def RouteWait.onward (h : RouteWait) : Pkt := { h.pkt with hops := h.pkt.hops - 1 }

/-- The virtual channel of a head (R349). -/
def RouteWait.channel (h : RouteWait) : Nat := opVc h.pkt.op + (if h.escapes || h.pkt.ordered then 1 else 0)

theorem State.routeHead_last {s : State} {h : RouteWait} (last : h.pkt.hops ≤ 1) : s.routeHead h = s.dropRoute h F.FAB_DROP_LIMIT := by
  unfold State.routeHead
  exact if_pos (show h.pkt.hops - 1 = 0 by omega)

/-- What becomes of a head with hops left and no minimal candidate live, by the first detour that is. -/
def State.detoured (s : State) (h : RouteWait) : Option Nat → State
  | some i =>
    if (List.range 4).any (fun c => s.minimal h.pkt.dst c && s.kept h.pkt.dst c) then s
    else if 2 ≤ h.pkt.detours then s.dropRoute h F.FAB_DROP_UNREACHABLE
    else s.forward h { h.onward with detours := h.pkt.detours + 1 } i h.channel
  | none => if (List.range 4).any (s.kept h.pkt.dst) then s else s.dropRoute h F.FAB_DROP_UNREACHABLE

/-- The port of the first candidate that is live and not minimal. -/
def State.firstDetour (s : State) (h : RouteWait) : Option Nat :=
  (List.range 4).findSome? (fun c => if s.minimal h.pkt.dst c then none else s.liveFor h.pkt h.channel c)

theorem State.routeHead_detour {s : State} {h : RouteWait} (hops : 2 ≤ h.pkt.hops) (none_ : s.liveMinimal h.pkt h.channel = []) :
    s.routeHead h = s.detoured h (s.firstDetour h) := by
  have left : ¬ h.onward.hops = 0 := by
    have less : h.onward.hops = h.pkt.hops - 1 := rfl
    omega
  have none_' : s.liveMinimal h.onward h.channel = [] := none_
  have first : (List.range 4).findSome? (fun c => if s.minimal h.onward.dst c then none else s.liveFor h.onward h.channel c) = s.firstDetour h :=
    rfl
  unfold State.routeHead
  dsimp only
  refine (if_neg left).trans ?_
  change (match s.liveMinimal h.onward h.channel with
    | [] => _
    | c :: cs => _) = _
  rw [none_']
  dsimp only
  change (match (List.range 4).findSome? (fun c => if s.minimal h.onward.dst c then none else s.liveFor h.onward h.channel c) with
    | some i => _
    | none => _) = _
  rw [first]
  cases s.firstDetour h <;> rfl

theorem State.bestCand_single {s : State} {k : Pkt} {vc c i : Nat} (port : s.liveFor k vc c = some i) : s.bestCand k vc [c] = some i := by
  unfold State.bestCand
  simp [port, Nat.mod_one]

/-- The only live minimal candidate takes the head, whichever rule picks it. -/
theorem State.routeHead_only {s : State} {h : RouteWait} {c i : Nat} (hops : 2 ≤ h.pkt.hops) (only : s.liveMinimal h.pkt h.channel = [c])
    (port : s.liveFor h.pkt h.channel c = some i) : s.routeHead h = s.forward h h.onward i h.channel := by
  have left : ¬ h.onward.hops = 0 := by
    have less : h.onward.hops = h.pkt.hops - 1 := rfl
    omega
  have only' : s.liveMinimal h.onward h.channel = [c] := only
  have port' : s.liveFor h.onward h.channel c = some i := port
  unfold State.routeHead
  dsimp only
  refine (if_neg left).trans ?_
  change (match s.liveMinimal h.onward h.channel with
    | [] => _
    | c :: cs => _) = _
  rw [only']
  dsimp only
  split
  · change (match s.liveFor h.onward h.channel c with
      | some i => s.forward h h.onward i h.channel
      | none => s) = _
    rw [port']
  · change (match s.bestCand h.onward h.channel [c] with
      | some i => s.forward h h.onward i h.channel
      | none => s) = _
    rw [State.bestCand_single port']

/-- The state in which a head has gone to port `i` as packet `k`. -/
def State.sentOn (s : State) (h : RouteWait) (k : Pkt) (i vc : Nat) : State :=
  (s.headTaken h).setPort i { (s.headTaken h).port i with
    dataQ := ((s.headTaken h).port i).dataQ ++ [{ pkt := k, vc := vc, from_ := h.from_, tag := h.tag }] }

theorem State.port_congr {a b : State} (fab : b.fab = a.fab) (i : Nat) : b.port i = a.port i :=
  congrArg (fun f : FabSt => agetD f.ports i {}) fab

theorem State.sentOn_leaves (s : State) (h : RouteWait) (k : Pkt) (i vc : Nat) : (s.sentOn h k i vc).fab.heads = s.fab.heads.erase h ∧
    ((s.sentOn h k i vc).port i).dataQ = (s.port i).dataQ ++ [{ pkt := k, vc := vc, from_ := h.from_, tag := h.tag }] ∧
    s.sentOn h k i vc = { s with fab := (s.sentOn h k i vc).fab } := by
  refine ⟨rfl, ?_, rfl⟩
  exact congrArg (fun o : Option FPort => (o.getD {}).dataQ) (aget_aset_same _ _ _)

theorem State.forward_free {s : State} {h : RouteWait} {k : Pkt} {i vc : Nat} (room : pktFlits k ≤ s.freeCredits i vc)
    (free : s.egressNeed h k = 0) : s.forward h k i vc = s.sentOn h k i vc := by
  unfold State.forward
  dsimp only
  rw [free, if_neg (by omega)]
  rfl

theorem State.forward_drawn {s : State} {h : RouteWait} {k : Pkt} {i vc : Nat} (room : pktFlits k ≤ s.freeCredits i vc)
    (need : s.egressNeed h k ≠ 0) (admitted : s.mayDraw k.srcEp 2 (s.egressNeed h k) = true) :
    s.forward h k i vc = (s.draw k.srcEp 2 0x5A (s.egressNeed h k)).sentOn h k i vc := by
  unfold State.forward
  dsimp only
  rw [if_neg (by simp [admitted]; omega), if_neg need]
  rfl

/-- A draw that is admitted takes its tokens from LEVEL and spends them at once. -/
theorem State.draw_admitted {s : State} {p r need : Nat} (unit : Nat) (admitted : s.mayDraw p r need = true) :
    (s.draw p r unit need).rd F.BWG_STATE_LEVEL p r = (s.rd F.BWG_STATE_LEVEL p r - need) % 2 ^ F.BWG_STATE_LEVEL.width ∧
    (s.draw p r unit need).rd F.BWG_SPENT_SPENT p r = counted F.BWG_SPENT_SPENT (s.rd F.BWG_SPENT_SPENT p r) need ∧
    onlyTokens [fkey F.BWG_STATE_LEVEL p r, fkey F.BWG_SPENT_SPENT p r] s (s.draw p r unit need) ∧ (s.draw p r unit need).mem = s.mem := by
  unfold State.draw
  rw [if_pos admitted]
  refine ⟨?_, ?_, ⟨((sameBut_refl _ s).wr F.BWG_STATE_LEVEL _ p r (by simp)).wr F.BWG_SPENT_SPENT _ p r (by simp), rfl⟩, rfl⟩
  · exact (State.rd_inc_reg _ _ _ _ _ _ _ _ (by decide)).trans (State.rd_wr_same _ _ _ _ _)
  · refine (State.rd_inc_same _ _ _ _ _).trans ?_
    rw [State.rd_wr_reg _ _ _ _ _ _ _ _ (by decide)]
    rfl

/-- The first candidate live, where none is minimal, is the first detour. -/
theorem State.firstDetour_eq {s : State} {h : RouteWait} {c i : Nat} (none_ : s.liveMinimal h.pkt h.channel = []) (four : c < 4)
    (port : s.liveFor h.pkt h.channel c = some i) (first : ∀ b, b < c → s.liveFor h.pkt h.channel b = none) : s.firstDetour h = some i := by
  have far : s.minimal h.pkt.dst c = false := by
    have dead := List.filter_eq_nil_iff.mp none_ c (List.mem_range.mpr four)
    simpa [port] using dead
  have split : List.range 4 = List.range c ++ c :: (List.range 4).drop (c + 1) := by
    interval_cases c <;> rfl
  unfold State.firstDetour
  rw [split, List.findSome?_append, List.findSome?_eq_none_iff.mpr, List.findSome?_cons, far, port]
  · rfl
  · intro b before
    rw [first b (List.mem_range.mp before), ite_self]

theorem State.firstDetour_none {s : State} {h : RouteWait} (dead : ∀ c, c < 4 → s.liveFor h.pkt h.channel c = none) :
    s.firstDetour h = none := by
  refine List.findSome?_eq_none_iff.mpr (fun c mem => ?_)
  rw [dead c (List.mem_range.mp mem), ite_self]

/-- Where each of four candidates fails a test, none passes it. -/
theorem none_of_four {p : Nat → Bool} (free : ∀ c, c < 4 → p c = false) : (List.range 4).any p = false := by
  rw [List.any_eq_false]
  intro c mem
  rw [free c (List.mem_range.mp mem)]
  exact Bool.false_ne_true

/-- A head that finds no candidate live or in retrain, or is at its third detour, is unreachable (R348, R349). -/
theorem State.detoured_unreachable {s : State} {h : RouteWait} (none_ : s.liveMinimal h.pkt h.channel = [])
    (lost : (∀ c, c < 4 → s.liveFor h.pkt h.channel c = none ∧ s.kept h.pkt.dst c = false) ∨
      (2 ≤ h.pkt.detours ∧ (∃ c, c < 4 ∧ (s.liveFor h.pkt h.channel c).isSome = true) ∧
        ∀ c, c < 4 → s.minimal h.pkt.dst c = true → s.kept h.pkt.dst c = false)) :
    s.detoured h (s.firstDetour h) = s.dropRoute h F.FAB_DROP_UNREACHABLE := by
  rcases lost with dead | ⟨third, ⟨c, four, live⟩, kept⟩
  · rw [State.firstDetour_none (fun c four => (dead c four).1)]
    unfold State.detoured
    rw [none_of_four (fun c four => (dead c four).2)]
    rfl
  · have some_ : ∃ i, s.firstDetour h = some i := by
      have far : s.minimal h.pkt.dst c = false := by
        have dead := List.filter_eq_nil_iff.mp none_ c (List.mem_range.mpr four)
        simpa [live] using dead
      obtain ⟨i, port⟩ := Option.isSome_iff_exists.mp live
      refine Option.isSome_iff_exists.mp (List.findSome?_isSome_iff.mpr ⟨c, List.mem_range.mpr four, ?_⟩)
      rw [far, port]
      rfl
    obtain ⟨i, first⟩ := some_
    rw [first]
    unfold State.detoured
    dsimp only
    rw [none_of_four (p := fun c => s.minimal h.pkt.dst c && s.kept h.pkt.dst c), if_neg Bool.false_ne_true, if_pos third]
    intro c four
    cases minimal : s.minimal h.pkt.dst c with
    | false => rfl
    | true => exact kept c four minimal

/-- A head that has waited 1 µs with no adaptive credit on any candidate may take an escape channel (R349). -/
theorem exec_escapeTimeout {s : State} {k : Nat} {h : RouteWait} (t : Nat) (there : s.fab.heads[k]? = some h) (adaptive : h.escapes = false)
    (plain : h.pkt.ordered = false) (due : h.since + 1000 ≤ max s.now t) (some_ : s.adaptive h.pkt ≠ [])
    (full : ((s.adaptive h.pkt).filterMap (s.liveFor h.pkt (opVc h.pkt.op))).all
      (fun i => decide (s.freeCredits i (opVc h.pkt.op) < pktFlits h.pkt)) = true) :
    exec (.escapeTimeout t k) s =
      .next { s.tick t with fab := { s.fab with heads := s.fab.heads.set k { h with escape := true } } } := by
  have there' : (s.tick t).fab.heads[k]? = some h := there
  have some_' : ((s.tick t).adaptive h.pkt).isEmpty = false :=
    Bool.eq_false_iff.mpr (fun empty => some_ (List.isEmpty_iff.mp empty))
  have full' : (((s.tick t).adaptive h.pkt).filterMap ((s.tick t).liveFor h.pkt (opVc h.pkt.op))).any
      (fun i => decide (pktFlits h.pkt ≤ (s.tick t).freeCredits i (opVc h.pkt.op))) = false := by
    rw [List.any_eq_false]
    intro i mem
    have short : s.freeCredits i (opVc h.pkt.op) < pktFlits h.pkt := of_decide_eq_true (List.all_eq_true.mp full i mem)
    exact fun room => absurd (of_decide_eq_true room) (Nat.not_le_of_lt short)
  change execEscapeTimeout t k s = _
  unfold execEscapeTimeout
  dsimp only
  rw [there']
  dsimp only
  rw [adaptive, plain, some_', full', State.tick_now, if_neg (by simpa only [Bool.false_eq_true, false_or, or_false] using Nat.not_lt_of_le due)]
  rfl

/-! ### Delivered packets (R208, R209, R351) -/

/-- The state in which the `k`-th delivered packet has been taken up. -/
def State.packetTaken (s : State) (k : Nat) : State := { s with fab := { s.fab with delivered := s.fab.delivered.eraseIdx k } }

theorem exec_writePacket {s : State} {k : Nat} {x : Pkt} (t : Nat) (member : Bool) (there : s.fab.delivered[k]? = some x)
    (free : (s.fab.delivered.take k).any (fun y => behind y x) = false) (op : x.op = 1) :
    exec (.writePacket t k member) s = .next (((s.tick t).packetTaken k).applyWrite x member) := by
  have there' : (s.tick t).fab.delivered[k]? = some x := there
  have free' : ((s.tick t).fab.delivered.take k).any (fun y => behind y x) = false := free
  change execWritePacket t k member s = _
  unfold execWritePacket
  dsimp only
  rw [there']
  dsimp only
  rw [free', op]
  rfl

theorem State.mirrorWrite_packetTaken (s : State) (t k : Nat) (x : Pkt) : ((s.tick t).packetTaken k).mirrorWrite x = s.mirrorWrite x := by
  unfold State.mirrorWrite State.mirrorSender
  rfl

section ApplyWrite
variable {s : State} {x : Pkt} (idle : aget s.restores x.dstEp = none)
include idle

theorem State.applyWrite_mirror (mirror : s.mirrorWrite x = true) (member : Bool) :
    s.applyWrite x member = (s.devWrite 4 0x5A x.dstEp x.arg x.data true).2 := by
  unfold State.applyWrite
  dsimp only
  rw [idle]
  dsimp only
  rw [mirror]
  rfl

theorem State.applyWrite_page (mirror : s.mirrorWrite x = false) (local_ : s.localMember x.dstEp = true)
    (page : s.toInboxPage x.dstEp x.arg = false) : s.applyWrite x true = (s.devWrite 4 0x5A x.dstEp x.arg x.data).2 := by
  unfold State.applyWrite
  dsimp only
  rw [idle]
  dsimp only
  rw [mirror, local_, page]
  rfl

/-- The lines of a write to the inbox page join the inbox ring. -/
theorem State.applyWrite_inbox {s₁ : State} (mirror : s.mirrorWrite x = false) (local_ : s.localMember x.dstEp = true)
    (page : s.toInboxPage x.dstEp x.arg = true) (passed : s.checkAccess 4 0x5A x.dstEp x.arg x.data.length true false = (none, s₁)) :
    s.applyWrite x true = s₁.setLedger x.dstEp { s₁.ledger x.dstEp with
      inQ := (s₁.ledger x.dstEp).inQ ++ (List.range (x.data.length / 64)).map (fun j => slice x.data (64 * j) 64) } := by
  unfold State.applyWrite
  dsimp only
  rw [idle]
  dsimp only
  rw [mirror, local_, page, passed]
  rfl

/-- The report of a write that no membership permits. -/
def notPermitted (x : Pkt) : Report := { cls := 5, level := 1, master := 0x5A, access := 0x12, part := x.dstEp, source := 0x5A, addr := x.arg }

theorem State.applyWrite_denied (mirror : s.mirrorWrite x = false) :
    s.applyWrite x false = (s.inc F.FAB_DROP_NOT_PERMITTED).raise (notPermitted x) := by
  unfold State.applyWrite
  dsimp only
  rw [idle]
  dsimp only
  rw [mirror]
  rfl

end ApplyWrite

/-- The check of one page of an access, after those before it (R208). -/
def checkPage (cache unit p addr : Nat) (write mirror : Bool) (aux : Nat) (r : Option Nat × State) (v : Nat) : Option Nat × State :=
  match r.1 with
  | some c => (some c, r.2)
  | none =>
    match (r.2.pmLookup cache v).2.accessCode (r.2.pmLookup cache v).1 (max addr (v * 65536)) p write mirror with
    | none => (none, (r.2.pmLookup cache v).2)
    | some c => (some c, (r.2.pmLookup cache v).2.accessFault c cache unit p (max addr (v * 65536)) write aux)

theorem State.checkAccess_eq (s : State) (cache unit p addr n : Nat) (write mirror : Bool) (aux : Nat) :
    s.checkAccess cache unit p addr n write mirror aux = (pagesOf addr n).foldl (checkPage cache unit p addr write mirror aux) (none, s) := rfl

/-- Access checks see the same in both states. -/
structure sameChecks (a b : State) : Prop where
  cached : b.memx.tcache = a.memx.tcache
  mem : b.mem = a.mem
  img : b.img = a.img
  regs : b.regs = a.regs

theorem sameChecks.lookup {a b : State} (h : sameChecks a b) (cache v : Nat) :
    (b.pmLookup cache v).1 = (a.pmLookup cache v).1 ∧ sameChecks (a.pmLookup cache v).2 (b.pmLookup cache v).2 := by
  have entry : b.pmEntry v = a.pmEntry v := State.pmEntry_congr (fun k _ => congrArg (fun m => memGet m (8 * v + k)) h.mem)
  unfold State.pmLookup
  rw [h.cached]
  split
  · exact ⟨rfl, h⟩
  · refine ⟨entry, ?_, h.mem, h.img, h.regs⟩
    rw [entry]

theorem sameChecks.code {a b : State} (h : sameChecks a b) (e addr p : Nat) (write mirror : Bool) :
    b.accessCode e addr p write mirror = a.accessCode e addr p write mirror := by
  have windows : b.windows = a.windows := State.windows_congr h.img (fun f i j _ => State.rd_congr h.regs f i j)
  unfold State.accessCode State.windowAt
  rw [windows]

/-- What the checks of a page come to, where those before it came to the same. -/
theorem checkPage_congr {cache unit p addr aux : Nat} {write mirror : Bool} {r r' : Option Nat × State} (same : r'.1 = r.1)
    (states : r.1 = none → sameChecks r.2 r'.2) (v : Nat) :
    (checkPage cache unit p addr write mirror aux r' v).1 = (checkPage cache unit p addr write mirror aux r v).1 ∧
    ((checkPage cache unit p addr write mirror aux r v).1 = none →
      sameChecks (checkPage cache unit p addr write mirror aux r v).2 (checkPage cache unit p addr write mirror aux r' v).2) := by
  unfold checkPage
  rw [same]
  cases clean : r.1 with
  | some c => exact ⟨rfl, fun none_ => nomatch none_⟩
  | none =>
    obtain ⟨entry, looked⟩ := (states clean).lookup cache v
    dsimp only
    rw [entry, looked.code]
    cases (r.2.pmLookup cache v).2.accessCode (r.2.pmLookup cache v).1 (max addr (v * 65536)) p write mirror with
    | none => exact ⟨rfl, fun _ => looked⟩
    | some c => exact ⟨rfl, fun none_ => nomatch none_⟩

/-- Whether an access passes its checks depends on the translation caches, memory, the image and registers alone. -/
theorem sameChecks.checkAccess {a b : State} (h : sameChecks a b) (cache unit p addr n : Nat) (write mirror : Bool) (aux : Nat) :
    (b.checkAccess cache unit p addr n write mirror aux).1 = (a.checkAccess cache unit p addr n write mirror aux).1 := by
  have along : ∀ (l : List Nat) (r r' : Option Nat × State), r'.1 = r.1 → (r.1 = none → sameChecks r.2 r'.2) →
      (l.foldl (checkPage cache unit p addr write mirror aux) r').1 = (l.foldl (checkPage cache unit p addr write mirror aux) r).1 := by
    intro l
    induction l with
    | nil => exact fun _ _ same _ => same
    | cons v l ih =>
      intro r r' same states
      obtain ⟨same', states'⟩ := checkPage_congr same states v
      exact ih _ _ same' states'
  rw [State.checkAccess_eq, State.checkAccess_eq]
  exact along _ (none, a) (none, b) rfl (fun _ => h)

/-! ### Replies with a generation tag (R456) -/

theorem exec_memoryReplyReturn {p : Nat} (s : State) (t gen id : Nat) (reject : Option Nat) (inRange : p < 16) :
    exec (.memoryReplyReturn t p gen id reject) s = .next (if gen ≠ s.genOf p then (s.tick t).inc F.HNG_STALE_REPLIES p
      else reject.elim (if s.jobs.any (fun j => decide (j.p = p) && decide (j.id = id)) then s.tick t else (s.tick t).inc F.HNG_STALE_REPLIES p)
        (fun code => (s.tick t).raise
          { cls := if code = 2 then 5 else 0, level := 1, master := 0x56, access := 4, part := p, source := 0x56, code := code })) := by
  change execMemoryReplyReturn t p gen id reject s = _
  unfold execMemoryReplyReturn
  dsimp only
  rw [decide_eq_true inRange]
  cases reject <;> rfl

/-! ### The statement -/

/-- Settles O47: a head that nothing holds back follows the rules of R349 one by one; a delivered packet is what its operation and its
endpoint make of it. -/
theorem routingAndDelivery : Obligations.RoutingAndDelivery := by
  unfold Obligations.RoutingAndDelivery
  refine ⟨?_, ?_, ?_, ?_, ?_, ?_, ?_, ?_, ?_, ?_, ?_, ?_, ?_, ?_, ?_⟩
  · intro s t k h there free bad
    obtain ⟨heads, delivered, count, same, mem⟩ := (s.tick t).dropRoute_drops h F.FAB_DROP_BAD_OP
    refine ⟨_, (exec_packetHeadRoute t there free).trans (congrArg Host.Outcome.next (State.headRouted_bad (s := s.tick t) bad)), heads, delivered,
      count, same, mem⟩
  · intro s t k h there free low high away last
    obtain ⟨heads, -, count, same, mem⟩ := (s.tick t).dropRoute_drops h F.FAB_DROP_LIMIT
    exact ⟨_, (exec_packetHeadRoute_on t there free low high away).trans (congrArg Host.Outcome.next (State.routeHead_last last)), heads, count,
      same, mem⟩
  · rintro s t k vc h there free low high away hops rfl lost
    obtain ⟨heads, -, count, same, mem⟩ := (s.tick t).dropRoute_drops h F.FAB_DROP_UNREACHABLE
    refine ⟨_, (exec_packetHeadRoute_on t there free low high away).trans (congrArg Host.Outcome.next ?_), heads, count, same, mem⟩
    have none_ : (s.tick t).liveMinimal h.pkt h.channel = [] := by
      rcases lost with dead | ⟨-, none_, -⟩
      · refine List.filter_eq_nil_iff.mpr (fun c mem => ?_)
        have gone : (s.tick t).liveFor h.pkt h.channel c = none := (dead c (List.mem_range.mp mem)).1
        simp [gone]
      · exact none_
    rw [State.routeHead_detour hops none_]
    exact State.detoured_unreachable none_ (lost.imp_right (fun ⟨third, _, live, kept⟩ => ⟨third, live, kept⟩))
  · rintro s t k c i vc h there free low high away hops rfl only port room admitted
    have routed : (s.tick t).routeHead h = (s.tick t).forward h h.onward i h.channel := State.routeHead_only (s := s.tick t) hops only port
    have room' : pktFlits h.onward ≤ (s.tick t).freeCredits i h.channel := room
    by_cases need : (s.tick t).egressNeed h h.onward = 0
    · obtain ⟨heads, queue, frame⟩ := (s.tick t).sentOn_leaves h h.onward i h.channel
      refine ⟨_, (exec_packetHeadRoute_on t there free low high away).trans
        (congrArg Host.Outcome.next (routed.trans (State.forward_free room' need))), heads, queue, fun _ => frame,
        fun some_ => absurd need some_, ?_⟩
      exact sameMem_of_mem rfl
    · have admitted' : (s.tick t).mayDraw h.onward.srcEp 2 ((s.tick t).egressNeed h h.onward) = true := admitted.resolve_left need
      obtain ⟨level, spent, ⟨same, frame⟩, mem⟩ := State.draw_admitted (s := s.tick t) 0x5A admitted'
      obtain ⟨heads, queue, -⟩ := ((s.tick t).draw h.onward.srcEp 2 0x5A ((s.tick t).egressNeed h h.onward)).sentOn_leaves h h.onward i h.channel
      have fab : ((s.tick t).draw h.onward.srcEp 2 0x5A ((s.tick t).egressNeed h h.onward)).fab = s.fab := by
        rw [frame]
        rfl
      refine ⟨_, (exec_packetHeadRoute_on t there free low high away).trans
        (congrArg Host.Outcome.next (routed.trans (State.forward_drawn room' need admitted'))), ?_, ?_, fun none_ => absurd none_ need,
        fun _ => ⟨level, spent, same⟩, sameMem_of_mem mem⟩
      · rw [heads, fab]
      · rw [queue, State.port_congr (a := s) fab]
        rfl
  · rintro s t k c i vc h there free low high away hops rfl none_ kept four port first detours room free_
    have routed : (s.tick t).routeHead h = (s.tick t).forward h { h.onward with detours := h.pkt.detours + 1 } i h.channel := by
      rw [State.routeHead_detour (s := s.tick t) hops none_, State.firstDetour_eq (s := s.tick t) none_ four port first]
      unfold State.detoured
      dsimp only
      rw [none_of_four (p := fun c => (s.tick t).minimal h.pkt.dst c && (s.tick t).kept h.pkt.dst c), if_neg Bool.false_ne_true,
        if_neg (Nat.not_le_of_lt detours)]
      intro c four
      cases minimal : (s.tick t).minimal h.pkt.dst c with
      | false => rfl
      | true => exact kept c four minimal
    obtain ⟨heads, queue, frame⟩ := (s.tick t).sentOn_leaves h { h.onward with detours := h.pkt.detours + 1 } i h.channel
    exact ⟨_, (exec_packetHeadRoute_on t there free low high away).trans
      (congrArg Host.Outcome.next (routed.trans (State.forward_free (s := s.tick t) room free_))), heads, queue, frame⟩
  · intro s t k h there free own ok
    obtain ⟨heads, delivered, frame⟩ := State.deliverHead_delivers (s := s.tick t) ok
    refine ⟨_, (exec_packetHeadRoute t there free).trans (congrArg Host.Outcome.next (State.headRouted_delivered (s := s.tick t) own ok)), heads,
      delivered, ?_⟩
    generalize (s.tick t).deliverHead h = s' at frame
    rw [frame]
    rfl
  · intro s t k h there adaptive plain due some_ full
    exact ⟨_, exec_escapeTimeout t there adaptive plain due some_ full, rfl, rfl⟩
  · intro s t k x there free op idle mirror local_ page
    rw [exec_writePacket t true there free op]
    have mirror' : ((s.tick t).packetTaken k).mirrorWrite x = false := (s.mirrorWrite_packetTaken t k x).trans mirror
    exact congrArg Host.Outcome.next (State.applyWrite_page (s := (s.tick t).packetTaken k) idle mirror' local_ page)
  · intro s t k member x there free op idle mirror
    rw [exec_writePacket t member there free op]
    have mirror' : ((s.tick t).packetTaken k).mirrorWrite x = true := (s.mirrorWrite_packetTaken t k x).trans mirror
    exact congrArg Host.Outcome.next (State.applyWrite_mirror (s := (s.tick t).packetTaken k) idle mirror' member)
  · intro s t k x there free op idle mirror local_ page passes
    have mirror' : ((s.tick t).packetTaken k).mirrorWrite x = false := (s.mirrorWrite_packetTaken t k x).trans mirror
    have checks : sameChecks s ((s.tick t).packetTaken k) := ⟨rfl, rfl, rfl, rfl⟩
    have passed : ((s.tick t).packetTaken k).checkAccess 4 0x5A x.dstEp x.arg x.data.length true false =
        (none, (((s.tick t).packetTaken k).checkAccess 4 0x5A x.dstEp x.arg x.data.length true false).2) :=
      Prod.ext ((checks.checkAccess 4 0x5A x.dstEp x.arg x.data.length true false 0).trans passes) rfl
    have only := State.onlyCached_of_checkAccess passed
    have run := (exec_writePacket t true there free op).trans
      (congrArg Host.Outcome.next (State.applyWrite_inbox (s := (s.tick t).packetTaken k) idle mirror' local_ page passed))
    generalize (((s.tick t).packetTaken k).checkAccess 4 0x5A x.dstEp x.arg x.data.length true false).2 = s₁ at only run
    have led : s₁.led = s.led := by rw [only]; rfl
    have ledger : s₁.ledger x.dstEp = s.ledger x.dstEp := congrArg (fun l : List (Nat × LedSt) => agetD l x.dstEp {}) led
    refine ⟨_, run, ?_, ?_, ?_, sameMem_of_mem ?_⟩
    · rw [← ledger]
      exact congrArg (fun o : Option LedSt => (o.getD {}).inQ) (aget_aset_same _ _ _)
    · change s₁.fab.delivered = _
      rw [only]
      rfl
    · change s₁.regs = _
      rw [only]
      rfl
    · change s₁.mem = _
      rw [only]
      rfl
  · intro s t k x there free op idle mirror
    have mirror' : ((s.tick t).packetTaken k).mirrorWrite x = false := (s.mirrorWrite_packetTaken t k x).trans mirror
    refine ⟨_, notPermitted x, (exec_writePacket t false there free op).trans
      (congrArg Host.Outcome.next (State.applyWrite_denied (s := (s.tick t).packetTaken k) idle mirror')), ?_, ?_, rfl, rfl, rfl, rfl,
      State.raise_fc_congr _ rfl rfl (State.rd_inc_reg _ _ _ _ _ _ _ _ (by decide)), fun f i j out => ?_, sameMem_of_mem ?_⟩
    · rw [State.raise_fab]
      rfl
    · rw [State.raise_rd, State.rd_inc_same]
      rfl
    · rw [State.raise_rd]
      exact State.sameBut_wr ((s.tick t).packetTaken k) F.FAB_DROP_NOT_PERMITTED _ 0 0 f i j out
    · rw [State.raise_mem]
      rfl
  · intro s t k x there free op
    have there' : (s.tick t).fab.delivered[k]? = some x := there
    have free' : ((s.tick t).fab.delivered.take k).any (fun y => behind y x) = false := free
    refine ⟨{ (s.tick t).packetTaken k with host := { s.host with readBack := x.data } }, ?_, rfl, rfl, rfl⟩
    change execMgmtRsp t k s = _
    unfold execMgmtRsp
    dsimp only
    rw [there']
    dsimp only
    rw [free', op]
    rfl
  · intro s t p gen id reject inRange stale
    refine ⟨(s.tick t).inc F.HNG_STALE_REPLIES p, ?_, State.rd_inc_same (s.tick t) F.HNG_STALE_REPLIES p 0 1,
      State.sameBut_wr (s.tick t) F.HNG_STALE_REPLIES _ p 0, rfl⟩
    rw [exec_memoryReplyReturn s t gen id reject inRange, if_pos stale]
  · intro s t p id j inRange there owner number
    have some_ : s.jobs.any (fun j => decide (j.p = p) && decide (j.id = id)) = true :=
      List.any_eq_true.mpr ⟨j, there, by simp [owner, number]⟩
    refine ⟨s.tick t, ?_, rfl⟩
    rw [exec_memoryReplyReturn s t _ id none inRange, if_neg (not_not_intro rfl), Option.elim_none, if_pos some_]
  · intro s t p id code inRange
    refine ⟨_, _, (exec_memoryReplyReturn s t _ id (some code) inRange).trans (congrArg Host.Outcome.next (if_neg (not_not_intro rfl))), rfl, rfl,
      rfl, rfl, s.tick_raise_frame t _⟩

end Sys2Proof.Machine
end

section
/-!
PROOFS of the statements of doorbells (spec/10, 14): where a doorbell goes, what it sets and how it is refused (O29).
-/

namespace Sys2Proof.Machine

/-! ### Where a doorbell goes (R239, R286, R301, R303) -/

section Way
variable {s : State} {g c w : Nat} {fn : Fn}

/-- A doorbell of a context that the device has. -/
theorem exec_doorbellWrite_there (t : Nat) (fn : Fn) (w : Nat) (group : g < 16) (context : c < 8) :
    exec (.doorbellWrite t fn g c w) s = .next ((s.tick t).doorbellFrom fn g c w) := by
  change inst (decide (g < 16 ∧ c < 8)) _ = _
  rw [decide_eq_true ⟨group, context⟩, inst_true]

/-- To a Belfry core another partition's page is denied (R239). -/
theorem State.doorbellFrom_foreign_bfy {p : Nat} (away : s.fnReaches (.bfy p) g = false) :
    s.doorbellFrom (.bfy p) g c w = s.raise (deniedReport ((s.coresOf p).head?.getD 0) p true) := by
  unfold State.doorbellFrom
  rw [away]
  rfl

/-- From a VF nothing reaches another partition's page (R301). -/
theorem State.doorbellFrom_foreign_vf {n : Nat} (away : s.fnReaches (.vf n) g = false) : s.doorbellFrom (.vf n) g c w = s := by
  unfold State.doorbellFrom
  rw [away]
  rfl

/-- A doorbell that reaches its page goes behind the posted writes of its sender, or to its group, or waits for it. -/
theorem State.doorbellFrom_reaches (reach : s.fnReaches fn g = true) (up : s.safe = false) : s.doorbellFrom fn g c w =
    (s.behind (.doorbell fn g c w)).elim
      (if s.groupRuns g then (s.doorbell g c w).showCtx g c else s.holdEvent g (.doorbell fn g c w))
      (fun k => s.queueEvent k (.doorbell fn g c w)) := by
  unfold State.doorbellFrom
  rw [reach, up]
  dsimp only
  cases s.behind (.doorbell fn g c w) <;> rfl

theorem State.doorbellFrom_behind {k : Nat} (reach : s.fnReaches fn g = true) (up : s.safe = false)
    (behind : s.behind (.doorbell fn g c w) = some k) : s.doorbellFrom fn g c w = s.queueEvent k (.doorbell fn g c w) := by
  rw [State.doorbellFrom_reaches reach up, behind, Option.elim_some]

theorem State.doorbellFrom_runs (reach : s.fnReaches fn g = true) (up : s.safe = false) (first : s.behind (.doorbell fn g c w) = none)
    (runs : s.groupRuns g = true) : s.doorbellFrom fn g c w = (s.doorbell g c w).showCtx g c := by
  rw [State.doorbellFrom_reaches reach up, first, Option.elim_none, if_pos runs]

theorem State.doorbellFrom_sleeps (reach : s.fnReaches fn g = true) (up : s.safe = false) (first : s.behind (.doorbell fn g c w) = none)
    (sleeps : s.groupRuns g = false) : s.doorbellFrom fn g c w = s.holdEvent g (.doorbell fn g c w) := by
  rw [State.doorbellFrom_reaches reach up, first, Option.elim_none, sleeps, if_neg Bool.false_ne_true]

/-- A group asleep is in the wake queue once an event is held for it (R286). -/
theorem State.holdEvent_wakes (ev : HeldEvent) (up : s.safe = false) (asleep : s.rd F.CLK_AG_STATE g = 1 ∨ s.rd F.CLK_AG_STATE g = 2) :
    ∃ q, q ∈ (s.holdEvent g ev).pwr.wakeQ ∧ q.g = g := by
  have held : s.holdEvent g ev = (s.queueEvent g ev).wakeRequest g := if_neg (by rw [up]; rcases asleep with e | e <;> simp [e])
  rw [held]
  unfold State.wakeRequest
  dsimp only
  split
  · exact ⟨{ g := g, at_ := s.now }, List.mem_append_right _ (List.mem_singleton.mpr rfl), rfl⟩
  · next queued =>
    have asleep' : (s.queueEvent g ev).rd F.CLK_AG_STATE g = 1 ∨ (s.queueEvent g ev).rd F.CLK_AG_STATE g = 2 := asleep
    have up' : (!(s.queueEvent g ev).safe) = true := congrArg Bool.not up
    have there : ¬ (s.queueEvent g ev).pwr.wakeQ.all (fun q => q.g ≠ g) = true := fun all => queued ⟨asleep', up', all⟩
    simpa using there

end Way

/-! ### What AG_CTX shows after a doorbell -/

/-- Of a context that is not open nothing is shown. -/
theorem State.showCtx_closed {s : State} {g c : Nat} (closed : s.ctx g c = none) : s.showCtx g c = s := by
  unfold State.showCtx
  rw [closed]

/-- What AG_CTX shows of a context changes its three fields alone. -/
theorem State.sameBut_showCtx (s : State) (g c : Nat) :
    sameBut [fkey F.AG_CTX_STATE g c, fkey F.AG_CTX_LEVEL g c, fkey F.AG_CTX_IN_REGION g c] s (s.showCtx g c) := by
  cases there : s.ctx g c with
  | none =>
    rw [State.showCtx_closed there]
    exact sameBut_refl _ s
  | some x =>
    rw [State.showCtx_open there]
    have stirred : sameBut [fkey F.AG_CTX_STATE g c, fkey F.AG_CTX_LEVEL g c, fkey F.AG_CTX_IN_REGION g c] s
        (s.stateStirred g c (s.ctxState g c x)) := fun f i j _ => s.rd_stateStirred g c _ f i j
    exact ((stirred.wr F.AG_CTX_STATE _ g c (by simp)).wr F.AG_CTX_LEVEL _ g c (by simp)).wr F.AG_CTX_IN_REGION _ g c (by simp)

/-! ### A doorbell that is refused (R309) -/

/-- The bounds of R309 that a doorbell word breaks: SQ_TAIL more than a ring ahead of SQ_HEAD or behind the tail before, CQ_HEAD behind the one
before. -/
def State.outOfRing (s : State) (g c word : Nat) (x : CtxSt) : Prop :=
  2 ^ x.sqLog2 < ahead (bits word 0 16) (s.rd F.PCI_RING_SQ_HEAD g c) ∨
  ahead (bits word 0 16) (s.rd F.PCI_RING_SQ_HEAD g c) < ahead x.sqTail (s.rd F.PCI_RING_SQ_HEAD g c) ∨
  ahead (s.rd F.PCI_RING_CQ_TAIL g c) x.cqHead < ahead (s.rd F.PCI_RING_CQ_TAIL g c) (bits word 16 16)

/-- The report of a refused doorbell. -/
def State.doorbellReport (s : State) (g c : Nat) : Report :=
  { cls := 2, level := 1, master := g, part := s.rd F.AG_CONFIG_PARTITION g, source := g, aux := c }

/-- The state in which a doorbell is refused and counted. -/
def State.doorbellRefused (s : State) (g c : Nat) : State := (s.inc F.PCI_RING_BAD_DB g c).raise (s.doorbellReport g c)

/-- At a context that is not open every doorbell is refused: the model's choice (notes/assumptions/138.md). -/
theorem State.doorbell_closed {s : State} {g c : Nat} (w : Nat) (closed : s.ctx g c = none) : s.doorbell g c w = s.doorbellRefused g c := by
  unfold State.doorbell
  rw [closed]
  rfl

theorem State.doorbell_outOfRing {s : State} {g c w : Nat} {x : CtxSt} (there : s.ctx g c = some x) (out : s.outOfRing g c w x) :
    s.doorbell g c w = s.doorbellRefused g c := by
  unfold State.doorbell
  rw [there]
  exact if_pos out

/-- A refusal counts in BAD_DB and leaves everything but that field and the fault collector's side. -/
theorem State.doorbellRefused_frame (s : State) (g c : Nat) : sameBut [fkey F.PCI_RING_BAD_DB g c] s (s.doorbellRefused g c) ∧
    s.doorbellRefused g c = { s with regs := (s.doorbellRefused g c).regs, fc := (s.doorbellRefused g c).fc } := by
  unfold State.doorbellRefused
  refine ⟨fun f i j out => ?_, ?_⟩
  · rw [State.raise_rd]
    exact State.sameBut_wr s F.PCI_RING_BAD_DB _ g c f i j out
  · rw [State.raise_frame]
    rfl

theorem State.rd_doorbellRefused (s : State) (g c : Nat) : (s.doorbellRefused g c).rd F.PCI_RING_BAD_DB g c =
    counted F.PCI_RING_BAD_DB (s.rd F.PCI_RING_BAD_DB g c) 1 := by
  rw [State.doorbellRefused, State.raise_rd, State.rd_inc_same]
  rfl

theorem State.fc_doorbellRefused (s : State) (g c : Nat) : (s.doorbellRefused g c).fc = (s.raise (s.doorbellReport g c)).fc :=
  State.raise_fc_congr _ rfl rfl (s.rd_inc_reg F.PCI_RING_BAD_DB F.AON_STAGE_STAGE _ _ _ _ _ (by decide))

theorem State.ctxs_doorbellRefused (s : State) (g c : Nat) : (s.doorbellRefused g c).ctxs = s.ctxs := by
  rw [(s.doorbellRefused_frame g c).2]

/-! ### A doorbell that is taken (R309, R311) -/

/-- The context with the indices of a doorbell word. -/
def CtxSt.rung (x : CtxSt) (word : Nat) : CtxSt := { x with sqTail := bits word 0 16, cqHead := bits word 16 16 }

/-- The state in which a context has taken a doorbell word. -/
def State.doorbellTaken (s : State) (g c word : Nat) (x : CtxSt) : State :=
  if word.testBit 32 ∧ s.rd F.PCI_RING_CQ_TAIL g c ≠ bits word 16 16 then
    ((s.setCtx g c (x.rung word)).wr F.PCI_RING_ARMED 0 g c).complInterrupt g c x
  else (s.setCtx g c (x.rung word)).wrB F.PCI_RING_ARMED (word.testBit 32) g c

section Taken
variable {s : State} {g c w : Nat} {x : CtxSt}

theorem State.doorbell_taken (there : s.ctx g c = some x) (fits : ¬ s.outOfRing g c w x) : s.doorbell g c w = s.doorbellTaken g c w x := by
  unfold State.doorbell
  rw [there]
  exact if_neg fits

theorem State.doorbellTaken_frame (s : State) (g c w : Nat) (x : CtxSt) : s.doorbellTaken g c w x =
    { s with regs := (s.doorbellTaken g c w x).regs, ctxs := aset s.ctxs (8 * g + c) (x.rung w), host := (s.doorbellTaken g c w x).host } := by
  unfold State.doorbellTaken
  split
  · rw [State.complInterrupt_frame]
    rfl
  · rfl

theorem State.ctx_doorbellTaken (s : State) (g c w : Nat) (x : CtxSt) : (s.doorbellTaken g c w x).ctx g c = some (x.rung w) := by
  rw [s.doorbellTaken_frame]
  exact aget_aset_same _ _ _

theorem State.sameBut_doorbellTaken (s : State) (g c w : Nat) (x : CtxSt) :
    sameBut [fkey F.PCI_RING_ARMED g c] s (s.doorbellTaken g c w x) := by
  unfold State.doorbellTaken
  split
  · rw [State.complInterrupt_frame]
    exact State.sameBut_wr (s.setCtx g c (x.rung w)) F.PCI_RING_ARMED 0 g c
  · exact State.sameBut_wr (s.setCtx g c (x.rung w)) F.PCI_RING_ARMED _ g c

/-- Where no interrupt is due at once, it is armed as the ARM bit says. -/
theorem State.doorbellTaken_arms (x : CtxSt) (idle : ¬ (w.testBit 32 ∧ s.rd F.PCI_RING_CQ_TAIL g c ≠ bits w 16 16)) :
    (s.doorbellTaken g c w x).on F.PCI_RING_ARMED g c = w.testBit 32 ∧ (s.doorbellTaken g c w x).host = s.host := by
  rw [State.doorbellTaken, if_neg idle]
  exact ⟨State.on_wrB_same _ _ _ _ _ rfl, rfl⟩

/-- Where records wait already the interrupt is raised at once, and is not armed. -/
theorem State.doorbellTaken_interrupts (x : CtxSt) (arm : w.testBit 32 = true) (wait : s.rd F.PCI_RING_CQ_TAIL g c ≠ bits w 16 16) :
    (s.doorbellTaken g c w x).on F.PCI_RING_ARMED g c = false ∧
    (x.irqFn = some .pf0 → (Fn.pf0, 64 + 8 * g + c) ∈ (s.doorbellTaken g c w x).host.vecs) ∧
    (x.irqCore.isSome = true → (x.irqCore.getD 0, 64 + 8 * g + c) ∈ (s.doorbellTaken g c w x).host.coreIrq) := by
  rw [State.doorbellTaken, if_pos ⟨arm, wait⟩]
  refine ⟨?_, State.complInterrupt_targets _ g c x⟩
  rw [State.complInterrupt_frame]
  exact State.on_wrB_same (s.setCtx g c (x.rung w)) F.PCI_RING_ARMED false g c rfl

end Taken

theorem State.on_showCtx_armed (s : State) (g c : Nat) : (s.showCtx g c).on F.PCI_RING_ARMED g c = s.on F.PCI_RING_ARMED g c :=
  congrArg (fun v : Nat => decide (v ≠ 0)) (s.rd_showCtx_reg g c F.PCI_RING_ARMED g c (by decide))

theorem State.host_showCtx (s : State) (g c : Nat) : (s.showCtx g c).host = s.host := by
  rw [s.showCtx_frame g c]

/-- Settles O29: where the doorbell goes decides; at a running group a word that breaks no bound sets the indices and the interrupt, any other
is refused. -/
theorem doorbells : Obligations.Doorbells := by
  unfold Obligations.Doorbells
  refine ⟨?taken, ?closed, ?outOfRing, ?sleeps, ?behind, ?foreignCore, ?foreignVf⟩
  case taken =>
    intro s t g c w fn x group context reach up first runs there ring forward read
    have fits : ¬ (s.tick t).outOfRing g c w x := by
      rintro (far | back | unread)
      · exact absurd ring (Nat.not_le.mpr far)
      · exact absurd forward (Nat.not_le.mpr back)
      · exact absurd read (Nat.not_le.mpr unread)
    have run : exec (.doorbellWrite t fn g c w) s = .next (((s.tick t).doorbellTaken g c w x).showCtx g c) := by
      rw [exec_doorbellWrite_there t fn w group context, State.doorbellFrom_runs (s := s.tick t) reach up first runs,
        State.doorbell_taken (s := s.tick t) there fits]
    refine ⟨_, run, (State.ctx_showCtx _ _ _ _ _).trans (State.ctx_doorbellTaken _ _ _ _ _), ?_, ?_, ?_, fun f i j out => ?_, ?_⟩
    · intro off
      obtain ⟨armed, host⟩ := State.doorbellTaken_arms (s := s.tick t) (g := g) (c := c) (w := w) x (fun due => by simp [off] at due)
      exact ⟨(State.on_showCtx_armed _ _ _).trans (armed.trans off), (State.host_showCtx _ _ _).trans host⟩
    · intro arm empty
      obtain ⟨armed, -⟩ := State.doorbellTaken_arms (s := s.tick t) (g := g) (c := c) x (fun due => due.2 empty)
      exact (State.on_showCtx_armed _ _ _).trans (armed.trans arm)
    · intro arm wait
      rw [State.on_showCtx_armed, State.host_showCtx]
      exact State.doorbellTaken_interrupts (s := s.tick t) x arm wait
    · simp only [List.mem_cons, not_or] at out
      obtain ⟨armed, shown⟩ := out
      exact (State.sameBut_showCtx _ g c f i j (by simpa only [List.mem_cons, not_or] using shown)).trans
        ((s.tick t).sameBut_doorbellTaken g c w x f i j (by simpa using armed))
    · rw [State.showCtx_frame, State.doorbellTaken_frame]
      rfl
  case closed =>
    intro s t g c w fn group context reach up first runs closed
    have closed' : ((s.tick t).doorbellRefused g c).ctx g c = none := (State.ctx_congr (State.ctxs_doorbellRefused _ g c) g c).trans closed
    have run : exec (.doorbellWrite t fn g c w) s = .next ((s.tick t).doorbellRefused g c) := by
      rw [exec_doorbellWrite_there t fn w group context, State.doorbellFrom_runs (s := s.tick t) reach up first runs,
        State.doorbell_closed (s := s.tick t) w closed, State.showCtx_closed closed']
    obtain ⟨others, frame⟩ := (s.tick t).doorbellRefused_frame g c
    refine ⟨_, (s.tick t).doorbellReport g c, run, State.rd_doorbellRefused _ g c, rfl, rfl, rfl, State.fc_doorbellRefused _ g c, others, ?_⟩
    rw [frame]
    rfl
  case outOfRing =>
    intro s t g c w fn x group context reach up first runs there out
    have run : exec (.doorbellWrite t fn g c w) s = .next (((s.tick t).doorbellRefused g c).showCtx g c) := by
      rw [exec_doorbellWrite_there t fn w group context, State.doorbellFrom_runs (s := s.tick t) reach up first runs,
        State.doorbell_outOfRing (s := s.tick t) there out]
    refine ⟨_, (s.tick t).doorbellReport g c, run, ?_, rfl, rfl, ?_, ?_, sameMem_of_mem ?_⟩
    · exact (State.rd_showCtx_reg _ g c F.PCI_RING_BAD_DB g c (by decide)).trans (State.rd_doorbellRefused _ g c)
    · rw [State.showCtx_frame]
      exact State.fc_doorbellRefused _ g c
    · rw [State.showCtx_frame]
      exact State.ctxs_doorbellRefused _ g c
    · rw [State.showCtx_frame, (State.doorbellRefused_frame _ g c).2]
      rfl
  case sleeps =>
    intro s t g c w fn group context reach up first asleep
    have sleeps : s.groupRuns g = false := by
      unfold State.groupRuns
      rcases asleep with e | e <;> rw [e] <;> rfl
    have present : s.rd F.CLK_AG_STATE g ≠ 4 := by
      rcases asleep with e | e <;> rw [e] <;> decide
    obtain ⟨held, frame⟩ := (s.tick t).holdEvent_eq g (.doorbell fn g c w) up present
    refine ⟨_, (exec_doorbellWrite_there t fn w group context).trans
      (congrArg Host.Outcome.next (State.doorbellFrom_sleeps (s := s.tick t) reach up first sleeps)), held,
      State.holdEvent_wakes (s := s.tick t) _ up asleep, ?_⟩
    rw [frame]
    rfl
  case behind =>
    intro s t g c w k fn group context reach up behind
    exact (exec_doorbellWrite_there t fn w group context).trans
      (congrArg Host.Outcome.next (State.doorbellFrom_behind (s := s.tick t) reach up behind))
  case foreignCore =>
    intro s t g c w p group context away
    exact ⟨_, _, (exec_doorbellWrite_there t (.bfy p) w group context).trans
      (congrArg Host.Outcome.next (State.doorbellFrom_foreign_bfy (s := s.tick t) away)), rfl, rfl, rfl, rfl, s.tick_raise_frame t _⟩
  case foreignVf =>
    intro s t g c w n group context away
    exact (exec_doorbellWrite_there t (.vf n) w group context).trans
      (congrArg Host.Outcome.next (State.doorbellFrom_foreign_vf (s := s.tick t) away))

end Sys2Proof.Machine
end

section
/-!
PROOFS of the image statements (spec/11, 14): what a served request answers and leaves (for O40, O59).
-/

namespace Sys2Proof.Machine

/-! ### Frames of register writes -/

theorem sameRegsBut.wr {l : List Reg} {a b : State} (h : sameRegsBut l a b) (f : Fld) (v i j : Nat) (mem : f.reg ∈ l := by decide) :
    sameRegsBut l a (b.wr f v i j) :=
  h.trans (fun g i' j' out => b.rd_wr_reg f g v i j i' j' (fun e => out (e ▸ mem)))

theorem sameRegsBut.weaken {l l' : List Reg} {a b : State} (h : sameRegsBut l a b) (sub : l ⊆ l' := by decide) : sameRegsBut l' a b :=
  fun f i j out => h f i j (fun mem => out (sub mem))

/-! ### A request that is served (R314, R316) -/

/-- From `a` to `b` a request is answered in its mailbox, with this status and payload, and nothing else happens. -/
structure repliedWith (h : MbxHdr) (status : Nat) (data : Bytes) (a b : State) : Prop where
  answer : answered b h status data
  regs : sameRegsBut [.MBX_STATUS] a b
  frame : b = { a with regs := b.regs, host := b.host }

theorem State.repliedWith_respond (s : State) (h : MbxHdr) (status : Nat) (data : Bytes) :
    repliedWith h status data s (s.respond h status data) where
  answer := s.answered_respond h status data
  regs f i j out := by
    obtain ⟨_, _, _, regs⟩ := s.onlyAnswers_respond h status data
    exact regs f i j (Or.inl (fun e => out (List.mem_singleton.mpr e)))
  frame := by
    obtain ⟨_, _, _, e⟩ := (s.responsePut h status data).onlyVecs_mbxVector h.fn h.m
    rw [State.respond_eq, e]
    rfl

theorem repliedWith.sameMem {h : MbxHdr} {status : Nat} {data : Bytes} {s a b : State} (r : repliedWith h status data a b)
    (kept : a.mem = s.mem) : sameMem s b := sameMem_of_mem (by rw [r.frame, kept])

/-- An answer to a request that changed the security block and registers alone. -/
theorem repliedWith.frame_sec {h : MbxHdr} {status : Nat} {data : Bytes} {s a b : State} (r : repliedWith h status data a b)
    (few : a = { s with now := a.now, regs := a.regs, sec := a.sec }) :
    b = { s with now := b.now, regs := b.regs, host := b.host, sec := b.sec } := by
  rw [r.frame, few]

/-- A mailbox that takes a request hands it to firmware at the request's time. -/
theorem exec_taken {s : State} {t : Nat} {h : MbxHdr} {i : Instr} {serve : State → State} (w : takes s h)
    (run : exec i s = inst (mbxOk h) ((s.tick t).mbx i h serve)) : exec i s = .next (serve (s.tick t)) := by
  have taken : takes (s.tick t) h := w
  have there : mbxOk h = true := decide_eq_true w.1
  rw [run, there, inst_true, State.mbx_takes taken]

/-- A request that the checks pass: firmware answers what the body of its message says. -/
theorem exec_served {s : State} {t : Nat} {h : MbxHdr} {i : Instr} {o : OpSpec} {body : State → Reply} (w : takes s h)
    (run : exec i s = inst (mbxOk h) ((s.tick t).mbx i h (fun s => s.serveMsg h o body)))
    (pass : s.mbxCheck h { o with fieldOk := true } = none) (fits : o.fieldOk = true) :
    exec i s = .next ((body (s.tick t)).2.2.respond h (body (s.tick t)).1 (body (s.tick t)).2.1) := by
  have same : ({ o with fieldOk := true } : OpSpec) = o := by rw [← fits]
  have pass' : (s.tick t).mbxCheck h o = none := same ▸ pass
  rw [exec_taken w run, State.serveMsg, pass']

end Sys2Proof.Machine
end

section
/-!
PROOFS of the image statements (spec/11, 14): image and firmware writes, image selection and WARM_RESET (O40).
-/

namespace Sys2Proof.Machine

/-! ### Writes to the flash (R257, R305) -/

/-- A write to one slot leaves what every other slot holds. -/
theorem getD_mapIdx_patch (l : List Bytes) {slot : Nat} (there : slot < l.length) (off : Nat) (b : Bytes) (k : Nat) :
    (l.mapIdx (fun i x => if i + 1 = slot + 1 then patchBytes x off b else x)).getD k [] =
      if k = slot then patchBytes (l.getD slot []) off b else l.getD k [] := by
  simp only [List.getD_eq_getElem?_getD, List.getElem?_mapIdx, Nat.add_right_cancel_iff]
  by_cases own : k = slot
  · subst own
    simp [there]
  · simp [own]

theorem State.flashWrite_slot (s : State) {slot : Nat} (some_ : slot < 4) (off : Nat) (b : Bytes) :
    s.flashWrite (slot + 1) off b = { s with sec := { s.sec with flash := { s.sec.flash with
      slots := s.sec.flash.slots.mapIdx (fun i x => if i + 1 = slot + 1 then patchBytes x off b else x) } } } := by
  unfold State.flashWrite
  split
  · omega
  · omega
  · rfl

theorem State.flashWrite_firmware (s : State) (off : Nat) (b : Bytes) : s.flashWrite 0 off b = { s with sec := { s.sec with flash :=
    (if s.sec.fw.any (fun x => x.slot = 0) then { s.sec.flash with fwB := patchBytes s.sec.flash.fwB off b }
     else { s.sec.flash with fwA := patchBytes s.sec.flash.fwA off b }) } } := rfl

/-! ### What each message answers (R265, R317) -/

section Served
variable {s : State} {h : MbxHdr} (t : Nat) (w : takes s h) (pass : s.mbxCheck h { feat := some 0, mgmt := true } = none)
include w pass

theorem exec_imageWrite_slot {slot off : Nat} {b : Bytes} (some_ : slot < 4) (short : b.length ≤ 4032)
    (inside : off + b.length ≤ imageSlotBytes) :
    exec (.imageWrite t h slot off b) s = .next (((s.tick t).flashWrite (slot + 1) off b).respond h 0 []) := by
  have fits : (decide (slot ≤ 4) && decide (b.length ≤ 4032) && decide (off + b.length ≤ imageSlotBytes)) = true := by
    simp [some_.le, short, inside]
  refine (exec_served w rfl pass fits).trans ?_
  rw [if_neg some_.ne]
  rfl

theorem exec_imageWrite_trim {off : Nat} {b : Bytes} (short : b.length ≤ 4032) (inside : off + b.length ≤ imageSlotBytes) :
    exec (.imageWrite t h 4 off b) s = .next (((s.tick t).flashWrite 5 off b).respond h 0 []) := by
  have fits : (decide (4 ≤ 4) && decide (b.length ≤ 4032) && decide (off + b.length ≤ imageSlotBytes)) = true := by simp [short, inside]
  exact (exec_served w rfl pass fits).trans rfl

theorem exec_fwWrite_served {off : Nat} {b : Bytes} (short : b.length ≤ 4032) (inside : off + b.length ≤ flashBytes) :
    exec (.fwWrite t h off b) s = .next (((s.tick t).flashWrite 0 off b).respond h 0 []) := by
  have fits : (decide (b.length ≤ 4032) && decide (off + b.length ≤ flashBytes)) = true := by simp [short, inside]
  exact (exec_served w rfl pass fits).trans rfl

theorem exec_imageSelect_passes {slot : Nat} (there : slot ≤ 3) (good : s.check01to06 (s.sec.flash.slots.getD slot []) 1 = none) :
    exec (.imageSelect t h slot) s = .next (({ (s.tick t).imgStatus 1 slot 0 (0, 0, 0) with
      sec := { s.sec with flash := { s.sec.flash with bootSlot := slot } } } : State).respond h 0 []) := by
  have good' : (s.tick t).check01to06 ((s.tick t).sec.flash.slots.getD slot []) 1 = none := good
  refine (exec_served w rfl pass (decide_eq_true there)).trans ?_
  rw [good']
  rfl

theorem exec_imageSelect_fails {slot : Nat} {e : ImgErr} (there : slot ≤ 3)
    (bad : s.check01to06 (s.sec.flash.slots.getD slot []) 1 = some e) :
    exec (.imageSelect t h slot) s = .next (((s.tick t).imgStatus 1 slot 0 e).respond h 9 (natLe 4 e.1)) := by
  have bad' : (s.tick t).check01to06 ((s.tick t).sec.flash.slots.getD slot []) 1 = some e := bad
  refine (exec_served w rfl pass (decide_eq_true there)).trans ?_
  rw [bad', ← List.append_nil (natLe 4 e.1)]
  rfl

end Served

/-- MGT_IMAGE_STATUS shows a check's code, and nothing else changes (R259). -/
theorem State.imgStatus_shows (s : State) (kind slot part : Nat) (e : ImgErr) :
    (s.imgStatus kind slot part e).rd F.MGT_IMAGE_STATUS_RESULT = e.1 % 256 ∧
    sameRegsBut [.MGT_IMAGE_STATUS] s (s.imgStatus kind slot part e) ∧ onlyRegs s (s.imgStatus kind slot part e) :=
  ⟨State.rd_wr_same _ F.MGT_IMAGE_STATUS_RESULT _ _ _,
    ((((((sameRegsBut_refl _ s).wr F.MGT_IMAGE_STATUS_PARTITION part 0 0).wr F.MGT_IMAGE_STATUS_KIND kind 0 0).wr
      F.MGT_IMAGE_STATUS_RECORD e.2.2 0 0).wr F.MGT_IMAGE_STATUS_SECTION e.2.1 0 0).wr F.MGT_IMAGE_STATUS_SLOT slot 0 0).wr
      F.MGT_IMAGE_STATUS_RESULT e.1 0 0, rfl⟩

/-! ### WARM_RESET (R305, R384) -/

/-- The state in which an answered WARM_RESET begins its warm device reset. -/
def State.warmAsked (s : State) (h : MbxHdr) : State :=
  { s.respond h 0 [] with pwr := { (s.respond h 0 []).pwr with auxAt := (s.respond h 0 []).now } }

theorem exec_warmReset_served {s : State} {h : MbxHdr} (t : Nat) (b : Bool) (w : takes s h)
    (pass : s.mbxCheck h { mgmt := true, safeOk := true } = none) :
    exec (.warmReset t h b) s = .next (((s.tick t).warmAsked h).warmDeviceReset.warmStart b) := by
  have pass' : (s.tick t).mbxCheck h { mgmt := true, safeOk := true } = none := pass
  have served : ∀ x : State, x.mbxCheck h { mgmt := true, safeOk := true } = none →
      x.warmServe h b = (x.warmAsked h).warmDeviceReset.warmStart b := by
    intro x ok
    unfold State.warmServe State.serveMsg
    rw [ok]
    rfl
  exact (exec_taken (serve := fun x => x.warmServe h b) w rfl).trans (congrArg Host.Outcome.next (served _ pass'))

/-- What an update of the directory leaves: its entries, the generation two above, the time and the cause (R272). -/
def State.ldShown (s : State) (new : List LdEntry) (changed cause part : Nat) : State :=
  ((((((({ s with ldir := new } : State).wr F.LDIR_GEN_GENERATION (s.rd F.LDIR_GEN_GENERATION + 2)).inc F.LDIR_GEN_UPDATES).wr
    F.LDIR_LAST_NS_TIME s.now).wr F.LDIR_CAUSE_CHANGED changed).wr F.LDIR_CAUSE_PARTITION part).wr F.LDIR_CAUSE_CAUSE cause)

theorem State.ldUpdate_shown (s : State) (cause part : Nat) (disc : Bool) (sel : Nat → Nat → Bool) :
    ∃ new changed, s.ldUpdate cause part disc sel = s.ldShown new changed cause part := ⟨_, _, rfl⟩

theorem State.ldShown_leaves (s : State) (new : List LdEntry) (changed cause part : Nat) :
    onlyRegs { s with ldir := new } (s.ldShown new changed cause part) ∧
    sameRegsBut [.LDIR_GEN, .LDIR_LAST_NS, .LDIR_CAUSE] s (s.ldShown new changed cause part) :=
  ⟨((((((onlyRegs_refl _).wr F.LDIR_GEN_GENERATION _ 0 0).wr F.LDIR_GEN_UPDATES _ 0 0).wr F.LDIR_LAST_NS_TIME _ 0 0).wr F.LDIR_CAUSE_CHANGED _
      0 0).wr F.LDIR_CAUSE_PARTITION _ 0 0).wr F.LDIR_CAUSE_CAUSE _ 0 0,
    ((((((sameRegsBut_refl [.LDIR_GEN, .LDIR_LAST_NS, .LDIR_CAUSE] ({ s with ldir := new } : State)).wr F.LDIR_GEN_GENERATION _ 0 0).wr
      F.LDIR_GEN_UPDATES _ 0 0).wr F.LDIR_LAST_NS_TIME _ 0 0).wr F.LDIR_CAUSE_CHANGED _ 0 0).wr F.LDIR_CAUSE_PARTITION _ 0 0).wr
      F.LDIR_CAUSE_CAUSE _ 0 0⟩

/-- An update of the directory changes its entries and its registers alone (R272). -/
theorem State.ldUpdate_leaves (s : State) (cause part : Nat) (disc : Bool) (sel : Nat → Nat → Bool) :
    (∃ regs ldir, s.ldUpdate cause part disc sel = { s with regs := regs, ldir := ldir }) ∧
    sameRegsBut [.LDIR_GEN, .LDIR_LAST_NS, .LDIR_CAUSE] s (s.ldUpdate cause part disc sel) := by
  obtain ⟨new, changed, e⟩ := s.ldUpdate_shown cause part disc sel
  obtain ⟨frame, regs⟩ := s.ldShown_leaves new changed cause part
  rw [e]
  exact ⟨⟨_, _, frame⟩, regs⟩

/-- Opening the seal shows whether it opened, and leaves the flash and every register of another block (R470, R472). -/
theorem State.openSeal_leaves (s : State) (b : Bool) : (s.openSeal b).on F.SEC_STATUS_ID_VALID = b ∧
    (s.openSeal b).rd F.SEC_STATUS_DEBUG_SCOPE = s.rd F.SEC_STATUS_DEBUG_SCOPE ∧
    sameRegsBut [.SEC_STATUS, .SEC_SIGIDX] s (s.openSeal b) ∧
    s.openSeal b = { s with regs := (s.openSeal b).regs, sec := { s.sec with tokenAt := s.now }, fc := (s.openSeal b).fc } := by
  have opened : ∃ x, s.openSeal b = { ((s.wrB F.SEC_STATUS_ID_VALID b).wr F.SEC_SIGIDX_TOKENS 32) with
      sec := { s.sec with tokenAt := s.now }, fc := x } := by
    unfold State.openSeal
    dsimp only
    split
    · exact ⟨_, rfl⟩
    · rw [State.raise_frame]
      exact ⟨_, rfl⟩
  obtain ⟨x, e⟩ := opened
  rw [e]
  refine ⟨?_, ?_, ((sameRegsBut_refl _ s).wr F.SEC_STATUS_ID_VALID _ 0 0).wr F.SEC_SIGIDX_TOKENS 32 0 0, rfl⟩
  · change ((s.wrB F.SEC_STATUS_ID_VALID b).wr F.SEC_SIGIDX_TOKENS 32).on F.SEC_STATUS_ID_VALID = b
    unfold State.on
    rw [State.rd_wr_reg _ _ _ _ _ _ _ _ (by decide)]
    exact State.on_wrB_same s F.SEC_STATUS_ID_VALID b 0 0 rfl
  · change ((s.wrB F.SEC_STATUS_ID_VALID b).wr F.SEC_SIGIDX_TOKENS 32).rd F.SEC_STATUS_DEBUG_SCOPE = _
    rw [State.rd_wr_reg _ _ _ _ _ _ _ _ (by decide), State.wrB, State.rd_wr_lsb _ _ _ _ _ _ _ _ (by decide)]

/-- What the Footing of a warm start leaves: WARM set, the seal opened or not, the stage, the scopes, the flash and memory as they were (R294). -/
theorem State.warmStart_leaves (s : State) (b : Bool) : (s.warmStart b).rd F.AON_STAGE_WARM = 1 ∧
    (s.warmStart b).rd F.AON_STAGE_STAGE = s.rd F.AON_STAGE_STAGE ∧ (s.warmStart b).on F.SEC_STATUS_ID_VALID = b ∧
    (s.warmStart b).rd F.SEC_STATUS_DEBUG_SCOPE = s.rd F.SEC_STATUS_DEBUG_SCOPE ∧ ∃ regs pwr fc ldir time, s.warmStart b =
      { s with regs := regs, pwr := pwr, fc := fc, ldir := ldir, sec := { s.sec with tokenAt := time } } := by
  let begun : State := { s with pwr := { s.pwr with t0 := s.now } }
  let shown : State := (begun.wr F.AON_STAGE_WARM 1).wr F.AON_STAGE_MS_FOOTING (begun.msSince begun.pwr.auxAt)
  have shownRegs : sameRegsBut [.AON_STAGE, .AON_STAGE_MS] s shown :=
    ((sameRegsBut_refl [.AON_STAGE, .AON_STAGE_MS] begun).wr F.AON_STAGE_WARM 1 0 0).wr F.AON_STAGE_MS_FOOTING _ 0 0
  obtain ⟨valid, scope, sealRegs, sealFrame⟩ := shown.openSeal_leaves b
  obtain ⟨⟨_, _, dirFrame⟩, dirRegs⟩ := (shown.openSeal b).ldUpdate_leaves 1 0 false (fun _ _ => true)
  have whole : s.warmStart b = (shown.openSeal b).ldUpdate 1 0 false (fun _ _ => true) := rfl
  rw [whole]
  refine ⟨?_, ?_, ?_, ?_, ?_⟩
  · rw [dirRegs _ _ _ (by decide), sealRegs _ _ _ (by decide), State.rd_wr_reg _ _ _ _ _ _ _ _ (by decide)]
    exact State.rd_wr_same _ F.AON_STAGE_WARM _ _ _
  · rw [dirRegs _ _ _ (by decide), sealRegs _ _ _ (by decide), State.rd_wr_reg _ _ _ _ _ _ _ _ (by decide)]
    exact State.rd_wr_lsb _ F.AON_STAGE_WARM _ _ _ _ _ _ (by decide)
  · unfold State.on at valid ⊢
    rw [dirRegs _ _ _ (by decide), valid]
  · rw [dirRegs _ _ _ (by decide), scope, shownRegs _ _ _ (by decide)]
  · rw [dirFrame, sealFrame]
    exact ⟨_, _, _, _, _, rfl⟩

/-- A warm device reset leaves the responses in the mailboxes. -/
theorem State.resps_warmDeviceReset (s : State) : s.warmDeviceReset.host.resps = s.host.resps := by
  have kept : ∀ x : State, (x.setStage stFooting).host.resps = x.host.resps := by
    intro x
    unfold State.setStage
    split
    · rfl
    · exact State.resps_vec _ _ _
  rw [State.warmDeviceReset_eq, kept, State.onlyRegs_warmShown s.warmCleared s.stage]
  rfl

/-- Settles O40: each message is the write it makes and its answer; WARM_RESET is its answer, a warm device reset and a warm start. -/
theorem imagesAndWarmReset : Obligations.ImagesAndWarmReset := by
  unfold Obligations.ImagesAndWarmReset
  refine ⟨?slot, ?trim, ?firmware, ?selected, ?refused, ?reset⟩
  case slot =>
    intro s t slot off b h w some_ short inside four pass
    have patched := getD_mapIdx_patch s.sec.flash.slots (four ▸ some_) off b
    have reply := ((s.tick t).flashWrite (slot + 1) off b).repliedWith_respond h 0 []
    have written := (s.tick t).flashWrite_slot some_ off b
    refine ⟨_, exec_imageWrite_slot t w pass some_ short inside, reply.answer, ?_, ?_, ?_, ?_, ?_, ?_, reply.sameMem ?_⟩
    · rw [reply.frame, written]
      exact (patched slot).trans (if_pos rfl)
    · intro k other
      rw [reply.frame, written]
      exact (patched k).trans (if_neg other)
    · rw [reply.frame, written]; rfl
    · rw [reply.frame, written]; rfl
    · rw [reply.frame, written]; rfl
    · exact fun f i j out => (reply.regs f i j out).trans (by rw [written]; rfl)
    · rw [written]; rfl
  case trim =>
    intro s t off b h w short inside pass
    have reply := ((s.tick t).flashWrite 5 off b).repliedWith_respond h 0 []
    refine ⟨_, exec_imageWrite_trim t w pass short inside, reply.answer, ?_, reply.regs, reply.sameMem rfl⟩
    rw [reply.frame]
    rfl
  case firmware =>
    intro s t off b h w short inside pass
    have reply := ((s.tick t).flashWrite 0 off b).repliedWith_respond h 0 []
    refine ⟨_, exec_fwWrite_served t w pass short inside, reply.answer, ?_, ?_, ?_, reply.regs, reply.sameMem rfl⟩
    · rw [reply.frame]
      rfl
    · intro runsA
      rw [reply.frame, State.flashWrite_firmware, State.tick_sec, if_pos runsA]
      exact ⟨rfl, rfl⟩
    · intro runsB
      rw [reply.frame, State.flashWrite_firmware, State.tick_sec, if_neg (Bool.eq_false_iff.mp runsB)]
      exact ⟨rfl, rfl⟩
  case selected =>
    intro s t slot h w there pass good
    let chosen : State := { (s.tick t).imgStatus 1 slot 0 (0, 0, 0) with sec := { s.sec with flash := { s.sec.flash with bootSlot := slot } } }
    have reply := chosen.repliedWith_respond h 0 []
    obtain ⟨result, regs, _⟩ := (s.tick t).imgStatus_shows 1 slot 0 (0, 0, 0)
    refine ⟨_, exec_imageSelect_passes t w pass there good, reply.answer, ?_, ?_, ?_, reply.sameMem rfl⟩
    · rw [reply.frame]
    · exact (reply.regs _ _ _ (by decide)).trans result
    · exact regs.weaken.trans reply.regs.weaken
  case refused =>
    intro s t slot h e w there pass bad
    have reply := ((s.tick t).imgStatus 1 slot 0 e).repliedWith_respond h 9 (natLe 4 e.1)
    refine ⟨_, exec_imageSelect_fails t w pass there bad, reply.answer, ?_, reply.sameMem rfl⟩
    rw [reply.frame]
    rfl
  case reset =>
    intro s t b h w pass
    have reply := (s.tick t).repliedWith_respond h 0 []
    obtain ⟨_, _, cleared⟩ := ((s.tick t).warmAsked h).warmDeviceReset_frame
    obtain ⟨warm, stage, valid, scope, _, _, _, _, _, started⟩ := ((s.tick t).warmAsked h).warmDeviceReset.warmStart_leaves b
    have asked : ((s.tick t).warmAsked h).sec = s.sec ∧ ((s.tick t).warmAsked h).mem = s.mem := by
      unfold State.warmAsked
      rw [reply.frame]
      exact ⟨rfl, rfl⟩
    have kept : ∀ a, (((s.tick t).warmAsked h).warmDeviceReset.warmStart b).rdByte a = (s.forget keepBytes (2 ^ 60)).rdByte a := by
      intro a
      rw [started, cleared]
      unfold State.rdByte State.forget
      rw [← asked.2]
      rfl
    refine ⟨_, exec_warmReset_served t b w pass, stage.trans (State.stage_setStage_footing _), warm,
      scope.trans (State.debugScope_warmDeviceReset _), ?_, ?_, valid, ?_, ?_, ?_, ?_⟩
    · rw [started, cleared]; rfl
    · rw [started, cleared]
      change ((s.tick t).warmAsked h).sec.flash = _
      rw [asked.1]
    · rw [started, cleared]; rfl
    · rw [started]
      exact (congrArg (aget · h.m) (State.resps_warmDeviceReset _)).trans reply.answer.1
    · intro a low
      rw [kept, State.rdByte_forget, if_pos (Or.inl low)]
    · intro a low high
      rw [kept, State.rdByte_forget, if_neg (by omega)]

end Sys2Proof.Machine
end

section
/-!
PROOFS of the image statements (spec/11, 21): identity, counters and signatures (for O59).
-/

namespace Sys2Proof.Machine

/-! ### Identity and counters by mailbox and by the always-on paths (R307, R465, R470) -/

/-- A request that reads: an answer that leaves all but registers and the host link. -/
theorem repliedWith.frame_tick {h : MbxHdr} {status : Nat} {data : Bytes} {s b : State} {t : Nat} (r : repliedWith h status data (s.tick t) b) :
    b = { s with now := b.now, regs := b.regs, host := b.host } := by
  rw [r.frame]
  rfl

/-- The answer to a command of R307 by an always-on path. -/
def State.answeredBy (s : State) (path : Path) (b : Bytes) : State := { s with host := { s.host with answers := (path, b) :: s.host.answers } }

theorem State.answer_aon (s : State) {path : Path} (aon : path = .mctp ∨ path = .doe) (b : Bytes) : s.answer path b = s.answeredBy path b := by
  rcases aon with rfl | rfl <;> rfl

theorem exec_getIdentity_aon {s : State} {t : Nat} {path : Path} (aon : path = .mctp ∨ path = .doe) (up : (s.tick t).aonUp path = true) :
    exec (.getIdentity t path) s = .next ((s.tick t).answeredBy path (natLe 1 0 ++ s.identity)) := by
  rw [← State.answer_aon _ aon]
  rcases aon with rfl | rfl <;> exact congrArg Host.Outcome.next (if_pos up)

theorem exec_getCounters_aon {s : State} {t : Nat} {path : Path} (aon : path = .mctp ∨ path = .doe) (up : (s.tick t).aonUp path = true) :
    exec (.getCounters t path) s = .next ((s.tick t).answeredBy path (natLe 1 0 ++ s.counters)) := by
  rw [← State.answer_aon _ aon]
  rcases aon with rfl | rfl <;> exact congrArg Host.Outcome.next (if_pos up)

/-! ### Signatures (R471 to R473) -/

/-- The index the next signature uses: that of the held block, or the first of the block reserved next (R473). -/
def State.nextIndex (s : State) : Nat :=
  if s.rd F.SEC_SIGIDX_NEXT_INDEX = 0xFFFFFFFF ∨ s.rd F.SEC_SIGIDX_NEXT_INDEX = 64 * s.sec.flash.sigBlock then 64 * s.sec.flash.sigBlock
  else s.rd F.SEC_SIGIDX_NEXT_INDEX

/-- SIG_BLOCK once the next signature has its index. -/
def State.nextBlock (s : State) : Nat :=
  if s.rd F.SEC_SIGIDX_NEXT_INDEX = 0xFFFFFFFF ∨ s.rd F.SEC_SIGIDX_NEXT_INDEX = 64 * s.sec.flash.sigBlock then s.sec.flash.sigBlock + 1
  else s.sec.flash.sigBlock

/-- The next index taken, its block reserved. -/
def State.indexTaken (s : State) : State :=
  ({ s with sec := { s.sec with flash := { s.sec.flash with sigBlock := s.nextBlock } } } : State).wr F.SEC_SIGIDX_NEXT_INDEX (s.nextIndex + 1)

theorem State.takeIndex_usable {s : State} (usable : s.exhausted = false) : s.takeIndex = some (s.nextIndex, s.indexTaken) := by
  unfold State.takeIndex State.indexTaken State.nextIndex State.nextBlock
  rw [usable, if_neg Bool.false_ne_true]
  dsimp only
  split <;> rfl

/-- A signature made over the message `msg` gives for the index used: an index and a token are taken, and the signature verifies from then on. -/
def State.signed (s : State) (msg : Nat → Bytes) : State :=
  let a := s.indexTaken.takeToken
  { a with sec := { a.sec with genuine :=
    a.sec.genuine ++ [(.owner a.sec.flash.idKey, msg s.nextIndex, slice (Config.xmssSign s.nextIndex (msg s.nextIndex)) 0 2820)] } }

section Sign
variable {s : State} (msg : Nat → Bytes)

theorem State.sign_signs (valid : s.on F.SEC_STATUS_ID_VALID = true) (usable : s.exhausted = false) (token : 1 ≤ s.rd F.SEC_SIGIDX_TOKENS) :
    s.sign msg = .inr (s.nextIndex, msg s.nextIndex, slice (Config.xmssSign s.nextIndex (msg s.nextIndex)) 0 2820, s.signed msg) := by
  have some_ : s.rd F.SEC_SIGIDX_TOKENS ≠ 0 := by omega
  unfold State.sign
  rw [valid, State.takeIndex_usable usable]
  simp only [Bool.not_true, Bool.false_eq_true, if_false, if_neg some_]
  rfl

theorem State.sign_noIdentity (invalid : s.on F.SEC_STATUS_ID_VALID = false) : s.sign msg = .inl 1 := by
  unfold State.sign
  rw [invalid]
  rfl

theorem State.sign_exhausted (valid : s.on F.SEC_STATUS_ID_VALID = true) (used : s.exhausted = true) : s.sign msg = .inl 2 := by
  unfold State.sign State.takeIndex
  rw [valid, used]
  rfl

theorem State.sign_limited (valid : s.on F.SEC_STATUS_ID_VALID = true) (usable : s.exhausted = false) (none_ : s.rd F.SEC_SIGIDX_TOKENS = 0) :
    s.sign msg = .inl 3 := by
  unfold State.sign
  rw [valid, State.takeIndex_usable usable]
  simp only [Bool.not_true, Bool.false_eq_true, if_false, if_pos none_]

/-- A taken token is one fewer, and nothing else of the registers or the flash changes (R472). -/
theorem State.takeToken_leaves (s : State) : s.takeToken.rd F.SEC_SIGIDX_TOKENS = (s.rd F.SEC_SIGIDX_TOKENS - 1) % 256 ∧
    s.takeToken.rd F.SEC_SIGIDX_NEXT_INDEX = s.rd F.SEC_SIGIDX_NEXT_INDEX ∧ s.takeToken.sec.flash = s.sec.flash ∧
    sameRegsBut [.SEC_SIGIDX] s s.takeToken ∧ s.takeToken = { s with regs := s.takeToken.regs, sec := s.takeToken.sec } := by
  have taken : ∃ time, s.takeToken =
      ({ s with sec := { s.sec with tokenAt := time } } : State).wr F.SEC_SIGIDX_TOKENS (s.rd F.SEC_SIGIDX_TOKENS - 1) := by
    unfold State.takeToken
    dsimp only
    split
    · exact ⟨_, rfl⟩
    · exact ⟨s.sec.tokenAt, rfl⟩
  obtain ⟨time, e⟩ := taken
  rw [e]
  refine ⟨State.rd_wr_same _ F.SEC_SIGIDX_TOKENS _ _ _, State.rd_wr_lsb _ _ _ _ _ _ _ _ (by decide), rfl, ?_, rfl⟩
  exact (sameRegsBut_refl [.SEC_SIGIDX] _).wr F.SEC_SIGIDX_TOKENS _ 0 0

/-- Of the flash a signature changes SIG_BLOCK alone (R473). -/
theorem State.flash_signed (s : State) (msg : Nat → Bytes) : (s.signed msg).sec.flash = { s.sec.flash with sigBlock := s.nextBlock } := by
  obtain ⟨_, _, flash, _, _⟩ := s.indexTaken.takeToken_leaves
  exact flash

/-- What a signature leaves: the next index, one token fewer, SIG_BLOCK, and everything outside the security block as it was. -/
theorem State.signed_leaves (few : s.rd F.SEC_SIGIDX_TOKENS ≤ 32) :
    (s.signed msg).rd F.SEC_SIGIDX_NEXT_INDEX = (s.nextIndex + 1) % 2 ^ 32 ∧
    (s.signed msg).rd F.SEC_SIGIDX_TOKENS = s.rd F.SEC_SIGIDX_TOKENS - 1 ∧
    (s.signed msg).sec.flash = { s.sec.flash with sigBlock := s.nextBlock } ∧
    sameRegsBut [.SEC_SIGIDX] s (s.signed msg) ∧ s.signed msg = { s with regs := (s.signed msg).regs, sec := (s.signed msg).sec } := by
  obtain ⟨tokens, index, _, regs, frame⟩ := s.indexTaken.takeToken_leaves
  have same : ∀ (f : Fld) (i j : Nat), (s.signed msg).rd f i j = s.indexTaken.takeToken.rd f i j := fun _ _ _ => rfl
  have indexRegs : sameRegsBut [.SEC_SIGIDX] s s.indexTaken :=
    (sameRegsBut_refl [.SEC_SIGIDX] ({ s with sec := _ } : State)).wr F.SEC_SIGIDX_NEXT_INDEX _ 0 0
  have kept : s.indexTaken.rd F.SEC_SIGIDX_TOKENS = s.rd F.SEC_SIGIDX_TOKENS := State.rd_wr_lsb _ _ _ _ _ _ _ _ (by decide)
  refine ⟨?_, ?_, s.flash_signed msg, fun f i j out => (same f i j).trans ((regs f i j out).trans (indexRegs f i j out)), ?_⟩
  · rw [same, index]
    exact State.rd_wr_same _ F.SEC_SIGIDX_NEXT_INDEX _ _ _
  · rw [same, tokens, kept]
    omega
  · unfold State.signed
    dsimp only
    rw [frame]
    rfl

end Sign

/-! ### Evidence and manifest signatures (R447, R474) -/

section Evidence
variable {s : State} {h : MbxHdr} (t : Nat) (w : takes s h)
include w

theorem exec_getEvidence_signs {nonce : Bytes} (length : nonce.length = 32) (pass : s.mbxCheck h { feat := some 3 } = none)
    (valid : s.on F.SEC_STATUS_ID_VALID = true) (usable : s.exhausted = false) (token : 1 ≤ s.rd F.SEC_SIGIDX_TOKENS) :
    exec (.getEvidence t (.mbx h) nonce) s = .next (((s.tick t).signed ((s.tick t).evidence nonce)).respond h 0
      ((s.tick t).evidence nonce s.nextIndex ++ slice (Config.xmssSign s.nextIndex ((s.tick t).evidence nonce s.nextIndex)) 0 2820)) := by
  have made := State.sign_signs (s := s.tick t) ((s.tick t).evidence nonce) valid usable token
  refine (exec_served w rfl pass (decide_eq_true length)).trans ?_
  unfold State.evidenceReply
  rw [made]
  rfl

theorem exec_getEvidence_fails {nonce : Bytes} {code : Nat} (length : nonce.length = 32) (pass : s.mbxCheck h { feat := some 3 } = none)
    (failed : (s.tick t).sign ((s.tick t).evidence nonce) = .inl code) :
    exec (.getEvidence t (.mbx h) nonce) s = .next ((s.tick t).respond h 9 ((s.tick t).signFail code)) := by
  refine (exec_served w rfl pass (decide_eq_true length)).trans ?_
  unfold State.evidenceReply
  rw [failed]

/-- The header of a durable manifest with SIGNED set. -/
def signedHeader (header : Bytes) : Bytes := header.take 5 ++ natLe 1 (leAt header 5 1 ||| 2) ++ header.drop 6

theorem exec_manifestSign_signs {header digest : Bytes} (headerLen : header.length = 128) (digestLen : digest.length = 32)
    (magic : slice header 0 4 = ascii "VMNF") (version : leAt header 4 1 = 1) (pass : s.mbxCheck h { feat := some 2 } = none)
    (valid : s.on F.SEC_STATUS_ID_VALID = true) (usable : s.exhausted = false) (token : 1 ≤ s.rd F.SEC_SIGIDX_TOKENS) :
    exec (.manifestSign t h header digest) s = .next (((s.tick t).signed (fun _ => signedHeader header ++ digest)).respond h 0
      (signedHeader header ++ slice (Config.xmssSign s.nextIndex (signedHeader header ++ digest)) 0 2820 ++ s.idDigest)) := by
  have made := State.sign_signs (s := s.tick t) (fun _ => signedHeader header ++ digest) valid usable token
  have same : ((s.tick t).signed (fun _ => signedHeader header ++ digest)).idDigest = s.idDigest := by
    unfold State.idDigest
    rw [State.flash_signed]
    rfl
  have fits : (decide (header.length = 128) && decide (digest.length = 32) && decide (slice header 0 4 = ascii "VMNF")
      && decide (leAt header 4 1 = 1)) = true := by
    simp [headerLen, digestLen, magic, version]
  unfold signedHeader at *
  refine (exec_served w rfl pass fits).trans ?_
  rw [made]
  dsimp only [okReply]
  rw [same]
  rfl

end Evidence

/-! ### The rate bucket (R472) -/

theorem exec_signatureTokenRefill_due {s : State} {t : Nat} (room : s.rd F.SEC_SIGIDX_TOKENS < 32)
    (due : s.sec.tokenAt + 360000000000 ≤ max s.now t) : exec (.signatureTokenRefill t) s =
      .next (({ s.tick t with sec := { s.sec with tokenAt := s.sec.tokenAt + 360000000000 } } : State).wr F.SEC_SIGIDX_TOKENS
        (s.rd F.SEC_SIGIDX_TOKENS + 1)) :=
  congrArg Host.Outcome.next (if_neg (not_or.mpr ⟨Nat.not_le.mpr room, Nat.not_lt.mpr due⟩))

theorem exec_signatureTokenRefill_idle {s : State} {t : Nat}
    (idle : 32 ≤ s.rd F.SEC_SIGIDX_TOKENS ∨ max s.now t < s.sec.tokenAt + 360000000000) : exec (.signatureTokenRefill t) s = .next (s.tick t) :=
  congrArg Host.Outcome.next (if_pos idle)

end Sys2Proof.Machine
end

section
/-!
PROOFS of the image statements (spec/11, 21): counters, ownership, debug scopes and root revocation (for O59).
-/

namespace Sys2Proof.Machine

/-! ### What each message does (R465 to R467, R475 to R478) -/

/-- The flash once a token has transferred ownership: the owner record written or cleared, OWNER_EPOCH one above (R476). -/
def FlashSt.transferred (f : FlashSt) (token : Bytes) : FlashSt :=
  { f with
    ownerKey := if allZero (slice token 48 64) then none else some (slice token 48 64),
    ownerPolicy := if allZero (slice token 48 64) then 0 else leAt token 44 1,
    ownerEpoch := f.ownerEpoch + 1 }

/-- The state once a token has unlocked scopes (R477). -/
def State.scopesOpened (s : State) (token : Bytes) : State :=
  (s.setFlash { s.sec.flash with debugCtr := s.sec.flash.debugCtr + 1 }).wr F.SEC_STATUS_DEBUG_SCOPE
    (s.rd F.SEC_STATUS_DEBUG_SCOPE ||| leAt token 44 1)

/-- The report of an unlock of scopes (R478). -/
def unlockReport (scope : Nat) : Report := { cls := 5, level := 1, master := 0x5D, source := 0x5D, aux := scope }

/-- The state once a token has unlocked its scopes, with the lapse that follows where it names one (R478). -/
def State.unlocked (s : State) (token : Bytes) : State :=
  if leAt token 44 1 = 0 then s.scopesOpened token else ((s.scopesOpened token).lapse 31).raise (unlockReport (leAt token 44 1))

/-- The key slots whose signature unlocks: the enrolled owner's, or a vendor root's while there is none (R477). -/
def FlashSt.unlockSlot (f : FlashSt) (k : Nat) : Bool := if f.ownerKey.isSome then decide (k = 128) else decide (k < 4)

/-- A commit raises the one counter that its kind names (R466). -/
theorem State.commitCounter_eq (s : State) {kind : Nat} (known : kind < 4) : s.commitCounter kind = s.setFlash { s.sec.flash with
    fwSv := (if kind = 0 then max s.sec.flash.fwSv ((s.sec.fw.map (fun x => x.secVersion)).getD 0) else s.sec.flash.fwSv),
    imgSv := (if kind = 1 then max s.sec.flash.imgSv ((s.img.act.map (fun x => x.hdr.secVersion)).getD 0) else s.sec.flash.imgSv),
    patchSv := (if kind = 2 then max s.sec.flash.patchSv s.img.patchSv else s.sec.flash.patchSv),
    trimSv := (if kind = 3 then max s.sec.flash.trimSv s.img.trimSv else s.sec.flash.trimSv) } :=
  match kind, known with
  | 0, _ | 1, _ | 2, _ | 3, _ => rfl

section Served
variable {s : State} {h : MbxHdr} (t : Nat) (w : takes s h) (pass : s.mbxCheck h { feat := some 3, mgmt := true } = none)
include w pass

theorem exec_counterCommit_served {kind : Nat} (known : kind < 4) :
    exec (.counterCommit t h kind) s = .next (((s.tick t).commitCounter kind).respond h 0 []) :=
  (exec_served w rfl pass (decide_eq_true known)).trans rfl

theorem exec_ownerTransfer_good {token : Bytes} (length : token.length = 2960)
    (good : s.tokenFault token "VOWN" s.sec.flash.ownerEpoch 3 112 (fun k => decide (k < 4)) = 0) :
    exec (.ownerTransfer t h token) s =
      .next ((((s.tick t).setFlash (s.sec.flash.transferred token)).wr F.SEC_STATUS_DEBUG_SCOPE 0).respond h 0 []) := by
  have good' : (s.tick t).tokenFault token "VOWN" (s.tick t).sec.flash.ownerEpoch 3 112 (fun k => decide (k < 4)) = 0 := good
  refine (exec_served w rfl pass (decide_eq_true length)).trans ?_
  dsimp only
  rw [good']
  unfold FlashSt.transferred
  cases allZero (slice token 48 64) <;> rfl

theorem exec_ownerTransfer_bad {token : Bytes} {k : Nat} (length : token.length = 2960)
    (bad : s.tokenFault token "VOWN" s.sec.flash.ownerEpoch 3 112 (fun k => decide (k < 4)) = k + 1) :
    exec (.ownerTransfer t h token) s = .next ((s.tick t).respond h 9 (natLe 4 (k + 1))) := by
  have bad' : (s.tick t).tokenFault token "VOWN" (s.tick t).sec.flash.ownerEpoch 3 112 (fun k => decide (k < 4)) = k + 1 := bad
  refine (exec_served w rfl pass (decide_eq_true length)).trans ?_
  dsimp only
  rw [bad', ← List.append_nil (natLe 4 (k + 1))]
  rfl

theorem exec_debugUnlock_good {token : Bytes} (length : token.length = 2960)
    (good : s.tokenFault token "VDBG" s.sec.flash.debugCtr 15 48 s.sec.flash.unlockSlot = 0) :
    exec (.debugUnlock t h token) s = .next (((s.tick t).unlocked token).respond h 0 []) := by
  have good' : (s.tick t).tokenFault token "VDBG" (s.tick t).sec.flash.debugCtr 15 48 (s.tick t).sec.flash.unlockSlot = 0 := good
  unfold FlashSt.unlockSlot at good'
  refine (exec_served w rfl pass (decide_eq_true length)).trans ?_
  dsimp only
  rw [good']
  rfl

theorem exec_debugUnlock_bad {token : Bytes} {k : Nat} (length : token.length = 2960)
    (bad : s.tokenFault token "VDBG" s.sec.flash.debugCtr 15 48 s.sec.flash.unlockSlot = k + 1) :
    exec (.debugUnlock t h token) s = .next ((s.tick t).respond h 9 (natLe 4 (k + 1))) := by
  have bad' : (s.tick t).tokenFault token "VDBG" (s.tick t).sec.flash.debugCtr 15 48 (s.tick t).sec.flash.unlockSlot = k + 1 := bad
  unfold FlashSt.unlockSlot at bad'
  refine (exec_served w rfl pass (decide_eq_true length)).trans ?_
  dsimp only
  rw [bad', ← List.append_nil (natLe 4 (k + 1))]
  rfl

theorem exec_debugLock_served : exec (.debugLock t h) s = .next (((s.tick t).wr F.SEC_STATUS_DEBUG_SCOPE 0).respond h 0 []) :=
  (exec_served w rfl pass rfl).trans rfl

/-- The signature of a revocation: by a vendor root that its own mask leaves in force (R467). -/
def State.revokeVerifies (s : State) (record : Bytes) : Bool :=
  s.blockVerifies record 1 (fun k => decide (k < 4) && !(leAt record 0 1).testBit k)

theorem exec_rootRevoke_good {record : Bytes} (length : record.length = 2833) (verifies : s.revokeVerifies record = true)
    (left : (s.sec.flash.revoked ||| leAt record 0 1) % 16 ≠ 15) (roots : leAt record 0 1 < 16) (zero : allZero (slice record 5 8) = true) :
    exec (.rootRevoke t h record) s =
      .next (((s.tick t).setFlash { s.sec.flash with revoked := s.sec.flash.revoked ||| leAt record 0 1 }).respond h 0 []) := by
  have verifies' : (s.tick t).blockVerifies record 1 (fun k => decide (k < 4) && !(leAt record 0 1).testBit k) = true := verifies
  have verified : ¬(!true) = true := nofun
  have formed : ¬(16 ≤ leAt record 0 1 ∨ (!allZero (slice record 5 8)) = true) := by simp [zero, roots]
  refine (exec_served w rfl pass (decide_eq_true length)).trans ?_
  dsimp only
  rw [verifies', if_neg verified, State.tick_sec, if_neg left, if_neg formed]
  rfl

theorem exec_rootRevoke_bad {record : Bytes} {code : Nat} (length : record.length = 2833)
    (bad : (code = 4 ∧ s.revokeVerifies record = false) ∨
      (code = 7 ∧ s.revokeVerifies record = true ∧ (s.sec.flash.revoked ||| leAt record 0 1) % 16 = 15) ∨
      (code = 8 ∧ s.revokeVerifies record = true ∧ (s.sec.flash.revoked ||| leAt record 0 1) % 16 ≠ 15 ∧
        (16 ≤ leAt record 0 1 ∨ allZero (slice record 5 8) = false))) :
    exec (.rootRevoke t h record) s = .next ((s.tick t).respond h 9 (natLe 4 code)) := by
  have verified : ¬(!true) = true := nofun
  have same : (s.tick t).blockVerifies record 1 (fun k => decide (k < 4) && !(leAt record 0 1).testBit k) = s.revokeVerifies record := rfl
  refine (exec_served w rfl pass (decide_eq_true length)).trans ?_
  dsimp only
  rw [same, State.tick_sec, ← List.append_nil (natLe 4 code)]
  rcases bad with ⟨rfl, forged⟩ | ⟨rfl, verifies, last⟩ | ⟨rfl, verifies, left, malformed⟩
  · rw [forged]
    rfl
  · rw [verifies, if_neg verified, if_pos last]
    rfl
  · have malformed' : 16 ≤ leAt record 0 1 ∨ (!allZero (slice record 5 8)) = true := malformed.imp_right (fun e => by rw [e]; rfl)
    rw [verifies, if_neg verified, if_neg left, if_pos malformed']
    rfl

end Served

end Sys2Proof.Machine
end

section
/-!
PROOFS of the image statements (spec/21): the lapse that an unlock of debug scopes brings (for O59).
-/

namespace Sys2Proof.Machine

/-! ### A lapse of every guarantee (R15, R478) -/

/-- One guarantee's part of a lapse: a HOLD bit that reads 1 is cleared and its LAPSED bit set. -/
def State.lapseOne (s : State) (mask : Nat) (e : Nat × Fld × Fld) : State :=
  if mask.testBit e.1 && s.on e.2.1 then ((s.wr e.2.1 0).wr e.2.2 1).vec .pf0 50 else s

/-- The guarantees a lapse goes through. -/
def guarantees : List (Nat × Fld × Fld) :=
  [(0, F.MGT_GUARANTEE_HOLD_CONSERVE, F.MGT_GUARANTEE_LAPSED_CONSERVE), (1, F.MGT_GUARANTEE_HOLD_REPLAY, F.MGT_GUARANTEE_LAPSED_REPLAY),
   (2, F.MGT_GUARANTEE_HOLD_RECOVERY, F.MGT_GUARANTEE_LAPSED_RECOVERY), (3, F.MGT_GUARANTEE_HOLD_SILENT, F.MGT_GUARANTEE_LAPSED_SILENT),
   (4, F.MGT_GUARANTEE_HOLD_VECTORS, F.MGT_GUARANTEE_LAPSED_VECTORS)]

theorem State.lapse_eq (s : State) (mask : Nat) : s.lapse mask = guarantees.foldl (fun s e => s.lapseOne mask e) s := rfl

theorem State.lapse_frame (s : State) (mask : Nat) :
    s.lapse mask = { s with regs := (s.lapse mask).regs, host := (s.lapse mask).host } := by
  rw [State.lapse_eq]
  refine foldl_related (fun a b : State => b = { a with regs := b.regs, host := b.host }) (fun _ => rfl) (fun a b c h h' => ?_)
    (fun a e => ?_) _ s
  · rw [h', h]
  · unfold State.lapseOne
    split <;> rfl

section Holds
variable {mask : Nat} {f : Fld}

/-- Whether a guarantee's part of a lapse writes field `f` as its HOLD bit alone. -/
abbrev holdsApart (f : Fld) (e : Nat × Fld × Fld) : Prop := e.2.2.lsb ≠ f.lsb ∧ (e.2.1 = f ∨ e.2.1.lsb ≠ f.lsb)

theorem State.rd_lapseOne_zero {s : State} {e : Nat × Fld × Fld} (apart : holdsApart f e)
    (h : s.rd f = 0 ∨ (e.2.1 = f ∧ mask.testBit e.1 = true)) : (s.lapseOne mask e).rd f = 0 := by
  obtain ⟨lapsed, hold⟩ := apart
  unfold State.lapseOne
  split
  · rw [State.rd_vec, State.rd_wr_lsb _ _ _ _ _ _ _ _ lapsed.symm]
    rcases hold with rfl | other
    · rw [State.rd_wr_same, Nat.zero_mod]
    · rw [State.rd_wr_lsb _ _ _ _ _ _ _ _ (Ne.symm other)]
      exact h.resolve_right (fun own => other (congrArg Fld.lsb own.1))
  · next idle =>
    rcases h with zero | ⟨rfl, bit⟩
    · exact zero
    · simpa [bit, State.on] using idle

/-- A HOLD bit that a list of guarantees names reads 0 once each of them has lapsed. -/
theorem State.hold_lapsed {l : List (Nat × Fld × Fld)} (mem : ∃ e ∈ l, e.2.1 = f ∧ mask.testBit e.1 = true)
    (apart : ∀ e ∈ l, holdsApart f e) (s : State) : (l.foldl (fun s e => s.lapseOne mask e) s).rd f = 0 := by
  induction l generalizing s with
  | nil => simp at mem
  | cons x l ih =>
    obtain ⟨first, rest⟩ := List.forall_mem_cons.mp apart
    rw [List.foldl_cons]
    obtain ⟨e, there, own⟩ := mem
    rcases List.mem_cons.mp there with rfl | later
    · exact List.foldlRecOn l _ (motive := fun a : State => a.rd f = 0) (State.rd_lapseOne_zero first (Or.inr own))
        (fun b kept y there => State.rd_lapseOne_zero (rest y there) (Or.inl kept))
    · exact ih ⟨e, later, own⟩ rest _

end Holds

/-- A lapse of all leaves no guarantee holding (R478). -/
theorem State.holds_lapse_all (s : State) : (s.lapse 31).rd F.MGT_GUARANTEE_HOLD_CONSERVE = 0 ∧
    (s.lapse 31).rd F.MGT_GUARANTEE_HOLD_REPLAY = 0 ∧ (s.lapse 31).rd F.MGT_GUARANTEE_HOLD_RECOVERY = 0 ∧
    (s.lapse 31).rd F.MGT_GUARANTEE_HOLD_SILENT = 0 ∧ (s.lapse 31).rd F.MGT_GUARANTEE_HOLD_VECTORS = 0 :=
  ⟨s.hold_lapsed (by decide) (by decide), s.hold_lapsed (by decide) (by decide), s.hold_lapsed (by decide) (by decide),
    s.hold_lapsed (by decide) (by decide), s.hold_lapsed (by decide) (by decide)⟩

/-! ### What an unlock leaves (R477, R478) -/

theorem State.scopesOpened_leaves (s : State) (token : Bytes) :
    (s.scopesOpened token).rd F.SEC_STATUS_DEBUG_SCOPE = (s.rd F.SEC_STATUS_DEBUG_SCOPE ||| leAt token 44 1) % 16 ∧
    sameRegsBut [.SEC_STATUS] s (s.scopesOpened token) :=
  ⟨State.rd_wr_same _ F.SEC_STATUS_DEBUG_SCOPE _ _ _,
    (sameRegsBut_refl [.SEC_STATUS] (s.setFlash _)).wr F.SEC_STATUS_DEBUG_SCOPE _ 0 0⟩

theorem State.unlocked_idle {s : State} {token : Bytes} (none_ : leAt token 44 1 = 0) : s.unlocked token = s.scopesOpened token := if_pos none_

theorem State.unlocked_lapses {s : State} {token : Bytes} (some_ : leAt token 44 1 ≠ 0) :
    s.unlocked token = ((s.scopesOpened token).lapse 31).raise (unlockReport (leAt token 44 1)) := if_neg some_

/-- The scopes an unlock opens; of the registers it touches those of the scopes and the guarantees alone. -/
theorem State.unlocked_leaves (s : State) (token : Bytes) :
    (s.unlocked token).rd F.SEC_STATUS_DEBUG_SCOPE = (s.rd F.SEC_STATUS_DEBUG_SCOPE ||| leAt token 44 1) % 16 ∧
    sameRegsBut [.SEC_STATUS, .MGT_GUARANTEE] s (s.unlocked token) ∧
    s.unlocked token = { s with
      regs := (s.unlocked token).regs, host := (s.unlocked token).host, fc := (s.unlocked token).fc,
      sec := { s.sec with flash := { s.sec.flash with debugCtr := s.sec.flash.debugCtr + 1 } } } := by
  obtain ⟨scope, opened⟩ := s.scopesOpened_leaves token
  obtain ⟨_, lapsed⟩ := (s.scopesOpened token).lapse_leaves 31
  by_cases none_ : leAt token 44 1 = 0
  · rw [State.unlocked_idle none_]
    exact ⟨scope, opened.weaken, rfl⟩
  · rw [State.unlocked_lapses none_]
    refine ⟨?_, fun f i j out => ?_, ?_⟩
    · rw [State.raise_rd, lapsed _ _ _ (by decide), scope]
    · rw [State.raise_rd]
      exact (opened.weaken.trans lapsed.weaken) f i j out
    · rw [State.raise_frame, State.lapse_frame]
      rfl

/-- Scopes that open end every guarantee, with one level 1 security fault (R478). -/
theorem State.unlocked_ends {s : State} {token : Bytes} (some_ : leAt token 44 1 ≠ 0) :
    (s.unlocked token).rd F.MGT_GUARANTEE_HOLD_CONSERVE = 0 ∧ (s.unlocked token).rd F.MGT_GUARANTEE_HOLD_REPLAY = 0 ∧
    (s.unlocked token).rd F.MGT_GUARANTEE_HOLD_RECOVERY = 0 ∧ (s.unlocked token).rd F.MGT_GUARANTEE_HOLD_SILENT = 0 ∧
    (s.unlocked token).rd F.MGT_GUARANTEE_HOLD_VECTORS = 0 ∧ (s.unlocked token).fc = (s.raise (unlockReport (leAt token 44 1))).fc := by
  have frame := (s.scopesOpened token).lapse_frame 31
  obtain ⟨_, opened⟩ := s.scopesOpened_leaves token
  obtain ⟨_, lapsed⟩ := (s.scopesOpened token).lapse_leaves 31
  have stage : ((s.scopesOpened token).lapse 31).stage = s.stage := (lapsed _ _ _ (by decide)).trans (opened _ _ _ (by decide))
  obtain ⟨conserve, replay, recovery, silent, vectors⟩ := (s.scopesOpened token).holds_lapse_all
  rw [State.unlocked_lapses some_]
  simp only [State.raise_rd]
  exact ⟨conserve, replay, recovery, silent, vectors, State.raise_fc_congr _ (by rw [frame]; rfl) (by rw [frame]; rfl) stage⟩

end Sys2Proof.Machine
end

section
/-!
PROOFS of the image statements (spec/11): what a patch loads and leaves (for O59).
-/

namespace Sys2Proof.Machine

/-! ### What loading a patch's records leaves (R262) -/

/-- The registers that show what became of an image or a patch. -/
def imageShown : List Reg := [.MGT_PATCH_SEQ, .MGT_IMAGE_STATUS]

/-- Memory, the images, the security block and the registers that show images and patches are as before. -/
structure keepsImages (s s' : State) : Prop where
  mem : s'.mem = s.mem
  img : s'.img = s.img
  sec : s'.sec = s.sec
  shown : ∀ (f : Fld) (i j : Nat), f.reg ∈ imageShown → s'.rd f i j = s.rd f i j

theorem keepsImages_refl (s : State) : keepsImages s s := ⟨rfl, rfl, rfl, fun _ _ _ _ => rfl⟩

theorem keepsImages.trans {a b c : State} (h : keepsImages a b) (h' : keepsImages b c) : keepsImages a c :=
  ⟨h'.mem.trans h.mem, h'.img.trans h.img, h'.sec.trans h.sec, fun f i j mem => (h'.shown f i j mem).trans (h.shown f i j mem)⟩

theorem keepsImages.wr {a b : State} (h : keepsImages a b) (f : Fld) (v i j : Nat) (other : f.reg ∉ imageShown := by decide) :
    keepsImages a (b.wr f v i j) :=
  h.trans ⟨rfl, rfl, rfl, fun g i' j' mem => b.rd_wr_reg f g v i j i' j' (fun e => other (e ▸ mem))⟩

theorem keepsImages_foldl_of_forall {α : Type} (P : α → Prop) {step : State → α → State} (h : ∀ s x, P x → keepsImages s (step s x))
    {l : List α} (all : ∀ x ∈ l, P x) (s : State) : keepsImages s (l.foldl step s) :=
  List.foldlRecOn l step (motive := keepsImages s) (keepsImages_refl s) (fun b kept x mem => kept.trans (h b x (all x mem)))

theorem keepsImages_foldl {α : Type} {step : State → α → State} (h : ∀ s x, keepsImages s (step s x)) (l : List α) (s : State) :
    keepsImages s (l.foldl step s) := keepsImages_foldl_of_forall (fun _ => True) (fun s x _ => h s x) (fun _ _ => trivial) s

theorem onlyRead.keepsImages {s s' : State} (h : onlyRead s s') : keepsImages s s' where
  mem := h.mem
  img := by rw [h.1]
  sec := by rw [h.1]
  shown f i j mem := h.2 f i j (fun trace => by revert trace mem; cases f.reg <;> decide)

theorem State.keepsImages_raise (s : State) (r : Report) : keepsImages s (s.raise r) := (s.onlyRead_raise r).keepsImages

/-- What the Gallery, the snapshot engines and the directory hold apart from registers shows no image. -/
theorem keepsImages_units (s : State) (gal : GalSt) (snp : List (Nat × SnapSt)) (ldir : List LdEntry) :
    keepsImages s { s with gal := gal, snp := snp, ldir := ldir } := ⟨rfl, rfl, rfl, fun _ _ _ _ => rfl⟩

theorem State.keepsImages_dropCores (s : State) (p : Nat) (r : PartRec) : keepsImages s (s.dropCores p r) :=
  keepsImages_foldl (fun s n => ((((keepsImages_refl s).wr F.MGT_BFY_CORE_ASSIGNED 0 n 0).wr F.MGT_BFY_CORE_PARTITION 0 n 0).wr
    F.MGT_BFY_CORE_STATE 0 n 0).wr F.MGT_BFY_CORE_FREQ_MHZ 0 n 0) _ s

theorem State.keepsImages_loadCores (s : State) (r : PartRec) : keepsImages s (s.loadCores r) := by
  unfold State.loadCores
  refine keepsImages_foldl (fun s n => ?_) _ s
  have assigned := ((keepsImages_refl s).wr F.MGT_BFY_CORE_ASSIGNED 1 n 0).wr F.MGT_BFY_CORE_PARTITION r.p n 0
  dsimp only
  split
  · exact (assigned.wr F.MGT_BFY_CORE_STATE 1 n 0).wr F.MGT_BFY_CORE_FREQ_MHZ _ n 0
  · exact assigned

theorem State.keepsImages_loadSpare (s : State) (r : SpareRec) (failed : List Nat) : keepsImages s (s.loadSpare r failed) := by
  unfold State.loadSpare
  refine keepsImages.trans (keepsImages.wr ?map F.AG_SPARE_SPARE_J r.spareJ r.g 0) (keepsImages_foldl (fun s j => ?role) _ _)
  case map =>
    refine keepsImages_foldl_of_forall (fun x : Fld × Nat => x.1.reg ∉ imageShown)
      (fun s x other => (keepsImages_refl s).wr x.1 x.2 r.g 0 other) (fun x mem => ?_) s
    have listed := (List.of_mem_zip mem).1
    revert listed
    generalize x.1 = f
    revert f
    decide
  case role =>
    dsimp only
    split <;> exact (((keepsImages_refl s).wr F.SPR_STATUS_ROLE _ _ 0).wr F.SPR_STATUS_LOGICAL _ _ 0).wr F.SPR_STATUS_LOGICAL_VALID _ _ 0

theorem State.keepsImages_showQuar (s : State) (p : Nat) : keepsImages s (s.showQuar p) := by
  unfold State.showQuar
  split <;> exact (((((keepsImages_refl s).wr F.GAL_QUAR_VALID _ p 0).wr F.GAL_QUAR_PHYS _ p 0).wr F.GAL_QUAR_BUCKET _ p 0).wr
    F.GAL_QUAR_QUEUED _ p 0).wr F.GAL_QUAR_STEP _ p 0

theorem State.keepsImages_endQuar (s : State) (p pa : Nat) : keepsImages s (s.endQuar p pa) :=
  keepsImages.trans (keepsImages_units s _ s.snp s.ldir) (State.keepsImages_showQuar _ p)

/-- A patch's spare record, when physical array `spare` was the spare before: whether it is used now. -/
def State.spareShown (s : State) (r : SpareRec) (spare : Nat) : State :=
  if s.rd F.SPR_STATUS_ROLE (17 * r.g + r.spareJ) = 2 then s.wr F.AG_SPARE_SPARE_USED 0 r.g
  else if s.rd F.SPR_STATUS_ROLE spare = 1 then s.wr F.AG_SPARE_SPARE_USED 1 r.g else s

theorem State.keepsImages_spareShown (s : State) (r : SpareRec) (spare : Nat) : keepsImages s (s.spareShown r spare) := by
  unfold State.spareShown
  split
  · exact (keepsImages_refl s).wr F.AG_SPARE_SPARE_USED 0 r.g 0
  · split
    · exact (keepsImages_refl s).wr F.AG_SPARE_SPARE_USED 1 r.g 0
    · exact keepsImages_refl s

/-- The campaign's note of the roles of a group's arrays, once a spare record is loaded. -/
def State.campRoles (s : State) (mine : List Nat) : State :=
  match s.gal.camp with
  | none => s
  | some c =>
    let roles := c.roles.map (fun e => if e.1 ∈ mine then (e.1, s.rd F.SPR_STATUS_ROLE e.1) else e)
    let s := (roles.filter (fun e => e.1 ∈ mine)).foldl (fun (s : State) e => s.wr F.SPR_STATUS_ROLE 4 e.1) s
    { s with gal := { s.gal with camp := some { c with roles := roles } } }

theorem State.keepsImages_campRoles (s : State) (mine : List Nat) : keepsImages s (s.campRoles mine) := by
  unfold State.campRoles
  split
  · exact keepsImages_refl s
  · exact (keepsImages_foldl (fun (s : State) (e : Nat × Nat) => (keepsImages_refl s).wr F.SPR_STATUS_ROLE 4 e.1 0) _ s).trans
      (keepsImages_units _ _ _ _)

theorem State.keepsImages_patchSpare (s : State) (p : Nat) (r : SpareRec) : keepsImages s (s.patchSpare p r) := by
  unfold State.patchSpare
  extract_lets mine before spare loaded ended shown _ again
  have roles : keepsImages s ended := (s.keepsImages_loadSpare r []).trans (keepsImages_foldl (fun a x => by
    split
    · exact ((keepsImages_refl a).wr F.SPR_STATUS_ROLE 5 x.1 0).trans (State.keepsImages_endQuar _ p x.1)
    · exact keepsImages_refl a) before loaded)
  have used : keepsImages ended shown := ended.keepsImages_spareShown r spare
  have echo : keepsImages shown again := by
    unfold again
    split
    · exact keepsImages_refl shown
    · exact keepsImages_units shown _ _ _
  exact ((roles.trans used).trans echo).trans (again.keepsImages_campRoles mine)

end Sys2Proof.Machine
end

section
/-!
PROOFS of the image statements (spec/11): what a patch that is applied leaves (for O59).
-/

namespace Sys2Proof.Machine

/-! ### The records a patch may hold (R262) -/

theorem State.keepsImages_flushCache (s : State) (p : Nat) : keepsImages s (s.flushCache p) := by
  unfold State.flushCache
  refine onlyRead.keepsImages ((onlyRead_foldl (fun a l => ?_) _ s).trans (onlyRead_memx _ _))
  split
  · exact a.onlyRead_regCharge p 1 0x50 128 false
  · exact onlyRead_refl a

theorem State.keepsImages_loadCup (s : State) (gs : List Nat) (r : CupRec) : keepsImages s (s.loadCup gs r) :=
  keepsImages_foldl (fun a g => ((keepsImages_refl a).wr F.CUP_SPLIT_PARTITION r.p g 0).wr F.CUP_SPLIT_CACHE_UNITS r.c g 0) gs s

theorem State.keepsImages_loadNum (s : State) (gs : List Nat) (r : NumRec) : keepsImages s (s.loadNum gs r) :=
  keepsImages_foldl (fun a g =>
    (((((((((keepsImages_refl a).wr F.AG_CONFIG_PARTITION _ g 0).wr F.AG_CONFIG_SQUARE_PERMIT _ g 0).wr F.AG_CONFIG_TALL_PERMIT _ g 0).wr
      F.AG_CONFIG_TALLER_PERMIT _ g 0).wr F.AG_CONFIG_WIDE_PERMIT _ g 0).wr F.AG_CONFIG_STRICT_PERMIT _ g 0).wr
      F.AG_RED_PERMIT_ARRIVAL_PERMIT _ g 0).wr F.AG_RED_PERMIT_ORDERED_PERMIT _ g 0).wr F.AG_RED_PERMIT_EXACT_PERMIT _ g 0 |>.wr
      F.AG_RED_PERMIT_REPLAY _ g 0) gs s

theorem State.keepsImages_loadReg (s : State) (r : RegRec) : keepsImages s (s.loadReg r) :=
  keepsImages_foldl (fun a k => ((keepsImages_refl a).wr F.BWG_CFG_RATE _ r.p k).wr F.BWG_CFG_DEPTH _ r.p k) (List.range 3) s

theorem State.keepsImages_loadDet (s : State) (r : DetRec) : keepsImages s (s.loadDet r) :=
  ((((((keepsImages_refl s).wr F.GAL_GOAL_ECHO_CEIL _ r.p 0).wr F.GAL_GOAL_TARGET_EXP _ r.p 0).wr F.GAL_GOAL_HORIZON _ r.p 0).wr
    F.GAL_GOAL_GALLERY _ r.p 0).wr F.GAL_GOAL_GOAL _ r.p 0).wr F.GAL_GOAL_H_EFF _ r.p 0

theorem State.keepsImages_loadTwin (s : State) (r : TwinRec) : keepsImages s (s.loadTwin r) := by
  have one (a : State) (k base l : Nat) (two : Bool) :
      keepsImages a (((a.wr F.SNP_MIRROR_BASE_FRAME base r.p k).wr F.SNP_MIRROR_L l r.p k).wrB F.SNP_MIRROR_TWO_SLOTS two r.p k) :=
    (((keepsImages_refl a).wr F.SNP_MIRROR_BASE_FRAME _ r.p k).wr F.SNP_MIRROR_L _ r.p k).wr F.SNP_MIRROR_TWO_SLOTS _ r.p k
  unfold State.loadTwin
  dsimp only
  split
  · exact (one s 0 _ _ _).trans (one _ 1 _ _ _)
  · exact (one s 0 _ _ _).trans (one _ 1 0 0 false)

theorem State.keepsImages_setSnap (s : State) (p : Nat) (x : SnapSt) : keepsImages s (s.setSnap p x) := keepsImages_units s s.gal _ s.ldir

/-- A patch's records loaded, section by section. -/
def State.patchLoaded (s : State) (q : Image) : State :=
  let p := q.hdr.patchPart
  let gs := s.groupsOf p
  let s := q.parts.foldl (fun (s : State) r => (s.dropCores p r).loadCores r) s
  let s := q.spares.foldl (fun (s : State) r => s.patchSpare p r) s
  let s := q.cups.foldl (fun (s : State) r => (s.flushCache p).loadCup gs r) s
  let s := q.nums.foldl (fun (s : State) r => s.loadNum gs r) s
  let s := q.regs.foldl State.loadReg s
  let s := q.dets.foldl State.loadDet s
  q.twins.foldl (fun (s : State) r => (s.loadTwin r).setSnap p { s.snap p with answers := [], mirrorsGood := false }) s

theorem State.keepsImages_patchLoaded (s : State) (q : Image) : keepsImages s (s.patchLoaded q) := by
  unfold State.patchLoaded
  extract_lets p gs parts spares cups nums regs dets
  have hparts : keepsImages s parts :=
    keepsImages_foldl (fun a r => (a.keepsImages_dropCores p r).trans (State.keepsImages_loadCores _ r)) _ s
  have hspares : keepsImages parts spares := keepsImages_foldl (fun a r => a.keepsImages_patchSpare p r) _ parts
  have hcups : keepsImages spares cups :=
    keepsImages_foldl (fun a r => (a.keepsImages_flushCache p).trans (State.keepsImages_loadCup _ gs r)) _ spares
  have hnums : keepsImages cups nums := keepsImages_foldl (fun a r => a.keepsImages_loadNum gs r) _ cups
  have hregs : keepsImages nums regs := keepsImages_foldl State.keepsImages_loadReg _ nums
  have hdets : keepsImages regs dets := keepsImages_foldl State.keepsImages_loadDet _ regs
  exact (((((hparts.trans hspares).trans hcups).trans hnums).trans hregs).trans hdets).trans
    (keepsImages_foldl (fun a r => (a.keepsImages_loadTwin r).trans (State.keepsImages_setSnap _ p _)) _ dets)

/-! ### A patch on record, and what follows (R261, R262, R478) -/

/-- Image `im` in force, the patch of bytes `b` on record. -/
def State.patchRecorded (s : State) (b : Bytes) (im : Image) : State :=
  let q := parseImage b
  let s : State := { s with img := { s.img with
    act := some im, patchSv := max s.img.patchSv q.hdr.secVersion, patchChain := shake256 (s.img.patchChain ++ shake256 (imgMsg b)) } }
  (s.wr F.MGT_PATCH_SEQ_SEQ q.hdr.patchSeq q.hdr.patchPart).inc F.MGT_PATCH_SEQ_APPLIED q.hdr.patchPart

/-- The directory and the guarantees follow a patch of partition `p`. -/
def State.patchFollowed (s : State) (p : Nat) : State := ((s.ldPatch p).coverage p).lapseFailed.setReady

theorem State.patchApply_eq (s : State) (b : Bytes) : s.patchApply b =
    (((s.patchLoaded (parseImage b)).patchRecorded b ((s.img.act.getD (parseImage b)).patched (parseImage b))).imgStatus 2 255
      (parseImage b).hdr.patchPart (0, 0, 0)).patchFollowed (parseImage b).hdr.patchPart := rfl

/-- A patch on record counts and sets its sequence number. -/
theorem State.rd_patchRecorded (s : State) (b : Bytes) (im : Image) :
    (s.patchRecorded b im).rd F.MGT_PATCH_SEQ_SEQ (parseImage b).hdr.patchPart = (parseImage b).hdr.patchSeq % 2 ^ 32 ∧
    (s.patchRecorded b im).rd F.MGT_PATCH_SEQ_APPLIED (parseImage b).hdr.patchPart =
      counted F.MGT_PATCH_SEQ_APPLIED (s.rd F.MGT_PATCH_SEQ_APPLIED (parseImage b).hdr.patchPart) 1 := by
  unfold State.patchRecorded
  extract_lets q img a
  constructor
  · unfold State.inc
    rw [State.rd_wr_lsb _ _ _ _ _ _ _ _ (by decide)]
    exact a.rd_wr_same F.MGT_PATCH_SEQ_SEQ q.hdr.patchSeq q.hdr.patchPart 0
  · rw [State.rd_inc_same, State.rd_wr_lsb _ _ _ _ _ _ _ _ (by decide)]
    rfl

theorem State.keepsImages_lapse (s : State) (mask : Nat) : keepsImages s (s.lapse mask) := by
  obtain ⟨mem, regs⟩ := s.lapse_leaves mask
  have frame := s.lapse_frame mask
  exact ⟨mem, by rw [frame], by rw [frame], fun f i j shown => regs f i j (fun held => by
    revert shown held
    cases f.reg <;> decide)⟩

theorem State.keepsImages_ldPatch (s : State) (p : Nat) : keepsImages s (s.ldPatch p) := by
  unfold State.ldPatch
  obtain ⟨⟨regs, ldir, e⟩, shown⟩ := s.ldUpdate_leaves 6 p true (fun ty i => decide (ty = 3) || (decide (ty = 0x30) && decide (i = p))
    || (ldGroup ty i).any (fun g => decide (s.partOf g = some p)) || decide (ty = 0x31))
  exact ⟨by rw [e], by rw [e], by rw [e], fun f i j image => shown f i j (fun dir => by
    revert image dir
    cases f.reg <;> decide)⟩

theorem State.keepsImages_coverage (s : State) (p : Nat) : keepsImages s (s.coverage p) := by
  unfold State.coverage
  split
  · exact (s.keepsImages_lapse 8).trans (State.keepsImages_raise _ _)
  · exact keepsImages_refl s

theorem State.keepsImages_lapseFailed (s : State) : keepsImages s s.lapseFailed := by
  unfold State.lapseFailed
  dsimp only
  refine keepsImages_foldl (fun a e => ?_) _ s
  split
  · exact (a.keepsImages_lapse _).trans (State.keepsImages_raise _ _)
  · exact keepsImages_refl a

theorem State.keepsImages_setReady (s : State) : keepsImages s s.setReady := by
  unfold State.setReady
  split
  · exact ((keepsImages_refl s).wr F.AON_READY_READY _ 0 0).wr F.AON_STAGE_JOB_READY _ 0 0
  · exact keepsImages_refl s

theorem State.keepsImages_patchFollowed (s : State) (p : Nat) : keepsImages s (s.patchFollowed p) :=
  (((s.keepsImages_ldPatch p).trans (State.keepsImages_coverage _ p)).trans (State.keepsImages_lapseFailed _)).trans
    (State.keepsImages_setReady _)

/-- What a patch that is applied leaves: the image in force, the partition's sequence number and count, and the result shown. -/
structure patchInForce (b : Bytes) (s s' : State) : Prop where
  act : s'.img.act = some ((s.img.act.getD (parseImage b)).patched (parseImage b))
  seq : s'.rd F.MGT_PATCH_SEQ_SEQ (parseImage b).hdr.patchPart = (parseImage b).hdr.patchSeq % 2 ^ 32
  applied : s'.rd F.MGT_PATCH_SEQ_APPLIED (parseImage b).hdr.patchPart =
    counted F.MGT_PATCH_SEQ_APPLIED (s.rd F.MGT_PATCH_SEQ_APPLIED (parseImage b).hdr.patchPart) 1
  result : s'.rd F.MGT_IMAGE_STATUS_RESULT = 0
  chain : s'.img.patchChain = shake256 (s.img.patchChain ++ shake256 (imgMsg b))
  sec : s'.sec = s.sec
  mem : s'.mem = s.mem

theorem State.patchInForce_patchApply (s : State) (b : Bytes) : patchInForce b s (s.patchApply b) := by
  rw [State.patchApply_eq]
  generalize new : (s.img.act.getD (parseImage b)).patched (parseImage b) = im
  have loaded := s.keepsImages_patchLoaded (parseImage b)
  generalize s.patchLoaded (parseImage b) = l at loaded
  obtain ⟨seq, applied⟩ := l.rd_patchRecorded b im
  obtain ⟨result, others, only⟩ := (l.patchRecorded b im).imgStatus_shows 2 255 (parseImage b).hdr.patchPart (0, 0, 0)
  have kept := ((l.patchRecorded b im).imgStatus 2 255 (parseImage b).hdr.patchPart (0, 0, 0)).keepsImages_patchFollowed
    (parseImage b).hdr.patchPart
  exact {
    act := by
      rw [kept.img, only, new]
      rfl
    seq := by rw [kept.shown _ _ _ (by decide), others _ _ _ (by decide), seq]
    applied := by rw [kept.shown _ _ _ (by decide), others _ _ _ (by decide), applied, loaded.shown _ _ _ (by decide)]
    result := (kept.shown _ _ _ (by decide)).trans result
    chain := by
      rw [kept.img, only, ← loaded.img]
      rfl
    sec := by
      rw [kept.sec, only, ← loaded.sec]
      rfl
    mem := by
      rw [kept.mem, only, ← loaded.mem]
      rfl }

/-- The read that fetched the patch is no part of what it leaves. -/
theorem patchInForce.after_read {b : Bytes} {s s₁ a : State} (force : patchInForce b s₁ a) (read : onlyRead s s₁) : patchInForce b s a := by
  obtain ⟨same, traces⟩ := read
  have img : s₁.img = s.img := by rw [same]
  exact {
    act := by rw [force.act, img]
    seq := force.seq
    applied := by rw [force.applied, traces _ _ _ (by decide)]
    result := force.result
    chain := by rw [force.chain, img]
    sec := by rw [force.sec, same]
    mem := by rw [force.mem, same] }

/-- Nor is the answer. -/
theorem patchInForce.answered {b : Bytes} {s a a' : State} {h : MbxHdr} {status : Nat} {data : Bytes} (force : patchInForce b s a)
    (reply : repliedWith h status data a a') : patchInForce b s a' where
  act := by rw [reply.frame, force.act]
  seq := (reply.regs _ _ _ (by decide)).trans force.seq
  applied := (reply.regs _ _ _ (by decide)).trans force.applied
  result := (reply.regs _ _ _ (by decide)).trans force.result
  chain := by rw [reply.frame, force.chain]
  sec := by rw [reply.frame, force.sec]
  mem := by rw [reply.frame, force.mem]

/-! ### PATCH_APPLY (R261, R262, R286) -/

section PatchServe
variable {s s₁ : State} {h : MbxHdr} {p addr len : Nat} {b : Bytes} (pass : s.mbxCheck h (patchSpec p len) = none)
include pass

theorem State.patchServe_fails {e : ImgErr} (read : s.devRead 4 0x58 p addr len = (none, b, false, s₁)) (bad : s₁.patchCheck b = some e) :
    s.patchServe h p addr len = (s₁.imgStatus 2 255 (leAt b 14 1 % 16) e).respond h 9 (natLe 4 e.1) := by
  unfold State.patchServe
  rw [pass, read]
  dsimp only
  rw [bad]
  dsimp only [failReply]
  rw [List.append_nil]

theorem State.patchServe_applies (read : s.devRead 4 0x58 p addr len = (none, b, false, s₁)) (good : s₁.patchCheck b = none)
    (awake : s₁.asleepOf (leAt b 14 1) = none) : s.patchServe h p addr len = (s₁.patchApply b).respond h 0 [] := by
  unfold State.patchServe
  rw [pass, read]
  dsimp only
  rw [good]
  dsimp only
  rw [awake]
  dsimp only [okReply]

/-- The state in which a patch of partition `q` waits for group `g` to wake, every sleeping group of the partition asked to. -/
def State.patchWaits (s : State) (h : MbxHdr) (p addr len q g : Nat) : State :=
  (((s.groupsOf q).foldl State.wakeRequest s).queueEvent g (.patch h p addr len)).wr F.MBX_STATUS_BUSY 1 h.m

theorem State.patchServe_waits {g : Nat} (read : s.devRead 4 0x58 p addr len = (none, b, false, s₁)) (good : s₁.patchCheck b = none)
    (asleep : s₁.asleepOf (leAt b 14 1) = some g) : s.patchServe h p addr len = s₁.patchWaits h p addr len (leAt b 14 1) g := by
  unfold State.patchServe
  rw [pass, read]
  dsimp only
  rw [good]
  dsimp only
  rw [asleep]
  rfl

theorem State.patchServe_unread {c : Option Nat} {bad : Bool} (read : s.devRead 4 0x58 p addr len = (c, b, bad, s₁))
    (spoiled : c ≠ none ∨ bad = true) :
    s.patchServe h p addr len = (s₁.imgStatus 2 255 0 (1, 0, 0)).respond h 9 (natLe 4 1) := by
  unfold State.patchServe
  rw [pass, read]
  cases c with
  | some code =>
    dsimp only [failReply]
    rw [List.append_nil]
  | none =>
    obtain rfl : bad = true := spoiled.resolve_left (absurd rfl)
    dsimp only [failReply]
    rw [List.append_nil]

end PatchServe

/-- A request that wakes groups adds to the wakes queued, and nothing else. -/
theorem State.wakeRequests_frame (s : State) (gs : List Nat) : gs.foldl State.wakeRequest s =
    { s with pwr := { s.pwr with wakeQ := (gs.foldl State.wakeRequest s).pwr.wakeQ } } := by
  refine foldl_related (fun a b : State => b = { a with pwr := { a.pwr with wakeQ := b.pwr.wakeQ } }) (fun _ => rfl)
    (fun a b c h h' => ?_) (fun a g => ?_) gs s
  · rw [h', h]
  · unfold State.wakeRequest
    dsimp only
    split <;> rfl

/-- A PATCH_APPLY that passes its checks is served from what the read of the patch gives. -/
theorem exec_patchApply_served {s : State} {h : MbxHdr} (t : Nat) {p addr len : Nat} (w : takes s h) (part : p < 16) (fits : len ≤ 262144)
    (pass : s.mbxCheck h { feat := some 0, mgmt := true, stage := stDome } = none) :
    exec (.patchApply t h p addr len) s = .next ((s.tick t).patchServe h p addr len) ∧
    (s.tick t).mbxCheck h (patchSpec p len) = none := by
  have inside : (decide (p < 16) && decide (len ≤ 262144)) = true := by simp [part, fits]
  refine ⟨exec_taken (serve := fun x => x.patchServe h p addr len) w rfl, ?_⟩
  unfold patchSpec
  rw [inside]
  exact pass

end Sys2Proof.Machine
end

section
/-!
PROOFS of the image statements (spec/11, 21): signatures, counters, ownership, debug scopes and patches (O59).
-/

namespace Sys2Proof.Machine

/-- Settles O59: each clause is the run of its message, and what the parts of that run leave. -/
theorem securityAndPatches : Obligations.SecurityAndPatches := by
  unfold Obligations.SecurityAndPatches
  refine ⟨?identity, ?identityAon, ?counters, ?countersAon, ?evidence, ?noEvidence, ?manifest, ?refill, ?noRefill, ?commit, ?owner, ?unlock,
    ?lock, ?revoke, ?noRevoke, ?patch, ?badPatch, ?sleeping, ?unread⟩
  case identity =>
    intro s t h w pass
    have reply := (s.tick t).repliedWith_respond h 0 s.identity
    have run : exec (.getIdentity t (.mbx h)) s = .next ((s.tick t).respond h 0 s.identity) := (exec_served w rfl pass rfl).trans rfl
    exact ⟨_, run, reply.answer, reply.regs, reply.frame_tick⟩
  case identityAon =>
    intro s t path aon up
    have spelled : natLe 1 0 ++ s.identity =
        natLe 1 0 ++ slice s.sec.flash.idKey 0 64 ++ shake256 s.sec.flash.idKey ++ s.sec.flash.endorsement := by
      simp only [State.identity, State.idDigest, List.append_assoc]
    exact ⟨_, exec_getIdentity_aon aon up, congrArg (fun b => (path, b) :: s.host.answers) spelled, rfl⟩
  case counters =>
    intro s t h w pass
    have reply := (s.tick t).repliedWith_respond h 0 s.counters
    have run : exec (.getCounters t (.mbx h)) s = .next ((s.tick t).respond h 0 s.counters) := (exec_served w rfl pass rfl).trans rfl
    exact ⟨_, run, reply.answer, reply.regs, reply.frame_tick⟩
  case countersAon =>
    intro s t path aon up
    exact ⟨_, exec_getCounters_aon aon up, rfl, rfl⟩
  case evidence =>
    intro s t n m nonce h w length pass valid usable token few index message
    obtain rfl : n = s.nextIndex := index
    subst message
    have reply := ((s.tick t).signed ((s.tick t).evidence nonce)).repliedWith_respond h 0 ((s.tick t).evidence nonce s.nextIndex ++
      slice (Config.xmssSign s.nextIndex ((s.tick t).evidence nonce s.nextIndex)) 0 2820)
    obtain ⟨next, tokens, flash, regs, frame⟩ := (s.tick t).signed_leaves ((s.tick t).evidence nonce) few
    refine ⟨_, exec_getEvidence_signs t w length pass valid usable token, reply.answer, ?_, ?_, ?_, ?_, ?_, ?_⟩
    · exact (reply.regs _ _ _ (by decide)).trans next
    · exact (reply.regs _ _ _ (by decide)).trans tokens
    · rw [reply.frame, flash]
      rfl
    · rw [reply.frame, flash]
      rfl
    · exact regs.weaken.trans reply.regs.weaken
    · exact reply.frame_sec (by rw [frame]; rfl)
  case noEvidence =>
    intro s t code nonce h w length pass failed
    have failed' : (s.tick t).sign ((s.tick t).evidence nonce) = .inl code := by
      rcases failed with ⟨rfl, invalid⟩ | ⟨rfl, valid, used⟩ | ⟨rfl, valid, usable, none_⟩
      · exact State.sign_noIdentity _ invalid
      · exact State.sign_exhausted _ valid used
      · exact State.sign_limited _ valid usable none_
    have reply := (s.tick t).repliedWith_respond h 9 ((s.tick t).signFail code)
    exact ⟨_, exec_getEvidence_fails t w length pass failed', reply.answer, reply.regs, reply.frame_tick⟩
  case manifest =>
    intro s t n m header digest h w headerLen digestLen magic version pass valid usable token few index signed
    obtain rfl : n = s.nextIndex := index
    obtain rfl : m = signedHeader header := signed
    have reply := ((s.tick t).signed (fun _ => signedHeader header ++ digest)).repliedWith_respond h 0 (signedHeader header ++
      slice (Config.xmssSign s.nextIndex (signedHeader header ++ digest)) 0 2820 ++ s.idDigest)
    obtain ⟨next, tokens, _, regs, frame⟩ := (s.tick t).signed_leaves (fun _ => signedHeader header ++ digest) few
    refine ⟨_, exec_manifestSign_signs t w headerLen digestLen magic version pass valid usable token, reply.answer, ?_, ?_,
      regs.weaken.trans reply.regs.weaken, reply.frame_sec (by rw [frame]; rfl)⟩
    · exact (reply.regs _ _ _ (by decide)).trans next
    · exact (reply.regs _ _ _ (by decide)).trans tokens
  case refill =>
    intro s t room due
    refine ⟨_, exec_signatureTokenRefill_due room due, ?_, rfl, ?_, rfl⟩
    · rw [State.rd_wr_same]
      exact Nat.mod_eq_of_lt (by change _ < 256; omega)
    · intro f i j other
      exact State.rd_wr_other _ _ _ _ _ _ _ _ (fun same => other (List.mem_singleton.mpr same))
  case noRefill =>
    intro s t idle
    exact exec_signatureTokenRefill_idle idle
  case commit =>
    intro s t kind h w known pass
    have reply := ((s.tick t).commitCounter kind).repliedWith_respond h 0 []
    refine ⟨_, exec_counterCommit_served t w pass known, reply.answer, ?_, reply.regs, reply.frame_sec rfl⟩
    rw [reply.frame]
    exact congrArg (fun x => x.sec.flash) ((s.tick t).commitCounter_eq known)
  case owner =>
    intro s t code token h w length pass good
    cases code with
    | zero =>
      have reply := (((s.tick t).setFlash (s.sec.flash.transferred token)).wr F.SEC_STATUS_DEBUG_SCOPE 0).repliedWith_respond h 0 []
      refine ⟨_, exec_ownerTransfer_good t w pass length good.symm, fun _ => ⟨reply.answer, ?_, ?_, ?_, ?_, ?_, ?_⟩, nofun,
        reply.frame_sec rfl⟩
      · exact (reply.regs _ _ _ (by decide)).trans (State.rd_wr_same _ _ _ _ _)
      · rw [reply.frame]; rfl
      · rw [reply.frame]; rfl
      · rw [reply.frame]; rfl
      · rw [reply.frame]; rfl
      · exact ((sameRegsBut_refl _ _).wr F.SEC_STATUS_DEBUG_SCOPE 0 0 0).trans reply.regs.weaken
    | succ k =>
      have reply := (s.tick t).repliedWith_respond h 9 (natLe 4 (k + 1))
      refine ⟨_, exec_ownerTransfer_bad t w pass length good.symm, nofun, fun _ => ⟨reply.answer, ?_, reply.regs⟩, reply.frame_sec rfl⟩
      rw [reply.frame]; rfl
  case unlock =>
    intro s t code token h w length pass good
    cases code with
    | zero =>
      have reply := ((s.tick t).unlocked token).repliedWith_respond h 0 []
      obtain ⟨scope, regs, frame⟩ := (s.tick t).unlocked_leaves token
      refine ⟨_, exec_debugUnlock_good t w pass length good.symm, fun _ => ⟨reply.answer, ?_, ?_, fun some_ => ?_, ?_⟩, nofun, ?_⟩
      · rw [reply.frame, frame]; rfl
      · exact (reply.regs _ _ _ (by decide)).trans scope
      · obtain ⟨conserve, replay, recovery, silent, vectors, fault⟩ := (s.tick t).unlocked_ends some_
        refine ⟨?_, ?_, ?_, ?_, ?_, unlockReport (leAt token 44 1), rfl, rfl, ?_⟩
        · exact (reply.regs _ _ _ (by decide)).trans conserve
        · exact (reply.regs _ _ _ (by decide)).trans replay
        · exact (reply.regs _ _ _ (by decide)).trans recovery
        · exact (reply.regs _ _ _ (by decide)).trans silent
        · exact (reply.regs _ _ _ (by decide)).trans vectors
        · rw [reply.frame]
          exact fault
      · exact regs.weaken.trans reply.regs.weaken
      · rw [reply.frame, frame]; rfl
    | succ k =>
      have reply := (s.tick t).repliedWith_respond h 9 (natLe 4 (k + 1))
      refine ⟨_, exec_debugUnlock_bad t w pass length good.symm, nofun, fun _ => ⟨reply.answer, ?_, ?_, reply.regs⟩, ?_⟩
      · rw [reply.frame]; rfl
      · rw [reply.frame]; rfl
      · rw [reply.frame]; rfl
  case lock =>
    intro s t h w pass
    have reply := ((s.tick t).wr F.SEC_STATUS_DEBUG_SCOPE 0).repliedWith_respond h 0 []
    refine ⟨_, exec_debugLock_served t w pass, reply.answer, ?_, fun f i j out other => ?_, ?_⟩
    · exact (reply.regs _ _ _ (by decide)).trans (State.rd_wr_same _ _ _ _ _)
    · exact (reply.regs f i j (by simpa using out)).trans (State.rd_wr_other _ _ _ _ _ _ _ _ other)
    · rw [reply.frame]; rfl
  case revoke =>
    intro s t mask record h w length pass named roots zero verifies left
    subst named
    have reply := ((s.tick t).setFlash { s.sec.flash with revoked := s.sec.flash.revoked ||| leAt record 0 1 }).repliedWith_respond h 0 []
    refine ⟨_, exec_rootRevoke_good t w pass length verifies left roots zero, reply.answer, ?_, reply.regs, reply.frame_sec rfl⟩
    rw [reply.frame]; rfl
  case noRevoke =>
    intro s t mask code record h w length pass named bad
    subst named
    have reply := (s.tick t).repliedWith_respond h 9 (natLe 4 code)
    exact ⟨_, exec_rootRevoke_bad t w pass length bad, reply.answer, reply.regs, reply.frame_tick⟩
  case patch =>
    intro s s₁ t p addr len b h w part fits pass read good awake
    obtain ⟨run, passed⟩ := exec_patchApply_served t w part fits pass (addr := addr)
    rw [State.patchServe_applies passed read good awake] at run
    have reply := (s₁.patchApply b).repliedWith_respond h 0 []
    have force := ((s₁.patchInForce_patchApply b).after_read (State.onlyRead_of_devRead read)).answered reply
    exact ⟨_, run, reply.answer, force.act, force.seq, force.applied, force.result, force.chain, force.sec, sameMem_of_mem force.mem⟩
  case badPatch =>
    intro s s₁ t p addr len b e h w part fits pass read bad
    obtain ⟨run, passed⟩ := exec_patchApply_served t w part fits pass (addr := addr)
    rw [State.patchServe_fails passed read bad] at run
    obtain ⟨same, _⟩ := State.onlyRead_of_devRead read
    obtain ⟨result, shown, only⟩ := s₁.imgStatus_shows 2 255 (leAt b 14 1 % 16) e
    have reply := (s₁.imgStatus 2 255 (leAt b 14 1 % 16) e).repliedWith_respond h 9 (natLe 4 e.1)
    refine ⟨_, run, reply.answer, ?_, (reply.regs _ _ _ (by decide)).trans result, shown.weaken.trans reply.regs.weaken, reply.sameMem ?_⟩
    · rw [reply.frame, only, same]; rfl
    · rw [only, same]; rfl
  case sleeping =>
    intro s s₁ t p addr len g b h w part fits pass read good asleep
    obtain ⟨run, passed⟩ := exec_patchApply_served t w part fits pass (addr := addr)
    rw [State.patchServe_waits passed read good asleep] at run
    obtain ⟨same, _⟩ := State.onlyRead_of_devRead read
    have asked := s₁.wakeRequests_frame (s₁.groupsOf (leAt b 14 1))
    refine ⟨_, run, State.rd_wr_same _ _ _ _ _, ?_, ?_, ?_, sameMem_of_mem ?_⟩
    all_goals
      unfold State.patchWaits
      rw [asked, same]
      rfl
  case unread =>
    intro s s₁ t p addr len b c bad h w part fits pass read spoiled
    obtain ⟨run, passed⟩ := exec_patchApply_served t w part fits pass (addr := addr)
    rw [State.patchServe_unread passed read spoiled] at run
    obtain ⟨same, _⟩ := State.onlyRead_of_devRead read
    obtain ⟨result, _, only⟩ := s₁.imgStatus_shows 2 255 0 (1, 0, 0)
    have reply := (s₁.imgStatus 2 255 0 (1, 0, 0)).repliedWith_respond h 9 (natLe 4 1)
    refine ⟨_, run, reply.answer, ?_, (reply.regs _ _ _ (by decide)).trans result, reply.sameMem ?_⟩
    · rw [reply.frame, only, same]; rfl
    · rw [only, same]; rfl

end Sys2Proof.Machine
end

section
/-!
PROOFS of the directory statements (spec/12, 13): what a release of PERST# and a configuration request do, and when the latter is completed
(for O9).
-/

namespace Sys2Proof.Machine

/-! ### A release of PERST# (R294, R299, R472) -/

/-- The link's training leaves everything but the link's register. -/
theorem State.linkTrained_leaves (s : State) (rate width : Nat) :
    sameRegsBut [.PCI_LINK] s (s.linkTrained rate width) ∧ onlyRegs s (s.linkTrained rate width) := by
  unfold State.linkTrained
  split
  · exact ⟨(((sameRegsBut_refl _ s).wr F.PCI_LINK_RATE rate 0 0).wr F.PCI_LINK_WIDTH width 0 0).wr F.PCI_LINK_FLIT _ 0 0, rfl⟩
  · exact ⟨sameRegsBut_refl _ s, rfl⟩

/-- The token bucket is full once the seal has been tried (R472). -/
theorem State.tokens_openSeal (s : State) (b : Bool) : (s.openSeal b).rd F.SEC_SIGIDX_TOKENS = 32 := by
  have filled : ((s.wrB F.SEC_STATUS_ID_VALID b).wr F.SEC_SIGIDX_TOKENS 32).rd F.SEC_SIGIDX_TOKENS = 32 :=
    State.rd_wr_same _ F.SEC_SIGIDX_TOKENS 32 0 0
  unfold State.openSeal
  dsimp only
  split
  · exact filled
  · exact (State.raise_rd _ _ _ _ _).trans filled

/-- A warm start fills the token bucket and takes its time as t0 (R294, R472). -/
theorem State.warmStart_begins (s : State) (b : Bool) :
    (s.warmStart b).rd F.SEC_SIGIDX_TOKENS = 32 ∧ (s.warmStart b).pwr = { s.pwr with t0 := s.now } := by
  let begun : State := { s with pwr := { s.pwr with t0 := s.now } }
  let shown : State := (begun.wr F.AON_STAGE_WARM 1).wr F.AON_STAGE_MS_FOOTING (begun.msSince begun.pwr.auxAt)
  obtain ⟨-, -, -, sealFrame⟩ := shown.openSeal_leaves b
  obtain ⟨⟨_, _, dirFrame⟩, dirRegs⟩ := (shown.openSeal b).ldUpdate_leaves 1 0 false (fun _ _ => true)
  have whole : s.warmStart b = (shown.openSeal b).ldUpdate 1 0 false (fun _ _ => true) := rfl
  rw [whole]
  constructor
  · rw [dirRegs _ _ _ (by decide), State.tokens_openSeal]
  · rw [dirFrame, sealFrame]
    rfl

/-- PERST# is released at the state's time. -/
def State.perstReleased (s : State) : State :=
  { s with pwr := { s.pwr with perst := false, perstRel := some s.now, warmHeld := false } }

theorem exec_perstRelease_warm {s : State} (t : Nat) (b : Bool) (rate width : Nat) (aux : s.on F.PWR_STATUS_AUX_VALID = true)
    (held : s.pwr.warmHeld = true) :
    exec (.perstRelease t b rate width) s = .next (((s.tick t).perstReleased.warmStart b).linkTrained rate width) := by
  refine congrArg Host.Outcome.next ((if_pos aux).trans ?_)
  rw [State.tick_pwr, if_pos held]
  rfl

theorem exec_perstRelease_notWarm {s : State} (t : Nat) (b : Bool) (rate width : Nat) (aux : s.on F.PWR_STATUS_AUX_VALID = true)
    (free : s.pwr.warmHeld = false) :
    exec (.perstRelease t b rate width) s = .next ((s.tick t).perstReleased.linkTrained rate width) := by
  refine congrArg Host.Outcome.next ((if_pos aux).trans ?_)
  rw [State.tick_pwr, if_neg (Bool.eq_false_iff.mp free)]
  rfl

/-! ### Configuration requests (R276, R295) -/

/-- At a command's time, configuration requests are completed exactly from 100 ms after the release of PERST# on. -/
theorem State.configUp_tick {s : State} (t : Nat) {r : Nat} (aux : s.on F.PWR_STATUS_AUX_VALID = true) (perst : s.pwr.perst = false)
    (released : s.pwr.perstRel = some r) : (s.tick t).configUp = decide (r + 100000000 ≤ max s.now t) := by
  rw [State.configUp, State.tick_on, aux, State.tick_pwr, perst, released, Option.any_some, Bool.not_false, Bool.true_and, Bool.true_and]
  exact congrArg (fun now => decide (r + 100000000 ≤ now)) (s.tick_now t)

/-- The answer that tells the host to retry (R295). -/
theorem exec_configurationRequest_retry {s : State} (t : Nat) {fn : Fn} (reg : CfgReg) (w : Option Nat) (there : fnOk fn = true)
    (aux : s.on F.PWR_STATUS_AUX_VALID = true) (early : (s.tick t).configUp = false) :
    exec (.configurationRequest t fn reg w) s = .next { s.tick t with host := { s.host with cfgRetry := true } } := by
  change execConfigurationRequest t fn reg w s = _
  simp [execConfigurationRequest, there, aux, early]

/-- A request is completed, not told to retry. -/
def State.cfgCompleted (s : State) : State := { s with host := { s.host with cfgRetry := false } }

theorem exec_configurationRequest_write {s : State} (t : Nat) {fn : Fn} (reg : CfgReg) (v : Nat) (there : fnOk fn = true)
    (aux : s.on F.PWR_STATUS_AUX_VALID = true) (up : (s.tick t).configUp = true) :
    exec (.configurationRequest t fn reg (some v)) s = .next ((s.tick t).cfgCompleted.cfgWrite fn reg v) := by
  change execConfigurationRequest t fn reg (some v) s = _
  simp [execConfigurationRequest, there, aux, up, State.cfgCompleted]

theorem exec_configurationRequest_read {s : State} (t : Nat) {fn : Fn} (reg : CfgReg) (there : fnOk fn = true)
    (aux : s.on F.PWR_STATUS_AUX_VALID = true) (up : (s.tick t).configUp = true) :
    exec (.configurationRequest t fn reg none) s =
      .next (((s.tick t).cfgCompleted.cfgRead fn reg).2.withReadBack ((s.tick t).cfgCompleted.cfgRead fn reg).1) := by
  change execConfigurationRequest t fn reg none s = _
  simp [execConfigurationRequest, there, aux, up, State.cfgCompleted, State.withReadBack]

end Sys2Proof.Machine
end

section
/-!
PROOFS of the directory statements (spec/12, 13): the firmware that runs at Drum, and the stage held before it (O9).
-/

namespace Sys2Proof.Machine

/-! ### The stage and what holds it (R294, R296) -/

/-- A stage held for a reason shows it, and stays (R296). -/
theorem State.hold_shows (s : State) {reason : Nat} (code : reason < 256) :
    (s.hold reason).rd F.AON_STAGE_HOLD_REASON = reason ∧ (s.hold reason).rd F.AON_STAGE_STAGE = s.rd F.AON_STAGE_STAGE := by
  unfold State.hold
  split
  · next shown => exact ⟨shown, rfl⟩
  · rw [State.raise_rd, State.raise_rd]
    exact ⟨(State.rd_wr_same _ F.AON_STAGE_HOLD_REASON _ _ _).trans (Nat.mod_eq_of_lt code), State.rd_wr_lsb _ _ _ _ _ _ _ _ (by decide)⟩

/-- The stage set is the stage shown. -/
theorem State.rd_setStage_stage (s : State) {v : Nat} (code : v < 8) : (s.setStage v).rd F.AON_STAGE_STAGE = v := by
  unfold State.setStage
  split
  · assumption
  · rw [State.inBand_rd, State.vec_rd]
    exact (State.rd_wr_same _ F.AON_STAGE_STAGE _ _ _).trans (Nat.mod_eq_of_lt code)

/-- A change of the stage leaves every field that is not at its bits. -/
theorem State.rd_setStage_lsb (s : State) (v : Nat) (f : Fld) (i j : Nat) (h : f.lsb ≠ 16) : (s.setStage v).rd f i j = s.rd f i j := by
  unfold State.setStage
  split
  · rfl
  · rw [State.inBand_rd, State.vec_rd]
    exact State.rd_wr_lsb _ F.AON_STAGE_STAGE _ _ _ _ _ _ h

/-- The second state differs from the first in HNG_SLOT and in the dump slots alone. -/
def onlyDumps (s s' : State) : Prop := sameRegsBut [.HNG_SLOT] s s' ∧ ∃ regs dumps, s' = { s with regs := regs, dumps := dumps }

theorem onlyDumps.trans {a b c : State} (h : onlyDumps a b) (h' : onlyDumps b c) : onlyDumps a c := by
  obtain ⟨regs, _, _, frame⟩ := h
  obtain ⟨regs', _, _, frame'⟩ := h'
  exact ⟨regs.trans regs', _, _, by rw [frame', frame]⟩

theorem State.onlyDumps_showDump (s : State) (k : Nat) (valid : Bool) : onlyDumps s (s.showDump k valid) := by
  let x : State := { s with dumps := s.dumps.set k { s.dumps.getD k {} with valid := valid } }
  have begun : sameRegsBut [.HNG_SLOT] s x := fun _ _ _ _ => rfl
  have frame : onlyRegs x (s.showDump k valid) := ((((((onlyRegs_refl x).wr F.HNG_SLOT_VALID _ k 0).wr F.HNG_SLOT_LIMIT _ k 0).wr
    F.HNG_SLOT_PARTITION _ k 0).wr F.HNG_SLOT_CAUSE _ k 0).wr F.HNG_SLOT_UNREADABLE _ k 0).wr F.HNG_SLOT_DUMP_SEQ _ k 0
  exact ⟨(((((begun.wr F.HNG_SLOT_VALID _ k 0).wr F.HNG_SLOT_LIMIT _ k 0).wr F.HNG_SLOT_PARTITION _ k 0).wr F.HNG_SLOT_CAUSE _ k 0).wr
    F.HNG_SLOT_UNREADABLE _ k 0).wr F.HNG_SLOT_DUMP_SEQ _ k 0, _, _, frame⟩

/-- The check of the dump slots changes what is shown of them and nothing else (R454). -/
theorem State.onlyDumps_dumpCheck (s : State) : onlyDumps s s.dumpCheck := by
  refine foldl_related onlyDumps (fun a => ⟨sameRegsBut_refl _ a, _, _, rfl⟩) (fun _ _ _ => onlyDumps.trans) (fun a k => ?_) (List.range 4) s
  split
  · exact a.onlyDumps_showDump k true
  · exact ⟨(sameRegsBut_refl [.HNG_SLOT] a).wr F.HNG_SLOT_VALID 0 k 0, _, _, rfl⟩

/-! ### Firmware that runs (R468) -/

/-- The management core begins to run image `fw` (R468). -/
def State.fwBegun (s : State) (fw : FwRun) : State :=
  { s with sec := { s.sec with fw := some fw }, host := { s.host with kickAt := s.now } }

/-- The registers show the key slot and the cosignature of the firmware that runs (R468). -/
def State.fwKeyShown (s : State) (slot : Nat) (cos : Bool) : State :=
  ((s.wrB F.SEC_STATUS_FW_OWNER (slot = 128)).wr F.SEC_STATUS_FW_ROOT (if slot = 128 then 0 else slot)).wrB F.SEC_STATUS_FW_COSIGNED cos

theorem State.fwKeyShown_leaves (s : State) (slot : Nat) (cos : Bool) : onlyRegs s (s.fwKeyShown slot cos) ∧
    (s.fwKeyShown slot cos).on F.SEC_STATUS_FW_OWNER = decide (slot = 128) := by
  refine ⟨(((onlyRegs_refl s).wr F.SEC_STATUS_FW_OWNER _ 0 0).wr F.SEC_STATUS_FW_ROOT _ 0 0).wr F.SEC_STATUS_FW_COSIGNED _ 0 0, ?_⟩
  unfold State.fwKeyShown State.on
  rw [State.wrB, State.rd_wr_lsb _ _ _ _ _ _ _ _ (by decide), State.rd_wr_lsb _ _ _ _ _ _ _ _ (by decide)]
  exact State.on_wrB_same s F.SEC_STATUS_FW_OWNER _ 0 0 rfl

/-- The functions that firmware brings up, the hold at an end, and the time to Drum (R294, R296). -/
def State.fwFunctions (s : State) : State :=
  ((((s.wr F.AON_STAGE_FIRMWARE 1).wr F.AON_STAGE_MAILBOX 1).wr F.AON_STAGE_TELEMETRY 1).wr F.AON_STAGE_HOLD_REASON 0).wr
    F.AON_STAGE_MS_DRUM (s.msSince s.pwr.t0)

theorem State.fwFunctions_leaves (s : State) : onlyRegs s s.fwFunctions ∧ sameRegsBut [.AON_STAGE, .AON_STAGE_MS] s s.fwFunctions :=
  ⟨(((((onlyRegs_refl s).wr F.AON_STAGE_FIRMWARE 1 0 0).wr F.AON_STAGE_MAILBOX 1 0 0).wr F.AON_STAGE_TELEMETRY 1 0 0).wr
      F.AON_STAGE_HOLD_REASON 0 0 0).wr F.AON_STAGE_MS_DRUM _ 0 0,
    (((((sameRegsBut_refl [.AON_STAGE, .AON_STAGE_MS] s).wr F.AON_STAGE_FIRMWARE 1 0 0).wr F.AON_STAGE_MAILBOX 1 0 0).wr
      F.AON_STAGE_TELEMETRY 1 0 0).wr F.AON_STAGE_HOLD_REASON 0 0 0).wr F.AON_STAGE_MS_DRUM _ 0 0⟩

theorem State.fwFunctions_shows (s : State) : s.fwFunctions.rd F.AON_STAGE_FIRMWARE = 1 ∧ s.fwFunctions.rd F.AON_STAGE_MAILBOX = 1 ∧
    s.fwFunctions.rd F.AON_STAGE_TELEMETRY = 1 ∧ s.fwFunctions.rd F.AON_STAGE_HOLD_REASON = 0 := by
  unfold State.fwFunctions
  refine ⟨?_, ?_, ?_, ?_⟩
  all_goals
    repeat rw [State.rd_wr_other _ _ _ _ _ _ _ _ (by decide)]
    exact State.rd_wr_same _ _ _ 0 0

/-- The state at Drum, before the directory and the dump slots follow (R468). -/
def State.drumReached (s : State) (fw : FwRun) (slot : Nat) (cos : Bool) : State :=
  ((s.fwBegun fw).fwKeyShown slot cos).fwFunctions.setStage stDrum

theorem State.drumReached_shows (s : State) (fw : FwRun) (slot : Nat) (cos : Bool) :
    (s.drumReached fw slot cos).rd F.AON_STAGE_STAGE = 2 ∧ (s.drumReached fw slot cos).rd F.AON_STAGE_FIRMWARE = 1 ∧
    (s.drumReached fw slot cos).rd F.AON_STAGE_MAILBOX = 1 ∧ (s.drumReached fw slot cos).rd F.AON_STAGE_TELEMETRY = 1 ∧
    (s.drumReached fw slot cos).rd F.AON_STAGE_HOLD_REASON = 0 ∧
    (s.drumReached fw slot cos).on F.SEC_STATUS_FW_OWNER = decide (slot = 128) := by
  obtain ⟨firmware, mailbox, telemetry, free⟩ := ((s.fwBegun fw).fwKeyShown slot cos).fwFunctions_shows
  obtain ⟨-, owner⟩ := (s.fwBegun fw).fwKeyShown_leaves slot cos
  obtain ⟨-, regs⟩ := ((s.fwBegun fw).fwKeyShown slot cos).fwFunctions_leaves
  unfold State.drumReached
  refine ⟨State.rd_setStage_stage _ (by decide), (State.rd_setStage_lsb _ _ _ _ _ (by decide)).trans firmware,
    (State.rd_setStage_lsb _ _ _ _ _ (by decide)).trans mailbox, (State.rd_setStage_lsb _ _ _ _ _ (by decide)).trans telemetry,
    (State.rd_setStage_lsb _ _ _ _ _ (by decide)).trans free, ?_⟩
  unfold State.on at owner ⊢
  rw [State.rd_setStage_reg _ _ _ _ _ (by decide), regs _ _ _ (by decide), owner]

/-- Of everything but registers and the host link, only the firmware that runs changes at Drum. -/
theorem State.drumReached_frame (s : State) (fw : FwRun) (slot : Nat) (cos : Bool) :
    ∃ regs host, s.drumReached fw slot cos = { s with regs := regs, host := host, sec := { s.sec with fw := some fw } } := by
  obtain ⟨m, h, staged⟩ := (((s.fwBegun fw).fwKeyShown slot cos).fwFunctions).setStage_eq stDrum
  obtain ⟨functions, -⟩ := ((s.fwBegun fw).fwKeyShown slot cos).fwFunctions_leaves
  obtain ⟨key, -⟩ := (s.fwBegun fw).fwKeyShown_leaves slot cos
  refine ⟨m, h, staged.trans ?_⟩
  rw [functions, key]
  rfl

/-- The directory and the dump slots that follow at Drum change their own registers, the directory's entries and the slots alone. -/
theorem State.drumFollows (s : State) : sameRegsBut [.LDIR_GEN, .LDIR_LAST_NS, .LDIR_CAUSE, .HNG_SLOT] s s.ldDrum.dumpCheck ∧
    ∃ regs ldir dumps, s.ldDrum.dumpCheck = { s with regs := regs, ldir := ldir, dumps := dumps } := by
  obtain ⟨⟨_, _, dirFrame⟩, dirRegs⟩ := s.ldUpdate_leaves 2 0 false (fun ty _ => decide (ty = 2 ∨ ty = 0x61))
  obtain ⟨slotRegs, _, _, slotFrame⟩ := s.ldDrum.onlyDumps_dumpCheck
  have entries : s.ldDrum = s.ldUpdate 2 0 false (fun ty _ => decide (ty = 2 ∨ ty = 0x61)) := rfl
  refine ⟨(entries ▸ dirRegs).weaken.trans slotRegs.weaken, ?_⟩
  rw [slotFrame, entries, dirFrame]
  exact ⟨_, _, _, rfl⟩

/-! ### FIRMWARE_AUTHENTICATE (R296, R468) -/

/-- The reason for which a latch holds the stage (R296). -/
def State.latchReason (s : State) : Nat := if s.on F.PWR_STATUS_SEQ_VIOL then 2 else if s.on F.PWR_STATUS_TRIP then 3 else 8

/-- What the boot ROM does with its choice of image: it runs, or there is none and the stage is held (R468). -/
def State.booted (s : State) : State :=
  match s.bootChoice with
  | none => s.hold 4
  | some (k, v, sv, slot, cos, dig) =>
    (s.drumReached { slot := k, version := v, secVersion := sv, digest := dig } slot cos).ldDrum.dumpCheck

/-- What an attempt to leave Footing makes of the state: a hold by a latch or by converters that are off, or what the boot ROM does (R296). -/
def State.footingLeft (s : State) : State :=
  if s.on F.PWR_STATUS_SEQ_VIOL then s.hold 2
  else if s.on F.PWR_STATUS_TRIP then s.hold 3
  else if s.on F.PWR_STATUS_RAIL_FAULT then s.hold 8
  else if !s.on F.PWR_STATUS_CONV_ON then s.hold 1
  else s.booted

/-- A device that stands at Footing, out of reset, without firmware and not held for want of it, tries to leave Footing. -/
theorem exec_firmwareAuthenticate_footing {s : State} (t : Nat) (footing : s.stage = stFooting) (perst : s.pwr.perst = false)
    (idle : s.fwUp = false) (due : s.heldFor [4] = false) : exec (.firmwareAuthenticate t) s = .next (s.tick t).footingLeft := by
  have tries : ¬ ((s.tick t).stage ≠ stFooting ∨ (s.tick t).pwr.perst = true ∨ (s.tick t).fwUp = true ∨ (s.tick t).heldFor [4] = true) := by
    rintro (stage | reset | runs | held)
    · exact stage footing
    · exact Bool.false_ne_true (perst.symm.trans reset)
    · exact Bool.false_ne_true (idle.symm.trans runs)
    · exact Bool.false_ne_true (due.symm.trans held)
  change execFirmwareAuthenticate t s = _
  unfold execFirmwareAuthenticate State.footingLeft State.booted
  rw [if_neg tries]
  simp only [apply_ite Host.Outcome.next]
  cases (s.tick t).bootChoice <;> rfl

theorem State.footingLeft_latched {s : State} (latched : s.latched = true) : s.footingLeft = s.hold s.latchReason := by
  unfold State.footingLeft State.latchReason
  by_cases violated : s.on F.PWR_STATUS_SEQ_VIOL = true
  · rw [if_pos violated, if_pos violated]
  rw [if_neg violated, if_neg violated]
  by_cases tripped : s.on F.PWR_STATUS_TRIP = true
  · rw [if_pos tripped, if_pos tripped]
  rw [if_neg tripped, if_neg tripped, if_pos]
  simpa [State.latched, violated, tripped] using latched

theorem State.footingLeft_powered {s : State} (free : s.latched = false) (on : s.on F.PWR_STATUS_CONV_ON = true) : s.footingLeft = s.booted := by
  obtain ⟨⟨trip, violated⟩, rail⟩ : (s.on F.PWR_STATUS_TRIP = false ∧ s.on F.PWR_STATUS_SEQ_VIOL = false) ∧
      s.on F.PWR_STATUS_RAIL_FAULT = false := by
    simpa [State.latched] using free
  simp [State.footingLeft, trip, violated, rail, on]

theorem State.booted_none {s : State} (choice : s.bootChoice = none) : s.booted = s.hold 4 := by
  rw [State.booted, choice]

theorem State.booted_some {s : State} {k v sv slot : Nat} {cos : Bool} {dig : Bytes} (choice : s.bootChoice = some (k, v, sv, slot, cos, dig)) :
    s.booted = (s.drumReached { slot := k, version := v, secVersion := sv, digest := dig } slot cos).ldDrum.dumpCheck := by
  rw [State.booted, choice]

end Sys2Proof.Machine
end

section
/-!
PROOFS of the directory statements (spec/12, 13): PERST# release, configuration requests and firmware authentication (O9).
-/

namespace Sys2Proof.Machine

/-- Settles O9: each clause is one branch of its command, and what that branch shows and leaves. -/
theorem warmStartToDrum : Obligations.WarmStartToDrum := by
  unfold Obligations.WarmStartToDrum
  refine ⟨?warm, ?notWarm, ?retry, ?setIndex, ?readData, ?firmware, ?noImage, ?latch⟩
  case warm =>
    intro s t rate width b aux held
    have run := exec_perstRelease_warm t b rate width aux held
    obtain ⟨warm, stage, valid, -, _, _, _, _, _, frame⟩ := (s.tick t).perstReleased.warmStart_leaves b
    obtain ⟨tokens, pwr⟩ := (s.tick t).perstReleased.warmStart_begins b
    generalize (s.tick t).perstReleased.warmStart b = x at *
    obtain ⟨link, only⟩ := x.linkTrained_leaves rate width
    have pwr' : (x.linkTrained rate width).pwr =
        { s.pwr with perst := false, perstRel := some (max s.now t), warmHeld := false, t0 := max s.now t } := by
      rw [only]
      exact pwr
    refine ⟨_, run, by rw [pwr'], by rw [pwr'], (link _ _ _ (by decide)).trans warm, ?_, (link _ _ _ (by decide)).trans tokens, by rw [pwr'],
      fun known lanes => x.linkTrained_shows known lanes, (link _ _ _ (by decide)).trans stage, sameMem_of_mem ?_⟩
    · unfold State.on at valid ⊢
      rw [link _ _ _ (by decide), valid]
    · rw [only, frame]
      rfl
  case notWarm =>
    intro s t rate width b aux free
    obtain ⟨link, only⟩ := (s.tick t).perstReleased.linkTrained_leaves rate width
    refine ⟨_, exec_perstRelease_notWarm t b rate width aux free, ?_, ?_, link, ?_⟩
    all_goals
      rw [only]
      rfl
  case retry =>
    intro s t r fn reg w there aux perst released early
    exact exec_configurationRequest_retry t reg w there aux
      ((State.configUp_tick t aux perst released).trans (decide_eq_false (Nat.not_le_of_lt early)))
  case setIndex =>
    intro s t r v aux perst released late
    have up := (State.configUp_tick t aux perst released).trans (decide_eq_true late)
    exact ⟨_, exec_configurationRequest_write t .ldirIndex v rfl aux up, rfl,
      (State.rd_wr_same _ F.LDIR_INDEX_DWORD _ 0 0).trans (Nat.mod_mod _ _), State.sameBut_wr (s.tick t).cfgCompleted F.LDIR_INDEX_DWORD _ 0 0,
      rfl⟩
  case readData =>
    intro s t r aux perst released late
    have up := (State.configUp_tick t aux perst released).trans (decide_eq_true late)
    exact ⟨_, exec_configurationRequest_read t .ldirData rfl aux up, rfl, rfl,
      (State.rd_wr_same _ F.LDIR_INDEX_DWORD _ 0 0).trans (Nat.mod_mod _ _), State.sameBut_wr (s.tick t).cfgCompleted F.LDIR_INDEX_DWORD _ 0 0,
      rfl⟩
  case firmware =>
    intro s t k v sv slot cos dig footing perst idle due free on choice
    let fw : FwRun := { slot := k, version := v, secVersion := sv, digest := dig }
    have choice' : (s.tick t).bootChoice = some (k, v, sv, slot, cos, dig) := choice
    have run := exec_firmwareAuthenticate_footing t footing perst idle due
    rw [State.footingLeft_powered (s := s.tick t) free on, State.booted_some choice'] at run
    obtain ⟨stage, firmware, mailbox, telemetry, reason, owner⟩ := (s.tick t).drumReached_shows fw slot cos
    obtain ⟨_, _, reached⟩ := (s.tick t).drumReached_frame fw slot cos
    obtain ⟨regs, _, _, _, follows⟩ := ((s.tick t).drumReached fw slot cos).drumFollows
    refine ⟨_, run, (regs _ _ _ (by decide)).trans stage, (regs _ _ _ (by decide)).trans firmware, (regs _ _ _ (by decide)).trans mailbox,
      (regs _ _ _ (by decide)).trans telemetry, (regs _ _ _ (by decide)).trans reason, ?_, ?_, sameMem_of_mem ?_⟩
    · rw [follows, reached]
    · unfold State.on at owner ⊢
      rw [regs _ _ _ (by decide), owner]
    · rw [follows, reached]
      rfl
  case noImage =>
    intro s t footing perst idle due free on choice
    have choice' : (s.tick t).bootChoice = none := choice
    have run := exec_firmwareAuthenticate_footing t footing perst idle due
    rw [State.footingLeft_powered (s := s.tick t) free on, State.booted_none choice'] at run
    obtain ⟨reason, stage⟩ := (s.tick t).hold_shows (reason := 4) (by decide)
    exact ⟨_, run, reason, stage.trans footing⟩
  case latch =>
    intro s t footing perst idle due latched
    have run := exec_firmwareAuthenticate_footing t footing perst idle due
    rw [State.footingLeft_latched (s := s.tick t) latched] at run
    have code : (s.tick t).latchReason < 256 := by
      unfold State.latchReason
      split
      · decide
      · split <;> decide
    obtain ⟨reason, stage⟩ := (s.tick t).hold_shows code
    exact ⟨_, run, stage.trans footing, reason⟩

end Sys2Proof.Machine
end

section
/-!
PROOFS of the directory statements (spec/12, 14): the stage and guarantee status, and the state that refutes its clause (O43).
-/

namespace Sys2Proof.Machine

/-- The stage and guarantee status as the registers stand (R307). -/
def State.stageStatus (s : State) : Bytes := natLe 1 0 ++ s.regBytes .AON_STAGE ++ s.regBytes .AON_READY ++ s.regBytes .MGT_GUARANTEE

/-- The status is answered as it stands at the command's time. -/
theorem exec_stageAndGuaranteeStatus_aon {s : State} {t : Nat} {path : Path} (aon : path = .mctp ∨ path = .doe)
    (up : (s.tick t).aonUp path = true) :
    exec (.stageAndGuaranteeStatus t path) s = .next ((s.tick t).answeredBy path (s.tick t).stageStatus) := by
  rw [← State.answer_aon _ aon]
  rcases aon with rfl | rfl <;> exact congrArg Host.Outcome.next (if_neg (by simp [up]))

/-- The status is the status before the command where CONFIG, which is live, stays as it was. -/
theorem State.stageStatus_tick {s : State} {t : Nat} (same : (s.tick t).configUp = s.configUp) : (s.tick t).stageStatus = s.stageStatus := by
  have stage : (s.tick t).stored .AON_STAGE 0 0 = s.stored .AON_STAGE 0 0 := by
    unfold State.stored
    rw [same]
    rfl
  unfold State.stageStatus State.regBytes
  rw [stage]
  rfl

/-- The clause of SidebandAndDirectory on the status by the sideband or DOE, with the hypothesis that it lacks: the 100 ms after the release of
PERST# do not end between the device's time and the command's. -/
theorem stageAndGuaranteeStatus_sameConfig {s : State} {t : Nat} {path : Path} (aon : path = .mctp ∨ path = .doe)
    (up : (s.tick t).aonUp path = true) (same : (s.tick t).configUp = s.configUp) :
    ∃ s', exec (.stageAndGuaranteeStatus t path) s = .next s' ∧ s'.host.answers = (path, s.stageStatus) :: s.host.answers ∧
      s' = { s with now := s'.now, host := s'.host } := by
  refine ⟨_, exec_stageAndGuaranteeStatus_aon aon up, ?_, rfl⟩
  rw [State.stageStatus_tick same]
  rfl

/-- A device at Footing whose sideband answers, at time 0, when PERST# has just been released. -/
def justReleased : State :=
  { pwr := { perstRel := some 0 }
    regs := [(fkey F.AON_STAGE_STAGE, 1), (fkey F.AON_STAGE_SIDEBAND, 1), (fkey F.AON_STAGE_SUPERVISION, 1), (fkey F.PWR_STATUS_AUX_VALID, 1)] }

/-- Refutes O43: AON_STAGE.CONFIG is live and becomes 1 at 100 ms after the release of PERST# (R276, R295), and the clause on the stage and
guarantee status takes the register's bytes at the device's time before the command. Asked 100 ms after the release, the device answers with
CONFIG 1, where the clause says 0. The answer is the status at the command's time (exec_stageAndGuaranteeStatus_aon), and the clause holds
where CONFIG stays as it was (stageAndGuaranteeStatus_sameConfig). -/
theorem not_sidebandAndDirectory : ¬ Obligations.SidebandAndDirectory := by
  unfold Obligations.SidebandAndDirectory
  rintro ⟨-, -, -, -, -, -, status, -⟩
  have up : (justReleased.tick 100000000).aonUp .mctp = true := by decide +kernel
  obtain ⟨s', run, answers, -⟩ := status justReleased 100000000 .mctp (Or.inl rfl) up
  obtain rfl : _ = s' := Host.Outcome.next.inj ((exec_stageAndGuaranteeStatus_aon (Or.inl rfl) up).symm.trans run)
  have same : (justReleased.tick 100000000).stageStatus = justReleased.stageStatus := congrArg Prod.snd (List.cons.inj answers).1
  exact absurd same (by decide +kernel)

end Sys2Proof.Machine
end

section
/-!
PROOFS of the power statements (spec/13): what the start and the stop of the converters leave (for O7, O11).
-/

namespace Sys2Proof.Machine

/-! ### Registers, host link and reports -/

/-- The second state differs from the first in the registers listed, on the host link and on the fault collector's side alone. -/
structure onlyShows (l : List Reg) (s s' : State) : Prop where
  regs : sameRegsBut l s s'
  frame : s' = { s with regs := s'.regs, host := s'.host, fc := s'.fc }

section OnlyShows
variable {l : List Reg} {a b c : State}

theorem onlyShows_refl (l : List Reg) (s : State) : onlyShows l s s := ⟨sameRegsBut_refl l s, rfl⟩

theorem onlyShows.trans (h : onlyShows l a b) (h' : onlyShows l b c) : onlyShows l a c := by
  refine ⟨h.regs.trans h'.regs, ?_⟩
  rw [h'.frame, h.frame]

theorem onlyShows.weaken {l' : List Reg} (h : onlyShows l a b) (sub : l ⊆ l' := by decide) : onlyShows l' a b := ⟨h.regs.weaken sub, h.frame⟩

theorem onlyShows.wr (h : onlyShows l a b) (f : Fld) (v i j : Nat) (mem : f.reg ∈ l := by decide) : onlyShows l a (b.wr f v i j) :=
  h.trans ⟨(sameRegsBut_refl l b).wr f v i j mem, rfl⟩

theorem onlyShows.raise (h : onlyShows l a b) (r : Report) : onlyShows l a (b.raise r) :=
  h.trans ⟨fun f i j _ => b.raise_rd r f i j, by rw [State.raise_frame]⟩

theorem onlyShows.setStage (h : onlyShows l a b) (v : Nat) (mem : Reg.AON_STAGE ∈ l := by decide) : onlyShows l a (b.setStage v) := by
  refine h.trans ⟨fun f i j out => b.rd_setStage_reg v f i j (fun same => out (same ▸ mem)), ?_⟩
  obtain ⟨_, _, e⟩ := b.setStage_eq v
  rw [e]

theorem onlyShows_foldl {α : Type} {step : State → α → State} (h : ∀ s x, onlyShows l s (step s x)) (xs : List α) (s : State) :
    onlyShows l s (xs.foldl step s) := foldl_related (onlyShows l) (onlyShows_refl l) (fun _ _ _ => onlyShows.trans) h xs s

/-- One value written to several fields of the registers listed. -/
theorem onlyShows_foldl_wr {fs : List Fld} (mem : ∀ f ∈ fs, f.reg ∈ l) (v : Nat) (s : State) :
    onlyShows l s (fs.foldl (fun (s : State) f => s.wr f v) s) :=
  List.foldlRecOn fs _ (motive := onlyShows l s) (onlyShows_refl l s) (fun _ kept f there => kept.wr f v 0 0 (mem f there))

end OnlyShows

/-- The guarantees that end with the supplies show in their own register, in vectors and in a report (R13 to R15). -/
theorem State.onlyShows_ratedLost (s : State) : onlyShows [.MGT_GUARANTEE] s s.ratedLost := by
  have lapsed : onlyShows [.MGT_GUARANTEE] s (s.lapse 31) := ⟨(s.lapse_leaves 31).2, by rw [State.lapse_frame]⟩
  unfold State.ratedLost
  dsimp only
  split
  · exact lapsed.raise _
  · exact onlyShows_refl _ s

/-! ### The converters turn off (R281, R383, R461) -/

/-- What the units behind the converters lose with them: all of memory, and all that they hold. -/
def State.unitsLost (s : State) : State :=
  let x := (s.forget 0 (2 ^ 60)).dropVolatile
  { x with dumps := [{}, {}, {}, {}], fc := { x.fc with mirrored := 0 } }

/-- What the registers of the units that are off show. -/
def State.offShown (s : State) : State :=
  (List.range 48).foldl (fun (s : State) n => (s.wr F.MGT_BFY_CORE_STATE 0 n).wr F.MGT_BFY_CORE_FREQ_MHZ 0 n)
    ((List.range 16).foldl (fun (s : State) g => ((s.wr F.CLK_AG_STATE 2 g).wr F.CLK_AG_MHZ 0 g).wr F.CLK_AG_MV 0 g)
      ((List.range 16).foldl (fun (s : State) p => s.wr F.HNG_STATUS_STATE 0 p) (s.wr F.PGM_INVAL_DONE 1)))

theorem State.convertersOff_eq (s : State) : s.convertersOff = ((s.ratedLost.unitsLost.wr F.PWR_STATUS_CONV_ON 0).offShown).stageDown := rfl

/-- The registers beside PWR_STATUS in which the converters' stop shows. -/
def offRegs : List Reg := [.MGT_GUARANTEE, .PGM_INVAL, .HNG_STATUS, .CLK_AG, .MGT_BFY_CORE, .AON_STAGE, .AON_READY]

theorem State.onlyShows_offShown (s : State) : onlyShows offRegs s s.offShown :=
  have done := (onlyShows_refl offRegs s).wr F.PGM_INVAL_DONE 1 0 0
  have hangs := done.trans (onlyShows_foldl (fun s p => (onlyShows_refl offRegs s).wr F.HNG_STATUS_STATE 0 p 0) (List.range 16) _)
  have clocks := hangs.trans (onlyShows_foldl (fun s g => (((onlyShows_refl offRegs s).wr F.CLK_AG_STATE 2 g 0).wr F.CLK_AG_MHZ 0 g 0).wr
    F.CLK_AG_MV 0 g 0) (List.range 16) _)
  clocks.trans (onlyShows_foldl (fun s n => ((onlyShows_refl offRegs s).wr F.MGT_BFY_CORE_STATE 0 n 0).wr F.MGT_BFY_CORE_FREQ_MHZ 0 n 0)
    (List.range 48) _)

theorem State.onlyShows_stageDown (s : State) : onlyShows offRegs s s.stageDown := by
  have free : onlyShows offRegs s s.clearHolds := onlyShows_foldl_wr (by decide) 0 s
  unfold State.stageDown
  refine onlyShows.trans ?_ (onlyShows_foldl_wr (by decide) 0 _)
  split
  · exact free
  · exact free.setStage stFooting

/-- What differs in registers, host link and reports alone still does once the units have lost what they hold. -/
theorem onlyShows.unitsLost {l : List Reg} {a b : State} (h : onlyShows l a b) : onlyShows l a.unitsLost b.unitsLost := by
  refine ⟨h.regs, ?_⟩
  rw [h.frame]
  rfl

/-- Once the converters are off CONV_ON reads 0, no other bit of PWR_STATUS and no register outside those listed has changed, and the units
hold nothing. -/
theorem State.convertersOff_leaves (s : State) : s.convertersOff.rd F.PWR_STATUS_CONV_ON = 0 ∧
    (∀ (f : Fld) (i j : Nat), f.reg ∉ offRegs → f.lsb ≠ 3 → s.convertersOff.rd f i j = s.rd f i j) ∧
    ∃ regs host fc, s.convertersOff = { s.unitsLost with regs := regs, host := host, fc := fc } := by
  have lost : onlyShows offRegs s.unitsLost s.ratedLost.unitsLost := s.onlyShows_ratedLost.unitsLost.weaken
  have shown := (State.onlyShows_offShown (s.ratedLost.unitsLost.wr F.PWR_STATUS_CONV_ON 0)).trans (State.onlyShows_stageDown _)
  rw [State.convertersOff_eq]
  refine ⟨(shown.regs _ _ _ (by decide)).trans (State.rd_wr_same _ F.PWR_STATUS_CONV_ON 0 0 0), fun f i j out bit => ?_, ?_⟩
  · rw [shown.regs f i j out, State.rd_wr_lsb _ _ _ _ _ _ _ _ bit, lost.regs f i j out]
    rfl
  · rw [shown.frame, lost.frame]
    exact ⟨_, _, _, rfl⟩

/-! ### A stop of the converters that is latched (R280, R282, R291) -/

/-- The report of what stops the converters, and the hold of the stage. -/
def State.stopped (s : State) (r : Report) (reason : Nat) : State := (s.raise r).hold reason

theorem State.onlyShows_stopped (s : State) (r : Report) (reason : Nat) : onlyShows [.AON_STAGE] s (s.stopped r reason) := by
  have reported := (onlyShows_refl [.AON_STAGE] s).raise r
  unfold State.stopped State.hold
  split
  · exact reported
  · exact (reported.wr F.AON_STAGE_HOLD_REASON reason 0 0).raise _

/-- A state with the converters off, in which further registers alone were written, still has them off once the stop is reported: CONV_ON reads
0, HOLD_REASON the reason, and memory 0. -/
theorem State.stopped_shows {s x : State} (r : Report) {reason : Nat} (code : reason < 256) (written : onlyRegs s.convertersOff x)
    (off : x.rd F.PWR_STATUS_CONV_ON = s.convertersOff.rd F.PWR_STATUS_CONV_ON) :
    (x.stopped r reason).rd F.PWR_STATUS_CONV_ON = 0 ∧ (x.stopped r reason).rd F.AON_STAGE_HOLD_REASON = reason ∧
    (∀ a, a < 2 ^ 60 → (x.stopped r reason).rdByte a = 0) ∧ (x.stopped r reason).pwr = s.unitsLost.pwr := by
  obtain ⟨conv, -, _, _, _, frame⟩ := s.convertersOff_leaves
  have shown := x.onlyShows_stopped r reason
  refine ⟨(shown.regs _ _ _ (by decide)).trans (off.trans conv), ((x.raise r).hold_shows code).1, fun a low => ?_, ?_⟩
  · have kept : (x.stopped r reason).rdByte a = (s.forget 0 (2 ^ 60)).rdByte a := by
      rw [shown.frame, written, frame]
      rfl
    rw [kept, State.rdByte_forget, if_neg (by omega)]
  · rw [shown.frame, written, frame]

/-- The report of a sequencing violation. -/
def violationReport : Report := { cls := 4, level := 3, master := 0x5E, source := 0x5E, code := 2 }

/-- A sequencing violation (R280): SEQ_VIOL is set with the converters off, and the stage held for reason 2. -/
theorem State.sequencingViolation_leaves (s : State) : s.sequencingViolation.rd F.PWR_STATUS_SEQ_VIOL = 1 ∧
    s.sequencingViolation.rd F.PWR_STATUS_CONV_ON = 0 ∧ s.sequencingViolation.rd F.AON_STAGE_HOLD_REASON = 2 ∧
    s.sequencingViolation.rd F.PWR_STATUS_ANA_VALID = s.rd F.PWR_STATUS_ANA_VALID ∧ s.sequencingViolation.pwr.ana = s.pwr.ana := by
  let x : State := s.convertersOff.wr F.PWR_STATUS_SEQ_VIOL 1
  have whole : s.sequencingViolation = x.stopped violationReport 2 := rfl
  obtain ⟨-, kept, -⟩ := s.convertersOff_leaves
  obtain ⟨conv, reason, -, pwr⟩ := State.stopped_shows (s := s) (x := x) violationReport (reason := 2) (by decide) (onlyRegs_wr _ _ _ _ _)
    (State.rd_wr_lsb _ _ _ _ _ _ _ _ (by decide))
  have shown := x.onlyShows_stopped violationReport 2
  rw [whole]
  refine ⟨(shown.regs _ _ _ (by decide)).trans (State.rd_wr_same _ F.PWR_STATUS_SEQ_VIOL 1 0 0), conv, reason, ?_, by rw [pwr]; rfl⟩
  rw [shown.regs _ _ _ (by decide), State.rd_wr_lsb _ _ _ _ _ _ _ _ (by decide), kept _ _ _ (by decide) (by decide)]

/-! ### The converters turn on (R279, R294) -/

/-- The fields in which a start of the converters shows. -/
def startKeys : List FKey := [fkey F.PWR_STATUS_CONV_ON, fkey F.AON_STAGE_WARM, fkey F.AON_STAGE_HOLD_REASON, fkey F.AON_STAGE_STAGE]

/-- The converters are on: WARM and HOLD_REASON read 0. -/
def State.convertersOn (s : State) : State := ((s.wr F.PWR_STATUS_CONV_ON 1).wr F.AON_STAGE_WARM 0).wr F.AON_STAGE_HOLD_REASON 0

/-- A cold start leaves the safe state where it follows the clearing of a latch (R384). -/
def State.safeLeft (s : State) : State := if s.safe && s.pwr.coldDue then s.setStage stFooting else s

/-- A cold start takes its time as t0. -/
def State.coldBegun (s : State) : State := { s with pwr := { s.pwr with t0 := s.now, coldDue := false } }

theorem State.startConverters_eq (s : State) : s.startConverters =
    if s.on F.PWR_STATUS_AUX_VALID && s.pwr.ana && s.pwr.main && !s.latched && !s.on F.PWR_STATUS_CONV_ON then
      s.convertersOn.safeLeft.coldBegun
    else s := rfl

theorem State.sameBut_setStage (s : State) (v : Nat) : sameBut [fkey F.AON_STAGE_STAGE] s (s.setStage v) := by
  unfold State.setStage
  split
  · exact sameBut_refl _ s
  · exact s.sameBut_wr F.AON_STAGE_STAGE v 0 0

/-- Leaving the safe state changes the stage shown, the host link and nothing else. -/
theorem State.safeLeft_leaves (s : State) : sameBut [fkey F.AON_STAGE_STAGE] s s.safeLeft ∧
    (s.rd F.AON_STAGE_STAGE = 1 → s.safeLeft.rd F.AON_STAGE_STAGE = 1) ∧ ∃ regs host, s.safeLeft = { s with regs := regs, host := host } := by
  unfold State.safeLeft
  split
  · exact ⟨s.sameBut_setStage _, fun _ => s.stage_setStage_footing, s.setStage_eq _⟩
  · exact ⟨sameBut_refl _ s, id, _, _, rfl⟩

/-- A cold start: what it shows, and that beside registers it changes the host link, t0 and the cold start that was due. -/
theorem State.coldStart_leaves (s : State) : s.convertersOn.safeLeft.coldBegun.rd F.PWR_STATUS_CONV_ON = 1 ∧
    s.convertersOn.safeLeft.coldBegun.rd F.AON_STAGE_HOLD_REASON = 0 ∧ sameBut startKeys s s.convertersOn.safeLeft.coldBegun ∧
    (s.rd F.AON_STAGE_STAGE = 1 → s.convertersOn.safeLeft.coldBegun.rd F.AON_STAGE_STAGE = 1) ∧
    ∃ regs host, s.convertersOn.safeLeft.coldBegun =
      { s with regs := regs, host := host, pwr := { s.pwr with t0 := s.now, coldDue := false } } := by
  obtain ⟨regs, stage, m, h, frame⟩ := s.convertersOn.safeLeft_leaves
  have on : sameBut startKeys s s.convertersOn := (((sameBut_refl startKeys s).wr F.PWR_STATUS_CONV_ON 1 0 0 (by decide)).wr
    F.AON_STAGE_WARM 0 0 0 (by decide)).wr F.AON_STAGE_HOLD_REASON 0 0 0 (by decide)
  have conv : s.convertersOn.rd F.PWR_STATUS_CONV_ON = 1 := by
    unfold State.convertersOn
    rw [State.rd_wr_reg _ _ _ _ _ _ _ _ (by decide), State.rd_wr_reg _ _ _ _ _ _ _ _ (by decide)]
    exact State.rd_wr_same _ F.PWR_STATUS_CONV_ON 1 0 0
  have stands : s.convertersOn.rd F.AON_STAGE_STAGE = s.rd F.AON_STAGE_STAGE := by
    unfold State.convertersOn
    rw [State.rd_wr_lsb _ _ _ _ _ _ _ _ (by decide), State.rd_wr_lsb _ _ _ _ _ _ _ _ (by decide), State.rd_wr_reg _ _ _ _ _ _ _ _ (by decide)]
  refine ⟨(regs _ _ _ (by decide)).trans conv, (regs _ _ _ (by decide)).trans (State.rd_wr_same _ F.AON_STAGE_HOLD_REASON 0 0 0),
    fun f i j out => (regs f i j (fun mem => out ?_)).trans (on f i j out), fun footing => stage (stands.trans footing), m, h, ?_⟩
  · rw [List.mem_singleton.mp mem]
    decide
  · rw [frame]
    rfl

/-- The last supply to become valid starts the converters where no latch holds them and they are not on yet. -/
theorem State.startConverters_starts {s : State} (aux : s.on F.PWR_STATUS_AUX_VALID = true) (ana : s.pwr.ana = true) (main : s.pwr.main = true)
    (free : s.latched = false) (off : s.on F.PWR_STATUS_CONV_ON = false) : s.startConverters = s.convertersOn.safeLeft.coldBegun := by
  rw [State.startConverters_eq, if_pos]
  simp [aux, ana, main, free, off]

/-- An attempt to start the converters changes the fields in which a start shows, and no byte of memory. -/
theorem State.startConverters_leaves (s : State) : sameBut startKeys s s.startConverters ∧
    (s.rd F.AON_STAGE_STAGE = 1 → s.startConverters.rd F.AON_STAGE_STAGE = 1) ∧ s.startConverters.mem = s.mem := by
  obtain ⟨-, -, regs, stage, _, _, frame⟩ := s.coldStart_leaves
  rw [State.startConverters_eq]
  split
  · exact ⟨regs, stage, by rw [frame]⟩
  · exact ⟨sameBut_refl _ s, id, rfl⟩

/-- A write of another bit leaves whether a field reads 1. -/
theorem State.on_wr_lsb (s : State) (f g : Fld) (v i : Nat) (h : g.lsb ≠ f.lsb) : (s.wr f v i).on g i = s.on g i := by
  unfold State.on
  rw [State.rd_wr_lsb _ _ _ _ _ _ _ _ h]

/-- A write outside the three latches leaves whether one holds the converters off. -/
theorem State.latched_wr (s : State) (f : Fld) (v : Nat) (apart : f.lsb ∉ [4, 5, 6]) : (s.wr f v).latched = s.latched := by
  have latch : ∀ g : Fld, g.lsb ∈ [4, 5, 6] → (s.wr f v).on g = s.on g :=
    fun g mem => s.on_wr_lsb f g v 0 (fun same => apart (same ▸ mem))
  unfold State.latched
  rw [latch F.PWR_STATUS_TRIP (by decide), latch F.PWR_STATUS_SEQ_VIOL (by decide), latch F.PWR_STATUS_RAIL_FAULT (by decide)]

end Sys2Proof.Machine
end

section
/-!
PROOFS of the power statements (spec/13): the supplies start and stop the converters (O7).
-/

namespace Sys2Proof.Machine

/-! ### AUX_3V3 valid (R294) -/

/-- The always-on domain begins Footing: the supplies shown, supervision and the sideband up. -/
def State.auxBegun (s : State) : State :=
  let x := ((s.wr F.PWR_STATUS_AUX_VALID 1).wrB F.PWR_STATUS_ANA_VALID s.pwr.ana).wrB F.PWR_STATUS_MAIN_VALID s.pwr.main
  let y : State := { x with pwr := { x.pwr with auxAt := x.now } }
  (((y.wr F.AON_STAGE_SUPERVISION 1).wr F.AON_STAGE_SIDEBAND 1).setStage stFooting).wr F.SEC_SIGIDX_NEXT_INDEX 0xFFFFFFFF

theorem exec_aux3v3Valid_begins {s : State} (t : Nat) (b : Bool) (off : s.on F.PWR_STATUS_AUX_VALID = false) :
    exec (.aux3v3Valid t b) s = .next ((s.tick t).auxBegun.openSeal b).ldFooting.startConverters :=
  if_neg (Bool.eq_false_iff.mp off)

theorem State.auxBegun_shows (s : State) : s.auxBegun.rd F.PWR_STATUS_AUX_VALID = 1 ∧ s.auxBegun.rd F.AON_STAGE_SUPERVISION = 1 ∧
    s.auxBegun.rd F.AON_STAGE_SIDEBAND = 1 ∧ s.auxBegun.rd F.AON_STAGE_STAGE = 1 := by
  unfold State.auxBegun
  refine ⟨?_, ?_, ?_, ?_⟩
  · rw [State.rd_wr_reg _ _ _ _ _ _ _ _ (by decide), State.rd_setStage_reg _ _ _ _ _ (by decide), State.rd_wr_reg _ _ _ _ _ _ _ _ (by decide),
      State.rd_wr_reg _ _ _ _ _ _ _ _ (by decide)]
    exact (State.rd_wr_lsb _ F.PWR_STATUS_MAIN_VALID _ _ _ _ _ _ (by decide)).trans
      ((State.rd_wr_lsb _ F.PWR_STATUS_ANA_VALID _ _ _ _ _ _ (by decide)).trans (State.rd_wr_same _ F.PWR_STATUS_AUX_VALID 1 0 0))
  · rw [State.rd_wr_reg _ _ _ _ _ _ _ _ (by decide), State.rd_setStage_lsb _ _ _ _ _ (by decide), State.rd_wr_lsb _ _ _ _ _ _ _ _ (by decide)]
    exact State.rd_wr_same _ F.AON_STAGE_SUPERVISION 1 0 0
  · rw [State.rd_wr_reg _ _ _ _ _ _ _ _ (by decide), State.rd_setStage_lsb _ _ _ _ _ (by decide)]
    exact State.rd_wr_same _ F.AON_STAGE_SIDEBAND 1 0 0
  · rw [State.rd_wr_reg _ _ _ _ _ _ _ _ (by decide)]
    exact State.stage_setStage_footing _

/-! ### MAIN_IN and ANA_1V8 (R279 to R281) -/

/-- MAIN_IN becomes valid at the state's time. -/
def State.mainUp (s : State) : State :=
  ({ s with pwr := { s.pwr with main := true, mainAt := s.now } } : State).wr F.PWR_STATUS_MAIN_VALID 1

/-- MAIN_IN becomes invalid. -/
def State.mainDown (s : State) : State := ({ s with pwr := { s.pwr with main := false } } : State).wr F.PWR_STATUS_MAIN_VALID 0

/-- ANA_1V8 becomes valid. -/
def State.anaUp (s : State) : State := ({ s with pwr := { s.pwr with ana := true } } : State).wr F.PWR_STATUS_ANA_VALID 1

/-- ANA_1V8 becomes invalid. -/
def State.anaDown (s : State) : State := ({ s with pwr := { s.pwr with ana := false } } : State).wr F.PWR_STATUS_ANA_VALID 0

section Supplies
variable {s : State} (t : Nat)

theorem exec_mainInValid_first (first : s.pwr.main = false) (aux : s.on F.PWR_STATUS_AUX_VALID = true) : exec (.mainInValid t) s =
    .next (if s.pwr.ana then (s.tick t).mainUp.startConverters else (s.tick t).mainUp.sequencingViolation) :=
  (if_neg (Bool.eq_false_iff.mp first)).trans (if_pos aux)

theorem exec_mainInInvalid_running (on : s.on F.PWR_STATUS_CONV_ON = true) :
    exec (.mainInInvalid t) s = .next (s.tick t).mainDown.convertersOff := by
  have still : (s.tick t).mainDown.on F.PWR_STATUS_CONV_ON = true := (State.on_wr_lsb _ _ _ _ _ (by decide)).trans on
  exact congrArg Host.Outcome.next (if_pos still)

theorem exec_ana1v8Valid_powered (aux : s.on F.PWR_STATUS_AUX_VALID = true) :
    exec (.ana1v8Valid t) s = .next (s.tick t).anaUp.startConverters :=
  congrArg Host.Outcome.next (if_pos aux)

theorem exec_ana1v8Invalid_underMain (aux : s.on F.PWR_STATUS_AUX_VALID = true) (main : s.pwr.main = true) :
    exec (.ana1v8Invalid t) s = .next (s.tick t).anaDown.sequencingViolation := by
  have still : (s.tick t).anaDown.on F.PWR_STATUS_AUX_VALID = true := (State.on_wr_lsb _ _ _ _ _ (by decide)).trans aux
  refine congrArg Host.Outcome.next (if_pos ?_)
  rw [Bool.and_eq_true]
  exact ⟨still, main⟩

end Supplies

/-- MAIN_IN as the last supply: the converters start as the state before it lets them. -/
theorem State.mainUp_starts {s : State} (aux : s.on F.PWR_STATUS_AUX_VALID = true) (ana : s.pwr.ana = true) (free : s.latched = false)
    (off : s.on F.PWR_STATUS_CONV_ON = false) : s.mainUp.startConverters = s.mainUp.convertersOn.safeLeft.coldBegun :=
  State.startConverters_starts ((State.on_wr_lsb _ _ _ _ _ (by decide)).trans aux) ana rfl ((State.latched_wr _ _ _ (by decide)).trans free)
    ((State.on_wr_lsb _ _ _ _ _ (by decide)).trans off)

/-- The same of ANA_1V8. -/
theorem State.anaUp_starts {s : State} (aux : s.on F.PWR_STATUS_AUX_VALID = true) (main : s.pwr.main = true) (free : s.latched = false)
    (off : s.on F.PWR_STATUS_CONV_ON = false) : s.anaUp.startConverters = s.anaUp.convertersOn.safeLeft.coldBegun :=
  State.startConverters_starts ((State.on_wr_lsb _ _ _ _ _ (by decide)).trans aux) rfl main ((State.latched_wr _ _ _ (by decide)).trans free)
    ((State.on_wr_lsb _ _ _ _ _ (by decide)).trans off)

/-- Settles O7: each clause is the branch its command takes, and what the converters' start, their stop or a violation leaves. -/
theorem suppliesStartConverters : Obligations.SuppliesStartConverters := by
  unfold Obligations.SuppliesStartConverters
  refine ⟨?aux, ?main, ?mainFirst, ?ana, ?anaLost, ?mainLost⟩
  case aux =>
    intro s t b off
    let x := (s.tick t).auxBegun
    obtain ⟨aux, supervision, sideband, footing⟩ := (s.tick t).auxBegun_shows
    obtain ⟨valid, -, sealRegs, -⟩ := x.openSeal_leaves b
    obtain ⟨-, dirRegs⟩ := (x.openSeal b).ldUpdate_leaves 1 0 false (fun _ _ => true)
    obtain ⟨startRegs, startStage, -⟩ := (x.openSeal b).ldFooting.startConverters_leaves
    have begun : sameRegsBut [.SEC_STATUS, .SEC_SIGIDX, .LDIR_GEN, .LDIR_LAST_NS, .LDIR_CAUSE] x (x.openSeal b).ldFooting :=
      sealRegs.weaken.trans (sameRegsBut.weaken dirRegs)
    refine ⟨_, exec_aux3v3Valid_begins t b off, ?_, ?_, ?_, startStage ((begun _ _ _ (by decide)).trans footing), ?_, ?_⟩
    · exact (startRegs _ _ _ (by decide)).trans ((begun _ _ _ (by decide)).trans aux)
    · exact (startRegs _ _ _ (by decide)).trans ((begun _ _ _ (by decide)).trans supervision)
    · exact (startRegs _ _ _ (by decide)).trans ((begun _ _ _ (by decide)).trans sideband)
    · unfold State.on at valid ⊢
      rw [startRegs _ _ _ (by decide), State.ldFooting, dirRegs _ _ _ (by decide), valid]
    · rw [startRegs _ _ _ (by decide), State.ldFooting, dirRegs _ _ _ (by decide), State.tokens_openSeal]
  case main =>
    intro s t first ana aux free off
    obtain ⟨conv, reason, regs, -, _, _, frame⟩ := (s.tick t).mainUp.coldStart_leaves
    have run := exec_mainInValid_first t first aux
    rw [if_pos ana, State.mainUp_starts (s := s.tick t) aux ana free off] at run
    refine ⟨_, run, ?_, conv, reason, ?_, ?_, sameMem_of_mem ?_⟩
    · exact (regs F.PWR_STATUS_MAIN_VALID 0 0 (by decide)).trans (State.rd_wr_same _ F.PWR_STATUS_MAIN_VALID 1 0 0)
    all_goals
      rw [frame]
      rfl
  case mainFirst =>
    intro s t first ana aux
    obtain ⟨violation, conv, reason, -⟩ := (s.tick t).mainUp.sequencingViolation_leaves
    have run := exec_mainInValid_first t first aux
    rw [if_neg (Bool.eq_false_iff.mp ana)] at run
    exact ⟨_, run, violation, conv, reason⟩
  case ana =>
    intro s t aux main free off
    obtain ⟨conv, -, regs, -, _, _, frame⟩ := (s.tick t).anaUp.coldStart_leaves
    have run := exec_ana1v8Valid_powered t aux
    rw [State.anaUp_starts (s := s.tick t) aux main free off] at run
    refine ⟨_, run, ?_, conv, ?_, sameMem_of_mem ?_⟩
    · exact (regs F.PWR_STATUS_ANA_VALID 0 0 (by decide)).trans (State.rd_wr_same _ F.PWR_STATUS_ANA_VALID 1 0 0)
    all_goals
      rw [frame]
      rfl
  case anaLost =>
    intro s t aux main
    obtain ⟨violation, conv, -, shown, lost⟩ := (s.tick t).anaDown.sequencingViolation_leaves
    exact ⟨_, exec_ana1v8Invalid_underMain t aux main, violation, conv, shown.trans (State.rd_wr_same _ F.PWR_STATUS_ANA_VALID 0 0 0), lost⟩
  case mainLost =>
    intro s t on
    obtain ⟨conv, kept, _, _, _, frame⟩ := (s.tick t).mainDown.convertersOff_leaves
    refine ⟨_, exec_mainInInvalid_running t on, ?_, conv, by rw [frame]; rfl, ?_, by rw [frame]; rfl, by rw [frame]; rfl, by rw [frame]; rfl⟩
    · exact (kept _ _ _ (by decide) (by decide)).trans (State.rd_wr_same _ F.PWR_STATUS_MAIN_VALID 0 0 0)
    · intro a low
      have gone : (s.tick t).mainDown.convertersOff.rdByte a = (s.forget 0 (2 ^ 60)).rdByte a := by
        rw [frame]
        rfl
      rw [gone, State.rdByte_forget, if_neg (by omega)]

end Sys2Proof.Machine
end

section
/-!
PROOFS of the power statements (spec/13): rails, the thermal trip, the throttle and their latches (O11).
-/

namespace Sys2Proof.Machine

/-! ### Rails (R282) -/

/-- The excursion of a rail is acted on. -/
def State.railTaken (s : State) (rail : Nat) : State := { s with pwr := { s.pwr with railActed := s.pwr.railActed ++ [rail] } }

/-- The report of an array group's rail, which stops that group's partition. -/
def State.groupRailReport (s : State) (rail : Nat) : Report :=
  { cls := 4, level := 2, master := 0x54, part := (s.partOf rail).getD 255, source := 0x54, aux := rail }

/-- The report of a rail that stops the device. -/
def railReport (rail : Nat) : Report := { cls := 4, level := 3, master := 0x54, source := 0x54, aux := rail }

section Rail
variable {s : State} {t rail dev since : Nat} (on : s.on F.PWR_STATUS_CONV_ON = true)
include on

/-- A rail within its window again: its excursion is over. -/
theorem exec_railSample_within (there : rail < 39) (within : dev ≤ 30) : exec (.railSample t rail dev) s =
    .next { s.tick t with pwr := { s.pwr with
      railOut := adel s.pwr.railOut rail, railActed := s.pwr.railActed.filter (fun r => r ≠ rail) } } := by
  change execRailSample t rail dev s = _
  simp only [execRailSample, there, decide_true, inst_true, State.tick_on, on, Bool.not_true, Bool.false_eq_true, if_false, if_pos within]
  rfl

/-- A rail that has lain out of its window for 10 µs is acted on: the fault of its group's partition, or the stop of the converters. -/
theorem exec_railSample_acts (there : rail < 39) (out : 30 < dev) (known : aget s.pwr.railOut rail = some since)
    (due : since + 10000 ≤ max s.now t) (fresh : rail ∉ s.pwr.railActed) : exec (.railSample t rail dev) s =
    .next (if rail < 16 then ((s.tick t).railTaken rail).raise (s.groupRailReport rail)
      else (((s.tick t).railTaken rail).convertersOff.wr F.PWR_STATUS_RAIL_FAULT 1).stopped (railReport rail) 8) := by
  have known' : aget (s.tick t).pwr.railOut rail = some since := known
  have act : ¬((s.tick t).now < since + 10000 ∨ rail ∈ (s.tick t).pwr.railActed) := by
    rintro (early | acted)
    · exact absurd early (not_lt.mpr due)
    · exact fresh acted
  change execRailSample t rail dev s = _
  simp only [execRailSample, there, decide_true, inst_true, State.tick_on, on, Bool.not_true, Bool.false_eq_true, if_false,
    if_neg (Nat.not_le_of_lt out), known', if_neg act, apply_ite Host.Outcome.next]
  rfl

end Rail

/-! ### The thermal trip (R291) -/

/-- The report of a thermal trip. -/
def tripReport (sensor : Nat) : Report := { cls := 4, level := 3, master := 0x5E, source := 0x5E, code := 3, aux := sensor }

theorem exec_thermalTrip_trips {s : State} (t : Nat) {sensor : Nat} (there : sensor < 29) (up : s.on F.AON_STAGE_SUPERVISION = true) :
    exec (.thermalTrip t sensor) s =
      .next ((((s.tick t).convertersOff.wr F.PWR_STATUS_TRIP 1).inc F.PWR_OVERRIDE_THERMAL).stopped (tripReport sensor) 3) := by
  change execThermalTrip t sensor s = _
  simp only [execThermalTrip, there, decide_true, inst_true, State.tick_on, up, Bool.not_true, Bool.false_eq_true, if_false]
  rfl

/-! ### The throttle (R291, R293, R403) -/

/-- An array of a Campanile test returns to its former role. -/
def State.roleBack (s : State) (e : Nat × Nat) : State :=
  if s.rd F.SPR_STATUS_ROLE e.1 = 4 then (s.wr F.SPR_STATUS_ROLE e.2 e.1).stirred (e.1 / 17) else s

/-- The second state differs from the first in SPR_STATUS and in idle timers alone. -/
def onlyRoles (s s' : State) : Prop :=
  sameRegsBut [.SPR_STATUS] s s' ∧ s' = { s with regs := s'.regs, pwr := { s.pwr with idleSince := s'.pwr.idleSince } }

theorem onlyRoles_refl (s : State) : onlyRoles s s := ⟨sameRegsBut_refl _ s, rfl⟩

theorem onlyRoles.trans {a b c : State} (h : onlyRoles a b) (h' : onlyRoles b c) : onlyRoles a c := by
  refine ⟨h.1.trans h'.1, ?_⟩
  rw [h'.2, h.2]

theorem State.onlyRoles_roleBack (s : State) (e : Nat × Nat) : onlyRoles s (s.roleBack e) := by
  unfold State.roleBack
  split
  · exact ⟨(sameRegsBut_refl [.SPR_STATUS] s).wr F.SPR_STATUS_ROLE e.2 e.1 0, rfl⟩
  · exact onlyRoles_refl s

/-- What GAL_CAMP shows of an aborted test. -/
def State.campShown (s : State) (began : Nat) : State :=
  ((s.wr F.GAL_CAMP_RUNNING 0).wr F.GAL_CAMP_RESULT 2).wr F.GAL_CAMP_ELAPSED_MS (min ((s.now - began) / 1000000) 65535)

/-- An aborted Campanile test ends: of the registers it touches the arrays' roles and its own alone (R403). -/
theorem State.campAbort_leaves (s : State) : s.campAbort.gal.camp = none ∧ sameRegsBut [.SPR_STATUS, .GAL_CAMP] s s.campAbort ∧
    s.campAbort.mem = s.mem ∧ s.campAbort.pwr.dieTemp = s.pwr.dieTemp := by
  cases camp : s.gal.camp with
  | none =>
    have idle : s.campAbort = s := by rw [State.campAbort, camp]
    rw [idle]
    exact ⟨camp, sameRegsBut_refl _ s, rfl, rfl⟩
  | some c =>
    let x : State := c.roles.foldl State.roleBack (s.settle c.p)
    have whole : s.campAbort = { x.campShown c.beganAt with gal := { s.gal with camp := none } } := by
      have gal : x.gal = s.gal := foldl_keeps State.gal (fun a e => by rw [(a.onlyRoles_roleBack e).2]) c.roles (s.settle c.p)
      rw [State.campAbort, camp, ← gal]
      rfl
    obtain ⟨roles, frame⟩ := foldl_related onlyRoles onlyRoles_refl (fun _ _ _ => onlyRoles.trans) State.onlyRoles_roleBack c.roles (s.settle c.p)
    have shown : sameRegsBut [.SPR_STATUS, .GAL_CAMP] x (x.campShown c.beganAt) :=
      (((sameRegsBut_refl _ x).wr F.GAL_CAMP_RUNNING 0 0 0).wr F.GAL_CAMP_RESULT 2 0 0).wr F.GAL_CAMP_ELAPSED_MS _ 0 0
    rw [whole]
    exact ⟨rfl, (sameRegsBut.weaken roles).trans shown, (congrArg State.mem frame :), (congrArg (fun a => a.pwr.dieTemp) frame :)⟩

/-- A rating judged leaves everything but registers, vectors, reports and the breaches on record. -/
theorem State.judgeRating_frame (s : State) (q : Nat) (ok : Bool) : ∃ regs host fc breaches, s.judgeRating q ok =
    { s with regs := regs, host := host, fc := fc, pwr := { s.pwr with breaches := breaches } } := by
  unfold State.judgeRating
  split
  · exact ⟨_, _, _, _, rfl⟩
  · split
    · exact ⟨_, _, _, _, rfl⟩
    · dsimp only
      rw [State.raise_frame, State.lapse_frame]
      exact ⟨_, _, _, _, rfl⟩

/-- A die's sample is taken, and the hottest of them shown. -/
def State.dieSampled (s : State) (die : Nat) (c : Int) : State :=
  let x : State := { s with pwr := { s.pwr with dieTemp := aset s.pwr.dieTemp die c } }
  x.wr F.PWR_STATUS_HOTTEST_C (unsigned x.hottest 8)

/-- The throttle begins: it counts one THERMAL override and aborts a Campanile test. -/
def State.throttled (s : State) : State := ((s.wr F.PWR_STATUS_THERM_THROTTLE 1).inc F.PWR_OVERRIDE_THERMAL).campAbort

theorem exec_thermalThrottleSample_begins {s : State} (t : Nat) {die : Nat} {c : Int} (there : die < 10)
    (idle : s.on F.PWR_STATUS_THERM_THROTTLE = false) (hot : (s.throttleC : Int) < c) : exec (.thermalThrottleSample t die c) s =
    .next (((s.tick t).dieSampled die c).throttled.judgeRating (50 + die) (decide (10 ≤ c) && decide (c ≤ 105))) := by
  have still : ((s.tick t).dieSampled die c).on F.PWR_STATUS_THERM_THROTTLE ≠ true := by
    rw [State.dieSampled, State.on_wr_lsb _ _ _ _ _ (by decide)]
    exact Bool.eq_false_iff.mp idle
  have above : c > (((s.tick t).dieSampled die c).throttleC : Int) := by
    rw [State.throttleC, State.dieSampled, State.rd_wr_reg _ _ _ _ _ _ _ _ (by decide)]
    exact hot
  change inst (decide (die < 10)) (State.judgeRating (if ((s.tick t).dieSampled die c).on F.PWR_STATUS_THERM_THROTTLE then _ else
    if c > (((s.tick t).dieSampled die c).throttleC : Int) then ((s.tick t).dieSampled die c).throttled else _) _ _) = _
  rw [if_neg still, if_pos above, decide_eq_true there, inst_true]

/-- What the throttle's begin shows and leaves. -/
theorem State.throttled_leaves (s : State) : s.throttled.rd F.PWR_STATUS_THERM_THROTTLE = 1 ∧
    s.throttled.rd F.PWR_OVERRIDE_THERMAL = counted F.PWR_OVERRIDE_THERMAL (s.rd F.PWR_OVERRIDE_THERMAL) 1 ∧
    s.throttled.gal.camp = none ∧ s.throttled.mem = s.mem ∧ s.throttled.pwr.dieTemp = s.pwr.dieTemp := by
  obtain ⟨camp, regs, mem, dies⟩ := ((s.wr F.PWR_STATUS_THERM_THROTTLE 1).inc F.PWR_OVERRIDE_THERMAL).campAbort_leaves
  refine ⟨?_, ?_, camp, mem, dies⟩
  · exact (regs _ _ _ (by decide)).trans ((State.rd_inc_reg _ _ _ _ _ _ _ _ (by decide)).trans
      (State.rd_wr_same _ F.PWR_STATUS_THERM_THROTTLE 1 0 0))
  · rw [State.throttled, regs _ _ _ (by decide), State.rd_inc_same, State.rd_wr_reg _ _ _ _ _ _ _ _ (by decide)]
    rfl

/-! ### The latches clear (R280, R282, R291) -/

theorem State.tripCleared_hot {s : State} {c : Int} (hot : 100 ≤ c) : s.tripCleared c = s :=
  if_neg (by simp [not_lt.mpr hot])

theorem State.tripCleared_cool {s : State} {c : Int} (tripped : s.on F.PWR_STATUS_TRIP = true) (cool : c < 100) : s.tripCleared c =
    (({ s with pwr := { s.pwr with coldDue := true } } : State).wr F.PWR_STATUS_TRIP 0).startConverters :=
  if_pos (by simp [tripped, cool])

/-- A write of 1 to a latch that is set leaves it set exactly while MAIN_IN is valid, and changes no other field. -/
theorem State.latchCleared_leaves {s : State} (t : Nat) {f : Fld} (bit : f.width = 1) (latch : s.on f = true) :
    ((s.tick t).latchCleared f).on f = s.pwr.main ∧ sameBut [fkey f] s ((s.tick t).latchCleared f) ∧
    (s.tick t).latchCleared f =
      { s with now := ((s.tick t).latchCleared f).now, regs := ((s.tick t).latchCleared f).regs, pwr := ((s.tick t).latchCleared f).pwr } := by
  let x : State := { s.tick t with pwr := { s.pwr with coldDue := true } }
  cases main : s.pwr.main with
  | true =>
    have stays : (s.tick t).latchCleared f = s.tick t := if_pos (by simp [main])
    rw [stays]
    exact ⟨latch, sameBut_refl _ s, rfl⟩
  | false =>
    have clears : (s.tick t).latchCleared f = x.wrB f false := if_neg (by simp [main, latch])
    rw [clears]
    exact ⟨State.on_wrB_same x f false 0 0 bit, State.sameBut_wr x f 0 0 0, rfl⟩

/-- Settles O11: each clause is the branch its command takes, and what that branch shows and leaves. -/
theorem railsTripAndThrottle : Obligations.RailsTripAndThrottle := by
  unfold Obligations.RailsTripAndThrottle
  refine ⟨?rail, ?groupRail, ?railBack, ?trip, ?throttle, ?tripClear, ?seqViolClear, ?railFaultClear⟩
  case rail =>
    intro s t rail dev since above there out on known due fresh
    let x : State := ((s.tick t).railTaken rail).convertersOff.wr F.PWR_STATUS_RAIL_FAULT 1
    have run := exec_railSample_acts on there out known due fresh
    rw [if_neg (Nat.not_lt_of_le above)] at run
    obtain ⟨conv, reason, mem, -⟩ := State.stopped_shows (x := x) (railReport rail) (reason := 8) (by decide) (onlyRegs_wr _ _ _ _ _)
      (State.rd_wr_lsb _ _ _ _ _ _ _ _ (by decide))
    have shown := x.onlyShows_stopped (railReport rail) 8
    exact ⟨_, run, (shown.regs _ _ _ (by decide)).trans (State.rd_wr_same _ F.PWR_STATUS_RAIL_FAULT 1 0 0), conv, reason, mem⟩
  case groupRail =>
    intro s t rail dev since group out on known due fresh
    have run := exec_railSample_acts on (by omega) out known due fresh
    rw [if_pos group] at run
    refine ⟨_, run, ?_, ?_, State.raise_fc_congr _ rfl rfl rfl, sameMem_of_mem ?_⟩
    all_goals
      rw [State.raise_frame]
      rfl
  case railBack =>
    intro s t rail dev there within on
    exact ⟨_, exec_railSample_within on there within, (aget_adel _ _ _).trans (if_pos rfl), rfl, sameMem_of_mem rfl⟩
  case trip =>
    intro s t sensor there up
    let x : State := ((s.tick t).convertersOff.wr F.PWR_STATUS_TRIP 1).inc F.PWR_OVERRIDE_THERMAL
    have off : x.rd F.PWR_STATUS_CONV_ON = (s.tick t).convertersOff.rd F.PWR_STATUS_CONV_ON :=
      (State.rd_inc_reg _ _ _ _ _ _ _ _ (by decide)).trans (State.rd_wr_lsb _ _ _ _ _ _ _ _ (by decide))
    obtain ⟨conv, reason, mem, -⟩ := State.stopped_shows (tripReport sensor) (reason := 3) (by decide)
      ((onlyRegs_wr _ F.PWR_STATUS_TRIP 1 0 0).wr F.PWR_OVERRIDE_THERMAL _ 0 0) off
    have shown := x.onlyShows_stopped (tripReport sensor) 3
    obtain ⟨-, kept, -⟩ := (s.tick t).convertersOff_leaves
    refine ⟨_, exec_thermalTrip_trips t there up, ?_, conv, ?_, reason, mem⟩
    · exact (shown.regs _ _ _ (by decide)).trans ((State.rd_inc_reg _ _ _ _ _ _ _ _ (by decide)).trans
        (State.rd_wr_same _ F.PWR_STATUS_TRIP 1 0 0))
    · rw [shown.regs _ _ _ (by decide), State.rd_inc_same, State.rd_wr_reg _ _ _ _ _ _ _ _ (by decide), kept _ _ _ (by decide) (by decide)]
      rfl
  case throttle =>
    intro s t die c there idle hot
    let x : State := (s.tick t).dieSampled die c
    obtain ⟨throttle, thermal, camp, mem, dies⟩ := x.throttled_leaves
    have rating := x.throttled.judgeRating_leaves (50 + die) (decide (10 ≤ c) && decide (c ≤ 105))
    obtain ⟨_, _, _, _, frame⟩ := x.throttled.judgeRating_frame (50 + die) (decide (10 ≤ c) && decide (c ≤ 105))
    refine ⟨_, exec_thermalThrottleSample_begins t there idle hot, (rating.2 _ _ _ (by decide)).trans throttle, ?_, ?_, ?_,
      sameMem_of_mem (rating.1.trans mem)⟩
    · rw [rating.2 _ _ _ (by decide), thermal]
      exact congrArg (fun v => counted F.PWR_OVERRIDE_THERMAL v 1) (State.rd_wr_reg _ F.PWR_STATUS_HOTTEST_C _ _ _ _ _ _ (by decide))
    · have taken : aget x.throttled.pwr.dieTemp die = some c := by
        rw [dies]
        exact aget_aset_same _ _ _
      rw [frame]
      exact taken
    · rw [frame]
      exact camp
  case tripClear =>
    intro s t c tripped
    refine ⟨(s.tick t).tripCleared c, rfl, fun cool => ?_, State.tripCleared_hot, ?_⟩
    · rw [State.tripCleared_cool (s := s.tick t) tripped cool]
      obtain ⟨regs, -⟩ := (({ s.tick t with pwr := { s.pwr with coldDue := true } } : State).wr F.PWR_STATUS_TRIP 0).startConverters_leaves
      exact (regs _ _ _ (by decide)).trans (State.rd_wr_same _ F.PWR_STATUS_TRIP 0 0 0)
    · rcases lt_or_ge c 100 with cool | hot
      · rw [State.tripCleared_cool (s := s.tick t) tripped cool]
        obtain ⟨-, -, mem⟩ := (({ s.tick t with pwr := { s.pwr with coldDue := true } } : State).wr F.PWR_STATUS_TRIP 0).startConverters_leaves
        exact sameMem_of_mem mem
      · rw [State.tripCleared_hot hot]
        exact sameMem_of_mem rfl
  case seqViolClear =>
    intro s t latch
    exact ⟨_, rfl, State.latchCleared_leaves t rfl latch⟩
  case railFaultClear =>
    intro s t latch
    exact ⟨_, rfl, State.latchCleared_leaves t rfl latch⟩

end Sys2Proof.Machine
end

section
/-!
PROOFS of the power statements (spec/13): what CLK_AG shows of a group, and the state that refutes the clause on a rail with margin (O12).
-/

namespace Sys2Proof.Machine

/-! ### The clock and the rail shown (R284, R292) -/

section ShowClock
variable (s : State) (g : Nat)

/-- The clock and the rail of a group show in two fields of its register alone. -/
theorem State.showClock_leaves : sameBut [fkey F.CLK_AG_MHZ g, fkey F.CLK_AG_MV g] s (s.showClock g) ∧ sameRegsBut [.CLK_AG] s (s.showClock g) ∧
    onlyRegs s (s.showClock g) :=
  ⟨((sameBut_refl _ s).wr F.CLK_AG_MHZ _ g 0 List.mem_cons_self).wr F.CLK_AG_MV _ g 0 (List.mem_cons_of_mem _ List.mem_cons_self),
    ((sameRegsBut_refl _ s).wr F.CLK_AG_MHZ _ g 0).wr F.CLK_AG_MV _ g 0, rfl⟩

theorem State.rd_showClock_lsb (f : Fld) (i j : Nat) (mhz : f.lsb ≠ 20) (mv : f.lsb ≠ 8) : (s.showClock g).rd f i j = s.rd f i j :=
  (State.rd_wr_lsb _ F.CLK_AG_MV _ _ _ _ _ _ mv).trans (State.rd_wr_lsb _ F.CLK_AG_MHZ _ _ _ _ _ _ mhz)

/-- A group that does not run shows no clock. -/
theorem State.mhz_showClock {s : State} {g : Nat} (gated : s.rd F.CLK_AG_STATE g ≠ 0) : (s.showClock g).rd F.CLK_AG_MHZ g = 0 := by
  unfold State.showClock
  dsimp only
  rw [if_neg gated, State.rd_wr_lsb _ _ _ _ _ _ _ _ (by decide)]
  exact State.rd_wr_same _ F.CLK_AG_MHZ 0 g 0

/-- The field MV has 12 bits: of a rail that is on it shows the commanded voltage modulo 4,096. -/
theorem State.mv_showClock : (s.showClock g).rd F.CLK_AG_MV g =
    if s.rd F.CLK_AG_STATE g = 2 ∨ s.rd F.CLK_AG_STATE g = 4 then 0 else agetD s.pwr.grpMv g 800 % 4096 := by
  refine (State.rd_wr_same _ F.CLK_AG_MV _ g 0).trans ?_
  split
  · rfl
  · rfl

end ShowClock

/-! ### A step of adaptive voltage with margin below (R292) -/

/-- The adaptive loop has stepped rail `g` at the state's time. -/
def State.railStepped (s : State) (g : Nat) : State := { s with pwr := { s.pwr with mvAt := aset s.pwr.mvAt g s.now } }

section LowerRail
variable {s : State} {g : Nat} (t : Nat) (m : Bool) (group : g < 16) (runs : s.rd F.CLK_AG_STATE g = 0)
  (due : ∀ a, aget s.pwr.mvAt g = some a → a + 10000 ≤ max s.now t) (high : 605 ≤ agetD s.pwr.grpMv g 800)
include group runs due high

theorem exec_adaptiveVoltageStep_marginBelow : exec (.adaptiveVoltageStep t g true m) s =
    .next (((s.tick t).railStepped g).setMv g (agetD s.pwr.grpMv g 800 - 5)) := by
  have notBfy : ¬ g = 16 := by omega
  have steps : (s.tick t).railSteps g = true := by
    have late : (aget (s.tick t).pwr.mvAt g).all (fun a => decide (a + 10000 ≤ (s.tick t).now)) = true := by
      rw [Option.all_eq_true]
      exact fun a there => decide_eq_true (due a there)
    rw [State.railSteps, if_neg notBfy, late, Bool.and_true]
    exact decide_eq_true runs
  change inst (decide (g < 17)) (if (s.tick t).railSteps g then
    (if g = 16 then _ else ((s.tick t).railStepped g).railStep g true m) else _) = _
  rw [decide_eq_true (by omega), inst_true, if_pos steps, if_neg notBfy, State.railStep, if_pos rfl]
  exact congrArg Host.Outcome.next (if_pos high)

/-- The rail falls by 5 mV, and MV shows it in its 12 bits. -/
theorem adaptiveVoltageStep_lowers : ∃ s', exec (.adaptiveVoltageStep t g true m) s = .next s' ∧
    agetD s'.pwr.grpMv g 800 = agetD s.pwr.grpMv g 800 - 5 ∧ s'.rd F.CLK_AG_MV g = (agetD s.pwr.grpMv g 800 - 5) % 4096 ∧
    sameBut [fkey F.CLK_AG_MV g, fkey F.CLK_AG_MHZ g] s s' ∧ s' = { s with now := s'.now, regs := s'.regs, pwr := s'.pwr } := by
  let v := agetD s.pwr.grpMv g 800 - 5
  let x : State := { (s.tick t).railStepped g with pwr := { ((s.tick t).railStepped g).pwr with grpMv := aset s.pwr.grpMv g v } }
  obtain ⟨only, -, -⟩ := x.showClock_leaves g
  have set : agetD x.pwr.grpMv g 800 = v := agetD_of_aget (aget_aset_same s.pwr.grpMv g v)
  have runs' : ¬ (x.rd F.CLK_AG_STATE g = 2 ∨ x.rd F.CLK_AG_STATE g = 4) := by
    change ¬ (s.rd F.CLK_AG_STATE g = 2 ∨ s.rd F.CLK_AG_STATE g = 4)
    omega
  refine ⟨_, exec_adaptiveVoltageStep_marginBelow t m group runs due high, set, ?_, fun f i j out => only f i j (fun mem => out ?_), rfl⟩
  · exact (x.mv_showClock g).trans ((if_neg runs').trans (congrArg (· % 4096) set))
  · exact List.mem_pair.mpr (List.mem_pair.mp mem).symm

/-- The clause of PowerCapAndClocks on a step with margin below, with the hypothesis that it lacks: the rail fits the field MV. No rail of a
device stands above 800 mV (R292), so the hypothesis holds of every state a device comes to. -/
theorem adaptiveVoltageStep_lowers_shown (fits : agetD s.pwr.grpMv g 800 ≤ 4095) : ∃ s', exec (.adaptiveVoltageStep t g true m) s = .next s' ∧
    agetD s'.pwr.grpMv g 800 = agetD s.pwr.grpMv g 800 - 5 ∧ s'.rd F.CLK_AG_MV g = agetD s.pwr.grpMv g 800 - 5 ∧
    sameBut [fkey F.CLK_AG_MV g, fkey F.CLK_AG_MHZ g] s s' ∧ s' = { s with now := s'.now, regs := s'.regs, pwr := s'.pwr } := by
  obtain ⟨s', run, mv, shown, only, frame⟩ := adaptiveVoltageStep_lowers t m group runs due high
  exact ⟨s', run, mv, shown.trans (Nat.mod_eq_of_lt (by omega)), only, frame⟩

end LowerRail

/-- A running group whose rail stands at 5,000 mV, more than the field MV can show. -/
def railBeyondField : State := { regs := [(fkey F.CLK_AG_STATE, 0)], pwr := { grpMv := [(0, 5000)] } }

/-- Refutes O12: the clause on a step of adaptive voltage with margin below asks that MV read the new voltage, for every rail of 605 mV or more.
CLK_AG.MV has 12 bits, and the clause does not bound the rail: at 5,000 mV the step makes 4,995 mV and MV reads 899. A rail of the device stands
at 800 mV or less, and the clause holds wherever the rail fits the field (adaptiveVoltageStep_lowers_shown). -/
theorem not_powerCapAndClocks : ¬ Obligations.PowerCapAndClocks := by
  unfold Obligations.PowerCapAndClocks
  rintro ⟨-, -, -, -, -, -, lowers, -⟩
  have due : ∀ a, aget railBeyondField.pwr.mvAt 0 = some a → a + 10000 ≤ max railBeyondField.now 0 := nofun
  obtain ⟨s', run, -, shown, -⟩ := lowers railBeyondField 0 0 true (by decide) (by decide) due (by decide)
  obtain ⟨x, run', -, wrapped, -⟩ := adaptiveVoltageStep_lowers (s := railBeyondField) (g := 0) 0 true (by decide) (by decide) due (by decide)
  obtain rfl : x = s' := Host.Outcome.next.inj (run'.symm.trans run)
  exact absurd (wrapped.symm.trans shown) (by decide)

end Sys2Proof.Machine
end

section
/-!
PROOFS of the power statements (spec/13): array groups sleep when idle and wake with their held events (O13).
-/

namespace Sys2Proof.Machine

/-! ### Gating (R285) -/

/-- A group shown in a state: clock and rail follow it. -/
def State.groupShown (s : State) (g st : Nat) : State := (s.wr F.CLK_AG_STATE st g).showClock g

section Shown
variable (s : State) (g : Nat) {st : Nat}

theorem State.groupShown_leaves (st : Nat) : sameBut [fkey F.CLK_AG_STATE g, fkey F.CLK_AG_MHZ g, fkey F.CLK_AG_MV g] s (s.groupShown g st) ∧
    sameRegsBut [.CLK_AG] s (s.groupShown g st) ∧ onlyRegs s (s.groupShown g st) := by
  obtain ⟨fields, regs, only⟩ := (s.wr F.CLK_AG_STATE st g).showClock_leaves g
  refine ⟨fun f i j out => ?_, ((sameRegsBut_refl [.CLK_AG] s).wr F.CLK_AG_STATE st g 0).trans regs, only⟩
  obtain ⟨state, rest⟩ := not_or.mp (mt List.mem_cons.mpr out)
  exact (fields f i j rest).trans (s.sameBut_wr F.CLK_AG_STATE st g 0 f i j (fun mem => state (List.mem_singleton.mp mem)))

theorem State.state_groupShown (code : st < 8) : (s.groupShown g st).rd F.CLK_AG_STATE g = st :=
  (State.rd_showClock_lsb _ _ _ _ _ (by decide) (by decide)).trans ((State.rd_wr_same _ _ _ _ _).trans (Nat.mod_eq_of_lt code))

theorem State.mhz_groupShown (code : st < 8) (gated : st ≠ 0) : (s.groupShown g st).rd F.CLK_AG_MHZ g = 0 :=
  State.mhz_showClock (by rw [State.rd_wr_same]; exact (Nat.mod_eq_of_lt code).symm ▸ gated)

theorem State.mv_groupShown_powerGated : (s.groupShown g 2).rd F.CLK_AG_MV g = 0 :=
  (State.mv_showClock _ g).trans (if_pos (Or.inl (State.rd_wr_same s F.CLK_AG_STATE 2 g 0)))

end Shown

theorem exec_clockGateEntry_gates {s : State} {g : Nat} (t : Nat) (group : g < 16) (runs : s.rd F.CLK_AG_STATE g = 0)
    (idle : s.groupIdle g = true) (late : (s.tick t).idleFor g (fun c => c.cgIdleUs) = true) :
    exec (.clockGateEntry t g) s = .next ((s.tick t).groupShown g 1) := by
  have gates : (s.tick t).rd F.CLK_AG_STATE g = 0 ∧ (s.tick t).groupIdle g = true ∧ (s.tick t).idleFor g (fun c => c.cgIdleUs) = true :=
    ⟨runs, idle, late⟩
  change inst (decide (g < 16)) (if (s.tick t).rd F.CLK_AG_STATE g = 0 ∧ (s.tick t).groupIdle g = true ∧
    (s.tick t).idleFor g (fun c => c.cgIdleUs) = true then (s.tick t).groupShown g 1 else _) = _
  rw [decide_eq_true group, inst_true, if_pos gates]

theorem exec_powerGateEntry_gates {s : State} {g : Nat} (t : Nat) (group : g < 16) (on : s.rd F.CLK_AG_STATE g = 0 ∨ s.rd F.CLK_AG_STATE g = 1)
    (idle : s.groupIdle g = true) (late : (s.tick t).idleFor g (fun c => c.pgIdleUs) = true)
    (notHome : ∀ p, p ∈ s.partNums → s.homeOf p ≠ some g) (noWake : ∀ w, w ∈ s.pwr.wakeQ → w.g ≠ g) :
    exec (.powerGateEntry t g) s = .next (((s.tick t).loseTiles g).groupShown g 2) := by
  have away : (s.tick t).partNums.all (fun p => (s.tick t).homeOf p ≠ some g) = true :=
    List.all_eq_true.mpr (fun p mem => decide_eq_true (notHome p mem))
  have unasked : (s.tick t).pwr.wakeQ.all (fun w => w.g ≠ g) = true := List.all_eq_true.mpr (fun w mem => decide_eq_true (noWake w mem))
  change inst (decide (g < 16)) (if ((s.tick t).rd F.CLK_AG_STATE g = 0 ∨ (s.tick t).rd F.CLK_AG_STATE g = 1) ∧ (s.tick t).groupIdle g = true ∧
    (s.tick t).idleFor g (fun c => c.pgIdleUs) = true ∧ (s.tick t).partNums.all (fun p => (s.tick t).homeOf p ≠ some g) = true ∧
    (s.tick t).pwr.wakeQ.all (fun w => w.g ≠ g) = true then ((s.tick t).loseTiles g).groupShown g 2 else _) = _
  rw [decide_eq_true group, inst_true, if_pos ⟨on, idle, late, away, unasked⟩]

/-! ### Stationary tiles are lost (R285) -/

/-- One array loses its stationary tiles. -/
def State.tilesLost (s : State) (pa : Nat) : State :=
  (s.setPa pa { s.pa pa with shadow := none, active := none }).wr F.SPR_STATUS_SHADOW_READY 0 pa

/-- An array holds no stationary tile and shows none. -/
def noTiles (pa : Nat) (s : State) : Prop := (s.pa pa).shadow = none ∧ (s.pa pa).active = none ∧ s.rd F.SPR_STATUS_SHADOW_READY pa = 0

theorem State.noTiles_tilesLost (s : State) (pa : Nat) : noTiles pa (s.tilesLost pa) := by
  have own : (s.tilesLost pa).pa pa = { s.pa pa with shadow := none, active := none } := s.pa_setPa_same pa _
  exact ⟨by rw [own], by rw [own], State.rd_wr_same _ F.SPR_STATUS_SHADOW_READY 0 pa 0⟩

/-- The loss of other arrays' tiles brings none back. -/
theorem noTiles.tilesLost {pa : Nat} {s : State} (h : noTiles pa s) (m : Nat) : noTiles pa (s.tilesLost m) := by
  by_cases same : pa = m
  · exact same ▸ s.noTiles_tilesLost pa
  · have other : (s.tilesLost m).pa pa = s.pa pa := congrArg (fun o : Option PaSt => o.getD {}) (aget_aset_other s.pas m pa _ same)
    obtain ⟨shadow, active, ready⟩ := h
    exact ⟨by rw [other, shadow], by rw [other, active], (State.rd_wr_inst _ _ _ _ _ _ _ _ (Or.inl same)).trans ready⟩

theorem State.loseTiles_eq (s : State) (g : Nat) : s.loseTiles g = ((List.range 17).map (fun j => 17 * g + j)).foldl State.tilesLost s := by
  rw [List.foldl_map]
  rfl

/-- Each array of the group has lost its tiles. -/
theorem State.noTiles_loseTiles (s : State) {g j : Nat} (array : j < 17) : noTiles (17 * g + j) (s.loseTiles g) := by
  have listed : 17 * g + j ∈ (List.range 17).map (fun j => 17 * g + j) := List.mem_map.mpr ⟨j, List.mem_range.mpr array, rfl⟩
  obtain ⟨before, after, split⟩ := List.append_of_mem listed
  rw [State.loseTiles_eq, split, List.foldl_append, List.foldl_cons]
  exact List.foldlRecOn after _ (motive := noTiles (17 * g + j)) (State.noTiles_tilesLost _ _) (fun _ kept m _ => kept.tilesLost m)

/-- What a group shows of its state brings no tile back. -/
theorem noTiles.groupShown {pa : Nat} {s : State} (h : noTiles pa s) (g st : Nat) : noTiles pa (s.groupShown g st) := by
  obtain ⟨shadow, active, ready⟩ := h
  obtain ⟨-, regs, -⟩ := s.groupShown_leaves g st
  exact ⟨shadow, active, (regs _ _ _ (by decide)).trans ready⟩

/-- The loss of tiles changes the arrays and SPR_STATUS alone. -/
theorem State.loseTiles_leaves (s : State) (g : Nat) : sameRegsBut [.SPR_STATUS] s (s.loseTiles g) ∧
    s.loseTiles g = { s with regs := (s.loseTiles g).regs, pas := (s.loseTiles g).pas } := by
  rw [State.loseTiles_eq]
  refine foldl_related (fun a b : State => sameRegsBut [.SPR_STATUS] a b ∧ b = { a with regs := b.regs, pas := b.pas })
    (fun a => ⟨sameRegsBut_refl _ a, rfl⟩) (fun a b c h h' => ⟨h.1.trans h'.1, ?_⟩)
    (fun a pa => ⟨(sameRegsBut_refl [.SPR_STATUS] (a.setPa pa _)).wr F.SPR_STATUS_SHADOW_READY 0 pa 0, rfl⟩) _ s
  rw [h'.2, h.2]

/-- Registers written after a change of time, registers and arrays. -/
theorem onlyRegs.frame_pas {a b c : State} (only : onlyRegs b c) (few : b = { a with now := b.now, regs := b.regs, pas := b.pas }) :
    c = { a with now := c.now, regs := c.regs, pas := c.pas } := by
  rw [only, few]

/-! ### Events (R286) -/

/-- An event for one group arrives: it is held while the group does not run, and delivered otherwise. -/
theorem exec_wakeEvent_arrives {s : State} {g : Nat} {ev : HeldEvent} (t : Nat) (group : g < 16) (up : s.safe = false)
    (for_ : s.groupsFor ev = [g]) (first : s.behind ev = none) (here : s.rd F.CLK_AG_STATE g ≠ 4) :
    exec (.wakeEvent t g ev) s = .next (if s.groupRuns g then (s.tick t).deliver ev else (s.tick t).holdEvent g ev) := by
  have for' : (s.tick t).groupsFor ev = [g] := (by cases ev <;> rfl : (s.tick t).groupsFor ev = s.groupsFor ev).trans for_
  have first' : (s.tick t).behind ev = none := first
  have comes : ¬((s.tick t).safe = true ∨ (s.tick t).rd F.CLK_AG_STATE g = 4 ∨ (!((s.tick t).groupsFor ev).contains g) = true) := by
    rintro (safe | absent | other)
    · exact Bool.false_ne_true (up.symm.trans safe)
    · exact here absent
    · simp [for'] at other
  have arrives : (s.tick t).arrive ev = if s.groupRuns g then (s.tick t).deliver ev else (s.tick t).holdEvent g ev := by
    rw [State.arrive, first', for']
    cases runs : s.groupRuns g <;> simp [runs]
  change inst (decide (g < 16)) (if (s.tick t).safe = true ∨ (s.tick t).rd F.CLK_AG_STATE g = 4 ∨
    (!((s.tick t).groupsFor ev).contains g) = true then _ else (s.tick t).arrive ev) = _
  rw [decide_eq_true group, inst_true, if_neg comes, arrives]

/-! ### Wakes (R287) -/

/-- The wake controller's books when a wake begins: the wake leaves the queue, its begin is on record, and the group is due. -/
def State.wakeBooked (s : State) (g : Nat) (w : WakeReq) (power : Bool) : State :=
  { s with pwr := { s.pwr with
    wakeQ := s.pwr.wakeQ.filter (fun v => v ≠ w),
    pgStarts := if power then s.now :: s.pwr.pgStarts.filter (fun a => s.now < a + 10000) else s.pwr.pgStarts,
    cgStarts := if power then s.pwr.cgStarts else s.now :: s.pwr.cgStarts.filter (fun a => s.now < a + 100),
    waking := aset s.pwr.waking g (s.now + if power then 40000 else 200) } }

/-- A wake from POWER_GATED is counted. -/
def State.wakeCounted (s : State) (g : Nat) (power : Bool) : State := if power then s.inc F.CLK_AG_PG_WAKES g else s

theorem State.wakeCounted_leaves (s : State) (g : Nat) (power : Bool) : sameRegsBut [.CLK_AG] s (s.wakeCounted g power) ∧
    onlyRegs s (s.wakeCounted g power) ∧ (s.wakeCounted g power).rd F.CLK_AG_PG_WAKES g =
      if power then counted F.CLK_AG_PG_WAKES (s.rd F.CLK_AG_PG_WAKES g) 1 else s.rd F.CLK_AG_PG_WAKES g := by
  cases power with
  | true => exact ⟨(sameRegsBut_refl [.CLK_AG] s).wr F.CLK_AG_PG_WAKES _ g 0, rfl, State.rd_inc_same _ _ _ _ _⟩
  | false => exact ⟨sameRegsBut_refl _ s, rfl, rfl⟩

/-- No wake comes before itself. -/
theorem WakeReq.not_before_self (w : WakeReq) : w.before w = false := by simp [WakeReq.before]

/-- The only wake that waits begins where the limits allow. -/
theorem exec_wakeStart_only {s : State} {g : Nat} {w : WakeReq} (t : Nat) (group : g < 16) (only : s.pwr.wakeQ = [w]) (own : w.g = g)
    (up : s.safe = false) (fits : (s.tick t).wakeFits (decide (s.rd F.CLK_AG_STATE g = 2)) = true) : exec (.wakeStart t g) s =
    .next ((((s.tick t).wakeBooked g w (decide (s.rd F.CLK_AG_STATE g = 2))).wakeCounted g (decide (s.rd F.CLK_AG_STATE g = 2))).groupShown
      g 3) := by
  have found : (s.tick t).pwr.wakeQ.find? (fun v => decide (v.g = g)) = some w := by simp [only, own]
  have goes : ¬((s.tick t).safe = true ∨ (!(s.tick t).wakeFits (decide ((s.tick t).rd F.CLK_AG_STATE g = 2))) = true ∨
      ((s.tick t).pwr.wakeQ.any (fun v => decide ((s.tick t).rd F.CLK_AG_STATE v.g = 2) ==
        decide ((s.tick t).rd F.CLK_AG_STATE g = 2) && v.before w)) = true) := by
    rintro (safe | full | before)
    · exact Bool.false_ne_true (up.symm.trans safe)
    · rw [State.tick_rd, fits] at full
      exact Bool.false_ne_true full
    · simp [only, w.not_before_self] at before
  change execWakeStart t g s = _
  simp only [execWakeStart, group, decide_true, inst_true, found, if_neg goes]
  rfl

/-! ### A wake completes (R286) -/

/-- The group whose wake is due stops waking, and its idle timer restarts. -/
def State.awake (s : State) (g : Nat) : State :=
  ({ s with pwr := { s.pwr with waking := adel s.pwr.waking g } } : State).stirred g

theorem exec_wakeComplete_due {s : State} {g due : Nat} (t : Nat) (group : g < 16) (waking : aget s.pwr.waking g = some due)
    (late : due ≤ max s.now t) (wakes : s.rd F.CLK_AG_STATE g = 3) :
    exec (.wakeComplete t g) s = .next ((((s.tick t).awake g).groupShown g 0).releaseKey g).releasePosted := by
  have waking' : aget (s.tick t).pwr.waking g = some due := waking
  have ready : ¬((s.tick t).now < due ∨ (s.tick t).rd F.CLK_AG_STATE g ≠ 3) := by
    rintro (early | other)
    · exact absurd early (not_lt.mpr late)
    · exact other wakes
  change execWakeComplete t g s = _
  simp only [execWakeComplete, group, decide_true, inst_true, waking', if_neg ready]
  rfl

/-- Where no event is held, none is released. -/
theorem State.release_unheld {s : State} (g : Nat) (none_ : s.pwr.held = []) : (s.releaseKey g).releasePosted = s := by
  have key : s.releaseKey g = { s with pwr := { s.pwr with held := [] } } := by
    rw [State.releaseKey, none_]
    rfl
  have still : ({ s with pwr := { s.pwr with held := [] } } : State) = s := by rw [← none_]
  rw [key, still, State.releasePosted, none_]
  rfl

/-- Settles O13: each clause is the branch its command takes, and what that branch shows and leaves. -/
theorem sleepAndWake : Obligations.SleepAndWake := by
  unfold Obligations.SleepAndWake
  refine ⟨?clockGate, ?powerGate, ?held, ?taken, ?wakeStart, ?wakeComplete, ?noneHeld⟩
  case clockGate =>
    intro s t g group runs idle late
    obtain ⟨fields, -, only⟩ := (s.tick t).groupShown_leaves g 1
    refine ⟨_, exec_clockGateEntry_gates t group runs idle late, State.state_groupShown _ g (by decide),
      State.mhz_groupShown _ g (by decide) (by decide), fields, ?_⟩
    rw [only]
    rfl
  case powerGate =>
    intro s t g group on idle late notHome noWake
    obtain ⟨tiles, frame⟩ := (s.tick t).loseTiles_leaves g
    obtain ⟨-, regs, only⟩ := ((s.tick t).loseTiles g).groupShown_leaves g 2
    have kept : sameRegsBut [.CLK_AG, .SPR_STATUS] (s.tick t) (((s.tick t).loseTiles g).groupShown g 2) :=
      (sameRegsBut.weaken tiles).trans (sameRegsBut.weaken regs)
    refine ⟨_, exec_powerGateEntry_gates t group on idle late notHome noWake, State.state_groupShown _ g (by decide),
      State.mhz_groupShown _ g (by decide) (by decide), State.mv_groupShown_powerGated _ g,
      fun j array => ((s.tick t).noTiles_loseTiles (g := g) array).groupShown g 2, kept, only.frame_pas (frame.trans rfl)⟩
  case held =>
    intro s t g ev group up for_ first asleep
    have here : s.rd F.CLK_AG_STATE g ≠ 4 := by omega
    have sleeps : ¬ s.groupRuns g = true := by
      rw [State.groupRuns, decide_eq_true_eq]
      omega
    have run := exec_wakeEvent_arrives t group up for_ first here
    rw [if_neg sleeps] at run
    obtain ⟨held, frame⟩ := (s.tick t).holdEvent_eq g ev up here
    refine ⟨_, run, held, State.holdEvent_wakes (s := s.tick t) ev up asleep, ?_⟩
    rw [frame]
    rfl
  case taken =>
    intro s t g ev group up for_ first runs
    have run := exec_wakeEvent_arrives t group up for_ first (by omega)
    rwa [if_pos (show s.groupRuns g = true from decide_eq_true runs)] at run
  case wakeStart =>
    intro s t g w group only own up fits
    let power := decide (s.rd F.CLK_AG_STATE g = 2)
    let x : State := (s.tick t).wakeBooked g w power
    obtain ⟨countedRegs, countedFrame, count⟩ := x.wakeCounted_leaves g power
    obtain ⟨-, regs, shown⟩ := (x.wakeCounted g power).groupShown_leaves g 3
    have pwr : ((x.wakeCounted g power).groupShown g 3).pwr = x.pwr := by rw [shown, countedFrame]
    refine ⟨_, exec_wakeStart_only t group only own up fits, State.state_groupShown _ g (by decide), ?_, ?_, ?_,
      countedRegs.trans regs, ?_⟩
    · rw [pwr]
      change s.pwr.wakeQ.filter (fun v => v ≠ w) = []
      simp [only]
    · rw [pwr]
      refine (aget_aset_same _ _ _).trans ?_
      simp only [power, decide_eq_true_eq]
      rfl
    · refine (State.rd_showClock_lsb _ _ _ _ _ (by decide) (by decide)).trans ((State.rd_wr_lsb _ _ _ _ _ _ _ _ (by decide)).trans
        (count.trans ?_))
      simp only [power, decide_eq_true_eq]
      rfl
    · rw [shown, countedFrame]
      rfl
  case wakeComplete =>
    intro s t g due group waking late wakes
    exact exec_wakeComplete_due t group waking late wakes
  case noneHeld =>
    intro s t g due group waking late wakes none_
    obtain ⟨-, regs, only⟩ := ((s.tick t).awake g).groupShown_leaves g 0
    have run := exec_wakeComplete_due t group waking late wakes
    rw [State.release_unheld g (by rw [only]; exact none_)] at run
    refine ⟨_, run, State.state_groupShown _ g (by decide), ?_, regs, ?_⟩
    · rw [only]
      exact aget_aset_same _ _ _
    · rw [only]
      rfl

end Sys2Proof.Machine
end
